-- ==== Sys2Proof/Word.lean ====
section
/-! DEFINITION. The words and plain containers of the model: 64-bit words, bytes, the two dies, pairs by die and
sparse tables by number. -/

namespace Sys2Proof

/-- R1, R2: a 64-bit word. -/
abbrev Word := BitVec 64

/-- R1: a byte. -/
abbrev Byte := BitVec 8

/-- R7, R271, R303: West or East: a die, the head (A west, B east) or the Flue port (0 west, 1 east) on it. -/
inductive Side where
  | west | east
deriving DecidableEq, Repr

/-- One thing for each die, head or port. -/
structure Two (α : Type) where
  /-- West, head A or port 0. -/
  w : α
  /-- East, head B or port 1. -/
  e : α
deriving DecidableEq, Repr

/-- A sparse table by number, its keys strictly rising; an absent number holds what the table's user says. -/
abbrev Tbl (α : Type) := List (Nat × α)

end Sys2Proof
end

