-- ==== Sys2Proof/Syntax.lean ====
section
/-! DEFINITION. The commands of the part: one constructor of Instr for each row of spec/opcode_table.json, and the
kinds of their operands. A row whose effect the spec hangs on something outside the part (what a NAND read gave, what
a sensor read, whether a frame's seal verifies) carries that as an operand. -/

namespace Sys2Proof

/-- R274: the logical device of a head from which a command comes. -/
structure Ld where
  /-- R274: head. -/
  head : Side := .west
  /-- R274: LD-ID. -/
  id : Nat := 0
deriving DecidableEq, Repr

/-- R26: an accepted instruction, named by its ring and its acceptance index. -/
structure At where
  /-- R26: ring number. -/
  ring : Nat := 0
  /-- R26: index. -/
  index : BitVec 32 := 0
  /-- R49: none for the ring entry itself; else a step of the image that its CTL.CALL runs, by the number of the step since
  the call began. -/
  step : Option Nat := none
deriving DecidableEq, Repr

/-- R292: the three event logs of an LD. -/
inductive EvLog where
  | info | warning | failure
deriving DecidableEq, Repr

/-- R366: life-cycle state. -/
inductive Lcs where
  | blank | provisioned | deployed | returned | scrapped
deriving DecidableEq, Repr

/-- R400: a firmware image: what its header says, and whether its signature verifies. -/
structure FwImage where
  /-- R400: security version number. -/
  svn : Nat := 0
  /-- R400: the signature verifies under the firmware verification root. -/
  signed : Bool := false
  /-- R400: the life-cycle states the image serves. -/
  serves : List Lcs := []
  /-- R391, R401: digest of the image, which the report shows once it runs. -/
  digest : BitVec 512 := 0
  /-- R431: its length in bytes. -/
  bytes : Nat := 0
deriving DecidableEq, Repr

/-- R439, R448: the fields of Admit Ring. -/
structure Demand where
  /-- R448: P in µs. -/
  period : Nat := 0
  /-- R448: I. -/
  issue : Nat := 0
  /-- R448: arithmetic, West. -/
  arithW : Nat := 0
  /-- R448: arithmetic, East. -/
  arithE : Nat := 0
  /-- R448: Hearth, West. -/
  hearthW : Nat := 0
  /-- R448: Hearth, East. -/
  hearthE : Nat := 0
  /-- R448: Flue port 0. -/
  flue0 : Nat := 0
  /-- R448: Flue port 1. -/
  flue1 : Nat := 0
deriving DecidableEq, Repr

/-- R293: the QoS commands of the FM endpoint. -/
inductive Qos where
  | getControl
  | setControl (v : BitVec 64)
  | getStatus
  | getAllocated
  | setAllocated (v : BitVec 64)
  | getLimit
  | setLimit (v : BitVec 64)
deriving DecidableEq, Repr

/-- R389, R390: which of the part's algorithms a requester offers. -/
structure SpdmOffer where
  /-- R390: ML-DSA-87 as an extended entry. -/
  sign : Bool := false
  /-- R390: SHA3-512. -/
  hash : Bool := false
  /-- R390: ML-KEM-1024 as an extended entry. -/
  kem : Bool := false
  /-- R390: AES-256-GCM. -/
  aead : Bool := false
  /-- R390: it asks for mutual authentication, with ML-DSA-87 as an extended entry. -/
  mutualAuth : Bool := false
deriving DecidableEq, Repr

/-- R276: the size of an HDM decoder's range, and the DPA skipped before it. -/
structure HdmSize where
  /-- R276: size in bytes. -/
  size : Nat := 0
  /-- R276: DPA skip in bytes. -/
  skip : Nat := 0
deriving DecidableEq, Repr

/-- R295: the IDE streams of a head. -/
inductive IdeStream where
  /-- R295: the PCIe link IDE stream of CXL.io. -/
  | io
  /-- R295: CXL.cachemem IDE of CXL.mem, in skid mode or in containment mode. -/
  | mem (skid : Bool := false)
deriving DecidableEq, Repr

/-- R331: the MACsec SecTAG of a frame received, with what became of its ICV. -/
structure SecTag where
  /-- R331: SCI. -/
  sci : BitVec 64 := 0
  /-- R331: packet number, its upper half as the port recovers it. -/
  pn : BitVec 64 := 1
  /-- R331: the ICV verifies under the port's association. -/
  icvOk : Bool := true
deriving DecidableEq, Repr

/-- R305, R331: what a received Ethernet frame is, before the part looks at any Flue header. -/
structure EthFrame where
  /-- R305: EtherType. -/
  etherType : BitVec 16 := 0
  /-- R305: IPv4 (false) or IPv6 (true), destination address and UDP destination port, where it carries UDP. -/
  udp : Option (Bool × BitVec 128 × BitVec 16) := none
  /-- R305: it is a PFC frame. -/
  pfc : Bool := false
  /-- R305: it is a MACsec key agreement frame. -/
  mka : Bool := false
  /-- R331: its MACsec SecTAG, where it carries one. -/
  sec : Option SecTag := none
  /-- R303: its length in bytes, from the destination address to the FCS. -/
  len : Nat := 64
  /-- R335: an FEC block of it was uncorrectable. -/
  fecBad : Bool := false
deriving DecidableEq, Repr

/-- R306-R310: a Flue packet as the wire carries it, its headers read. -/
structure Packet where
  /-- R331: its MACsec SecTAG, where it carries one. -/
  sec : Option SecTag := none
  /-- R308: VERSION. -/
  version : BitVec 4 := 1
  /-- R308, R310: TYPE. -/
  type : BitVec 4 := 1
  /-- R308, R309: FLAGS. -/
  flags : BitVec 8 := 0
  /-- R308: CONN with its reserved bit. -/
  conn : BitVec 16 := 0
  /-- R308: MSGSEQ. -/
  msgSeq : BitVec 32 := 0
  /-- R308: PKTIDX. -/
  pktIdx : BitVec 16 := 0
  /-- R308: PKTCNT. -/
  pktCnt : BitVec 16 := 1
  /-- R308: RKEY. -/
  rkey : BitVec 32 := 0
  /-- R308: RADDR. -/
  raddr : BitVec 64 := 0
  /-- R308: ALIVE. -/
  alive : BitVec 8 := 0
  /-- R308: CLASS with its reserved bits. -/
  cls : BitVec 8 := 0
  /-- R308: PLEN with its reserved bits. -/
  plen : BitVec 16 := 0
  /-- R308: PATH. -/
  path : BitVec 16 := 0
  /-- R308: bytes 30 and 31, reserved. -/
  rsv : BitVec 16 := 0
  /-- R306: send time stamp. -/
  ts : BitVec 64 := 0
  /-- R306, R330: transmit counter of the seal prefix. -/
  ctr : BitVec 64 := 0
  /-- R330: the seal tag verifies. -/
  sealOk : Bool := true
  /-- R306: payload. -/
  payload : List (BitVec 8) := []
  /-- R306, R318: message trailer, in the last packet of a DATA message. -/
  trailer : BitVec 32 := 0
  /-- R311, R306: encapsulation it came in: 0 EtherType, 1 IPv4, 2 IPv6. -/
  encap : BitVec 2 := 0
  /-- R311: VLAN id, where it carries a tag. -/
  vid : Option (BitVec 12) := none
  /-- R311: source station address. -/
  srcMac : BitVec 48 := 0
  /-- R311: source IP address. -/
  srcIp : BitVec 128 := 0
  /-- R307: a Congestion Experienced mark. -/
  ce : Bool := false
  /-- R303, R339: bytes of the frame, from the destination address to the FCS. -/
  frameLen : Nat := 64
deriving DecidableEq, Repr

/-- R261: how a NAND record read ended. -/
inductive MediaRead where
  /-- step 1. -/
  | hard
  /-- step 2 or 3. -/
  | soft
  /-- step 4. -/
  | rebuilt
  /-- step 4 failed for a codeword. -/
  | uncorrectable
deriving DecidableEq, Repr

/-- R217: who waits for a page: an instruction, or a host load. -/
inductive Waiter where
  | instr (a : At)
  | load (ld : Ld) (dpa : Nat)
deriving DecidableEq, Repr

/-- R234, R523: the parameter pages of a channel's LUNs. -/
structure NandId where
  /-- R234: every LUN answered and reported the same device. -/
  same : Bool := true
  /-- R232: its data interface is ONFI 5.1 NV-LPDDR4, 8-bit, at 3,600 MT/s. -/
  nvLpddr4 : Bool := true
  /-- R232: its cells are TLC with one-pass wordline programming and an SLC mode. -/
  onePassTlc : Bool := true
  /-- R232: it has the commands of R232. -/
  commands : Bool := true
  /-- R232: planes. -/
  planes : Nat := 4
  /-- R232: spare bytes per page. -/
  spare : Nat := 2048
  /-- R232: tPROG in µs. -/
  tProg : Nat := 1500
  /-- R232: tPROG in SLC mode, in µs. -/
  tProgSlc : Nat := 250
  /-- R233, R523: targets on the channel. -/
  targets : Nat := 4
  /-- R523: LUNs per target. -/
  luns : Nat := 1
  /-- R523: bytes per page. -/
  pageBytes : Nat := 16384
  /-- R523: pages per block. -/
  pages : Nat := 0
  /-- R523: blocks per LUN. -/
  blocks : Nat := 0
  /-- R523: guaranteed endurance: value and power of ten. -/
  endurance : Nat × Nat := (0, 0)
  /-- R260: factory-bad blocks of the channel. -/
  bad : Nat := 0
  /-- R260: the block groups (one block of each plane) with a factory-bad block, as LUN and group. -/
  badAt : List (Nat × Nat) := []
  /-- R232: it is an EZ-NAND device. -/
  ezNand : Bool := false
deriving DecidableEq, Repr

/-- R419: cause of a cold reset, CAUSE 1 to 8. -/
inductive ResetCause where
  | powerLoss | perst | fundamental | resetN | coldReset | lifeCycle | openDebug | stop
deriving DecidableEq, Repr

/-- R431-R433: what the self-test and the boot found, die by die. -/
structure SelfTest where
  /-- R433: Fireboxes that failed self-test. -/
  badFireboxes : Two (List Nat) := ⟨[], []⟩
  /-- R433: stacks that failed. -/
  badStacks : Two (List Nat) := ⟨[], []⟩
  /-- R433: journal banks that failed. -/
  badBanks : Two (List Nat) := ⟨[], []⟩
  /-- R448: Domino banks that failed. -/
  badDomino : List Nat := []
  /-- R373: the health test of the entropy source failed. -/
  entropyFail : Bool := false
  /-- R493: board sensors that did not answer. -/
  absentSensors : List Nat := []
deriving DecidableEq, Repr

/-- R484: the reference clocks whose loss is reported apart. -/
inductive RefClock where
  | flue (port : Side)
  | cxl (head : Side)
deriving DecidableEq, Repr

/-- R421: the faults of the recovery table. -/
inductive FaultKind where
  | firebox | stoker | journalBank | hbmStack | bridgeLane | cxlLane | flueLane | nandDie
deriving DecidableEq, Repr

/-- R413: the engines that an engine reset resets. -/
inductive EngineKind where
  | firebox | stoker | walker | poolAlu | checkUnit
deriving DecidableEq, Repr

/-- R449, R451: what a tap's beat is: busy, stalled with the codes of the reasons that hold, or idle. -/
inductive Beat where
  | busy | stalled (held : List Nat) | idle
deriving DecidableEq, Repr

/-- The commands of the part: the rows of spec/opcode_table.json, in the table's order. -/
inductive Instr where
  /-- R28: DOORBELL_WRITE. -/
  | doorbellWrite (ld : Ld) (off : Nat) (size : Nat) (value : BitVec 64)
  /-- R30: PACKET_ACCEPT. -/
  | packetAccept (ring : Nat)
  /-- R60: COMPLETION_POST. -/
  | completionPost (ring : Nat)
  /-- R440: BOOKING_WINDOW_START. -/
  | bookingWindowStart (ring : Nat)
  /-- R32: BAD_OPCODE. -/
  | badOpcode (a : At)
  /-- R53: CTL_NOP. -/
  | ctlNop (a : At)
  /-- R45: CTL_FENCE. -/
  | ctlFence (a : At)
  /-- R46: CTL_WAIT. -/
  | ctlWait (a : At)
  /-- R53: CTL_WAIT_TIMEOUT. -/
  | ctlWaitTimeout (a : At)
  /-- R46: CTL_SIGNAL. -/
  | ctlSignal (a : At)
  /-- R47: CTL_SKIPIF. -/
  | ctlSkipif (a : At)
  /-- R53: CTL_LOOP. -/
  | ctlLoop (a : At)
  /-- R49: CTL_CALL. -/
  | ctlCall (a : At)
  /-- R49: CTL_RET. -/
  | ctlRet (a : At)
  /-- R53: CTL_ADD. -/
  | ctlAdd (a : At)
  /-- R76: SEQ_CREATE. -/
  | seqCreate (a : At)
  /-- R92: SEQ_DESTROY. -/
  | seqDestroy (a : At)
  /-- R92: SEQ_DESTROY_RELEASE. -/
  | seqDestroyRelease (a : At)
  /-- R91: SEQ_TRUNC. -/
  | seqTrunc (a : At)
  /-- R91: SEQ_TRUNC_PROCEED. -/
  | seqTruncProceed (a : At)
  /-- R204: SEQ_HINT. -/
  | seqHint (a : At)
  /-- R54: SEQ_QUERY. -/
  | seqQuery (a : At)
  /-- R218: PAGE_STAGE. -/
  | pageStage (a : At)
  /-- R90: PAGE_SEAL. -/
  | pageSeal (a : At)
  /-- R55: PAGE_FETCH. -/
  | pageFetch (a : At)
  /-- R86: KV_APPEND. -/
  | kvAppend (a : At)
  /-- R107: PFX_MATCH. -/
  | pfxMatch (a : At)
  /-- R103: PFX_PUBLISH. -/
  | pfxPublish (a : At)
  /-- R114: PFX_FORK. -/
  | pfxFork (a : At)
  /-- R116: PFX_WITHDRAW. -/
  | pfxWithdraw (a : At)
  /-- R149: ATT_DECODE. -/
  | attDecode (a : At)
  /-- R171: ATT_PREFILL. -/
  | attPrefill (a : At)
  /-- R160: ATT_MERGE. -/
  | attMerge (a : At)
  /-- R179: ATT_BWD. -/
  | attBwd (a : At)
  /-- R223: WIN_OPEN. -/
  | winOpen (a : At)
  /-- R226: WIN_ADVANCE. -/
  | winAdvance (a : At)
  /-- R227: WIN_CLOSE. -/
  | winClose (a : At)
  /-- R224: WIN_LAYER_SEND. -/
  | winLayerSend (win : Nat)
  /-- R287: POOL_FILL. -/
  | poolFill (a : At)
  /-- R287: POOL_COPY. -/
  | poolCopy (a : At)
  /-- R287: POOL_COMPARE. -/
  | poolCompare (a : At)
  /-- R288: POOL_REDUCE. -/
  | poolReduce (a : At)
  /-- R315: FLUE_SEND. -/
  | flueSend (a : At)
  /-- R58: FLUE_WAIT. -/
  | flueWait (a : At)
  /-- R58: FLUE_WAIT_TIMEOUT. -/
  | flueWaitTimeout (a : At)
  /-- R358: CHK_SETUP. -/
  | chkSetup (a : At)
  /-- R360: CHK_FEED. -/
  | chkFeed (a : At)
  /-- R362: CHK_SAVE. -/
  | chkSave (a : At)
  /-- R362: CHK_RESTORE. -/
  | chkRestore (a : At)
  /-- R455: CTR_START. -/
  | ctrStart (a : At)
  /-- R455: CTR_STOP. -/
  | ctrStop (a : At)
  /-- R457: CTR_SAMPLE. -/
  | ctrSample (a : At)
  /-- R328: KEY_REGISTER. -/
  | keyRegister (a : At)
  /-- R329: KEY_REVOKE. -/
  | keyRevoke (a : At)
  /-- R329: KEY_REVOKE_DONE. -/
  | keyRevokeDone (a : At)
  /-- R290: IDENTIFY_MEMORY_DEVICE. -/
  | identifyMemoryDevice (ld : Ld)
  /-- R290: GET_SUPPORTED_LOGS. -/
  | getSupportedLogs (ld : Ld)
  /-- R290: GET_LOG. -/
  | getLog (ld : Ld) (off : Nat) (len : Nat)
  /-- R292: GET_EVENT_RECORDS. -/
  | getEventRecords (ld : Ld) (log : EvLog)
  /-- R290: CLEAR_EVENT_RECORDS. -/
  | clearEventRecords (ld : Ld) (log : EvLog) (handles : List Nat)
  /-- R290: GET_EVENT_INTERRUPT_POLICY. -/
  | getEventInterruptPolicy (ld : Ld)
  /-- R290: SET_EVENT_INTERRUPT_POLICY. -/
  | setEventInterruptPolicy (ld : Ld) (policy : BitVec 32)
  /-- R290: GET_TIMESTAMP. -/
  | getTimestamp (ld : Ld)
  /-- R290: SET_TIMESTAMP. -/
  | setTimestamp (ld : Ld) (stamp : BitVec 64)
  /-- R286: GET_POISON_LIST. -/
  | getPoisonList (ld : Ld) (base : Nat) (len : Nat)
  /-- R286: CLEAR_POISON. -/
  | clearPoison (ld : Ld) (dpa : Nat) (data : List (BitVec 8))
  /-- R290: INJECT_POISON. -/
  | injectPoison (ld : Ld) (dpa : Nat)
  /-- R278: GET_DC_CONFIGURATION. -/
  | getDcConfiguration (ld : Ld)
  /-- R278: GET_DC_EXTENT_LIST. -/
  | getDcExtentList (ld : Ld) (start : Nat) (count : Nat)
  /-- R278: ADD_DC_RESPONSE. -/
  | addDcResponse (ld : Ld) (accepted : List (Nat × Nat))
  /-- R279: RELEASE_DYNAMIC_CAPACITY. -/
  | releaseDynamicCapacity (ld : Ld) (base : Nat) (len : Nat)
  /-- R291: BACKGROUND_OPERATION_STATUS. -/
  | backgroundOperationStatus (ld : Ld)
  /-- R291: REQUEST_ABORT_BACKGROUND_OP. -/
  | requestAbortBackgroundOp (ld : Ld)
  /-- R404: GET_FW_INFO. -/
  | getFwInfo (ld : Ld)
  /-- R401: TRANSFER_FW. -/
  | transferFw (ld : Ld) (image : FwImage)
  /-- R401: ACTIVATE_FW. -/
  | activateFw (ld : Ld) (online : Bool)
  /-- R291: GET_VENDOR_LOG. -/
  | getVendorLog (ld : Ld) (logId : Nat) (off : Nat) (len : Nat)
  /-- R64: REGISTER_PROFILE. -/
  | registerProfile (ld : Ld) (record : List (BitVec 8))
  /-- R66: DEREGISTER_PROFILE. -/
  | deregisterProfile (ld : Ld) (profileId : Nat)
  /-- R48: REGISTER_IMAGE. -/
  | registerImage (ld : Ld) (ctx : Nat) (steps : Nat) (src : Nat)
  /-- R48: DEREGISTER_IMAGE. -/
  | deregisterImage (ld : Ld) (image : Nat)
  /-- R190: ALLOCATE_CONTEXT_SPACE. -/
  | allocateContextSpace (ld : Ld) (ctx : Nat) (die : Nat) (granules : Nat) (addr : Nat)
  /-- R291: RELEASE_CONTEXT_SPACE. -/
  | releaseContextSpace (ld : Ld) (ctx : Nat) (granules : Nat) (addr : Nat)
  /-- R291: SET_EVENT. -/
  | setEvent (ld : Ld) (ctx : Nat) (event : Nat) (op : Nat) (value : BitVec 64)
  /-- R291: POOL_FILL_COMMAND. -/
  | poolFillCommand (ld : Ld) (ctx : Nat) (w0 : BitVec 64) (w1 : BitVec 64) (w2 : BitVec 64)
  /-- R291: POOL_COPY_COMMAND. -/
  | poolCopyCommand (ld : Ld) (ctx : Nat) (w0 : BitVec 64) (w1 : BitVec 64) (w2 : BitVec 64)
  /-- R291: POOL_COMPARE_COMMAND. -/
  | poolCompareCommand (ld : Ld) (ctx : Nat) (w0 : BitVec 64) (w1 : BitVec 64) (w2 : BitVec 64)
  /-- R291: POOL_REDUCE_COMMAND. -/
  | poolReduceCommand (ld : Ld) (ctx : Nat) (w0 : BitVec 64) (w1 : BitVec 64) (w2 : BitVec 64)
  /-- R367: ADVANCE_LIFE_CYCLE. -/
  | advanceLifeCycle (ld : Ld) (target : Nat) (present : Nat) (digest : BitVec 512) (signature : List (BitVec 8))
  /-- R370: SET_MODE. -/
  | setMode (ld : Ld) (confidential : Nat)
  /-- R376: CREATE_CONTEXT. -/
  | createContext (ld : Ld) (ctx : Nat) (rights : BitVec 16) (domain : Nat) (quota : BitVec 64) (chkMask : BitVec 64)
  /-- R376: SET_CONTEXT. -/
  | setContext (ld : Ld) (ctx : Nat) (rights : BitVec 16) (domain : Nat) (quota : BitVec 64) (chkMask : BitVec 64)
  /-- R385: ROTATE_CONTEXT_KEY. -/
  | rotateContextKey (ld : Ld) (ctx : Nat)
  /-- R402: RETIRE_CONTEXT. -/
  | retireContext (ld : Ld) (ctx : Nat)
  /-- R402: RETIRE_COMPLETE. -/
  | retireComplete (ctx : Nat)
  /-- R404: CREATE_WEIGHT_OBJECT. -/
  | createWeightObject (ld : Ld) (ctx : Nat) (home : Nat) (profileId : Nat) (modelId : BitVec 128) (keyCheck : BitVec 128) (lengths : List Nat)
  /-- R393: LOAD_WEIGHT_LAYER. -/
  | loadWeightLayer (ld : Ld) (handle : BitVec 64) (layer : Nat) (src : Nat)
  /-- R396: DELETE_WEIGHT_OBJECT. -/
  | deleteWeightObject (ld : Ld) (handle : BitVec 64)
  /-- R392: GET_CONFIGURATION_BLOCK. -/
  | getConfigurationBlock (ld : Ld) (off : Nat) (len : Nat)
  /-- R399: SET_MACSEC_CAK. -/
  | setMacsecCak (ld : Ld) (port : Nat) (ckn : BitVec 128) (cak : BitVec 256)
  /-- R366: GET_NONCE. -/
  | getNonce (ld : Ld)
  /-- R369: OPEN_DEBUG. -/
  | openDebug (ld : Ld) (signature : List (BitVec 8))
  /-- R397: BEGIN_CONNECTION_KEY. -/
  | beginConnectionKey (ld : Ld) (conn : Nat)
  /-- R397: COMPLETE_CONNECTION_KEY. -/
  | completeConnectionKey (ld : Ld) (conn : Nat) (ciphertext : List (BitVec 8))
  /-- R375: RELEASE_PERSISTENT_ROOT. -/
  | releasePersistentRoot (head : Side) (secret : BitVec 256)
  /-- R395: RELEASE_MODEL_KEY. -/
  | releaseModelKey (head : Side) (handle : BitVec 64) (key : BitVec 256)
  /-- R384: IMPORT_COMPAT_KEY. -/
  | importCompatKey (head : Side) (ctx : Nat) (key : BitVec 512)
  /-- R448: GET_START_UP_REPORT. -/
  | getStartUpReport (ld : Ld)
  /-- R448: SET_CLASS. -/
  | setClass (ld : Ld) (cls : Nat) (weight : Nat) (bound : Nat)
  /-- R448: SET_ADMISSION. -/
  | setAdmission (ld : Ld) (admitCap : Nat) (blockUs : Nat)
  /-- R441: ADMIT_RING. -/
  | admitRing (ld : Ld) (ring : Nat) (demand : Demand)
  /-- R445: RELEASE_BOOKING. -/
  | releaseBooking (ld : Ld) (ring : Nat)
  /-- R448: GET_ADMISSION. -/
  | getAdmission (ld : Ld) (die : Nat)
  /-- R474: READ_TRACE. -/
  | readTrace (ld : Ld) (die : Nat) (first : Nat) (count : Nat)
  /-- R474: READ_CONTEXT_COUNTERS. -/
  | readContextCounters (ld : Ld) (ctx : Nat) (first : Nat) (count : Nat)
  /-- R474: READ_STALL_HISTOGRAM. -/
  | readStallHistogram (ld : Ld) (die : Nat) (cls : Nat)
  /-- R293: GET_LD_INFO. -/
  | getLdInfo (head : Side)
  /-- R293: GET_LD_ALLOCATIONS. -/
  | getLdAllocations (head : Side)
  /-- R293: QOS_COMMANDS. -/
  | qosCommands (head : Side) (cmd : Qos)
  /-- R293: GET_MULTI_HEADED_INFO. -/
  | getMultiHeadedInfo (head : Side)
  /-- R293: GET_DCD_INFO. -/
  | getDcdInfo (head : Side)
  /-- R293: GET_HOST_DC_REGION_CONFIG. -/
  | getHostDcRegionConfig (head : Side) (host : Nat)
  /-- R278: SET_DC_REGION_CONFIGURATION. -/
  | setDcRegionConfiguration (head : Side) (region : Nat) (blockSize : Nat)
  /-- R293: GET_DC_REGION_EXTENT_LISTS. -/
  | getDcRegionExtentLists (head : Side) (host : Nat)
  /-- R278: INITIATE_DC_ADD. -/
  | initiateDcAdd (head : Side) (ld : Nat) (base : Nat) (len : Nat)
  /-- R280: INITIATE_DC_RELEASE. -/
  | initiateDcRelease (head : Side) (ld : Nat) (base : Nat) (len : Nat) (forced : Bool)
  /-- R280: EXTENT_REMOVAL_DONE. -/
  | extentRemovalDone (ld : Ld) (base : Nat)
  /-- R275: BIND_CONTEXT. -/
  | bindContext (head : Side) (ctx : Nat) (word : BitVec 32)
  /-- R285: HOST_DOWN. -/
  | hostDown (head : Side) (lds : BitVec 16)
  /-- R281: DEFINE_SHARED_REGION. -/
  | defineSharedRegion (head : Side) (base : Nat) (granules : Nat)
  /-- R281: DELETE_SHARED_REGION. -/
  | deleteSharedRegion (head : Side) (index : Nat)
  /-- R274: SET_LD_PRIVILEGE. -/
  | setLdPrivilege (head : Side) (ld : Nat) (grant : Bool)
  /-- R389: SPDM_GET_VERSION. -/
  | spdmGetVersion (head : Side)
  /-- R389: SPDM_GET_CAPABILITIES. -/
  | spdmGetCapabilities (head : Side)
  /-- R390: SPDM_NEGOTIATE_ALGORITHMS. -/
  | spdmNegotiateAlgorithms (head : Side) (offer : SpdmOffer)
  /-- R389: SPDM_GET_DIGESTS. -/
  | spdmGetDigests (head : Side)
  /-- R389: SPDM_GET_CERTIFICATE. -/
  | spdmGetCertificate (head : Side) (off : Nat) (len : Nat)
  /-- R389: SPDM_CHALLENGE. -/
  | spdmChallenge (head : Side) (nonce : BitVec 256)
  /-- R391: SPDM_GET_MEASUREMENTS. -/
  | spdmGetMeasurements (head : Side) (nonce : BitVec 256)
  /-- R390: SPDM_KEY_EXCHANGE. -/
  | spdmKeyExchange (head : Side) (encapsKey : List (BitVec 8))
  /-- R389: SPDM_FINISH. -/
  | spdmFinish (head : Side) (verifyData : List (BitVec 8))
  /-- R389: SPDM_END_SESSION. -/
  | spdmEndSession (head : Side)
  /-- R295: IDE_KM_KEY_PROGRAM. -/
  | ideKmKeyProgram (head : Side) (stream : IdeStream) (key : BitVec 256)
  /-- R275: HOST_MEM_READ. -/
  | hostMemRead (ld : Ld) (dpa : Nat) (len : Nat) (bi : Bool)
  /-- R275: HOST_MEM_WRITE. -/
  | hostMemWrite (ld : Ld) (dpa : Nat) (data : List (BitVec 8)) (bi : Bool)
  /-- R193: VIEW_LOAD. -/
  | viewLoad (ld : Ld) (dpa : Nat) (len : Nat)
  /-- R192: VIEW_WRITE. -/
  | viewWrite (ld : Ld) (dpa : Nat) (len : Nat)
  /-- R276: HDM_DECODER_COMMIT. -/
  | hdmDecoderCommit (ld : Ld) (decoder : Nat) (base : Nat) (size : HdmSize) (ways : Nat) (bi : Bool)
  /-- R283: BI_RESPONSE. -/
  | biResponse (ld : Ld) (line : Nat) (data : Option (List (BitVec 8)))
  /-- R284: BI_TIMEOUT. -/
  | biTimeout (head : Side) (line : Nat)
  /-- R297: CXL_LINK_DOWN. -/
  | cxlLinkDown (head : Side)
  /-- R271: CXL_LINK_UP. -/
  | cxlLinkUp (head : Side) (mode : Nat)
  /-- R273: CXL_LANE_FAIL. -/
  | cxlLaneFail (head : Side) (width : Nat) (lane : Nat)
  /-- R305: FRAME_RECEIVE. -/
  | frameReceive (port : Side) (frame : EthFrame)
  /-- R316: FLUE_DATA_RECEIVE. -/
  | flueDataReceive (port : Side) (pkt : Packet)
  /-- R320: FLUE_ACK_RECEIVE. -/
  | flueAckReceive (port : Side) (pkt : Packet)
  /-- R313: FLUE_CLOSE_RECEIVE. -/
  | flueCloseReceive (port : Side) (pkt : Packet)
  /-- R332: FLUE_READ_RECEIVE. -/
  | flueReadReceive (port : Side) (pkt : Packet)
  /-- R322: PFC_RECEIVE. -/
  | pfcReceive (port : Side) (prio : Nat) (pauseNs : Nat)
  /-- R331: MKA_FRAME_RECEIVE. -/
  | mkaFrameReceive (port : Side) (ckn : BitVec 128) (agreed : Option (BitVec 64))
  /-- R320: ACK_DELAY_EXPIRY. -/
  | ackDelayExpiry (conn : Nat) (msgSeq : BitVec 32)
  /-- R323: LINK_REPLAY. -/
  | linkReplay (conn : Nat) (msgSeq : BitVec 32) (pktIdx : Nat)
  /-- R324: MESSAGE_TIMEOUT. -/
  | messageTimeout (conn : Nat) (msgSeq : BitVec 32)
  /-- R347: EGRESS_FRAME_SEND. -/
  | egressFrameSend (port : Side)
  /-- R340: POLICER_REFILL. -/
  | policerRefill
  /-- R352: GATE_SCHEDULE_SWITCH. -/
  | gateScheduleSwitch (port : Side)
  /-- R350: GATE_ENTRY_BOUNDARY. -/
  | gateEntryBoundary (port : Side)
  /-- R437: FLUE_PORT_UP. -/
  | fluePortUp (port : Side) (phy : Nat)
  /-- R304: FLUE_PORT_DOWN. -/
  | fluePortDown (port : Side) (lane : Nat)
  /-- R213: PROMOTION_ISSUE. -/
  | promotionIssue (die : Side)
  /-- R219: PROMOTION_COMPLETE. -/
  | promotionComplete (handle : Nat) (read : MediaRead) (authOk : Bool)
  /-- R217: RESIDENCY_BOUND_EXPIRY. -/
  | residencyBoundExpiry (waiter : Waiter) (handle : Nat)
  /-- R216: STAGE_HOLD_EXPIRY. -/
  | stageHoldExpiry (handle : Nat)
  /-- R208: BACKGROUND_RECLAIM. -/
  | backgroundReclaim (die : Side)
  /-- R200: DEMOTION_COMPLETE. -/
  | demotionComplete (handle : Nat)
  /-- R202: TABLE_DEMOTE. -/
  | tableDemote (seq : Nat)
  /-- R118: ORPHAN_SWEEP_TICK. -/
  | orphanSweepTick
  /-- R120: PERSIST_REINSERT. -/
  | persistReinsert
  /-- R386: KEY_SWEEP_STEP. -/
  | keySweepStep (ctx : Nat)
  /-- R424: STACK_SWEEP_STEP. -/
  | stackSweepStep (die : Side)
  /-- R237: COAL_ROW_PROGRAMMED. -/
  | coalRowProgrammed (half : Side) (ok : Bool) (channel : Nat)
  /-- R255: GC_RECLAIM. -/
  | gcReclaim (half : Side)
  /-- R255: COAL_ERASE_DONE. -/
  | coalEraseDone (half : Side) (sb : Nat) (failed : List Nat)
  /-- R249: COAL_CHECKPOINT. -/
  | coalCheckpoint (half : Side)
  /-- R259: PATROL_READ. -/
  | patrolRead (half : Side) (sb : Nat) (read : MediaRead) (weak : Bool)
  /-- R262: NAND_LUN_FAIL. -/
  | nandLunFail (channel : Nat) (lun : Nat)
  /-- R251: COAL_REPLAY_DONE. -/
  | coalReplayDone (half : Side)
  /-- R521: COAL_FORMAT_DONE. -/
  | coalFormatDone (goodLuns : List Nat)
  /-- R234: COAL_CHANNEL_IDENTIFY. -/
  | coalChannelIdentify (channel : Nat) (found : NandId)
  /-- R415: GBL_WARM_RESET. -/
  | gblWarmReset (ld : Ld) (value : BitVec 64)
  /-- R415: WARM_DONE. -/
  | warmDone
  /-- R415: GBL_RESTORE. -/
  | gblRestore (ld : Ld) (value : BitVec 64)
  /-- R505: GBL_COLD_RESET. -/
  | gblColdReset (ld : Ld) (value : BitVec 64)
  /-- R418: GBL_RLOG_CLEAR. -/
  | gblRlogClear (ld : Ld) (value : BitVec 64)
  /-- R507: GBL_FAULT_CLEAR. -/
  | gblFaultClear (ld : Ld) (value : BitVec 64)
  /-- R512: RING_ENABLE. -/
  | ringEnable (ld : Ld) (ring : Nat) (value : BitVec 32)
  /-- R513: RING_DISABLE. -/
  | ringDisable (ld : Ld) (ring : Nat) (value : BitVec 32)
  /-- R424: RING_CQ_BASE_MOVE. -/
  | ringCqBaseMove (ld : Ld) (ring : Nat) (value : BitVec 64)
  /-- R133: DOM_LOOKUP. -/
  | domLookup (ld : Ld) (cmd : BitVec 64)
  /-- R133: DOM_READ. -/
  | domRead (ld : Ld) (cmd : BitVec 64)
  /-- R133: DOM_INSERT_ANY. -/
  | domInsertAny (ld : Ld) (cmd : BitVec 64)
  /-- R126: DOM_INSERT_AT. -/
  | domInsertAt (ld : Ld) (cmd : BitVec 64)
  /-- R133: DOM_DELETE. -/
  | domDelete (ld : Ld) (cmd : BitVec 64)
  /-- R126: DOM_SHIFT_MOVE. -/
  | domShiftMove (bank : Nat)
  /-- R251: COAL_EN_SET. -/
  | coalEnSet (ld : Ld) (value : BitVec 64)
  /-- R522: COAL_EN_CLEAR. -/
  | coalEnClear (ld : Ld) (value : BitVec 64)
  /-- R521: COAL_FORMAT. -/
  | coalFormat (ld : Ld) (value : BitVec 64)
  /-- R234: COAL_CH_EN_WRITE. -/
  | coalChEnWrite (ld : Ld) (value : BitVec 64)
  /-- R337: FLU_CONN_READ. -/
  | fluConnRead (ld : Ld) (cmd : BitVec 64)
  /-- R337: FLU_CONN_WRITE. -/
  | fluConnWrite (ld : Ld) (cmd : BitVec 64)
  /-- R312: FLU_CONN_OPEN. -/
  | fluConnOpen (ld : Ld) (cmd : BitVec 64)
  /-- R313: FLU_CONN_CLOSE. -/
  | fluConnClose (ld : Ld) (cmd : BitVec 64)
  /-- R334: FLU_CTL_WRITE. -/
  | fluCtlWrite (ld : Ld) (value : BitVec 64)
  /-- R355: DMP_POL_READ. -/
  | dmpPolRead (ld : Ld) (cmd : BitVec 64)
  /-- R344: DMP_POL_WRITE. -/
  | dmpPolWrite (ld : Ld) (cmd : BitVec 64)
  /-- R344: DMP_POL_REFILL. -/
  | dmpPolRefill (ld : Ld) (cmd : BitVec 64)
  /-- R356: DMP_GATE_WRITE_ENTRY. -/
  | dmpGateWriteEntry (ld : Ld) (cmd : BitVec 64)
  /-- R356: DMP_GATE_READ_ENTRY. -/
  | dmpGateReadEntry (ld : Ld) (cmd : BitVec 64)
  /-- R351: DMP_GATE_COMMIT. -/
  | dmpGateCommit (ld : Ld) (cmd : BitVec 64)
  /-- R352: DMP_GATE_DISABLE. -/
  | dmpGateDisable (ld : Ld) (cmd : BitVec 64)
  /-- R300: CXP_CTL_WRITE. -/
  | cxpCtlWrite (ld : Ld) (value : BitVec 64)
  /-- R471: TEL_CLEAR. -/
  | telClear (ld : Ld) (value : BitVec 64)
  /-- R471: TEL_CLEAR_AO. -/
  | telClearAo (ld : Ld) (value : BitVec 64)
  /-- R463: TEL_TRACE_CTL_WRITE. -/
  | telTraceCtlWrite (ld : Ld) (value : BitVec 64)
  /-- R470: TEL_UTIL_BUSY_READ. -/
  | telUtilBusyRead (ld : Ld) (die : Side) (cls : Nat)
  /-- R499: REGISTER_WRITE. -/
  | registerWrite (ld : Ld) (off : Nat) (width : Nat) (value : BitVec 64)
  /-- R14: TAP_SNAPSHOT. -/
  | tapSnapshot (die : Side) (cls : Nat) (beat : Beat) (n : Nat) (ctx : Nat)
  /-- R486: POWER_WARN_ASSERT. -/
  | powerWarnAssert (lowNs : Nat)
  /-- R250: FLUSH_COMPLETE. -/
  | flushComplete
  /-- R487: POWER_HOLD_EXIT. -/
  | powerHoldExit
  /-- R413: RESET_N_ASSERT. -/
  | resetNAssert
  /-- R417: COLD_RESET. -/
  | coldReset (cause : ResetCause)
  /-- R431: FW_READY. -/
  | fwReady (report : SelfTest)
  /-- R414: PERST_ASSERT. -/
  | perstAssert (head : Side) (lowNs : Nat)
  /-- R414: FUNDAMENTAL_RESET. -/
  | fundamentalReset (head : Side)
  /-- R492: THERMTRIP. -/
  | thermtrip (die : Side) (temp : Int)
  /-- R491: SUPPLY_CONTROL_TICK. -/
  | supplyControlTick (die : Side) (temp : Int) (rate : Nat)
  /-- R491: THERMAL_PAUSE_SLOT. -/
  | thermalPauseSlot (die : Side) (temp : Int)
  /-- R480: REGULATOR_POLL. -/
  | regulatorPoll (die : Side) (iout : BitVec 16)
  /-- R480: REGULATOR_TIMEOUT. -/
  | regulatorTimeout (die : Side)
  /-- R493: SENSOR_POLL. -/
  | sensorPoll (sensor : Nat) (value : BitVec 16)
  /-- R493: SENSOR_TIMEOUT. -/
  | sensorTimeout (sensor : Nat)
  /-- R265: TEMP_HISTORY_HOUR. -/
  | tempHistoryHour
  /-- R484: TREF_LOSS. -/
  | trefLoss
  /-- R484: TREF_RETURN. -/
  | trefReturn
  /-- R484: REFCLK_LOSS. -/
  | refclkLoss (clock : RefClock)
  /-- R429: WATCHDOG_EXPIRY. -/
  | watchdogExpiry
  /-- R425: FIREBOX_FAULT. -/
  | fireboxFault (die : Side) (unit : Nat)
  /-- R423: STOKER_FAULT. -/
  | stokerFault (die : Side) (unit : Nat)
  /-- R422: JOURNAL_BANK_FAULT. -/
  | journalBankFault (die : Side) (bank : Nat)
  /-- R424: HBM_STACK_FAULT. -/
  | hbmStackFault (die : Side) (stack : Nat)
  /-- R426: BRIDGE_LANE_FAULT. -/
  | bridgeLaneFault (dir : Side) (lane : Nat)
  /-- R23: SECOND_FAULT_STOP. -/
  | secondFaultStop (kind : FaultKind) (die : Side) (unit : Nat)
  /-- R421: RECOVERY_WINDOW_END. -/
  | recoveryWindowEnd (kind : FaultKind) (die : Side) (unit : Nat)
  /-- R413: ENGINE_RESET. -/
  | engineReset (die : Side) (engine : EngineKind) (unit : Nat)
  /-- R482: POWER_LOSS. -/
  | powerLoss
  /-- R322: PFC_PAUSE_EXPIRY. -/
  | pfcPauseExpiry (port : Side) (prio : Nat)
  /-- R331: SECURE_ASSOCIATION_LOSS. -/
  | secureAssociationLoss (port : Side)
deriving DecidableEq, Repr

end Sys2Proof
end

