-- ==== Sys2Proof/Config.lean ====
section
/-! DEFINITION. What an implementation fixes, and the free values: constants without a body, of which nothing can be
proved. Each is applied to the operands it depends on, or to the number of the free value (State.fresh, State.sec.drbg)
that the step takes. -/

namespace Sys2Proof
namespace Config

/-- A free 64-bit value, by its number: what the spec leaves undefined and the part writes all the same (log 10). -/
opaque freeWord : Nat → BitVec 64

/-- A free byte, by number of the free value and position: output buffers left undefined by R149 and R154 (log 10). -/
opaque freeByte : Nat → Nat → BitVec 8

/-- R373: the n-th output of the DRBG (log 11). -/
opaque drbg : Nat → BitVec 512

/-- R97: the chain key of the part (log 11). -/
opaque chainKey : BitVec 128

/-- R373: KMAC256 with the customisation string "AK960": label number, key, input (log 11). -/
opaque kmac : Nat → BitVec 512 → BitVec 512 → BitVec 512

/-- R391, R48: SHA3-512 of bytes (log 11). -/
opaque sha3 : List (BitVec 8) → BitVec 512

/-- R390: an ML-DSA-87 signature verifies under one of Faltion's roots over these bytes (log 11). -/
opaque verifies : List (BitVec 8) → List (BitVec 8) → Bool

/-- R390: the part's ML-DSA-87 signature over bytes (log 11). -/
opaque sign : List (BitVec 8) → List (BitVec 8)

/-- R390, R397: ML-KEM-1024 encapsulation to a key with a random number: ciphertext (log 11). -/
opaque encapsulate : List (BitVec 8) → Nat → List (BitVec 8)

/-- R390, R397: the secret that goes with a ciphertext: from the encapsulating side (log 11). -/
opaque encapsSecret : List (BitVec 8) → Nat → BitVec 256

/-- R397: ML-KEM-1024 decapsulation of a ciphertext under key pair n (log 11). -/
opaque decapsulate : Nat → List (BitVec 8) → BitVec 256

/-- R397: the encapsulation key of key pair n (log 11). -/
opaque encapsKey : Nat → List (BitVec 8)

/-- R383, R394, R330: an AES-256-GCM tag or an encryption of these bytes under a key (log 11). -/
opaque aead : BitVec 256 → List (BitVec 8) → List (BitVec 8)

/-- R372: key i of the key set with number n: 0 the AES-256 key, 1 the hash subkey, 2 the Coal root key (log 11). -/
opaque setKey : Nat → Nat → BitVec 256

/-- R379: AES-256 of one block under a key (log 11). -/
opaque aesBlock : BitVec 256 → BitVec 128 → BitVec 128

/-- R379: GHASH under a hash subkey (log 11). -/
opaque ghash : BitVec 128 → List (BitVec 8) → BitVec 128

/-- R383: AES-256-GCM under a key and a zero IV: additional authenticated data and plaintext to ciphertext and tag (log 11). -/
opaque gcm : BitVec 256 → List (BitVec 8) → List (BitVec 8) → List (BitVec 8)

/-- R393: the tag of AES-256-GCM under a key and a zero IV over additional authenticated data and ciphertext (log 11). -/
opaque gcmTag : BitVec 256 → List (BitVec 8) → List (BitVec 8) → BitVec 128

/-- R393: AES-256-GCM decryption under a key and a zero IV: additional authenticated data, ciphertext and tag to plaintext (log 11). -/
opaque gcmOpen : BitVec 256 → List (BitVec 8) → List (BitVec 8) → BitVec 128 → List (BitVec 8)

/-- R384: AES-256-XTS of a data unit under a key and a tweak (log 11). -/
opaque xts : BitVec 512 → Nat → List (BitVec 8) → List (BitVec 8)

/-- R366, R397: the part's identity digest (log 11). -/
opaque identityDigest : BitVec 512

/-- R391: SHA3-512 of the boot ROM (log 11). -/
opaque romDigest : BitVec 512

/-- R372: the persistent-object wrapping key (log 11). -/
opaque wrapKey : BitVec 512

/-- R373, R397: KMAC256 with the customisation string "AK960" and an output of 72 bytes: label number (8 is "flue"), key, input
(log 11). -/
opaque kmac72 : Nat → BitVec 512 → BitVec 512 → BitVec 576

/-- R389, R390: the verify data of FINISH matches the shared secret of the handshake (log 11). -/
opaque finishOk : BitVec 256 → List (BitVec 8) → Bool

/-- R389, R390: the data that SPDM 1.3 defines for a signing step (0 CHALLENGE, 1 KEY_EXCHANGE) over what the model holds of its exchange
(log 37). -/
opaque transcript : Nat → List (BitVec 8) → List (BitVec 8)

/-- R389: the bytes of an SPDM answer that the spec does not give, by request and offset (log 10). -/
opaque spdmBytes : Nat → Nat → BitVec 8

/-- R389: the bytes of the certificate chain of slot 0 (log 11). -/
opaque certificate : List (BitVec 8)

/-- R290: the bytes of Identify Memory Device that the spec does not give, by offset (log 10). -/
opaque identity : Nat → BitVec 8

/-- R290: the bytes of the log list and of the Command Effects Log, by offset (log 10). -/
opaque effectsLog : Nat → BitVec 8

/-- R293: the bytes of an FM answer that the spec does not give, by command and offset (log 10). -/
opaque fmBytes : Nat → Nat → BitVec 8

/-- R145: which of the words within 2 ulp the exponential of an FP32 value is, by the operand (log 12). -/
opaque expWord : BitVec 32 → Nat

/-- R161, R187: the words of a result whose last bits depend on the split, by the number of the free value and position; the
model takes one only within the bound (log 12). -/
opaque fpFree : Nat → Nat → BitVec 32

/-- R143: the integers of a KVB16 block that holds a NaN or an infinity, by the block's bytes (log 120). -/
opaque badBlock : List (BitVec 8) → Nat → BitVec 16

/-- R78, R80, R101: the address of a block of the tables in the Hearth reserve, or its Coal store locator: of sequence (or row) k,
block number i (log 129). -/
opaque tableAddr : Nat → Nat → Nat

/-- R82, R194: the frame number, in granules of 1 KiB, at which a region of a stack of a die begins (log 129). -/
opaque regionBase : Nat → Nat → Nat → Nat

/-- R306: byte i of the FCS over the bytes before it (log 129). -/
opaque fcs : List (BitVec 8) → Nat → BitVec 8

/-- R331: GCM-AES-XPN-256 of a port (0 west, 1 east) under its n-th secure association and a packet number: byte i of the ciphertext
and the ICV of a plaintext with its additional data (log 129). -/
opaque macsec : Nat → Nat → BitVec 64 → List (BitVec 8) → List (BitVec 8) → Nat → BitVec 8

/-- R331, R348: the bytes of a MACsec key agreement frame after its Ethernet header, by number (log 129). -/
opaque mkaFrame : Nat → List (BitVec 8)

/-- R236: byte i of the LDPC parity of a codeword's first 4,112 bytes; the spec does not give the code. -/
opaque ldpc : List (BitVec 8) → Nat → BitVec 8

/-- R258, R261, R265: free counts of how the codewords of a read were decoded and how often they were read again, by number of the
read and index (log 123). -/
opaque eccCount : Nat → Nat → Nat

/-- R272: DevLoad of an S2M response, by number (log 66). -/
opaque devLoad : Nat → BitVec 2

/-- R292: how many more records than one a log of an LD holds (log 66). -/
opaque eventLogMore : Nat

/-- R290: the MSI-X vector of an event log of an LD, by log (log 66). -/
opaque eventVector : Nat → Nat

/-- R428: byte i of the device health in the Memory Module Event Record of the fault of a number (log 66). -/
opaque deviceHealth : Nat → Nat → BitVec 8

/-- R521: the block groups of a channel that fail their erase at a format, as LUN and group, by number of the format (log 123). -/
opaque formatFails : Nat → Nat → List (Nat × Nat)

/-- R234, R368: a channel passes identification, by number of the format that powers it (log 123). -/
opaque passes : Nat → Nat → Bool

end Config
end Sys2Proof
end

