-- ==== Sys2Proof/Machine/State.lean ====
section
/-! DEFINITION. The state of the part, its outcomes' reasons and the state after reset. Each field's docstring opens
with the rule of spec/ that names it; its default is its value after the wipe of a cold reset. A table holds only the
numbers that differ from what they are after wipe. -/

namespace Sys2Proof
namespace Machine

/-- Reasons for which a step could stop with a fault. No meaning of this model raises one: the spec gives every
command an effect, or says (or lets it be read) that without its condition it has none. -/
inductive Fault where
  /-- Raised by nobody; safe. It only names the type's one member. -/
  | absentHardware
deriving DecidableEq, Repr

/-- Reasons for which a step could be refused. -/
inductive Refusal where
  /-- Raised by an arm of Dispatch for a command that has no meaning yet; safe. -/
  | notModelled (mnemonic : String)
deriving DecidableEq, Repr

/-- R71: formats of a data section. -/
inductive Fmt where
  | kvb16 | kvi8 | kvi4
deriving DecidableEq, Repr

/-- R290, R291: how a mailbox or FM command was answered. `none`: nothing has been answered yet. -/
inductive Ret where
  | none | success | backgroundStarted | invalidInput | unsupported | internalError | retryRequired | busy
  | mediaDisabled | invalidHandle | invalidPhysicalAddress | permissionDenied | aborted | notReady
  | resourcesExhausted | invalidExtentList | invalidSecurityState
deriving DecidableEq, Repr

/-- R306, R322: a frame the part sends. -/
structure TxFrame where
  /-- R308: the Flue packet, where it is one. -/
  pkt : Option Packet := none
  /-- R322: priority and pause time of a PFC frame, where it is one (0: XON). -/
  pfc : Option (Nat × Nat) := none
  /-- R347: control frames (ACK, CLOSE, PFC, MACsec key agreement) go before every class. -/
  control : Bool := false
  /-- R307: class. -/
  cls : Nat := 0
  /-- R308: connection of this part. -/
  conn : Nat := 0
  /-- R338: counted length. -/
  counted : Nat := 0
  /-- R306: station address it is sent to. -/
  dstMac : BitVec 48 := 0
  /-- R306: destination IP address. -/
  dstIp : BitVec 128 := 0
  /-- R350: it has waited for a next window. -/
  waited : Bool := false
  /-- R331, R348: it is a MACsec key agreement frame: its bytes after the Ethernet header. -/
  mka : Option (List (BitVec 8)) := none
  /-- R313: time base before which it does not leave. -/
  notBefore : Nat := 0
  /-- R330: keys of its connection when it was queued. -/
  keys : BitVec 576 := 0
  /-- R331: number of the secure association and packet number under which it left. -/
  sa : Option (Nat × BitVec 64) := none
deriving DecidableEq, Repr

/-- R350, R351: a gate schedule. -/
structure GateSched where
  /-- R351: base time. -/
  base : Nat := 0
  /-- R356: mask of the gated classes. -/
  mask : BitVec 64 := 0
  /-- R350: durations in ns and OPEN masks. -/
  entries : List (Nat × BitVec 64) := []
deriving DecidableEq, Repr

/-! ### Rings, registers and the journal -/

/-- R38, R39, R40: one virtual register of a ring. -/
structure VReg where
  /-- R38: the 64-bit value. -/
  val : BitVec 64 := 0
  /-- R39: PENDING (an issued instruction will write it). -/
  pending : Bool := false
  /-- R40: POISONED. -/
  poison : Bool := false
deriving DecidableEq, Repr

/-- R41: the objects of a footprint. -/
inductive Obj where
  | seq (h : Nat) (layer : Option Nat)
  | page (h : Nat)
  | granule (n : Nat)
  | weight (h : Nat)
  | conn (n : Nat)
  | win (n : Nat)
  | unit (n : Nat)
  | counter (n : Nat)
  | event (n : Nat)
  | key (n : Nat)
  | all
deriving DecidableEq, Repr

/-- What an ISSUED, uncompleted instruction waits on. -/
inductive Wait where
  /-- R39: nothing: it runs on at its next command. -/
  | run
  /-- R46, R53: CTL.WAIT on an event of its context. -/
  | event (ev : Nat) (threshold : BitVec 64) (deadline : Option Nat)
  /-- R58, R319: FLUE.WAIT on a connection's RX_DONE. -/
  | inbound (conn : Nat) (threshold : BitVec 64) (deadline : Option Nat)
  /-- R315, R319: FLUE.SEND until ACK COMPLETE of its message. -/
  | sent (conn : Nat) (msgSeq : Nat)
  /-- R91, R92: SEQ.TRUNC or SEQ.DESTROY until INFLIGHT is zero. -/
  | seqIdle (seq : Nat)
  /-- R84, R163, R217: demand promotion of these pages, each with the time from which its bound runs. -/
  | pages (hs : List (Nat × Nat))
  /-- R217, R209: the bound of these pages has passed, or their promotion was abandoned. -/
  | expired (hs : List Nat)
  /-- R218: PAGE.STAGE until these pages are resident; with each, the time of its request where the Coal store was not READY
  then (R217). -/
  | stage (hs : List (Nat × Option Nat))
  /-- R202, R84: the tables of this sequence are coming back; the bound runs from `since`. -/
  | tables (seq : Nat) (since : Nat)
  /-- R209 step 2: an allocation waits for the first demotion of this die; `left` frames are wanted after it (R228). -/
  | alloc (die : Side) (left : Nat)
  /-- R329: KEY.REVOKE until the in-flight count is zero. -/
  | revoke (idx : Nat)
  /-- R227: WIN.CLOSE until the begun messages are acknowledged. -/
  | winClose (win : Nat)
  /-- R283: a snooped line of a shared region. -/
  | snoop (lines : List Nat)
deriving DecidableEq, Repr

/-- R407: STATE of a journal record (FREE records are not listed). -/
inductive JState where
  | accepted | issued | done
deriving DecidableEq, Repr

/-- R135, R150, R170: a unit of attention work: rows of one KV head against a range of positions, on one Firebox. -/
structure AttUnit where
  /-- R149: the die that forms it. -/
  die : Side := .west
  /-- R150 step 4: its Firebox. -/
  fbx : Nat := 0
  /-- R152: the entries whose rows it carries: one, or the members of a shared group. -/
  entries : List Nat := []
  /-- R135: its KV head. -/
  head : Nat := 0
  /-- R139, R170: its first row: of the rows of its entries in order, or the first query of its row group. -/
  first : Nat := 0
  /-- R139, R170: how many of those rows, or queries. -/
  count : Nat := 0
  /-- R150: its rows. -/
  rows : Nat := 0
  /-- R150: its first position. -/
  lo : Nat := 0
  /-- R150: the end of its positions. -/
  hi : Nat := 0
  /-- R150, R151: it is one slice of several. -/
  slice : Bool := false
deriving DecidableEq, Repr

/-- What an instruction took when its checks passed and uses until it completes. -/
structure Snap where
  /-- R149, R218, R55: the lengths sampled, in the order in which the instruction meets its entries and layers. -/
  lens : List Nat := []
  /-- R55: BASEPG sampled with each of them. -/
  bases : List Nat := []
  /-- R457: the value and the interval id that CTR.SAMPLE found at its issue. -/
  sample : BitVec 64 × BitVec 64 := (0, 0)
  /-- R218: PAGE.STAGE has requested its pages. -/
  asked : Bool := false
  /-- R55: the frames that PAGE.FETCH has copied, by their place in the destination. -/
  copied : List Nat := []
  /-- R150, R165: the units formed at its dispatch, as FBX_CTL was then. -/
  units : List AttUnit := []
  /-- R85, R153: pages whose translations have returned: entry, logical page, handle. -/
  hits : List (Nat × Nat × Nat) := []
deriving DecidableEq, Repr

/-- R407, R49: one journal record (a slot that is not FREE), or a step in flight of a call; the lines after `time` are the
running instruction's own. -/
structure JRec where
  /-- R49: none for a ring entry; else the number of the step, counted over the steps fetched since the ring's call began. -/
  step : Option Nat := none
  /-- R49: for a step, its place in the image. -/
  pc : Nat := 0
  /-- R408: slot number in both copies. -/
  slot : Nat := 0
  /-- R407: DESC, the instruction word as accepted. -/
  desc : BitVec 256 := 0
  /-- R407: INDEX. -/
  index : BitVec 32 := 0
  /-- R407: RING. -/
  ring : Nat := 0
  /-- R407: CTXST, context. -/
  ctx : Nat := 0
  /-- R407: CTXST, STATE. -/
  state : JState := .accepted
  /-- R407: STATUS. -/
  status : BitVec 8 := 0
  /-- R407, R61: CFLAGS, bits [3:0] of the completion FLAGS. -/
  cflags : BitVec 4 := 0
  /-- R407: DETAIL; while ISSUED the completed steps of a CTL.CALL. -/
  detail : BitVec 32 := 0
  /-- R407: RESULT. -/
  result : BitVec 64 := 0
  /-- R407: TIME. -/
  time : BitVec 64 := 0
  /-- R36, R61: LAYER as resolved at issue. -/
  layer : BitVec 16 := 0
  /-- R39: what the ISSUED instruction (or the present step of an ISSUED CTL.CALL) waits on; none before it issues. -/
  wait : Option Wait := none
  /-- R34, R35: W0 as read at issue. -/
  word0 : BitVec 64 := 0
  /-- R34, R35: W1 as read at issue. -/
  word1 : BitVec 64 := 0
  /-- R36: the layer as read at issue, of the present step in a call. -/
  layerNow : BitVec 16 := 0
  /-- R41: objects read, fixed at issue. -/
  reads : List Obj := []
  /-- R41: objects written, fixed at issue. -/
  writes : List Obj := []
  /-- R78: sequences whose INFLIGHT counts this instruction. -/
  names : List Nat := []
  /-- R444: time at which R39, R41 and R45 stopped holding it (the running step, in a call). -/
  freeAt : Option Nat := none
  /-- R444: ns excluded so far from its latency. -/
  excluded : Nat := 0
  /-- R444: what the ring's completion ring had been full for when it completed. -/
  cqFrom : Nat := 0
  /-- R444: time at which the present excluded wait began. -/
  waitFrom : Option Nat := none
  /-- R444: a step of the call was late. -/
  stepLate : Bool := false
  /-- R415: completion sets RESUMED. -/
  resumed : Bool := false
  /-- R83, R85: pages whose translations it uses: their frames stay allocated until it completes. -/
  uses : List Nat := []
  /-- R32: its own checks have passed. -/
  checked : Bool := false
  /-- R283: they have passed once, and are made again on what the hosts that own lines it reads answer. -/
  passed : Bool := false
  /-- R32: what it took when they passed. -/
  snap : Snap := {}
deriving DecidableEq, Repr

/-- R49, R410: one active call of a ring's call stack. -/
structure Frame where
  /-- R49: image being run. -/
  image : Nat := 0
  /-- R49: the step to be fetched next. -/
  pc : Nat := 0
  /-- R49: no further step is fetched: CTL.RET or a failed step ends the call. -/
  stop : Bool := false
  /-- R49: CONTINUE. -/
  cont : Bool := false
  /-- R53: steps executed. -/
  executed : Nat := 0
  /-- R49: first status outside the success class: status, step, detail. -/
  first : Option (Nat × Nat × Nat) := none
deriving DecidableEq, Repr

/-- R439, R448: a ring's booking. -/
structure Booking where
  /-- R439: the period, the instructions and the demands per resource. -/
  demand : Demand := {}
deriving DecidableEq, Repr

/-- R514: REASON of RING_STATUS. -/
inductive Reason where
  | none | disabled | halted | ctxNotActive | cfgErr | notAdmitted
deriving DecidableEq, Repr

/-- R509, R26, R410: a ring's window, its indices and its ring state block. -/
structure Ring where
  /-- R510: RING_EN.EN. -/
  en : Bool := false
  /-- R510: RING_EN.IRQ_EN. -/
  irqEn : Bool := false
  /-- R510: RING_EN.HOME. -/
  home : Side := .west
  /-- R509: RING_CTX. -/
  ctx : BitVec 12 := 0
  /-- R509: RING_BASE. -/
  base : BitVec 64 := 0
  /-- R509: RING_CQ_BASE. -/
  cqBase : BitVec 64 := 0
  /-- R509: RING_SIZE. -/
  size : BitVec 17 := 0
  /-- R509: RING_CQ_SIZE. -/
  cqSize : BitVec 17 := 0
  /-- R509: RING_CLASS. -/
  cls : BitVec 6 := 4
  /-- R514: RING_STATUS.REASON. -/
  reason : Reason := .disabled
  /-- R514: RING_STATUS.DB_ERR. -/
  dbErr : Bool := false
  /-- R514, R424: RING_STATUS.CQ_LOST. -/
  cqLost : Bool := false
  /-- R514, R513: RING_STATUS.DRAINING. -/
  draining : Bool := false
  /-- R514: RING_STATUS.WAITING. -/
  waiting : Bool := false
  /-- R514, R515: RING_STATUS.IRQ_UNBOUND. -/
  irqUnbound : Bool := false
  /-- R438, R439, R509: the booking that RING_DEADLINE shows. -/
  booking : Option Booking := none
  /-- R26, R509: RING_AIDX. -/
  aidx : BitVec 32 := 0
  /-- R26, R509: RING_CIDX. -/
  cidx : BitVec 32 := 0
  /-- R26, R509: RING_CQ_PI. -/
  cqPi : BitVec 32 := 0
  /-- R509, R515: RING_MSIX. -/
  msix : BitVec 16 := 0
  /-- R26, R28: the part's record of PI. -/
  pi : BitVec 32 := 0
  /-- R26, R28: the part's record of CQ_CI. -/
  cqCi : BitVec 32 := 0
  /-- R62, R444: ns for which its completion ring has been full, but for the present time. -/
  cqFullNs : Nat := 0
  /-- R62, R444: time base since which it is full. -/
  cqFullAt : Option Nat := none
  /-- R29: PI of each doorbell write whose entries are not all accepted. -/
  marks : List (BitVec 32) := []
  /-- R44, R423: the Stoker of the home die to which the ring is bound. -/
  stoker : Nat := 0
  /-- R440: t0, the time base at RING_EN. -/
  t0 : Nat := 0
  /-- R440: number of the present issue window. -/
  window : Nat := 0
  /-- R440: instructions issued in the present window. -/
  issued : Nat := 0
  /-- R47: remaining CTL.SKIPIF count. -/
  skip : Nat := 0
  /-- R45: first failed index since the previous CTL.FENCE or RING_EN. -/
  failed : Option (BitVec 32) := none
  /-- R45: the ring is halted. -/
  halted : Bool := false
  /-- R49, R410: call stack, innermost first. -/
  calls : List Frame := []
  /-- R49: steps fetched since the ring's call began. -/
  fetched : Nat := 0
  /-- R38: the 64 virtual registers. -/
  regs : List VReg := List.replicate 64 {}
  /-- R454: TEL_RING_LATE, late completions. -/
  late : BitVec 32 := 0
  /-- R454: TEL_RING_LATE, completions measured. -/
  measured : BitVec 32 := 0
  /-- R402: index of the first instruction that completed ST_CTX_RETIRED. -/
  retiredAt : Option (BitVec 32) := none
  /-- R423: rebound in an open recovery window, which pauses its issue. -/
  rebound : Bool := false
deriving DecidableEq, Repr

/-- R26, R60, R61: one full completion record as written to the completion ring is memory; this is the last MSI-X raised. -/
structure Msix where
  /-- R515: head. -/
  head : Side := .west
  /-- R515: LD of that head. -/
  ld : Nat := 0
  /-- R515, R507: vector. -/
  vector : Nat := 0
deriving DecidableEq, Repr

/-- R407-R422: both journal copies (identical, R407) and their banks. -/
structure Journal where
  /-- R407: the records that are not FREE, in acceptance order. -/
  recs : List JRec := []
  /-- R49: the fetched and uncompleted steps of the calls of every ring, each ring's in the order of their fetch; a CTL.CALL
  among them that is ISSUED is one whose image runs. -/
  steps : List JRec := []
  /-- R422: spare banks left per die. -/
  spares : Two Nat := ⟨2, 2⟩
  /-- R422: banks whose 16,384 slots have left the pool. -/
  lostBanks : List Nat := []
  /-- R422, R30: a copy is being rebuilt, so acceptance waits. -/
  rebuilding : Two Bool := ⟨false, false⟩
  /-- R421: banks of each die that have failed. -/
  failedBanks : Two Nat := ⟨0, 0⟩
  /-- R23: the journal is sealed by a stop. -/
  sealed : Bool := false
deriving DecidableEq, Repr

/-- R48: a registered program image. -/
structure Image where
  /-- R48: owning context. -/
  ctx : Nat := 0
  /-- R48: its steps. -/
  steps : List (BitVec 256) := []
deriving DecidableEq, Repr

/-! ### Contexts -/

/-- R376: STATE of a context. -/
inductive CtxState where
  | free | active | retiring
deriving DecidableEq, Repr

/-- R455, R456, R458: one per-context counter. -/
structure Counter where
  /-- R456: selector. -/
  selector : BitVec 64 := 0
  /-- R455: value. -/
  value : BitVec 64 := 0
  /-- R455: RUNNING. -/
  running : Bool := false
  /-- R458: RESET_AT_START. -/
  resetAtStart : Bool := false
  /-- R458: interval id. -/
  interval : BitVec 64 := 0
  /-- R458: count of CTR.START since the context was created. -/
  starts : BitVec 32 := 0
  /-- R457, R459: value of the interval that ended at `endedAt`. -/
  endedValue : BitVec 64 := 0
  /-- R459: its id. -/
  endedInterval : BitVec 64 := 0
  /-- R459: time base of the reset that ended it. -/
  endedAt : Option Nat := none
  /-- R457: time base of the newest event counted. -/
  stampAt : Option Nat := none
  /-- R457: value before the events stamped then. -/
  before : BitVec 64 := 0
deriving DecidableEq, Repr

/-- R457: the count of the events stamped before a time base. -/
def Counter.past (k : Counter) (now : Nat) : BitVec 64 := if k.stampAt = some now then k.before else k.value

/-- R516, R376, R46, R275: a context. -/
structure Ctx where
  /-- R516: CTX_STATE. -/
  state : CtxState := .free
  /-- R516: CTX_KEYS.PRESENT. -/
  present : BitVec 2 := 0
  /-- R516: CTX_KEYS.OLD_LIVE. -/
  oldLive : Bool := false
  /-- R516: CTX_KEYS.OLD. -/
  old : BitVec 2 := 0
  /-- R516, R386: CTX_KEYS.SWEEPING. -/
  sweeping : Bool := false
  /-- R516: CTX_KEYS.ROTATIONS. -/
  rotations : BitVec 32 := 0
  /-- R372, R402: number of the key set of each epoch held (none: destroyed); the key itself never leaves (R374). -/
  keySet : Tbl Nat := []
  /-- R384: the AK-410 XTS key has been imported. -/
  compatKey : Option (BitVec 512) := none
  /-- R516, R377: CTX_RIGHTS.RIGHTS. -/
  rights : BitVec 16 := 0
  /-- R516: CTX_RIGHTS.DOMAIN. -/
  domain : BitVec 12 := 0
  /-- R516: CTX_QUOTA. -/
  quota : BitVec 64 := 0
  /-- R516, R83: CTX_CHARGED. -/
  charged : Nat := 0
  /-- R516: CTX_CHKMASK. -/
  chkMask : BitVec 64 := 0
  /-- R516: CTX_CREATED. -/
  created : BitVec 64 := 0
  /-- R46: the 16,384 events that are not zero. -/
  events : Tbl (BitVec 64) := []
  /-- R455: the 256 counters that are not STOPPED and zero. -/
  counters : Tbl Counter := []
  /-- R275, R299: the context's entry in the binding table (CXP_BIND). -/
  bind : BitVec 32 := 0
  /-- R384: a ring of the context has been enabled. -/
  ringEnabled : Bool := false
  /-- R402, R429: ring list of the last retirement, kept until the next Create Context. -/
  ringList : Option (List (Nat × BitVec 32 × BitVec 32)) := none
  /-- R328: remote keys issued to the context. -/
  issuedKeys : List Nat := []
deriving DecidableEq, Repr

/-! ### Sequences, pages, prefix rows -/

/-- R64: a registered profile. -/
structure Profile where
  /-- R64: PROFILE_ID. -/
  id : Nat := 0
  /-- R64: LAYERS. -/
  layers : Nat := 0
  /-- R64: QHEADS. -/
  qheads : Nat := 0
  /-- R64: KVHEADS. -/
  kvheads : Nat := 0
  /-- R64: HDIM32. -/
  hdim32 : Nat := 0
  /-- R64: KFMT. -/
  kfmt : Fmt := .kvb16
  /-- R64: VFMT. -/
  vfmt : Fmt := .kvb16
  /-- R64: WINDOW. -/
  window : Nat := 0
  /-- R64: PFLAGS.ROPE. -/
  rope : Bool := false
  /-- R64: PFLAGS.KEEP_ALL. -/
  keepAll : Bool := false
  /-- R64, R65: FRAME_KIB. -/
  frameKib : Nat := 0
deriving DecidableEq, Repr

/-- R81: a page-table entry. -/
structure Pte where
  /-- R81: HANDLE. -/
  handle : Nat := 0
  /-- R81: V. -/
  v : Bool := false
  /-- R81: DROPPED. -/
  dropped : Bool := false
  /-- R81: LOST. -/
  lost : Bool := false
  /-- R201, R204: this reference counts in the page's KEEPCNT. -/
  kept : Bool := true
deriving DecidableEq, Repr

/-- R80: a layer descriptor with the page table it roots. -/
structure Layer where
  /-- R80: LENGTH. -/
  length : Nat := 0
  /-- R80: BASEPG. -/
  basePg : Nat := 0
  /-- R80: ROOT.DEPTH. -/
  depth : Nat := 0
  /-- R80: OPEN. -/
  openH : Nat := 0
  /-- R80, R81: the page table: logical page (or ring slot) to entry. -/
  ptes : Tbl Pte := []
deriving DecidableEq, Repr

/-- R78: STATE of a sequence table entry. -/
inductive SeqState where
  | free | live | destroying | truncating
deriving DecidableEq, Repr

/-- R54: the four hints. -/
structure Hints where
  /-- R54: PIN. -/
  pin : Bool := false
  /-- R54: PREFER_HOT. -/
  preferHot : Bool := false
  /-- R54: EVICT_OK. -/
  evictOk : Bool := false
  /-- R54: NO_DEMOTE. -/
  noDemote : Bool := false
deriving DecidableEq, Repr

/-- R78: a sequence table entry. -/
structure Seq where
  /-- R78: STATE. -/
  state : SeqState := .free
  /-- R78: HINTS. -/
  hints : Hints := {}
  /-- R78, R202: DIRCOLD. -/
  dirCold : Bool := false
  /-- R78: CONTEXT. -/
  ctx : Nat := 0
  /-- R78: PSLOT. -/
  pslot : Nat := 0
  /-- R78, R76: GENERATION. -/
  gen : BitVec 16 := 0
  /-- R78, R87: TOKSRC. -/
  tokSrc : Nat := 0
  /-- R78, R87: TOKCNT. -/
  tokCnt : Nat := 0
  /-- R78: INFLIGHT. -/
  inflight : Nat := 0
  /-- R78: CREATED. -/
  created : BitVec 64 := 0
  /-- R80: the layer directory. -/
  layers : List Layer := []
  /-- R202: time base of the last walk. -/
  lastWalk : Nat := 0
  /-- R202, R245: the demoted tables: the number of their first table record and how many there are. -/
  tableRec : Option (Nat × Nat) := none
deriving DecidableEq, Repr

/-- R194, R195: a frame or granule slot of the page space. -/
structure FrameAt where
  /-- R194: stack of the die. -/
  stack : Nat := 0
  /-- R194: region of the stack. -/
  region : Nat := 0
  /-- R194: slot in the region. -/
  slot : Nat := 0
  /-- R194: size in KiB (2,048 for a context-space granule). -/
  kib : Nat := 0
deriving DecidableEq, Repr

/-- R82: LIFE. -/
inductive Life where
  | free | opened | sealed | dropped | lost
deriving DecidableEq, Repr

/-- R199: RES. -/
inductive Res where
  | absent | hot | clean | cold | demoting | promoting
deriving DecidableEq, Repr

/-- R82: SCOPE of a page (none: unpublished). R102 ranks them. -/
inductive Scope where
  | context | domain | global
deriving DecidableEq, Repr

/-- R82, R201: a handle table entry with its placement state. -/
structure Page where
  /-- R82: LIFE. -/
  life : Life := .free
  /-- R82, R199: RES. -/
  res : Res := .absent
  /-- R82: PROMOTE_PENDING. -/
  promotePending : Bool := false
  /-- R82: CLASS persistent. -/
  persistent : Bool := false
  /-- R82: EPOCH. -/
  epoch : BitVec 2 := 0
  /-- R82: SCOPE. -/
  scope : Option Scope := none
  /-- R82: CONTEXT; 4,096 for a page re-inserted under R120, which no context allocated. -/
  ctx : Nat := 0
  /-- R83: the charge is carried by the context (not by none). -/
  charged : Bool := false
  /-- R82: REFCNT. -/
  refcnt : Nat := 0
  /-- R82: PSLOT. -/
  pslot : Nat := 0
  /-- R82: LAYER. -/
  layer : Nat := 0
  /-- R82: FILL. -/
  fill : Nat := 0
  /-- R82: PRIMARY. -/
  primary : Option FrameAt := none
  /-- R82: MIRROR. -/
  mirror : Option FrameAt := none
  /-- R82: CHAIN. -/
  chain : BitVec 64 := 0
  /-- R69: NO_IDS of the header. -/
  noIds : Bool := false
  /-- R195: preferred stack of its frames. -/
  pref : Nat := 0
  /-- R222: the chunk's weight object, index of the chunk in it. -/
  chunk : Option (Nat × Nat) := none
  /-- R242: frame size in KiB. -/
  kib : Nat := 0
  /-- R201: KEEPCNT. -/
  keepCnt : Nat := 0
  /-- R201: owner hint PIN. -/
  pin : Bool := false
  /-- R205: the pin was granted within the limit. -/
  pinned : Bool := false
  /-- R201: owner hint PREFER_HOT. -/
  preferHot : Bool := false
  /-- R201: owner hint NO_DEMOTE. -/
  noDemote : Bool := false
  /-- R201, R216: STAGED, with the end of its hold. -/
  staged : Option Nat := none
  /-- R216: when the page last became resident. -/
  residentAt : Nat := 0
  /-- R201: reference bit. -/
  ref : Bool := false
  /-- R247, R200: a valid Coal copy is mapped. -/
  coal : Bool := false
  /-- R386: the Coal copy's key epoch. -/
  coalEpoch : BitVec 2 := 0
deriving DecidableEq, Repr

/-- R99: a row record. -/
structure RowRec where
  /-- R99: CHAIN0. -/
  chain0 : BitVec 64 := 0
  /-- R99: PUBCTX. -/
  pubCtx : Nat := 0
  /-- R99: LAYERS. -/
  layers : Nat := 0
  /-- R99: PROFILE. -/
  profile : Nat := 0
  /-- R99: LPAGE. -/
  lpage : Nat := 0
  /-- R99: PUBLISHED. -/
  published : BitVec 64 := 0
  /-- R99: TOKENS. -/
  tokens : List (BitVec 32) := []
  /-- R99: HANDLES. -/
  handles : List Nat := []
  /-- R99: its frame in the page space. -/
  frame : Option (Side × FrameAt) := none
deriving DecidableEq, Repr

/-- R101: a prefix table entry. -/
structure PfxEntry where
  /-- R101: CHAIN. -/
  chain : BitVec 64 := 0
  /-- R101: VCTX. -/
  vctx : Nat := 0
  /-- R101: VDOM. -/
  vdom : Nat := 0
  /-- R101: SCOPE. -/
  scope : Scope := .context
  /-- R101, R120: NOPUB. -/
  nopub : Bool := false
  /-- R101: PRIO. -/
  prio : BitVec 8 := 0
  /-- R101: V. -/
  v : Bool := false
  /-- R101: WITHDRAWING. -/
  withdrawing : Bool := false
  /-- R101: INDOMINO. -/
  inDomino : Bool := false
  /-- R101: PERSISTENT. -/
  persistent : Bool := false
  /-- R101: HITS. -/
  hits : BitVec 4 := 0
  /-- R101: GEN. -/
  gen : BitVec 16 := 0
  /-- R101: PIDX and PGEN, or none for ROOT. -/
  parent : Option (Nat × BitVec 16) := none
  /-- R101, R99: ROW, the row record. -/
  row : RowRec := {}
deriving DecidableEq, Repr

/-- R120: a record of the persistent catalogue. -/
structure CatRec where
  /-- R120: the row record. -/
  row : RowRec := {}
  /-- R120: PRIO. -/
  prio : BitVec 8 := 0
  /-- R120: CHAIN0 and LPAGE of the parent row, or none for ROOT. -/
  parent : Option (BitVec 64 × Nat) := none
  /-- R120, R245: the key of its table record. -/
  key : Nat := 0
  /-- R120: the row has been withdrawn, by a record with this salt, or (the first component false) by the release of its record. -/
  withdrawn : Option (Bool × Nat) := none
deriving DecidableEq, Repr

/-- R121: an entry of the Domino unit. -/
structure DomEntry where
  /-- R121: width in units, 1, 2 or 4. -/
  width : Nat := 1
  /-- R121: key. -/
  key : BitVec 256 := 0
  /-- R121: mask. -/
  mask : BitVec 256 := 0
  /-- R121: priority. -/
  prio : BitVec 8 := 0
  /-- R121: RESULT. -/
  result : BitVec 64 := 0
  /-- R128: reference bit. -/
  ref : Bool := false
deriving DecidableEq, Repr

/-- R126: a running block shift of a bank. -/
structure Shift where
  /-- R126: slot (entry number) to be freed. -/
  target : Nat := 0
  /-- R126: the free slot the next entry moves into. -/
  hole : Nat := 0
  /-- R126: the entry to be inserted at the target. -/
  entry : DomEntry := {}
deriving DecidableEq, Repr

/-- R129-R134: the DOM block with the prefix table, the catalogue and the Domino unit. -/
structure Dom where
  /-- R130: DOM_CTL.DIR_EN. -/
  dirEn : Bool := false
  /-- R130: DOM_CTL.SWEEP_EN. -/
  sweepEn : Bool := false
  /-- R130: DOM_CTL.PROMOTE_HITS. -/
  promoteHits : BitVec 4 := 2
  /-- R131: DOM_STATUS.PERSIST_LOADED. -/
  persistLoaded : Bool := false
  /-- R131: DOM_STATUS.BUCKET_FULL per die. -/
  bucketFull : Two Bool := ⟨false, false⟩
  /-- R100, R101: the prefix table by index; freed entries keep their GEN. -/
  table : Tbl PfxEntry := []
  /-- R118: bucket at which each die's orphan sweep stands. -/
  sweepAt : Two Nat := ⟨0, 0⟩
  /-- R120: the persistent catalogue in the Coal store. -/
  catalogue : List CatRec := []
  /-- R121: valid Domino entries by address (bank × 8,192 + unit index). -/
  entries : Tbl DomEntry := []
  /-- R128: replacement hand of each die. -/
  hand : Two Nat := ⟨0, 0⟩
  /-- R132: WIDTH of the classifier banks 14, 15, 30 and 31. -/
  width : Tbl Nat := []
  /-- R132: EN of the classifier banks. -/
  bankEn : Tbl Bool := []
  /-- R126, R132: the shifts running, by bank. -/
  shifts : Tbl Shift := []
  /-- R134: DOM_ACC_STATUS. -/
  accStatus : BitVec 64 := 0
  /-- R129: DOM_ACC_KEY0 to DOM_ACC_KEY3. -/
  accKey : BitVec 256 := 0
  /-- R129: DOM_ACC_MASK0 to DOM_ACC_MASK3. -/
  accMask : BitVec 256 := 0
  /-- R129: DOM_ACC_RESULT. -/
  accResult : BitVec 64 := 0
deriving DecidableEq, Repr
/-! ### Placement -/

/-- R213: class of a promotion request. -/
inductive PromClass where
  | demand | staging | background
deriving DecidableEq, Repr

/-- R85, R220: a frame that its page has given up while instructions use translations to it. -/
structure HeldFrame where
  /-- R85: the frame. -/
  frame : FrameAt
  /-- R85: the instructions whose use it waits for. -/
  users : List At := []
deriving DecidableEq, Repr

/-- R239, R245: the map entry of one record. -/
structure MapEnt where
  /-- R245: PERSIST. -/
  persist : Bool := false
  /-- R245: EPOCH. -/
  epoch : BitVec 2 := 0
  /-- R245: SUPERBLOCK. -/
  sb : Nat := 0
  /-- R245: OFFSET in KiB. -/
  off : Nat := 0
  /-- R245: LEN in KiB. -/
  kib : Nat := 0
  /-- R239: CONTEXT of the row-table entry. -/
  ctx : Nat := 0
  /-- R383: number of the DRBG output that is the record's salt. -/
  salt : Nat := 0
deriving DecidableEq, Repr

/-- R213: a promotion request. -/
structure PromReq where
  /-- R213: the page (or first chunk) asked for. -/
  handle : Nat := 0
  /-- R213: class. -/
  cls : PromClass := .demand
  /-- R213: distance of a staging request. -/
  dist : Nat := 0
  /-- R442: of a demand request, the lowest class of the rings that asked for it (64: none did). -/
  prio : Nat := 64
  /-- R213: time base at arrival. -/
  at_ : Nat := 0
  /-- R213: the promotion has been issued to the Coal store, and when. -/
  issuedAt : Option Nat := none
  /-- R216: a staging request is among those joined. -/
  staging : Bool := false
  /-- R209: its frame waits for a demotion (step 2). -/
  allocWait : Bool := false
  /-- R83, R386: a key sweep asked for it. -/
  sweep : Bool := false
  /-- R255: the records that the map named when it was issued, which it reads. -/
  locs : List MapEnt := []
deriving DecidableEq, Repr

/-- R193: a host load stalled on a non-resident page. -/
structure HostWait where
  /-- R193: the LD. -/
  ld : Ld := {}
  /-- R193: address. -/
  dpa : Nat := 0
  /-- R193: length. -/
  len : Nat := 0
  /-- R193: the page. -/
  handle : Nat := 0
  /-- R217: when it began to wait. -/
  since : Nat := 0
  /-- R297: its head's link has gone down since: it is performed without a response. -/
  dropped : Bool := false
deriving DecidableEq, Repr

/-- R209, R291: an Allocate Context Space that waits for a demotion. -/
structure GranWait where
  /-- R291: the LD that sent it. -/
  ld : Ld := {}
  /-- R291: context. -/
  ctx : Nat := 0
  /-- R291: die. -/
  die : Side := .west
  /-- R291: granules. -/
  granules : Nat := 0
  /-- R190: first granule. -/
  first : Nat := 0
  /-- R228: granules still without a frame after the one it waits for; none before it has waited. -/
  left : Option Nat := none
  /-- R297: the link has gone down: nothing is answered. -/
  dropped : Bool := false
deriving DecidableEq, Repr

/-- R200, R209, R404: a Load Weight Layer that waits for a demotion. -/
structure LoadWait where
  /-- R291: the LD that sent it. -/
  ld : Ld := {}
  /-- R221: key of the weight object. -/
  obj : Nat := 0
  /-- R393: layer. -/
  layer : Nat := 0
  /-- R393: where its units stand in context space. -/
  src : Nat := 0
  /-- R209, R228: it waits for an allocation (else for a host's line, R283, or for the demotion ceiling, R253). -/
  alloc : Bool := false
  /-- R228: chunks still without a frame after the one it waits for. -/
  left : Nat := 0
  /-- R297: the link has gone down: nothing is answered. -/
  dropped : Bool := false
deriving DecidableEq, Repr

/-- R207: the three victim lists of a die, head first. -/
structure Victims where
  /-- R207: EVICT_OK list. -/
  evictOk : List Nat := []
  /-- R207: ordinary list. -/
  ordinary : List Nat := []
  /-- R207: PREFER_HOT list. -/
  preferHot : List Nat := []
deriving DecidableEq, Repr

/-- R194-R231: the Draught engine and the DRT block. -/
structure Drt where
  /-- R194: allocated frames and granules of each die. -/
  frames : Two (List FrameAt) := ⟨[], []⟩
  /-- R85, R220: of these, frames that no page holds any more and that are free when the last use of a translation ends. -/
  held : Two (List HeldFrame) := ⟨[], []⟩
  /-- R424, R504: failed stacks of each die. -/
  failed : Two (List Nat) := ⟨[], []⟩
  /-- R196: a frame has become free on a die with a failed stack, and mirrors are to be tried again. -/
  mirrorDue : Two Bool := ⟨false, false⟩
  /-- R196, R209, R386: pages whose new mirror, or whose frame for a key sweep, waits for a demotion. -/
  sweepWaits : List Nat := []
  /-- R207: victim lists. -/
  victims : Two Victims := ⟨{}, {}⟩
  /-- R213: promotion requests. -/
  reqs : Two (List PromReq) := ⟨[], []⟩
  /-- R193: stalled host loads. -/
  hostWaits : List HostWait := []
  /-- R209: Allocate Context Space commands that wait for a frame. -/
  granWaits : List GranWait := []
  /-- R209: Load Weight Layer commands that wait for a frame. -/
  loadWaits : List LoadWait := []
  /-- R229: DRT_CTL.DEMOTE_EN. -/
  demoteEn : Bool := false
  /-- R229: DRT_CTL.STAGE_EN. -/
  stageEn : Bool := false
  /-- R229: DRT_CTL.COMPACT_EN. -/
  compactEn : Bool := false
  /-- R229: DRT_CTL.TABLE_DEMOTE_EN. -/
  tableDemoteEn : Bool := false
  /-- R229: DRT_CTL.STAGE_DEPTH. -/
  stageDepth : BitVec 4 := 8
  /-- R229: DRT_CTL.PIN_LIMIT. -/
  pinLimit : BitVec 8 := 0x80
  /-- R230, R212: DRT_STATUS.COAL_RO. -/
  coalRo : Bool := false
  /-- R230, R205: DRT_STATUS.PIN_OVER. -/
  pinOver : Two Bool := ⟨false, false⟩
  /-- R230, R209: DRT_STATUS.URGENT. -/
  urgent : Two Bool := ⟨false, false⟩
  /-- R231: DRT_RES_BOUND.BOUND_US. -/
  boundUs : Nat := 200
  /-- R231: DRT_WM.LOW_FREE. -/
  lowFree : Nat := 16
  /-- R231: DRT_WM.HIGH_FREE. -/
  highFree : Nat := 32
  /-- R208: background work is running. -/
  reclaiming : Two Bool := ⟨false, false⟩
  /-- R231: DRT_STAGE_HOLD.HOLD_US. -/
  holdUs : Nat := 10000
  /-- R228: DRT_NR_ADDR. -/
  nrAddr : BitVec 64 := 0
  /-- R228: DRT_NR_TIME. -/
  nrTime : BitVec 64 := 0
deriving DecidableEq, Repr

/-- R222: a weight object. -/
structure WObj where
  /-- R221: the index is in use. -/
  live : Bool := false
  /-- R221: generation. -/
  gen : BitVec 16 := 0
  /-- R222: context. -/
  ctx : Nat := 0
  /-- R222: profile slot. -/
  pslot : Nat := 0
  /-- R222: layer lengths in bytes. -/
  lengths : List Nat := []
  /-- R222: first page number of each layer's run. -/
  firsts : List Nat := []
  /-- R222: layers whose chunks have Coal copies. -/
  loaded : List Nat := []
  /-- R395: KEYED. -/
  keyed : Bool := false
  /-- R372, R395: the model key held. -/
  key : Option (BitVec 256) := none
  /-- R395: key check value. -/
  keyCheck : BitVec 128 := 0
  /-- R393: model id. -/
  modelId : BitVec 128 := 0
  /-- R394: chunk tags in layer and chunk order, per layer. -/
  tags : Tbl (List (BitVec 128)) := []
  /-- R393: the ciphertext of each chunk as its Coal record holds it, by chunk of the object. -/
  cipher : Tbl (List (BitVec 8)) := []
  /-- R204: hints. -/
  hints : Hints := {}
deriving DecidableEq, Repr

/-- R223-R227: a weight window. -/
structure Win where
  /-- R223: weight object key. -/
  obj : Nat := 0
  /-- R223, R227: the context that opened it. -/
  ctx : Nat := 0
  /-- R223: connection. -/
  conn : Nat := 0
  /-- R223: depth P. -/
  depth : Nat := 1
  /-- R223: remote base B. -/
  base : BitVec 64 := 0
  /-- R223: first layer L0. -/
  first : Nat := 0
  /-- R224: layers begun. -/
  begun : Nat := 0
  /-- R226: layers fully acknowledged. -/
  acked : Nat := 0
  /-- R226: layers released. -/
  released : Nat := 0
  /-- R224: message sequences of begun layers not yet acknowledged, with their layer count. -/
  msgs : List (Nat × Nat) := []
  /-- R227: closed by itself. -/
  selfClosed : Bool := false
  /-- R227: WIN.CLOSE is waiting. -/
  closing : Bool := false
deriving DecidableEq, Repr

/-! ### Coal store -/

/-- R248: a map log record. -/
inductive MapLog where
  | map (key : Nat) (e : MapEnt)
  | unmap (key : Nat)
  | leaf (span : Nat) (addr : Nat)
  | sbOpen (sb seq : Nat)
  | sbClose (sb : Nat)
  | erase (sb : Nat)
  | retire (channel lun block : Nat)
  | checkpoint (addr : Nat)
deriving DecidableEq, Repr

/-- R235: state of a superblock. -/
inductive SbState where
  | free | opened | closed | erasing
deriving DecidableEq, Repr

/-- R235, R249: a superblock of a die half. -/
structure Superblock where
  /-- R235: state. -/
  state : SbState := .free
  /-- R236: write sequence. -/
  seq : Nat := 0
  /-- R236: rows written. -/
  rows : Nat := 0
  /-- R249: erase count. -/
  erases : Nat := 0
  /-- R235: its member blocks, ascending by channel: channel of the half, LUN, block group (one block of each plane). -/
  members : List (Nat × Nat × Nat) := []
  /-- R258: reads of each member block since the last erase, by channel of the half. -/
  reads : List Nat := []
  /-- R254: closed under step 4 of R251, so the first victim. -/
  firstVictim : Bool := false
  /-- R254, R258, R259: queued for refresh. -/
  refresh : Bool := false
  /-- R254, R262: queued for relocation. -/
  relocate : Bool := false
  /-- R259: time base of the latest patrol read of its member blocks since their erase. -/
  patrolled : Option Nat := none
  /-- R255: it takes garbage collection copies (a destination). -/
  copies : Bool := false
deriving DecidableEq, Repr

/-- R240: a record waiting in the row that is being filled or programmed. -/
structure RowEnt where
  /-- R239: KEY. -/
  key : Nat := 0
  /-- R239: LEN in KiB. -/
  kib : Nat := 0
  /-- R239: EPOCH. -/
  epoch : BitVec 2 := 0
  /-- R239: PERSIST. -/
  persist : Bool := false
  /-- R239: CONTEXT. -/
  ctx : Nat := 0
  /-- R383: number of the DRBG output that is its salt. -/
  salt : Nat := 0
  /-- R255: copied from here by garbage collection or a sweep (none: a demotion). -/
  from_ : Option MapEnt := none
  /-- R220: its page or object has given the copy up before its row was written. -/
  gone : Bool := false
deriving DecidableEq, Repr

/-- R243, R244, R246: a leaf of the map whose directory entry is not EMPTY. -/
structure Leaf where
  /-- R243: its address in the map area, in 4 KiB units, once it has been written there. -/
  addr : Option Nat := none
  /-- R243, R246: CACHED: its cache slot, the first of its 1 KiB granules; none: STORED. -/
  slot : Option Nat := none
  /-- R246: it has changed since it was written. -/
  dirty : Bool := false
  /-- R246: the clock's reference bit. -/
  ref : Bool := false
deriving DecidableEq, Repr

/-- R249: a checkpoint index. -/
structure Index where
  /-- R248: its address in the map area, in 4 KiB units. -/
  addr : Nat := 0
  /-- R249: the map as its leaves hold it. -/
  map : Tbl MapEnt := []
  /-- R243, R249: the directory: leaf to map-area address. -/
  dir : Tbl Nat := []
  /-- R249: valid record KiB of each superblock. -/
  valid : Tbl Nat := []
  /-- R249: address of each 64 KiB block of the directories that has been written. -/
  blocks : Tbl Nat := []
  /-- R249: erase count of each superblock. -/
  erases : Tbl Nat := []
  /-- R249: erase count of each member block, by blockKey. -/
  blkErases : Tbl Nat := []
  /-- R249: read counts of the member blocks of each superblock. -/
  reads : Tbl (List Nat) := []
deriving DecidableEq, Repr

/-- R235-R264: one die half of the Coal store. -/
structure Half where
  /-- R251, R269: READY. -/
  ready : Bool := false
  /-- R269: REPLAYING. -/
  replaying : Bool := false
  /-- R522: replay has run since the last cold reset or format. -/
  replayed : Bool := false
  /-- R241, R269: FULL. -/
  full : Bool := false
  /-- R262, R269: DEGRADED. -/
  degraded : Bool := false
  /-- R245, R247: the map: record key to its entry. -/
  map : Tbl MapEnt := []
  /-- R248: map log records of the SRAM buffer, oldest first. -/
  logBuf : List MapLog := []
  /-- R248, R249: map log records programmed since the second-latest checkpoint. -/
  log : List MapLog := []
  /-- R249: the indices of the latest checkpoint and the one before it. -/
  ckpts : List Index := []
  /-- R243, R246: the leaves, by number: a page span's is the span, a table span's is 2^26 more. -/
  leaves : Tbl Leaf := []
  /-- R246: the cached leaves in the order of the clock, head first. -/
  clock : List Nat := []
  /-- R248: the next free 4 KiB unit of the map area. -/
  mapNext : Nat := 0
  /-- R267: leaves read into the cache that COAL_CNT_LEAF_MISS does not count yet. -/
  leafMiss : Nat := 0
  /-- R265: bytes programmed in the half since the last format: rows, units of the log, leaves and indices. -/
  programmed : Nat := 0
  /-- R249: time base of the latest checkpoint. -/
  ckptAt : Nat := 0
  /-- R235: superblocks that are not free and never erased. -/
  sbs : Tbl Superblock := []
  /-- R236: write sequence of the half. -/
  nextSeq : Nat := 0
  /-- R237: records of the row being programmed. -/
  row : List RowEnt := []
  /-- R250: a row was being programmed when the power warning came. -/
  programming : Bool := false
  /-- R250, R251: the flush slot written, with its records; none: both slots are erased. -/
  flush : Option (Nat × List MapLog) := none
  /-- R250: the flush slot that the next flush takes, of the two. -/
  nextFlush : Nat := 0
  /-- R253: when a demotion or a demand promotion last reached the half. -/
  reached : Nat := 0
  /-- R242: page numbers' spans: span to its frame size and class. -/
  spans : Tbl (Nat × Bool) := []
  /-- R260, R265: spare blocks left, per channel of the half. -/
  spare : List Nat := []
  /-- R260, R265: spare blocks at format, per channel of the half. -/
  spareStart : List Nat := []
  /-- R265: retired blocks, per channel of the half. -/
  retired : List Nat := []
  /-- R260: the blocks retired, as channel of the half, LUN and block group. -/
  worn : List (Nat × Nat × Nat) := []
  /-- R260: the block groups with a factory-bad block, as channel of the half, LUN and group. -/
  badAt : List (Nat × Nat × Nat) := []
  /-- R249, R257, R265: erase count of each member block since the last format, by blockKey. -/
  blkErases : Tbl Nat := []
  /-- R263: member blocks by which the record capacity has fallen. -/
  capLoss : Nat := 0
  /-- R262: failed LUNs, as channel and LUN. -/
  failedLuns : List (Nat × Nat) := []
  /-- R262: blocks retired with their hour, as channel, LUN and time base. -/
  retireTimes : List (Nat × Nat × Nat) := []
deriving DecidableEq, Repr

/-- R265: counts and history of the health log. -/
structure Health where
  /-- R265: DEMOTED. -/
  demoted : Nat := 0
  /-- R265: READ. -/
  read : Nat := 0
  /-- R265: CORR_HARD. -/
  corrHard : Nat := 0
  /-- R265: CORR_SOFT. -/
  corrSoft : Nat := 0
  /-- R265: REBUILT. -/
  rebuilt : Nat := 0
  /-- R265: LOST. -/
  lost : Nat := 0
  /-- R265: RETIRED. -/
  retired : Nat := 0
  /-- R265: FACTORY_BAD. -/
  factoryBad : Nat := 0
  /-- R265: FAILED_LUNS. -/
  failedLuns : Nat := 0
  /-- R265: POWER_LOSS. -/
  powerLoss : Nat := 0
  /-- R265, R252: UNSAFE_POWER_LOSS. -/
  unsafeLoss : Nat := 0
  /-- R265: REFRESHED. -/
  refreshed : Nat := 0
  /-- R265: TMAX. -/
  tmax : Int := 0
  /-- R265: TMIN. -/
  tmin : Int := 0
  /-- R265: THOURS. -/
  hours : Nat := 0
  /-- R265: history entries, oldest first: minimum, maximum, mean, HOT. -/
  history : List (Int × Int × Int × Bool) := []
  /-- R265: readings of the hour in progress. -/
  hour : List Int := []
  /-- R15, R265: time base at the latest entry, from which the hour in progress counts. -/
  hourAt : Nat := 0
deriving DecidableEq, Repr

/-- R267-R270: the COAL block. -/
structure Coal where
  /-- R267: COAL_CH_EN. -/
  chEn : BitVec 32 := 0
  /-- R267: COAL_CH_FAULT. -/
  chFault : BitVec 32 := 0
  /-- R234: channels identified and in service. -/
  inService : BitVec 32 := 0
  /-- R436: channels whose power enable is raised and which await identification. -/
  powering : BitVec 32 := 0
  /-- R436: when the power enable of each channel newly enabled rises. -/
  rises : Tbl Nat := []
  /-- R234, R523: the parameter page of channel 0. -/
  nand : Option NandId := none
  /-- R234: what each channel identified since its power-up has reported. -/
  ids : Tbl NandId := []
  /-- R260, R265: factory-bad blocks of each channel identified. -/
  badBlocks : Tbl Nat := []
  /-- R268: COAL_CTL.EN. -/
  en : Bool := false
  /-- R268: COAL_CTL.GC_EN. -/
  gcEn : Bool := false
  /-- R268: COAL_CTL.WL_EN. -/
  wlEn : Bool := false
  /-- R268: COAL_CTL.PATROL_EN. -/
  patrolEn : Bool := false
  /-- R269: FORMATTED as COAL_STATUS shows it. -/
  formatted : Bool := false
  /-- R521: the media carries a valid format (survives resets). -/
  media : Bool := false
  /-- R264: READ_ONLY as COAL_STATUS shows it. -/
  readOnly : Bool := false
  /-- R264: READ_ONLY kept in the map log, across every reset. -/
  mediaReadOnly : Bool := false
  /-- R269: FORMAT_ERR. -/
  formatErr : Bool := false
  /-- R269: FORMATTING. -/
  formatting : Bool := false
  /-- R235: the two halves. -/
  half : Two Half := ⟨{}, {}⟩
  /-- R270: COAL_GC. -/
  gc : BitVec 64 := 0x0000_0A14_00A0_5028
  /-- R270: COAL_WEAR. -/
  wear : BitVec 64 := 0x0007_0064_012C_0000
  /-- R523: software has written COAL_WEAR, and RATED with it, since the wipe. -/
  ratedSet : Bool := false
  /-- R270: COAL_CKPT.CKPT_MS. -/
  ckptMs : Nat := 1000
  /-- R270: COAL_TEMP.TLIMIT. -/
  tlimit : Nat := 80
  /-- R270: COAL_TEMP.SENSORS. -/
  sensors : BitVec 8 := 0
  /-- R265: the health log. -/
  health : Health := {}
  /-- R375: check value of the persistent root in the map area. -/
  rootCheck : Option (BitVec 128) := none
deriving DecidableEq, Repr

/-! ### CXL -/

/-- R278, R280: an extent of an LD. -/
structure Extent where
  /-- R278: base DPA. -/
  base : Nat := 0
  /-- R278: length. -/
  len : Nat := 0
  /-- R280: CLOSING. -/
  closing : Bool := false
  /-- R280: forced removal. -/
  forced : Bool := false
  /-- R297: the link of the command that closes it has gone down: nothing is answered. -/
  dropped : Bool := false
deriving DecidableEq, Repr

/-- R276: an HDM decoder. -/
structure Decoder where
  /-- R276: base of the host range. -/
  base : Nat := 0
  /-- R276: size. -/
  size : Nat := 0
  /-- R276: DPA skip. -/
  skip : Nat := 0
  /-- R276: committed. -/
  committed : Bool := false
  /-- R276: back-invalidate enabled. -/
  bi : Bool := false
  /-- R276: commit error. -/
  error : Bool := false
deriving DecidableEq, Repr

/-- R292: an event record. -/
structure EvRec where
  /-- R290: record handle. -/
  handle : Nat := 0
  /-- R292: CODE; R428 and R445 and R493: 128 fault, 129 overbooked, 130 sensor (the model's own codes). -/
  code : Nat := 0
  /-- R292: head. -/
  head : Side := .west
  /-- R292: LD-ID. -/
  ld : Nat := 0
  /-- R292: requests folded. -/
  folded : Nat := 0
  /-- R428: a Memory Module Event Record, with the device health of the fault of this number. -/
  health : Option Nat := none
  /-- R292: context. -/
  ctx : Nat := 0
  /-- R292: DPA. -/
  dpa : Nat := 0
  /-- R292: time base. -/
  time : BitVec 64 := 0
  /-- R292: host-set timestamp. -/
  stamp : BitVec 64 := 0
deriving DecidableEq, Repr

/-- R287, R58: a pool operation with its operands, whatever asked for it. -/
structure PoolOp where
  /-- R58: opcode, 0x70 to 0x73. -/
  op : Nat := 0x70
  /-- R58: destination, accumulator, or address a. -/
  dst : Nat := 0
  /-- R58: source, or address b. -/
  src : Nat := 0
  /-- R58: length in bytes. -/
  len : Nat := 0
  /-- R58: pattern of POOL.FILL. -/
  pattern : BitVec 64 := 0
  /-- R58: operation of POOL.REDUCE. -/
  kind : Nat := 0
  /-- R58: type of POOL.REDUCE. -/
  type : Nat := 0
deriving DecidableEq, Repr

/-- R291: a pool command that runs as a background operation. -/
structure PoolRun where
  /-- R291: context. -/
  ctx : Nat := 0
  /-- R291: the operation. -/
  op : PoolOp := {}
  /-- R287: lines done so far. -/
  done : Nat := 0
  /-- R289: first poisoned line met so far. -/
  poison : Option Nat := none
  /-- R58: first differing byte met so far. -/
  diff : Option Nat := none
deriving DecidableEq, Repr

/-- R274: one logical device of one head. -/
structure LdState where
  /-- R274, R503: MANAGER. -/
  manager : Bool := false
  /-- R278: extents held. -/
  extents : List Extent := []
  /-- R278: extents offered and not yet accepted. -/
  offered : List (Nat × Nat) := []
  /-- R276: its four HDM decoders. -/
  decoders : Tbl Decoder := []
  /-- R292: Informational log. -/
  info : List EvRec := []
  /-- R292: Warning log. -/
  warning : List EvRec := []
  /-- R292: Failure log. -/
  failure : List EvRec := []
  /-- R292: the overflow of its logs, by log: records lost, and the timestamps of the first and the last of them. -/
  overflow : Tbl (Nat × BitVec 64 × BitVec 64) := []
  /-- R290: event interrupt policy. -/
  evPolicy : BitVec 32 := 0
  /-- R290: host-set timestamp, with the time base at which it was set. -/
  stamp : BitVec 64 × Nat := (0, 0)
  /-- R291: the pool command that is running. -/
  bgRun : Option PoolRun := none
  /-- R291: the latest pool command that ended: its opcode, how far it came in percent, status, DETAIL and RESULT. -/
  bgLast : Option (Nat × Nat × BitVec 8 × Nat × BitVec 64) := none
deriving DecidableEq, Repr

/-- R282: a snoop filter entry. -/
structure SfEntry where
  /-- R282: line (DPA / 64). -/
  line : Nat := 0
  /-- R282: holder mask. -/
  holders : BitVec 16 := 0
  /-- R282: state E (else S). -/
  owned : Bool := false
  /-- R283, R284: a snoop is outstanding since this time base. -/
  snoopAt : Option Nat := none
  /-- R279, R283: the holders whose response it awaits. -/
  target : BitVec 16 := 0
  /-- R292: the LD whose request caused the snoop; none: the part's engines or the FM. -/
  cause : Option Ld := none
  /-- R284: when the latest snoop was sent. -/
  lastSnoop : Nat := 0
  /-- R285: the host has been reported down. -/
  down : Bool := false
  /-- R280: the holders from which a forced removal takes it, which resolves it at the timeout. -/
  forced : BitVec 16 := 0
deriving DecidableEq, Repr

/-- R281: a shared region. -/
structure Shared where
  /-- R281: first granule. -/
  base : Nat := 0
  /-- R281: granules. -/
  granules : Nat := 0
  /-- R281: Delete Shared Region is resolving its lines. -/
  deleting : Bool := false
  /-- R281, R297: the head whose Delete Shared Region command waits for its lines, while its link is up. -/
  asked : Option Side := none
deriving DecidableEq, Repr

/-- R275, R282: a host request to a shared region that has been decoded and waits for other holders. -/
structure HostReq where
  /-- R275: the LD. -/
  ld : Ld := {}
  /-- R275: address. -/
  dpa : Nat := 0
  /-- R275: length. -/
  len : Nat := 0
  /-- R275: the bytes of a write; none: a read. -/
  data : Option (List (BitVec 8)) := none
  /-- R297: its head's link has gone down since: it is performed without a response. -/
  dropped : Bool := false
deriving DecidableEq, Repr

/-- R299-R302: one head of the CXP block. -/
structure HeadState where
  /-- R300: HDM_EN. -/
  hdmEn : Bool := false
  /-- R301: UP. -/
  up : Bool := false
  /-- R301: MODE. -/
  mode : Nat := 0
  /-- R301: WIDTH. -/
  width : Nat := 0
  /-- R273, R421: the widest width that its working lanes give. -/
  widest : Nat := 16
  /-- R301: IDE_IO. -/
  ideIo : Bool := false
  /-- R301: IDE_MEM. -/
  ideMem : Bool := false
  /-- R295: IDE keys, by stream (0 io, 1 mem). -/
  ideKeys : Tbl (BitVec 256) := []
  /-- R295: CXL.cachemem IDE is in skid mode, else in containment mode. -/
  ideSkid : Bool := false
  /-- R301: DOWN_COUNT. -/
  downCount : BitVec 32 := 0
  /-- R301: BI_TIMEOUT. -/
  biTimeout : Bool := false
  /-- R282: snoop filter, least recently used first. -/
  sf : List SfEntry := []
  /-- R274: its sixteen LDs that are not as after wipe. -/
  lds : Tbl LdState := []
  /-- R503: the first Set LD Privilege has come. -/
  privSet : Bool := false
  /-- R278: block size of its two DC regions. -/
  dcBlock : Nat := 2097152
  /-- R293: QoS control and limits. -/
  qos : Tbl (BitVec 64) := []
  /-- R275: failures folded in the present millisecond: LD, kind, millisecond. -/
  folded : List (Nat × Nat × Nat) := []
deriving DecidableEq, Repr

/-- R299-R302: the CXP block. -/
structure Cxp where
  /-- R299: the two heads, A west and B east. -/
  head : Two HeadState := ⟨{}, {}⟩
  /-- R300: POOL_EN. -/
  poolEn : Bool := false
  /-- R300: BI_EN. -/
  biEn : Bool := false
  /-- R300: IDE_REQUIRED as the driver set it. -/
  ideReq : Bool := false
  /-- R301: LATE_BIRSP. -/
  lateBirsp : Bool := false
  /-- R302: BI_TIMEOUT_US. -/
  biTimeoutUs : Nat := 2000
  /-- R281: shared regions, by index 0 to 15. -/
  shared : Tbl Shared := []
  /-- R299: CXP_POISONED. -/
  poisoned : BitVec 64 := 0
  /-- R292: handle of the next event record. -/
  nextEv : Nat := 1
  /-- R279-R283: the host requests that have been decoded and wait for snoops, oldest first. -/
  reqs : List HostReq := []
  /-- R285: the lines poisoned while a snoop was outstanding, with the holders that had not answered. -/
  late : List (Ld × Nat) := []
  /-- R280, R297: the Bind Context commands that wait for requests in flight: the context, the LDs removed, and the head of the command
  while its link is up. -/
  bindWaits : List (Nat × BitVec 32 × Option Side) := []
deriving DecidableEq, Repr

/-! ### Flue -/

/-- R315: an outbound message sent and not completed. -/
structure TxMsg where
  /-- R315: MSGSEQ. -/
  seq : Nat := 0
  /-- R315: payload bytes. -/
  data : List (BitVec 8) := []
  /-- R315: remote address. -/
  raddr : BitVec 64 := 0
  /-- R315: remote key. -/
  rkey : BitVec 32 := 0
  /-- R309: FINAL. -/
  final : Bool := false
  /-- R324: indices that an end-to-end resend has sent again. -/
  resent : List Nat := []
  /-- R327: its packets not yet covered are to be resent once a port carries them. -/
  due : Bool := false
  /-- R315: next index to send first. -/
  next : Nat := 0
  /-- R323: packets given to a port: index, time of the latest transmission (none while one waits in the queue), count of
  replays, port. -/
  sent : List (Nat × Option Nat × Nat × Side) := []
  /-- R320: indices covered by ACK. -/
  covered : List Nat := []
  /-- R324: time base of the last progress. -/
  progress : Nat := 0
  /-- R462, R468: packet 0 has left the part. -/
  left : Bool := false
  /-- R332: it answers this READ sequence of the peer. -/
  readSeq : Option Nat := none
  /-- R328: the registration whose count a READ answer holds. -/
  readKey : Option Nat := none
deriving DecidableEq, Repr

/-- R316-R319: an inbound message being reassembled. -/
structure RxMsg where
  /-- R308: MSGSEQ. -/
  seq : Nat := 0
  /-- R308: PKTCNT. -/
  count : Nat := 0
  /-- R309: FINAL. -/
  final : Bool := false
  /-- R320: indices arrived. -/
  arrived : List Nat := []
  /-- R317: indices written. -/
  written : List Nat := []
  /-- R317, R322: packets held, each with its port and its priority. -/
  held : List (Side × Nat × Packet) := []
  /-- R318: payload by index, for the trailer. -/
  payload : Tbl (List (BitVec 8)) := []
  /-- R318: the trailer has arrived. -/
  trailer : Option (BitVec 32) := none
  /-- R328: registration used by each index not yet written. -/
  keys : Tbl Nat := []
  /-- R320: first unacknowledged arrival. -/
  unackedAt : Option Nat := none
  /-- R320: indices of unacknowledged arrivals. -/
  unacked : List Nat := []
  /-- R332: it is a READ, not yet answered. -/
  read : Bool := false
  /-- R316: failed with this ACK status. -/
  failed : Option Nat := none
deriving DecidableEq, Repr

/-- R311: STATE of a connection. -/
inductive ConnState where
  | closed | opened | closing
deriving DecidableEq, Repr

/-- R311-R327: a connection entry. -/
structure Conn where
  /-- R311: STATE. -/
  state : ConnState := .closed
  /-- R311: RELAXED. -/
  relaxed : Bool := false
  /-- R311: SEALED. -/
  sealed : Bool := false
  /-- R311: ENCAP. -/
  encap : BitVec 2 := 0
  /-- R311: VLAN. -/
  vlan : Bool := false
  /-- R311: TSTAMP. -/
  tstamp : Bool := false
  /-- R311: CLASS. -/
  cls : BitVec 6 := 0
  /-- R311: CONTEXT. -/
  ctx : BitVec 12 := 0
  /-- R311: PEER_CONN. -/
  peerConn : BitVec 15 := 0
  /-- R311: ALIVE. -/
  alive : BitVec 8 := 0
  /-- R311: PEER_ALIVE. -/
  peerAlive : BitVec 8 := 0
  /-- R311: PEER_MAC. -/
  peerMac : BitVec 48 := 0
  /-- R311: VID. -/
  vid : BitVec 12 := 0
  /-- R311: PEER_IP. -/
  peerIp : BitVec 128 := 0
  /-- R311: DEFAULT_RKEY. -/
  defaultRkey : BitVec 32 := 0
  /-- R311: INIT_CREDIT. -/
  initCredit : BitVec 16 := 0
  /-- R311: TX_SEQ. -/
  txSeq : BitVec 32 := 0
  /-- R311, R325: RX_CUM. -/
  rxCum : BitVec 32 := 0
  /-- R311: RX_DONE. -/
  rxDone : BitVec 32 := 0
  /-- R325: done-bitmap from RX_CUM on, as sequences. -/
  done : List Nat := []
  /-- R321: peer's CREDIT_LIMIT. -/
  txLimit : BitVec 32 := 0
  /-- R321: new DATA and READ packets sent since open. -/
  txCount : BitVec 32 := 0
  /-- R320, R321: CREDIT_LIMIT granted to the peer. -/
  rxLimit : BitVec 32 := 0
  /-- R321: packets, as sequence and index, for which credit has been granted, of messages not yet complete. -/
  granted : List (Nat × Nat) := []
  /-- R332: READs that passed their checks and whose answers wait to begin, oldest first, each with its registration. -/
  reads : List (Nat × Packet) := []
  /-- R330: transmit counter. -/
  txCtr : BitVec 64 := 1
  /-- R315: previous PATH. -/
  path : Nat := 0
  /-- R397: keys bound to the id. -/
  keyed : Option (BitVec 576) := none
  /-- R397: Begin Connection Key has generated a key pair. -/
  kemPair : Option Nat := none
  /-- R326: message timeouts in a row. -/
  timeouts : Nat := 0
  /-- R314: millisecond of the last CLOSE answered. -/
  closeMs : Option Nat := none
  /-- R320: port of the latest packet received. -/
  lastPort : Side := .west
  /-- R315: outbound messages. -/
  tx : List TxMsg := []
  /-- R316: inbound messages. -/
  rx : List RxMsg := []
deriving DecidableEq, Repr

/-- R328: a remote-key registration. -/
structure Key where
  /-- R59: the remote key. -/
  rkey : BitVec 32 := 0
  /-- R328: context. -/
  ctx : Nat := 0
  /-- R328: connection, or none for ALLCONN. -/
  conn : Option Nat := none
  /-- R328: base. -/
  base : Nat := 0
  /-- R328: length. -/
  len : Nat := 0
  /-- R59: remote read right. -/
  read : Bool := false
  /-- R59: remote write right. -/
  write : Bool := false
  /-- R328: event, with its enable. -/
  event : Option Nat := none
  /-- R328: REVOKING. -/
  revoking : Bool := false
  /-- R328: in-flight count. -/
  inflight : Nat := 0
  /-- R328: generation. -/
  gen : BitVec 16 := 0
deriving DecidableEq, Repr

/-- R335, R331, R322: one Flue port. -/
structure PortState where
  /-- R334: PORT_EN. -/
  en : Bool := false
  /-- R334: MACSEC_EN. -/
  macsecEn : Bool := false
  /-- R335: UP. -/
  up : Bool := false
  /-- R335: PHY. -/
  phy : Nat := 0
  /-- R335, R331: MACSEC_UP. -/
  macsecUp : Bool := false
  /-- R335: FEC_UNCORR. -/
  fecUncorr : BitVec 16 := 0
  /-- R335: DOWN_COUNT. -/
  downCount : BitVec 32 := 0
  /-- R331: number of secure associations made. -/
  assoc : Nat := 0
  /-- R331: SCI of the association's peer. -/
  peerSci : BitVec 64 := 0
  /-- R331: packet number of the next frame sent. -/
  txPn : BitVec 64 := 1
  /-- R331: lowest packet number that is still accepted. -/
  rxPn : BitVec 64 := 1
  /-- R399: CKN and CAK. -/
  cak : Option (BitVec 128 × BitVec 256) := none
  /-- R333: FLU_MAC. -/
  mac : BitVec 48 := 0
  /-- R333: FLU_GW. -/
  gw : BitVec 48 := 0
  /-- R322: pause end per priority. -/
  paused : Tbl Nat := []
  /-- R322: priorities for which XOFF has been sent. -/
  xoff : List Nat := []
  /-- R347: frames queued for egress, oldest first. -/
  queue : List TxFrame := []
  /-- R347: deficit of each weighted class. -/
  deficit : Tbl Nat := []
  /-- R347: class whose turn it is. -/
  turn : Nat := 4
  /-- R350: end of the transmission in progress, in units of 0.01 ns. -/
  busyUntil : Nat := 0
  /-- R306: frames sent, newest last (what the wire carries). -/
  wire : List TxFrame := []
  /-- R350, R352: the running gate schedule. -/
  gate : Option GateSched := none
  /-- R352: the pending gate schedule with the time it takes effect. -/
  pendingGate : Option (GateSched × Nat) := none
  /-- R352: time base of the entry boundary at which DISABLE takes effect. -/
  disabling : Option Nat := none
  /-- R350: entry of the running schedule in force. -/
  entry : Nat := 0
  /-- R356: the pending list being written. -/
  gateList : Tbl (BitVec 32 × BitVec 64) := []
deriving DecidableEq, Repr

/-- R333-R337: the FLU block. -/
structure Flu where
  /-- R335: the two ports, 0 west and 1 east. -/
  port : Two PortState := ⟨{}, {}⟩
  /-- R334: FLUE_EN. -/
  flueEn : Bool := false
  /-- R334: READ_EN. -/
  readEn : Bool := false
  /-- R334: MACSEC_REQ. -/
  macsecReq : Bool := false
  /-- R334: PATHS. -/
  paths : BitVec 8 := 0
  /-- R336: MSG_TIMEOUT_US. -/
  msgTimeoutUs : Nat := 500
  /-- R336: CLOSE_AFTER. -/
  closeAfter : Nat := 8
  /-- R336: ACK_DELAY_US. -/
  ackDelayUs : Nat := 1
  /-- R333: FLU_ENCAP. -/
  encap : BitVec 64 := 0x0000_C000_4C54_88B5
  /-- R333: FLU_IP4. -/
  ip4 : BitVec 32 := 0
  /-- R333: FLU_IP6. -/
  ip6 : BitVec 128 := 0
  /-- R333: FLU_PFC.PFC_EN. -/
  pfcEn : BitVec 8 := 0
  /-- R333: FLU_PFC.WPCP. -/
  wpcp : BitVec 3 := 3
  /-- R333: FLU_CONN_DATA0 to FLU_CONN_DATA7. -/
  connData : BitVec 512 := 0
  /-- R337: FLU_CONN_STATUS. -/
  connStatus : BitVec 64 := 0
  /-- R337: connection of the CLOSE that is running. -/
  closing : Option Nat := none
  /-- R311: connection entries that are not as after wipe. -/
  conns : Tbl Conn := []
  /-- R328: registrations by index. -/
  keys : Tbl Key := []
  /-- R328: generation of each registration index. -/
  keyGens : Tbl Nat := []
  /-- R326: time base since which both ports have been down. -/
  bothDown : Option Nat := some 0
deriving DecidableEq, Repr

/-! ### Damper and check units -/

/-- R340: a policer: its settings and the tokens (units of 1/125 byte) of each port. -/
structure Policer where
  /-- R355: EN. -/
  en : Bool := false
  /-- R355: CIR. -/
  cir : Nat := 0
  /-- R355: PIR. -/
  pir : Nat := 0
  /-- R355: CBS. -/
  cbs : Nat := 0
  /-- R355: PBS. -/
  pbs : Nat := 0
  /-- R340: C bucket of each port. -/
  c : Two Nat := ⟨0, 0⟩
  /-- R340: P bucket of each port. -/
  p : Two Nat := ⟨0, 0⟩
  /-- R344: settings written and not yet in effect. -/
  next : Option (Bool × Nat × Nat × Nat × Nat) := none
deriving DecidableEq, Repr

/-- R353-R356: the DMP block. -/
structure Dmp where
  /-- R354: INGRESS_EN. -/
  ingressEn : Bool := false
  /-- R354: CLS_IN_EN. -/
  clsInEn : Bool := false
  /-- R354: CLS_EG_EN. -/
  clsEgEn : Bool := false
  /-- R354: OVERHEAD. -/
  overhead : Nat := 20
  /-- R354: FTD_KIB. -/
  ftdKib : Nat := 192
  /-- R355: DMP_POL_STATUS. -/
  polStatus : BitVec 64 := 0
  /-- R355: DMP_CIR. -/
  cir : BitVec 64 := 0
  /-- R355: DMP_PIR. -/
  pir : BitVec 64 := 0
  /-- R355: DMP_CBS. -/
  cbs : BitVec 64 := 0
  /-- R355: DMP_PBS. -/
  pbs : BitVec 64 := 0
  /-- R356: DMP_GATE_STATUS. -/
  gateStatus : BitVec 64 := 0
  /-- R353: DMP_GATE_BASE. -/
  gateBase : BitVec 64 := 0
  /-- R353: DMP_GATE_MASK. -/
  gateMask : BitVec 64 := 0
  /-- R353: DMP_GATE_DUR. -/
  gateDur : BitVec 32 := 0
  /-- R353: DMP_GATE_OPEN. -/
  gateOpen : BitVec 64 := 0
  /-- R349, R353: MAXFRAME of the classes written (0x10BE after wipe). -/
  maxFrame : Tbl Nat := []
  /-- R340: context policers. -/
  ctxPol : Tbl Policer := []
  /-- R340: connection policers. -/
  connPol : Tbl Policer := []
  /-- R340: time base of the latest refill. -/
  refilledAt : Option Nat := none
  /-- R340, R344: the split of the latest refill: both ports were up. -/
  split : Bool := false
deriving DecidableEq, Repr

/-- R357-R363: a check unit that is SET. -/
structure CheckUnit where
  /-- R358: POLY. -/
  poly : BitVec 64 := 0
  /-- R358: INIT. -/
  init : BitVec 64 := 0
  /-- R358: XOROUT. -/
  xorOut : BitVec 64 := 0
  /-- R358: WIDTH. -/
  width : Nat := 8
  /-- R358: REFIN. -/
  refIn : Bool := false
  /-- R358: REFOUT. -/
  refOut : Bool := false
  /-- R358: ALIVE_W in bits (0 none). -/
  aliveW : Nat := 0
  /-- R358, R361: expected next alive value. -/
  aliveNext : Nat := 0
  /-- R359: running value. -/
  running : BitVec 64 := 0
deriving DecidableEq, Repr

/-! ### Security -/

/-- R389, R390: the SPDM state of a head. -/
inductive SpdmState where
  | start | version | capabilities | negotiated | handshake | session
deriving DecidableEq, Repr

/-- R389: one head's SPDM responder. -/
structure Spdm where
  /-- R389: how far the flow has come. -/
  state : SpdmState := .start
  /-- R390: the shared secret of the handshake (it never leaves the part). -/
  secret : Option (BitVec 256) := none
deriving DecidableEq, Repr

/-- R366-R406: the security block. -/
structure Sec where
  /-- R366: LCS (fuse). -/
  lcs : Lcs := .deployed
  /-- R370: confidential mode. -/
  confidential : Bool := false
  /-- R370: Set Mode has been accepted since the cold reset. -/
  modeSet : Bool := false
  /-- R370: a Create Context has succeeded since the cold reset. -/
  ctxMade : Bool := false
  /-- R369: DEBUG_OPEN. -/
  debugOpen : Bool := false
  /-- R369: DEBUG_OPENED. -/
  debugOpened : Bool := false
  /-- R369: an authorised Open Debug request carried in VDD_AUX logic. -/
  debugRequest : Bool := false
  /-- R372, R375: number of the persistent root held. -/
  persistRoot : Option (BitVec 256) := none
  /-- R373: ENTROPY_FAIL. -/
  entropyFail : Bool := false
  /-- R406: SVN of the running image. -/
  svn : Nat := 0
  /-- R400: digest of the running image. -/
  fwDigest : BitVec 512 := 0
  /-- R406, R400: rollback steps burned (fuse). -/
  fuseSvn : Nat := 0
  /-- R401: the burned steps as the report shows them: those known when the running image came to run. -/
  reportSvn : Nat := 0
  /-- R406: PENDING. -/
  fwPending : Bool := false
  /-- R401: image placed in the reserve. -/
  fwReserve : Option FwImage := none
  /-- R366, R400: image on channel 0 and on channel 16; the part is delivered with firmware (log 4). -/
  fwCopies : Two (Option FwImage) := ⟨some { signed := true, serves := [.deployed] }, some { signed := true, serves := [.deployed] }⟩
  /-- R368: persistent-generation fuse. -/
  persistGen : Nat := 0
  /-- R373: count of DRBG outputs drawn: the number of the next key, nonce or salt. -/
  drbg : Nat := 0
  /-- R366: nonces returned by Get Nonce since the last reset. -/
  nonces : List (BitVec 256) := []
  /-- R389: the SPDM responder of each head. -/
  spdm : Two Spdm := ⟨{}, {}⟩
  /-- R372: number of the reserve key. -/
  reserveKey : Nat := 0
deriving DecidableEq, Repr

/-! ### Telemetry -/

/-- R449, R470: the tap of one engine class of one die. -/
structure Tap where
  /-- R449: BUSY. -/
  busy : BitVec 64 := 0
  /-- R449: STALL. -/
  stall : BitVec 64 := 0
  /-- R449: IDLE. -/
  idle : BitVec 64 := 0
  /-- R449: PAUSED_NS. -/
  paused : BitVec 64 := 0
  /-- R451, R474: stalled beats or ns per reason. -/
  reasons : Tbl (BitVec 64) := []
  /-- R470: latched STALL. -/
  latStall : BitVec 64 := 0
  /-- R470: latched IDLE. -/
  latIdle : BitVec 64 := 0
  /-- R470: latched PAUSED_NS. -/
  latPaused : BitVec 64 := 0
deriving DecidableEq, Repr

/-- R461: a trace record. -/
structure TraceRec where
  /-- R461: TYPE. -/
  type : Nat := 0
  /-- R461: engine class of SRC. -/
  cls : Nat := 0
  /-- R461: UNIT. -/
  unit : Nat := 0
  /-- R461: CONTEXT, or none. -/
  ctx : Option Nat := none
  /-- R461: RING. -/
  ring : Nat := 0
  /-- R461: LAYER. -/
  layer : Nat := 0
  /-- R461: OPID. -/
  opid : Nat := 0
  /-- R461: INDEX. -/
  index : Nat := 0
  /-- R461: ARG. -/
  arg : Nat := 0
deriving DecidableEq, Repr

/-- R463, R464: the trace buffer of a die. -/
structure Trace where
  /-- R473: EN. -/
  en : Bool := false
  /-- R471: TRACE_FULL. -/
  full : Bool := false
  /-- R469: slot of the next record. -/
  wp : Nat := 0
  /-- R469: wraps. -/
  wraps : BitVec 32 := 0
  /-- R469: lost records. -/
  lost : BitVec 32 := 0
  /-- R461: records written since the trace started, by slot. -/
  recs : Tbl (BitVec 256) := []
  /-- R464: the trace queue: records with their time stamps, the oldest first. -/
  queue : List (TraceRec × BitVec 64) := []
  /-- R462: records lost at a full queue since the last LOST_RECORDS. -/
  missed : Nat := 0
deriving DecidableEq, Repr

/-- R472: a die's beat monitor. -/
structure BeatMon where
  /-- R472: RATE. -/
  rate : BitVec 16 := 0
  /-- R472: RATE_MIN. -/
  rateMin : BitVec 16 := 0xFFFF
  /-- R472: VCORE. -/
  vcore : BitVec 12 := 0
  /-- R472: TJ. -/
  tj : Int := 0
  /-- R472: BELOW_FLOOR. -/
  belowFloor : Bool := false
deriving DecidableEq, Repr

/-- R469-R473: the TEL block. -/
structure Tel where
  /-- R471: GLOBAL_EN. -/
  globalEn : Bool := true
  /-- R469: TEL_PART_ID. -/
  partId : BitVec 16 := 0
  /-- R472: beat monitors. -/
  beat : Two BeatMon := ⟨{}, {}⟩
  /-- R473: WRAP. -/
  wrap : Bool := false
  /-- R473: LOSSLESS. -/
  lossless : Bool := false
  /-- R473: ALLCTX. -/
  allCtx : Bool := false
  /-- R473: CTX. -/
  ctx : BitVec 12 := 0
  /-- R473: TYPES. -/
  types : BitVec 32 := 0
  /-- R471: TRACE_REFUSED. -/
  refused : Bool := false
  /-- R461: the trace buffers. -/
  trace : Two Trace := ⟨{}, {}⟩
  /-- R449: taps, by class code. -/
  taps : Two (Tbl Tap) := ⟨[], []⟩
  /-- R453, R469: the counters of every block (privileged and always-on), by their BAR0 offset. -/
  cnt : Tbl (BitVec 64) := []
deriving DecidableEq, Repr

/-! ### Part: resets, faults, power -/

/-- R421: an open recovery window. -/
structure Window where
  /-- R421: kind of the fault. -/
  kind : FaultKind := .firebox
  /-- R421: die. -/
  die : Side := .west
  /-- R421: unit. -/
  unit : Nat := 0
  /-- R421: time base at which it opened. -/
  opened : Nat := 0
deriving DecidableEq, Repr

/-- R419: a section of the recovery log. -/
structure RlogSection where
  /-- R419: CAUSE. -/
  cause : Nat := 0
  /-- R419: SFLAGS. -/
  flags : BitVec 8 := 0
  /-- R419: RESET_TIME. -/
  time : BitVec 64 := 0
  /-- R419: BOOT_SEQ. -/
  bootSeq : Nat := 0
  /-- R419: ring number, context, class, final AIDX of each ring. -/
  rings : List (Nat × Nat × Nat × BitVec 32) := []
  /-- R419, R61: records in ring and acceptance order, each with its ring. -/
  recs : List (Nat × BitVec 256) := []
deriving DecidableEq, Repr

/-- R504-R508: the GBL block and the part's reset state. -/
structure Gbl where
  /-- R504: STEPPING of GBL_ID. -/
  stepping : BitVec 8 := 0
  /-- R506: FW_READY. -/
  fwReady : Bool := false
  /-- R448: time base at FW_READY. -/
  fwReadyAt : Nat := 0
  /-- R415, R506: HELD, which WARM_DONE reports. -/
  held : Bool := false
  /-- R415: a warm reset is stopping the part. -/
  warming : Bool := false
  /-- R505: a warm reset waits for the recovery window to end. -/
  warmWaiting : Bool := false
  /-- R506: JOURNAL_FAIL. -/
  journalFail : Bool := false
  /-- R506: STACK_FAIL. -/
  stackFail : Bool := false
  /-- R506, R445: OVERBOOKED. -/
  overbooked : Bool := false
  /-- R506, R486: POWER_HOLD. -/
  powerHold : Bool := false
  /-- R421, R506: open recovery windows (RECOVERING when not empty). -/
  windows : List Window := []
  /-- R23: the control plane is stopped until a cold reset. -/
  stopped : Bool := false
  /-- R505: PERST_HEAD. -/
  perstHead : Side := .west
  /-- R504: GBL_FAULT_VEC. -/
  faultVec : BitVec 11 := 0
  /-- R507: VALID, MORE, KIND, DIE, UNIT of GBL_FAULT. -/
  fault : BitVec 32 := 0
  /-- R507: COUNT of GBL_FAULT. -/
  faultCount : BitVec 32 := 0
  /-- R428, R476: ALERT# is asserted (low). -/
  alert : Bool := false
  /-- R508: weights of the classes Set Class has set (0 for 0 to 3, else 1, after wipe). -/
  weights : Tbl Nat := []
  /-- R508: bounds in µs. -/
  bounds : Tbl Nat := []
  /-- R448: ADMIT_CAP. -/
  admitCap : Nat := 243
  /-- R448: BLOCK_US. -/
  blockUs : Nat := 4
  /-- R418: the recovery log, newest last. -/
  rlog : List RlogSection := []
  /-- R419: cold resets since format. -/
  bootSeq : Nat := 0
  /-- R515, R507: the MSI-X messages raised, newest last. -/
  msix : List Msix := []
  /-- R44: weighted class whose turn it is, by Stoker (die × 8 + Stoker). -/
  issueTurn : Tbl Nat := []
  /-- R44: instructions left of the quantum of each weighted class, by Stoker × 64 + class. -/
  issueLeft : Tbl Nat := []
  /-- R44: ring served last in each class, by Stoker × 64 + class. -/
  issueLast : Tbl Nat := []
  /-- R15, R429: time base at which the Mantel controller last started. -/
  mantelAt : Option Nat := none
deriving DecidableEq, Repr

/-- R166, R425, R433: the engines of a die. -/
structure Engines where
  /-- R164: Fireboxes in service. -/
  fireboxes : List Nat := []
  /-- R166: spares left. -/
  spares : List Nat := []
  /-- R425: time base of the last engine reset of a Firebox. -/
  engineResets : Tbl Nat := []
  /-- R378: the context whose data the SRAM of a Firebox holds; a Firebox not listed is zeroed. -/
  fbxHolds : Tbl Nat := []
  /-- R148, R378: the context under whose key the lines of a Firebox's overflow area were written last. -/
  overflow : Tbl Nat := []
  /-- R423: Stokers in service. -/
  stokers : List Nat := []
  /-- R421: Stokers that have failed; the loss lasts until the part is replaced. -/
  deadStokers : List Nat := []
  /-- R421: Fireboxes that have failed. -/
  deadFireboxes : List Nat := []
  /-- R448: failed Domino banks. -/
  badBanks : List Nat := []
  /-- R426: bridge lanes in use, of 512. -/
  lanes : Nat := 512
  /-- R426: spare bridge lanes. -/
  spareLanes : Nat := 8
deriving DecidableEq, Repr

/-- R416: a journal copy as the flush left it, and the time base of its seal. -/
structure FlushCopy where
  /-- R416: the records that were not FREE. -/
  recs : List JRec := []
  /-- R416: time base in the seal. -/
  time : BitVec 64 := 0
deriving DecidableEq, Repr

/-- R476-R495: pins, rails, clocks and thermal state of the package. -/
structure Package where
  /-- R478, R482: rails within tolerance. -/
  powered : Bool := true
  /-- R413: RESET_N is high. -/
  resetHigh : Bool := true
  /-- R486: POWER_WARN# has been recognised. -/
  powerWarn : Bool := false
  /-- R15, R487: time base from which POWER_WARN# is high again. -/
  highAt : Nat := 0
  /-- R486, R250: the flush is running. -/
  flushing : Bool := false
  /-- R416, R252: the flush or the power loss did not meet hold-up. -/
  holdupMissed : Bool := false
  /-- R416, R417: the sealed journal copy in the flush slot of each die. -/
  copies : Two (Option FlushCopy) := ⟨none, none⟩
  /-- R492: THERMTRIP# has tripped, until VDD_AUX is removed. -/
  thermtrip : Bool := false
  /-- R480, R491: core target of each die in mV. -/
  vtarget : Two Nat := ⟨750, 750⟩
  /-- R480: IOUT last read of each core regulator. -/
  iout : Two (BitVec 16) := ⟨0, 0⟩
  /-- R480: time base of the last answer of each core regulator. -/
  regAt : Two Nat := ⟨0, 0⟩
  /-- R480: the regulator has been silent for 1 ms. -/
  regSilent : Two Bool := ⟨false, false⟩
  /-- R491: the die's engines are paused by temperature, since. -/
  thermalPause : Two (Option Nat) := ⟨none, none⟩
  /-- R491: a supply action at 103 °C, at 105 °C, is under way. -/
  throttle : Two Nat := ⟨0, 0⟩
  /-- R15, R491: time base of the last tick of each supply controller. -/
  supplyAt : Two (Option Nat) := ⟨none, none⟩
  /-- R493: board sensors that did not answer at start-up. -/
  absent : List Nat := []
  /-- R493: board sensors that answer, with the latest reading in 1/16 °C. -/
  sensors : Tbl Int := []
  /-- R493: time base of the last answer of each. -/
  sensorAt : Tbl Nat := []
  /-- R493: sensors excluded after 1 s of silence. -/
  excluded : List Nat := []
  /-- R484: TREF has stopped. -/
  trefLost : Bool := false
  /-- R15, R484: time base at which TREF returned. -/
  trefAt : Option Nat := none
  /-- R460: a paused region: cause, start. -/
  pauses : List (Nat × Nat) := []
deriving DecidableEq, Repr

/-- R417: the flush slots hold a sealed journal copy. -/
def Package.flushed (p : Package) : Bool := p.copies.w.isSome || p.copies.e.isSome

/-- R189, R286, R379: the Hearth tier as the object range shows it. -/
structure Mem where
  /-- R189: bytes that are not zero: context space, and each frame at its view (R191). -/
  cells : List Host.Cell := []
  /-- R190: allocated granules: granule number to context, die, frame. -/
  granules : Tbl (Nat × Side × FrameAt) := []
  /-- R286: poisoned lines (DPA / 64), ascending. -/
  poison : List Nat := []
  /-- R424: granules of a failed stack: their lines are poisoned for good. -/
  dead : List Nat := []
  /-- R382: lines whose MAC does not verify. -/
  badMac : List Nat := []
  /-- R427: lines with an uncorrectable memory error. -/
  uncorrectable : List Nat := []
  /-- R379, R381: MINOR of each line written, by its place in the stacks (FrameAt.place). -/
  minor : Tbl Nat := []
  /-- R379, R381: MAJOR of each 64 KiB block of the stacks, by its lines' place / 1024. -/
  major : Tbl Nat := []
  /-- R379: key epoch of the blocks of context space. -/
  blkEpoch : Tbl (BitVec 2) := []
  /-- R402: granules being zero-filled after a retirement or a release. -/
  filling : List Nat := []
  /-- R402: time base at which the granule being zero-filled on each die is done. -/
  fillAt : Two (Option Nat) := ⟨none, none⟩
deriving DecidableEq, Repr

/-- What the part last answered to the outside (a mailbox, FM, SPDM or memory response). -/
structure Resp where
  /-- R291: standard return code. -/
  ret : Ret := .none
  /-- R291: vendor status code, where the command has a status header. -/
  status : BitVec 8 := 0
  /-- R291: DETAIL. -/
  detail : BitVec 32 := 0
  /-- R291: output payload after the header. -/
  out : List (BitVec 8) := []
  /-- R275: the response carries poison. -/
  poison : Bool := false
  /-- R272: DevLoad of an S2M response. -/
  devLoad : Option (BitVec 2) := none
deriving DecidableEq, Repr

/-- R18, R189-R518: the AK-960. -/
structure State where
  /-- The queue of waiting commands, first in, first out (the model's own). -/
  pending : List Instr := []
  /-- Number of the next free value (the model's own field: R149, R161 and others leave values open). -/
  fresh : Nat := 0
  /-- R15, R484: the time base in ns. -/
  now : BitVec 64 := 0
  /-- R291, R275: the part's last answer to the outside. -/
  resp : Resp := {}
  /-- R504: GBL block and reset state. -/
  gbl : Gbl := {}
  /-- R407: the journal. -/
  jrn : Journal := {}
  /-- R509: rings that are not as after wipe. -/
  rings : Tbl Ring := []
  /-- R516: contexts that are not as after wipe. -/
  ctxs : Tbl Ctx := []
  /-- R64: profile slots in use. -/
  profiles : Tbl Profile := []
  /-- R48: registered images. -/
  images : Tbl Image := []
  /-- R78: sequence table, key die × 2^21 + index. -/
  seqs : Tbl Seq := []
  /-- R82: handle table. -/
  pages : Tbl Page := []
  /-- R129: DOM block, prefix store and Domino unit. -/
  dom : Dom := {}
  /-- R164, R425: the engines of each die. -/
  eng : Two Engines := ⟨{}, {}⟩
  /-- R165: FBX_CTL. -/
  fbxCtl : BitVec 64 := 0x000F_3F03
  /-- R228: DRT block. -/
  drt : Drt := {}
  /-- R221: weight objects, key die × 2,048 + index. -/
  wobjs : Tbl WObj := []
  /-- R223: open windows by id. -/
  wins : Tbl Win := []
  /-- R267: COAL block and media. -/
  coal : Coal := {}
  /-- R299: CXP block. -/
  cxp : Cxp := {}
  /-- R333: FLU block. -/
  flu : Flu := {}
  /-- R353: DMP block. -/
  dmp : Dmp := {}
  /-- R357: check units that are SET. -/
  chk : Tbl CheckUnit := []
  /-- R405: SEC block. -/
  sec : Sec := {}
  /-- R469: TEL block. -/
  tel : Tel := {}
  /-- R476: pins, rails, clocks, temperatures. -/
  pkg : Package := {}
  /-- R189: the Hearth tier. -/
  mem : Mem := {}
deriving DecidableEq, Repr

/-- The machine right after reset: every field at its default, no command waiting (R431 begins here: the cold reset
of power-on has wiped everything and the boot has not ended). -/
def State.reset : State := {}

end Machine
end Sys2Proof
end

