-- ==== Sys2Proof/Machine/Table.lean ====
section
/-! DEFINITION. Operations on the plain containers: pairs by die, sparse tables, ascending lists, bytes. -/

namespace Sys2Proof

/-- The other die, head or port. -/
def Side.other : Side → Side
  | .west => .east
  | .east => .west

/-- R76, R303: West, head A and port 0 are 0; East, head B and port 1 are 1. -/
def Side.num : Side → Nat
  | .west => 0
  | .east => 1

/-- The side of a one-bit field. -/
def sideOf (n : Nat) : Side := if n % 2 = 0 then .west else .east

/-- The member of a pair. -/
def Two.get {α : Type} (t : Two α) : Side → α
  | .west => t.w
  | .east => t.e

/-- The pair with one member replaced. -/
def Two.set {α : Type} (t : Two α) (d : Side) (x : α) : Two α :=
  match d with
  | .west => { t with w := x }
  | .east => { t with e := x }

/-- The pair with one member changed. -/
def Two.upd {α : Type} (t : Two α) (d : Side) (f : α → α) : Two α := t.set d (f (t.get d))

/-- Both members changed alike. -/
def Two.map {α β : Type} (t : Two α) (f : α → β) : Two β := ⟨f t.w, f t.e⟩

/-- The entry of number k, if the table lists one. -/
def Tbl.look {α : Type} : Tbl α → Nat → Option α
  | [], _ => none
  | (i, x) :: r, k => if i = k then some x else Tbl.look r k

/-- The entry of number k, or what an absent number holds. -/
def Tbl.lookD {α : Type} (t : Tbl α) (k : Nat) (d : α) : α := (t.look k).getD d

/-- The table with number k holding x, keys kept rising. -/
def Tbl.put {α : Type} : Tbl α → Nat → α → Tbl α
  | [], k, x => [(k, x)]
  | (i, y) :: r, k, x =>
    if k < i then (k, x) :: (i, y) :: r
    else if k = i then (k, x) :: r
    else (i, y) :: Tbl.put r k x

/-- The table without number k. -/
def Tbl.del {α : Type} (t : Tbl α) (k : Nat) : Tbl α := t.filter (fun p => p.1 != k)

/-- Whether number k is listed. -/
def Tbl.has {α : Type} (t : Tbl α) (k : Nat) : Bool := (t.look k).isSome

/-- The numbers listed. -/
def Tbl.keys {α : Type} (t : Tbl α) : List Nat := t.map (·.1)

/-- The entries listed. -/
def Tbl.vals {α : Type} (t : Tbl α) : List α := t.map (·.2)

/-- Number k changed by f, from d where it is absent. -/
def Tbl.upd {α : Type} (t : Tbl α) (k : Nat) (d : α) (f : α → α) : Tbl α := t.put k (f (t.lookD k d))

/-- Every entry changed. -/
def Tbl.mapVals {α β : Type} (t : Tbl α) (f : Nat → α → β) : Tbl β := t.map (fun p => (p.1, f p.1 p.2))

/-- The entries for which p holds. -/
def Tbl.keep {α : Type} (t : Tbl α) (p : Nat → α → Bool) : Tbl α := t.filter (fun q => p q.1 q.2)

/-- The lowest number from k on that an ascending list of numbers lacks. -/
def lowestFree : List Nat → Nat → Nat
  | [], k => k
  | i :: r, k => if i < k then lowestFree r k else if i = k then lowestFree r (k + 1) else k

/-- A number put into an ascending list without repeats. -/
def insNat : List Nat → Nat → List Nat
  | [], k => [k]
  | i :: r, k => if k < i then k :: i :: r else if k = i then i :: r else i :: insNat r k

/-- The least number that is no key of a table. -/
def Tbl.lowFree {α : Type} (t : Tbl α) : Nat := lowestFree (t.keys.foldl insNat []) 0

/-- The first side of the list on which p holds. -/
def firstSide (p : Side → Bool) : Option Side :=
  if p .west then some .west else if p .east then some .east else none

/-- R1: the n bytes of a value, lowest first. -/
def leBytes (n v : Nat) : List Byte := (List.range n).map (fun i => BitVec.ofNat 8 (v >>> (8 * i)))

/-- R1: the value of bytes, lowest first. -/
def ofBytes : List Byte → Nat
  | [] => 0
  | b :: r => b.toNat + 256 * ofBytes r

/-- R2: bits [lo + w − 1 : lo] of a number. -/
def bits (v lo w : Nat) : Nat := (v >>> lo) % 2 ^ w

/-- Bit i of a number. -/
def bitOf (v i : Nat) : Bool := (v >>> i) % 2 == 1

/-- A truth value as a number. -/
def b2n (b : Bool) : Nat := if b then 1 else 0

/-- n / d rounded up. -/
def ceilDiv (n d : Nat) : Nat := (n + d - 1) / d

/-- The least of a list, or d where it is empty. -/
def minOr (d : Nat) : List Nat → Nat
  | [] => d
  | x :: r => r.foldl Nat.min x

/-- The first byte of a word (64 bits, lowest byte 0) that is not zero, or 8. -/
def firstByte (v : Nat) : Nat :=
  match (List.range 8).find? (fun i => (v >>> (8 * i)) % 256 != 0) with
  | some i => i
  | none => 8

end Sys2Proof
end

