-- ==== Sys2Proof/Machine/Flags.lean ====
section
/-! DEFINITION. The status codes of R63, their classes, and the FLAGS byte of a full completion record (R61). -/

namespace Sys2Proof
namespace Machine

/-- R63: a status code. -/
abbrev Status := BitVec 8

namespace St
/-- R63. -/
def ok : Status := 0x00
/-- R63. -/
def skipped : Status := 0x01
/-- R63. -/
def recompute : Status := 0x08
/-- R63. -/
def mediaLost : Status := 0x09
/-- R63. -/
def notResident : Status := 0x0A
/-- R63. -/
def timeout : Status := 0x0B
/-- R63. -/
def cancelled : Status := 0x0C
/-- R63. -/
def notExecuted : Status := 0x0D
/-- R63. -/
def ctxRetired : Status := 0x0E
/-- R63. -/
def keyRevoked : Status := 0x0F
/-- R63. -/
def peerClosed : Status := 0x10
/-- R63. -/
def poison : Status := 0x11
/-- R63. -/
def badOpcode : Status := 0x20
/-- R63. -/
def badReserved : Status := 0x21
/-- R63. -/
def badOperand : Status := 0x22
/-- R63. -/
def badAlign : Status := 0x23
/-- R63. -/
def badHandle : Status := 0x24
/-- R63. -/
def badPosition : Status := 0x25
/-- R63. -/
def access : Status := 0x26
/-- R63. -/
def scope : Status := 0x27
/-- R63. -/
def noSpace : Status := 0x28
/-- R63. -/
def quota : Status := 0x29
/-- R63. -/
def busy : Status := 0x2A
/-- R63. -/
def formatNarrow : Status := 0x2B
/-- R63. -/
def profileMismatch : Status := 0x2C
/-- R63. -/
def statsMissing : Status := 0x2D
/-- R63. -/
def bwdFormat : Status := 0x2E
/-- R63. -/
def sourceFailed : Status := 0x2F
/-- R63. -/
def callDepth : Status := 0x30
/-- R63. -/
def image : Status := 0x31
/-- R63. -/
def ringHalted : Status := 0x32
/-- R63. -/
def aliveMismatch : Status := 0x33
/-- R63. -/
def window : Status := 0x34
/-- R63. -/
def linkDown : Status := 0x35
/-- R63. -/
def integrity : Status := 0x36
/-- R63. -/
def uncorrectable : Status := 0x37
/-- R63. -/
def msgTooLong : Status := 0x38
/-- R63. -/
def admitDeadline : Status := 0x40
/-- R63. -/
def gateRefused : Status := 0x41
/-- R63. -/
def notEnabled : Status := 0x42
end St

/-- R63: the success class. -/
def Status.success (s : Status) : Bool := s == St.ok || s == St.skipped

namespace Fl
/-- R61: FORMAT_WIDENED. -/
def widened : BitVec 4 := 1
/-- R61: LATE. -/
def late : BitVec 4 := 2
/-- R61: RESUMED. -/
def resumed : BitVec 4 := 4
/-- R61: LIST_FULL. -/
def listFull : BitVec 4 := 8
end Fl

/-- R61: PHASE of the record written with count n into a ring of `size` records: 1 on the first pass. -/
def phaseOf (n size : Nat) : Bool := (n / Nat.max size 1) % 2 == 0

/-- R61: the FLAGS byte. -/
def flagsByte (cflags : BitVec 4) (phase : Bool) : Byte :=
  BitVec.ofNat 8 (cflags.toNat + (if phase then 128 else 0))

/-- R60: a completion takes a full record when C is set, when its status is outside ST_OK and ST_SKIPPED, or when it
sets LATE. -/
def needsFull (c : Bool) (st : Status) (late : Bool) : Bool := c || !(Status.success st) || late

/-- R61: the 32 bytes of a full record. -/
def fullRecord (index : BitVec 32) (st : Status) (flags : Byte) (opcode : Byte) (layer opid : BitVec 16)
    (detail : BitVec 32) (result time : BitVec 64) : List Byte :=
  leBytes 4 index.toNat ++ [st, flags, opcode, 0] ++ leBytes 2 layer.toNat ++ leBytes 2 opid.toNat ++
    leBytes 4 detail.toNat ++ leBytes 8 result.toNat ++ leBytes 8 time.toNat

end Machine
end Sys2Proof
end

