-- ==== Sys2Proof/Machine/Ops.lean ====
section
/-! DEFINITION. Named operations over the state: the tables' entries, the bytes and lines of the Hearth tier, the range
checks of R37, counters, check values, free values. -/

namespace Sys2Proof
namespace Machine

/-! ### Entries of the tables -/

/-- R509: ring n. -/
def State.ring (s : State) (n : Nat) : Ring := s.rings.lookD n {}
/-- Ring n replaced. -/
def State.setRing (s : State) (n : Nat) (r : Ring) : State := { s with rings := s.rings.put n r }
/-- R516: context c. -/
def State.ctx (s : State) (c : Nat) : Ctx := s.ctxs.lookD c {}
/-- Context c replaced. -/
def State.setCtx (s : State) (c : Nat) (x : Ctx) : State := { s with ctxs := s.ctxs.put c x }
/-- R78: the sequence table entry with key die × 2^21 + index. -/
def State.seq (s : State) (k : Nat) : Seq := s.seqs.lookD k {}
/-- A sequence table entry replaced. -/
def State.setSeq (s : State) (k : Nat) (q : Seq) : State := { s with seqs := s.seqs.put k q }
/-- R82: the handle table entry of handle bits [37:0]. -/
def State.page (s : State) (h : Nat) : Page := s.pages.lookD h {}
/-- A handle table entry replaced. -/
def State.setPage (s : State) (h : Nat) (p : Page) : State := { s with pages := s.pages.put h p }
/-- A handle table entry changed. -/
def State.updPage (s : State) (h : Nat) (f : Page → Page) : State := s.setPage h (f (s.page h))
/-- R64: the profile of a slot. -/
def State.profile (s : State) (slot : Nat) : Profile := s.profiles.lookD slot {}
/-- R221: the weight object with key die × 2,048 + index. -/
def State.wobj (s : State) (k : Nat) : WObj := s.wobjs.lookD k {}
/-- A weight object replaced. -/
def State.setWobj (s : State) (k : Nat) (w : WObj) : State := { s with wobjs := s.wobjs.put k w }
/-- R311: connection n. -/
def State.conn (s : State) (n : Nat) : Conn := s.flu.conns.lookD n {}
/-- Connection n replaced. -/
def State.setConn (s : State) (n : Nat) (c : Conn) : State :=
  { s with flu := { s.flu with conns := s.flu.conns.put n c } }
/-- R274: a logical device. -/
def State.ld (s : State) (l : Ld) : LdState := (s.cxp.head.get l.head).lds.lookD l.id {}
/-- A head replaced. -/
def State.setHead (s : State) (h : Side) (x : HeadState) : State :=
  { s with cxp := { s.cxp with head := s.cxp.head.set h x } }
/-- A logical device replaced. -/
def State.setLd (s : State) (l : Ld) (x : LdState) : State :=
  let h := s.cxp.head.get l.head
  s.setHead l.head { h with lds := h.lds.put l.id x }
/-- A Flue port replaced. -/
def State.setPort (s : State) (p : Side) (x : PortState) : State :=
  { s with flu := { s.flu with port := s.flu.port.set p x } }
/-- A half of the Coal store replaced. -/
def State.setHalf (s : State) (d : Side) (x : Half) : State :=
  { s with coal := { s.coal with half := s.coal.half.set d x } }

/-! ### Access -/

/-- R502, R503: the LD holds the MANAGER privilege. -/
def State.manager (s : State) (l : Ld) : Bool :=
  if (s.cxp.head.get l.head).privSet then (s.ld l).manager else l.id == 0

/-- R275: the LD is bound to the context. -/
def State.bound (s : State) (l : Ld) (c : Nat) : Bool :=
  l.id < 16 && (s.ctx c).bind.getLsbD (l.id + 16 * l.head.num)

/-! ### Counters -/

/-- R453, R471: a privileged counter at BAR0 offset `off` gains n, while the part counts. -/
def State.count (s : State) (off : Nat) (n : Nat := 1) : State :=
  if s.tel.globalEn && !s.sec.confidential then
    { s with tel := { s.tel with cnt := s.tel.cnt.upd off 0 (· + BitVec.ofNat 64 n) } }
  else s

/-- R452: an always-on count gains n. -/
def State.countAo (s : State) (off : Nat) (n : Nat := 1) : State :=
  { s with tel := { s.tel with cnt := s.tel.cnt.upd off 0 (· + BitVec.ofNat 64 n) } }

/-- The next free value (the model's own counter), log 10. -/
def State.free (s : State) : BitVec 64 × State := (Config.freeWord s.fresh, { s with fresh := s.fresh + 1 })

/-- R373: the next output of the DRBG, log 11. -/
def State.draw (s : State) : Nat × State := (s.sec.drbg, { s with sec := { s.sec with drbg := s.sec.drbg + 1 } })

/-! ### Bytes of the Hearth tier -/

/-- R189: the first address beyond context space. -/
def ctxSpaceEnd : Nat := 0x0001000000000000

/-- R189: the first address beyond the object range, 512 TiB. -/
def dpaEnd : Nat := 0x0002000000000000

/-- A byte of a canonical list of cells; an address not listed reads zero (log 3). -/
def cellAt : List Host.Cell → Nat → Byte
  | [], _ => 0
  | (k, v) :: r, a => if k = a then v else cellAt r a

/-- A canonical list of cells with one byte written: rising addresses, no zero byte listed. -/
def putCell : List Host.Cell → Nat → Byte → List Host.Cell
  | [], a, b => if b = 0 then [] else [(a, b)]
  | (k, v) :: r, a, b =>
    if a < k then (if b = 0 then (k, v) :: r else (a, b) :: (k, v) :: r)
    else if a = k then (if b = 0 then r else (a, b) :: r)
    else (k, v) :: putCell r a b

/-- Every address of the list is above `lo`, addresses rise strictly and no byte is zero. -/
def cellsAbove : Nat → List Host.Cell → Bool
  | _, [] => true
  | lo, (k, v) :: r => decide (lo ≤ k) && decide (v ≠ 0) && cellsAbove (k + 1) r

/-- The canonical form of memory: addresses strictly rising and no entry equal to what an unlisted address reads. -/
def Mem.wf (m : Mem) : Bool := cellsAbove 0 m.cells

/-- A byte of memory. -/
def Mem.byte (m : Mem) (a : Nat) : Byte := cellAt m.cells a

/-- Bytes put into a list of cells from address a on. -/
def putBytes : List Host.Cell → Nat → List Byte → List Host.Cell
  | cs, _, [] => cs
  | cs, a, b :: r => putBytes (putCell cs a b) (a + 1) r

/-- n bytes from address a on. -/
def Mem.read (m : Mem) (a n : Nat) : List Byte := (List.range n).map (fun i => m.byte (a + i))

/-- R1: an n-byte field at address a. -/
def Mem.field (m : Mem) (a n : Nat) : Nat := ofBytes (m.read a n)

/-- The lines (address / 64) that n bytes from a on touch. -/
def linesOf (a n : Nat) : List Nat :=
  if n = 0 then [] else (List.range ((a + n - 1) / 64 + 1 - a / 64)).map (· + a / 64)

/-- The lines that n bytes from a on cover whole. -/
def wholeLines (a n : Nat) : List Nat := (linesOf a n).filter (fun l => a ≤ 64 * l && 64 * l + 64 ≤ a + n)

/-- R381: MINOR and MAJOR after a write of the line at a place: MINOR rises; past 255 the block's MAJOR rises and every line of the block
restarts at 0. -/
def countWrite (c : Tbl Nat × Tbl Nat) (x : Nat) : Tbl Nat × Tbl Nat :=
  let mi := c.1.lookD x 0
  if mi < 255 then (c.1.put x (mi + 1), c.2)
  else ((c.1.keep (fun k _ => k / 1024 != x / 1024)).put x 1, c.2.upd (x / 1024) 0 (· + 1))

/-- R381: the lines at these places of the stacks written, in this order. -/
def Mem.countWrites (m : Mem) (xs : List Nat) : Mem :=
  { m with minor := (xs.foldl countWrite (m.minor, m.major)).1, major := (xs.foldl countWrite (m.minor, m.major)).2 }

/-- R286, R382, R424: a write clears the poison and the MAC failure of each line it covers whole, except on a failed
stack; other lines keep both. -/
def Mem.clearLines (m : Mem) (ls : List Nat) : Mem :=
  { m with poison := m.poison.filter (fun l => !(ls.contains l)),
           badMac := m.badMac.filter (fun l => !(ls.contains l)),
           uncorrectable := m.uncorrectable.filter (fun l => !(ls.contains l)) }

/-- R382: bytes written from address a on. -/
def Mem.write (m : Mem) (a : Nat) (bs : List Byte) : Mem :=
  { m with cells := putBytes m.cells a bs }.clearLines (wholeLines a bs.length)

/-- R286: a line is poisoned (until it is covered by a write). -/
def Mem.poisonLine (m : Mem) (l : Nat) : Mem := { m with poison := insNat m.poison l }

/-- R286, R424: line l returns poison to a reader. -/
def Mem.poisoned (m : Mem) (l : Nat) : Bool := m.poison.contains l || m.dead.contains (l / 32768)

/-- R289, R382, R427: the first line of n bytes from a on that an engine cannot read, with its status and its offset / 64
from the start of the range. -/
def Mem.readErr (m : Mem) (a n : Nat) : Option (Status × Nat) :=
  ((linesOf a n).findSome? fun l =>
    if m.poisoned l then some (St.poison, l - a / 64)
    else if m.badMac.contains l then some (St.integrity, l - a / 64)
    else if m.uncorrectable.contains l then some (St.uncorrectable, l - a / 64)
    else none)

/-- R190: bytes of a granule. -/
def granule : Nat := 2097152

/-- R75: die of a page handle. -/
def pageDie (h : Nat) : Side := sideOf (h / 2 ^ 37)

/-- R75: page number of a page handle. -/
def pageNo (h : Nat) : Nat := h % 2 ^ 37

/-- R191: where the view of a page begins. -/
def viewBase (h : Nat) : Nat := ctxSpaceEnd + (pageDie h).num * 0x800000000000 + pageNo h * 1024

/-- R191: the page or chunk in whose view a line lies. -/
def State.lineHolder (s : State) (l : Nat) : Option Nat :=
  s.pages.keys.find? (fun h => decide (viewBase h ≤ 64 * l) && decide (64 * l + 64 ≤ viewBase h + (s.page h).kib * 1024))

/-- R194, R379: the place of the line at an offset in bytes of a frame: its stack (W0 to W9 as 0 to 9, E0 to E9 as 10 to 19), its region, its
number in the region of 2^22 lines. -/
def FrameAt.place (f : FrameAt) (d : Side) (off : Nat) : Nat :=
  ((10 * d.num + f.stack) * 256 + f.region) * 4194304 + (f.slot * f.kib * 1024 + off) / 64

/-- R194: the places of all lines of a frame. -/
def FrameAt.places (f : FrameAt) (d : Side) : List Nat := (List.range (16 * f.kib)).map (fun i => f.place d (64 * i))

/-- R189, R191, R196: where a line of the object range lies: in its granule, or in the primary and the mirror frame of its page. -/
def State.placesOf (s : State) (l : Nat) : List Nat :=
  if 64 * l < ctxSpaceEnd then
    match s.mem.granules.look (64 * l / granule) with
    | some g => [g.2.2.place g.2.1 (64 * l % granule)]
    | none => []
  else
    match s.lineHolder l with
    | some h => ([(s.page h).primary, (s.page h).mirror].filterMap id).map (fun f => f.place (pageDie h) (64 * l - viewBase h))
    | none => []

/-- R379-R382: bytes written to the Hearth tier; each line written raises its counter at each of its places. -/
def State.poke (s : State) (a : Nat) (bs : List Byte) : State :=
  { s with mem := (s.mem.write a bs).countWrites ((linesOf a bs.length).flatMap s.placesOf) }

/-- R381, R386: every line of a 64 KiB block of the object range rewritten. -/
def State.rewriteBlock (s : State) (b : Nat) : State :=
  { s with mem := s.mem.countWrites (((List.range 1024).map (· + 1024 * b)).flatMap s.placesOf) }

/-- Bytes of the Hearth tier. -/
def State.peek (s : State) (a n : Nat) : List Byte := s.mem.read a n

/-- R1: a little-endian field of the Hearth tier. -/
def State.field (s : State) (a n : Nat) : Nat := s.mem.field a n

/-! ### Granules and the checks of R37 -/

/-- R190: the context that owns granule g. -/
def State.granuleCtx (s : State) (g : Nat) : Option Nat := (s.mem.granules.look g).map (·.1)

/-- R37 check 3: every granule that n bytes from a on touch is allocated to the context. -/
def State.owns (s : State) (c a n : Nat) : Bool :=
  if n = 0 then true
  else
    let lo := a / granule
    let hi := (a + n - 1) / granule
    (s.mem.granules.filter (fun p => lo ≤ p.1 && p.1 ≤ hi && p.2.1 == c)).length == hi + 1 - lo

/-- R37: the checks of an address range whose address and, where `lenToo`, length must be multiples of `align`. -/
def State.checkRange (s : State) (c a n align : Nat) (lenToo : Bool := true) : Option Status :=
  if a % align ≠ 0 || (lenToo && n % align ≠ 0) then some St.badAlign
  else if ctxSpaceEnd < a + n then some St.badOperand
  else if s.owns c a n then none else some St.access

/-- R37: n rounded up to a multiple of 64. -/
def up64 (n : Nat) : Nat := ceilDiv n 64 * 64

/-! ### Check values -/

/-- R70: one bit of CRC-32C, reflected. -/
def crcBit (c : BitVec 32) : BitVec 32 := if c.getLsbD 0 then (c >>> 1) ^^^ 0x82F63B78 else c >>> 1

/-- R70: one byte of CRC-32C. -/
def crcByte (c : BitVec 32) (b : Byte) : BitVec 32 :=
  let x := c ^^^ b.setWidth 32
  crcBit (crcBit (crcBit (crcBit (crcBit (crcBit (crcBit (crcBit x)))))))

/-- R70: CRC-32C: polynomial 0x1EDC_6F41, initial value and final XOR all ones, reflected. -/
def crc32c (bs : List Byte) : BitVec 32 := (bs.foldl crcByte 0xFFFFFFFF) ^^^ 0xFFFFFFFF

/-- R96: the four words of a SipHash state. -/
structure Sip where
  /-- v0. -/
  a : BitVec 64
  /-- v1. -/
  b : BitVec 64
  /-- v2. -/
  c : BitVec 64
  /-- v3. -/
  d : BitVec 64
deriving DecidableEq, Repr

/-- R96: one SipHash round. -/
def sipRound (v : Sip) : Sip :=
  let a := v.a + v.b
  let b := (v.b.rotateLeft 13) ^^^ a
  let a := a.rotateLeft 32
  let c := v.c + v.d
  let d := (v.d.rotateLeft 16) ^^^ c
  let a := a + d
  let d := (d.rotateLeft 21) ^^^ a
  let c := c + b
  let b := (b.rotateLeft 17) ^^^ c
  let c := c.rotateLeft 32
  ⟨a, b, c, d⟩

/-- R96: one message word, two rounds. -/
def sipWord (v : Sip) (m : BitVec 64) : Sip :=
  let w := sipRound (sipRound { v with d := v.d ^^^ m })
  { w with a := w.a ^^^ m }

/-- R96: SipHash-2-4 of whole 64-bit words (little-endian), whose total length is 8 bytes each, under a 128-bit key. -/
def sipHash24 (key : BitVec 128) (ms : List (BitVec 64)) : BitVec 64 :=
  let k0 := key.setWidth 64
  let k1 := (key >>> 64).setWidth 64
  let v0 : Sip := ⟨0x736f6d6570736575 ^^^ k0, 0x646f72616e646f6d ^^^ k1, 0x6c7967656e657261 ^^^ k0,
    0x7465646279746573 ^^^ k1⟩
  let v1 := ms.foldl sipWord v0
  let v2 := sipWord v1 (BitVec.ofNat 64 ((8 * ms.length) % 256) <<< 56)
  let v3 := sipRound (sipRound (sipRound (sipRound { v2 with c := v2.c ^^^ 0xff })))
  v3.a ^^^ v3.b ^^^ v3.c ^^^ v3.d

/-! ### Whether the part runs -/

/-- R431, R434: the firmware runs and nothing has stopped or held the part. -/
def State.running (s : State) : Bool :=
  s.gbl.fwReady && !s.gbl.held && !s.gbl.warming && !s.gbl.stopped && !s.pkg.powerWarn && !s.gbl.powerHold
    && s.pkg.powered && s.pkg.resetHigh

/-- R460: the engine class of the die that the recovery of a fault holds (log 84). -/
def heldClass : FaultKind → Option Nat
  | .firebox => some 1
  | .stoker => some 2
  | .hbmStack => some 9
  | _ => none

/-- R23: the control plane is stopped. -/
def State.live (s : State) : Bool := s.gbl.fwReady && s.pkg.powered && s.pkg.resetHigh

/-- A free-running 32-bit index i lies in [lo, lo + n). -/
def idxWithin (lo i : BitVec 32) (n : Nat) : Bool := (i - lo).toNat < n

/-- R507: one MSI-X message raised. -/
def State.raise (s : State) (h : Side) (ld v : Nat) : State :=
  { s with gbl := { s.gbl with msix := s.gbl.msix ++ [{ head := h, ld := ld, vector := v }] } }

/-! ### Trace records and per-context counters -/

/-- R461: the 32 bytes of a trace record. -/
def TraceRec.word (r : TraceRec) (d : Side) (time : BitVec 64) : BitVec 256 :=
  BitVec.ofNat 256 (ofBytes (leBytes 8 time.toNat ++ leBytes 1 r.type ++ leBytes 1 (r.cls + 128 * d.num)
    ++ leBytes 2 r.unit ++ leBytes 2 (r.ctx.getD 0xFFFF) ++ leBytes 2 r.ring ++ leBytes 2 r.layer
    ++ leBytes 2 r.opid ++ leBytes 4 r.index ++ leBytes 8 r.arg))

/-- R461: records of a trace buffer. -/
def traceSlots : Nat := 2097152

/-- R464: a record written to a die's buffer: over the oldest with WRAP set, lost when the buffer is full without. -/
def Trace.add (t : Trace) (wrap : Bool) (w : BitVec 256) : Trace :=
  if t.full then { t with lost := if t.lost = 0xFFFFFFFF then t.lost else t.lost + 1 }
  else
    let t' := { t with recs := t.recs.put t.wp w }
    if t.wp + 1 < traceSlots then { t' with wp := t.wp + 1 }
    else if wrap then { t' with wp := 0, wraps := t.wraps + 1 }
    else { t' with full := true }

/-- R461: records that the trace queue of a die holds. -/
def traceQueue : Nat := 4096

/-- R464: a record formed: into the queue; one that finds it full is lost, or with LOSSLESS set its engine stalls until it has room. -/
def Trace.put (t : Trace) (lossless : Bool) (r : TraceRec) (time : BitVec 64) : Trace :=
  if lossless || t.queue.length < traceQueue then { t with queue := t.queue ++ [(r, time)] }
  else { t with lost := if t.lost = 0xFFFFFFFF then t.lost else t.lost + 1, missed := t.missed + 1 }

/-- R462, R464: the queue of a die moves on by one record; one of LOST_RECORDS comes first where records were lost. -/
def Trace.drain (t : Trace) (wrap : Bool) (d : Side) (now : BitVec 64) : Trace :=
  match t.queue with
  | [] => t
  | (r, time) :: rs =>
    if t.missed = 0 then ({ t with queue := rs }).add wrap (r.word d time)
    else ({ t with missed := 0 }).add wrap (({ type := 13, arg := t.missed } : TraceRec).word d now)

/-- R463: a record is formed on a die when its type is selected and its context is, or ALLCTX is set. -/
def State.trace (s : State) (d : Side) (r : TraceRec) : State :=
  let t := s.tel.trace.get d
  let admitted := t.en && (r.type = 1 || s.tel.types.getLsbD r.type) &&
    (s.tel.allCtx || r.ctx.isNone || r.ctx = some s.tel.ctx.toNat)
  if admitted then { s with tel := { s.tel with trace := s.tel.trace.set d (t.put s.tel.lossless r s.now) } }
  else s

/-- No ring, layer or operator id: only counters without these filters count (log 50). -/
def noFilter : Nat := 2 ^ 20

/-- R456: the filters of a selector admit a ring, a layer and an operator id. -/
def selectorAdmits (sel : BitVec 64) (ring layer opid : Nat) : Bool :=
  let v := sel.toNat
  (!(bitOf v 12) || bits v 16 16 = ring) && (!(bitOf v 13) || bits v 32 16 = layer)
    && (!(bitOf v 14) || bits v 48 16 = opid)

/-- R455-R457: an event of a context, n times, stamped now and counted in each of its RUNNING counters that selects it. -/
def State.ctxEvent (s : State) (c ev cls ring layer opid n : Nat) : State :=
  let x := s.ctx c
  if x.counters.vals.any (·.running) then
    s.setCtx c { x with counters := x.counters.mapVals (fun _ k =>
      let v := k.selector.toNat
      if k.running && bits v 0 8 = ev && (bits v 8 4 = 0 || bits v 8 4 = cls) && selectorAdmits k.selector ring layer opid
      then { k with value := k.value + BitVec.ofNat 64 n, stampAt := some s.now.toNat, before := k.past s.now.toNat } else k) }
  else s

/-- R458, R459: the issue of an instruction begins a new interval of each RESET_AT_START counter whose filters admit it;
the interval that ends here, without the events stamped now, is kept for a sample at the same time,
which comes before every reset at that time. -/
def State.ctxReset (s : State) (c ring layer opid index : Nat) : State :=
  let x := s.ctx c
  if x.counters.vals.any (fun k => k.running && k.resetAtStart) then
    s.setCtx c { x with counters := x.counters.mapVals (fun _ k =>
      if k.running && k.resetAtStart && selectorAdmits k.selector ring layer opid then
        let fresh := k.endedAt ≠ some s.now.toNat
        { k with
          endedValue := if fresh then k.past s.now.toNat else k.endedValue
          endedInterval := if fresh then k.interval else k.endedInterval, endedAt := some s.now.toNat
          value := k.value - k.past s.now.toNat, before := 0, stampAt := some s.now.toNat
          interval := BitVec.ofNat 64 (index + ring * 2 ^ 32) }
      else k) }
  else s

end Machine
end Sys2Proof
end

