-- ==== Sys2Proof/Machine/Domino.lean ====
section
/-! DEFINITION. The Domino unit (R121-R134): lookups by bank group, inserts, deletes, block shifts and DOM_ACC. -/

namespace Sys2Proof
namespace Machine

/-- R122: the three bank groups. -/
inductive Group where
  | directory | keys | classifier
deriving DecidableEq, Repr

/-- R122: the group of a bank of the part. -/
def bankGroup (b : Nat) : Group :=
  if b % 16 < 12 then .directory else if b % 16 < 14 then .keys else .classifier

/-- R121: the die of a bank. -/
def bankDie (b : Nat) : Side := sideOf (b / 16)

/-- R122: the banks of a group on a die, ascending. -/
def groupBanks (d : Side) (g : Group) : List Nat :=
  ((List.range 16).map (· + 16 * d.num)).filter (fun b => bankGroup b == g)

/-- R122, R132: units an entry of a bank spans. -/
def State.bankUnits (s : State) (b : Nat) : Nat :=
  match bankGroup b with
  | .directory => 2
  | .keys => 4
  | .classifier => match s.dom.width.lookD b 0 with
    | 0 => 1
    | 1 => 2
    | _ => 4

/-- R132: the bank is in service: with DIR_EN, with its die's Flue port, or by its own EN. -/
def State.bankOn (s : State) (b : Nat) : Bool :=
  !((s.eng.get (bankDie b)).badBanks.contains (b % 16)) &&
    match bankGroup b with
    | .directory => s.dom.dirEn
    | .keys => (s.flu.port.get (bankDie b)).en
    | .classifier => s.dom.bankEn.lookD b false

/-- R121: an entry matches a lookup key. -/
def DomEntry.hits (e : DomEntry) (key : BitVec 256) : Bool :=
  ((e.key ^^^ key) &&& e.mask &&& BitVec.ofNat 256 (2 ^ (64 * e.width) - 1)) == 0

/-- R123: of two matching entries with their addresses, the winner. -/
def domBetter (x y : Nat × DomEntry) : Nat × DomEntry :=
  if x.2.prio.toNat < y.2.prio.toNat then y
  else if y.2.prio.toNat < x.2.prio.toNat then x
  else if y.1 < x.1 then y else x

/-- R123: the winner of a lookup in a group of a die, and COUNT. -/
def State.domLookup (s : State) (d : Side) (g : Group) (key : BitVec 256) : Option ((Nat × DomEntry) × Nat) :=
  let bs := (groupBanks d g).filter s.bankOn
  let hs := s.dom.entries.filter (fun p => bs.contains (p.1 / 8192) && p.2.hits key)
  match hs with
  | [] => none
  | x :: r =>
    let w := r.foldl domBetter x
    some (w, Nat.min 15 (hs.filter (fun p => p.2.prio == w.2.prio)).length)

/-- R123, R129: a lookup, counted: DOM_CNT_LOOKUP for the directory, DOM_CNT_MULTI when it returns MULTI. -/
def State.domSearch (s : State) (d : Side) (g : Group) (key : BitVec 256) : Option ((Nat × DomEntry) × Nat) × State :=
  let r := s.domLookup d g key
  let s := if g == .directory then s.count 0x03100300 else s
  (r, match r with
    | some (_, n) => if 2 ≤ n then s.count 0x03100310 else s
    | none => s)

/-- R121, R125: the lowest free address of a bank for an entry of its width. -/
def State.domFree (s : State) (b : Nat) : Option Nat :=
  let w := s.bankUnits b
  let used := (s.dom.entries.keys.filter (fun a => a / 8192 == b)).map (fun a => a % 8192 / w)
  let k := lowestFree used 0
  if k < 8192 / w then some (b * 8192 + k * w) else none

/-- R125: an entry written at an address. -/
def State.domPut (s : State) (a : Nat) (e : DomEntry) : State :=
  { s with dom := { s.dom with entries := s.dom.entries.put a e } }

/-- R125: an entry invalidated. -/
def State.domDel (s : State) (a : Nat) : State :=
  { s with dom := { s.dom with entries := s.dom.entries.del a } }

/-- R104, R128, R328: an entry written into the first free slot of a group of a die. -/
def State.domInsert (s : State) (d : Side) (g : Group) (e : DomEntry) : Option State :=
  match ((groupBanks d g).filter s.bankOn).findSome? s.domFree with
  | some a => some (s.domPut a { e with width := s.bankUnits (a / 8192) })
  | none => none

/-- R124: the key of the hot directory. -/
def dirKey (chain : BitVec 64) (ctx dom : Nat) (scopes : Nat) : BitVec 256 :=
  BitVec.ofNat 256 (chain.toNat + ctx * 2 ^ 64 + dom * 2 ^ 76 + scopes * 2 ^ 88)

/-- R102: the scope as its one-hot bit. -/
def Scope.bit : Scope → Nat
  | .context => 1
  | .domain => 2
  | .global => 4

/-- R103: CONTEXT, then DOMAIN, then GLOBAL. -/
def Scope.rank : Scope → Nat
  | .context => 0
  | .domain => 1
  | .global => 2

/-- R124: the Domino entry of a prefix table entry; its reference bit starts clear, the model's choice (log 140). -/
def PfxEntry.domino (e : PfxEntry) (idx : Nat) : DomEntry :=
  let m (b : Bool) (w lo : Nat) : Nat := if b then (2 ^ w - 1) * 2 ^ lo else 0
  { width := 2
    key := dirKey e.chain e.vctx e.vdom e.scope.bit
    mask := BitVec.ofNat 256 (m true 64 0 + m (e.scope == .context) 12 64 + m (e.scope == .domain) 12 76
      + e.scope.bit * 2 ^ 88 + m true 37 91)
    prio := e.prio
    result := BitVec.ofNat 64 (idx + e.gen.toNat * 2 ^ 28) }

/-- R100: the die that keeps the prefix table entry of an index, and its Domino copy. -/
def idxDie (idx : Nat) : Side := sideOf (idx / 2 ^ 27)

/-- R117, R128: the Domino copy of a prefix table entry is invalidated. -/
def State.domForget (s : State) (idx : Nat) : State :=
  { s with dom := { s.dom with entries := s.dom.entries.keep (fun a e =>
      !(bankGroup (a / 8192) == .directory && bits e.result.toNat 0 28 == idx)) } }

/-- R128: the replacement hand of a die: from where it stands it clears reference bits until it finds one clear; answers
the address found and the entries whose bit it has cleared: all of them when every bit was set. -/
def handFind (es : List (Nat × DomEntry)) (hand : Nat) : Option (Nat × List (Nat × DomEntry)) :=
  let order := (es.filter (fun p => hand ≤ p.1)) ++ (es.filter (fun p => p.1 < hand))
  match order.find? (fun p => !p.2.ref) with
  | some p => some (p.1, order.takeWhile (fun q => q.2.ref))
  | none => order.head?.map (fun p => (p.1, order))

/-- R104, R128: a prefix table entry is copied into its die's directory: into a free slot, else over the first entry that
the hand finds unreferenced. -/
def State.domPromote (s : State) (idx : Nat) (e : PfxEntry) (replace : Bool) : State :=
  let d := idxDie idx
  let mark (s : State) : State := { s with dom := { s.dom with table := s.dom.table.put idx { e with inDomino := true } } }
  match s.domInsert d .directory (e.domino idx) with
  | some s' => mark s'
  | none =>
    if !replace then s
    else
      let bs := (groupBanks d .directory).filter s.bankOn
      let es := s.dom.entries.filter (fun p => bs.contains (p.1 / 8192))
      match handFind es (s.dom.hand.get d) with
      | none => s
      | some (a, passed) =>
        let victim := bits ((s.dom.entries.lookD a {}).result.toNat) 0 28
        let cleared := passed.foldl (fun (t : Tbl DomEntry) p => t.put p.1 { p.2 with ref := false }) s.dom.entries
        let tab := if s.dom.table.has victim
          then s.dom.table.upd victim {} (fun v => { v with inDomino := false }) else s.dom.table
        mark { s with dom := { s.dom with
          table := tab
          hand := s.dom.hand.set d (a + 2)
          entries := cleared.put a { (e.domino idx) with width := 2 } } }

/-! ### Block shifts (R126) -/

/-- R126: the lowest free entry slot above unit index u of bank b, by address. -/
def State.freeAbove (s : State) (b u : Nat) : Option Nat :=
  let w := s.bankUnits b
  ((List.range (8192 / w)).find? (fun k => u / w < k && !(s.dom.entries.has (b * 8192 + k * w)))).map
    (fun k => b * 8192 + k * w)

/-- R126: one move of the running shift of a bank: the entry below the hole goes up into it; when the hole reaches the
target, the new entry is written there and the shift ends (R134: BUSY clears, DONE sets). -/
def State.shiftMove (s : State) (b : Nat) : State :=
  match s.dom.shifts.look b with
  | none => s
  | some sh =>
    let w := s.bankUnits b
    if sh.hole ≤ sh.target then
      let s := s.domPut sh.target sh.entry
      { s with dom := { s.dom with
        shifts := s.dom.shifts.del b, accStatus := (s.dom.accStatus &&& ~~~(1 : BitVec 64)) ||| 2 } }
    else
      let from_ := sh.hole - w
      let s := match s.dom.entries.look from_ with
        | some e => (s.domPut sh.hole e).domDel from_
        | none => s
      if from_ = sh.target then
        let s := s.domPut sh.target sh.entry
        { s with dom := { s.dom with
          shifts := s.dom.shifts.del b, accStatus := (s.dom.accStatus &&& ~~~(1 : BitVec 64)) ||| 2 } }
      else { s with dom := { s.dom with shifts := s.dom.shifts.put b { sh with hole := from_ } } }

/-- R126: DOM_SHIFT_MOVE. -/
def execDomShiftMove (bank : Nat) (s : State) : Host.Outcome State Fault Refusal := .next (s.shiftMove bank)

/-! ### Management access (R133, R134) -/

/-- R134: DOM_ACC_STATUS of an operation that found (or wrote) an entry, or none. -/
def accStatus (busy err hit : Bool) (multi : Bool) (count : Nat) (at_ : Nat) (prio : Nat) : BitVec 64 :=
  BitVec.ofNat 64 (b2n busy + 2 * b2n (!busy) + 4 * b2n err + 8 * b2n hit + 16 * b2n multi + 32 * count
    + at_ % 8192 * 2 ^ 13 + at_ / 8192 * 2 ^ 26 + prio * 2 ^ 31)

/-- R133: the operation is refused: ERR; the other fields stay as they were, the model's choice (log 136). -/
def State.accRefuse (s : State) : State :=
  { s with dom := { s.dom with accStatus := (s.dom.accStatus &&& ~~~(4 : BitVec 64)) ||| 4 } }

/-- R133: who may write DOM_ACC_CMD and when: R502, R500. -/
def State.regWritable (s : State) (ld : Ld) : Bool := s.gbl.fwReady && !s.gbl.held && s.manager ld

/-- R133, R134: DOM_ACC_CMD while BUSY is refused; otherwise `op` runs on the bank named. -/
def State.domAcc (s : State) (ld : Ld) (want : Nat) (cmd : BitVec 64) (op : Nat → State → State) : State :=
  let c := cmd.toNat
  if !(s.regWritable ld) || bits c 0 3 ≠ want then s
  else if bitOf s.dom.accStatus.toNat 0 then s.accRefuse
  else op (bits c 8 5) s

/-- R134: the registers show an entry: all four key and mask words, as they stood in the registers at its insert (log 119). -/
def State.accShow (s : State) (e : DomEntry) (st : BitVec 64) : State :=
  { s with dom := { s.dom with accKey := e.key, accMask := e.mask, accResult := e.result, accStatus := st } }

/-- R133: the bank's READ and LOOKUP are open: every bank outside confidential mode, classifier banks within it. -/
def State.accReadable (s : State) (b : Nat) : Bool := !(s.sec.confidential && bankGroup b != .classifier)

/-- R133: LOOKUP in the bank's group of the bank's die. It sets no reference bit, the model's choice (log 136). -/
def State.accLookup (s : State) (b : Nat) : State :=
  if !(s.accReadable b) then s.accRefuse
  else
    match s.domSearch (bankDie b) (bankGroup b) s.dom.accKey with
    | (none, s) => { s with dom := { s.dom with accStatus := accStatus false false false false 0 0 0 } }
    | (some ((a, e), n), s) => s.accShow e (accStatus false false true (decide (2 ≤ n)) n a e.prio.toNat)

/-- R133: READ of the entry at a unit index. -/
def State.accRead (s : State) (b u : Nat) : State :=
  if !(s.accReadable b) then s.accRefuse
  else
    match s.dom.entries.look (b * 8192 + u) with
    | none => { s with dom := { s.dom with accStatus := accStatus false false false false 0 (b * 8192 + u) 0 } }
    | some e => s.accShow e (accStatus false false true false 0 (b * 8192 + u) e.prio.toNat)

/-- R133: the entry that DOM_ACC would write. -/
def State.accEntry (s : State) (b prio : Nat) : DomEntry :=
  { width := s.bankUnits b, key := s.dom.accKey, mask := s.dom.accMask, prio := BitVec.ofNat 8 prio,
    result := s.dom.accResult }

/-- R133: an entry written at an address, and the status. -/
def State.accPut (s : State) (a : Nat) (e : DomEntry) : State :=
  let s := s.domPut a e
  { s with dom := { s.dom with accStatus := accStatus false false false false 0 a e.prio.toNat } }

/-- R133: INSERT_ANY into the lowest free slot of a classifier bank; with none free it is refused (log 119). -/
def State.accInsertAny (s : State) (b prio : Nat) : State :=
  if bankGroup b != .classifier || s.dom.shifts.has b then s.accRefuse
  else
    match s.domFree b with
    | none => s.accRefuse
    | some a => s.accPut a (s.accEntry b prio)

/-- R126, R133: INSERT_AT a unit index of a classifier bank; an occupied slot starts a block shift. An index that is no
multiple of the bank's width is refused (log 119). -/
def State.accInsertAt (s : State) (b u prio : Nat) : State :=
  let w := s.bankUnits b
  let a := b * 8192 + u
  if bankGroup b != .classifier || s.dom.shifts.has b || u % w ≠ 0 then s.accRefuse
  else if !(s.dom.entries.has a) then s.accPut a (s.accEntry b prio)
  else
    match s.freeAbove b u with
    | none => s.accRefuse
    | some h => { s with dom := { s.dom with
        shifts := s.dom.shifts.put b { target := a, hole := h, entry := s.accEntry b prio }
        accStatus := accStatus true false false false 0 a prio } }

/-- R133: DELETE of an entry of a classifier bank; where no entry stands there it changes nothing, the model's choice (log 119). -/
def State.accDelete (s : State) (b u : Nat) : State :=
  if bankGroup b != .classifier || s.dom.shifts.has b then s.accRefuse
  else
    let s := s.domDel (b * 8192 + u)
    { s with dom := { s.dom with accStatus := accStatus false false false false 0 (b * 8192 + u) 0 } }

/-- R133: DOM_LOOKUP. -/
def execDomLookup (ld : Ld) (cmd : BitVec 64) (s : State) : Host.Outcome State Fault Refusal :=
  .next (s.domAcc ld 0 cmd (fun b s => s.accLookup b))

/-- R133: DOM_READ. -/
def execDomRead (ld : Ld) (cmd : BitVec 64) (s : State) : Host.Outcome State Fault Refusal :=
  .next (s.domAcc ld 1 cmd (fun b s => s.accRead b (bits cmd.toNat 13 13)))

/-- R133: DOM_INSERT_ANY. -/
def execDomInsertAny (ld : Ld) (cmd : BitVec 64) (s : State) : Host.Outcome State Fault Refusal :=
  .next (s.domAcc ld 2 cmd (fun b s => s.accInsertAny b (bits cmd.toNat 26 8)))

/-- R126, R133: DOM_INSERT_AT. -/
def execDomInsertAt (ld : Ld) (cmd : BitVec 64) (s : State) : Host.Outcome State Fault Refusal :=
  .next (s.domAcc ld 3 cmd (fun b s => s.accInsertAt b (bits cmd.toNat 13 13) (bits cmd.toNat 26 8)))

/-- R133: DOM_DELETE. -/
def execDomDelete (ld : Ld) (cmd : BitVec 64) (s : State) : Host.Outcome State Fault Refusal :=
  .next (s.domAcc ld 4 cmd (fun b s => s.accDelete b (bits cmd.toNat 13 13)))

end Machine
end Sys2Proof
end

