-- ==== Sys2Proof/Machine/Operands.lean ====
section
/-! DEFINITION. The instruction word (R33-R36), its reserved fields (R32), handles (R75, R77), batch descriptors (R51),
length tables (R95) and footprints (R41). -/

namespace Sys2Proof
namespace Machine

/-! ### The instruction word -/

/-- R33: the fields of an instruction word. -/
structure Inst where
  /-- R33: OPCODE. -/
  opcode : Nat := 0
  /-- R34: FLAGS. -/
  flags : BitVec 8 := 0
  /-- R33: DST. -/
  dst : Nat := 0
  /-- R33: SRCA. -/
  srca : Nat := 0
  /-- R33: SRCB. -/
  srcb : Nat := 0
  /-- R33, R36: LAYER as written. -/
  layer : BitVec 16 := 0
  /-- R33: OPID. -/
  opid : BitVec 16 := 0
  /-- R33: W0. -/
  w0 : BitVec 64 := 0
  /-- R33: W1. -/
  w1 : BitVec 64 := 0
  /-- R33: W2. -/
  w2 : BitVec 64 := 0
deriving DecidableEq, Repr

/-- R33: the fields of the 32 bytes of an instruction. -/
def Inst.of (d : BitVec 256) : Inst :=
  { opcode := (d.extractLsb' 0 8).toNat, flags := d.extractLsb' 8 8, dst := (d.extractLsb' 16 6).toNat,
    srca := (d.extractLsb' 22 5).toNat, srcb := (d.extractLsb' 27 5).toNat, layer := d.extractLsb' 32 16,
    opid := d.extractLsb' 48 16, w0 := d.extractLsb' 64 64, w1 := d.extractLsb' 128 64,
    w2 := d.extractLsb' 192 64 }

/-- R34: C, bit 8 of the word. -/
def Inst.c (i : Inst) : Bool := i.flags.getLsbD 0
/-- R34: FN. -/
def Inst.fn (i : Inst) : Bool := i.flags.getLsbD 1
/-- R34: RA. -/
def Inst.ra (i : Inst) : Bool := i.flags.getLsbD 2
/-- R34: RB. -/
def Inst.rb (i : Inst) : Bool := i.flags.getLsbD 3
/-- R34: SB. -/
def Inst.sb (i : Inst) : Bool := i.flags.getLsbD 4
/-- R34: X0. -/
def Inst.x0 (i : Inst) : Bool := i.flags.getLsbD 5
/-- R34: X1. -/
def Inst.x1 (i : Inst) : Bool := i.flags.getLsbD 6
/-- R34: X2. -/
def Inst.x2 (i : Inst) : Bool := i.flags.getLsbD 7

/-- R33, R34: the register that SRCA names. -/
def Inst.regA (i : Inst) : Nat := i.srca + (if i.sb then 32 else 0)
/-- R33, R34: the register that SRCB names. -/
def Inst.regB (i : Inst) : Nat := i.srcb + (if i.sb then 32 else 0)

/-- R38: the value of a register; v0 reads zero. -/
def Ring.val (r : Ring) (n : Nat) : BitVec 64 := if n = 0 then 0 else (r.regs.getD n {}).val
/-- R38, R39: a register is PENDING; v0 never is. -/
def Ring.isPending (r : Ring) (n : Nat) : Bool := n != 0 && (r.regs.getD n {}).pending
/-- R38, R40: a register is POISONED; v0 never is. -/
def Ring.isPoison (r : Ring) (n : Nat) : Bool := n != 0 && (r.regs.getD n {}).poison
/-- R38: a register replaced; a write to v0 is discarded. -/
def Ring.setReg (r : Ring) (n : Nat) (v : VReg) : Ring := if n = 0 then r else { r with regs := r.regs.set n v }

/-- R53: CTL.LOOP reads its DST as a counter. -/
def opLoop : Nat := 0x05

/-- R35, R36, R53: the registers an instruction reads: its sources other than v0, v62 where LAYER is 0xFFFE, and the
counter of CTL.LOOP. -/
def Inst.reads (i : Inst) : List Nat :=
  (if i.srca != 0 || i.sb then [i.regA] else []) ++ (if i.srcb != 0 || i.sb then [i.regB] else []) ++
    (if i.layer == 0xFFFE then [62] else []) ++
    (if i.opcode == opLoop && i.dst != 0 then [i.dst] else [])

/-- R35, R36: the registers whose values decide the operand words and the layer. -/
def Inst.operandRegs (i : Inst) : List Nat :=
  (if i.ra then [i.regA] else []) ++ (if i.rb then [i.regB] else []) ++ (if i.layer == 0xFFFE then [62] else [])

/-- R34: W0 as the instruction uses it. -/
def Inst.word0 (i : Inst) (r : Ring) : BitVec 64 := if i.ra then r.val i.regA else i.w0
/-- R34: W1 as the instruction uses it. -/
def Inst.word1 (i : Inst) (r : Ring) : BitVec 64 := if i.rb then r.val i.regB else i.w1

/-- R36: LAYER as resolved. -/
def Inst.layerOf (i : Inst) (r : Ring) : BitVec 16 :=
  if i.layer == 0xFFFE then (r.val 62).setWidth 16 else i.layer

/-! ### The instruction tables R53-R59 -/

/-- All bits of a word named. -/
def mAll : Nat := 0xFFFFFFFFFFFFFFFF

/-- R53-R59: of each opcode the X flags it defines (bits X0, X1, X2 as 1, 2, 4) and the named bits of W0, W1, W2; none for
an opcode that is not listed. A word that names one handle, address or value is named whole. -/
def opFields : Nat → Option (Nat × Nat × Nat × Nat)
  | 0x00 => some (0, 0, 0, 0)
  | 0x01 => some (1, 0, 0, 0)
  | 0x02 => some (0, 0x3FFF, mAll, mAll)
  | 0x03 => some (1, 0x3FFF, mAll, 0)
  | 0x04 => some (0, mAll, mAll, 0xFF0007)
  | 0x05 => some (0, 0xFFF, 0, 0)
  | 0x06 => some (1, 0x3FF, 0, 0)
  | 0x07 => some (0, 0, 0, 0)
  | 0x08 => some (0, mAll, mAll, 0)
  | 0x10 => some (0, 0x3FFFFFFFF, 0xF, 0)
  | 0x11 => some (0, mAll, 0, 0)
  | 0x12 => some (0, mAll, 0xFFFFFFFF, 0)
  | 0x13 => some (1, mAll, 0xF, 0)
  | 0x14 => some (0, mAll, 0, 0)
  | 0x20 => some (0, mAll, 0, 0)
  | 0x21 => some (0, mAll, 0, 0)
  | 0x22 => some (0, mAll, mAll, mAll)
  | 0x30 => some (3, mAll, mAll, 0)
  | 0x40 => some (0, mAll, mAll, 0x7FFFFFFFF)
  | 0x41 => some (0, mAll, 0xFF03, 0)
  | 0x42 => some (0, mAll, 0xFFFFFFFF, 0)
  | 0x43 => some (0, mAll, 0, 0)
  | 0x50 => some (7, mAll, mAll, mAll)
  | 0x51 => some (7, mAll, mAll, mAll)
  | 0x52 => some (7, mAll, 0, mAll)
  | 0x53 => some (7, mAll, mAll, mAll)
  | 0x60 => some (0, mAll, 0xFF7FFF, mAll)
  | 0x61 => some (0, mAll, 0xFFFF, 0)
  | 0x62 => some (0, mAll, 0, 0)
  | 0x70 => some (0, mAll, mAll, mAll)
  | 0x71 => some (0, mAll, mAll, mAll)
  | 0x72 => some (0, mAll, mAll, mAll)
  | 0x73 => some (0, mAll, mAll, 0xFFFFFFFFFFF)
  | 0x80 => some (1, mAll, mAll, 0xFFFFFFFF07FFFFFF)
  | 0x81 => some (0, 0x7FFF, mAll, mAll)
  | 0x90 => some (0, 0x3F, mAll, 0)
  | 0x91 => some (1, 0x33F, mAll, 0xFFFF0000FFFFFFFF)
  | 0x92 => some (0, 0x3F, 0, 0)
  | 0x93 => some (0, 0x3F, mAll, 0)
  | 0xA0 => some (1, 0xFFFF, 0xFFFFFFFFFFFF7FFF, 0)
  | 0xA1 => some (0, 0xFFFF, 0, 0)
  | 0xA2 => some (0, 0xFFFF, mAll, 0)
  | 0xB0 => some (0, mAll, 0x3FFFFFFFFFFFF, 0xBFFFFFFF)
  | 0xB1 => some (0, 0xFFFFFFFF, 0, 0)
  | _ => none

/-- R32, R53-R59: the opcode is listed; CTL.LOOP and CTL.RET only in an image (R49). -/
def listed (op : Nat) (inImage : Bool) : Bool :=
  (opFields op).isSome && (inImage || !(op == 0x05 || op == 0x07))

/-- R32 check 2: the byte offset of the first nonzero reserved field of the word, FLAGS (1) first. An operand word that RA or RB
replaces is looked at as replaced: w0 and w1 are the words that the instruction uses (log 21). -/
def Inst.reservedErr (i : Inst) (w0 w1 : BitVec 64) : Option Nat :=
  match opFields i.opcode with
  | none => none
  | some (x, m0, m1, m2) =>
    let undef (w m : Nat) : Nat := w - (w &&& m)
    if (i.flags.toNat >>> 5) &&& (7 - x) ≠ 0 then some 1
    else if undef w0.toNat m0 ≠ 0 then some (8 + firstByte (undef w0.toNat m0))
    else if undef w1.toNat m1 ≠ 0 then some (16 + firstByte (undef w1.toNat m1))
    else if undef i.w2.toNat m2 ≠ 0 then some (24 + firstByte (undef i.w2.toNat m2))
    else none

/-! ### Handles -/

/-- R75: bits [39:38]. -/
def handleKind (h : Nat) : Nat := bits h 38 2

/-- R75: key of the sequence table entry that a sequence handle names: home die × 2^21 + index. -/
def seqKey (h : Nat) : Nat := bits h 0 22

/-- R75: the handle of a sequence table entry. -/
def seqHandle (k : Nat) (gen : BitVec 16) : Nat := 2 ^ 38 + gen.toNat * 2 ^ 22 + k

/-- R75: home die of a sequence table key. -/
def seqHome (k : Nat) : Side := sideOf (k / 2 ^ 21)

/-- R75: the table index x of a sequence (handle bits [20:0]). -/
def seqIndex (k : Nat) : Nat := k % 2 ^ 21

/-- R75: the page handle of a page number on a die. -/
def pageHandle (d : Side) (n : Nat) : Nat := d.num * 2 ^ 37 + n

/-- R77: the checks of a sequence handle; `off` is where the handle's eight bytes lie in the instruction word or the
descriptor, `entry` the DETAIL of a handle that is not live, and `pid` the profile the instruction states; `own`: the
instruction has issued, so a truncation or a destruction that began since lets it finish (R92). -/
def State.checkSeq (s : State) (c : Nat) (w : BitVec 64) (off entry : Nat) (pid : Option Nat) (own : Bool := false) :
    Except (Status × Nat) Nat :=
  let h := w.toNat
  if h / 2 ^ 40 ≠ 0 then .error (St.badReserved, off + firstByte (h / 2 ^ 40 * 2 ^ 40))
  else
    let k := seqKey h
    let q := s.seq k
    if handleKind h ≠ 1 || (if own then q.state = .free else q.state ≠ .live) || q.gen.toNat ≠ bits h 22 16 then .error (St.badHandle, entry)
    else if q.ctx ≠ c then .error (St.access, 0)
    else match pid with
      | some p => if (s.profile q.pslot).id = p then .ok k else .error (St.profileMismatch, entry)
      | none => .ok k

/-- The live sequence of a context that a handle word names, if there is one. -/
def State.namedSeq (s : State) (c : Nat) (w : BitVec 64) : Option Nat :=
  match s.checkSeq c w 0 0 none with
  | .ok k => some k
  | .error _ => none

/-- R78: the sequence of a context that a handle word names in any state but FREE. -/
def State.heldSeq (s : State) (c : Nat) (w : BitVec 64) : Option Nat :=
  let h := w.toNat
  let q := s.seq (seqKey h)
  if h / 2 ^ 40 = 0 && handleKind h = 1 && q.state ≠ .free && q.gen.toNat = bits h 22 16 && q.ctx = c
  then some (seqKey h) else none

/-- R80: LENGTH at a layer of the sequence that a handle word names, or 0. -/
def State.lengthAt (s : State) (c : Nat) (w : BitVec 64) (layer : BitVec 16) : Nat :=
  match s.heldSeq c w with
  | some k => ((s.seq k).layers.getD layer.toNat {}).length
  | none => 0

/-- R64: the slot of a registered profile id. -/
def State.profileSlot (s : State) (pid : Nat) : Option Nat :=
  (s.profiles.find? (fun p => p.2.id == pid)).map (·.1)

/-! ### Batch descriptors -/

/-- R51: the header of a batch descriptor. -/
structure Desc where
  /-- R51: COUNT. -/
  count : Nat := 0
  /-- R51: KFMT. -/
  kfmt : Nat := 0
  /-- R51: VFMT. -/
  vfmt : Nat := 0
  /-- R51: OFMT. -/
  ofmt : Nat := 0
  /-- R51: LOOKAHEAD. -/
  lookahead : Nat := 0
  /-- R51: QFMT. -/
  qfmt : Nat := 0
  /-- R51: PROFILE. -/
  profile : Nat := 0
  /-- R51: MRCAP. -/
  mrcap : Nat := 0
  /-- R51: MRLIST. -/
  mrlist : Nat := 0
  /-- R51: LENTAB. -/
  lentab : Nat := 0
  /-- R51: STATS. -/
  stats : Nat := 0
  /-- R51: AUX. -/
  aux : Nat := 0
  /-- Byte offset of the first nonzero reserved byte, if there is one. -/
  rsv : Option Nat := none
deriving DecidableEq, Repr

/-- R51: an entry of a batch descriptor. -/
structure Entry where
  /-- R51: bytes 0 to 7. -/
  handle : BitVec 64 := 0
  /-- R51: bytes 8 to 11. -/
  a : Nat := 0
  /-- R51: bytes 12 to 15. -/
  b : Nat := 0
deriving DecidableEq, Repr

/-- The offset of the first of these bytes of memory (offsets from a) that is not zero. -/
def Mem.firstNonzero (m : Mem) (a : Nat) (offs : List Nat) : Option Nat :=
  offs.find? (fun o => m.byte (a + o) != 0)

/-- R51: the header at address a. -/
def State.desc (s : State) (a : Nat) : Desc :=
  { count := s.field a 2, kfmt := s.field (a + 2) 1, vfmt := s.field (a + 3) 1, ofmt := s.field (a + 4) 1,
    lookahead := s.field (a + 5) 1, qfmt := s.field (a + 6) 1, profile := s.field (a + 8) 4,
    mrcap := s.field (a + 12) 4, mrlist := s.field (a + 16) 8, lentab := s.field (a + 24) 8,
    stats := s.field (a + 32) 8, aux := s.field (a + 40) 8,
    rsv := s.mem.firstNonzero a (7 :: (List.range 16).map (· + 48)) }

/-- R51: entry i of the descriptor at address a. -/
def State.entry (s : State) (a i : Nat) : Entry :=
  { handle := BitVec.ofNat 64 (s.field (a + 64 + 16 * i) 8), a := s.field (a + 72 + 16 * i) 4,
    b := s.field (a + 76 + 16 * i) 4 }

/-- R51: the entries of the descriptor at address a. -/
def State.entries (s : State) (a n : Nat) : List Entry := (List.range n).map (s.entry a)

/-- R95: QCOUNT of entry i. -/
def State.qcount (s : State) (lentab i : Nat) : Nat := s.field (lentab + 4 * i) 2

/-! ### Footprints -/

/-- R53-R59: the opcodes whose W0 is the handle of a sequence. -/
def seqOps : List Nat := [0x11, 0x12, 0x13, 0x14, 0x21, 0x22, 0x40, 0x41, 0x42, 0x43]

/-- R51: the opcodes that take a batch descriptor. -/
def descOps : List Nat := [0x20, 0x30, 0x50, 0x51, 0x53]

/-- The entries of the descriptor of an instruction, where its header and its entries can be read under R37. -/
def State.descEntries (s : State) (c a : Nat) : List Entry :=
  if (s.checkRange c a 64 64).isSome then []
  else
    let n := (s.desc a).count
    if (s.checkRange c (a + 64) (16 * n) 16).isSome then [] else s.entries a n

/-- R78: the sequences an instruction names, each once. -/
def State.namesOf (s : State) (c op : Nat) (w0 : BitVec 64) : List Nat :=
  (if seqOps.contains op then (s.heldSeq c w0).toList
   else if descOps.contains op then (s.descEntries c w0.toNat).filterMap (fun e => s.heldSeq c e.handle)
   else []).eraseDups

/-- R41: the granules that n bytes from a on touch. -/
def granulesOf (a n : Nat) : List Obj :=
  if n = 0 then [] else (List.range ((a + n - 1) / granule + 1 - a / granule)).map (fun i => .granule (a / granule + i))

/-- R41: a sequence at LAYER, or at all layers. -/
def seqObj (k : Nat) (layer : BitVec 16) : Obj :=
  .seq k (if layer == 0xFFFF then none else some layer.toNat)

/-- R55, R218: the sequences and layers that PAGE.STAGE reads. -/
def stageLayers (layer look count : Nat) : List Nat :=
  (List.range (Nat.min (look + 1) count)).map (fun i => (layer + i) % Nat.max count 1)

/-- R41, R53-R59: the objects an instruction reads and those it writes, from its operand words and layer, with memory
ranges shown as `gr` shows them. Buffers and descriptors belong to it beside the sequences that the tables name (log 22). -/
def State.footprintBy (gr : Nat → Nat → List Obj) (s : State) (c : Nat) (i : Inst) (w0 w1 w2 : BitVec 64) (layer : BitVec 16) :
    List Obj × List Obj :=
  let op := i.opcode
  let a0 := w0.toNat
  let a1 := w1.toNat
  let a2 := w2.toNat
  let sq (l : BitVec 16) : List Obj := (s.heldSeq c w0).toList.map (fun k => seqObj k l)
  let all : BitVec 16 := 0xFFFF
  if op = 0x01 || op = 0x06 then ([], [.all])
  else if op = 0x02 || op = 0x03 then ([], [.event (bits a0 0 14)])
  else if op = 0x11 || op = 0x12 || op = 0x41 || op = 0x43 then ([], sq all)
  else if op = 0x13 then
    ([], if handleKind a0 = 2 then [.weight (bits a0 0 12)] else sq layer)
  else if op = 0x14 then (sq all, [])
  else if op = 0x21 then ([], sq layer)
  else if op = 0x22 then
    let n := match s.heldSeq c w0 with
      | some k =>
        let p := s.profile (s.seq k).pslot
        p.frameKib * 1024 * bits a1 32 32 * (if layer == 0xFFFF then p.layers else 1)
      | none => 1
    (sq layer, gr a2 n)
  else if op = 0x40 then (gr a1 (4 * bits a2 0 32), sq all)
  else if op = 0x42 then (sq all, [])
  else if descOps.contains op then
    let d := s.desc a0
    let es := s.descEntries c a0
    let ks := es.filterMap (fun e => s.heldSeq c e.handle)
    let dr := gr a0 (64 + 16 * es.length)
    let p := match s.profileSlot d.profile with
      | some sl => s.profile sl
      | none => {}
    let hd := 32 * p.hdim32
    let ml := if d.mrlist = 0 then [] else gr d.mrlist (16 * d.mrcap)
    if op = 0x20 then
      let ls := if layer == 0xFFFF then [all]
        else (stageLayers layer.toNat d.lookahead p.layers).map (BitVec.ofNat 16)
      (dr ++ ks.flatMap (fun k => ls.map (seqObj k)), ml)
    else if op = 0x30 then
      let rows := es.foldl (fun n e => n + e.b) 0
      let n := rows * (2 * p.kvheads * hd * 4) * (if layer == 0xFFFF then p.layers else 1)
      let toks := es.flatMap (fun e => match s.heldSeq c e.handle with
        | some k =>
          let q := s.seq k
          if q.tokSrc = 0 then [] else gr q.tokSrc (4 * q.tokCnt)
        | none => [])
      (dr ++ gr a1 n ++ toks, ks.map (fun k => seqObj k layer) ++ ml)
    else
      let rows := if op = 0x50 then es.length
        else (List.range es.length).foldl (fun n i => n + s.qcount d.lentab i) 0
      let q := rows * p.qheads * hd * 4
      let st := rows * p.qheads * 8 + 64
      let segs := if op = 0x50 then 0 else if op = 0x53 then s.field d.aux 8 else if i.x2 then 0 else d.aux
      let segR := if segs = 0 then [] else gr segs (8 * es.length) ++ (List.range es.length).flatMap (fun k =>
        let a := s.field (segs + 8 * k) 8
        if a = 0 then [] else gr a (2 * ((es.getD k {}).a + s.qcount d.lentab k)))
      let areas := if op != 0x53 then [] else (List.range es.length).flatMap (fun k =>
        gr (s.field (s.field (d.aux + 24) 8 + 8 * k) 8) (ceilDiv (s.lengthAt c (es.getD k {}).handle layer) 16 * 128 * p.kvheads * hd))
      (dr ++ ks.map (fun k => seqObj k layer) ++ gr a1 q ++ segR
          ++ (if op = 0x50 then [] else gr d.lentab (4 * es.length))
          ++ (if op = 0x53 then gr d.stats st ++ gr d.aux 64 ++ gr (s.field (d.aux + 8) 8) q
              ++ gr (s.field (d.aux + 16) 8) st ++ gr (s.field (d.aux + 24) 8) (8 * es.length)
            else []),
        gr a2 q ++ ml ++ (if op != 0x53 && i.x1 then gr d.stats st else [])
          ++ (if op != 0x53 && i.x2 then gr d.aux st else []) ++ areas)
  else if op = 0x52 then
    let np := s.field (a0 + 4) 1
    let rows := s.field a0 4
    let qh := s.field (a0 + 6) 2
    let hd := s.field (a0 + 8) 2
    let ost := s.field (a0 + 16) 8
    (gr a0 (64 + 16 * np) ++ (List.range np).flatMap (fun i =>
        gr (s.field (a0 + 64 + 16 * i) 8) (4 * rows * qh * hd)
          ++ gr (s.field (a0 + 72 + 16 * i) 8) (8 * rows * qh)),
      gr a2 (4 * rows * qh * hd) ++ (if ost = 0 then [] else gr ost (8 * rows * qh)))
  else if op = 0x60 then ([.weight (bits a0 0 12)], [.conn (bits a1 0 15)])
  else if op = 0x61 || op = 0x62 then ([], [.win a0])
  else if op = 0x70 then ([], gr a0 a1)
  else if op = 0x71 then (gr a1 a2, gr a0 a2)
  else if op = 0x72 then (gr a0 a2 ++ gr a1 a2, [])
  else if op = 0x73 then (gr a1 (bits a2 0 40), gr a0 (bits a2 0 40))
  else if op = 0x80 then (gr (bits a1 0 49) (bits a2 0 27), [.conn (bits a1 49 15)])
  else if op = 0x81 then ([.conn (bits a0 0 15)], [])
  else if op = 0x90 then (gr a1 64, [.unit (bits a0 0 6)])
  else if op = 0x91 then (gr a1 (bits a2 0 32), [.unit (bits a0 0 6)])
  else if op = 0x92 then ([.unit (bits a0 0 6)], [])
  else if op = 0x93 then ([], [.unit (bits a0 0 6)])
  else if op = 0xA0 || op = 0xA1 then ([], [.counter (bits a0 0 16)])
  else if op = 0xA2 then ([.counter (bits a0 0 16)], gr a1 16)
  else if op = 0xB0 then ([], gr a0 (bits a1 0 48))
  else if op = 0xB1 then ([], [.key (bits a0 0 32)])
  else ([], [])

/-- R41: the footprint of an instruction, its memory by granules. -/
def State.footprint (s : State) (c : Nat) (i : Inst) (w0 w1 w2 : BitVec 64) (layer : BitVec 16) : List Obj × List Obj :=
  s.footprintBy granulesOf c i w0 w1 w2 layer

/-- R54-R57: the instructions whose footprint memory names. -/
def tableOps : List Nat := [0x20, 0x30, 0x50, 0x51, 0x52, 0x53]

/-- R41: two objects are one: a sequence at all layers meets each of its layers, and everything meets CTL.FENCE and
CTL.CALL. -/
def Obj.meets : Obj → Obj → Bool
  | .all, _ => true
  | _, .all => true
  | .seq a none, .seq b _ => a == b
  | .seq a _, .seq b none => a == b
  | x, y => x == y

/-- R41: one of two footprints writes an object that the other reads or writes. -/
def footprintsConflict (r1 w1 r2 w2 : List Obj) : Bool :=
  w1.any (fun x => (r2 ++ w2).any (Obj.meets x)) || w2.any (fun x => r1.any (Obj.meets x))

end Machine
end Sys2Proof
end

