-- ==== Sys2Proof/Machine/Map.lean ====
section
/-! DEFINITION. The Coal store's map and its rows (R235-R251, R257): superblocks with their member blocks, records, rows and their
bytes on the media, leaves and directories, the map log, checkpoint indices. -/

namespace Sys2Proof
namespace Machine

/-! ### Capacity (R232, R235, R241) -/

/-- R233, R435: the device type of every channel: channel 0's, or, while channel 0 is missing, that of the lowest channel in service. -/
def Coal.device (c : Coal) : Option NandId :=
  c.nand.or (((List.range 32).find? (fun i => c.inService.getLsbD i && c.ids.has i)).bind c.ids.look)

/-- R235: superblocks of a die half, by the geometry identified. -/
def Coal.superblocks (c : Coal) : Nat :=
  match c.device with
  | none => 0
  | some n => n.targets * n.luns * (n.blocks / 4)

/-- R232, R236: stripe rows of a superblock. -/
def Coal.rows (c : Coal) : Nat :=
  match c.device with
  | none => 0
  | some n => n.pages / 3

/-- R234: LUNs per channel. -/
def Coal.luns (c : Coal) : Nat :=
  match c.device with
  | some n => n.targets * n.luns
  | none => 1

/-- R235: member blocks (a block of each plane) of a LUN. -/
def Coal.groups (c : Coal) : Nat :=
  match c.device with
  | some n => n.blocks / 4
  | none => 0

/-- R241, R263: record capacity of a half in KiB. -/
def Coal.capacity (c : Coal) (h : Half) : Nat := c.superblocks * c.rows * 2880 * 14 / 15 - h.capLoss * (c.rows * 192)

/-- R241: valid record KiB of a half, those in the row being filled included. -/
def Half.validKib (h : Half) : Nat :=
  h.map.vals.foldl (fun n e => n + e.kib) 0 + h.row.foldl (fun n e => n + (if e.from_.isNone && !e.gone then e.kib else 0)) 0

/-- R241: the half takes a write of `kib`. -/
def State.coalFits (s : State) (d : Side) (kib : Nat) : Bool :=
  let h := s.coal.half.get d
  s.coal.en && h.ready && !s.coal.readOnly && decide (h.validKib + kib ≤ s.coal.capacity h)

/-- R241: FULL clears once the valid bytes lie 128 KiB below the record capacity. -/
def State.fullCheck (s : State) (d : Side) : State :=
  let h := s.coal.half.get d
  if h.full && decide (h.validKib + 128 ≤ s.coal.capacity h) then s.setHalf d { h with full := false } else s

/-- R212, R241, R264: a write did not fit: FULL; on a half whose spare pools are all empty the Coal store becomes read-only. -/
def State.setFull (s : State) (d : Side) : State :=
  let h := s.coal.half.get d
  let s := s.setHalf d { h with full := true }
  if !h.spare.isEmpty && h.spare.all (· == 0) then
    { s with coal := { s.coal with readOnly := true, mediaReadOnly := true }, drt := { s.drt with coalRo := true } }
  else s

/-! ### The map log (R248) -/

/-- R245: a map entry as 64 bits. -/
def MapEnt.word (e : MapEnt) : Nat :=
  1 + 2 * b2n e.persist + 4 * e.epoch.toNat + 16 * e.sb + 2 ^ 24 * e.off + 2 ^ 46 * (e.kib - 1)

/-- R248: TYPE, KEY and VALUE of a map log record (log 123). -/
def MapLog.fields : MapLog → Nat × Nat × Nat
  | .map k e => (1, k, e.word)
  | .unmap k => (2, k, 0)
  | .leaf n a => (3, n, a)
  | .sbOpen k q => (4, 0, k + 2 ^ 20 * q)
  | .sbClose k => (5, 0, k)
  | .erase k => (6, 0, k)
  | .retire c l b => (7, 0, c + 2 ^ 8 * l + 2 ^ 16 * b)
  | .checkpoint a => (8, 0, a)

/-- R248: the 16 bytes of a map log record. -/
def MapLog.bytes (r : MapLog) : List Byte :=
  leBytes 1 r.fields.1 ++ leBytes 5 r.fields.2.1 ++ leBytes 2 0 ++ leBytes 8 r.fields.2.2

/-- R248: the buffer is programmed to the log area, in a unit of 64 KiB, which PROGRAMMED counts whole (log 123). -/
def Half.programLog (h : Half) : Half :=
  { h with log := h.log ++ h.logBuf, logBuf := [], programmed := h.programmed + 65536 }

/-- R248: a map log record enters the buffer; a full 64 KiB unit is programmed. -/
def Half.addLog (h : Half) (r : MapLog) : Half :=
  let h := { h with logBuf := h.logBuf ++ [r] }
  if 4096 ≤ h.logBuf.length then h.programLog else h

/-- R251 step 3: the map after these log records. -/
def applyLog (m : Tbl MapEnt) : List MapLog → Tbl MapEnt
  | [] => m
  | .map k e :: r => applyLog (m.put k e) r
  | .unmap k :: r => applyLog (m.del k) r
  | _ :: r => applyLog m r

/-- R249: the log records after the latest CHECKPOINT. -/
def sinceCheckpoint (l : List MapLog) : List MapLog :=
  l.foldl (fun a r => match r with
    | .checkpoint _ => []
    | r => a ++ [r]) []

/-- R249: the map as the latest checkpoint holds it. -/
def Half.ckpt (h : Half) : Tbl MapEnt := (h.ckpts.head?.map (·.map)).getD []

/-- R251 steps 2 and 3: the map that the latest checkpoint and the programmed log give; the checkpoint before it, with its longer
log, gives the same. -/
def Half.replayMap (h : Half) : Tbl MapEnt := applyLog h.ckpt (sinceCheckpoint h.log)

/-! ### Leaves and directories (R242-R246) -/

/-- R242: page numbers of a span of frames of `kib`. -/
def spanSlots (kib : Nat) : Nat := 2048 / Nat.max kib 1

/-- R245: the key of a table record. -/
def recordKey (d : Side) (n : Nat) : Nat := 3 * 2 ^ 38 + d.num * 2 ^ 37 + n

/-- R243: the leaf of a record: its page span, or after those its span of 8,192 table record numbers (log 123). -/
def leafOf (key : Nat) : Nat := if key < 2 ^ 38 then key % 2 ^ 37 / 2048 else 2 ^ 26 + key % 2 ^ 37 / 8192

/-- R244: F of a leaf's span: the frame size of a page span; 64 for a span of table record chunks. -/
def Half.leafFrame (h : Half) (n : Nat) : Nat := if n < 2 ^ 26 then (h.spans.lookD n (64, false)).1 else 64

/-- R244: slots of a leaf. -/
def Half.leafSlots (h : Half) (n : Nat) : Nat := if n < 2 ^ 26 then spanSlots (h.leafFrame n) else 8192

/-- R243, R244: the map entries of a leaf. -/
def Half.leafEntries (h : Half) (n : Nat) : Tbl MapEnt := h.map.keep (fun k _ => leafOf k == n)

/-- R243: the class of a leaf's span: that of its records. -/
def Half.leafPersist (h : Half) (n : Nat) : Bool := (h.leafEntries n).vals.any (·.persist)

/-- R244: the slot of a record in its leaf. -/
def Half.leafSlot (h : Half) (key : Nat) : Nat :=
  if key < 2 ^ 38 then key % 2048 / Nat.max (h.leafFrame (leafOf key)) 1 else key % 8192

/-- R244: the bytes of a leaf: its header and one map entry per slot. -/
def Half.leafBytes (h : Half) (n : Nat) : List Byte :=
  let es := h.leafEntries n
  leBytes 4 (n % 2 ^ 26) ++ leBytes 1 (h.leafFrame n) ++ leBytes 1 (b2n (h.leafPersist n)) ++ leBytes 2 es.length ++ leBytes 56 0
    ++ (List.range (h.leafSlots n)).flatMap (fun i =>
      leBytes 8 (((es.find? (fun p => h.leafSlot p.1 == i)).map (fun p => p.2.word)).getD 0))

/-- R244, R246: 1 KiB granules of the cache that a leaf takes. -/
def Half.leafKib (h : Half) (n : Nat) : Nat := ceilDiv (64 + 8 * h.leafSlots n) 1024

/-- R243: the 32-bit directory entry of a leaf. -/
def Half.dirWord (h : Half) (n : Nat) : BitVec 32 :=
  match h.leaves.look n with
  | none => 0
  | some x =>
    let p := 4 * b2n (h.leafPersist n)
    match x.slot with
    | some g => BitVec.ofNat 32 (2 + p + 8 * g)
    | none => BitVec.ofNat 32 (1 + p + 8 * x.addr.getD 0)

/-- R246: the granules of the cache in use: first and end of each cached leaf. -/
def Half.cached (h : Half) : List (Nat × Nat) :=
  h.leaves.filterMap (fun p => p.2.slot.map (fun g => (g, g + h.leafKib p.1)))

/-- R246: 1 KiB granules of a die's leaf cache of 320 MiB. -/
def cacheKib : Nat := 327680

/-- R246: the lowest run of free granules for a leaf. -/
def Half.slotFor (h : Half) (kib : Nat) : Option Nat :=
  let used := h.cached
  ((used.map (·.2)).foldl insNat [0]).find? (fun g =>
    decide (g + kib ≤ cacheKib) && used.all (fun u => decide (g + kib ≤ u.1) || decide (u.2 ≤ g)))

/-- R246, R248: a dirty leaf is written to the map area, and a LEAF record logged. -/
def Half.writeLeaf (h : Half) (n : Nat) : Half :=
  match h.leaves.look n with
  | none => h
  | some x =>
    if !x.dirty then h
    else ({ h with
      leaves := h.leaves.put n { x with addr := some h.mapNext, dirty := false }
      mapNext := h.mapNext + ceilDiv (h.leafKib n) 4
      programmed := h.programmed + 4096 * ceilDiv (h.leafKib n) 4 }).addLog (.leaf n h.mapNext)

/-- R246: a leaf leaves the cache. -/
def Half.evictLeaf (h : Half) (n : Nat) : Half :=
  let h := h.writeLeaf n
  { h with leaves := h.leaves.upd n {} (fun x => { x with slot := none }), clock := h.clock.filter (· != n) }

/-- R246: room for a leaf of `kib`, made by the clock: a leaf whose reference bit is set has it cleared and moves to the tail, another
is evicted. The first argument bounds the turns. -/
def Half.leafRoom : Nat → Half → Nat → Half
  | 0, h, _ => h
  | k + 1, h, kib =>
    if (h.slotFor kib).isSome then h
    else
      match h.clock with
      | [] => h
      | n :: r =>
        if (h.leaves.lookD n {}).ref then
          Half.leafRoom k { h with clock := r ++ [n], leaves := h.leaves.upd n {} (fun x => { x with ref := false }) } kib
        else Half.leafRoom k (h.evictLeaf n) kib

/-- R246: a lookup or an update uses a leaf: a STORED one is read into the cache first, an EMPTY one begins there. -/
def Half.useLeaf (h : Half) (n : Nat) : Half :=
  let x := h.leaves.lookD n {}
  if x.slot.isSome then { h with leaves := h.leaves.put n { x with ref := true } }
  else
    let kib := h.leafKib n
    let h := h.leafRoom (2 * h.clock.length + 1) kib
    { h with
      leaves := h.leaves.put n { x with slot := h.slotFor kib, ref := true }, clock := h.clock ++ [n]
      leafMiss := h.leafMiss + b2n x.addr.isSome }

/-- R246: a lookup of a key. -/
def Half.lookup (h : Half) (key : Nat) : Half := if h.leaves.has (leafOf key) then h.useLeaf (leafOf key) else h

/-- R247: MAP: an atomic update of the leaf, and its log record. -/
def Half.mapPut (h : Half) (key : Nat) (e : MapEnt) : Half :=
  let n := leafOf key
  let h := h.useLeaf n
  ({ h with map := h.map.put key e, leaves := h.leaves.upd n {} (fun x => { x with dirty := true }) }).addLog (.map key e)

/-- R247: UNMAP of a mapped record; a leaf without an entry is EMPTY again (log 123). -/
def Half.mapDel (h : Half) (key : Nat) : Half :=
  let n := leafOf key
  let h := h.useLeaf n
  let h := { h with map := h.map.del key, leaves := h.leaves.upd n {} (fun x => { x with dirty := true }) }
  let h := if h.map.keys.any (fun k => leafOf k == n) then h
    else { h with leaves := h.leaves.del n, clock := h.clock.filter (· != n) }
  h.addLog (.unmap key)

/-- R246, R267: a half after lookups or updates: the leaves that they read into its cache are counted. -/
def State.newHalf (s : State) (d : Side) (h : Half) : State :=
  let s' := s.setHalf d { h with leafMiss := 0 }
  if h.leafMiss = 0 then s' else s'.count 0x03300138 h.leafMiss

/-- R220, R247: a record's map entry is removed and the removal logged; a record still waiting for its row is written with it and is
garbage from then on. -/
def State.coalRelease (s : State) (d : Side) (key : Nat) : State :=
  let h := s.coal.half.get d
  let h := { h with row := h.row.map (fun (e : RowEnt) => if e.key == key then { e with gone := true } else e) }
  let h := if h.map.has key then h.mapDel key else h
  (s.newHalf d h).fullCheck d

/-! ### Table records (R245) -/

/-- R245: chunks of a table record of n KiB. -/
def tableChunks (kib : Nat) : Nat := Nat.max 1 (ceilDiv kib 64)

/-- R243, R245: the table record numbers in use, each with its class. -/
def Half.tableNos (h : Half) : List (Nat × Bool) :=
  ((h.map.map (fun p => (p.1, p.2.persist))) ++ h.row.map (fun e => (e.key, e.persist))).filterMap (fun p =>
    if p.1 < 2 ^ 38 then none else some (p.1 % 2 ^ 37, p.2))

/-- R243, R245: the first of n consecutive record numbers for a record of a class: after the last of its class where their spans
hold no other class, else from a fresh span on (log 123). -/
def Half.newTable (h : Half) (n : Nat) (persist : Bool) : Nat :=
  let all := h.tableNos
  let top := (all.filter (fun x => x.2 == persist)).foldl (fun a x => Nat.max a (x.1 + 1)) 0
  let fresh := 8192 * (all.foldl (fun a x => Nat.max a (x.1 / 8192 + 1)) 0)
  let other (k : Nat) : Bool := all.any (fun x => x.2 != persist && decide (k ≤ x.1 / 8192) && decide (x.1 / 8192 ≤ (top + n - 1) / 8192))
  if top = 0 || other (top / 8192) then fresh else top

/-- R238, R245: the entries of a table record of `kib` KiB: chunks of at most 64 KiB under consecutive numbers. -/
def tableEnts (d : Side) (no kib : Nat) (epoch : BitVec 2) (persist : Bool) (ctx : Nat) : List RowEnt :=
  (List.range (tableChunks kib)).map (fun i =>
    { key := recordKey d (no + i), kib := Nat.max 1 (Nat.min 64 (kib - 64 * i)), epoch := epoch, persist := persist, ctx := ctx })

/-! ### Superblocks (R235, R236, R257) -/

/-- R235: a superblock of a half. -/
def Half.sb (h : Half) (k : Nat) : Superblock := h.sbs.lookD k {}

/-- A superblock replaced. -/
def Half.setSb (h : Half) (k : Nat) (b : Superblock) : Half := { h with sbs := h.sbs.put k b }

/-- R235: free superblocks of a half. -/
def Coal.freeSbs (c : Coal) (h : Half) : Nat := c.superblocks - (h.sbs.vals.filter (fun b => b.state != .free)).length

/-- R257: the free superblock with the lowest erase count (for demotions) or the highest (for copies); the lowest number on
equal counts. -/
def Coal.pickSb (c : Coal) (h : Half) (copies : Bool) : Option Nat :=
  let fresh := h.sbs.lowFree
  let used := h.sbs.filter (fun p => p.2.state == .free)
  let cand := (if fresh < c.superblocks then [(fresh, ({} : Superblock))] else []) ++ used
  let better (x y : Nat × Superblock) : Bool := if copies then y.2.erases < x.2.erases else x.2.erases < y.2.erases
  match cand with
  | [] => none
  | x :: r => some (r.foldl (fun b y => if better y b then y else b) x).1

/-- R260: block groups of a LUN of a channel that are retired, or bad from the factory. -/
def Half.badGroups (h : Half) (ch lun : Nat) : List Nat :=
  (((h.worn ++ h.badAt).filter (fun w => w.1 == ch && w.2.1 == lun)).map (fun w => w.2.2)).foldl insNat []

/-- R235, R260: block groups of a LUN of a channel that are in use, retired, or bad from the factory, ascending. -/
def Half.usedGroups (h : Half) (ch lun : Nat) : List Nat :=
  let inUse := (h.sbs.vals.filterMap (fun b => (b.members.find? (fun m => m.1 == ch)).map (·.2))).filter (fun m => m.1 == lun)
  (inUse.map (·.2)).foldl insNat (h.badGroups ch lun)

/-- R249: the key of a member block in the counts of a half. -/
def blockKey (m : Nat × Nat × Nat) : Nat := m.1 + 16 * m.2.1 + 256 * m.2.2

/-- R260, R262: member blocks of a channel in service. -/
def Coal.blocksOn (c : Coal) (h : Half) (ch : Nat) : Nat :=
  (List.range c.luns).foldl (fun n l =>
    if h.failedLuns.contains (ch, l) then n else n + (c.groups - (h.badGroups ch l).length)) 0

/-- R257, R265: the erase counts of the member blocks of a channel in service that have been erased. -/
def Half.erasesOn (h : Half) (ch : Nat) : List Nat :=
  (h.blkErases.filter (fun p => p.1 % 16 == ch && !(h.failedLuns.contains (ch, p.1 / 16 % 16)) &&
    !((h.badGroups ch (p.1 / 16 % 16)).contains (p.1 / 256)))).map (·.2)

/-- R249, R255: the member blocks of a superblock have been erased once more. -/
def Half.countErase (h : Half) (k : Nat) : Half :=
  { h with blkErases := (h.sb k).members.foldl (fun t m => t.upd (blockKey m) 0 (· + 1)) h.blkErases }

/-- R235, R262: the member of superblock k on a channel: the lowest free block of LUN k mod LUNs per channel, or of the next LUN in
order that has one; none where the channel has failed. -/
def Coal.memberOn (c : Coal) (h : Half) (k ch : Nat) : Option (Nat × Nat) :=
  let n := Nat.max c.luns 1
  ((List.range n).map (fun i => (k + i) % n)).findSome? (fun l =>
    let g := lowestFree (h.usedGroups ch l) 0
    if !(h.failedLuns.contains (ch, l)) && g < c.groups then some (l, g) else none)

/-- R235, R262: the members of superblock k, by channel. -/
def Coal.membersOf (c : Coal) (h : Half) (k : Nat) : List (Nat × Nat × Nat) :=
  (List.range 16).filterMap (fun ch => (c.memberOn h k ch).map (fun m => (ch, m)))

/-- R236, R262: KiB of data of a row: 192 for each member but the one of parity. -/
def Superblock.dataKib (b : Superblock) : Nat := 192 * (b.members.length - 1)

/-- R235: the channel of the parity member: k mod 16, or the next with a member where that channel has failed. -/
def Superblock.parityCh (b : Superblock) (k : Nat) : Nat :=
  (((List.range 16).map (fun i => (k + i) % 16)).find? (fun ch => b.members.any (fun m => m.1 == ch))).getD (k % 16)

/-- R235, R236: the channels of the data members, ascending, each with 192 KiB of the row in turn. -/
def Superblock.dataChs (b : Superblock) (k : Nat) : List Nat :=
  (b.members.map (·.1)).filter (· != b.parityCh k)

/-- R236, R245: the channels on whose members a record lies. -/
def Half.recordChs (h : Half) (e : MapEnt) : List Nat :=
  let b := h.sb e.sb
  let off := e.off % Nat.max b.dataKib 1
  ((List.range 16).zip (b.dataChs e.sb)).filterMap (fun x =>
    if off < 192 * x.1 + 192 && 192 * x.1 < off + e.kib then some x.2 else none)

/-- R235, R248: a superblock that takes rows (of demotions, or of copies), opened where none is open. -/
def Coal.openSb (c : Coal) (h : Half) (copies : Bool) : Option (Nat × Half) :=
  match h.sbs.find? (fun p => p.2.state == .opened && p.2.copies == copies && decide (p.2.rows < c.rows)) with
  | some p => some (p.1, h)
  | none =>
    match c.pickSb h copies with
    | none => none
    | some k =>
      let ms := c.membersOf h k
      if ms.length < 15 then none
      else
        let b : Superblock := { h.sb k with
          state := .opened, seq := h.nextSeq, rows := 0, reads := [], members := ms, copies := copies, firstVictim := false
          refresh := false, relocate := false, patrolled := none }
        some (k, ({ h.setSb k b with nextSeq := h.nextSeq + 1 }).addLog (.sbOpen k h.nextSeq))

/-- R235, R255: a superblock is closed. -/
def Half.closeSb (h : Half) (k : Nat) : Half := (h.setSb k { h.sb k with state := .closed }).addLog (.sbClose k)

/-! ### Rows (R236-R241) -/

/-- R238: KiB of the row table of n records. -/
def rowTable (n : Nat) : Nat := ceilDiv (16 + 32 * n) 1024

/-- R236, R238: the records from the front that fit a row of `room` KiB with its row table. -/
def rowFit (room : Nat) : List RowEnt → Nat → Nat → List RowEnt
  | [], _, _ => []
  | e :: r, n, kib => if kib + e.kib + rowTable (n + 1) ≤ room then e :: rowFit room r (n + 1) (kib + e.kib) else []

/-- R239: the 32 bytes of a row-table entry: a record `off` KiB from the row's start, with its tag. -/
def RowEnt.bytes (e : RowEnt) (off : Nat) (tag : List Byte) : List Byte :=
  leBytes 5 e.key ++ leBytes 1 (e.kib - 1) ++ leBytes 2 off ++ leBytes 1 (b2n e.persist + 2 * e.epoch.toNat)
    ++ leBytes 2 (e.ctx % 4096) ++ leBytes 5 0 ++ tag.take 16 ++ List.replicate (16 - (tag.take 16).length) 0

/-- R239: the entries of a row table, for records each with its bytes and its tag. -/
def rowEntries : List (RowEnt × List Byte × List Byte) → Nat → List Byte
  | [], _ => []
  | x :: r, off => x.1.bytes off x.2.2 ++ rowEntries r (off + x.1.kib)

/-- R238, R239: the data of a row of `room` KiB: its records, zeros, and the row table at its end. -/
def rowBytes (room : Nat) (xs : List (RowEnt × List Byte × List Byte)) : List Byte :=
  let recs := xs.flatMap (fun x => x.2.1)
  let es := rowEntries xs 0
  let table := leBytes 2 xs.length ++ leBytes 10 0 ++ leBytes 4 (crc32c es).toNat ++ es
  let table := table ++ List.replicate (1024 * rowTable xs.length - table.length) 0
  recs ++ List.replicate (1024 * room - recs.length - table.length) 0 ++ table

/-- R237: bytes XORed one by one. -/
def xorBytes (a b : List Byte) : List Byte := a.zipWith (fun x y => x ^^^ y) b

/-- R237: the parity member of a row's data members, over data and metadata alike; the same XOR rebuilds a codeword (R261). -/
def parityOf (ms : List (List Byte)) (n : Nat) : List Byte := ms.foldl xorBytes (List.replicate n 0)

/-- R236: the 4,608 bytes of a codeword: 4,096 bytes of data, the superblock's write sequence, the row, the position (codeword, page,
plane), and the LDPC parity over them. -/
def codeword (data : List Byte) (seq row cw page plane : Nat) : List Byte :=
  let b := data ++ leBytes 8 seq ++ leBytes 4 row ++ leBytes 1 (cw + 4 * page + 16 * plane) ++ leBytes 3 0
  b ++ (List.range 496).map (Config.ldpc b)

/-- R220, R255: a record that has been written is mapped: not one that was given up, and of the copies only one that its map entry still
names. -/
def Half.wants (h : Half) (e : RowEnt) : Bool := !e.gone && (e.from_.isNone || h.map.look e.key == e.from_)

/-- R239, R245, R247: the records of a row, each mapped at its place. -/
def placeRecs (k : Nat) : List RowEnt → Nat → Half → Half
  | [], _, h => h
  | e :: r, off, h =>
    let m : MapEnt := { persist := e.persist, epoch := e.epoch, sb := k, off := off, kib := e.kib, ctx := e.ctx, salt := e.salt }
    placeRecs k r (off + e.kib) (if h.wants e then h.mapPut e.key m else h)

/-- R237, R238: the row that is written next: its superblock, and the records from the front of those waiting that it holds; none
where no superblock is free. -/
def Coal.nextRow (c : Coal) (h : Half) (copies : Bool) (es : List RowEnt) : Option (Nat × Half × List RowEnt) :=
  match c.openSb h copies with
  | none => none
  | some (k, h) =>
    match rowFit (h.sb k).dataKib es 0 0 with
    | [] => none
    | row => some (k, h, row)

/-- R237, R240: a row of superblock k written: its records mapped. -/
def Coal.writeRow (c : Coal) (k : Nat) (row : List RowEnt) (h : Half) : Half :=
  let b := h.sb k
  let h := placeRecs k row (b.rows * b.dataKib)
    ({ h with programmed := h.programmed + 196608 * b.members.length }.setSb k { b with rows := b.rows + 1 })
  if b.rows + 1 = c.rows then h.closeSb k else h

/-- R237: rows written until every record is; none where no superblock is free. The first argument bounds the rows. -/
def Coal.writeRows (c : Coal) (copies : Bool) : Nat → List RowEnt → Half → Option Half
  | _, [], h => some h
  | 0, _, _ => none
  | n + 1, es, h =>
    match c.nextRow h copies es with
    | none => none
    | some (k, h, row) => Coal.writeRows c copies n (es.drop row.length) (c.writeRow k row h)

/-- R383, R393: fresh salts for records about to be written, one DRBG output each; a weight chunk is stored as its owner sealed it,
and a copy as it was. -/
def State.salted (s : State) (es : List RowEnt) : List RowEnt × State :=
  es.foldr (fun e (r, s) =>
    if e.from_.isSome || (s.page e.key).chunk.isSome then (e :: r, s)
    else
      let (n, s) := s.draw
      ({ e with salt := n } :: r, s)) ([], s)

/-- R241, R247: records written and mapped at once on a die's half; none where they do not fit. -/
def State.coalStore (s : State) (d : Side) (copies : Bool) (es : List RowEnt) : Option State :=
  let (es, s) := s.salted es
  (s.coal.writeRows copies (es.length + 1) es (s.coal.half.get d)).map (s.newHalf d)

/-- R241: records written and mapped where the half accepts them, or not; a write that does not fit sets FULL. -/
def State.coalWrite (s : State) (d : Side) (es : List RowEnt) : Bool × State :=
  if s.coalFits d (es.foldl (fun n e => n + e.kib) 0) then
    match s.coalStore d false es with
    | some s' => (true, s')
    | none => (false, s)
  else (false, if s.coal.en && (s.coal.half.get d).ready && !s.coal.readOnly then s.setFull d else s)

/-! ### Checkpoints (R249) -/

/-- R249: the latest index. -/
def Half.index (h : Half) : Index := h.ckpts.headD {}

/-- R243, R249: the directory as the map area holds it: the address of each leaf. -/
def Half.dir (h : Half) : Tbl Nat := h.leaves.mapVals (fun _ l => l.addr.getD 0)

/-- R243, R249: the 64 KiB blocks of the directories, of 16,384 entries each, that differ from those of the latest checkpoint. -/
def Half.changedBlocks (h : Half) : List Nat :=
  ((h.dir.keys ++ h.index.dir.keys).filter (fun n => h.dir.look n != h.index.dir.look n)).foldl (fun l n => insNat l (n / 16384)) []

/-- R249 step 2: changed directory blocks written to the map area, one after the other: their addresses. -/
def placeBlocks : List Nat → Nat → Tbl Nat → Tbl Nat
  | [], _, t => t
  | b :: r, a, t => placeBlocks r (a + 16) (t.put b a)

/-- R249 step 3: valid record KiB of each superblock. -/
def Half.validTbl (h : Half) : Tbl Nat :=
  h.sbs.mapVals (fun k _ => (h.map.vals.filter (fun e => e.sb == k)).foldl (fun n e => n + e.kib) 0)

/-- R249: a checkpoint: the dirty leaves, the changed directory blocks, the index, CHECKPOINT; the log before the one before is
reclaimed. An erase that runs counts already. -/
def Half.checkpoint (h : Half) (now : Nat) : Half :=
  let h := h.leaves.keys.foldl Half.writeLeaf h
  let bs := h.changedBlocks
  let x : Index := {
    addr := h.mapNext + 16 * bs.length, map := h.map, dir := h.dir, blocks := placeBlocks bs h.mapNext h.index.blocks
    valid := h.validTbl, erases := h.sbs.mapVals (fun _ b => b.erases + b2n (b.state == .erasing))
    blkErases := h.blkErases, reads := h.sbs.mapVals (fun _ b => b.reads) }
  let a := x.addr
  let h := ({ h with log := sinceCheckpoint h.log, logBuf := h.logBuf ++ [.checkpoint a] } : Half).programLog
  { h with ckpts := (x :: h.ckpts).take 2, mapNext := a + 1, ckptAt := now, programmed := h.programmed + 65536 * bs.length + 4096 }

end Machine
end Sys2Proof
end

