-- ==== Sys2Proof/Machine/Place.lean ====
section
/-! DEFINITION. Placement in the Hearth tier (R188, R194-R220): frames, page numbers, page entries and their moves, victim lists,
making room, promotion requests; and the withdrawal of prefix rows (R116, R117). -/

namespace Sys2Proof
namespace Machine

/-! ### Frames (R194-R196) -/

/-- R194: regions of a stack. -/
def regionsOf (stack : Nat) : Nat := if stack = 0 || stack = 5 then 244 else 243

/-- R194: KiB of a region. -/
def regionKib : Nat := 262144

/-- R194: the frames of one region. -/
def inRegion (fs : List FrameAt) (st r : Nat) : List FrameAt := fs.filter (fun f => f.stack == st && f.region == r)

/-- R194: the regions of a stack that are not free, ascending. -/
def usedRegions (fs : List FrameAt) (st : Nat) : List Nat :=
  ((fs.filter (fun f => f.stack == st)).map (·.region)).foldl insNat []

/-- R194: on a stack, the region and slot of a frame of `kib`: the lowest region that serves its size and has room, else
the lowest free region; `ban` names a region that is not used (R197). -/
def stackPlace (fs : List FrameAt) (st kib : Nat) (ban : Option (Nat × Nat) := none) : Option FrameAt :=
  let rs := usedRegions fs st
  let fits (r : Nat) : Bool :=
    ban != some (st, r) &&
    match inRegion fs st r with
    | [] => false
    | f :: l => f.kib == kib && decide (l.length + 1 < regionKib / Nat.max kib 1)
  match rs.find? fits with
  | some r => some { stack := st, region := r, slot := lowestFree (((inRegion fs st r).map (·.slot)).foldl insNat []) 0,
                     kib := kib }
  | none =>
    let r := lowestFree rs 0
    if r < regionsOf st && ban != some (st, r) then some { stack := st, region := r, slot := 0, kib := kib } else none

/-- R208: free page space of a stack in KiB: its free regions and its free frames. -/
def stackFree (fs : List FrameAt) (failed : List Nat) (st : Nat) : Nat :=
  if failed.contains st then 0
  else
    let rs := usedRegions fs st
    (regionsOf st - rs.length) * regionKib + rs.foldl (fun n r =>
      match inRegion fs st r with
      | [] => n
      | f :: l => n + (regionKib / Nat.max f.kib 1 - (l.length + 1)) * f.kib) 0

/-- R208: free page space of a die in KiB. -/
def State.dieFree (s : State) (d : Side) : Nat :=
  (List.range 10).foldl (fun n st => n + stackFree (s.drt.frames.get d) (s.drt.failed.get d) st) 0

/-- R228: DRT_FREE of a die, in MiB: 0 until self-test ends. -/
def State.freeMib (s : State) (d : Side) : Nat := if s.gbl.fwReady then s.dieFree d / 1024 else 0

/-- R198: the die that the part chooses: the greater value of DRT_FREE, West on equal values. -/
def State.roomier (s : State) : Side := if s.freeMib .west < s.freeMib .east then .east else .west

/-- R194, R424: page space of a die in KiB. -/
def State.dieSpace (s : State) (d : Side) : Nat :=
  ((List.range 10).filter (fun st => !((s.drt.failed.get d).contains st))).foldl
    (fun n st => n + regionsOf st * regionKib) 0

/-- R230: LOW of a die: its free page space lies below LOW_FREE. -/
def State.low (s : State) (d : Side) : Bool := decide (256 * s.dieFree d < s.drt.lowFree * s.dieSpace d)

/-- R195: the stack of a die with the most free page space, the lowest-numbered on equal values. -/
def State.widest (s : State) (d : Side) : Nat :=
  let free (st : Nat) : Nat := stackFree (s.drt.frames.get d) (s.drt.failed.get d) st
  (List.range 10).foldl (fun b st => if free b < free st then st else b) 0

/-- R195: the first stack, counting upward from the preferred one modulo 10, that has room. -/
def State.placeFrame (s : State) (d : Side) (pref kib : Nat) (excl : Option Nat) : Option FrameAt :=
  ((List.range 10).map (fun k => (pref + k) % 10)).findSome? (fun st =>
    if (s.drt.failed.get d).contains st || excl == some st then none else stackPlace (s.drt.frames.get d) st kib)

/-- R191, R381: a frame allocated; it is written whole with what it is to hold (a page's bytes and its padding, a copy, a granule's zeros),
which raises the counters of its lines. -/
def State.addFrame (s : State) (d : Side) (f : FrameAt) : State :=
  { s with drt := { s.drt with frames := s.drt.frames.upd d (f :: ·) }, mem := s.mem.countWrites (f.places d) }

/-- R85: a frame is no longer allocated. -/
def State.unframe (s : State) (d : Side) (f : FrameAt) : State :=
  { s with drt := { s.drt with frames := s.drt.frames.upd d (fun l => l.erase f) } }

/-- R196: the first open page of a size on a die that runs on one copy and for whose mirror there is room on another stack. -/
def State.mirrorPlace (s : State) (d : Side) (kib : Nat) : Option (Nat × FrameAt) :=
  s.pages.findSome? (fun p =>
    if pageDie p.1 == d && p.2.life == .opened && p.2.mirror.isNone && p.2.kib == kib then
      p.2.primary.bind (fun f => (s.placeFrame d ((f.stack + 5) % 10) kib (some f.stack)).map (fun g => (p.1, g)))
    else none)

/-- R196: a frame of `kib` has become free on a die with a failed stack: an open page of that size that runs on one copy gets its
mirror, where there is room; where there is none, R209's first two steps are tried at the next tick. -/
def State.mirrorFreed (s : State) (d : Side) (kib : Nat) : State :=
  if (s.drt.failed.get d).isEmpty then s
  else
    match s.mirrorPlace d kib with
    | some (h, g) =>
      let s := (s.addFrame d g).updPage h (fun q => { q with mirror := some g })
      { s with drt := { s.drt with sweepWaits := s.drt.sweepWaits.filter (· != h) } }
    | none => { s with drt := { s.drt with mirrorDue := s.drt.mirrorDue.set d true } }

/-- R85, R196: a frame released. -/
def State.freeFrame (s : State) (d : Side) (f : Option FrameAt) : State :=
  match f with
  | some f => (s.unframe d f).mirrorFreed d f.kib
  | none => s

/-- R194, R195: a frame taken, if one is free. -/
def State.takeFrame (s : State) (d : Side) (pref kib : Nat) (excl : Option Nat) : Option (FrameAt × State) :=
  (s.placeFrame d pref kib excl).map (fun f => (f, s.addFrame d f))

/-! ### Victim lists (R207) -/

/-- R199: the page has a valid Hearth frame. -/
def Page.resident (p : Page) : Bool := p.res == .hot || p.res == .clean || p.res == .demoting

/-- R207: which of the three lists. -/
inductive VList where
  | evictOk | ordinary | preferHot
deriving DecidableEq, Repr

/-- R222: the weight object of a chunk. -/
def State.chunkObj (s : State) (p : Page) : Option WObj := p.chunk.map (fun c => s.wobj c.1)

/-- R207: the list a resident page belongs to; none where it is pinned within the limit or not resident. -/
def State.listOf (s : State) (p : Page) : Option VList :=
  if !p.resident || p.pinned then none
  else
    match s.chunkObj p with
    | some w =>
      if w.hints.evictOk then some .evictOk
      else if w.hints.preferHot || p.pin then some .preferHot else some .ordinary
    | none =>
      if p.keepCnt = 0 then some .evictOk
      else if p.preferHot || p.pin then some .preferHot else some .ordinary

/-- A victim list of a die. -/
def Victims.get (v : Victims) : VList → List Nat
  | .evictOk => v.evictOk
  | .ordinary => v.ordinary
  | .preferHot => v.preferHot

/-- A victim list replaced. -/
def Victims.set (v : Victims) (k : VList) (l : List Nat) : Victims :=
  match k with
  | .evictOk => { v with evictOk := l }
  | .ordinary => { v with ordinary := l }
  | .preferHot => { v with preferHot := l }

/-- R207: a page taken out of its lists. -/
def Victims.remove (v : Victims) (h : Nat) : Victims :=
  ⟨v.evictOk.filter (· != h), v.ordinary.filter (· != h), v.preferHot.filter (· != h)⟩

/-- R207: a page put at the tail of the list it belongs to, unless it stands there already. -/
def State.relist (s : State) (h : Nat) : State :=
  let d := pageDie h
  let v := s.drt.victims.get d
  let v' := match s.listOf (s.page h) with
    | none => v.remove h
    | some k => if (v.get k).contains h then v else (v.remove h).set k (((v.remove h).get k) ++ [h])
  { s with drt := { s.drt with victims := s.drt.victims.set d v' } }

/-- R207: a page that moves to the tail: PROMOTE_PENDING, within its hold, or being written by an append. -/
def State.passedOver (s : State) (busy : List Nat) (h : Nat) : Bool :=
  let p := s.page h
  p.promotePending || (match p.staged with
    | some t => decide (s.now.toNat < t)
    | none => false) || busy.contains h

/-- R207: one turn of the clock over a list up to the first page that `take` accepts: what it passes with the reference bit
set, or passes over, moves to the tail, and the bit is cleared; a page that is no candidate stays where it is. -/
def State.turn (s : State) (l : List Nat) (skip want : Nat → Bool) : Option Nat × List Nat × State :=
  let good (h : Nat) : Bool := !(s.page h).ref && !(skip h) && want h
  let passed := match l.find? good with
    | some h => l.takeWhile (· != h)
    | none => l
  let moves (x : Nat) : Bool := (s.page x).ref || skip x
  let moved := passed.filter moves
  (l.find? good, passed.filter (fun x => !(moves x)) ++ l.drop passed.length ++ moved,
    moved.foldl (fun s x => s.updPage x (fun p => { p with ref := false })) s)

/-- R207: the clock over one list that holds a candidate: the victim, within two turns; where every candidate is passed over, one
turn and no victim. -/
def State.clock (s : State) (d : Side) (k : VList) (busy : List Nat) (want : Nat → Bool) : Option Nat × State :=
  let skip := s.passedOver busy
  let l := (s.drt.victims.get d).get k
  let put (s : State) (l : List Nat) : State := { s with drt := { s.drt with victims := s.drt.victims.upd d (·.set k l) } }
  if !(l.any want) then (none, s)
  else
    match s.turn l skip want with
    | (some h, l1, s1) => (some h, put s1 l1)
    | (none, l1, s1) =>
      if !(l.any (fun h => want h && !(skip h))) then (none, put s1 l1)
      else
        match s1.turn l1 skip want with
        | (h, l2, s2) => (h, put s2 l2)

/-- R207: the clocks of these lists in turn, up to a victim. -/
def State.clocks (d : Side) (busy : List Nat) (want : Nat → Bool) : List VList → State → Option Nat × State
  | [], s => (none, s)
  | k :: ks, s =>
    match s.clock d k busy want with
    | (some h, s1) => (some h, s1)
    | (none, s1) => State.clocks d busy want ks s1

/-- R207: the lists in the order in which they are taken. -/
def vlists : List VList := [.evictOk, .ordinary, .preferHot]

/-- R207: the victim: the clock's, over the lists in their order; a page that the clocks pass over only where no list has
another (log 114). -/
def State.victim (s : State) (d : Side) (busy : List Nat) (want : Nat → Bool) : Option (Nat × State) :=
  match State.clocks d busy want vlists s with
  | (some h, s1) => some (h, s1)
  | (none, s1) => (vlists.findSome? (fun k => ((s1.drt.victims.get d).get k).find? want)).map (fun h => (h, s1))

/-! ### The Coal store's side of a page (R200, R206) -/

/-- R200, R206: the page's Coal copy is released. -/
def State.releaseCopy (s : State) (h : Nat) : State :=
  (s.coalRelease (pageDie h) h).updPage h (fun p => { p with coal := false })

/-! ### Page numbers (R242) -/

/-- R75, R242: the lowest free page number of the lowest span of its frame size and class, else of a new span; 0 is never
allocated on the West die. -/
def State.newPageNo (s : State) (d : Side) (kib : Nat) (persistent : Bool) : Nat × State :=
  let hf := s.coal.half.get d
  let firstIn (sp : Nat) : Option Nat :=
    ((List.range (spanSlots kib)).map (fun t => sp * 2048 + t * kib)).find?
      (fun n => !(s.pages.has (pageHandle d n)) && pageHandle d n != 0)
  let mine := hf.spans.keep (fun _ v => v == (kib, persistent))
  match mine.keys.findSome? firstIn with
  | some n => (n, s)
  | none =>
    let sp := Tbl.lowFree hf.spans
    let n := (firstIn sp).getD (sp * 2048 + kib)
    (n, s.setHalf d { hf with spans := hf.spans.put sp (kib, persistent) })

/-- R242: a span without a live handle is free for any size. -/
def State.trimSpan (s : State) (h : Nat) : State :=
  let d := pageDie h
  let sp := pageNo h / 2048
  if s.pages.keys.any (fun k => pageDie k == d && pageNo k / 2048 == sp) then s
  else
    let hf := s.coal.half.get d
    s.setHalf d { hf with spans := hf.spans.del sp }

/-- R202: COLD pages with one reference whose handle entries left with the tables of their sequence. -/
def State.awayPages (s : State) (q : Seq) : List Nat :=
  if q.dirCold then ((q.layers.flatMap (fun y => y.ptes.vals)).filter (fun e => e.v && (s.page e.handle).res == .cold &&
    (s.page e.handle).refcnt == 1)).map (·.handle)
  else []

/-- R79: resident handle entries of a die. -/
def State.handlesOn (s : State) (d : Side) : Nat :=
  (s.pages.keys.filter (fun h => pageDie h == d)).length -
    ((s.seqs.filter (fun q => seqHome q.1 == d)).flatMap (fun q => s.awayPages q.2)).length

/-- R79: the resident handle table of a die, half of 805,306,368 entries, has none left (log 116). -/
def State.handlesFull (s : State) (d : Side) : Bool := decide (402653184 ≤ s.handlesOn d)

/-- R80: pages of a length. -/
def pagesOf (len : Nat) : Nat := ceilDiv len 16

/-- R93: slots of a window ring: a profile with WINDOW above 0 and KEEP_ALL clear. -/
def Profile.ring (p : Profile) : Option Nat := if p.window ≠ 0 && !p.keepAll then some (p.window / 16 + 1) else none

/-- R80: page-table blocks of a layer: the leaves, the levels above them that its DEPTH has, or the array of a window ring. -/
def Layer.blocks (y : Layer) (ring : Option Nat) : Nat :=
  match ring with
  | some r => if y.length = 0 then 0 else ceilDiv r 512
  | none =>
    let n := pagesOf y.length
    ceilDiv n 512 + (if 2 ≤ y.depth then ceilDiv n 262144 else 0) + (if 3 ≤ y.depth then 1 else 0)

/-- R80, R202: KiB of the directory and the page-table blocks of a sequence. -/
def State.tableKib (s : State) (q : Seq) : Nat :=
  4 * ceilDiv q.layers.length 64 + 4 * (q.layers.map (fun y => y.blocks (s.profile q.pslot).ring)).foldl (· + ·) 0

/-- R79: KiB of a die's resident table part: half of 10 GiB. -/
def tablePart : Nat := 5242880

/-- R202: KiB of a die's table part in use: the resident directories and blocks of its sequences. -/
def State.tablesUsed (s : State) (d : Side) : Nat :=
  (s.seqs.filter (fun q => seqHome q.1 == d && q.2.state != .free && !q.2.dirCold)).foldl (fun n q => n + s.tableKib q.2) 0

/-- R79: between s and t the directories and blocks of a die have outgrown its resident part (log 116). -/
def State.outgrown (s t : State) : Bool :=
  [Side.west, .east].any (fun d => decide (tablePart < t.tablesUsed d) && decide (s.tablesUsed d < t.tablesUsed d))

/-- R79: the resident part of a die has room for the directory of one more sequence of this many layers (log 116). -/
def State.dirRoom (s : State) (d : Side) (layers : Nat) : Bool := decide (s.tablesUsed d + 4 * ceilDiv layers 64 ≤ tablePart)

/-! ### Charges (R83) -/

/-- R83: pages charged to a context. -/
def State.chargeCtx (s : State) (c n : Nat) : State :=
  let x := s.ctx c
  s.setCtx c { x with charged := x.charged + n }

/-- R83: a charge ends. -/
def State.unchargeCtx (s : State) (c n : Nat) : State :=
  let x := s.ctx c
  s.setCtx c { x with charged := x.charged - n }

/-- R88, R376: n more pages pass the context's quota. -/
def State.overQuota (s : State) (c n : Nat) : Bool := decide ((s.ctx c).quota.toNat < (s.ctx c).charged + n)

/-- R213, R269: COAL_STATUS.READY: both halves take work. -/
def Coal.ready (c : Coal) : Bool := c.half.w.ready && c.half.e.ready

/-! ### Moves of a page (R83, R200, R211) -/

/-- R213, R230: the requests of a page, and its wait for a mirror or a new frame, are withdrawn. -/
def State.dropReqs (s : State) (h : Nat) : State :=
  { s with drt := { s.drt with
    reqs := s.drt.reqs.map (fun l => l.filter (fun r => r.handle != h)), sweepWaits := s.drt.sweepWaits.filter (· != h) } }

/-- R85, R191: a page's bytes at its view are gone with its frames. -/
def State.clearView (s : State) (h : Nat) : State :=
  let a := viewBase h
  let n := (s.page h).kib * 1024
  { s with mem := { s.mem with cells := s.mem.cells.filter (fun c => !(decide (a ≤ c.1) && decide (c.1 < a + n))) } }

/-- R83, R85: an instruction uses a translation of the page. -/
def State.inUse (s : State) (h : Nat) : Bool := (s.jrn.recs ++ s.jrn.steps).any (fun r => r.uses.contains h)

/-- R26, R49: where a record stands. -/
def JRec.site (r : JRec) : At := { ring := r.ring, index := r.index, step := r.step }

/-- R85: the instructions that use a translation of the page. -/
def State.users (s : State) (h : Nat) : List At :=
  ((s.jrn.recs ++ s.jrn.steps).filter (fun r => r.uses.contains h)).map JRec.site

/-- R85: the uses of these instructions have ended. -/
def State.usesOver (s : State) (us : List At) : Bool :=
  us.all (fun a => (s.jrn.recs ++ s.jrn.steps).all (fun r => r.site != a || r.uses.isEmpty))

/-- R85, R220: a page gives up a frame: it is free at once, or when the uses of its translation have ended. -/
def State.yieldFrame (s : State) (h : Nat) (f : Option FrameAt) : State :=
  match f, s.users h with
  | none, _ => s
  | some _, [] => s.freeFrame (pageDie h) f
  | some g, us => { s with drt := { s.drt with held := s.drt.held.upd (pageDie h) ({ frame := g, users := us } :: ·) } }

/-- R85: the frames of a die whose last use has ended are free. -/
def State.releaseHeld (s : State) (d : Side) : State :=
  let gone := (s.drt.held.get d).filter (fun x => s.usesOver x.users)
  gone.foldl (fun s x => s.freeFrame d (some x.frame))
    { s with drt := { s.drt with held := s.drt.held.upd d (fun l => l.filter (fun x => !(gone.contains x))) } }

/-- R209: a frame of `kib` on a die is given up and will be free when its last use ends. -/
def State.frameHeld (s : State) (d : Side) (kib : Nat) : Bool := (s.drt.held.get d).any (fun x => x.frame.kib == kib)

/-- R83: the handle is FREE, its frames and its Coal copy released, its charge ended. -/
def State.freeNow (s : State) (h : Nat) : State :=
  let p := s.page h
  let d := pageDie h
  let s := (s.freeFrame d p.primary).freeFrame d p.mirror
  let s := s.releaseCopy h
  let s := if p.charged then s.unchargeCtx p.ctx 1 else s
  let s := (s.dropReqs h).clearView h
  let s := { s with drt := { s.drt with victims := s.drt.victims.upd d (·.remove h) } }
  ({ s with pages := s.pages.del h }).trimSpan h

/-- R83: REFCNT has reached zero: the page is freed, or, while a translation of it is in use, keeps its LIFE and its charge until the
last use ends; its frames are held until then (R85). -/
def State.freePage (s : State) (h : Nat) : State :=
  if s.inUse h then
    let p := s.page h
    let s := ((s.yieldFrame h p.primary).yieldFrame h p.mirror).updPage h (fun p => { p with refcnt := 0, primary := none, mirror := none })
    { s with drt := { s.drt with victims := s.drt.victims.upd (pageDie h) (·.remove h) } }
  else s.freeNow h

/-- R85: the frames of a page that was dropped or lost are released. -/
def State.releaseFrames (s : State) (h : Nat) : State :=
  let p := s.page h
  let s := (s.freeFrame (pageDie h) p.primary).freeFrame (pageDie h) p.mirror
  (s.clearView h).updPage h (fun q => { q with primary := none, mirror := none })

/-- R83, R85: the use of these translations has ended. -/
def State.endUses (s : State) (hs : List Nat) : State :=
  ((hs.foldl (fun s h =>
    if !(s.pages.has h) || s.inUse h then s
    else if (s.page h).refcnt = 0 then s.freeNow h
    else if (s.page h).life == .dropped || (s.page h).life == .lost then s.releaseFrames h
    else s) s).releaseHeld .west).releaseHeld .east

/-- R83, R112: one reference to a page is released. -/
def State.releaseRef (s : State) (h : Nat) : State :=
  let p := s.page h
  if p.refcnt ≤ 1 then s.freePage h else s.setPage h { p with refcnt := p.refcnt - 1 }

/-- R109, R112: one reference more. -/
def State.addRef (s : State) (h : Nat) : State := s.updPage h (fun p => { p with refcnt := p.refcnt + 1 })

/-- R201, R204: a holder that keeps the page (its hints lack EVICT_OK) comes or goes. -/
def State.keep (s : State) (h : Nat) (up : Bool) : State :=
  (s.updPage h (fun p => { p with keepCnt := if up then p.keepCnt + 1 else p.keepCnt - 1 })).relist h

/-- R120: a catalogued row is set aside: a withdrawal record is written and mapped under its record's key; where the Coal store
cannot take it, the record is released (log 74). The row stays in the list, since a power loss may lose the withdrawal's map entry (R251). -/
def State.withdrawRecord (s : State) (c : CatRec) : State :=
  let d := pageDie c.key
  let mark (s : State) (w : Bool × Nat) : State := { s with dom := { s.dom with
    catalogue := s.dom.catalogue.map (fun x => if x.key == c.key then { x with withdrawn := some w } else x) } }
  match s.coalWrite d [{ key := c.key, kib := 1, epoch := 0, persist := true, ctx := 4096 }] with
  | (true, s) => mark s (true, (((s.coal.half.get d).map.look c.key).map (·.salt)).getD 0)
  | (false, s) => mark (s.coalRelease d c.key) (false, 0)

/-- R120: the map names the withdrawal record of a row. -/
def State.setAside (s : State) (c : CatRec) : Bool :=
  match c.withdrawn with
  | some (true, n) => (((s.coal.half.get (pageDie c.key)).map.look c.key).map (·.salt)) == some n
  | _ => false

/-- R116, R120: the row of a catalogued entry gets a withdrawal record. -/
def State.uncatalogue (s : State) (e : PfxEntry) : State :=
  match s.dom.catalogue.find? (fun c => c.withdrawn.isNone && c.row.chain0 == e.chain && c.row.handles == e.row.handles) with
  | some c => s.withdrawRecord c
  | none => s

/-- R117: a row is withdrawn: SCOPE of its pages, its Domino copy, V and GEN, its references, its row record. -/
def State.withdrawRow (s : State) (idx : Nat) : State :=
  match s.dom.table.look idx with
  | none => s
  | some e =>
    if !e.v then s
    else
      let s := e.row.handles.foldl (fun s h =>
        if s.pages.has h then s.updPage h (fun p => { p with scope := none }) else s) s
      let s := (s.domForget idx).uncatalogue e
      let s := { s with dom := { s.dom with
        table := s.dom.table.put idx { gen := e.gen + 1 } } }
      let s := e.row.handles.foldl (fun s h => if s.pages.has h then s.releaseRef h else s) s
      let s := match e.row.frame with
        | some (d, f) => s.freeFrame d (some f)
        | none => s
      if e.nopub then s else s.unchargeCtx e.row.pubCtx 1

/-- R116: the valid row that holds a page. -/
def State.rowOf (s : State) (h : Nat) : Option Nat :=
  (s.dom.table.find? (fun p => p.2.v && p.2.row.handles.contains h)).map (·.1)

/-- R227: a window closes by itself. -/
def State.winFail (s : State) (i : Nat) : State :=
  match s.wins.look i with
  | none => s
  | some w =>
    if w.selfClosed then s else ({ s with wins := s.wins.put i { w with selfClosed := true } }).count 0x03200158

/-- R227: the windows that p names close by themselves. -/
def State.winFailAll (s : State) (p : Win → Bool) : State :=
  (s.wins.filter (fun w => p w.2)).foldl (fun s w => s.winFail w.1) s

/-- R22, R83, R211, R219: a page becomes DROPPED or LOST: its row is withdrawn, its frames and any Coal copy released, whatever
runs on it abandoned. The charge stays. -/
def State.losePage (s : State) (h : Nat) (lost : Bool) : State :=
  let p := s.page h
  if !(s.pages.has h) || p.life == .dropped || p.life == .lost then s
  else
    let d := pageDie h
    let s := s.trace d { type := 8, cls := 5, ctx := some p.ctx
                         arg := h + (if lost then 2 ^ 40 else 0) }
    let s := s.setPage h { p with
      life := if lost then .lost else .dropped
      res := .absent, promotePending := false, staged := none, scope := none
      pin := false, pinned := false, refcnt := p.refcnt + 1 }
    let s := match s.rowOf h with
      | some i => s.withdrawRow i
      | none => s
    let s := (((s.yieldFrame h p.primary).yieldFrame h p.mirror).updPage h (fun q => { q with primary := none, mirror := none }))
    let s := if s.inUse h then s else s.clearView h
    let s := (s.releaseCopy h).dropReqs h
    let s := { s with drt := { s.drt with victims := s.drt.victims.upd d (·.remove h) } }
    let s := match p.chunk with
      | some (o, _) => if lost then s.winFailAll (fun w => w.obj == o) else s
      | none => s
    s.releaseRef h

/-- R211: a page is dropped. -/
def State.dropPage (s : State) (h : Nat) : State := s.losePage h false

/-- R200, R208, R220: a CLEAN page is evicted; a frame that an engine reads is free when the read ends. -/
def State.evict (s : State) (h : Nat) : State :=
  let p := s.page h
  if p.res == .clean then
    let s := (s.setPage h { p with res := .cold, primary := none, staged := none }).yieldFrame h p.primary
    (s.relist h).count 0x03200110
  else s

/-- R424: the frame lies on a failed stack of the die. -/
def State.frameGone (s : State) (d : Side) (f : Option FrameAt) : Bool :=
  match f with
  | some x => (s.drt.failed.get d).contains x.stack
  | none => false

/-- R427: a line of a page's primary frame is uncorrectable. -/
def State.lineBad (s : State) (h : Nat) : Bool :=
  let a := viewBase h / 64
  (s.page h).primary.isSome && s.mem.uncorrectable.any (fun l => decide (a ≤ l) && decide (l < a + 16 * (s.page h).kib))

/-- R424, R427: the primary frame of a page lies on a failed stack, or a line of it is uncorrectable. -/
def State.onFailed (s : State) (h : Nat) : Bool := s.frameGone (pageDie h) (s.page h).primary || s.lineBad h

/-- R427: a page's primary frame with uncorrectable lines has been given up. -/
def State.healed (s : State) (h : Nat) : State :=
  let a := viewBase h / 64
  { s with mem := { s.mem with
    uncorrectable := s.mem.uncorrectable.filter (fun l => !(decide (a ≤ l) && decide (l < a + 16 * (s.page h).kib))) } }

/-- R196, R424, R427: a page with a frame on a failed stack, or with an uncorrectable line in its primary frame, is treated by state: an open
page is served by its mirror, a CLEAN page becomes COLD, any other page is DROPPED. -/
def State.stackTreat (s : State) (h : Nat) : State :=
  let p := s.page h
  let d := pageDie h
  let a := s.frameGone d p.primary || s.lineBad h
  let b := s.frameGone d p.mirror
  let s := if a then s.healed h else s
  if !(a || b) then s
  else if p.life == .opened && b && !a then (s.setPage h { p with mirror := none }).freeFrame d p.mirror
  else if p.life == .opened && !b && p.mirror.isSome then
    (s.setPage h { p with primary := p.mirror, mirror := none }).freeFrame d p.primary
  else if p.res == .clean then
    ((s.setPage h { p with res := .cold, primary := none, staged := none }).freeFrame d p.primary).relist h
  else s.dropPage h

/-- R200, R212: a HOT page may enter DEMOTING. -/
def State.demotable (s : State) (h : Nat) : Bool :=
  let p := s.page h
  p.res == .hot && p.life == .sealed && !(s.onFailed h) && !p.noDemote && s.drt.demoteEn && !s.drt.coalRo && s.coal.en &&
    (s.coal.half.get (pageDie h)).ready && !s.coal.readOnly

/-- R200, R238, R253: a demotion starts: the record waits for its row; a write that does not fit sets FULL (R241) and is refused
when the Coal store reports (R212). -/
def State.startDemote (s : State) (h : Nat) : State :=
  if s.demotable h then
    let p := s.page h
    let d := pageDie h
    let s := s.setPage h { p with res := .demoting }
    let hf := s.coal.half.get d
    if s.coalFits d p.kib then
      let (es, s) := s.salted [{ key := h, kib := p.kib, epoch := p.epoch, persist := p.persistent, ctx := p.ctx }]
      s.setHalf d { hf with reached := s.now.toNat, row := hf.row ++ es }
    else s.setFull d
  else s

/-- R208, R209: demotions running on a die. -/
def State.demoting (s : State) (d : Side) : Nat :=
  (s.pages.filter (fun p => pageDie p.1 == d && p.2.res == .demoting)).length

/-- R208, R209: up to n demotions started, in list order; at most 64 run at once. -/
def State.startDemotes : Nat → State → Side → List Nat → State
  | 0, s, _, _ => s
  | n + 1, s, d, busy =>
    if 64 ≤ s.demoting d then s
    else
      match s.victim d busy s.demotable with
      | none => s
      | some (h, s') => State.startDemotes n (s'.startDemote h) d busy

/-! ### Compaction (R197) -/

/-- R85, R197: a frame moved by compaction: the page or row record that it holds follows; the old frame is free when the uses of its
translation have ended. -/
def State.moveFrame (s : State) (d : Side) (f g : FrameAt) : State :=
  let us := ((s.pages.filter (fun p => pageDie p.1 == d && p.2.primary == some f)).map Prod.fst).flatMap s.users
  let s := if us.isEmpty then s.unframe d f
    else { s with drt := { s.drt with held := s.drt.held.upd d ({ frame := f, users := us } :: ·) } }
  let s := s.addFrame d g
  { s with
    pages := s.pages.mapVals (fun h p => if pageDie h == d && p.primary == some f then { p with primary := some g } else p)
    dom := { s.dom with table := s.dom.table.mapVals (fun _ e =>
      if e.row.frame == some (d, f) then { e with row := { e.row with frame := some (d, g) } } else e) } }

/-- R197: the frames of a region moved into free frames of their size elsewhere on the die; none where one has no room. -/
def State.emptyRegion (d : Side) (ban : Nat × Nat) : List FrameAt → State → Option State
  | [], s => some s
  | f :: r, s =>
    let fs := s.drt.frames.get d
    let room := (List.range 10).findSome? (fun st =>
      if (s.drt.failed.get d).contains st then none
      else match stackPlace fs st f.kib (some ban) with
        | some g => if (usedRegions fs st).contains g.region then some g else none
        | none => none)
    match room with
    | none => none
    | some g => State.emptyRegion d ban r (s.moveFrame d f g)

/-- R85, R197: compaction of a die for an allocation of `kib`: with COMPACT_EN set and at least 512 MiB of free frames of other
sizes, the movable region of another size with the fewest frames in use is emptied; a frame that its page has given up leaves it when its
last use ends. -/
def State.compact (s : State) (d : Side) (kib : Nat) : Option State :=
  if !s.drt.compactEn then none
  else
    let fs := s.drt.frames.get d
    let openFrames := (s.pages.filter (fun p => pageDie p.1 == d && p.2.life == .opened)).flatMap
      (fun p => p.2.primary.toList ++ p.2.mirror.toList)
    let cand := ((List.range 10).filter (fun st => !((s.drt.failed.get d).contains st))).flatMap (fun st =>
      (usedRegions fs st).filterMap (fun r =>
        match inRegion fs st r with
        | [] => none
        | f :: l => if f.kib == kib || f.kib == 2048 then none else some (st, r, f :: l)))
    let spare := cand.foldl (fun n c =>
      match c.2.2 with
      | [] => n
      | f :: l => n + (regionKib / Nat.max f.kib 1 - (l.length + 1)) * f.kib) 0
    let movable := cand.filter (fun c => c.2.2.all (fun f => !(openFrames.contains f)))
    match movable with
    | [] => none
    | c :: cs =>
      let best := cs.foldl (fun b x => if x.2.2.length < b.2.2.length then x else b) c
      let moving := best.2.2.filter (fun f => !((s.drt.held.get d).any (fun x => x.frame == f)))
      if spare < 524288 then none else State.emptyRegion d (best.1, best.2.1) moving s

/-! ### Allocation (R209) -/

/-- R209: how an allocation ends. -/
inductive Alloc where
  | got (f : FrameAt) (s : State)
  | waits
  | noSpace
deriving DecidableEq, Repr

/-- R230: URGENT of a die. -/
def State.setUrgent (s : State) (d : Side) (b : Bool) : State :=
  { s with drt := { s.drt with urgent := s.drt.urgent.set d b } }

/-- R209 step 1: a CLEAN page; `own` names the pages that the instruction itself writes or uses. -/
def State.evictable (s : State) (own : List Nat) (h : Nat) : Bool := (s.page h).res == .clean && !(own.contains h && s.inUse h)

/-- R209 step 3: a HOT page. -/
def State.droppable (s : State) (own : List Nat) (h : Nat) : Bool := (s.page h).res == .hot && !(own.contains h && s.inUse h)

/-- R209: steps 1 to 4 until a frame is free. A victim whose translation is in use gives up its frame only when that use ends (R85,
R220), and the allocation waits for it (State.allocWaits takes it); the instruction's own pages in use are no victims. The first
argument bounds the victims. -/
def State.makeRoom : Nat → State → Side → Nat → Nat → Option Nat → List Nat → Alloc
  | 0, _, _, _, _, _, _ => .noSpace
  | n + 1, s, d, pref, kib, excl, busy =>
    match s.takeFrame d pref kib excl with
    | some (f, s') => .got f s'
    | none =>
      match s.victim d busy (s.evictable busy) with
      | some (h, s') => if s.inUse h then .waits else State.makeRoom n (s'.evict h) d pref kib excl busy
      | none =>
        if s.frameHeld d kib || s.demoting d != 0 || (s.victim d busy s.demotable).isSome then .waits
        else
          match s.victim d busy (s.droppable busy) with
          | some (h, s') => if s.inUse h then .waits else State.makeRoom n ((s'.dropPage h).count 0x03200118) d pref kib excl busy
          | none => .noSpace

/-- R195, R197, R209: a frame of `kib` on a die; `busy` names the pages that the instruction itself writes. -/
def State.allocFrame (s : State) (d : Side) (pref kib : Nat) (excl : Option Nat) (busy : List Nat) : Alloc :=
  match s.takeFrame d pref kib excl with
  | some (f, s') => .got f s'
  | none =>
    let s := (s.compact d kib).getD s
    s.makeRoom (s.pages.length + 2) d pref kib excl busy

/-- R209 steps 1 and 2 alone: no page is dropped. -/
def State.quietRoom : Nat → State → Side → Nat → Nat → Option Nat → Alloc
  | 0, _, _, _, _, _ => .noSpace
  | n + 1, s, d, pref, kib, excl =>
    match s.takeFrame d pref kib excl with
    | some (f, s') => .got f s'
    | none =>
      match s.victim d [] (s.evictable []) with
      | some (h, s') => if s.inUse h then .waits else State.quietRoom n (s'.evict h) d pref kib excl
      | none => if s.frameHeld d kib || s.demoting d != 0 || (s.victim d [] s.demotable).isSome then .waits else .noSpace

/-- R196, R197, R209: a frame for a mirror, by compaction and by steps 1 and 2 alone. -/
def State.allocQuiet (s : State) (d : Side) (pref kib : Nat) (excl : Option Nat) : Alloc :=
  match s.takeFrame d pref kib excl with
  | some (f, s') => .got f s'
  | none => ((s.compact d kib).getD s).quietRoom (s.pages.length + 2) d pref kib excl

/-- R209, R220, R228: an allocation waits: URGENT; the CLEAN page in use that step 1 takes is evicted and its frame follows; else step 2
starts up to 16 demotions and is counted; else the HOT page in use that step 3 takes is dropped. `again`: it waited already, and has
its victim; `own`: the pages that the instruction itself uses; `quiet` (R196): it takes steps 1 and 2 alone. -/
def State.allocWaits (s : State) (d : Side) (again : Bool := false) (own : List Nat := []) (quiet : Bool := false) : State :=
  let s := s.setUrgent d true
  match s.victim d own (s.evictable own) with
  | some (h, s') => if again then s else s'.evict h
  | none =>
    if s.demoting d != 0 || (s.victim d own s.demotable).isSome then
      (if again then s else s.count 0x03200150).startDemotes 16 d own
    else if again || quiet then s
    else
      match s.victim d own (s.droppable own) with
      | some (h, s') => (s'.dropPage h).count 0x03200118
      | none => s

/-! ### New pages (R83, R88, R196) -/

/-- R205, R228: pinned page space of a die in KiB. -/
def State.pinnedKib (s : State) (d : Side) : Nat :=
  (s.pages.filter (fun q => pageDie q.1 == d && q.2.pinned)).foldl (fun n q => n + q.2.kib) 0

/-- R201, R204, R205: the hints of a page have been set: its pin is granted while the die's pinned space stays within
PIN_LIMIT, and stays granted; else the page is turned away until its hints change, with PIN_OVER (log 115). -/
def State.grantPin (s : State) (h : Nat) : State :=
  let d := pageDie h
  let p := s.page h
  if !p.pin then (s.setPage h { p with pinned := false }).relist h
  else if p.pinned then s
  else if 256 * (s.pinnedKib d + p.kib) ≤ s.drt.pinLimit.toNat * s.dieSpace d then
    (s.setPage h { p with pinned := true }).relist h
  else ({ s with drt := { s.drt with pinOver := s.drt.pinOver.set d true } }).relist h

/-- R377: pages that the context allocates are of the persistent class. -/
def State.persistNew (s : State) (c : Nat) : Bool :=
  let r := (s.ctx c).rights
  r.getLsbD 1 && r.getLsbD 3

/-- R82, R88, R204, R385: the entry of a new open page with its frames, its charge and its owner hints. -/
def State.putOpen (s : State) (h : Nat) (q : Seq) (layer kib pref : Nat) (f m : FrameAt) : State :=
  let persist := s.persistNew q.ctx
  let p : Page := {
    life := .opened, res := .hot, persistent := persist, epoch := if persist then 0 else (s.ctx q.ctx).present
    ctx := q.ctx, charged := true, refcnt := 1, pslot := q.pslot, layer := layer, primary := some f, mirror := some m
    pref := pref, kib := kib, keepCnt := if q.hints.evictOk then 0 else 1, pin := q.hints.pin, residentAt := s.now.toNat
    preferHot := q.hints.preferHot, noDemote := q.hints.noDemote }
  (((s.setPage h p).chargeCtx q.ctx 1).relist h).grantPin h

/-- R88, R196: a handle and two frames on two stacks for a page of a sequence. -/
inductive NewPage where
  | got (h : Nat) (s : State)
  | waits (left : Nat)
  | noSpace
deriving DecidableEq, Repr

/-- R79, R88, R195, R196: a new open page at logical page n of layer ℓ of the sequence with key k; it takes a handle entry. -/
def State.newOpen (s : State) (k : Nat) (layer n : Nat) (busy : List Nat) : NewPage :=
  let q := s.seq k
  let d := seqHome k
  let kib := (s.profile q.pslot).frameKib
  let pref := (seqIndex k + layer + n) % 10
  if s.handlesFull d then .noSpace
  else match s.allocFrame d pref kib none busy with
  | .waits => .waits 1
  | .noSpace => .noSpace
  | .got f s1 =>
    match s1.allocFrame d ((f.stack + 5) % 10) kib (some f.stack) busy with
    | .waits => .waits 0
    | .noSpace => .noSpace
    | .got m s2 =>
      let (no, s3) := s2.newPageNo d kib (s2.persistNew q.ctx)
      let h := pageHandle d no
      .got h (s3.putOpen h q layer kib pref f m)

/-! ### Promotion requests (R213-R216) -/

/-- R213: a request's class, demand first. -/
def PromClass.rank : PromClass → Nat
  | .demand => 0
  | .staging => 1
  | .background => 2

/-- R216, R456: a staging request finds the page resident: it is STAGED until STAGE_HOLD has passed since it became resident. -/
def State.hold (s : State) (h : Nat) : State :=
  let p := s.page h
  let till := p.residentAt + 1000 * s.drt.holdUs
  let s := if s.now.toNat < till then s.ctxEvent p.ctx 6 0 noFilter p.layer noFilter 1 else s
  s.updPage h (fun p => { p with staged := if s.now.toNat < till then some till else none, promotePending := false })

/-- R213, R214, R220, R442: a request for a page's promotion; `prio` is the class of the ring that asks for it. -/
def State.request (s : State) (h : Nat) (cls : PromClass) (dist : Nat) (prio : Nat := 64) : State :=
  let s := s.stackTreat h
  let d := pageDie h
  let p := s.page h
  let l := s.drt.reqs.get d
  if !(s.pages.has h) || p.life == .dropped || p.life == .lost then s
  else if p.resident then (if cls == .staging then s.hold h else s)
  else
    match l.find? (fun r => r.handle == h) with
    | some r =>
      let r' := { r with
        cls := if cls.rank < r.cls.rank then cls else r.cls
        dist := if cls == .staging then (if r.cls == .staging then Nat.min dist r.dist else dist) else r.dist
        prio := if cls == .demand then Nat.min prio r.prio else r.prio
        staging := r.staging || cls == .staging }
      { s with drt := { s.drt with reqs := s.drt.reqs.set d (l.map (fun x => if x.handle == h then r' else x)) } }
    | none =>
      if cls == .staging && decide (262144 ≤ (l.filter (fun r => r.cls == .staging)).length) then s.count 0x03200130
      else
        let r : PromReq := { handle := h, cls := cls, dist := dist, prio := prio, at_ := s.now.toNat, staging := cls == .staging }
        ({ s with drt := { s.drt with reqs := s.drt.reqs.set d (l ++ [r]) } }).updPage h
          (fun p => { p with promotePending := true })

/-- R201: an engine, a walker or a host load reads a page: the reference bit is set. -/
def State.touch (s : State) (h : Nat) : State := s.updPage h (fun p => { p with ref := true })

/-- R201, R216: an engine reads a page: its hold ends. -/
def State.engineRead (s : State) (h : Nat) : State :=
  s.updPage h (fun p => { p with
    ref := true
    promotePending := if p.staged.isSome then false else p.promotePending
    staged := none })

end Machine
end Sys2Proof
end

