-- ==== Sys2Proof/Machine/Hob.lean ====
section
/-! DEFINITION. How an accepted instruction issues, waits, goes on and completes (R32-R50, R440, R444). A command that
names an instruction of the table acts on the record of the journal, or on a step of the image that its CTL.CALL
runs; where the instruction may not issue yet the command has no effect (log 1). Its own checks run once, when it issues
(R32, R37); where it waits and goes on, they are not made again. -/

namespace Sys2Proof
namespace Machine

/-- What an instruction is given when it runs: where it stands, its word and its operand words as the registers make
them. -/
structure Job where
  /-- R26: ring and index. -/
  site : At := {}
  /-- R376: the ring's context. -/
  ctx : Nat := 0
  /-- R33: the instruction. -/
  inst : Inst := {}
  /-- R34: W0. -/
  w0 : BitVec 64 := 0
  /-- R34: W1. -/
  w1 : BitVec 64 := 0
  /-- R33: W2. -/
  w2 : BitVec 64 := 0
  /-- R36: LAYER as resolved. -/
  layer : BitVec 16 := 0
  /-- R49: the step, when an image runs it. -/
  step : Option Nat := none
  /-- What it waited on until now, when it has issued before. -/
  prev : Option Wait := none
  /-- What it has counted so far, when it has issued before. -/
  progress : Nat := 0
  /-- What it took when its checks passed. -/
  snap : Snap := {}
deriving DecidableEq, Repr

/-- R36: the instruction covers all layers: LAYER itself is 0xFFFF. -/
def Job.allLayers (j : Job) : Bool := j.inst.layer == 0xFFFF

/-- R36: the layers an instruction covers in a profile of n layers. -/
def Job.layersOf (j : Job) (n : Nat) : List Nat := if j.allLayers then List.range n else [j.layer.toNat]

/-- Where a call goes on after a step. -/
inductive Flow where
  | next
  | jump (step : Nat)
  | skip (n : Nat)
  | ret
deriving DecidableEq, Repr

/-- How an instruction completed. -/
structure Done where
  /-- R63: STATUS. -/
  status : Status := St.ok
  /-- R61: RESULT. -/
  result : BitVec 64 := 0
  /-- R61: DETAIL. -/
  detail : Nat := 0
  /-- R61: FORMAT_WIDENED and LIST_FULL. -/
  flags : BitVec 4 := 0
  /-- R53: DST stays as it was (a refused CTL.LOOP). -/
  keepDst : Bool := false
  /-- R47, R49, R53. -/
  flow : Flow := .next
deriving DecidableEq, Repr

/-- What running an instruction gives: it completes, it waits, or (CTL.CALL) it enters an image. -/
inductive Out where
  | done (d : Done) (s : State)
  | wait (w : Wait) (s : State)
  | enter (image : Nat) (cont : Bool) (s : State)
deriving DecidableEq, Repr

/-- R32: what an instruction's own checks, made when it issues, find: it completes at once, or it runs with what it took; where
they meet tables in the Coal store (R202) or its engine has no room (R150), it waits, and they are made then. -/
inductive Chk where
  | bad (d : Done) (s : State)
  | wait (w : Wait) (s : State)
  | good (k : Snap) (s : State)
deriving DecidableEq, Repr

/-- R32: the first failed check with its DETAIL decides, without effect. -/
def Chk.ofErr (e : Option (Status × Nat)) (s : State) (k : Snap := {}) : Chk :=
  match e with
  | some (st, d) => .bad { status := st, detail := d } s
  | none => .good k s

/-- R357: the number under which a unit's state stands that an issued instruction of a context goes on with, once the unit has left the
context's mask. -/
def keptUnit (c u : Nat) : Nat := 64 * (c + 1) + u

/-- R32: checks that only decide. -/
def checks (f : Job → State → Option (Status × Nat)) (j : Job) (s : State) : Chk := Chk.ofErr (f j s) s

/-- An instruction that checks nothing of its own, or whose run decides all of it at once. -/
def noCheck (_ : Job) (s : State) : Chk := .good {} s

/-- R36: the layer of an instruction is beyond those of a profile of n layers. -/
def Job.layerErr (j : Job) (n : Nat) : Option (Status × Nat) :=
  if !j.allLayers && n ≤ j.layer.toNat then some (St.badOperand, 0x10) else none

/-- It completes with a status and its DETAIL, without effect. -/
def fails (st : Status) (detail : Nat) (s : State) : Out := .done { status := st, detail := detail } s

/-- It completes ST_OK with a result. -/
def succeeds (result : Nat) (s : State) : Out := .done { result := BitVec.ofNat 64 result } s

/-! ### Journal records -/

/-- R33: the instruction that a record holds. -/
def JRec.inst (r : JRec) : Inst := Inst.of r.desc

/-- R407, R49: every record: the journal's, then the steps in flight. -/
def State.allRecs (s : State) : List JRec := s.jrn.recs ++ s.jrn.steps

/-- R407: the record of an accepted instruction, or of a step in flight. -/
def State.rec? (s : State) (a : At) : Option JRec :=
  s.allRecs.find? (fun r => r.site == a)

/-- R357: an instruction that has issued and waits. -/
def State.issuedBefore (s : State) (a : At) : Bool := (s.rec? a).any (fun r => r.state == .issued && r.wait.isSome)

/-- R407: every record changed by f. -/
def State.mapRecs (s : State) (f : JRec → JRec) : State :=
  { s with jrn := { s.jrn with recs := s.jrn.recs.map f, steps := s.jrn.steps.map f } }

/-- R407: a record changed. -/
def State.setRec (s : State) (x : JRec) : State :=
  s.mapRecs (fun r => if r.site == x.site then x else r)

/-- A record changed by f, where it stands. -/
def State.updRec (s : State) (a : At) (f : JRec → JRec) : State :=
  s.mapRecs (fun r => if r.site == a then f r else r)

/-- What an ISSUED instruction has counted so far, kept in its record's RESULT until it completes. -/
def State.setProgress (s : State) (a : At) (n : Nat) : State :=
  s.updRec a (fun r => { r with result := BitVec.ofNat 64 n })

/-- R407: a ring's records in acceptance order. -/
def State.ringRecs (s : State) (n : Nat) : List JRec := s.jrn.recs.filter (fun r => r.ring == n)

/-- R49: a ring's steps in flight, in the order of their fetch. -/
def State.stepRecs (s : State) (n : Nat) : List JRec := s.jrn.steps.filter (fun r => r.ring == n)

/-- R49: a CTL.CALL whose image runs. -/
def JRec.entered (r : JRec) : Bool := r.state == .issued && r.inst.opcode = 0x06

/-- R42, R49: the instructions among which a record stands: its ring's, or the steps of its ring's calls. -/
def State.window (s : State) (r : JRec) : List JRec :=
  if r.step.isSome then s.stepRecs r.ring else s.ringRecs r.ring

/-- R39: the earlier records of its window that have not completed; the calls around a step are none of them. -/
def State.openBefore (s : State) (r : JRec) : List JRec :=
  ((s.window r).takeWhile (fun e => e.site != r.site)).filter (fun e => e.state != .done && !(e.step.isSome && e.entered))

/-- The opcode of BAD_OPCODE: an unlisted one, or CTL.LOOP or CTL.RET in a ring entry (R32, R49). -/
def badOp : Nat := 0x100

/-- R32: the row of the instruction tables that an instruction is. -/
def effOp (i : Inst) (step : Option Nat) : Nat := if listed i.opcode step.isSome then i.opcode else badOp

/-- R357: an issued CHK instruction of the context, not the one at `but`, names the unit. -/
def State.unitNamed (s : State) (c u : Nat) (but : Option At := none) : Bool :=
  s.allRecs.any (fun r => some r.site != but && r.ctx == c && r.state == .issued && r.wait.isSome && decide (0x90 ≤ effOp r.inst r.step) &&
    decide (effOp r.inst r.step ≤ 0x93) && bits r.word0.toNat 0 6 == u)

/-- The job of a record's instruction: its words and its layer are read at issue and stay (R34-R36). -/
def State.job (s : State) (r : JRec) : Job :=
  let g := s.ring r.ring
  let i := r.inst
  let kept := r.state == .issued && r.wait.isSome
  { site := r.site, ctx := r.ctx, inst := i
    w0 := if kept then r.word0 else i.word0 g
    w1 := if kept then r.word1 else i.word1 g
    w2 := i.w2
    layer := if kept then r.layerNow else i.layerOf g
    step := if r.step.isSome then some r.pc else none
    prev := r.wait
    progress := if kept then r.result.toNat else 0
    snap := r.snap }

/-- R41: the footprint of a job. -/
def State.jobFootprint (s : State) (j : Job) : List Obj × List Obj :=
  s.footprint j.ctx j.inst j.w0 j.w1 j.w2 j.layer

/-! ### When an instruction may issue -/

/-- R39, R43: a register of the list is PENDING, or an earlier instruction that has not issued will write it. -/
def Ring.unset (g : Ring) (earlier : List JRec) (regs : List Nat) : Bool :=
  regs.any (fun n => g.isPending n) ||
    earlier.any (fun e => e.state == .accepted && e.inst.dst != 0 && regs.contains e.inst.dst)

/-- R39: the registers allow it: what it reads is known, and no earlier unissued instruction reads or writes its DST. -/
def Ring.regsFree (g : Ring) (earlier : List JRec) (i : Inst) : Bool :=
  !(g.unset earlier i.reads) &&
    (i.dst == 0 ||
      (!(g.isPending i.dst) &&
        earlier.all (fun e => e.state != .accepted || !(e.inst.reads.contains i.dst || e.inst.dst == i.dst))))

/-- R18, R41: an accepted instruction's descriptor lies where an earlier one that has not completed still writes, so its footprint is not
yet known (log 22). -/
def State.unsettled (s : State) (e : JRec) (reads : List Obj) : Bool :=
  let mem : Obj → Bool := fun x => match x with
    | .granule _ => true
    | _ => false
  tableOps.contains e.inst.opcode && (s.openBefore e).any (fun x =>
    let w := if x.state == .issued then x.writes else (s.jobFootprint (s.job x)).2
    w.any (fun o => reads.any (fun p => (mem p || e.inst.opcode = 0x53) && o.meets p)))

/-- R20, R41: no earlier uncompleted instruction of its ring has a conflicting footprint; one whose operand words or descriptor are not yet
known is taken to conflict (log 22). -/
def State.footFree (s : State) (earlier : List JRec) (j : Job) : Bool :=
  let (r, w) := s.jobFootprint j
  (r.isEmpty && w.isEmpty) ||
    earlier.all (fun e =>
      if e.state == .issued then !(footprintsConflict e.reads e.writes r w)
      else if (s.ring e.ring).unset (s.openBefore e) e.inst.operandRegs then false
      else
        let (r', w') := s.jobFootprint (s.job e)
        !(footprintsConflict r' w' r w) && !(s.unsettled e r'))

/-- R45, R47, R49: an instruction that later ones do not pass: CTL.FENCE, CTL.SKIPIF (log 23), CTL.CALL. -/
def isBarrier (op : Nat) : Bool := op = 0x01 || op = 0x04 || op = 0x06

/-- R39, R41, R45: what holds an accepted instruction, apart from the part's own state. -/
def State.unheld (s : State) (r : JRec) : Bool :=
  let i := r.inst
  let earlier := s.openBefore r
  earlier.all (fun e => !(isBarrier e.inst.opcode)) &&
    (earlier.isEmpty || !(i.fn || i.opcode = 0x01 || i.opcode = 0x06)) &&
    (s.ring r.ring).regsFree earlier i && s.footFree earlier (s.job r)

/-- R440: the ring's present issue window has room. -/
def Ring.windowOpen (g : Ring) : Bool :=
  match g.booking with
  | none => true
  | some b => g.issued < b.demand.issue

/-- R91: it names a sequence that is TRUNCATING. -/
def State.truncHeld (s : State) (j : Job) : Bool :=
  (s.namesOf j.ctx j.inst.opcode j.w0).any (fun k => (s.seq k).state == .truncating)

/-- R491, R486: the engines of a die are not paused. -/
def State.dieRuns (s : State) (d : Side) : Bool := s.running && (s.pkg.thermalPause.get d).isNone

/-- R8, R57: the dies on whose engines an instruction runs: an attention instruction on the home dies of its sequences, any
other on its ring's. -/
def siteDies (op : Nat) (names : List Nat) (home : Side) : List Side :=
  if (op = 0x50 || op = 0x51 || op = 0x53) && !names.isEmpty then (names.map seqHome).eraseDups else [home]

/-- R8: the dies on which an ISSUED instruction runs. -/
def State.diesOf (s : State) (r : JRec) : List Side := siteDies r.inst.opcode r.names (s.ring r.ring).home

/-- R8, R491: the engines of every die on which an instruction runs are not paused. -/
def State.diesRun (s : State) (ds : List Side) : Bool := s.running && ds.all s.dieRuns

/-- R8: the dies on which a job would run. -/
def State.jobDies (s : State) (j : Job) : List Side :=
  siteDies j.inst.opcode (s.namesOf j.ctx j.inst.opcode j.w0) (s.ring j.site.ring).home

/-- R8: the dies on which a record's instruction runs, or would run. -/
def State.recDies (s : State) (r : JRec) : List Side := if r.state == .issued then s.diesOf r else s.jobDies (s.job r)

/-- R32-R45, R49, R91, R440: an accepted instruction, or a fetched step, may issue; the queue of its engine always has room (log 131). -/
def State.issuable (s : State) (r : JRec) : Bool :=
  r.state == .accepted && s.diesRun (s.jobDies (s.job r)) &&
    decide ((((s.window r).takeWhile (fun e => e.site != r.site)).filter (fun e => e.state == .accepted)).length < 64) &&
    decide (((s.ringRecs r.ring ++ s.stepRecs r.ring).filter (fun e => e.state == .issued)).length < 32) &&
    s.unheld r && (s.ring r.ring).windowOpen && !(s.ring r.ring).rebound && !(s.truncHeld (s.job r))

/-- R44: the ring has a ready instruction. -/
def State.ready (s : State) (n : Nat) : Bool :=
  (s.ringRecs n ++ s.stepRecs n).any s.issuable

/-! ### Stokers (R44) -/

/-- R44: number of a ring's Stoker: home die × 8 + Stoker. -/
def Ring.stokerKey (g : Ring) : Nat := g.home.num * 8 + g.stoker

/-- R44, R508: the weight of a class. -/
def State.weight (s : State) (c : Nat) : Nat := s.gbl.weights.lookD c (if c < 4 then 0 else 1)

/-- The first of an ascending list above x, or its least. -/
def nextAfter (x : Nat) (l : List Nat) : Option Nat :=
  match l.find? (fun y => x < y) with
  | some y => some y
  | none => l.head?

/-- R44: the class that Stoker K serves next, of the classes (ascending) that have a ready instruction. -/
def State.stokerClass (s : State) (K : Nat) (cs : List Nat) : Option Nat :=
  match cs.find? (· < 4) with
  | some c => some c
  | none =>
    let ws := cs.filter (fun c => s.weight c != 0)
    let t := s.gbl.issueTurn.lookD K 3
    if ws.contains t && s.gbl.issueLeft.lookD (K * 64 + t) 0 != 0 then some t
    else if ws.isEmpty then nextAfter t cs else nextAfter t ws

/-- R44: the ring that Stoker K serves next. -/
def State.stokerRing (s : State) (K : Nat) : Option Nat :=
  let rs := s.rings.keys.filter (fun n => (s.ring n).stokerKey == K && s.ready n)
  let cs := (rs.map (fun n => (s.ring n).cls.toNat)).foldl insNat []
  match s.stokerClass K cs with
  | none => none
  | some c => nextAfter (s.gbl.issueLast.lookD (K * 64 + c) 65536) (rs.filter (fun n => (s.ring n).cls.toNat == c))

/-- R44: what serving ring n changes of its Stoker's turns. -/
def State.served (s : State) (n : Nat) : State :=
  let K := (s.ring n).stokerKey
  let c := (s.ring n).cls.toNat
  let g := { s.gbl with issueLast := s.gbl.issueLast.put (K * 64 + c) n }
  if c < 4 then { s with gbl := g }
  else
    let left := g.issueLeft.lookD (K * 64 + c) 0
    let left' := if g.issueTurn.lookD K 3 = c && left != 0 then left - 1 else s.weight c - 1
    { s with gbl := { g with issueTurn := g.issueTurn.put K c, issueLeft := g.issueLeft.put (K * 64 + c) left' } }

/-! ### Completion -/

/-- R38-R40: DST written at completion: the result, or zero and poison; a skipped instruction leaves it. -/
def State.writeDst (s : State) (n : Nat) (i : Inst) (d : Done) : State :=
  let g := s.ring n
  let old := g.regs.getD i.dst {}
  if i.dst = 0 || d.status == St.skipped then s
  else if d.keepDst then s.setRing n (g.setReg i.dst { old with pending := false })
  else if Status.success d.status then s.setRing n (g.setReg i.dst { val := d.result })
  else s.setRing n (g.setReg i.dst { val := 0, poison := true })

/-- R78: an instruction that named these sequences has completed. -/
def State.unname (s : State) (ks : List Nat) : State :=
  ks.foldl (fun s k => s.setSeq k { s.seq k with inflight := (s.seq k).inflight - 1 }) s

/-- R444: the waits that are left out of the latency: stalls on pages and their tables (R163), CTL.WAIT, FLUE.WAIT, FLUE.SEND. -/
def Wait.stalls : Wait → Bool
  | .event .. | .inbound .. | .pages .. | .expired .. | .tables .. | .sent .. => true
  | _ => false

/-- R444: the ns left out of the latency so far, those of the present wait among them. -/
def JRec.excludedNow (r : JRec) (now : Nat) : Nat :=
  match r.waitFrom with
  | some t => r.excluded + (now - t)
  | none => r.excluded

/-- R444: an instruction waits: the excluded time runs from the first excluded wait on; that of a FLUE.SEND from the transmission of
its last packet (`frameLeft`). -/
def JRec.hold (r : JRec) (w : Wait) (now : Nat) : JRec :=
  if w.stalls && (r.wait.map Wait.stalls).getD false then { r with wait := some w }
  else
    let sends : Bool := match w with
      | .sent .. => true
      | _ => false
    { r with wait := some w, excluded := r.excludedNow now, waitFrom := if w.stalls && !sends then some now else none }

/-- R444, R508: the latency bound of a ring's class in ns, for a booked ring. -/
def State.boundNs (s : State) (n : Nat) : Nat :=
  if (s.ring n).booking.isSome then 1000 * s.gbl.bounds.lookD (s.ring n).cls.toNat 0 else 0

/-- R62, R444: ns for which a ring's completion ring has been full. -/
def Ring.fullNs (g : Ring) (now : Nat) : Nat :=
  match g.cqFullAt with
  | some t => g.cqFullNs + (now - t)
  | none => g.cqFullNs

/-- R62, R444: ns that a record which is DONE has waited for room in the completion ring. -/
def State.roomWait (s : State) (r : JRec) : Nat :=
  if r.state == .done then (s.ring r.ring).fullNs s.now.toNat - r.cqFrom else 0

/-- R444: what has run since R39, R41 and R45 stopped holding it exceeds the bound. -/
def State.lateNow (s : State) (r : JRec) : Bool :=
  match r.freeAt with
  | none => false
  | some t =>
    let b := s.boundNs r.ring
    b != 0 && b < s.now.toNat - t - r.excludedNow s.now.toNat - s.roomWait r

/-- R47: a record completed ST_SKIPPED, R45: ST_CANCELLED, and the like: without having run. -/
def JRec.ended (r : JRec) (st : Status) (now : BitVec 64) : JRec :=
  { r with state := .done, status := st, time := now, wait := none, uses := [] }

/-- R456: these instructions have completed without having run. -/
def State.noteEnded (s : State) (rs : List JRec) : State :=
  rs.foldl (fun s r => s.ctxEvent r.ctx 0x01 0 r.ring r.layer.toNat r.inst.opid.toNat 1) s

/-- R40, R45, R403: an accepted instruction completes without having run: its DST is zero and POISONED. -/
def State.void (s : State) (r : JRec) (st : Status) : State :=
  ((s.writeDst r.ring r.inst { status := st }).setRec (r.ended st s.now)).noteEnded [r]

/-- R47: the first n accepted records of the ring beyond index x completed ST_SKIPPED; answers what is left of n. -/
def skipRecs (ring : Nat) (x : BitVec 32) (now : BitVec 64) : List JRec → Nat → Bool → List JRec × Nat
  | [], n, _ => ([], n)
  | r :: rs, n, past =>
    if r.ring != ring then
      let (rs', m) := skipRecs ring x now rs n past
      (r :: rs', m)
    else if past && n != 0 && r.state == .accepted then
      let (rs', m) := skipRecs ring x now rs (n - 1) past
      (r.ended St.skipped now :: rs', m)
    else
      let (rs', m) := skipRecs ring x now rs n (past || r.index == x)
      (r :: rs', m)

/-- R61, R407, R444: the record of an instruction that completed. -/
def JRec.completed (r : JRec) (d : Done) (now : BitVec 64) : JRec := { r with
  state := .done, status := d.status, result := d.result, detail := BitVec.ofNat 32 d.detail
  cflags := d.flags ||| (if r.resumed then Fl.resumed else 0) ||| (if r.stepLate then Fl.late else 0)
  time := now, names := [], excluded := r.excludedNow now.toNat, wait := none, waitFrom := none, uses := [], checked := false
  passed := false, snap := {} }

/-- R456: the events of a completion. -/
def State.noteDone (s : State) (r : JRec) (i : Inst) (d : Done) : State :=
  let s := s.ctxEvent r.ctx 0x01 0 r.ring r.layer.toNat i.opid.toNat 1
  if d.status == St.recompute || d.status == St.mediaLost then
    s.ctxEvent r.ctx 0x08 0 r.ring r.layer.toNat i.opid.toNat 1
  else s

/-- R45: the first failed index since the last CTL.FENCE is kept: that of the entry accepted first, of those that have
completed (log 112). -/
def Ring.noteFail (g : Ring) (i : Inst) (d : Done) (index : BitVec 32) : Ring :=
  if Status.success d.status || i.opcode = 0x01 then g
  else match g.failed with
    | none => { g with failed := some index }
    | some x => if (index - x).toNat < 2 ^ 31 then g else { g with failed := some index }

/-- R47: the accepted records beyond a taken CTL.SKIPIF complete ST_SKIPPED; the ring keeps what is left of the count. -/
def State.skipOn (s : State) (r : JRec) (d : Done) : State :=
  match d.flow with
  | .skip n =>
    let (rs, left) := skipRecs r.ring r.index s.now s.jrn.recs n false
    let gone := rs.filter (fun e => e.ring == r.ring && e.state == .done &&
      s.jrn.recs.any (fun e0 => e0.site == e.site && e0.state == .accepted))
    (({ s with jrn := { s.jrn with recs := rs } }).setRing r.ring { s.ring r.ring with skip := left }).noteEnded gone
  | _ => s

/-- R444: the record of a ring entry that completed, with the time its completion ring had been full until then. -/
def State.doneRec (s : State) (r : JRec) (d : Done) : JRec :=
  { r.completed d s.now with cqFrom := (s.ring r.ring).fullNs s.now.toNat }
/-- R39, R45, R47, R61, R407: the record of a ring entry becomes DONE. -/
def State.finishRing (s : State) (r : JRec) (i : Inst) (d : Done) : State :=
  let s := (((s.writeDst r.ring i d).unname r.names).setRec (s.doneRec r d)).noteDone r i d
  (s.setRing r.ring ((s.ring r.ring).noteFail i d r.index)).skipOn r d

/-! ### Images (R49, R50) -/

/-- R48: the steps of an image. -/
def State.imageSteps (s : State) (im : Nat) : List (BitVec 256) := ((s.images.look im).map (·.steps)).getD []

/-- R49: a step whose completion decides which step comes next: CTL.SKIPIF, CTL.LOOP, CTL.CALL, CTL.RET. -/
def decidesFlow (op : Nat) : Bool := 0x04 ≤ op && op ≤ 0x07

/-- R49: nothing is fetched beyond a step that decides the flow, until it has completed. -/
def JRec.holdsFetch (r : JRec) : Bool := decidesFlow r.inst.opcode && !r.entered

/-- R42, R49: the steps of a ring's running image are fetched, in order, into its window of 64 (log 20). -/
def State.fetch : Nat → State → Nat → BitVec 32 → Nat → State
  | 0, s, _, _, _ => s
  | k + 1, s, n, index, c =>
    let g := s.ring n
    match g.calls with
    | [] => s
    | f :: fs =>
      match (s.imageSteps f.image)[f.pc]? with
      | none => s
      | some w =>
        let st := s.stepRecs n
        if f.stop || st.any JRec.holdsFetch || 64 ≤ (st.filter (fun e => e.state == .accepted)).length then s
        else
          let r : JRec := { step := some g.fetched, pc := f.pc, desc := w, index := index, ring := n, ctx := c, layer := (Inst.of w).layer }
          let s := { s with jrn := { s.jrn with steps := s.jrn.steps ++ [r] } }
          State.fetch k (s.setRing n { g with fetched := g.fetched + 1, calls := { f with pc := f.pc + 1 } :: fs }) n index c

/-- R49: the call around the steps of a ring: the CTL.CALL step that was entered last, or its ring entry. -/
def State.caller (s : State) (n : Nat) : Option JRec :=
  match ((s.stepRecs n).filter JRec.entered).getLast? with
  | some r => some r
  | none => (s.ringRecs n).find? JRec.entered

/-- R49: a ring's innermost call whose image has no further step and none in flight: its record, how it completes, and the
state without it. -/
def State.callOver (s : State) (n : Nat) : Option (JRec × Done × State) :=
  let g := s.ring n
  match g.calls, s.caller n with
  | f :: fs, some c =>
    if (!f.stop && decide (f.pc < (s.imageSteps f.image).length)) || (s.stepRecs n).any (fun e => !e.entered) then none
    else
      let d : Done := match f.first with
        | none => { result := BitVec.ofNat 64 f.executed }
        | some (st, step, det) => { status := BitVec.ofNat 8 st, detail := step * 2 ^ 20 + Nat.min det 0xFFFFF }
      some (c, d, s.setRing n { g with calls := fs })
  | _, _ => none

/-- R50, R444: a step of a call has completed, and so have those it skips; the call's record counts them, and it is late when
a step was. -/
def State.noteStep (s : State) (r : JRec) (steps : Nat) : State :=
  let late := s.lateNow r
  s.updRec { ring := r.ring, index := r.index } (fun c => { c with
    detail := c.detail + BitVec.ofNat 32 steps, stepLate := c.stepLate || late || r.stepLate, resumed := c.resumed || r.resumed })

/-- R47, R49, R50: a step of the ring's innermost image completed. A failed one ends the call, unless CONTINUE is set: the steps
that have not issued are dropped and those that run come to their end (log 20). RESULT of the outer call counts a nested CTL.CALL as one
step (log 130). -/
def State.endStep (s : State) (r : JRec) (i : Inst) (d : Done) : State :=
  let n := r.ring
  let s := (s.writeDst n i d).unname r.names
  let s := { s with jrn := { s.jrn with steps := s.jrn.steps.filter (fun e => e.site != r.site) } }
  match (s.ring n).calls with
  | [] => s.noteStep r 1
  | f :: fs =>
    let len := (s.imageSteps f.image).length
    let bad := !(Status.success d.status)
    let ends := bad && !f.cont
    let skipped := match d.flow with
      | .skip k => Nat.min k (len - f.pc)
      | _ => 0
    let f' : Frame := { f with
      executed := f.executed + 1
      first := if bad && f.first.isNone then some (d.status.toNat, r.pc, d.detail) else f.first
      stop := f.stop || ends || d.flow == .ret
      pc := match d.flow with
        | .jump t => t
        | _ => f.pc + skipped }
    let s := (s.noteStep r (1 + skipped)).setRing n { s.ring n with calls := f' :: fs }
    if ends then
      { s with jrn := { s.jrn with steps := s.jrn.steps.filter (fun e => !(e.ring == n && e.state == .accepted)) } }
    else s

/-- R39-R50: the instruction of a record completed; a call whose image has ended completes in turn. The first argument bounds
the nesting (R49: at most 4 calls). -/
def State.finishRec : Nat → State → JRec → Done → State
  | 0, s, _, _ => s
  | k + 1, s, r, d =>
    if r.step.isNone then s.finishRing r r.inst d
    else
      let s := s.endStep r r.inst d
      match s.callOver r.ring with
      | none => s.fetch 64 r.ring r.index r.ctx
      | some (c, d', s') => State.finishRec k s' c d'

/-- R38-R50: the instruction that a record stands at completed. -/
def State.finishAt (s : State) (a : At) (d : Done) : State :=
  match s.rec? a with
  | none => s
  | some r => (s.finishRec 6 r d).endUses r.uses

/-- R382: a MAC failure that ended an instruction is counted. -/
def State.countFailure (s : State) (st : Status) : State :=
  if st == St.integrity then (s.count 0x00100100).countAo 0x03800128
  else if st == St.uncorrectable then s.countAo 0x03800128 else s

/-- R456: bytes of the Hearth tier that an instruction reads and writes (log 133). -/
def State.hearthBytes (s : State) (j : Job) (n : Nat) : State :=
  s.ctxEvent j.ctx 4 0 j.site.ring j.layer.toNat j.inst.opid.toNat n

/-- R38-R50, R382: the instruction at a record completed. -/
def State.finish (s : State) (a : At) (d : Done) : State := (s.countFailure d.status).finishAt a d

/-- R49: an issued CTL.CALL enters its image: its first steps are fetched; an image without a step ends at once. -/
def State.enter (s : State) (a : At) (im : Nat) (cont : Bool) : State :=
  let g := s.ring a.ring
  let s := s.setRing a.ring { g with
    calls := { image := im, cont := cont } :: g.calls, fetched := if g.calls.isEmpty then 0 else g.fetched }
  let s := s.updRec a (fun r => { r with wait := none })
  match s.callOver a.ring with
  | some (c, d, s') => s'.finish c.site d
  | none => s.fetch 64 a.ring a.index (((s.rec? a).map (·.ctx)).getD 0)

/-- What an instruction's run makes of its record. -/
def settle (a : At) : Out → State
  | .done d s => s.finish a d
  | .wait w s => s.updRec a (fun r => r.hold w s.now.toNat)
  | .enter im cont s => s.enter a im cont

/-- R444: the moment at which R39, R41 and R45 stopped holding an instruction of a booked ring is kept. -/
def State.markFree (s : State) : State :=
  s.mapRecs (fun r =>
    if r.state == .accepted && r.freeAt.isNone && (s.ring r.ring).booking.isSome && s.unheld r
    then { r with freeAt := some s.now.toNat } else r)

/-- R32, R40: what an instruction meets before its own checks: a POISONED source, its opcode, its reserved fields.
Which of several POISONED sources DETAIL names, and that W1 is reported before a MIN_FORMAT, are the model's choices (log 140). -/
def State.preCheck (s : State) (j : Job) : Option Done :=
  let g := s.ring j.site.ring
  match (j.inst.reads.filter (fun n => g.isPoison n)).foldl insNat [] with
  | n :: _ => some { status := St.sourceFailed, detail := n }
  | [] =>
    if !(listed j.inst.opcode j.step.isSome) then some { status := St.badOpcode }
    else
      match j.inst.reservedErr j.w0 j.w1 with
      | some o => some { status := St.badReserved, detail := o }
      | none => none

/-- R78: INFLIGHT of these sequences rises: an instruction that names them issues. -/
def State.name (s : State) (ks : List Nat) : State :=
  ks.foldl (fun s k => s.setSeq k { s.seq k with inflight := (s.seq k).inflight + 1 }) s

/-- R39, R440: the DST of an instruction that issues is PENDING, and the ring's window counts it. -/
def State.startRing (s : State) (n dst : Nat) : State :=
  let g := s.ring n
  s.setRing n { (g.setReg dst { (g.regs.getD dst {}) with pending := true }) with issued := g.issued + 1 }

/-- R39, R41, R407: the record of an instruction that issues. -/
def JRec.started (r : JRec) (j : Job) (names : List Nat) (foot : List Obj × List Obj) : JRec :=
  { r with
    names := names, wait := some .run, result := 0, word0 := j.w0, word1 := j.w1, layerNow := j.layer, state := .issued
    layer := j.layer, reads := foot.1, writes := foot.2, detail := 0, uses := [], checked := false, passed := false, snap := {} }

/-- R458, R461: what the issue of an instruction restarts and traces. -/
def State.noteIssue (s : State) (r : JRec) (j : Job) : State :=
  let i := j.inst
  let g := s.ring r.ring
  let s := if 0xA0 ≤ i.opcode && i.opcode ≤ 0xA2 then s
    else s.ctxReset r.ctx r.ring j.layer.toNat i.opid.toNat r.index.toNat
  s.trace g.home { type := 2, cls := 2, unit := g.stoker, ctx := some r.ctx, ring := r.ring, layer := j.layer.toNat,
                   opid := i.opid.toNat, index := r.index.toNat, arg := i.opcode }

/-- R78, R91, R92: the sequences that an issuing instruction names; SEQ.DESTROY and SEQ.TRUNC do not count themselves. -/
def State.issueNames (s : State) (j : Job) : List Nat :=
  if j.inst.opcode = 0x11 || j.inst.opcode = 0x12 then [] else s.namesOf j.ctx j.inst.opcode j.w0

/-- R39-R42, R78, R407, R440: an instruction issues: its record becomes ISSUED, its DST PENDING, its footprint fixed. -/
def State.issue (s : State) (r : JRec) : State :=
  let j := s.job r
  let names := s.issueNames j
  (((((s.served r.ring).name names).startRing r.ring j.inst.dst).setRec (r.started j names (s.jobFootprint j))).noteIssue r j)

/-! ### Shared regions (R282, R283) -/

/-- R282: the lines that the snoop filters of the two heads track, with whether a host owns them. -/
def State.tracked (s : State) : List (Nat × Bool) :=
  (s.cxp.head.w.sf ++ s.cxp.head.e.sf).map (fun e => (e.line, e.owned))

/-- R283: the tracked lines of a range of memory. -/
def trackedIn (ls : List Nat) (a n : Nat) : List Obj :=
  (ls.filter (fun l => decide (a < 64 * l + 64) && decide (64 * l < a + n))).map .granule

/-- The line numbers of objects that stand for lines. -/
def lineNos (os : List Obj) : List Nat := os.filterMap (fun o => match o with
  | .granule l => some l
  | _ => none)

/-- R283: the lines that an instruction may use only after their holders have answered: those it writes and any host
holds, and those it reads and a host owns. -/
def State.snoopLines (s : State) (c : Nat) (i : Inst) (w0 w1 w2 : BitVec 64) (layer : BitVec 16) : List Nat :=
  let t := s.tracked
  if t.isEmpty then []
  else
    let wr := (s.footprintBy (trackedIn (t.map (·.1))) c i w0 w1 w2 layer).2
    let rd := (s.footprintBy (trackedIn ((t.filter (·.2)).map (·.1))) c i w0 w1 w2 layer).1
    (lineNos wr ++ lineNos rd).foldl insNat []

/-- R279, R283: the holders of `mask` that a snoop of a line would go to, those that are being snooped left out. -/
def SfEntry.toSnoop (e : SfEntry) (mask : BitVec 16) : BitVec 16 := e.holders &&& mask &&& ~~~ e.target

/-- R283, R284, R292: an entry once its holders of `mask` have been snooped. -/
def SfEntry.snooped (e : SfEntry) (now : Nat) (mask : BitVec 16) (cause : Option Ld) : SfEntry :=
  if e.toSnoop mask = 0 then e
  else { e with
    target := e.target ||| e.toSnoop mask, snoopAt := some (e.snoopAt.getD now)
    lastSnoop := if e.snoopAt.isSome then e.lastSnoop else now, cause := if e.snoopAt.isSome then e.cause else cause }

/-- R279, R283: snoops of lines sent to their holders of `mask` on one head, counted. -/
def State.snoop (s : State) (head : Side) (ls : List Nat) (mask : BitVec 16) (cause : Option Ld) : State :=
  let h := s.cxp.head.get head
  let fresh := (h.sf.filter (fun e => ls.contains e.line && e.toSnoop mask != 0)).length
  let now := s.now.toNat
  let sf : List SfEntry := h.sf.map (fun e => if ls.contains e.line then e.snooped now mask cause else e)
  ({ s with cxp := { s.cxp with head := s.cxp.head.set head { h with sf := sf } } }).count 0x03400118 fresh

/-- R283: snoops of these lines sent to every holder on both heads, for the part's engines. -/
def State.sendSnoops (s : State) (ls : List Nat) : State :=
  (s.snoop .west ls 0xFFFF none).snoop .east ls 0xFFFF none

/-- R283: the lines of n bytes from a on whose holders must answer before the part writes them, or reads them. -/
def State.heldLines (s : State) (a n : Nat) (write : Bool) : List Nat :=
  (((s.tracked.filter (fun t => write || t.2)).map (·.1)).filter (fun l => decide (a < 64 * l + 64) && decide (64 * l < a + n))).foldl
    insNat []

/-- R283, R358: the lines of its own granules that an instruction reads and a host owns: its checks read what the host answers. -/
def State.readSnoop (s : State) (j : Job) : List Nat :=
  let own := (s.tracked.filter (fun t => t.2 && s.owns j.ctx (64 * t.1) 64)).map (·.1)
  if own.isEmpty then []
  else match j.prev with
    | none => lineNos (s.footprintBy (trackedIn own) j.ctx j.inst j.w0 j.w1 j.w2 j.layer).1
    | some (.snoop _) => lineNos (s.footprintBy (trackedIn own) j.ctx j.inst j.w0 j.w1 j.w2 j.layer).1
    | _ => []

/-- R283: an instruction waits for the snoops it needs, unless its effect has begun. -/
def State.snoopWait (s : State) (j : Job) : Option Out :=
  match j.prev with
  | some (.expired _) => none
  | some (.sent ..) => none
  | _ =>
    match s.snoopLines j.ctx j.inst j.w0 j.w1 j.w2 j.layer with
    | [] => none
    | l :: ls => some (.wait (.snoop (l :: ls)) (s.sendSnoops (l :: ls)))

/-- An instruction that has passed its checks: it waits for snoops, or runs. -/
def State.runBody (s : State) (j : Job) (body : Job → State → Out) : Out :=
  match s.snoopWait j with
  | some o => o
  | none => body j s

/-- R32: what an instruction took when its checks passed is kept in its record. -/
def State.keepSnap (s : State) (a : At) (k : Snap) : State := s.updRec a (fun r => { r with snap := k, checked := true })

/-- R85: the pages whose translations an instruction that waits goes on using. -/
def State.use (s : State) (a : At) (hs : List Nat) : State := s.updRec a (fun r => { r with uses := hs })

/-- R283: its checks have passed, and are made again after the snoops that it waits for. -/
def State.passOnce (s : State) (a : At) (k : Snap) : State := s.updRec a (fun r => { r with snap := k, passed := true })

/-- R32: what the checks that just passed took; where they passed before, what they took then. -/
def State.keptSnap (s : State) (a : At) (k : Snap) : Snap :=
  match s.rec? a with
  | some r => if r.passed then r.snap else k
  | none => k

/-- R32, R283: an instruction's own checks, then its run; where a host owns what it reads, they are made again after the snoop. -/
def State.proceed (s : State) (a : At) (j : Job) (check : Job → State → Chk) (body : Job → State → Out) : Out :=
  match check j s with
  | .bad d s' =>
    match s.readSnoop j with
    | [] => .done d s'
    | l :: ls => .wait (.snoop (l :: ls)) (s.sendSnoops (l :: ls))
  | .wait w s' => .wait w s'
  | .good k s' =>
    let k := s.keptSnap a k
    match s'.snoopWait j with
    | some (.wait w t) => .wait w (t.passOnce a k)
    | _ => body { j with snap := k } (s'.keepSnap a k)

/-- R283: an instruction that goes on: one whose checks had not passed when it began to wait for snoops makes them as it did at its
issue. -/
def State.resumeJob (s : State) (r : JRec) : Job :=
  match r.wait with
  | some (.snoop _) => if r.passed then s.job r else { s.job r with prev := none }
  | _ => s.job r

/-- R32-R50: an instruction that issues: R32's checks and its own in their order, then its run. -/
def State.begin (s : State) (r : JRec) (check : Job → State → Chk) (body : Job → State → Out) : State :=
  let j := { s.job r with prev := none }
  let s1 := s.issue r
  match s.preCheck j with
  | some d => s1.finish r.site d
  | none =>
    settle r.site (s1.proceed r.site j check body)

/-- R32-R50: a command for an instruction of row `op`: it issues when it may and it is its Stoker's turn (R44), or goes on
when it has issued; otherwise nothing happens. -/
def runHob (op : Nat) (a : At) (check : Job → State → Chk) (body : Job → State → Out) (s : State) : State :=
  match s.rec? a with
  | none => s
  | some r =>
    if effOp r.inst r.step ≠ op then s
    else if s.issuable r then
      if s.stokerRing (s.ring a.ring).stokerKey = some a.ring then (s.begin r check body).markFree else s
    else if r.state == .issued && r.wait.isSome && s.diesRun (s.diesOf r) then
      (settle a (if r.checked then s.runBody (s.job r) body else s.proceed a (s.resumeJob r) check body)).markFree
    else s

/-- The ISSUED instructions whose waits `f` ends complete as it says. -/
def State.finishWaits (s : State) (f : JRec → Wait → Option Done) : State :=
  (s.allRecs.foldl (fun s r =>
    match r.wait with
    | some w =>
      match f r w with
      | some d => if r.state == .issued then s.finish r.site d else s
      | none => s
    | none => s) s).markFree

/-! ### Events (R46) -/

/-- R46: the count of an event. -/
def State.event (s : State) (c e : Nat) : BitVec 64 := (s.ctx c).events.lookD e 0

/-- R46: the waits of an event whose threshold it has reached complete, with the count. -/
def State.releaseEvent (s : State) (c e : Nat) : State :=
  s.allRecs.foldl (fun s r =>
    match r.wait with
    | some (.event e' th _) =>
      if r.state == .issued && r.ctx == c && e' == e && th ≤ s.event c e
      then s.finish r.site { result := s.event c e } else s
    | _ => s) s

/-- R46: an event is set or added to (modulo 2^64), and releases its waits. -/
def State.signal (s : State) (c e : Nat) (v : BitVec 64) (set : Bool) : State :=
  let x := s.ctx c
  let n := if set then v else s.event c e + v
  (s.setCtx c { x with events := if n = 0 then x.events.del e else x.events.put e n }).releaseEvent c e

end Machine
end Sys2Proof
end

