-- ==== Sys2Proof/Machine/Damper.lean ====
section
/-! DEFINITION. The Damper (R338-R352): classifier, policers, the ingress path, and each port's egress queue with its
scheduler and gates. -/

namespace Sys2Proof
namespace Machine

/-- R307: the priority of a class. -/
def State.prioOf (s : State) (cls : Nat) : Nat := if cls < 4 then 7 - cls else s.flu.wpcp.toNat

/-- R339: counted length of a frame of n bytes. -/
def State.counted (s : State) (n : Nat) : Nat := n + s.dmp.overhead

/-! ### The classifier (R345, R346) -/

/-- R345: the lookup key of a packet. -/
def clsKey (conn ctx cls type dir port : Nat) (final resend : Bool) (raddr : Nat) : BitVec 256 :=
  BitVec.ofNat 256 (conn + ctx * 2 ^ 15 + cls * 2 ^ 27 + type * 2 ^ 33 + dir * 2 ^ 37 + port * 2 ^ 38
    + b2n final * 2 ^ 39 + b2n resend * 2 ^ 40 + raddr * 2 ^ 64)

/-- R346: what the classifier makes of a packet. -/
structure Verdict where
  /-- R346: the new class, where SETCLASS is set. -/
  cls : Option Nat := none
  /-- R346: DROP. -/
  drop : Bool := false
  /-- R346: MARK. -/
  mark : Bool := false
deriving DecidableEq, Repr

/-- R346: the RESULT word of the winning entry on a die, or no effect; the lookup is counted (R129). -/
def State.classify (s : State) (d : Side) (key : BitVec 256) : Verdict × State :=
  match s.domSearch d .classifier key with
  | (none, s) => ({}, s)
  | (some ((_, e), _), s) =>
    let v := e.result.toNat
    ({ cls := if bitOf v 6 then some (bits v 0 6) else none, drop := bitOf v 7, mark := bitOf v 8 }, s)

/-- R308: flags of a packet. -/
def pktFinal (p : Packet) : Bool := p.flags.getLsbD 0
/-- R309. -/
def pktRelaxed (p : Packet) : Bool := p.flags.getLsbD 1
/-- R309. -/
def pktTs (p : Packet) : Bool := p.flags.getLsbD 2
/-- R309. -/
def pktSealed (p : Packet) : Bool := p.flags.getLsbD 3
/-- R309. -/
def pktResend (p : Packet) : Bool := p.flags.getLsbD 4

/-! ### Policers (R340, R341, R344) -/

/-- R340: a port's share of a rate in units per refill and of a size in units, with both ports up or not. -/
def shareOf (bothUp : Bool) (rate size : Nat) : Nat × Nat :=
  if bothUp then (rate * 2, 125 * size / 2) else (rate * 4, 125 * size)

/-- R340: both ports are up. -/
def State.bothUp (s : State) : Bool := s.flu.port.w.up && s.flu.port.e.up

/-- R344: settings written take effect. -/
def Policer.settle (p : Policer) : Policer :=
  match p.next with
  | none => p
  | some (en, cir, pir, cbs, pbs) => { p with en := en, cir := cir, pir := pir, cbs := cbs, pbs := pbs, next := none }

/-- R340, R344: k refills of a policer's buckets at a port, each cut to its size; with k = 0 they are cut only. -/
def Policer.refillPort (p : Policer) (both : Bool) (port : Side) (k : Nat) : Policer :=
  let (rc, sc) := shareOf both p.cir p.cbs
  let (rp, sp) := shareOf both p.pir p.pbs
  { p with c := p.c.upd port (fun x => Nat.min (Nat.min x sc + k * rc) sc)
           p := p.p.upd port (fun x => Nat.min (Nat.min x sp + k * rp) sp) }

/-- R340, R344: k refills in a row; at a port that is down the buckets are only cut to the size in force. -/
def Policer.refill (p : Policer) (up : Two Bool) (k : Nat) : Policer :=
  let both := up.w && up.e
  let at_ (b : Bool) : Nat := if b then k else 0
  (p.settle.refillPort both .west (at_ up.w)).refillPort both .east (at_ up.e)

/-- R344: a policer's buckets set full, by the split in force. -/
def Policer.fill (p : Policer) (both : Bool) : Policer :=
  let sc := (shareOf both p.cir p.cbs).2
  let sp := (shareOf both p.pir p.pbs).2
  { p with c := ⟨sc, sc⟩, p := ⟨sp, sp⟩ }

/-- R341: colours, worst last. -/
inductive Colour where
  | green | yellow | red
deriving DecidableEq, Repr

/-- R341: the worse of two colours. -/
def Colour.worse : Colour → Colour → Colour
  | .red, _ => .red
  | _, .red => .red
  | .yellow, _ => .yellow
  | _, .yellow => .yellow
  | .green, .green => .green

/-- R341: the colour a policer gives a packet of B counted bytes at a port. -/
def Policer.colour (p : Policer) (port : Side) (b : Nat) : Colour :=
  if !p.en then .green
  else if p.p.get port < 125 * b then .red
  else if p.c.get port < 125 * b then .yellow else .green

/-- R341: the tokens a packet of that colour takes. -/
def Policer.take (p : Policer) (port : Side) (b : Nat) (k : Colour) : Policer :=
  if !p.en || k == .red then p
  else
    let p := { p with p := p.p.upd port (fun x => x - 125 * b) }
    if k == .green then { p with c := p.c.upd port (fun x => x - 125 * b) } else p

/-- R340, R344: the refills that are due, one at each multiple of 256 ns of the time base since the latest: they are applied before any
packet that arrives, any policer operation and any change of a port, whether or not POLICER_REFILL came. -/
def State.refillDue (s : State) : State :=
  let t := s.now.toNat / 256
  let last := (s.dmp.refilledAt.getD 0) / 256
  if t ≤ last && s.dmp.refilledAt.isSome || !s.live then s
  else
    let up := s.flu.port.map (·.up)
    let k := Nat.max 1 (t - last)
    { s with dmp := { s.dmp with
      ctxPol := s.dmp.ctxPol.mapVals (fun _ p => p.refill up k)
      connPol := s.dmp.connPol.mapVals (fun _ p => p.refill up k)
      refilledAt := some (256 * t), split := s.bothUp } }

/-- R340: POLICER_REFILL, at a multiple of 256 ns. -/
def execPolicerRefill (s : State) : Host.Outcome State Fault Refusal :=
  .next (if s.now.toNat % 256 ≠ 0 then s else s.refillDue)

/-! ### The ingress path (R338-R343) -/

/-- R322, R343: bytes of the ingress buffer of a port for a priority: the payload of the packets held. -/
def State.ingressBytes (s : State) (p : Side) (prio : Nat) : Nat :=
  s.flu.conns.vals.foldl (fun n c => c.rx.foldl (fun n m => m.held.foldl (fun n h =>
    if h.1 == p && h.2.1 == prio then n + h.2.2.payload.length else n) n) n) 0

/-- R338: what the ingress steps make of a packet: its class, or none where it is dropped. -/
def State.ingress (s : State) (p : Side) (n : Nat) (pkt : Packet) : Option Nat × State :=
  let s := s.refillDue
  let cls0 := bits pkt.cls.toNat 0 6
  if !s.dmp.ingressEn then (some cls0, s)
  else
    let x := s.conn n
    let (v, s) := if s.dmp.clsInEn then s.classify p (clsKey n x.ctx.toNat x.cls.toNat pkt.type.toNat 0 p.num
      (pktFinal pkt) (pktResend pkt) pkt.raddr.toNat) else ({}, s)
    if v.drop then (none, s.count 0x03600420)
    else
      let cls := v.cls.getD cls0
      let b := s.counted pkt.frameLen
      let pc := s.dmp.connPol.lookD n {}
      let px := s.dmp.ctxPol.lookD x.ctx.toNat {}
      let k := (pc.colour p b).worse (px.colour p b)
      if k == .red then (none, s.count 0x03600410)
      else
        let put (t : Tbl Policer) (i : Nat) (q : Policer) : Tbl Policer := if t.has i then t.put i (q.take p b k) else t
        let s := { s with dmp := { s.dmp with
          connPol := put s.dmp.connPol n pc, ctxPol := put s.dmp.ctxPol x.ctx.toNat px } }
        let marked := k == .yellow || v.mark
        let s := if k == .green then s.count 0x03600400 else s
        let s := if marked then s.count 0x03600408 else s
        if marked && decide (s.dmp.ftdKib * 1024 < s.ingressBytes p (s.prioOf cls)) then (none, s.count 0x03600418)
        else (some cls, s)

/-! ### Egress queues (R315, R346, R349) -/

/-- R349: MAXFRAME of a class. -/
def State.maxFrame (s : State) (c : Nat) : Nat := s.dmp.maxFrame.lookD c 0x10BE

/-- R349: a frame queued at a port, unless it exceeds its class's MAXFRAME. -/
def State.queueFrame (s : State) (p : Side) (f : TxFrame) : State :=
  if f.pfc.isNone && decide (s.maxFrame f.cls < f.counted) then s.count 0x03600428
  else
    let x := s.flu.port.get p
    s.setPort p { x with queue := x.queue ++ [f] }

/-- R346: a DATA or READ-answer frame classified on the die of its port and queued. -/
def State.egress (s : State) (p : Side) (f : TxFrame) : State :=
  match f.pkt with
  | none => s.queueFrame p f
  | some k =>
    if !s.dmp.clsEgEn || f.control then s.queueFrame p f
    else
      let c := s.conn f.conn
      let (v, s) := s.classify p (clsKey f.conn c.ctx.toNat c.cls.toNat k.type.toNat 1 p.num (pktFinal k) (pktResend k) k.raddr.toNat)
      if v.drop then s.count 0x03600420
      else match v.cls with
        | none => s.queueFrame p f
        | some n => s.queueFrame p { f with cls := n, pkt := some { k with cls := BitVec.ofNat 8 n } }

/-- R315: bytes queued at a port in a class. -/
def PortState.queued (x : PortState) (cls : Nat) : Nat :=
  (x.queue.filter (fun f => f.cls == cls && f.pfc.isNone)).foldl (fun n f => n + f.counted) 0

/-- R331: MACsec is in force on the port. -/
def PortState.secured (x : PortState) : Bool := x.macsecEn && x.macsecUp

/-- R23, R303, R331, R334, R415: the port can carry Flue frames: it is up, and nothing has stopped or held the part. -/
def State.portCarries (s : State) (p : Side) : Bool :=
  let x := s.flu.port.get p
  x.up && s.flu.flueEn && (!s.flu.macsecReq || x.macsecUp) && s.running

/-- R315: the port a packet of a class goes to: of those up, the one with fewer bytes queued, port 0 on a tie. -/
def State.choosePort (s : State) (cls : Nat) : Option Side :=
  match s.portCarries .west, s.portCarries .east with
  | true, true => if s.flu.port.e.queued cls < s.flu.port.w.queued cls then some .east else some .west
  | true, false => some .west
  | false, true => some .east
  | false, false => none

/-! ### Gates (R350, R352) -/

/-- R350: the cycle of a schedule. -/
def GateSched.cycle (g : GateSched) : Nat := g.entries.foldl (fun n e => n + e.1) 0

/-- R350: from time t (in units of 0.01 ns from the start of a list of entries), the length for which a class stays open,
over the entries given. -/
def openRun (c : Nat) : List (Nat × BitVec 64) → Nat → Nat
  | [], _ => 0
  | (d, m) :: r, t =>
    if 100 * d ≤ t then openRun c r (t - 100 * d)
    else if m.getLsbD c then
      100 * d - t + ((r.takeWhile (fun e => e.2.getLsbD c)).foldl (fun n e => n + 100 * e.1) 0)
    else 0

/-- R350: the class is open in every entry: its window never ends. -/
def GateSched.always (g : GateSched) (c : Nat) : Bool := !g.entries.isEmpty && g.entries.all (fun e => e.2.getLsbD c)

/-- R350: how long, from time t, the present window of a gated class that is not always open lasts (0 outside a window); a run joins the
next cycle, and is shorter than a cycle. -/
def GateSched.remains (g : GateSched) (c t : Nat) : Nat :=
  let cyc := 100 * g.cycle
  if cyc = 0 then 0 else openRun c (g.entries ++ g.entries) ((t - 100 * g.base) % cyc)

/-- R350: the port's running schedule admits a frame of a class and counted length at time t (0.01 ns). -/
def PortState.gateAdmits (x : PortState) (f : TxFrame) (t : Nat) : Bool :=
  match x.gate with
  | none => true
  | some g => !(g.mask.getLsbD f.cls) || g.always f.cls || decide (f.counted ≤ g.remains f.cls t)

/-! ### The egress scheduler (R347, R348, R350) -/

/-- R322: a priority of a port is paused. -/
def PortState.pausedAt (x : PortState) (prio now : Nat) : Bool :=
  match x.paused.look prio with
  | some t => decide (now < t)
  | none => false

/-- R322, R331, R347, R348, R350: the frame may be sent at time t (0.01 ns). -/
def State.eligible (s : State) (p : Side) (f : TxFrame) (t : Nat) : Bool :=
  let x := s.flu.port.get p
  f.pfc.isSome ||
    (decide (f.notBefore ≤ s.now.toNat) && (f.pkt.isNone || s.portCarries p) && !(x.pausedAt (s.prioOf f.cls) s.now.toNat) && (f.control || x.gateAdmits f t))

/-- R347: the first frame of a class that may go: frames of a class go in order, control frames pass gated ones. -/
def State.headOf (s : State) (p : Side) (c t : Nat) : Option TxFrame :=
  let q := ((s.flu.port.get p).queue).filter (fun f => f.cls == c && f.pfc.isNone)
  [q.find? (fun f => f.control && decide (f.notBefore ≤ s.now.toNat)), q.find? (fun f => !f.control)].findSome? (fun o => match o with
    | some f => if s.eligible p f t then some f else none
    | none => none)

/-- R347: deficit round robin over the weighted classes that have an eligible frame. The first argument bounds the
rounds. -/
def drrPick (w : Nat → Nat) (heads : List (Nat × Nat)) : Nat → Nat → Tbl Nat → Option (Nat × Tbl Nat)
  | 0, _, _ => none
  | k + 1, turn, def_ =>
    match heads.find? (fun h => h.1 == turn) with
    | some (c, len) =>
      if len ≤ def_.lookD c 0 then some (c, def_.put c (def_.lookD c 0 - len))
      else
        match nextAfter turn (heads.map (·.1)) with
        | none => none
        | some n => drrPick w heads k n (def_.put n (def_.lookD n 0 + 512 * w n))
    | none =>
      match nextAfter turn (heads.map (·.1)) with
      | none => none
      | some n => drrPick w heads k n (def_.put n (def_.lookD n 0 + 512 * w n))

/-- R347: the class whose frame goes next, with the port's deficits and turn after it. -/
def State.nextClass (s : State) (p : Side) (t : Nat) : Option (Nat × Tbl Nat × Nat) :=
  let x := s.flu.port.get p
  let heads := (List.range 64).filterMap (fun c => (s.headOf p c t).map (fun f => (c, f.counted)))
  match heads.find? (fun h => h.1 < 4) with
  | some h => some (h.1, x.deficit, x.turn)
  | none =>
    let ws := heads.filter (fun h => s.weight h.1 != 0)
    let def0 := x.deficit.keep (fun c _ => x.queue.any (fun f => f.cls == c))
    if ws.isEmpty then (nextAfter x.turn (heads.map (·.1))).map (fun c => (c, def0, c))
    else (drrPick s.weight ws 1024 x.turn def0).map (fun r => (r.1, r.2, r.1))

/-- R350: gated frames at the head of their class that do not fit the rest of their window now wait for the next, and are
counted once. -/
def State.gateWaits (s : State) (p : Side) (t : Nat) : State :=
  let x := s.flu.port.get p
  let heads := (List.range 64).filterMap (fun c => x.queue.find? (fun f => f.cls == c && !f.control && f.pfc.isNone))
  let late := heads.filter (fun f => !f.waited && !(x.gateAdmits f t) && (match x.gate with
    | some g => g.remains f.cls t != 0
    | none => false))
  (s.setPort p { x with queue := x.queue.map (fun f => if late.contains f then { f with waited := true } else f) }).count
    0x03600430 late.length

/-- The list without the first member equal to x. -/
def takeOut (x : TxFrame) (l : List TxFrame) : List TxFrame := l.erase x

/-- R347, R348: the frame that a port sends next: PFC frames first. -/
def State.pickFrame (s : State) (p : Side) (t : Nat) : Option (TxFrame × Tbl Nat × Nat) :=
  let x := s.flu.port.get p
  match x.queue.find? (·.pfc.isSome) with
  | some f => some (f, x.deficit, x.turn)
  | none =>
    match s.nextClass p t with
    | none => none
    | some (c, d, n) => (s.headOf p c t).map (fun f => (f, d, n))

/-! ### Gate schedules in force (R350, R352) -/

/-- R350: the entry in force t ns after the start of a list of entries, and the ns that are left of it. -/
def entryIn : List (Nat × BitVec 64) → Nat → Nat × Nat
  | [], _ => (0, 0)
  | (d, _) :: r, t => if t < d then (0, d - t) else ((entryIn r (t - d)).1 + 1, (entryIn r (t - d)).2)

/-- R350: the entry in force at a time of the time base, and the ns that are left of it. -/
def GateSched.entryAt (g : GateSched) (now : Nat) : Nat × Nat := entryIn g.entries ((now - g.base) % Nat.max g.cycle 1)

/-- R350, R352: what the time base makes due at a port's running schedule: the entry in force, and the end of the schedule at the entry
boundary at which a DISABLE takes effect. -/
def State.gateBoundary (s : State) (p : Side) : State :=
  let x := s.flu.port.get p
  match x.gate with
  | none => s
  | some g =>
    if x.disabling.any (fun t => t ≤ s.now.toNat) then s.setPort p { x with gate := none, disabling := none, entry := 0 }
    else s.setPort p { x with entry := (g.entryAt s.now.toNat).1 }

/-- R350: GATE_ENTRY_BOUNDARY. -/
def execGateEntryBoundary (port : Side) (s : State) : Host.Outcome State Fault Refusal := .next (s.gateBoundary port)

/-- R352: GATE_SCHEDULE_SWITCH: the pending schedule takes effect at its time. -/
def State.gateSwitch (s : State) (p : Side) : State :=
  let x := s.flu.port.get p
  match x.pendingGate with
  | none => s
  | some (g, t) =>
    if t ≤ s.now.toNat then s.setPort p { x with gate := some g, pendingGate := none, disabling := none, entry := 0 }
    else s

/-- R350, R352: what the time base has made due of a port's schedules, whether or not its commands came. -/
def State.gateDue (s : State) (p : Side) : State := (s.gateSwitch p).gateBoundary p

/-- R350, R353: the end of a nanosecond at a port: frames at the head of their class for which the rest of their window has become too
short wait for the next. -/
def State.gateTick (s : State) (p : Side) : State :=
  let x := s.flu.port.get p
  if x.gate.isNone || x.queue.isEmpty then s else s.gateWaits p (100 * s.now.toNat + 99)

/-- R352: GATE_SCHEDULE_SWITCH. -/
def execGateScheduleSwitch (port : Side) (s : State) : Host.Outcome State Fault Refusal := .next (s.gateSwitch port)

end Machine
end Sys2Proof
end

