-- ==== Sys2Proof/Machine/Walk.lean ====
section
/-! DEFINITION. The checks that instructions share (R37, R51, R52), the page walk (R84), missing ranges (R52), the return of
demoted tables (R202), stores that meet a failed stack (R424). -/

namespace Sys2Proof
namespace Machine

/-! ### Checks -/

/-- What a failing check makes of an instruction: a status and its DETAIL. -/
abbrev Bad := Option (Status × Nat)

/-- The first check of a list that fails. -/
def firstBad (l : List Bad) : Bad := l.findSome? id

/-- R37: a range whose address and length an operand gives. -/
def State.rng (s : State) (c a n detail : Nat) (align : Nat := 64) : Bad :=
  (s.checkRange c a n align).map (fun st => (st, detail))

/-- R37: a range whose length is computed: only the address is aligned, and the length is rounded up. -/
def State.rngUp (s : State) (c a n detail : Nat) (align : Nat := 64) : Bad :=
  (s.checkRange c a (up64 n) align false).map (fun st => (st, detail))

/-- A condition that must not hold. -/
def badIf (b : Bool) (st : Status) (detail : Nat) : Bad := if b then some (st, detail) else none

/-- R77 as a check. -/
def State.badSeq (s : State) (c : Nat) (w : BitVec 64) (off entry : Nat) (pid : Option Nat) (own : Bool := false) : Bad :=
  match s.checkSeq c w off entry pid own with
  | .ok _ => none
  | .error e => some e

/-- R52: the missing-range list of a descriptor. -/
def State.badList (s : State) (c : Nat) (d : Desc) : Bad :=
  if d.mrlist = 0 || d.mrcap = 0 then none else s.rngUp c d.mrlist (16 * d.mrcap) 0

/-- R51 steps 1 to 4: the header of the descriptor at a and its entry array; `zero` says which of the fields that must be 0
is not. -/
def State.badHeader (s : State) (c a : Nat) (zero : Desc → Bool) : Bad :=
  match firstBad [s.rng c a 64 0, s.mem.readErr a 64] with
  | some e => some e
  | none =>
    let d := s.desc a
    firstBad [
      d.rsv.map (fun o => (St.badReserved, o)),
      badIf (d.count = 0 || 4096 < d.count || 2 < d.kfmt || 2 < d.vfmt || 1 < d.ofmt || 8 < d.lookahead || 1 < d.qfmt
        || zero d) St.badOperand 0,
      badIf (s.profileSlot d.profile).isNone St.profileMismatch 0,
      s.rngUp c (a + 64) (16 * d.count) 0,
      (s.mem.readErr (a + 64) (16 * d.count)).map (fun e => (e.1, e.2 + 1))]

/-- R77, R36: a sequence that an operand word names, and the instruction's layer in its profile (log 117). -/
def State.badNamed (s : State) (j : Job) (w : BitVec 64) (off : Nat := 8) : Bad :=
  match s.checkSeq j.ctx w off 0 none j.prev.isSome with
  | .ok k => j.layerErr (s.profile (s.seq k).pslot).layers
  | .error e => some e

/-- R51 step 7: the handles of a descriptor's entries, each with the instruction's layer (log 117) and with a further check of the
entry. -/
def State.badEntries (s : State) (j : Job) (a : Nat) (d : Desc) (more : Nat → Entry → Bad) : Bad :=
  (List.range d.count).findSome? (fun i =>
    let e := s.entry a i
    match s.badSeq j.ctx e.handle (64 + 16 * i) i (some d.profile) j.prev.isSome with
    | some x => some x
    | none =>
      match j.layerErr (s.profile (s.seq (seqKey e.handle.toNat)).pslot).layers with
      | some x => some x
      | none => more i e)

/-- R51: the sequence that an entry names, once it has been checked. -/
def Entry.key (e : Entry) : Nat := seqKey e.handle.toNat

/-! ### Stores -/

/-- R424: of n bytes from a on, the first line on a failed stack, as its offset / 64. -/
def State.deadLine (s : State) (a n : Nat) : Option Nat :=
  ((linesOf a n).find? (fun l => s.mem.dead.contains (l / 32768))).map (fun l => l - a / 64)

/-- R424, R40, R61: a completion that stored n bytes from a on: ST_POISON, with RESULT 0, when a line lies on a failed stack. -/
def State.stored (s : State) (a n : Nat) (d : Done) : Done :=
  match s.deadLine a n with
  | some o => if Status.success d.status then { d with status := St.poison, detail := o, result := 0 } else d
  | none => d

/-! ### Layers and page tables (R80, R81, R93) -/

/-- R81, R93: the page-table entry that serves logical page n. -/
def Profile.slot (p : Profile) (n : Nat) : Nat :=
  match p.ring with
  | some r => n % r
  | none => n

/-- R64: the profile of a sequence. -/
def State.prof (s : State) (k : Nat) : Profile := s.profile (s.seq k).pslot

/-- R80: a layer descriptor. -/
def State.layer (s : State) (k l : Nat) : Layer := (s.seq k).layers.getD l {}

/-- A layer descriptor replaced. -/
def State.setLayer (s : State) (k l : Nat) (x : Layer) : State :=
  s.setSeq k { s.seq k with layers := (s.seq k).layers.set l x }

/-- R81: the entry of logical page n. -/
def State.pte (s : State) (k l n : Nat) : Pte := (s.layer k l).ptes.lookD ((s.prof k).slot n) {}

/-- A page-table entry replaced. -/
def State.setPte (s : State) (k l n : Nat) (e : Pte) : State :=
  let y := s.layer k l
  s.setLayer k l { y with ptes := y.ptes.put ((s.prof k).slot n) e }

/-- R80: DEPTH that serves a length. -/
def depthFor (len : Nat) : Nat := if len ≤ 8192 then 1 else if len ≤ 4194304 then 2 else 3

/-- R83, R204: the sequence gives up the reference of an entry. -/
def State.dropRef (s : State) (k l n : Nat) : State :=
  let e := s.pte k l n
  let y := s.layer k l
  let s := s.setLayer k l { y with ptes := y.ptes.del ((s.prof k).slot n) }
  if e.v then (if e.kept then s.keep e.handle false else s).releaseRef e.handle else s

/-! ### The walk (R83, R84) -/

/-- R84: what a walk meets. -/
inductive Met where
  | hit (h : Nat)
  | away (h : Nat)
  | gone (lost : Bool)
deriving DecidableEq, Repr

/-- R84 step 4: what stands at logical page n. -/
def State.meet (s : State) (k l n : Nat) : Met :=
  let e := s.pte k l n
  if e.lost then .gone true
  else if e.dropped || !e.v then .gone false
  else
    let p := s.page e.handle
    if p.life == .lost then .gone true
    else if p.life == .dropped || p.life == .free then .gone false
    else if s.onFailed e.handle && !(p.life == .opened && p.mirror.isSome && !(s.frameGone (pageDie e.handle) p.mirror)) then
      (if p.res == .clean then .away e.handle else .gone false)
    else if p.resident then .hit e.handle
    else .away e.handle

/-- R424, R469: of the table lines that a walk reads on a die with a failed stack, those served by parity are counted; which lie there is
free (log 104). -/
def State.parityReads (s : State) (k l : Nat) : State :=
  if (s.drt.failed.get (seqHome k)).isEmpty then s
  else
    let n := Config.eccCount s.fresh 900 % (((s.seq k).layers.getD l {}).depth + 4)
    ({ s with fresh := s.fresh + 1 }).countAo 0x03800110 n

/-- R83, R424: a walker that reaches a DROPPED or LOST page marks its entry and gives up the reference; one that reads a page sets
its reference bit (R201). -/
def State.walk (s : State) (k l n : Nat) : Met × State :=
  let s := s.parityReads k l
  let s := if (s.pte k l n).v then s.stackTreat (s.pte k l n).handle else s
  match s.meet k l n with
  | .gone lost =>
    let e := s.pte k l n
    let s1 := if e.v then (s.setPte k l n { e with v := false, dropped := !lost, lost := lost }).releaseRef e.handle else s
    (.gone lost, s1)
  | .hit h => (.hit h, s.touch h)
  | .away h => (.away h, s)

/-- What a walk over pages gathers. -/
structure Seen where
  /-- Pages read: logical page, handle. -/
  hits : List (Nat × Nat) := []
  /-- Handles that are not resident. -/
  away : List Nat := []
  /-- Logical pages that are gone, and whether they are lost. -/
  gone : List (Nat × Bool) := []
deriving DecidableEq, Repr

/-- R84: a walk over the pages of a list, in order. -/
def State.walkAll (k l : Nat) : List Nat → State → Seen × State
  | [], s => ({}, s)
  | n :: r, s =>
    let (m, s1) := s.walk k l n
    let (t, s2) := State.walkAll k l r s1
    match m with
    | .hit h => ({ t with hits := (n, h) :: t.hits }, s2)
    | .away h => ({ t with away := h :: t.away }, s2)
    | .gone b => ({ t with gone := (n, b) :: t.gone }, s2)

/-- R202: the last walk of a sequence. -/
def State.walked (s : State) (k : Nat) : State := s.setSeq k { s.seq k with lastWalk := s.now.toNat }

/-- Logical pages from n0 up to, without, n1. -/
def pageRange (n0 n1 : Nat) : List Nat := (List.range (n1 - n0)).map (· + n0)

/-! ### Missing ranges (R52) -/

/-- R52: a missing range. -/
structure Miss where
  /-- R52: sequence (table key). -/
  seq : Nat := 0
  /-- R52: layer. -/
  layer : Nat := 0
  /-- R52: first position. -/
  first : Nat := 0
  /-- R52: end position. -/
  stop : Nat := 0
  /-- R52: reason, lost instead of dropped. -/
  lost : Bool := false
deriving DecidableEq, Repr

/-- R52, R84: the ranges of the gone pages of one layer, ascending; adjoining pages of one reason are one range. -/
def missesOf (k l len : Nat) : List (Nat × Bool) → List Miss
  | [] => []
  | (n, b) :: r =>
    let m : Miss := { seq := k, layer := l, first := 16 * n, stop := Nat.min (16 * n + 16) len, lost := b }
    match missesOf k l len r with
    | x :: t => if x.first = m.stop && x.lost == b then { x with first := m.first } :: t else m :: x :: t
    | [] => [m]

/-- R52: the 16 bytes of an entry. -/
def State.missBytes (s : State) (m : Miss) : List Byte :=
  leBytes 5 (seqHandle m.seq (s.seq m.seq).gen) ++ leBytes 1 (b2n m.lost) ++ leBytes 2 m.layer ++ leBytes 4 m.first
    ++ leBytes 4 m.stop

/-- R52: the list as far as it has room. -/
def State.writeMisses (s : State) (mrlist mrcap : Nat) (ms : List Miss) : State :=
  if mrlist = 0 || mrcap = 0 || ms.isEmpty then s else s.poke mrlist ((ms.take mrcap).flatMap s.missBytes)

/-- R52, R154: how missing ranges complete an instruction: ST_MEDIA_LOST when one is lost, else ST_RECOMPUTE. -/
def missDone (result mrlist mrcap : Nat) (ms : List Miss) : Done :=
  if ms.isEmpty then { result := BitVec.ofNat 64 result }
  else
    let room := if mrlist = 0 then 0 else mrcap
    { status := if ms.any (·.lost) then St.mediaLost else St.recompute
      result := BitVec.ofNat 64 result, detail := ms.length
      flags := if room < ms.length then Fl.listFull else 0 }

/-! ### Waiting for pages and tables -/

/-- R213: the key of the request that brings the tables of a sequence back. -/
def tableKey (k : Nat) : Nat := 2 ^ 38 + k

/-- R202, R213, R442: a demand request for the tables of a sequence. -/
def State.requestTables (s : State) (k : Nat) (prio : Nat := 64) : State :=
  let d := seqHome k
  let l := s.drt.reqs.get d
  if l.any (fun r => r.handle == tableKey k) then
    { s with drt := { s.drt with reqs := s.drt.reqs.set d (l.map (fun r =>
      if r.handle == tableKey k then { r with prio := Nat.min prio r.prio } else r)) } }
  else { s with drt := { s.drt with
    reqs := s.drt.reqs.set d (l ++ [{ handle := tableKey k, cls := .demand, prio := prio, at_ := s.now.toNat }]) } }

/-- R202, R84, R217: an instruction that walks sequences waits for their tables within the residency bound, and completes
ST_NOT_RESIDENT when it has passed; none where no sequence is DIRCOLD. -/
def State.tablesWait (s : State) (j : Job) (ks : List Nat) : Option (Option Wait × State) :=
  match ks.find? (fun k => (s.seq k).dirCold) with
  | none => none
  | some k =>
    let fresh : Wait := .tables k s.now.toNat
    let prio := (s.ring j.site.ring).cls.toNat
    match j.prev with
    | some (.expired hs) => if hs.contains (tableKey k) then some (none, s) else some (some fresh, s.requestTables k prio)
    | some (.tables k' t) => some (some (if k' = k then .tables k t else fresh), s.requestTables k prio)
    | _ => some (some fresh, s.requestTables k prio)

/-- R202: the wait for tables of an instruction that runs. -/
def State.awaitTables (s : State) (j : Job) (ks : List Nat) : Option Out :=
  (s.tablesWait j ks).map (fun x => match x with
    | (some w, s) => .wait w s
    | (none, s) => fails St.notResident 0 s)

/-- R202: checks that need the tables of sequences; `none` makes the tables' loss of the bound end the instruction. -/
def State.withTables (s : State) (j : Job) (ks : List Nat) (k : State → Chk) : Chk :=
  match s.tablesWait j ks with
  | some (some w, s) => .wait w s
  | some (none, s) => .bad { status := St.notResident } s
  | none => k s

/-- R51, R202: the checks of an instruction with a batch descriptor, made once the tables of its sequences are resident; a bad
handle needs none of them. -/
def State.tableChk (s : State) (j : Job) (d : Desc) (full : State → Chk) : Chk :=
  let a := j.w0.toNat
  if (s.badEntries j a d (fun _ _ => none)).isSome then full s
  else s.withTables j ((s.entries a d.count).map Entry.key) full

/-- R217: the pages waited on, each with the time from which its bound runs: that of its earlier wait, or now. -/
def State.since (s : State) (prev : Option Wait) (hs : List Nat) : List (Nat × Nat) :=
  hs.map (fun h => match prev with
    | some (.pages l) => ((l.find? (fun x => x.1 == h)).getD (h, s.now.toNat))
    | _ => (h, s.now.toNat))

/-- R84, R163, R217: an instruction that needs pages that are not resident asks for them and waits, or completes
ST_NOT_RESIDENT once the bound of one has passed; DETAIL counts the pages. -/
def State.awaitPages (s : State) (j : Job) (hs : List Nat) (result : Nat) : Out :=
  match j.prev with
  | some (.expired _) =>
    .done { status := St.notResident, detail := hs.length, result := BitVec.ofNat 64 result } s
  | _ => .wait (.pages (s.since j.prev hs)) (hs.foldl (fun s h => s.request h .demand 0 (s.ring j.site.ring).cls.toNat) s)

/-- R209 step 2: an instruction whose allocation waits leaves everything as it was but for the demotions started. -/
def waitAlloc (j : Job) (d : Side) (left : Nat) (s : State) : Out :=
  let again := match j.prev with
    | some (.alloc d' n) => d' == d && decide (n ≤ left)
    | _ => false
  .wait (.alloc d left) (s.allocWaits d again (((s.rec? j.site).map (·.uses)).getD []))

/-- A waiting instruction of row `op` goes on, when `body` says how; otherwise nothing happens. -/
def goOn (op : Nat) (a : At) (body : Job → Wait → State → Option Out) (s : State) : State :=
  match s.rec? a with
  | none => s
  | some r =>
    match r.wait with
    | some w =>
      if effOp r.inst r.step = op && r.state == .issued && s.diesRun (s.diesOf r) then
        match body (s.job r) w s with
        | some o => (settle a o).markFree
        | none => s
      else s
    | none => s

end Machine
end Sys2Proof
end

