-- ==== Sys2Proof/Machine/Flue.lean ====
section
/-! DEFINITION. The Flue transport (R303-R332): connections, messages and their packets, acknowledgements, recovery, the
key check; FLUE.SEND and FLUE.WAIT. -/

namespace Sys2Proof
namespace Machine

/-! ### Sequence numbers and packets -/

/-- R308: modulo 2^32, a lies before b. -/
def seqBefore (a b : BitVec 32) : Bool := a != b && decide ((b - a).toNat < 2 ^ 31)

/-- R315: packets of a message of n bytes. -/
def packetsOf (n : Nat) : Nat := ceilDiv n 4096

/-- R306: bytes of a frame of a connection with this payload, without preamble and gap; a shorter one is padded to Ethernet's least, 64
(log 129). -/
def frameBytes (x : Conn) (macsec ts trailer : Bool) (payload : Nat) : Nat :=
  Nat.max 64 (14 + (if x.vlan then 4 else 0) + (if macsec then 32 else 0)
    + (if x.encap = 1 then 28 else if x.encap = 2 then 48 else 0) + 32 + (if ts then 8 else 0)
    + (if x.sealed then 24 else 0) + payload + (if trailer then 4 else 0) + 4)

/-- R306: the destination addresses of a connection's frames at a port. -/
def State.wireTo (s : State) (x : Conn) (p : Side) : BitVec 48 × BitVec 128 :=
  if x.encap = 0 then (x.peerMac, 0) else ((s.flu.port.get p).gw, x.peerIp)

/-- R309: FLAGS of a packet that the part sends. -/
def flagsOf (final relaxed ts sealed resend : Bool) : BitVec 8 :=
  BitVec.ofNat 8 (b2n final + 2 * b2n relaxed + 4 * b2n ts + 8 * b2n sealed + 16 * b2n resend)

/-- R330: the transmit counter of a SEALED connection would pass 2^63. -/
def Conn.worn (x : Conn) : Bool := x.sealed && decide (2 ^ 63 < x.txCtr.toNat)

/-- R330: the next transmit counter of a connection. -/
def State.seal (s : State) (n : Nat) : BitVec 64 × State :=
  let x := s.conn n
  if x.sealed then (x.txCtr, s.setConn n { x with txCtr := x.txCtr + 1 }) else (0, s)

/-- R315: the next PATH of a connection. -/
def State.nextPath (s : State) (n : Nat) : Nat × State :=
  let x := s.conn n
  let p := (x.path + 1) % (s.flu.paths.toNat + 1)
  (p, s.setConn n { x with path := p })

/-! ### Control packets (R310, R320) -/

/-- R310, R320, R330: an ACK or CLOSE packet of a connection, queued at a port with the keys that the connection holds now, to leave no
earlier than a time; no ACK is sealed past counter 2^63 (log 138). -/
def State.sendControl (s : State) (n : Nat) (p : Side) (type : Nat) (seq : BitVec 32) (payload : List Byte) (after : Nat := 0) : State :=
  if (s.conn n).worn && type != 3 then s else
  let (ctr, s) := s.seal n
  let x := s.conn n
  let k : Packet := {
    type := BitVec.ofNat 4 type, flags := flagsOf false x.relaxed false x.sealed false, conn := x.peerConn.setWidth 16
    msgSeq := seq, alive := x.alive, plen := BitVec.ofNat 16 payload.length, path := BitVec.ofNat 16 x.path, ctr := ctr
    payload := payload, encap := x.encap, vid := if x.vlan then some x.vid else none }
  let (mac, ip) := s.wireTo x p
  s.queueFrame p { pkt := some k, control := true, cls := 0, conn := n, dstMac := mac, dstIp := ip, notBefore := after
                   keys := x.keyed.getD 0
                   counted := s.counted (frameBytes x (s.flu.port.get p).secured false false payload.length) }

/-- R320: the port on which an ACK leaves: that of the latest packet received, else the other. -/
def State.ackPort (s : State) (n : Nat) : Option Side :=
  let p := (s.conn n).lastPort
  if s.portCarries p then some p else if s.portCarries p.other then some p.other else none

/-- R320: the 96 bytes of an ACK. -/
def ackBytes (credit cum : BitVec 32) (status base : Nat) (idx : List Nat) : List Byte :=
  let bitmap := ((idx.filter (fun i => base ≤ i && i < base + 512)).eraseDups).foldl (fun n i => n + 2 ^ (i - base)) 0
  leBytes 4 credit.toNat ++ leBytes 4 cum.toNat ++ [BitVec.ofNat 8 status, 0] ++ leBytes 2 base ++ leBytes 4 0
    ++ leBytes 64 bitmap ++ leBytes 16 0

/-- R320: an ACK of a message. -/
def State.sendAck (s : State) (n : Nat) (seq : BitVec 32) (status base : Nat) (idx : List Nat) : State :=
  match s.ackPort n with
  | none => s
  | some p =>
    let x := s.conn n
    s.sendControl n p 2 seq (ackBytes x.rxLimit x.rxCum status base idx)

/-- R320: PROGRESS for every window of 512 indices that holds an unacknowledged arrival. -/
def State.sendProgress (s : State) (n : Nat) (seq : Nat) : State :=
  let x := s.conn n
  match x.rx.find? (fun m => m.seq == seq) with
  | none => s
  | some m =>
    let bases := (m.unacked.map (fun i => i / 512 * 512)).foldl insNat []
    let s := bases.foldl (fun s b => s.sendAck n (BitVec.ofNat 32 seq) 0 b m.arrived) s
    let x := s.conn n
    s.setConn n { x with rx := x.rx.map (fun y => if y.seq == seq then { y with unacked := [], unackedAt := none } else y) }

/-! ### Sending (R315, R321, R323, R324) -/

/-- R315: an outbound message changed. -/
def State.setTx (s : State) (n : Nat) (m : TxMsg) : State :=
  let x := s.conn n
  s.setConn n { x with tx := x.tx.map (fun y => if y.seq == m.seq then m else y) }

/-- R315: an outbound message of a connection. -/
def State.tx? (s : State) (n seq : Nat) : Option TxMsg := (s.conn n).tx.find? (fun m => m.seq == seq)

/-- R308: a queued frame carries packet i of an outbound message of connection n. -/
def TxFrame.carries (f : TxFrame) (n seq i : Nat) : Bool :=
  match f.pkt with
  | some k => f.conn == n && k.type == 1 && k.msgSeq.toNat == seq && k.pktIdx.toNat == i
  | none => false

/-- R306-R308, R315, R323, R330: packet i of an outbound message, given to a port; a frame that the port does not queue (R346, R349)
counts as transmitted and lost at that time (log 138). -/
def State.sendPacket (s : State) (n : Nat) (m : TxMsg) (i : Nat) (p : Side) : State :=
  if (s.conn n).worn then s else
  let (ctr, s) := s.seal n
  let (path, s) := s.nextPath n
  let x := s.conn n
  let cnt := packetsOf m.data.length
  let last := i + 1 = cnt
  let bytes := (m.data.drop (4096 * i)).take 4096
  let k : Packet := {
    type := 1, flags := flagsOf m.final x.relaxed x.tstamp x.sealed (m.resent.contains i), conn := x.peerConn.setWidth 16
    msgSeq := BitVec.ofNat 32 m.seq, pktIdx := BitVec.ofNat 16 i, pktCnt := BitVec.ofNat 16 cnt, rkey := m.rkey
    raddr := m.raddr + BitVec.ofNat 64 (4096 * i), alive := x.alive, cls := x.cls.setWidth 8
    plen := BitVec.ofNat 16 bytes.length, path := BitVec.ofNat 16 path, ts := if x.tstamp then s.now else 0, ctr := ctr
    payload := bytes, trailer := if last then crc32c m.data else 0, encap := x.encap
    vid := if x.vlan then some x.vid else none }
  let (mac, ip) := s.wireTo x p
  let s := s.egress p { pkt := some k, cls := x.cls.toNat, conn := n, dstMac := mac, dstIp := ip, keys := x.keyed.getD 0
                        counted := s.counted (frameBytes x (s.flu.port.get p).secured x.tstamp last bytes.length) }
  let queued := ((s.flu.port.get p).queue).any (fun f => f.carries n m.seq i)
  match s.tx? n m.seq with
  | none => s
  | some y =>
    let old := y.sent.find? (fun e => e.1 == i)
    let reps := match old with
      | some e => e.2.2.1
      | none => 0
    s.setTx n { y with sent := (y.sent.filter (fun e => e.1 != i)) ++ [(i, if queued then none else some s.now.toNat, reps, p)] }

/-- R321: credit for one more new packet. -/
def Conn.hasCredit (x : Conn) : Bool := seqBefore x.txCount x.txLimit

/-- R332: the in-flight count of a registration falls. -/
def State.keyDown (s : State) (i : Nat) : State :=
  match s.flu.keys.look i with
  | none => s
  | some k => { s with flu := { s.flu with keys := s.flu.keys.put i { k with inflight := k.inflight - 1 } } }

/-- R315, R321: packets of a connection sent first, in order, while credit and a port allow; the first argument bounds
them. -/
def State.pump : Nat → State → Nat → State
  | 0, s, _ => s
  | k + 1, s, n =>
    let x := s.conn n
    match x.tx.find? (fun m => m.next < packetsOf m.data.length) with
    | none => s
    | some m =>
      match s.choosePort x.cls.toNat with
      | none => s
      | some p =>
        if x.state != .opened || !x.hasCredit || x.worn then s
        else
          let m' := { m with next := m.next + 1 }
          let s := (s.setConn n { x with txCount := x.txCount + 1 }).setTx n m'
          let s := s.sendPacket n m' m.next p
          let s := match m.readKey with
            | some i => if m.next + 1 = packetsOf m.data.length then s.keyDown i else s
            | none => s
          State.pump k s n

/-- R315: as many packets as the connection's messages hold. -/
def State.pumpConn (s : State) (n : Nat) : State :=
  s.pump ((s.conn n).tx.foldl (fun k m => k + (packetsOf m.data.length - m.next)) 0) n

/-- R315: a message begins: it takes TX_SEQ. -/
def State.beginMsg (s : State) (n : Nat) (m : TxMsg) : Nat × State :=
  let x := s.conn n
  let q := x.txSeq.toNat
  (q, (s.setConn n { x with
    txSeq := x.txSeq + 1, tx := x.tx ++ [{ m with seq := q, progress := s.now.toNat }] }).pumpConn n)

/-- R315: at most 256 messages of a connection are sent and not completed. -/
def Conn.mayBegin (x : Conn) : Bool := decide (x.tx.length < 256)

/-! ### FLUE.SEND and FLUE.WAIT (R58, R315, R319) -/

/-- R58: a connection that an instruction names: of the context (log 32), else ST_ACCESS; open, else ST_PEER_CLOSED. -/
def State.badConn (s : State) (c n detail : Nat) : Bad :=
  firstBad [badIf ((s.conn n).ctx.toNat ≠ c) St.access detail, badIf ((s.conn n).state != .opened) St.peerClosed 0]

/-- R58, R315, R32: what FLUE.SEND checks: its source range first (R37), then the connection, then the length. -/
def sendBad (j : Job) (s : State) : Bad :=
  let len := bits j.w2.toNat 0 27
  firstBad [
    if len = 0 then none else s.rng j.ctx (bits j.w1.toNat 0 49) len 1 1,
    s.badConn j.ctx (bits j.w1.toNat 49 15) 1,
    badIf (67108864 < len) St.msgTooLong 0,
    badIf (len = 0) St.badOperand 2]

/-- R58, R315: FLUE.SEND. -/
def sendBody (j : Job) (s : State) : Out :=
  let n := bits j.w1.toNat 49 15
  let src := bits j.w1.toNat 0 49
  let len := bits j.w2.toNat 0 27
  match j.prev with
  | some (.sent c q) => .wait (.sent c q) s
  | _ =>
    match firstBad [badIf ((s.conn n).state != .opened) St.peerClosed 0, s.mem.readErr src len] with
    | some e => fails e.1 e.2 s
    | none =>
      if (s.conn n).mayBegin then
        let (q, s) := s.beginMsg n {
          data := s.peek src len, raddr := j.w0, rkey := BitVec.ofNat 32 (bits j.w2.toNat 32 32), final := j.inst.x0 }
        .wait (.sent n q) s
      else .wait .run s

/-- R315: FLUE.SEND. -/
def execFlueSend (a : At) (s : State) : Host.Outcome State Fault Refusal := .next (runHob 0x80 a (checks sendBad) sendBody s)

/-- R58, R319: FLUE.WAIT completes once RX_DONE is at least its threshold. -/
def inboundBody (j : Job) (s : State) : Out :=
  let n := bits j.w0.toNat 0 15
  if (s.conn n).state != .opened then fails St.peerClosed 0 s
  else
    let v := (s.conn n).rxDone.setWidth 64
    if j.w1 ≤ v then .done { result := v } s
    else
      let deadline := match j.prev with
        | some (.inbound _ _ d) => d
        | _ => if j.w2 = 0 then none else some (s.now.toNat + j.w2.toNat)
      .wait (.inbound n j.w1 deadline) s

/-- R58: FLUE.WAIT. -/
def execFlueWait (a : At) (s : State) : Host.Outcome State Fault Refusal := .next (runHob 0x81 a (checks (fun j s => s.badConn j.ctx (bits j.w0.toNat 0 15) 0)) inboundBody s)

/-- R58: FLUE_WAIT_TIMEOUT: its timeout has passed. -/
def State.inboundTimeout (s : State) (a : At) : State :=
  match s.rec? a with
  | none => s
  | some r =>
    match r.wait with
    | some (.inbound _ _ (some t)) =>
      if r.state == .issued && t ≤ s.now.toNat && s.running then (s.finish a { status := St.timeout }).markFree else s
    | _ => s

/-- R58: FLUE_WAIT_TIMEOUT. -/
def execFlueWaitTimeout (a : At) (s : State) : Host.Outcome State Fault Refusal := .next (s.inboundTimeout a)

/-- R319: the FLUE.WAITs of a connection whose threshold RX_DONE has reached complete. -/
def State.releaseInbound (s : State) (n : Nat) : State :=
  let v := (s.conn n).rxDone.setWidth 64
  s.finishWaits (fun _ w =>
    match w with
    | .inbound c th _ => if c == n && th ≤ v then some { result := v } else none
    | _ => none)

/-! ### The end of an outbound message -/

/-- R315: the instruction that sent a message. -/
def State.sender (s : State) (n seq : Nat) : Option At :=
  (s.allRecs.find? (fun r => r.state == .issued && r.wait == some (.sent n seq))).map JRec.site

/-- R226: layers of a window that are fully acknowledged: those begun without a message outstanding. -/
def Win.countAcked (w : Win) : Nat :=
  ((List.range w.begun).filter (fun k => !(w.msgs.any (fun m => m.2 == k)))).length

/-- R226, R227: message `seq` of connection n is acknowledged: its window counts it, and a WIN.CLOSE that waited for the
last one completes. -/
def State.winAck (s : State) (n seq : Nat) : State :=
  match s.wins.find? (fun w => w.2.conn == n && w.2.msgs.any (fun m => m.1 == seq)) with
  | none => s
  | some (i, w) =>
    let w := { w with msgs := w.msgs.filter (fun m => m.1 != seq) }
    let w := { w with acked := w.countAcked }
    if w.closing && w.msgs.isEmpty then
      { s with wins := s.wins.del i }.finishWaits (fun _ w => if w == Wait.winClose i then some {} else none)
    else { s with wins := s.wins.put i w }

/-- R325: a message is done: the done sequences, and RX_CUM past those that are. -/
def advanceCum : Nat → BitVec 32 → List Nat → BitVec 32 × List Nat
  | 0, c, l => (c, l)
  | k + 1, c, l => if l.contains c.toNat then advanceCum k (c + 1) (l.filter (· != c.toNat)) else (c, l)

/-- R325: sequence `seq` of a connection is done; a failed message is remembered for 256 sequences more (log 33). -/
def State.markDone (s : State) (n seq : Nat) : State :=
  let x := s.conn n
  let (c, l) := advanceCum 257 x.rxCum (seq :: x.done)
  s.setConn n { x with
    rxCum := c, done := l
    granted := x.granted.filter (fun g => g.1 != seq || x.rx.any (fun m => m.seq == seq && m.failed.isSome))
    rx := x.rx.filter (fun m => if m.failed.isSome then decide ((c - BitVec.ofNat 32 m.seq).toNat ≤ 256) ||
        !(seqBefore (BitVec.ofNat 32 m.seq) c) else m.seq != seq) }

/-- R319: a message completes: RX_DONE, its waits, ACK COMPLETE. -/
def State.completeRx (s : State) (n seq : Nat) : State :=
  let s := s.markDone n seq
  let x := s.conn n
  let s := s.setConn n { x with rxDone := x.rxDone + 1 }
  (s.sendAck n (BitVec.ofNat 32 seq) 1 0xFFFF []).releaseInbound n

/-! ### PFC (R322) -/

/-- R322: XOFF above 256 KiB and XON below 128 KiB of ingress buffer, per enabled priority of a port. -/
def State.pfcUpdate (s : State) (p : Side) : State :=
  (List.range 8).foldl (fun s k =>
    let x := s.flu.port.get p
    let n := s.ingressBytes p k
    if !(s.flu.pfcEn.getLsbD k) || !x.up then s
    else if 262144 < n && !(x.xoff.contains k) then
      (s.setPort p { x with xoff := insNat x.xoff k }).queueFrame p { pfc := some (k, 65535), control := true, counted := s.counted 64 }
    else if n < 131072 && x.xoff.contains k then
      (s.setPort p { x with xoff := x.xoff.filter (· != k) }).queueFrame p { pfc := some (k, 0), control := true, counted := s.counted 64 }
    else s) s

/-- R322: XOFF and XON of both ports, wherever buffered packets have come or gone. -/
def State.pfcBoth (s : State) : State := (s.pfcUpdate .west).pfcUpdate .east

/-! ### Closing (R313, R314, R326) -/

/-- R227, R313: a WIN.CLOSE that waits on a window of a connection that is gone completes. -/
def State.winGone (s : State) (n : Nat) : State :=
  (s.wins.filter (fun w => w.2.conn == n)).foldl (fun s w =>
    if w.2.closing then
      { s with wins := s.wins.del w.1 }.finishWaits (fun _ x =>
        if x == Wait.winClose w.1 then some { status := St.window } else none)
    else s.winFail w.1) s

/-- R313, R329: the in-flight counts of packets held and of READ answers are released. -/
def State.releaseCounts (s : State) (n : Nat) : State :=
  let x := s.conn n
  let ks := x.rx.flatMap (fun m => m.keys.vals) ++ x.reads.map (·.1) ++ x.tx.filterMap (fun m =>
    if m.next < packetsOf m.data.length then m.readKey else none)
  ks.foldl State.keyDown s

/-- R313: three CLOSE packets on each port that is up, 1 µs apart. -/
def State.sendCloses (s : State) (n reason : Nat) : State :=
  let one (k : Nat) (s : State) (p : Side) : State :=
    if s.portCarries p then s.sendControl n p 3 0 (leBytes 4 reason) (s.now.toNat + 1000 * k) else s
  (List.range 3).foldl (fun s k => one k (one k s .west) .east) s

/-- R313: the frame is a CLOSE of connection n. -/
def TxFrame.closes (f : TxFrame) (n : Nat) : Bool :=
  match f.pkt with
  | some k => f.conn == n && k.type == 3
  | none => false

/-- R313 step 1: queued DATA, READ and ACK frames of a connection do not leave. -/
def State.dropFrames (s : State) (n : Nat) : State :=
  { s with flu := { s.flu with port := s.flu.port.map (fun x => { x with
    queue := x.queue.filter (fun f => f.pkt.isNone || f.conn != n || f.closes n) }) } }

/-- R313 step 6, R337: a CLOSING connection whose CLOSE packets have all left is CLOSED and its keys are gone (R398); a CLOSE command
that ran for it is done. -/
def State.endClose (s : State) (n : Nat) : State :=
  let x := s.conn n
  let left (p : Side) : Bool := ((s.flu.port.get p).queue).any (fun f => f.closes n)
  if x.state != .closing || left .west || left .east then s
  else
    let s := s.setConn n { x with state := .closed, keyed := none }
    let mine := s.flu.closing == some n
    { s with flu := { s.flu with
      closing := if mine then none else s.flu.closing
      connStatus := if mine then s.flu.connStatus &&& ~~~(1 : BitVec 64) ||| 2 else s.flu.connStatus } }

/-- R313, R398: a connection closes: CLOSE packets (unless the peer's CLOSE brought it), its sends and waits, its reassembly, its
windows; it stays CLOSING until its CLOSE packets have left. -/
def State.closeConn (s : State) (n : Nat) (reason : Option Nat) (st : Status := St.peerClosed) : State :=
  let x := s.conn n
  if x.state != .opened then s
  else
    let s := (s.setConn n { x with state := .closing }).dropFrames n
    let s := match reason with
      | some r => s.sendCloses n r
      | none => s
    let s := s.finishWaits (fun _ w =>
      match w with
      | .sent c _ => if c == n then some { status := st } else none
      | .inbound c .. => if c == n then some { status := st } else none
      | _ => none)
    let s := (s.releaseCounts n).winGone n
    let y := s.conn n
    (s.setConn n { y with tx := [], rx := [], reads := [], granted := [] }).pfcBoth.endClose n

/-- R313, R330: connections whose transmit counter would pass 2^63 close. -/
def State.closeWorn (s : State) : State :=
  ((s.flu.conns.filter (fun p => p.2.state == .opened && p.2.worn)).map (·.1)).foldl (fun s n => s.closeConn n (some 0)) s

/-- R314: a packet for a connection that is not OPEN: counted, and on a KEYED connection answered with CLOSE once a
millisecond. -/
def State.noConn (s : State) (n : Nat) (p : Side) : State :=
  let s := s.count 0x03500248
  let x := s.conn n
  let ms := s.now.toNat / 1000000
  if x.state == .closed && !x.sealed && x.closeMs != some ms && s.portCarries p then
    (s.setConn n { x with closeMs := some ms }).sendControl n p 3 0 (leBytes 4 0)
  else s

/-! ### The key check (R328) -/

/-- R328: the Domino key of a lookup. -/
def keyLookup (rkey : BitVec 32) (ctx conn : Nat) : BitVec 256 :=
  BitVec.ofNat 256 (rkey.toNat + ctx * 2 ^ 32 + conn * 2 ^ 44)

/-- R328: the check of a packet at a port: the registration, or the ACK status of the failure (3 or 4). -/
def State.keyCheck (s : State) (p : Side) (n : Nat) (rkey : BitVec 32) (addr len : Nat) (read : Bool) : Except Nat Nat :=
  match s.domLookup p .keys (keyLookup rkey (s.conn n).ctx.toNat n) with
  | none => .error 3
  | some ((_, e), _) =>
    let i := bits e.result.toNat 0 12
    match s.flu.keys.look i with
    | none => .error 3
    | some k =>
      if k.revoking || k.gen.toNat ≠ bits e.result.toNat 12 16 then .error 3
      else if (if read then k.read else k.write) && k.base ≤ addr && addr + len ≤ k.base + k.len then .ok i
      else .error 4

/-- R328: a passing check raises the in-flight count. -/
def State.keyUp (s : State) (i : Nat) : State :=
  match s.flu.keys.look i with
  | none => s
  | some k => { s with flu := { s.flu with keys := s.flu.keys.put i { k with inflight := k.inflight + 1 } } }

/-! ### Receiving: what becomes visible (R317-R319) -/

/-- R316: an inbound message. -/
def State.rx? (s : State) (n seq : Nat) : Option RxMsg := (s.conn n).rx.find? (fun m => m.seq == seq)

/-- R316: an inbound message replaced. -/
def State.setRx (s : State) (n : Nat) (m : RxMsg) : State :=
  let x := s.conn n
  s.setConn n { x with rx := x.rx.map (fun y => if y.seq == m.seq then m else y) }

/-- R321, R342: credit granted for packets of message q written or dropped, once for each packet however often it comes. -/
def State.grantCredit (s : State) (n q : Nat) (is : List Nat) : State :=
  let x := s.conn n
  let fresh := (is.eraseDups).filter (fun i => !(x.granted.contains (q, i)))
  s.setConn n { x with
    rxLimit := x.rxLimit + BitVec.ofNat 32 fresh.length, granted := fresh.map (fun i => (q, i)) ++ x.granted }

/-- R318: every index has arrived. -/
def RxMsg.whole (m : RxMsg) : Bool := decide (m.count ≤ m.arrived.eraseDups.length)

/-- R318: the trailer verifies over the payload in index order. -/
def RxMsg.trailerOk (m : RxMsg) : Bool := m.trailer == some (crc32c (m.payload.vals.flatten))

/-- R325: sequence q of a connection is done. -/
def Conn.isDone (x : Conn) (q : Nat) : Bool := seqBefore (BitVec.ofNat 32 q) x.rxCum || x.done.contains q

/-- R317: every earlier message of the connection is done. -/
def Conn.earlierDone (x : Conn) (q : Nat) : Bool :=
  (List.range (Nat.min 257 (BitVec.ofNat 32 q - x.rxCum).toNat)).all
    (fun i => x.isDone ((x.rxCum + BitVec.ofNat 32 i).toNat))

/-- R317: packet i of a message may be written now. -/
def Conn.mayWrite (x : Conn) (m : RxMsg) (i : Nat) : Bool :=
  let last := i + 1 = m.count
  let lower := (List.range i).all (fun k => m.written.contains k)
  if last then m.whole && m.trailerOk && lower && (if x.relaxed && !m.final then true else x.earlierDone m.seq)
  else if x.relaxed then true else lower && x.earlierDone m.seq

/-- R317, R283: a held packet that may be written, and whose lines no host holds. -/
def State.writable (s : State) (n : Nat) : Option (RxMsg × (Side × Nat × Packet)) :=
  let x := s.conn n
  x.rx.findSome? (fun m =>
    if m.failed.isSome then none
    else (m.held.find? (fun h => x.mayWrite m h.2.2.pktIdx.toNat &&
      (trackedIn (s.tracked.map (·.1)) h.2.2.raddr.toNat h.2.2.payload.length).isEmpty)).map (fun h => (m, h)))

/-- R317, R319, R328: one packet is written; a final write completes the message and raises its region's event. -/
def State.writePacket (s : State) (n : Nat) (m : RxMsg) (h : Side × Nat × Packet) : State :=
  let i := h.2.2.pktIdx.toNat
  let key := m.keys.look i
  let s := s.poke h.2.2.raddr.toNat h.2.2.payload
  let s := s.ctxEvent (s.conn n).ctx.toNat 4 0 noFilter 0xFFFF 0xFFFF h.2.2.payload.length
  let s := s.setRx n { m with
    held := m.held.filter (fun y => y.2.2.pktIdx != h.2.2.pktIdx), written := i :: m.written, keys := m.keys.del i }
  let s := (match key with
    | some k => s.keyDown k
    | none => s).grantCredit n m.seq [i]
  if i + 1 = m.count then
    let ev := key.bind (fun k => (s.flu.keys.look k).bind (·.event))
    let s := s.completeRx n m.seq
    match ev with
    | some e => (s.signal (s.conn n).ctx.toNat e 1 false).markFree
    | none => s
  else s

/-- R317: every packet that may be written is, in turn; the first argument bounds them. -/
def State.writeHeld : Nat → State → Nat → State
  | 0, s, _ => s
  | k + 1, s, n =>
    match s.writable n with
    | none => s
    | some (m, h) => State.writeHeld k (s.writePacket n m h) n

/-- R318: a message whose trailer fails: held packets discarded, its bitmap cleared, ACK CRC_FAIL. -/
def State.crcFail (s : State) (n : Nat) (m : RxMsg) : State :=
  let s := (m.keys.vals.foldl State.keyDown s).grantCredit n m.seq (m.held.map (fun h => h.2.2.pktIdx.toNat))
  let s := s.setRx n { m with
    arrived := [], written := [], held := [], payload := [], trailer := none, keys := [], unacked := [], unackedAt := none }
  (s.count 0x03500260).sendAck n (BitVec.ofNat 32 m.seq) 2 0xFFFF []

/-- R283: lines of held packets that hosts hold are snooped. -/
def State.snoopHeld (s : State) (n : Nat) : State :=
  let ls := (s.conn n).rx.flatMap (fun m => m.held.flatMap (fun h =>
    lineNos (trackedIn (s.tracked.map (·.1)) h.2.2.raddr.toNat h.2.2.payload.length)))
  if ls.isEmpty then s else s.sendSnoops (ls.foldl insNat [])

/-- R316, R321, R325: packet i of a message fails it with an ACK status: it is done, and the packet and those held are dropped, each with
its credit. -/
def State.failMsg (s : State) (n seq i status : Nat) : State :=
  let m := (s.rx? n seq).getD { seq := seq }
  let s := if (s.rx? n seq).isNone then s.setConn n { s.conn n with rx := (s.conn n).rx ++ [m] } else s
  let s := (m.keys.vals.foldl State.keyDown s).setRx n { m with
    arrived := i :: m.arrived, failed := some status, held := [], keys := [], payload := [], unacked := [], unackedAt := none }
  let s := (s.markDone n seq).grantCredit n seq (i :: m.held.map (fun h => h.2.2.pktIdx.toNat))
  s.sendAck n (BitVec.ofNat 32 seq) status 0xFFFF []

/-- R332: the length that a READ asks for. -/
def readLen (k : Packet) : Nat := ofBytes ((k.payload.drop 12).take 4)

/-- R332: the answer to a READ begins: one message of the bytes, whose registration stays in flight until they have been read. -/
def State.answerRead (s : State) (n key : Nat) (k : Packet) : State :=
  (s.beginMsg n {
    data := s.peek k.raddr.toNat (readLen k), raddr := BitVec.ofNat 64 (ofBytes (k.payload.take 8))
    rkey := BitVec.ofNat 32 (ofBytes ((k.payload.drop 8).take 4)), readSeq := some k.msgSeq.toNat, readKey := some key }).2

/-- R283, R315, R332: the answers that wait begin, oldest first, while the connection may begin a message and no host holds the lines to
be read (those are snooped); a source that cannot be read fails its READ with ACCESS (log 33), and a MAC failure is counted (R382). -/
def State.beginReads : Nat → State → Nat → State
  | 0, s, _ => s
  | j + 1, s, n =>
    let x := s.conn n
    match x.reads with
    | [] => s
    | (key, k) :: r =>
      let ls := lineNos (trackedIn (s.tracked.map (·.1)) k.raddr.toNat (readLen k))
      if !x.mayBegin || x.state != .opened then s
      else if !ls.isEmpty then s.sendSnoops (ls.foldl insNat [])
      else
        let s := s.setConn n { x with reads := r }
        let s := match s.mem.readErr k.raddr.toNat (readLen k) with
          | some (st, _) => ((s.countFailure st).keyDown key).failMsg n k.msgSeq.toNat 0 4
          | none => s.answerRead n key k
        State.beginReads j s n

/-- R317-R319, R322, R332: what a connection has received becomes visible as far as it may, READ answers that waited begin, and both ports'
buffers are looked at again. -/
def State.flushConn (s : State) (n : Nat) : State :=
  let bad := (s.conn n).rx.filter (fun m => m.failed.isNone && !m.read && m.whole && !m.trailerOk)
  let s := bad.foldl (fun s m => s.crcFail n m) s
  let s := s.beginReads (s.conn n).reads.length n
  let s := s.snoopHeld n
  (s.writeHeld ((s.conn n).rx.foldl (fun k m => k + m.held.length) 0) n).pfcBoth

/-- R316, R317, R328, R333: a message fails (a failed key check is counted), and what it held back of later ones becomes visible. -/
def State.failRx (s : State) (n seq i status : Nat) (key : Bool) : State :=
  let s := s.failMsg n seq i status
  (if key then s.count 0x03500240 else s).flushConn n

/-- R319, R320, R325, R332, R317: an outbound message is done with a status: its FLUE.SEND completes, its window counts it, the READ that it
answers is acknowledged COMPLETE and holds its registration no longer (also where the peer failed the answer), what waited for that READ or for the place becomes visible or begins. -/
def State.endTx (s : State) (n seq : Nat) (d : Done) : State :=
  match s.tx? n seq with
  | none => s
  | some m =>
    let x := s.conn n
    let s := s.setConn n { x with tx := x.tx.filter (fun y => y.seq != seq) }
    let s := match s.sender n seq with
      | some a => (s.finish a d).markFree
      | none => s
    let s := if Status.success d.status then s.winAck n seq else s
    let s := match m.readKey with
      | some i => if m.next < packetsOf m.data.length then s.keyDown i else s
      | none => s
    let s := match m.readSeq with
      | some q => s.completeRx n q
      | none => s
    s.flushConn n

/-! ### Receiving: the checks (R310, R314, R316) -/

/-- R310: the header is malformed. -/
def malformed (k : Packet) : Bool :=
  k.version != 1 || !(decide (1 ≤ k.type.toNat) && decide (k.type.toNat ≤ 4)) || k.flags.toNat / 32 != 0
    || k.conn.getLsbD 15 || k.cls.toNat / 64 != 0 || k.plen.toNat / 8192 != 0 || k.rsv != 0
    || k.plen.toNat != k.payload.length

/-- R310, R320: the header fields that a packet of a type must hold, its length, and an ACK's reserved bytes. -/
def typeOk (k : Packet) : Bool :=
  match k.type.toNat with
  | 1 => true
  | 2 => k.pktIdx == 0 && k.pktCnt == 1 && k.rkey == 0 && k.raddr == 0 && k.payload.length == 96
    && ((k.payload.drop 9).take 1 ++ (k.payload.drop 12).take 4 ++ k.payload.drop 80).all (· == 0)
  | 3 => k.msgSeq == 0 && k.pktIdx == 0 && k.pktCnt == 1 && k.rkey == 0 && k.raddr == 0 && k.payload.length == 4
  | _ => k.pktIdx == 0 && k.pktCnt == 1 && k.payload.length == 16

/-- R316: the frame comes from the connection's peer in its encapsulation. -/
def Conn.fromPeer (x : Conn) (k : Packet) : Bool :=
  k.encap == x.encap && (if x.encap = 0 then k.srcMac == x.peerMac
    else if x.encap = 1 then k.srcIp.setWidth 32 == x.peerIp.setWidth 32 else k.srcIp == x.peerIp)

/-- R321: whether a dropped DATA or READ packet is one for which its connection still owes credit: its message is within the window and has
not completed. -/
def State.owes (s : State) (n : Nat) (k : Packet) : Bool :=
  let x := s.conn n
  x.state == .opened && (k.type == 1 || k.type == 4) && decide ((k.msgSeq - x.rxCum).toNat < 256) &&
    (!(x.isDone k.msgSeq.toNat) || x.rx.any (fun m => m.seq == k.msgSeq.toNat && m.failed.isSome))

/-- R321, R342: a DATA or READ packet is dropped with its credit. -/
def State.dropCredit (s : State) (n : Nat) (k : Packet) : State :=
  if s.owes n k then s.grantCredit n k.msgSeq.toNat [k.pktIdx.toNat] else s

/-- R310, R321: a malformed packet is counted and dropped; one that names an OPEN connection as a DATA or READ packet of VERSION 1 is
dropped with its credit. -/
def State.malformedCredit (s : State) (k : Packet) : State :=
  let s := s.count 0x03500238
  if k.version == 1 then s.dropCredit (bits k.conn.toNat 0 15) k else s

/-- R331: MACsec at a port that receives a frame: where it is in force, the frame carries the peer's SCI, a valid ICV and a packet
number that strict replay protection with a window of 0 still accepts; elsewhere it carries no SecTAG. -/
def State.macsecIn (s : State) (p : Side) (t : Option SecTag) : Option State :=
  let x := s.flu.port.get p
  match x.secured, t with
  | false, none => some s
  | false, some _ => none
  | true, none => none
  | true, some t => if t.icvOk && t.sci == x.peerSci && x.rxPn ≤ t.pn then some (s.setPort p { x with rxPn := t.pn + 1 }) else none

/-- R303: the lengths of frame that a port receives. -/
def frameFits (n : Nat) : Bool := decide (64 ≤ n) && decide (n ≤ 9216)

/-- R303, R305, R310, R331, R335: a Flue packet of type `type` at a port: it reaches `go` with the connection it names, when the port takes
Flue frames, the frame is within the lengths received, MACsec passes it and its header is well formed; otherwise nothing happens, or it is
counted and dropped. -/
def State.takePacket (s : State) (p : Side) (type : Nat) (k : Packet) (go : Nat → State → State) : State :=
  if !s.portCarries p || !(frameFits k.frameLen) || (k.type.toNat ≠ type && decide (1 ≤ k.type.toNat) && decide (k.type.toNat ≤ 4)) then
    if (s.flu.port.get p).up && frameFits k.frameLen && !s.flu.flueEn then s.count 0x03500248 else s
  else
    match s.macsecIn p k.sec with
    | none => s.count 0x03500250
    | some s =>
      let s := if k.ce then s.count 0x03500258 else s
      if malformed k || !(typeOk k) then s.malformedCredit k
      else go (bits k.conn.toNat 0 15) s

/-- R316: the checks that ACK, CLOSE, DATA and READ share: the connection, the seal, the alive count. -/
def State.authentic (s : State) (p : Side) (n : Nat) (k : Packet) (go : State → State) : State :=
  let x := s.conn n
  if x.state != .opened then s.noConn n p
  else if !(x.fromPeer k) then s.count 0x03500248
  else if pktSealed k != x.sealed || (x.sealed && !k.sealOk) then s.count 0x03500230
  else if k.alive != x.peerAlive then s.count 0x03500228
  else go (s.setConn n { x with lastPort := p })

/-- R316, R320: a DATA or READ packet of a done message: a duplicate, answered with COMPLETE, or with the status with which
the message failed while that is known (log 33); R321: a packet of a failed message that had not arrived is dropped with its
credit. -/
def State.dupRx (s : State) (n : Nat) (k : Packet) : State :=
  let s := s.count 0x03500220
  if !((s.conn n).isDone k.msgSeq.toNat) then s
  else
    match s.rx? n k.msgSeq.toNat with
    | none => s.sendAck n k.msgSeq 1 0xFFFF []
    | some m =>
      let i := k.pktIdx.toNat
      let s := if m.failed.isNone || m.arrived.contains i then s
        else (s.setRx n { m with arrived := i :: m.arrived }).grantCredit n m.seq [i]
      s.sendAck n k.msgSeq (m.failed.getD 1) 0xFFFF []

/-- R315, R316: PKTCNT, PKTIDX and PLEN agree with R315 and with earlier packets of the message. -/
def State.shapeOk (s : State) (n : Nat) (k : Packet) : Bool :=
  let cnt := k.pktCnt.toNat
  let i := k.pktIdx.toNat
  1 ≤ cnt && cnt ≤ 16384 && i < cnt && (if i + 1 = cnt then 1 ≤ k.payload.length && k.payload.length ≤ 4096
    else k.payload.length == 4096) && decide ((k.msgSeq - (s.conn n).rxCum).toNat < 256) &&
    (match s.rx? n k.msgSeq.toNat with
      | some m => m.count == cnt && m.final == pktFinal k && !m.read
      | none => true)

/-- R316-R320: a DATA packet that passed every check: it is written or held, and acknowledged. -/
def State.acceptData (s : State) (p : Side) (n cls key : Nat) (k : Packet) : State :=
  let q := k.msgSeq.toNat
  let i := k.pktIdx.toNat
  let x := s.conn n
  let s := if (s.rx? n q).isNone then
      s.setConn n { x with rx := x.rx ++ [{ seq := q, count := k.pktCnt.toNat, final := pktFinal k }] } else s
  let s := (s.keyUp key).count 0x03500208
  let s := s.ctxEvent x.ctx.toNat 0x0B 0 noFilter 0xFFFF 0xFFFF (s.counted k.frameLen)
  let s := if i = 0 then s.trace p { type := 10, cls := 10, unit := x.peerConn.toNat, ctx := some x.ctx.toNat, ring := n
                                     layer := 0xFFFF, opid := 0xFFFF, index := q, arg := k.ts.toNat } else s
  let s := match s.rx? n q with
    | none => s
    | some m => s.setRx n { m with
        arrived := i :: m.arrived, held := m.held ++ [(p, s.prioOf cls, k)], payload := m.payload.put i k.payload
        trailer := if i + 1 = m.count then some k.trailer else m.trailer, keys := m.keys.put i key
        unacked := i :: m.unacked, unackedAt := some (m.unackedAt.getD s.now.toNat) }
  let s := s.pfcBoth.flushConn n
  match s.rx? n q with
  | some m => if 32 ≤ m.unacked.length then s.sendProgress n q else s
  | none => s

/-- R338: the ingress steps of a DATA or READ packet for an OPEN connection; a drop counts for credit (R342). -/
def State.policed (s : State) (p : Side) (n : Nat) (k : Packet) (go : Nat → State → State) : State :=
  if (s.conn n).state != .opened then s.noConn n p
  else
    match s.ingress p n k with
    | (none, s) => s.dropCredit n k
    | (some cls, s) => go cls s

/-- R316: FLUE_DATA_RECEIVE. -/
def State.receiveData (s : State) (p : Side) (k : Packet) : State :=
  s.takePacket p 1 k (fun n s => s.policed p n k (fun cls s => s.authentic p n k (fun s =>
    let q := k.msgSeq.toNat
    if (s.conn n).isDone q || (match s.rx? n q with
        | some m => m.arrived.contains k.pktIdx.toNat
        | none => false) then s.dupRx n k
    else if !(s.shapeOk n k) then (s.count 0x03500238).dropCredit n k
    else
      match s.keyCheck p n k.rkey k.raddr.toNat k.payload.length false with
      | .error st => s.failRx n q k.pktIdx.toNat st true
      | .ok i => s.acceptData p n cls i k)))

/-- R316: FLUE_DATA_RECEIVE. -/
def execFlueDataReceive (port : Side) (pkt : Packet) (s : State) : Host.Outcome State Fault Refusal :=
  .next (s.receiveData port pkt)

/-- R320, R332: a READ that passed its checks has arrived; its answer begins once it may. -/
def State.acceptRead (s : State) (n key : Nat) (k : Packet) : State :=
  let q := k.msgSeq.toNat
  let x := s.conn n
  let s := (s.keyUp key).setConn n { x with
    rx := x.rx ++ [{ seq := q, count := 1, arrived := [0], read := true, unacked := [0], unackedAt := some s.now.toNat }]
    reads := x.reads ++ [(key, k)] }
  ((s.count 0x03500208).grantCredit n q [0]).flushConn n

/-- R332: FLUE_READ_RECEIVE. -/
def State.receiveRead (s : State) (p : Side) (k : Packet) : State :=
  s.takePacket p 4 k (fun n s => s.policed p n k (fun _ s => s.authentic p n k (fun s =>
    let q := k.msgSeq.toNat
    let len := readLen k
    if (s.conn n).isDone q || (s.rx? n q).isSome then s.dupRx n k
    else if len = 0 || 67108864 < len || 256 ≤ (k.msgSeq - (s.conn n).rxCum).toNat then (s.count 0x03500238).dropCredit n k
    else if !s.flu.readEn then s.failRx n q 0 4 false
    else
      match s.keyCheck p n k.rkey k.raddr.toNat len true with
      | .error st => s.failRx n q 0 st true
      | .ok i => s.acceptRead n i k)))

/-- R332: FLUE_READ_RECEIVE. -/
def execFlueReadReceive (port : Side) (pkt : Packet) (s : State) : Host.Outcome State Fault Refusal :=
  .next (s.receiveRead port pkt)

/-- R313: FLUE_CLOSE_RECEIVE: an authentic CLOSE closes the connection. -/
def State.receiveClose (s : State) (p : Side) (k : Packet) : State :=
  s.takePacket p 3 k (fun n s => s.authentic p n k (fun s => s.closeConn n none))

/-- R313: FLUE_CLOSE_RECEIVE. -/
def execFlueCloseReceive (port : Side) (pkt : Packet) (s : State) : Host.Outcome State Fault Refusal :=
  .next (s.receiveClose port pkt)

/-- R324, R333: packets of a message not yet covered are sent again, each counted as it is given to a port. -/
def State.resendMsg (s : State) (n : Nat) (m : TxMsg) : State :=
  let x := s.conn n
  let todo := (List.range m.next).filter (fun i => !(m.covered.contains i))
  let m := { m with
    resent := (todo ++ m.resent).eraseDups, sent := m.sent.map (fun e => (e.1, e.2.1, 0, e.2.2.2)), progress := s.now.toNat, due := false }
  todo.foldl (fun s i =>
    match s.choosePort x.cls.toNat with
    | some p => if (s.conn n).worn then s else (s.sendPacket n m i p).count 0x03500218
    | none => s) (s.setTx n m)

/-- R320: indices that a bitmap covers. -/
def ackIndices (payload : List Byte) : List Nat :=
  let base := ofBytes ((payload.drop 10).take 2)
  let bm := ofBytes ((payload.drop 16).take 64)
  if base = 0xFFFF then [] else ((List.range 512).filter (fun b => bitOf bm b)).map (· + base)

/-- R320, R321, R324: what an ACK changes of credit and coverage. -/
def State.ackProgress (s : State) (n : Nat) (k : Packet) : State :=
  let lim := BitVec.ofNat 32 (ofBytes (k.payload.take 4))
  let x := s.conn n
  let more := seqBefore x.txLimit lim
  let now := s.now.toNat
  let idx := ackIndices k.payload
  let news (m : TxMsg) : Bool := m.seq == k.msgSeq.toNat && idx.any (fun i => i < m.next && !(m.covered.contains i))
  let some_ := more || x.tx.any news
  s.setConn n { x with
    txLimit := if more then lim else x.txLimit
    timeouts := if some_ then 0 else x.timeouts
    tx := x.tx.map (fun m =>
      let cov := if m.seq == k.msgSeq.toNat then (m.covered ++ idx.filter (· < m.next)).eraseDups else m.covered
      { m with covered := cov, progress := if more || news m then now else m.progress }) }

/-- R319, R320: FLUE_ACK_RECEIVE. -/
def State.receiveAck (s : State) (p : Side) (k : Packet) : State :=
  s.takePacket p 2 k (fun n s => s.authentic p n k (fun s =>
    let s := s.ackProgress n k
    let q := k.msgSeq.toNat
    let st := ofBytes ((k.payload.drop 8).take 1)
    let s := match s.tx? n q with
      | none => s
      | some m =>
        if m.next = 0 then s
        else match st with
          | 1 => s.endTx n q { result := BitVec.ofNat 64 q }
          | 2 => s.resendMsg n { m with covered := [] }
          | 3 => s.endTx n q { status := St.keyRevoked }
          | 4 => s.endTx n q { status := St.access, detail := 2 }
          | _ => s
    s.pumpConn n))

/-- R320: FLUE_ACK_RECEIVE. -/
def execFlueAckReceive (port : Side) (pkt : Packet) (s : State) : Host.Outcome State Fault Refusal :=
  .next (s.receiveAck port pkt)

/-- R305: FRAME_RECEIVE: what is neither Flue, PFC nor MACsec key agreement is dropped and counted; R331: so is a frame that MACsec does
not pass; R335: uncorrectable FEC codewords are counted; R303: a frame outside the lengths received is not received. -/
def State.receiveFrame (s : State) (p : Side) (f : EthFrame) : State :=
  let x := s.flu.port.get p
  if !x.up || !(frameFits f.len) then s
  else
    let s := if f.fecBad then s.setPort p { x with
      fecUncorr := if x.fecUncorr = 0xFFFF then x.fecUncorr else x.fecUncorr + 1 } else s
    if f.fecBad then s
    else
      let port := bits s.flu.encap.toNat 16 16
      let ours := f.etherType.toNat == bits s.flu.encap.toNat 0 16 || (match f.udp with
        | some (six, ip, dp) =>
          dp.toNat == port && (if six then ip == s.flu.ip6 else ip.setWidth 32 == s.flu.ip4)
        | none => false)
      if f.pfc || f.mka then s
      else
        match s.macsecIn p f.sec with
        | none => s.count 0x03500250
        | some t => if ours then t else t.count 0x03500250

/-- R305: FRAME_RECEIVE. -/
def execFrameReceive (port : Side) (frame : EthFrame) (s : State) : Host.Outcome State Fault Refusal :=
  .next (s.receiveFrame port frame)

/-- R322: PFC_RECEIVE: a pause of a priority, or its end. -/
def State.receivePfc (s : State) (p : Side) (prio pause : Nat) : State :=
  let x := s.flu.port.get p
  if !x.up || !(s.flu.pfcEn.getLsbD prio) then s
  else if pause = 0 then s.setPort p { x with paused := x.paused.del prio }
  else s.setPort p { x with paused := x.paused.put prio (s.now.toNat + pause) }

/-- R322: PFC_RECEIVE. -/
def execPfcReceive (port : Side) (prio pauseNs : Nat) (s : State) : Host.Outcome State Fault Refusal :=
  .next (s.receivePfc port prio pauseNs)

/-- R322: PFC_PAUSE_EXPIRY: the pause time of a priority has run out. -/
def State.pauseEnds (s : State) (p : Side) (prio : Nat) : State :=
  let x := s.flu.port.get p
  match x.paused.look prio with
  | some t => if t ≤ s.now.toNat then s.setPort p { x with paused := x.paused.del prio } else s
  | none => s

/-- R322: PFC_PAUSE_EXPIRY. -/
def execPfcPauseExpiry (port : Side) (prio : Nat) (s : State) : Host.Outcome State Fault Refusal :=
  .next (s.pauseEnds port prio)

/-! ### Timers (R320, R323, R324, R326) -/

/-- R320: ACK_DELAY_EXPIRY. -/
def State.ackDelay (s : State) (n : Nat) (seq : BitVec 32) : State :=
  match s.rx? n seq.toNat with
  | some m =>
    match m.unackedAt with
    | some t => if (s.conn n).state == .opened && t + 1000 * s.flu.ackDelayUs ≤ s.now.toNat then s.sendProgress n seq.toNat
      else s
    | none => s
  | none => s

/-- R320: ACK_DELAY_EXPIRY. -/
def execAckDelayExpiry (conn : Nat) (msgSeq : BitVec 32) (s : State) : Host.Outcome State Fault Refusal :=
  .next (s.ackDelay conn msgSeq)

/-- R323: LINK_REPLAY: a packet that no bitmap has covered 5 µs after its latest transmission (none while it waits in a queue) goes again, on the other port
when that is up, at most 4 times; R469: a link replay is counted with the link errors. -/
def State.linkReplay (s : State) (n : Nat) (seq : BitVec 32) (i : Nat) : State :=
  match s.tx? n seq.toNat with
  | none => s
  | some m =>
    match m.sent.find? (fun e => e.1 == i) with
    | none => s
    | some (_, t, reps, p) =>
      if m.covered.contains i || (s.conn n).worn || 4 ≤ reps || (t.all (fun t => s.now.toNat < t + 5000)) || (s.conn n).state != .opened then s
      else
        let outPort := if s.portCarries p.other then some p.other else if s.portCarries p then some p else none
        match outPort with
        | none => s
        | some q =>
          let m' := { m with sent := m.sent.map (fun e => if e.1 == i then (i, t, reps + 1, p) else e) }
          (((s.setTx n m').sendPacket n m' i q).count 0x03500210).countAo 0x03800120

/-- R323: LINK_REPLAY. -/
def execLinkReplay (conn : Nat) (msgSeq : BitVec 32) (pktIdx : Nat) (s : State) : Host.Outcome State Fault Refusal :=
  .next (s.linkReplay conn msgSeq pktIdx)

/-- R326: both ports have been down for a whole message timeout: each send in flight completes ST_LINK_DOWN. -/
def State.linkDown (s : State) : State :=
  (s.allRecs.foldl (fun s r =>
    match r.wait with
    | some (.sent n q) => if r.state == .issued then s.endTx n q { status := St.linkDown } else s
    | _ => s) s).markFree

/-- R324, R326: MESSAGE_TIMEOUT. -/
def State.msgTimeout (s : State) (n : Nat) (seq : BitVec 32) : State :=
  match s.tx? n seq.toNat with
  | none => s
  | some m =>
    let x := s.conn n
    let limit := 1000 * s.flu.msgTimeoutUs
    if x.state != .opened || s.now.toNat < m.progress + limit then s
    else
      let down := match s.flu.bothDown with
        | some t => decide (t + limit ≤ s.now.toNat)
        | none => false
      if down then s.linkDown
      else if s.flu.closeAfter ≤ x.timeouts + 1 then s.closeConn n (some 2)
      else
        let s := s.setConn n { x with timeouts := x.timeouts + 1 }
        match s.tx? n seq.toNat with
        | some m => s.resendMsg n m
        | none => s

/-- R324: MESSAGE_TIMEOUT. -/
def execMessageTimeout (conn : Nat) (msgSeq : BitVec 32) (s : State) : Host.Outcome State Fault Refusal :=
  .next (s.msgTimeout conn msgSeq)

/-! ### Egress (R347) -/

/-- R323, R444, R456, R462, R468: what the leaving of a DATA frame records: the time of its transmission, its counters, FLUE_TX where packet
0 first leaves (be it as a replay or a resend); from the last packet on a FLUE.SEND's latency stands still. -/
def State.frameLeft (s : State) (p : Side) (f : TxFrame) : State :=
  match f.pkt with
  | none => s
  | some k =>
    if k.type != 1 then s
    else
      let n := f.conn
      let x := s.conn n
      let q := k.msgSeq.toNat
      let i := k.pktIdx.toNat
      let (ring, lay, opid) := match s.sender n q with
        | some a => match s.rec? a with
          | some r => (a.ring, r.layerNow.toNat, r.inst.opid.toNat)
          | none => (a.ring, 0xFFFF, noFilter)
        | none => (noFilter, 0xFFFF, noFilter)
      let s := (s.count 0x03500200).ctxEvent x.ctx.toNat 0x0A 0 ring lay opid f.counted
      let s := s.ctxEvent x.ctx.toNat 4 0 ring lay opid k.payload.length
      let first : Bool := match s.tx? n q with
        | some m => i = 0 && !m.left
        | none => false
      let s := match s.sender n q with
        | some a => if i + 1 = k.pktCnt.toNat then s.updRec a (fun r => { r with waitFrom := some (r.waitFrom.getD s.now.toNat) }) else s
        | none => s
      let s := if first then s.trace p { type := 9, cls := 10, unit := x.peerConn.toNat, ctx := some x.ctx.toNat, ring := n
                                         layer := lay, opid := opid, index := q, arg := k.pktCnt.toNat } else s
      match s.tx? n q with
      | some m => s.setTx n { m with left := m.left || i = 0, sent := m.sent.map (fun e => if e.1 == i then (i, some s.now.toNat, e.2.2.1, p) else e) }
      | none => s

/-- R309, R331: a frame as it leaves: a Flue frame takes the time stamp of its transmission, and the packet number of the association
where MACsec is in force. -/
def TxFrame.leaving (f : TxFrame) (x : PortState) (now : BitVec 64) : TxFrame :=
  match f.pkt with
  | none => f
  | some k => { f with
    pkt := some (if k.flags.getLsbD 2 then { k with ts := now } else k), sa := if x.secured then some (x.assoc, x.txPn) else none }

/-- R347, R348, R350: EGRESS_FRAME_SEND: the port's next frame leaves, at the end of the one in transmission where that ends within this ns of
the time base, else at its start. -/
def State.sendFrame (s : State) (p : Side) : State :=
  let s := s.gateDue p
  let t := Nat.max (100 * s.now.toNat) (s.flu.port.get p).busyUntil
  let s := s.gateWaits p t
  let x := s.flu.port.get p
  if !x.up || decide (100 * s.now.toNat + 100 ≤ x.busyUntil) then s
  else
    match s.pickFrame p t with
    | none => s
    | some (f, d, c) =>
      let g := f.leaving x s.now
      let s := s.setPort p { x with
        queue := x.queue.erase f, deficit := d, turn := c, busyUntil := t + f.counted, wire := x.wire ++ [g]
        txPn := if g.sa.isSome then x.txPn + 1 else x.txPn }
      (s.frameLeft p g).endClose f.conn

/-- R347: EGRESS_FRAME_SEND. -/
def execEgressFrameSend (port : Side) (s : State) : Host.Outcome State Fault Refusal := .next (s.sendFrame port)

/-! ### Ports (R304, R326, R334, R437) -/

/-- R324, R327: the messages of a connection whose resumption is due are resent, once a port carries them. -/
def State.resumeSends (s : State) (n : Nat) : State :=
  if (s.choosePort (s.conn n).cls.toNat).isNone then s
  else ((s.conn n).tx.filter (·.due)).foldl (fun s m => s.resendMsg n m) s

/-- R304, R327: every connection's packets that wait for a port go. -/
def State.pumpAll (s : State) : State := s.flu.conns.keys.foldl (fun s n => (s.resumeSends n).pumpConn n) s

/-- R304, R335: a port goes down: its queued frames are lost, to be replayed on the other port. -/
def State.portDown (s : State) (p : Side) : State :=
  let s := s.refillDue
  let x := s.flu.port.get p
  if !x.up then s
  else
    let s := s.setPort p { x with
      up := false, phy := 0, macsecUp := false, downCount := x.downCount + 1, queue := [], paused := [], xoff := [] }
    let both := !s.flu.port.w.up && !s.flu.port.e.up
    let lost (e : Nat × Option Nat × Nat × Side) : Nat × Option Nat × Nat × Side :=
      if e.2.2.2 == p then (e.1, some (e.2.1.getD s.now.toNat), e.2.2) else e
    let gone (x : Conn) : Conn := { x with tx := x.tx.map (fun m => { m with sent := m.sent.map lost }) }
    let s := { s with flu := { s.flu with
      bothDown := if both then some (s.flu.bothDown.getD s.now.toNat) else none
      conns := s.flu.conns.mapVals (fun _ x => gone x) } }
    s.flu.conns.keys.foldl State.endClose s

/-- R331, R348: the Mantel controller sends a key agreement frame on a port that carries MACsec and holds a key for it (log 129). -/
def State.sendMka (s : State) (p : Side) : State :=
  let x := s.flu.port.get p
  if !x.up || !x.macsecEn || x.cak.isNone then s
  else
    let body := Config.mkaFrame s.fresh
    ({ s with fresh := s.fresh + 1 }).queueFrame p {
      mka := some body, control := true, dstMac := 0x0180C2000003, counted := s.counted (Nat.max 64 (18 + body.length)) }

/-- R437: a port that is enabled reports UP with its PHY; traffic that waited goes. -/
def State.portUp (s : State) (p : Side) (phy : Nat) : State :=
  let s := s.refillDue
  let x := s.flu.port.get p
  if !x.en || x.up || phy = 0 || 3 < phy then s
  else
    let s := s.setPort p { x with up := true, phy := phy }
    ((({ s with flu := { s.flu with bothDown := none } }).sendMka p).pfcUpdate p).pumpAll

/-! ### Connection commands (R311, R312, R337) -/

/-- R311: the 64 bytes of a connection entry. -/
def Conn.bytes (x : Conn) : List Byte :=
  let st := match x.state with
    | .closed => 0
    | .opened => 1
    | .closing => 2
  leBytes 1 (st + 4 * b2n x.relaxed + 8 * b2n x.sealed + 16 * x.encap.toNat + 64 * b2n x.vlan + 128 * b2n x.tstamp)
    ++ leBytes 1 x.cls.toNat ++ leBytes 2 x.ctx.toNat ++ leBytes 2 x.peerConn.toNat ++ [x.alive, x.peerAlive]
    ++ leBytes 6 x.peerMac.toNat ++ leBytes 2 x.vid.toNat ++ leBytes 16 x.peerIp.toNat ++ leBytes 4 x.defaultRkey.toNat
    ++ leBytes 2 x.initCredit.toNat ++ leBytes 2 0 ++ leBytes 4 x.txSeq.toNat ++ leBytes 4 x.rxCum.toNat
    ++ leBytes 4 x.rxDone.toNat ++ leBytes 12 0

/-- R311, R337: a field of a connection entry is out of range; its reserved fields are ignored (R3). -/
def entryBad (v : Nat) : Bool := bits v 4 2 = 3 || bits v 288 16 = 0

/-- R311: the writable fields of an entry. -/
def Conn.fields (x : Conn) (v : Nat) : Conn := { x with
  relaxed := bitOf v 2, sealed := bitOf v 3, encap := BitVec.ofNat 2 (bits v 4 2), vlan := bitOf v 6, tstamp := bitOf v 7
  cls := BitVec.ofNat 6 (bits v 8 6), ctx := BitVec.ofNat 12 (bits v 16 12), peerConn := BitVec.ofNat 15 (bits v 32 15)
  alive := BitVec.ofNat 8 (bits v 48 8), peerAlive := BitVec.ofNat 8 (bits v 56 8)
  peerMac := BitVec.ofNat 48 (bits v 64 48), vid := BitVec.ofNat 12 (bits v 112 12)
  peerIp := BitVec.ofNat 128 (bits v 128 128), defaultRkey := BitVec.ofNat 32 (bits v 256 32)
  initCredit := BitVec.ofNat 16 (bits v 288 16) }

/-- R337: FLU_CONN_STATUS after an operation: DONE, ERR, ERRCODE. -/
def connStatus (err : Nat) : BitVec 64 := BitVec.ofNat 64 (2 + (if err = 0 then 0 else 4 + 256 * err))

/-- R337, R502: FLU_CONN_CMD with an OP: `op` answers the error code and the state; while a CLOSE runs the command is refused (6). -/
def State.connCmd (s : State) (ld : Ld) (want : Nat) (cmd : BitVec 64) (op : Nat → State → Nat × State) : State :=
  if !s.regWritable ld || bits cmd.toNat 16 3 ≠ want then s
  else if s.flu.closing.isSome then { s with flu := { s.flu with connStatus := connStatus 6 &&& ~~~(2 : BitVec 64) ||| 1 } }
  else
    let (e, s) := op (bits cmd.toNat 0 15) s
    { s with flu := { s.flu with connStatus := connStatus e } }

/-- R337: READ. -/
def execFluConnRead (ld : Ld) (cmd : BitVec 64) (s : State) : Host.Outcome State Fault Refusal :=
  .next (s.connCmd ld 0 cmd (fun n s =>
    (0, { s with flu := { s.flu with connData := BitVec.ofNat 512 (ofBytes (s.conn n).bytes) } })))

/-- R337: WRITE. -/
def State.connWrite (s : State) (n : Nat) : Nat × State :=
  let x := s.conn n
  if x.state != .closed then (1, s)
  else if entryBad s.flu.connData.toNat then (5, s)
  else (0, s.setConn n (x.fields s.flu.connData.toNat))

/-- R337: WRITE. -/
def execFluConnWrite (ld : Ld) (cmd : BitVec 64) (s : State) : Host.Outcome State Fault Refusal :=
  .next (s.connCmd ld 1 cmd (fun n s => s.connWrite n))

/-- R312, R344, R370: OPEN: its conditions in order, and what it sets; in confidential mode only SEALED opens. -/
def State.connOpen (s : State) (n : Nat) : Nat × State :=
  let x := s.conn n
  if x.state != .closed then (1, s)
  else if !s.flu.flueEn then (2, s)
  else if (s.ctx x.ctx.toNat).state != .active then (3, s)
  else if (x.sealed && x.keyed.isNone) || (!x.sealed && s.sec.confidential) then (4, s)
  else
    let lim := x.initCredit.setWidth 32
    let s := s.setConn n { x with
      state := .opened, txSeq := 0, rxCum := 0, rxDone := 0, done := [], txLimit := lim, rxLimit := lim, txCount := 0
      txCtr := 1, timeouts := 0, tx := [], rx := [], path := 0, granted := [], reads := [] }
    let s := s.refillDue
    (0, { s with dmp := { s.dmp with connPol := s.dmp.connPol.mapVals (fun i p => if i == n then p.fill s.dmp.split else p) } })

/-- R312: OPEN. -/
def execFluConnOpen (ld : Ld) (cmd : BitVec 64) (s : State) : Host.Outcome State Fault Refusal :=
  .next (s.connCmd ld 2 cmd (fun n s => s.connOpen n))

/-- R337: a CLOSE that has not ended reads BUSY until STATE is CLOSED. -/
def State.closeRuns (s : State) (ld : Ld) (cmd : BitVec 64) : State :=
  let n := bits cmd.toNat 0 15
  if !s.regWritable ld || bits cmd.toNat 16 3 ≠ 3 || s.flu.closing.isSome || (s.conn n).state != .closing then s
  else { s with flu := { s.flu with closing := some n, connStatus := 1 } }

/-- R313: CLOSE. -/
def execFluConnClose (ld : Ld) (cmd : BitVec 64) (s : State) : Host.Outcome State Fault Refusal :=
  .next ((s.connCmd ld 3 cmd (fun n s => (0, s.closeConn n (some 0)))).closeRuns ld cmd)

/-- R306: the counted lengths of queued Flue frames follow MACsec as it comes into force on the port or ends. -/
def PortState.resize (x : PortState) (on : Bool) : PortState :=
  if on == x.secured then x
  else { x with queue := x.queue.map (fun f => if f.pkt.isNone then f
    else { f with counted := if on then f.counted + 32 else f.counted - 32 }) }

/-- R334, R437, R502: FLU_CTL: enables; clearing PORT_EN or FLUE_EN takes ports down; clearing MACSEC_EN ends the port's association, setting
it begins key agreement (R331). -/
def State.fluCtl (s : State) (ld : Ld) (value : BitVec 64) : State :=
  let v := value.toNat
  if !s.regWritable ld then s
  else
    let fl := bitOf v 2
    let f := s.flu
    let set (x : PortState) (en mac : Bool) : PortState :=
      if mac then { x with en := en, macsecEn := true } else { x.resize false with en := en, macsecEn := false, macsecUp := false }
    let s := { s with flu := { f with
      port := ⟨set f.port.w (bitOf v 0) (bitOf v 4), set f.port.e (bitOf v 1) (bitOf v 5)⟩
      flueEn := fl, readEn := bitOf v 3, macsecReq := bitOf v 6, paths := BitVec.ofNat 8 (bits v 8 8) } }
    let off (s : State) (p : Side) (en : Bool) : State := if en && (fl || !f.flueEn) then s else s.portDown p
    let begin_ (s : State) (p : Side) : State := if (f.port.get p).macsecEn then s else s.sendMka p
    (begin_ (begin_ (off (off s .west (bitOf v 0)) .east (bitOf v 1)) .west) .east).pumpAll

/-! ### MACsec (R331) -/

/-- R331, R348, R399: MKA_FRAME_RECEIVE: it is answered; where it agrees, under the port's CAK, with the peer whose SCI is given, a secure
association is live: a new one, with its packet numbers from 1, unless one is. -/
def State.mkaFrame (s : State) (p : Side) (ckn : BitVec 128) (agreed : Option (BitVec 64)) : State :=
  let x := s.flu.port.get p
  match x.cak, agreed with
  | some (name, _), some sci =>
    if x.up && x.macsecEn && name == ckn && !x.macsecUp then
      ((s.setPort p { x.resize true with
        macsecUp := true, assoc := x.assoc + 1, peerSci := sci, txPn := 1, rxPn := 1 }).sendMka p).pumpAll
    else s
  | some (name, _), none => if !x.macsecUp && name == ckn then s.sendMka p else s
  | none, _ => s

/-- R331: MKA_FRAME_RECEIVE. -/
def execMkaFrameReceive (port : Side) (ckn : BitVec 128) (agreed : Option (BitVec 64)) (s : State) : Host.Outcome State Fault Refusal :=
  .next (s.mkaFrame port ckn agreed)

/-- R331: SECURE_ASSOCIATION_LOSS. -/
def execSecureAssociationLoss (port : Side) (s : State) : Host.Outcome State Fault Refusal :=
  .next (s.setPort port { (s.flu.port.get port).resize false with macsecUp := false })

end Machine
end Sys2Proof
end

