-- ==== Sys2Proof/Machine/Event.lean ====
section
/-! DEFINITION. Event records (R275, R292), the snoop filter (R282), what resolves a held line (R280-R285), and who may
reach a host address (R275). -/

namespace Sys2Proof
namespace Machine

/-! ### Event records (R292) -/

/-- R290, R292: the host-set timestamp of an LD now. -/
def LdState.stampNow (x : LdState) (now : Nat) : BitVec 64 :=
  if x.stamp.1 = 0 then 0 else x.stamp.1 + BitVec.ofNat 64 (now - x.stamp.2)

/-- R292: a log of an LD. -/
def LdState.log (x : LdState) : EvLog → List EvRec
  | .info => x.info
  | .warning => x.warning
  | .failure => x.failure

/-- R292: a log of an LD replaced. -/
def LdState.setLog (x : LdState) (k : EvLog) (l : List EvRec) : LdState :=
  match k with
  | .info => { x with info := l }
  | .warning => { x with warning := l }
  | .failure => { x with failure := l }

/-- R292: a log's number in an LD's overflow table, and its byte of the event interrupt policy. -/
def logNo : EvLog → Nat
  | .info => 0
  | .warning => 1
  | .failure => 2

/-- R292: a record put at the end of a log of an LD, which holds `Config.eventLogMore` and one; a record that finds it full is lost and
counted, with the timestamps of the first and the last that were (the standard's overflow, log 66). -/
def LdState.logged (x : LdState) (k : EvLog) (r : EvRec) : LdState :=
  let full : Bool := decide (Config.eventLogMore < (x.log k).length)
  let o := x.overflow.lookD (logNo k) (0, r.stamp, r.stamp)
  let y := x.setLog k (if full then x.log k else x.log k ++ [r])
  { y with overflow := if full then x.overflow.put (logNo k) (o.1 + 1, o.2.1, r.stamp) else x.overflow }

/-- R290: the LD asks for an MSI-X interrupt for the records of a log (the standard's interrupt mode 1, log 66). -/
def LdState.asksIrq (x : LdState) (k : EvLog) : Bool := bits x.evPolicy.toNat (8 * (logNo k)) 2 == 1

/-- R290, R292: a record posted in a log of an LD, and the interrupt that the LD's policy asks for. -/
def State.postEvent (s : State) (l : Ld) (k : EvLog) (r : EvRec) : State :=
  let x := s.ld l
  let h := s.cxp.nextEv
  let r := { r with
    handle := h, folded := 1, time := s.now, stamp := x.stampNow s.now.toNat }
  let s := s.setLd l (x.logged k r)
  let s := if x.asksIrq k then s.raise l.head l.id (Config.eventVector (logNo k)) else s
  { s with cxp := { s.cxp with nextEv := if h = 65535 then 1 else h + 1 } }

/-- R274: every LD. -/
def allLds : List Ld := [Side.west, Side.east].flatMap (fun h => (List.range 16).map (fun i => { head := h, id := i }))

/-- R292: a record that the part itself causes goes to every MANAGER LD. -/
def State.postAll (s : State) (k : EvLog) (code dpa ctx : Nat) (head : Side) : State :=
  (allLds.filter s.manager).foldl (fun s l => s.postEvent l k { code := code, head := head, ld := 0xFF, ctx := ctx, dpa := dpa }) s

/-- R428: the Memory Module Event Record of a fault or fatal error, in the Failure log of every MANAGER LD. -/
def State.postHealth (s : State) : State :=
  (allLds.filter s.manager).foldl (fun s l => s.postEvent l .failure
    { code := 128, ld := 0xFF, health := some s.gbl.faultCount.toNat }) s

/-- R292: a record that a host request caused goes to the LD of that request, one that the part caused to every MANAGER LD. -/
def State.postFor (s : State) (cause : Option Ld) (k : EvLog) (code dpa ctx : Nat) (head : Side) : State :=
  match cause with
  | some l => s.postEvent l k { code := code, head := l.head, ld := l.id, ctx := ctx, dpa := dpa }
  | none => s.postAll k code dpa ctx head

/-- R272: an S2M response, with its DevLoad. -/
def State.s2m (s : State) (r : Resp) : State :=
  { s with fresh := s.fresh + 1, resp := { r with devLoad := some (Config.devLoad s.fresh) } }

/-- R275: a host request fails: it is counted, and one record per LD, kind and millisecond is posted, the rest folded. -/
def State.failReq (s : State) (l : Ld) (kind dpa ctx : Nat) : State :=
  let s := s.count 0x03400110
  let ms := s.now.toNat / 1000000
  let h := s.cxp.head.get l.head
  if h.folded.contains (l.id, kind, ms) then
    let x := s.ld l
    s.setLd l { x with warning := x.warning.map (fun r =>
      if r.code == kind && r.time.toNat / 1000000 == ms then { r with folded := Nat.min 255 (r.folded + 1) } else r) }
  else
    let s := s.setHead l.head { h with
      folded := (l.id, kind, ms) :: h.folded.filter (fun f => f.2.2 == ms) }
    s.postEvent l .warning { code := kind, head := l.head, ld := l.id, ctx := ctx, dpa := dpa }

/-! ### Shared regions and their lines (R281-R285) -/

/-- R281: the shared region that holds granule g. -/
def State.sharedAt (s : State) (g : Nat) : Option Nat :=
  (s.cxp.shared.find? (fun r => decide (r.2.base ≤ g) && decide (g < r.2.base + r.2.granules))).map (·.1)

/-- R282: the filter entry of a line on a head. -/
def HeadState.entry? (h : HeadState) (line : Nat) : Option SfEntry := h.sf.find? (fun e => e.line == line)

/-- R282: a filter entry removed. -/
def HeadState.drop (h : HeadState) (line : Nat) : HeadState := { h with sf := h.sf.filter (fun e => e.line != line) }

/-- R282: an entry becomes the most recently used of its head. -/
def HeadState.putEntry (h : HeadState) (e : SfEntry) : HeadState := { h.drop e.line with sf := (h.drop e.line).sf ++ [e] }

/-- R285: the LDs of a mask of a head. -/
def ldsOf (head : Side) (m : BitVec 16) : List Ld := ((List.range 16).filter (fun i => m.getLsbD i)).map (fun i => ⟨head, i⟩)

/-- R283: an entry without the holders of a mask, which have answered or gone. -/
def SfEntry.answered (e : SfEntry) (me : BitVec 16) : SfEntry :=
  let t := e.target &&& ~~~ me
  { e with
    holders := e.holders &&& ~~~ me, target := t, forced := e.forced &&& ~~~ me, snoopAt := if t = 0 then none else e.snoopAt }

/-- R282: a tracked line changed; one without holders leaves the filter. -/
def HeadState.keepEntry (h : HeadState) (e : SfEntry) : HeadState :=
  if e.holders = 0 then h.drop e.line else { h with sf := h.sf.map (fun x => if x.line == e.line then e else x) }

/-- R280, R285: the holders that lose a line that is poisoned: its owner, or those that a forced removal removes. -/
def SfEntry.gone (e : SfEntry) : BitVec 16 := if e.owned then e.holders else e.forced

/-- R280, R285, R292: a line is poisoned: counted, and a LINE_POISONED record posted; a holder that is gone and whose response was awaited
is late with it; the others keep their copies. -/
def State.poisonHeld (s : State) (head : Side) (line : Nat) : State :=
  let h := s.cxp.head.get head
  let e := (h.entry? line).getD {}
  let s := s.setHead head (h.keepEntry (e.answered e.gone))
  let s := { s with
    mem := s.mem.poisonLine line
    cxp := { s.cxp with poisoned := s.cxp.poisoned + 1, late := s.cxp.late ++ (ldsOf head (e.target &&& e.gone)).map (fun l => (l, line)) } }
  s.postFor (if e.snoopAt.isSome then e.cause else none) .failure 5 (64 * line) ((s.granuleCtx (64 * line / granule)).getD 0) head

/-- R281, R291: a shared region that is being deleted is gone once none of its lines is held; a Delete Shared Region that
waited for it completes. -/
def State.endDeleting (s : State) : State :=
  let held (r : Shared) : Bool := s.tracked.any (fun t => decide (r.base ≤ 64 * t.1 / granule) &&
    decide (64 * t.1 / granule < r.base + r.granules))
  let done := s.cxp.shared.vals.any (fun r => r.asked.isSome && !(held r))
  { s with
    cxp := { s.cxp with shared := s.cxp.shared.keep (fun _ r => !r.deleting || held r) }
    resp := if done then { ret := .success } else s.resp }

/-- R279-R281: the tracked lines of n bytes from a on, on both heads, that one of the holders of `mask` of a head holds. -/
def State.heldBy (s : State) (head : Side) (mask : BitVec 16) (a n : Nat) : List Nat :=
  ((s.cxp.head.get head).sf.filter (fun e => (e.holders &&& mask) != 0 && decide (a ≤ 64 * e.line) &&
    decide (64 * e.line < a + n))).map (·.line)

/-- R279-R281: snoops of lines to the holders of `mask` of a head; those of a forced removal are marked (R280). -/
def State.recall (s : State) (head : Side) (ls : List Nat) (mask : BitVec 16) (forced : Bool) : State :=
  let s := s.snoop head ls mask none
  let h := s.cxp.head.get head
  if forced then s.setHead head { h with sf := h.sf.map (fun e =>
    if ls.contains e.line then { e with forced := e.forced ||| (e.holders &&& mask) } else e) }
  else s

/-! ### Who may reach an address (R275, R276, R296) -/

/-- R296: the head's IDE streams are required and one of them is inactive. -/
def State.ideMissing (s : State) (h : Side) : Bool :=
  let x := s.cxp.head.get h
  (s.cxp.ideReq || s.sec.confidential) && !(x.ideIo && x.ideMem)

/-- R278: an extent of the LD holds n bytes from a on. -/
def LdState.covers (x : LdState) (a n : Nat) : Bool :=
  x.extents.any (fun e => !e.closing && decide (e.base ≤ a) && decide (a + n ≤ e.base + e.len))

/-- R275 step 1: the request reaches the part's memory. -/
def State.openTo (s : State) (l : Ld) (a n : Nat) : Bool :=
  (s.cxp.head.get l.head).hdmEn && !s.ideMissing l.head && (s.ld l).covers a n

/-- R275, R276: the kind of the first failing check of a request to context space: 2 EXTENT_CLOSED or 3 UNBOUND; `bi` says
whether its decoder enables back-invalidate. -/
def State.reachBad (s : State) (l : Ld) (a n : Nat) (bi : Bool) : Option Nat :=
  let gs := (linesOf a n).map (fun k => 64 * k / granule)
  if !s.openTo l a n then some 2
  else if gs.any (fun g => match s.granuleCtx g with
      | none => true
      | some c => !(s.bound l c)) then some 3
  else if gs.any (fun g => (s.sharedAt g).isSome) && (!s.cxp.biEn || !bi) then some 3
  else none

/-! ### Waiting host loads (R193) -/

/-- R191, R192: the live page whose view holds n bytes from a on. -/
def State.viewPage (s : State) (a n : Nat) : Option Nat :=
  s.pages.keys.find? (fun h =>
    let p := s.page h
    (p.life == .opened || p.life == .sealed) && p.chunk.isNone && decide (viewBase h ≤ a) &&
      decide (a + n ≤ viewBase h + p.kib * 1024))

/-- R382: the bytes that a host load returns: poison where the line cannot be read, a MAC failure counted. -/
def State.hostData (s : State) (a n : Nat) : State :=
  match s.mem.readErr a n with
  | some (st, _) =>
    let s := if st == St.integrity then (s.count 0x00100100).countAo 0x03800128 else s
    s.s2m { ret := .success, poison := true }
  | none => s.s2m { ret := .success, out := s.peek a n }

/-- R193: a load of the view that is served: the page is read. -/
def State.serveView (s : State) (h a n : Nat) : State := ((s.touch h).count 0x03400100).hostData a n

/-- R297: what performs a request whose response can no longer be sent answers nothing. -/
def State.silently (s : State) (dropped : Bool) (go : State → State) : State :=
  if dropped then { go s with resp := s.resp } else go s

/-! ### Requests to shared regions (R281, R282) -/

/-- R282: entries of a set of the filter. -/
def sfWays : Nat := 16
/-- R282: sets of a head's filter. -/
def sfSets : Nat := 131072

/-- R282: a line that is not tracked needs room in its set: the least recently used line of a full set. -/
def HeadState.sfVictim (h : HeadState) (line : Nat) : Option Nat :=
  if (h.entry? line).isSome then none
  else
    let es := h.sf.filter (fun e => e.line % sfSets == line % sfSets)
    if sfWays ≤ es.length then es.head?.map (·.line) else none

/-- R282: the other holders of a line on a head that an LD's request meets: for a write each of them, for a read one that owns it. -/
def State.others (s : State) (l : Ld) (line : Nat) (own : Bool) (h : Side) : BitVec 16 :=
  let mine : BitVec 16 := if h = l.head then BitVec.ofNat 16 (2 ^ l.id) else 0
  match (s.cxp.head.get h).entry? line with
  | some e => if own || e.owned then e.holders &&& ~~~ mine else 0
  | none => 0

/-- R282: what must be resolved before an LD may hold a line, as head, line and holders: the victim of its set, and its other
holders. -/
def State.sfConflicts (s : State) (l : Ld) (own : Bool) (line : Nat) : List (Side × Nat × BitVec 16) :=
  (((s.cxp.head.get l.head).sfVictim line).map (fun v => (l.head, v, (0xFFFF : BitVec 16)))).toList
    ++ ([(Side.west, line, s.others l line own .west), (Side.east, line, s.others l line own .east)].filter (fun x => x.2.2 != 0))

/-- R282: the LD holds a line: shared, or owned alone. -/
def State.sfHold (s : State) (l : Ld) (line : Nat) (own : Bool) : State :=
  let h := s.cxp.head.get l.head
  let e := (h.entry? line).getD { line := line }
  let me := BitVec.ofNat 16 (2 ^ l.id)
  let e := if own then { e with holders := me, owned := true } else { e with holders := e.holders ||| me }
  s.setHead l.head (h.putEntry e)

/-- R282: lines of a request that lie in shared regions. -/
def State.sharedLines (s : State) (a n : Nat) : List Nat :=
  (linesOf a n).filter (fun l => (s.sharedAt (64 * l / granule)).isSome)

/-- R281: a request to a region that is being deleted waits until it is gone, and meets no shared region then (log 139). -/
def State.deletingAt (s : State) (line : Nat) : Bool :=
  match s.sharedAt (64 * line / granule) with
  | some i => (s.cxp.shared.lookD i {}).deleting
  | none => false

/-- R282: what a request must wait for. -/
def State.reqConflicts (s : State) (r : HostReq) : List (Side × Nat × BitVec 16) :=
  (s.sharedLines r.dpa r.len).flatMap (s.sfConflicts r.ld r.data.isSome)

/-- R281, R282: a request has to wait. -/
def State.reqWaits (s : State) (r : HostReq) : Bool :=
  !(s.reqConflicts r).isEmpty || (s.sharedLines r.dpa r.len).any s.deletingAt

/-- R279, R280: lines that an LD has taken by a request decoded earlier are recalled at once where their extent is closing. -/
def State.recallClosing (s : State) (l : Ld) (ls : List Nat) : State :=
  ls.foldl (fun s k =>
    match (s.ld l).extents.find? (fun e => e.closing && decide (e.base ≤ 64 * k) && decide (64 * k < e.base + e.len)) with
    | some e => s.recall l.head [k] (BitVec.ofNat 16 (2 ^ l.id)) e.forced
    | none => s) s

/-- R275, R282, R286: a request is served: a read returns its data, a write is done, and the LD holds its shared lines. -/
def State.serveReq (s : State) (r : HostReq) : State :=
  let ls := s.sharedLines r.dpa r.len
  let s' := s.silently r.dropped (fun s =>
    match r.data with
    | none => (s.count 0x03400100).hostData r.dpa r.len
    | some bs => ((s.count 0x03400108).poke r.dpa bs).s2m { ret := .success })
  if r.dropped then s' else (ls.foldl (fun s k => s.sfHold r.ld k r.data.isSome) s').recallClosing r.ld ls

/-- R282: a request waits; the holders that it waits for are snooped. -/
def State.holdReq (s : State) (r : HostReq) : State :=
  let s := (s.reqConflicts r).foldl (fun s x => s.snoop x.1 [x.2.1] x.2.2 (some r.ld)) s
  { s with cxp := { s.cxp with reqs := s.cxp.reqs ++ [r] } }

/-- R282: one request: it waits, or is served. -/
def State.takeReq (s : State) (r : HostReq) : State := if s.reqWaits r then s.holdReq r else s.serveReq r

/-- R282: the requests that wait are looked at again, in their order. -/
def State.serveReqs (s : State) : State :=
  s.cxp.reqs.foldl State.takeReq { s with cxp := { s.cxp with reqs := [] } }

/-- R280: requests of the LDs of a word (as CXP_BIND has them) to a context are in flight. -/
def State.inflightTo (s : State) (c : Nat) (w : BitVec 32) : Bool :=
  let named (l : Ld) : Bool := w.getLsbD (l.id + 16 * l.head.num)
  s.cxp.reqs.any (fun r => named r.ld && s.granuleCtx (r.dpa / granule) == some c)
    || s.drt.hostWaits.any (fun r => named r.ld && (s.page r.handle).ctx == c)

/-- R280, R297: a Bind Context that waited for requests in flight completes once there is none. -/
def State.endBinds (s : State) : State :=
  let done (b : Nat × BitVec 32 × Option Side) : Bool := !(s.inflightTo b.1 b.2.1)
  { s with
    cxp := { s.cxp with bindWaits := s.cxp.bindWaits.filter (fun b => !(done b)) }
    resp := if s.cxp.bindWaits.any (fun b => done b && b.2.2.isSome) then { ret := .success } else s.resp }

/-- R282, R283, R285: after lines were resolved: deletions end, host requests and held Flue packets go on; waiting instructions go on at
their next command. -/
def State.linesResolved (s : State) : State :=
  let s := s.endDeleting.serveReqs.endBinds
  s.flu.conns.keys.foldl State.flushConn s

/-! ### Waiting loads of the object view (R193) -/

/-- R193: the host loads that waited for a page that is now resident return their data. -/
def State.serveLoads (s : State) (h : Nat) : State :=
  let ws := s.drt.hostWaits.filter (fun w => w.handle == h)
  let s := { s with drt := { s.drt with hostWaits := s.drt.hostWaits.filter (fun w => w.handle != h) } }
  (ws.foldl (fun s w => s.silently w.dropped (fun s => s.serveView h w.dpa w.len)) s).endBinds

/-- R193: a waiting host load returns poison: its address and time, its count, its record. -/
def State.poisonLoad (s : State) (w : HostWait) : State :=
  let s := { s with
    drt := { s.drt with
      hostWaits := s.drt.hostWaits.filter (· != w), nrAddr := BitVec.ofNat 64 w.dpa, nrTime := s.now } }
  let s := s.silently w.dropped (fun s => s.s2m { ret := .success, poison := true })
  ((s.count 0x03200140).postEvent w.ld .info
    { code := 1, head := w.ld.head, ld := w.ld.id, ctx := (s.page w.handle).ctx, dpa := w.dpa }).endBinds

end Machine
end Sys2Proof
end

