-- ==== Sys2Proof/Machine/Host.lean ====
section
/-! DEFINITION. Host accesses to the object range (R192, R193, R275-R277), back-invalidate responses and timeouts
(R282-R285), the CXL links (R271, R297). -/

namespace Sys2Proof
namespace Machine

/-! ### Loads and stores -/

/-- R276: a committed decoder of the LD passes a request with or without back-invalidate. -/
def State.decoded (s : State) (l : Ld) (bi : Bool) : Bool :=
  (s.cxp.head.get l.head).up && (s.ld l).decoders.vals.any (fun d => d.committed && d.bi == bi) && s.running

/-- R192, R275: a host request fails: a read returns poison, a write is discarded. -/
def State.refuseReq (s : State) (l : Ld) (kind a c : Nat) (read : Bool) : State :=
  (s.failReq l kind a c).s2m { ret := .success, poison := read }

/-- R192, R193: a load of the object view. -/
def State.loadView (s : State) (l : Ld) (a n : Nat) : State :=
  if !s.openTo l a n then s.refuseReq l 2 a 0 true
  else
    match s.viewPage a n with
    | none => s.refuseReq l 3 a 0 true
    | some h =>
      let s := s.stackTreat h
      let p := s.page h
      if p.life == .dropped || !(s.bound l p.ctx) then s.refuseReq l 3 a p.ctx true
      else if p.resident then s.serveView h a n
      else
        let s := s.request h .demand 0
        { s with
          drt := { s.drt with hostWaits := s.drt.hostWaits ++
            [{ ld := l, dpa := a, len := n, handle := h, since := s.now.toNat }] }
          resp := {} }

/-- R275, R282: a host request to context space: it fails, waits without a response yet, or is served. -/
def State.hostReq (s : State) (l : Ld) (a n : Nat) (data : Option (List Byte)) (bi : Bool) : State :=
  match s.reachBad l a n bi with
  | some k => s.refuseReq l k a ((s.granuleCtx (a / granule)).getD 0) data.isNone
  | none => ({ s with resp := {} }).takeReq { ld := l, dpa := a, len := n, data := data }

/-- R275: HOST_MEM_READ. -/
def State.hostRead (s : State) (l : Ld) (a n : Nat) (bi : Bool) : State :=
  if !s.decoded l bi then { s with resp := { ret := .none } }
  else if ctxSpaceEnd ≤ a then s.loadView l a n
  else s.hostReq l a n none bi

/-- R275: HOST_MEM_READ. -/
def execHostMemRead (ld : Ld) (dpa len : Nat) (bi : Bool) (s : State) : Host.Outcome State Fault Refusal :=
  .next (s.hostRead ld dpa len bi)

/-- R192: a write to the object view is discarded and counted. -/
def State.writeView (s : State) (l : Ld) (a n : Nat) : State :=
  if !s.openTo l a n then s.refuseReq l 2 a 0 false
  else (s.count 0x03200148).s2m { ret := .success }

/-- R275, R286: HOST_MEM_WRITE. -/
def State.hostWrite (s : State) (l : Ld) (a : Nat) (data : List Byte) (bi : Bool) : State :=
  if !s.decoded l bi then { s with resp := { ret := .none } }
  else if ctxSpaceEnd ≤ a then s.writeView l a data.length
  else s.hostReq l a data.length (some data) bi

/-- R275: HOST_MEM_WRITE. -/
def execHostMemWrite (ld : Ld) (dpa : Nat) (data : List (BitVec 8)) (bi : Bool) (s : State) :
    Host.Outcome State Fault Refusal := .next (s.hostWrite ld dpa data bi)

/-- R193: VIEW_LOAD. -/
def execViewLoad (ld : Ld) (dpa len : Nat) (s : State) : Host.Outcome State Fault Refusal :=
  .next (if s.decoded ld false then s.loadView ld dpa len else { s with resp := { ret := .none } })

/-- R192: VIEW_WRITE. -/
def execViewWrite (ld : Ld) (dpa len : Nat) (s : State) : Host.Outcome State Fault Refusal :=
  .next (if s.decoded ld false then s.writeView ld dpa len else { s with resp := { ret := .none } })

/-! ### Decoders (R276) -/

/-- R276: a multiple of 256 MiB. -/
def hdmUnit : Nat := 268435456

/-- R276: the DPA that a decoder takes. -/
def Decoder.span (d : Decoder) : Nat := d.skip + d.size

/-- R276: HDM_DECODER_COMMIT: its DPA range begins after the committed decoders below it and its own skip. -/
def State.commitDecoder (s : State) (l : Ld) (i base : Nat) (size : HdmSize) (ways : Nat) (bi : Bool) : State :=
  let h := s.cxp.head.get l.head
  let x := s.ld l
  let below := (x.decoders.filter (fun d => decide (d.1 < i) && d.2.committed)).foldl (fun n d => n + d.2.span) 0
  let d : Decoder := { base := base, size := size.size, skip := size.skip, bi := bi }
  let bad := ways ≠ 1 || dpaEnd < below + d.span || base % hdmUnit ≠ 0 || d.size % hdmUnit ≠ 0 || !h.hdmEn || (bi && h.mode = 1)
  if 4 ≤ i || !h.up || (x.decoders.lookD i {}).committed then s
  else s.setLd l { x with decoders := x.decoders.put i { d with committed := !bad, error := bad } }

/-- R276: HDM_DECODER_COMMIT. -/
def execHdmDecoderCommit (ld : Ld) (decoder base : Nat) (size : HdmSize) (ways : Nat) (bi : Bool) (s : State) :
    Host.Outcome State Fault Refusal := .next (s.commitDecoder ld decoder base size ways bi)

/-! ### Back-invalidate (R283-R285) -/

/-- R283, R285: BI_RESPONSE: a holder gives up a line, with the data that it owned; one that is late with a line that was poisoned is
discarded. -/
def State.biAnswer (s : State) (l : Ld) (line : Nat) (data : Option (List Byte)) : State :=
  let me := BitVec.ofNat 16 (2 ^ l.id)
  if s.cxp.late.contains (l, line) then
    ({ s with cxp := { s.cxp with lateBirsp := true, late := s.cxp.late.erase (l, line) } }).count 0x03400128
  else
    match (s.cxp.head.get l.head).entry? line with
    | none => s
    | some e =>
      if (e.target &&& me) = 0 then s
      else
        let s := match data with
          | some bs => if e.owned && bs.length = 64 then s.poke (64 * line) bs else s
          | none => s
        (s.setHead l.head ((s.cxp.head.get l.head).keepEntry (e.answered me))).linesResolved

/-- R283: BI_RESPONSE. -/
def execBiResponse (ld : Ld) (line : Nat) (data : Option (List (BitVec 8))) (s : State) :
    Host.Outcome State Fault Refusal := .next (s.biAnswer ld line data)

/-- R284: a snoop has passed BI_TIMEOUT_US: the flag, the count, the record, and the snoop again. -/
def State.biAgain (s : State) (head : Side) (e : SfEntry) : State :=
  let h := s.cxp.head.get head
  let s := s.setHead head { h with
    biTimeout := true, sf := h.sf.map (fun x => if x.line == e.line then { x with lastSnoop := s.now.toNat } else x) }
  ((s.count 0x03400120).count 0x03400118).postFor e.cause .warning 4 (64 * e.line)
    ((s.granuleCtx (64 * e.line / granule)).getD 0) head

/-- R280, R284, R285: BI_TIMEOUT: the snoop is sent again, with its record; a line of a host that is down, or of a forced removal, is
poisoned then. -/
def State.biExpire (s : State) (head : Side) (line : Nat) : State :=
  match (s.cxp.head.get head).entry? line with
  | none => s
  | some e =>
    match e.snoopAt with
    | none => s
    | some t =>
      let limit := 1000 * s.cxp.biTimeoutUs
      let s := if s.now.toNat < e.lastSnoop + limit then s else s.biAgain head e
      if (e.down || e.forced != 0) && t + limit ≤ s.now.toNat then (s.poisonHeld head line).linesResolved else s

/-- R284: BI_TIMEOUT. -/
def execBiTimeout (head : Side) (line : Nat) (s : State) : Host.Outcome State Fault Refusal := .next (s.biExpire head line)

/-! ### Links (R271, R297) -/

/-- R297: the requests of a head that have been decoded and the mailbox commands in progress are carried out without a response; what its
hosts had still to answer does not come any more. -/
def State.dropHost (s : State) (head : Side) : State :=
  let h := s.cxp.head.get head
  let closes (x : LdState) : LdState := { x with
    extents := x.extents.map (fun e => if e.closing then { e with dropped := true } else e) }
  { s with
    cxp := { s.cxp with
      head := s.cxp.head.set head { h with lds := h.lds.mapVals (fun _ x => closes x) }
      shared := s.cxp.shared.mapVals (fun _ r => if r.asked == some head then { r with asked := none } else r)
      bindWaits := s.cxp.bindWaits.map (fun b => (b.1, b.2.1, if b.2.2 == some head then none else b.2.2))
      reqs := s.cxp.reqs.map (fun r => if r.ld.head == head then { r with dropped := true } else r)
      late := s.cxp.late.filter (fun x => x.1.head != head) }
    drt := { s.drt with
      hostWaits := s.drt.hostWaits.map (fun w => if w.ld.head == head then { w with dropped := true } else w)
      granWaits := s.drt.granWaits.map (fun w => if w.ld.head == head then { w with dropped := true } else w)
      loadWaits := s.drt.loadWaits.map (fun w => if w.ld.head == head then { w with dropped := true } else w) } }

/-- R297: CXL_LINK_DOWN. -/
def State.cxlDown (s : State) (head : Side) : State :=
  let h := (s.dropHost head).cxp.head.get head
  if !h.up then s
  else (s.dropHost head).setHead head { h with
    up := false, mode := 0, width := 0, ideIo := false, ideMem := false, ideKeys := [], ideSkid := false, downCount := h.downCount + 1
    lds := h.lds.mapVals (fun _ x => { x with decoders := [] }) }

/-- R297: CXL_LINK_DOWN. -/
def execCxlLinkDown (head : Side) (s : State) : Host.Outcome State Fault Refusal := .next (s.cxlDown head)

/-- R271: CXL_LINK_UP in mode 1 (CXL 2.0) or 2 (CXL 3.1), at the widest width of its working lanes. -/
def State.cxlUp (s : State) (head : Side) (mode : Nat) : State :=
  let h := s.cxp.head.get head
  if h.up || mode = 0 || 2 < mode || !s.pkg.powered || !s.pkg.resetHigh then s
  else s.setHead head { h with up := true, mode := mode, width := h.widest }

/-- R271: CXL_LINK_UP. -/
def execCxlLinkUp (head : Side) (mode : Nat) (s : State) : Host.Outcome State Fault Refusal := .next (s.cxlUp head mode)

/-! ### CXP_CTL (R300) -/

/-- R300, R296, R502: CXP_CTL_WRITE. -/
def State.cxpCtl (s : State) (l : Ld) (value : BitVec 64) : State :=
  if !s.regWritable l then s
  else
    let b (i : Nat) : Bool := value.getLsbD i
    let h := s.cxp.head
    { s with cxp := { s.cxp with
      head := ⟨{ h.w with hdmEn := b 0 }, { h.e with hdmEn := b 1 }⟩
      poolEn := b 2, biEn := b 3, ideReq := if s.sec.confidential then s.cxp.ideReq else b 4 } }

/-- R300: CXP_CTL_WRITE. -/
def execCxpCtlWrite (ld : Ld) (value : BitVec 64) (s : State) : Host.Outcome State Fault Refusal := .next (s.cxpCtl ld value)

end Machine
end Sys2Proof
end

