-- ==== Sys2Proof/Machine/Fp.lean ====
section
/-! DEFINITION. Numbers: FP32 and BF16 values exactly, rounding to FP32 and to integers, the E5M3 scales (R72) and the
quantisation of a block (R73), FP32 sums (R287). -/

namespace Sys2Proof
namespace Machine

/-- The value of a finite FP32 word as a magnitude in units of 2^-149. -/
def fpMag (x : BitVec 32) : Nat :=
  let e := (x.extractLsb' 23 8).toNat
  let m := (x.extractLsb' 0 23).toNat
  if e = 0 then m else (m + 2 ^ 23) * 2 ^ (e - 1)

/-- An infinity or a NaN. -/
def fpBad (x : BitVec 32) : Bool := x.extractLsb' 23 8 == 0xFF

/-- A NaN. -/
def fpNan (x : BitVec 32) : Bool := fpBad x && x.extractLsb' 0 23 != 0

/-- The sign bit. -/
def fpNeg (x : BitVec 32) : Bool := x.getLsbD 31

/-- A finite FP32 value in units of 2^-149. -/
def fpVal (x : BitVec 32) : Int := if fpNeg x then -(fpMag x : Int) else fpMag x

/-- A BF16 word as FP32. -/
def ofBf16 (n : Nat) : BitVec 32 := BitVec.ofNat 32 (n % 65536 * 65536)

/-- n / d rounded to the nearest integer, ties to even. -/
def divEven (n d : Nat) : Nat :=
  let q := n / d
  let r := 2 * (n % d)
  if r < d then q else if d < r then q + 1 else q + q % 2

/-- The FP32 word nearest to n / d in units of 2^-149, ties to even, subnormals kept; infinity beyond the range. -/
def fpNearest (neg : Bool) (n d : Nat) : BitVec 32 :=
  let sign := if neg then 2 ^ 31 else 0
  let q := n / d
  let sh := q.log2 - 23
  if q < 2 ^ 24 then BitVec.ofNat 32 (sign + divEven n d)
  else
    let m := divEven n (d * 2 ^ sh)
    BitVec.ofNat 32 (sign + Nat.min (m + sh * 2 ^ 23) 0x7F800000)

/-- R74: FP32 rounded to BF16, ties to even, subnormals kept, as 16 bits. -/
def toBf16 (x : BitVec 32) : Nat :=
  let v := x.toNat
  if fpNan x then v / 65536 % 65536 ||| 0x40
  else (v + 0x7FFF + v / 65536 % 2) / 65536 % 65536

/-! ### Scales (R72, R73) -/

/-- R72: the value of a scale code in units of 2^-17. -/
def scaleVal (k : Nat) : Nat := if k / 8 = 0 then k else (8 + k % 8) * 2 ^ (k / 8 - 1)

/-- R73 step 3: the smallest code whose value is not below a / Q (a in units of 2^-149), or 0xFF. -/
def scaleCode (a q : Nat) : Nat :=
  ((List.range 256).find? (fun k => a ≤ q * scaleVal k * 2 ^ 132)).getD 255

/-- R73 step 4: |x| / c in FP32, then to the nearest integer, ties to even, at most Q. -/
def quantMag (x code q : Nat) : Nat :=
  let r := fpNearest false (x * 2 ^ 17) (scaleVal code)
  Nat.min q (divEven (fpMag r) (2 ^ 149))

/-- R73: a block of 32 values: its scale code and its integers. -/
def quantBlock (q : Nat) (xs : List (BitVec 32)) : Nat × List Int :=
  let a := (xs.map fpMag).foldl Nat.max 0
  if a = 0 then (0, xs.map (fun _ => 0))
  else
    let c := scaleCode a q
    (c, xs.map (fun x => if fpNeg x then -(quantMag (fpMag x) c q : Int) else quantMag (fpMag x) c q))

/-- Lists of up to n members each, in order; the first argument bounds the lists. -/
def chunks {α : Type} (n : Nat) : Nat → List α → List (List α)
  | 0, _ => []
  | k + 1, l => if l.isEmpty then [] else l.take n :: chunks n k (l.drop n)

/-- R71: nibbles packed two to a byte, the even element low. -/
def packNibbles : List Int → List (BitVec 8)
  | a :: b :: r => BitVec.ofNat 8 ((a % 16).toNat + 16 * (b % 16).toNat) :: packNibbles r
  | [a] => [BitVec.ofNat 8 (a % 16).toNat]
  | [] => []

/-- Two's-complement bytes. -/
def packBytes (l : List Int) : List (BitVec 8) := l.map (fun a => BitVec.ofInt 8 a)

/-! ### FP32 sums and comparisons -/

/-- The FP32 sum, rounded to nearest, ties to even; a sum of opposite zeros or values is +0; NaN results are the
quiet NaN 0x7FC00000 (log 12). -/
def fpAdd (x y : BitVec 32) : BitVec 32 :=
  if fpNan x || fpNan y then 0x7FC00000
  else if fpBad x then (if fpBad y && fpNeg x != fpNeg y then 0x7FC00000 else x)
  else if fpBad y then y
  else
    let v := fpVal x + fpVal y
    if v = 0 then (if fpNeg x && fpNeg y then 0x80000000 else 0)
    else fpNearest (decide (v < 0)) v.natAbs 1

/-- Order of two FP32 numbers that are no NaN. -/
def fpLt (x y : BitVec 32) : Bool :=
  let v (z : BitVec 32) : Int := if fpNeg z then -((z.toNat - 2 ^ 31 : Nat) : Int) else (z.toNat : Int)
  decide (v x < v y)

/-- The greater of two FP32 numbers that are no NaN. -/
def fpMax (x y : BitVec 32) : BitVec 32 := if fpLt x y then y else x

/-- −∞. -/
def fpNegInf : BitVec 32 := 0xFF800000

/-- The sign flipped. -/
def fpNegate (x : BitVec 32) : BitVec 32 := x ^^^ 0x80000000

/-- The FP32 product, rounded to nearest, ties to even. -/
def fpMul (x y : BitVec 32) : BitVec 32 :=
  let neg := fpNeg x != fpNeg y
  if fpNan x || fpNan y then 0x7FC00000
  else if fpBad x || fpBad y then
    (if (!(fpBad x) && fpMag x = 0) || (!(fpBad y) && fpMag y = 0) then 0x7FC00000
     else if neg then fpNegInf else 0x7F800000)
  else fpNearest neg (fpMag x * fpMag y) (2 ^ 149)

/-- The FP32 quotient, rounded to nearest, ties to even. -/
def fpDiv (x y : BitVec 32) : BitVec 32 :=
  let neg := fpNeg x != fpNeg y
  if fpNan x || fpNan y || (fpBad x && fpBad y) then 0x7FC00000
  else if fpBad x then (if neg then fpNegInf else 0x7F800000)
  else if fpBad y then (if neg then 0x80000000 else 0)
  else if fpMag y = 0 then (if fpMag x = 0 then 0x7FC00000 else if neg then fpNegInf else 0x7F800000)
  else fpNearest neg (fpMag x * 2 ^ 149) (fpMag y)

/-- An exact value in units of 2^-149 / d, rounded to FP32. -/
def fpOf (v : Int) (d : Nat) : BitVec 32 := fpNearest (decide (v < 0)) v.natAbs d

/-! ### The exponential (R145) -/

/-- The binary places that an exponential is worked out to. -/
def expBits : Nat := 256

/-- Σ r^k / k! over the next n terms, in units of 2^-256, from the term t that stands at k; r in units of 2^-u. -/
def expTail (u r : Nat) : Nat → Nat → Nat → Nat
  | 0, _, _ => 0
  | n + 1, k, t => t + expTail u r n (k + 1) (t * r / (2 ^ u * (k + 1)))

/-- e^(v / 2^u) for v not negative, in units of 2^-256: e to the whole part times the series of the rest. -/
def expUp (u v : Nat) : Nat :=
  let one := 2 ^ expBits
  let e := expTail 0 1 64 0 one
  (List.range (v / 2 ^ u)).foldl (fun x _ => x * e / one) (expTail u (v % 2 ^ u) 64 0 one)

/-- The reference exponential of v / 2^u, in units of 2^-256: 0 where it is below the least of them. -/
def expRef (u : Nat) (v : Int) : Nat :=
  if v < -(200 * 2 ^ u : Nat) then 0
  else if v < 0 then 2 ^ (2 * expBits) / expUp u v.natAbs
  else expUp u v.natAbs

/-- One ulp of FP32, in units of 2^-149, at a value of n / d such units. -/
def fpUlp (n d : Nat) : Nat := 2 ^ ((n / d).log2 - 23)

/-- An FP32 word lies within k ulp of v / d units of 2^-149. -/
def withinUlp (k : Nat) (x : BitVec 32) (v : Int) (d : Nat) : Bool :=
  !(fpBad x) && decide ((fpVal x * d - v).natAbs ≤ k * fpUlp v.natAbs d * d)

/-- R145, R160: the exponential: exactly 0 for −∞ and 1 for 0, else a word within 2 ulp of the true value, which of them is free
(log 12). -/
def fpExp (x : BitVec 32) : BitVec 32 :=
  if x = fpNegInf then 0
  else if x = 0 || x = 0x80000000 then 0x3F800000
  else if fpNan x then 0x7FC00000
  else if decide ((90 * 2 ^ 149 : Nat) < fpVal x) then 0x7F800000
  else
    let e := expRef 149 (fpVal x)
    let best := fpNearest false (e * 2 ^ 149) (2 ^ expBits)
    let w := best + BitVec.ofNat 32 (Config.expWord x % 5) - 2
    if !(fpNeg w) && withinUlp 2 w (e * 2 ^ 149 : Nat) (2 ^ expBits) then w else best

/-! ### Block floating point (R141, R143) -/

/-- R141, R143: one block (values in units of 2^-149) with mantissas of `w` bits: the shared exponent, in those units, and the
mantissas. -/
def blockFloat (w : Nat) (xs : List Int) : Nat × List Int :=
  let a := (xs.map Int.natAbs).foldl Nat.max 0
  let e := a.log2 - (w - 2)
  let round (e : Nat) (x : Int) : Int :=
    let m := divEven x.natAbs (2 ^ e)
    if x < 0 then -(m : Int) else m
  if a.log2 < w - 2 then (0, xs)
  else if xs.any (fun x => 2 ^ (w - 1) ≤ divEven x.natAbs (2 ^ e)) then (e + 1, xs.map (round (e + 1)))
  else (e, xs.map (round e))

/-- The values, in units of 2^-149, that a converted block stands for. -/
def blockVals (b : Nat × List Int) : List Int := b.2.map (fun m => m * (2 ^ b.1 : Nat))

/-! ### Results within a bound (R161, R187) -/

/-- The first of these FP32 words that lies within n / b of v / d, both in units of 2^-149; where none does, the word nearest
to v / d. -/
def fpPick (ws : List (BitVec 32)) (v : Int) (d n b : Nat) : BitVec 32 :=
  match ws.find? (fun w => !(fpBad w) && decide ((fpVal w * d - v).natAbs * b ≤ n * d)) with
  | some w => w
  | none => fpOf v d

/-- R137: D^-1/2 rounded to FP32, for D = 32 h. -/
def sigma (h : Nat) : BitVec 32 :=
  match h with
  | 1 => 0x3E3504F3
  | 2 => 0x3E000000
  | 3 => 0x3DD105EC
  | 4 => 0x3DB504F3
  | 5 => 0x3DA1E89B
  | 6 => 0x3D93CD3A
  | 7 => 0x3D88D677
  | _ => 0x3D800000

end Machine
end Sys2Proof
end

