-- ==== Sys2Proof/Machine/Pool.lean ====
section
/-! DEFINITION. The pool ALUs (R287-R289): POOL.FILL, POOL.COPY, POOL.COMPARE and POOL.REDUCE, and the pieces of an
operation, one per granule of its destination. -/

namespace Sys2Proof
namespace Machine

/-- R58: the operands of a pool instruction or command. -/
def PoolOp.of (op : Nat) (w0 w1 w2 : BitVec 64) : PoolOp :=
  if op = 0x70 then { op := op, dst := w0.toNat, len := w1.toNat, pattern := w2 }
  else if op = 0x73 then
    { op := op, dst := w0.toNat, src := w1.toNat, len := bits w2.toNat 0 40, kind := bits w2.toNat 40 2
      type := bits w2.toNat 42 2 }
  else { op := op, dst := w0.toNat, src := w1.toNat, len := w2.toNat }

/-- Two ranges of n bytes overlap. -/
def rangesMeet (a b n : Nat) : Bool := decide (a < b + n) && decide (b < a + n)

/-- R37, R58: the checks of a pool operation: its ranges, overlap (log 31; its DETAIL is the
model's choice, log 140), the fields of POOL.REDUCE. -/
def State.badPool (s : State) (c : Nat) (o : PoolOp) : Bad :=
  firstBad [
    s.rng c o.dst o.len 0,
    if o.op = 0x70 then none else s.rng c o.src o.len 1,
    badIf ((o.op = 0x71 || o.op = 0x73) && rangesMeet o.dst o.src o.len) St.badOperand 1,
    badIf (o.op = 0x73 && (o.kind = 3 || o.type = 3)) St.badOperand 2]

/-! ### Elements (R288) -/

/-- R288: FP32 maximum or minimum; a NaN gives the quiet NaN, and +0 is above −0. -/
def poolPick (big : Bool) (x y : BitVec 32) : BitVec 32 :=
  if fpNan x || fpNan y then 0x7FC00000
  else if fpMag x = 0 && fpMag y = 0 && !(fpBad x) && !(fpBad y) then
    (if big then (if fpNeg x && fpNeg y then 0x80000000 else 0) else (if fpNeg x || fpNeg y then 0x80000000 else 0))
  else if fpLt x y == big then y else x

/-- R288: an FP32 element. -/
def reduceFp (kind : Nat) (x y : BitVec 32) : BitVec 32 :=
  if kind = 0 then fpAdd x y else poolPick (kind = 1) x y

/-- R288: an int32 element. -/
def reduceInt (kind : Nat) (x y : BitVec 32) : BitVec 32 :=
  if kind = 0 then x + y
  else if decide (x.toInt < y.toInt) == (kind == 1) then y else x

/-- R58: bytes of an element of a type. -/
def poolWidth (type : Nat) : Nat := if type = 1 then 2 else 4

/-- R288: one element of an accumulator and a source, as numbers of their width. -/
def reduceElt (kind type a b : Nat) : Nat :=
  if type = 1 then toBf16 (reduceFp kind (ofBf16 a) (ofBf16 b))
  else if type = 0 then (reduceFp kind (BitVec.ofNat 32 a) (BitVec.ofNat 32 b)).toNat
  else (reduceInt kind (BitVec.ofNat 32 a) (BitVec.ofNat 32 b)).toNat

/-- R288: a line of an accumulator and a source, element by element. -/
def reduceLine (kind type : Nat) (acc src : List Byte) : List Byte :=
  let w := poolWidth type
  (List.range (64 / w)).flatMap (fun i =>
    leBytes w (reduceElt kind type (ofBytes ((acc.drop (w * i)).take w)) (ofBytes ((src.drop (w * i)).take w))))

/-! ### Lines and pieces (R287, R289) -/

/-- R289: the operation on line i of its operands. -/
def State.poolLine (s : State) (o : PoolOp) (i : Nat) : State :=
  let d := o.dst + 64 * i
  let sr := o.src + 64 * i
  if o.op = 0x70 then s.poke d ((List.range 8).flatMap (fun _ => leBytes 8 o.pattern.toNat))
  else if o.op = 0x72 then s
  else if s.mem.poisoned (sr / 64) || (o.op = 0x73 && s.mem.poisoned (d / 64)) then
    { s with mem := s.mem.poisonLine (d / 64) }
  else if o.op = 0x71 then s.poke d (s.peek sr 64)
  else s.poke d (reduceLine o.kind o.type (s.peek d 64) (s.peek sr 64))

/-- R289: the operation on lines first to first + n − 1. -/
def State.poolLines (s : State) (o : PoolOp) (first n : Nat) : State :=
  (List.range n).foldl (fun s i => s.poolLine o (first + i)) s

/-- R289: the first line, of lines first to first + n − 1, whose reads meet poison. -/
def State.poolPoison (s : State) (o : PoolOp) (first n : Nat) : Option Nat :=
  ((List.range n).map (· + first)).find? (fun i =>
    (o.op != 0x70 && s.mem.poisoned ((o.src + 64 * i) / 64)) ||
    ((o.op = 0x72 || o.op = 0x73) && s.mem.poisoned ((o.dst + 64 * i) / 64)))

/-- R382, R427: the first line that ends a read with ST_INTEGRITY or ST_UNCORRECTABLE. -/
def State.poolErr (s : State) (o : PoolOp) : Bad :=
  let at_ (a : Nat) : Bad := (linesOf a o.len).findSome? (fun l =>
    if s.mem.poisoned l then none
    else if s.mem.badMac.contains l then some (St.integrity, l - a / 64)
    else if s.mem.uncorrectable.contains l then some (St.uncorrectable, l - a / 64) else none)
  firstBad [if o.op = 0x70 || o.op = 0x71 then none else at_ o.dst, if o.op = 0x70 then none else at_ o.src]

/-- R58, R289: the offset of the first differing byte, below `upTo`. -/
def State.poolDiff (s : State) (o : PoolOp) (upTo : Nat) : Option Nat :=
  (List.range upTo).find? (fun i => s.mem.byte (o.dst + i) != s.mem.byte (o.src + i))

/-- R58, R289: how an operation completes, from the memory as it began: a poisoned line, a difference, the bytes. -/
def State.poolDone (s : State) (o : PoolOp) : Done :=
  let p := s.poolPoison o 0 (o.len / 64)
  let result : Nat :=
    if o.op = 0x72 then
      match s.poolDiff o ((p.map (64 * ·)).getD o.len), p with
      | some i, _ => i
      | none, some l => 64 * l
      | none, none => 0xFFFFFFFFFFFFFFFF
    else o.len
  let d : Done := match p with
    | some l => { status := St.poison, detail := l, result := if o.op = 0x72 then BitVec.ofNat 64 result else 0 }
    | none => { result := BitVec.ofNat 64 result }
  if o.op = 0x72 then d else s.stored o.dst o.len d

/-- R287-R289: a whole operation, its pieces in ascending order. -/
def State.poolAll (s : State) (o : PoolOp) : State :=
  (s.poolLines o 0 (o.len / 64)).count 0x03400130 (if o.op = 0x72 then 0 else o.len)

/-- R456, R287-R289: bytes that n bytes of an operation read and write: one range filled, two copied or compared, three reduced. -/
def PoolOp.moves (o : PoolOp) (n : Nat) : Nat :=
  match o.op with
  | 0x70 => n
  | 0x73 => 3 * n
  | _ => 2 * n

/-- R37, R58: what a pool instruction checks. -/
def poolChk (op : Nat) : Job → State → Chk := checks (fun j s => s.badPool j.ctx (PoolOp.of op j.w0 j.w1 j.w2))

/-- R287-R289: a pool instruction. -/
def poolBody (op : Nat) (j : Job) (s : State) : Out :=
  let o := PoolOp.of op j.w0 j.w1 j.w2
  match s.poolErr o with
  | some e => fails e.1 e.2 s
  | none => .done (s.poolDone o) ((s.poolAll o).hearthBytes j (o.moves o.len))

/-- R287: POOL.FILL. -/
def execPoolFill (a : At) (s : State) : Host.Outcome State Fault Refusal := .next (runHob 0x70 a (poolChk 0x70) (poolBody 0x70) s)
/-- R287: POOL.COPY. -/
def execPoolCopy (a : At) (s : State) : Host.Outcome State Fault Refusal := .next (runHob 0x71 a (poolChk 0x71) (poolBody 0x71) s)
/-- R287: POOL.COMPARE. -/
def execPoolCompare (a : At) (s : State) : Host.Outcome State Fault Refusal := .next (runHob 0x72 a (poolChk 0x72) (poolBody 0x72) s)
/-- R288: POOL.REDUCE. -/
def execPoolReduce (a : At) (s : State) : Host.Outcome State Fault Refusal := .next (runHob 0x73 a (poolChk 0x73) (poolBody 0x73) s)

/-! ### Pool commands (R291) -/

/-- R291: the granule pieces of an operation: the lines up to the end of the destination's granule. -/
def PoolOp.pieceLines (o : PoolOp) (done : Nat) : Nat :=
  Nat.min (o.len / 64 - done) ((granule - (o.dst + 64 * done) % granule) / 64)

/-- R283, R291: the lines that the next piece of a running command must snoop first. -/
def State.poolSnoops (s : State) (o : PoolOp) (done : Nat) : List Nat :=
  let t := s.tracked
  let n := 64 * o.pieceLines done
  let rd := (t.filter (·.2)).map (·.1)
  let d := o.dst + 64 * done
  let r := o.src + 64 * done
  (lineNos ((if o.op = 0x72 then trackedIn rd d n else trackedIn (t.map (·.1)) d n)
    ++ (if o.op = 0x70 then [] else trackedIn rd r n))).foldl insNat []

end Machine
end Sys2Proof
end

