-- ==== Sys2Proof/Machine/Seq.lean ====
section
/-! DEFINITION. Frames and their headers (R65-R70), sealing (R90, R98), copies (R89), and the sequence instructions (R54,
R76, R91, R92, R204-R206). -/

namespace Sys2Proof
namespace Machine

/-! ### Frame geometry (R65, R67) -/

/-- R64: head dimension. -/
def Profile.hdim (p : Profile) : Nat := 32 * p.hdim32

/-- R65: payload bytes of 32 elements of a format. -/
def Fmt.block : Fmt → Nat
  | .kvb16 => 64
  | .kvi8 => 32
  | .kvi4 => 16

/-- R65: payload bytes of one head at one slot. -/
def Profile.headBytes (p : Profile) (f : Fmt) : Nat := f.block * p.hdim32

/-- R65: scale bytes of one head at one slot. -/
def Profile.headScales (p : Profile) (f : Fmt) : Nat :=
  match f with
  | .kvb16 => 0
  | _ => p.hdim32

/-- R65: the rounded payload section. -/
def Profile.payload (p : Profile) (f : Fmt) : Nat := up64 (p.kvheads * 16 * p.headBytes f)

/-- R65: the rounded scale section. -/
def Profile.scales (p : Profile) (f : Fmt) : Nat := up64 (p.kvheads * 16 * p.headScales f)

/-- R67: offsets of the K payload, K scales, V payload, V scales and the end of the last section. -/
def Profile.sections (p : Profile) : Nat × Nat × Nat × Nat × Nat :=
  let k := 128
  let ks := k + p.payload p.kfmt
  let v := ks + p.scales p.kfmt
  let vs := v + p.payload p.vfmt
  (k, ks, v, vs, vs + p.scales p.vfmt)

/-- R65: the frame size in KiB. -/
def Profile.frameSize (p : Profile) : Nat := ceilDiv p.sections.2.2.2.2 1024

/-- R65, R71: bytes of one position in page format, its parts packed without rounding. -/
def Profile.rowBytes (p : Profile) : Nat :=
  p.kvheads * (p.headBytes p.kfmt + p.headScales p.kfmt + p.headBytes p.vfmt + p.headScales p.vfmt)

/-- R71: where the parts of a packed row of slot `t` go in the frame: offset in the frame and length, in row order. -/
def Profile.rowParts (p : Profile) (t : Nat) : List (Nat × Nat) :=
  let (k, ks, v, vs, _) := p.sections
  let sec (base n : Nat) : List (Nat × Nat) := (List.range p.kvheads).map (fun h => (base + (h * 16 + t) * n, n))
  (sec k (p.headBytes p.kfmt) ++ sec ks (p.headScales p.kfmt) ++ sec v (p.headBytes p.vfmt)
    ++ sec vs (p.headScales p.vfmt)).filter (fun q => q.2 != 0)

/-- R51, R68: the code of a format. -/
def Fmt.code : Fmt → Nat
  | .kvb16 => 0
  | .kvi8 => 1
  | .kvi4 => 2

/-- R51: the format of a code. -/
def fmtOf : Nat → Fmt
  | 0 => .kvb16
  | 1 => .kvi8
  | _ => .kvi4

/-! ### The page header (R68, R69) -/

/-- R68: FORMAT. -/
def Profile.format (p : Profile) : Nat := p.kfmt.code + 4 * p.vfmt.code

/-- R69: the flags a new page of a profile starts with. -/
def Profile.newFlags (p : Profile) (persistent cow noIds : Bool) : Nat :=
  2 * b2n p.rope + 4 * b2n p.ring.isSome + 8 * b2n cow + 16 * b2n noIds + 32 * b2n persistent

/-- R68: the 128 bytes of the header of an open page. -/
def openHeader (p : Profile) (parent layer fill epoch flags : Nat) (tokens : List Byte) : List Byte :=
  leBytes 8 0 ++ leBytes 8 parent ++ leBytes 4 p.id ++ leBytes 2 layer ++ leBytes 1 fill ++ leBytes 1 p.format
    ++ leBytes 1 epoch ++ leBytes 3 flags ++ leBytes 4 0 ++ tokens ++ leBytes 4 0 ++ leBytes 28 0

/-- R69: PGFLAGS of a page. -/
def State.pgFlags (s : State) (h : Nat) : Nat := s.field (viewBase h + 25) 3

/-- A header field written. -/
def State.pokeHdr (s : State) (h off n v : Nat) : State := s.poke (viewBase h + off) (leBytes n v)

/-- R82, R86: FILL in the header and in the handle entry. -/
def State.setFill (s : State) (h fill : Nat) : State :=
  (s.pokeHdr h 22 1 fill).updPage h (fun p => { p with fill := fill })

/-- R88: the header of a new open page at logical page n, its PARENT the handle at n − 1. -/
def State.initFrame (s : State) (k l n h : Nat) : State :=
  let p := s.prof k
  let g := s.page h
  let e := s.pte k l (n - 1)
  let parent := if n = 0 || !e.v then 0 else e.handle
  s.poke (viewBase h) (openHeader p parent l 0 g.epoch.toNat (p.newFlags g.persistent false false) (List.replicate 64 0))

/-! ### Sealing (R90, R96, R98) -/

/-- R96: the chain hash of sixteen tokens after a parent's chain. -/
def chainOf (parent : BitVec 64) (tokens : List Byte) (profile layer : Nat) : BitVec 64 :=
  let ws := (List.range 8).map (fun i => BitVec.ofNat 64 (ofBytes ((tokens.drop (8 * i)).take 8)))
  let c := sipHash24 Config.chainKey (parent :: ws ++ [BitVec.ofNat 64 (profile + layer * 2 ^ 32)])
  if c = 0 then 1 else c

/-- R70: the CRC of a frame whose header and sections stand at its view. -/
def State.frameCrc (s : State) (p : Profile) (h : Nat) : BitVec 32 :=
  let b := viewBase h
  crc32c (s.peek b 24 ++ s.peek (b + 32) 64 ++ s.peek (b + 128) (p.sections.2.2.2.2 - 128))

/-- R98: the chain that logical page n builds on: 0 for n = 0, none where the page receives CHAIN 0. -/
def State.parentChain (s : State) (k l n : Nat) : Option (BitVec 64) :=
  if n = 0 then some 0
  else
    match s.meet k l (n - 1) with
    | .gone _ => none
    | .hit h => if (s.page h).chain = 0 then none else some (s.page h).chain
    | .away h => if (s.page h).chain = 0 then none else some (s.page h).chain

/-- R80: no layer of a sequence has the page as its OPEN page any more. -/
def State.clearOpen (s : State) (h : Nat) : State :=
  { s with seqs := s.seqs.mapVals (fun _ q =>
    if q.layers.any (fun y => y.openH == h) then
      { q with layers := q.layers.map (fun y => if y.openH == h then { y with openH := 0 } else y) }
    else q) }

/-- R90: a full open page is sealed; a persistent-class page enters DEMOTING as soon as it may (R120). -/
def State.sealPage (s : State) (k l n h : Nat) : State :=
  let p := s.prof k
  let g := s.page h
  if g.life != .opened || g.fill != 16 then s
  else
    let chain := if g.noIds then 0
      else match s.parentChain k l n with
        | none => 0
        | some c => chainOf c (s.peek (viewBase h + 32) 64) p.id l
    let s := s.pokeHdr h 0 8 chain.toNat
    let s := s.pokeHdr h 25 3 (s.pgFlags h ||| 1)
    let s := s.pokeHdr h 96 4 (s.frameCrc p h).toNat
    let s := s.freeFrame (pageDie h) g.mirror
    let s := (s.setPage h { g with life := .sealed, mirror := none, chain := chain }).clearOpen h
    if g.persistent && decide (s.demoting (pageDie h) < 64) then s.startDemote h else s

/-- R98: the full open pages of a layer up to logical page n, sealed in ascending order; answers how many. -/
def State.sealUpTo (s : State) (k l : Nat) (ns : List Nat) : Nat × State :=
  ns.foldl (fun (c : Nat × State) n =>
    let e := c.2.pte k l n
    let g := c.2.page e.handle
    if e.v && g.life == .opened && g.fill == 16 then (c.1 + 1, c.2.sealPage k l n e.handle) else c) (0, s)

/-! ### Truncated and private copies (R89, R91, R114) -/

/-- R91: slots of a page from `fill` on are zeroed in TOKENS and in every section. -/
def State.zeroSlots (s : State) (p : Profile) (h fill : Nat) : State :=
  let s := s.poke (viewBase h + 32 + 4 * fill) (List.replicate (64 - 4 * fill) 0)
  (pageRange fill 16).foldl (fun s t =>
    (p.rowParts t).foldl (fun s q => s.poke (viewBase h + q.1) (List.replicate q.2 0)) s) s

/-- R87: a written slot of the page has no known token id. -/
def State.unknownIds (s : State) (h fill : Nat) : Bool :=
  (List.range fill).any (fun t => s.field (viewBase h + 32 + 4 * t) 4 == 0xFFFFFFFF)

/-- R89: the new page `c` receives header and the first `fill` positions of page h, COW_COPY and the present EPOCH. -/
def State.copyInto (s : State) (p : Profile) (h c fill : Nat) : State :=
  let n := p.frameKib * 1024
  let g := s.page c
  let s := s.poke (viewBase c) (s.peek (viewBase h) n)
  let noIds := (s.page h).noIds && s.unknownIds h fill
  let s := s.pokeHdr c 0 8 0
  let s := s.pokeHdr c 24 1 g.epoch.toNat
  let s := s.pokeHdr c 25 3 (p.newFlags g.persistent true noIds)
  let s := s.pokeHdr c 96 4 0
  let s := if fill < 16 then s.zeroSlots p c fill else s
  (s.setFill c fill).updPage c (fun q => { q with noIds := noIds })

/-- The page-table entry of a reference to an open page of the sequence's own. -/
def State.ownPte (s : State) (k h : Nat) : Pte := { handle := h, v := true, kept := !(s.seq k).hints.evictOk }

/-- R80: OPEN, the handle of the open page that holds position LENGTH − 1, or 0. -/
def State.fixOpen (s : State) (k l : Nat) : State :=
  let y := s.layer k l
  let e := s.pte k l ((y.length - 1) / 16)
  let o := if y.length ≠ 0 && e.v && (s.page e.handle).life == .opened then e.handle else 0
  s.setLayer k l { y with openH := o }

/-! ### SEQ.CREATE (R54, R76, R198) -/

/-- R76: entries of a die's half of the sequence table. -/
def seqsPerDie : Nat := 2097152

/-- R76: the sequences that are not FREE on a die. -/
def State.liveSeqs (s : State) (d : Side) : List Nat :=
  (s.seqs.filter (fun p => p.2.state != .free && seqHome p.1 == d)).map (fun p => seqIndex p.1)

/-- R76, R79, R198: the die on which a new sequence of a profile with this many layers finds an entry and its directory's blocks. -/
def State.seqDie (s : State) (home layers : Nat) : Option Side :=
  let room (d : Side) : Bool := decide ((s.liveSeqs d).length < seqsPerDie) && s.dirRoom d layers
  let first : Side :=
    if home = 1 then .west else if home = 2 then .east
    else s.roomier
  if room first then some first else if home = 0 && room first.other then some first.other else none

/-- R76: the generation after `g` of the entry with key k: 0 is passed over at index 0 of the West half. -/
def nextGen (k : Nat) (g : BitVec 16) : BitVec 16 := if k = 0 && g + 1 = 0 then 1 else g + 1

/-- R76, R78, R80: a LIVE entry put into the lowest free index of a die. -/
def State.newSeq (s : State) (d : Side) (q : Seq) : Nat × State :=
  let k := d.num * seqsPerDie + lowestFree ((s.liveSeqs d).foldl insNat []) 0
  (k, s.setSeq k { q with
    state := .live, gen := nextGen k (s.seq k).gen, created := s.now, inflight := 0, lastWalk := s.now.toNat
    dirCold := false, tableRec := none })

/-- R54: the hints of a mask. -/
def hintsOf (m : Nat) : Hints := { pin := bitOf m 0, preferHot := bitOf m 1, evictOk := bitOf m 2, noDemote := bitOf m 3 }

/-- R54, R36: what SEQ.CREATE checks; the profile it names counts as one that it touches (log 117). -/
def createChk (j : Job) (s : State) : Chk :=
  Chk.ofErr (match s.profileSlot (bits j.w0.toNat 0 32) with
    | none => some (St.badOperand, 0)
    | some slot =>
      if bits j.w0.toNat 32 2 = 3 then some (St.badOperand, 0) else j.layerErr (s.profile slot).layers) s

/-- R54: SEQ.CREATE. -/
def createBody (j : Job) (s : State) : Out :=
  match s.profileSlot (bits j.w0.toNat 0 32) with
  | none => fails St.badOperand 0 s
  | some slot =>
      match s.seqDie (bits j.w0.toNat 32 2) (s.profile slot).layers with
      | none => fails St.noSpace 0 s
      | some d =>
        let p := s.profile slot
        let y : Layer := { depth := if p.ring.isSome then 0 else 1 }
        let (k, s) := s.newSeq d {
          ctx := j.ctx, pslot := slot, hints := hintsOf j.w1.toNat, layers := List.replicate p.layers y }
        succeeds (seqHandle k (s.seq k).gen) s

/-- R54, R76: SEQ.CREATE. -/
def execSeqCreate (a : At) (s : State) : Host.Outcome State Fault Refusal := .next (runHob 0x10 a createChk createBody s)

/-! ### SEQ.DESTROY (R92) -/

/-- R92: every page reference and the table blocks are released and the entry becomes FREE. -/
def State.releaseSeq (s : State) (k : Nat) : State :=
  let s := (List.range (s.seq k).layers.length).foldl (fun s l =>
    (s.layer k l).ptes.foldl (fun s e =>
      if e.2.v then (if e.2.kept then s.keep e.2.handle false else s).releaseRef e.2.handle else s) s) s
  s.setSeq k { gen := (s.seq k).gen }

/-- R77, R36: the check of an instruction that names one sequence. -/
def namedChk (j : Job) (s : State) : Chk := Chk.ofErr (s.badNamed j j.w0) s

/-- R91, R92: an instruction that waits for a sequence's INFLIGHT marks it, and waits; its tables come back. -/
def State.markSeq (s : State) (j : Job) (st : SeqState) : Out :=
  match j.prev with
  | some w => .wait w s
  | none =>
    let k := seqKey j.w0.toNat
    let s := s.setSeq k { s.seq k with state := st }
    .wait (.seqIdle k) (if (s.seq k).dirCold then s.requestTables k (s.ring j.site.ring).cls.toNat else s)

/-- R92: SEQ.DESTROY marks its sequence and waits. -/
def destroyBody (j : Job) (s : State) : Out := s.markSeq j .destroying

/-- R92: SEQ.DESTROY. -/
def execSeqDestroy (a : At) (s : State) : Host.Outcome State Fault Refusal := .next (runHob 0x11 a namedChk destroyBody s)

/-- R92, R202: once INFLIGHT is zero and the tables are resident, the sequence is released. -/
def destroyGo (_ : Job) (w : Wait) (s : State) : Option Out :=
  match w with
  | .seqIdle k =>
    if (s.seq k).state == .destroying && (s.seq k).inflight = 0 && !(s.seq k).dirCold
    then some (succeeds 0 (s.releaseSeq k)) else none
  | _ => none

/-- R92: SEQ_DESTROY_RELEASE. -/
def execSeqDestroyRelease (a : At) (s : State) : Host.Outcome State Fault Refusal := .next (goOn 0x11 a destroyGo s)

/-! ### SEQ.TRUNC (R91) -/

/-- R91: SEQ.TRUNC marks its sequence and waits. -/
def truncBody (j : Job) (s : State) : Out := s.markSeq j .truncating

/-- R91: SEQ.TRUNC. -/
def execSeqTrunc (a : At) (s : State) : Host.Outcome State Fault Refusal := .next (runHob 0x12 a namedChk truncBody s)

/-- R91: what a truncation to L does to the page that holds position L − 1 of a layer. -/
inductive Cut where
  | nothing
  | gone (lost : Bool)
  | away (h : Nat)
  | busy
  | inPlace (h : Nat)
  | copy (h : Nat)
deriving DecidableEq, Repr

/-- R91: the case of a layer. A page below BASEPG of a ring, which the ring has released, counts as dropped (log 27). -/
def State.cutOf (s : State) (k l len : Nat) : Cut :=
  if (s.layer k l).length ≤ len || len % 16 = 0 then .nothing
  else if len / 16 < (s.layer k l).basePg then .gone false
  else
    match s.meet k l (len / 16) with
    | .gone b => .gone b
    | .away h => .away h
    | .hit h =>
      if 1 < (s.page h).refcnt then .copy h
      else if (s.page h).res == .demoting then .busy
      else .inPlace h

/-- R91, R196: the mirror frame of a page that is reopened. -/
def State.newMirror (s : State) (h : Nat) : Alloc :=
  let g := s.page h
  match g.primary, g.mirror with
  | some f, none => s.allocFrame (pageDie h) ((f.stack + 5) % 10) g.kib (some f.stack) [h]
  | some f, some _ => .got f s
  | none, _ => .noSpace

/-- R91: a page reopened in place with `fill` positions. -/
def State.reopen (s : State) (p : Profile) (h fill : Nat) : State :=
  let s := if (s.page h).coal then s.releaseCopy h else s
  let s := s.updPage h (fun g => { g with
    life := .opened, res := .hot, chain := 0, noIds := g.noIds && s.unknownIds h fill })
  let s := s.pokeHdr h 0 8 0
  let fl := s.pgFlags h
  let s := s.pokeHdr h 25 3 (fl - fl % 2 - (if bitOf fl 4 && !(s.page h).noIds then 16 else 0))
  let s := s.pokeHdr h 96 4 0
  (s.zeroSlots p h fill).setFill h fill

/-- A list of allocations that must all succeed before anything changes (R210). -/
inductive Plan where
  | ready (s : State)
  | waits (d : Side) (left : Nat)
  | noSpace
deriving DecidableEq, Repr

/-- R91: the frames of one layer's cut page, with its copy or its reopening. The copy is charged without a check of the page quota, the
model's choice (log 136). -/
def State.cutLayer (s : State) (k l len : Nat) : Plan :=
  let p := s.prof k
  match s.cutOf k l len with
  | .inPlace h =>
    match s.newMirror h with
    | .waits => .waits (pageDie h) 0
    | .noSpace => .noSpace
    | .got f s1 =>
      .ready ((s1.updPage h (fun g => { g with mirror := if g.mirror.isSome then g.mirror else some f })).reopen p h
        (len % 16))
  | .copy h =>
    match s.newOpen k l (len / 16) [h] with
    | .waits n => .waits (seqHome k) n
    | .noSpace => .noSpace
    | .got c s1 =>
      let s2 := ((s1.touch h).copyInto p h c (len % 16)).dropRef k l (len / 16)
      .ready (s2.setPte k l (len / 16) (s2.ownPte k c))
  | .gone lost =>
    let e := s.pte k l (len / 16)
    .ready ((if e.v then (if e.kept then s.keep e.handle false else s).releaseRef e.handle else s).setPte k l (len / 16)
      { dropped := !lost, lost := lost })
  | _ => .ready s

/-- R91: the cut pages of the layers of a list. -/
def State.cutLayers (k len : Nat) : List Nat → State → Plan
  | [], s => .ready s
  | l :: r, s =>
    match s.cutLayer k l len with
    | .ready s' => State.cutLayers k len r s'
    | .waits d n => .waits d (2 * r.length + n)
    | .noSpace => .noSpace

/-- R91: of one layer the pages at or beyond L are released and LENGTH becomes L. -/
def State.shorten (s : State) (k l len : Nat) : State :=
  let y := s.layer k l
  if y.length ≤ len then s
  else
    let s := (pageRange (Nat.max (pagesOf len) y.basePg) (pagesOf y.length)).foldl (fun s n => s.dropRef k l n) s
    (s.setLayer k l { s.layer k l with length := len, basePg := Nat.min y.basePg (pagesOf len) }).fixOpen k l

/-- R54: the largest layer length. -/
def State.maxLen (s : State) (k : Nat) : Nat := ((s.seq k).layers.map (·.length)).foldl Nat.max 0

/-- R91: the sequence is LIVE again. -/
def State.relive (s : State) (k : Nat) : State := s.setSeq k { s.seq k with state := .live }

/-- R91: the page that a cut works on. -/
def Cut.page : Cut → Option Nat
  | .inPlace h => some h
  | .copy h => some h
  | _ => none

/-- R91, R85: SEQ.TRUNC proceeds once INFLIGHT is zero. While it allocates, the pages it cuts keep their frames. It has no descriptor and so
no list: its ST_RECOMPUTE sets LIST_FULL, the model's choice (log 136). -/
def truncRun (k len : Nat) (j : Job) (s : State) : Out :=
  let ls := List.range (s.seq k).layers.length
  let cuts := ls.map (fun l => (l, s.cutOf k l len))
  let away := cuts.filterMap (fun c => match c.2 with
    | .away h => some h
    | _ => none)
  if !away.isEmpty then
    match s.awaitPages j away 0 with
    | .done d s' => .done d (s'.relive k)
    | o => o
  else if cuts.any (fun c => c.2 == .busy) then .wait (.seqIdle k) s
  else
    let s0 := s.use j.site (cuts.filterMap (fun c => c.2.page))
    match State.cutLayers k len ls s0 with
    | .waits d n => waitAlloc j d n s0
    | .noSpace => .done { status := St.noSpace } (s.relive k)
    | .ready s1 =>
      let ms := cuts.flatMap (fun c => match c.2 with
        | .gone b => missesOf k c.1 (s.layer k c.1).length [(len / 16, b)]
        | _ => [])
      let s2 := (ls.foldl (fun s l => s.shorten k l len) s1).relive k
      if ms.isEmpty then succeeds (s2.maxLen k) s2
      else .done { status := St.recompute, detail := ms.length, flags := Fl.listFull } s2

/-- R91, R202: the conditions under which a truncation goes on. -/
def truncGo (j : Job) (_ : Wait) (s : State) : Option Out :=
  match s.heldSeq j.ctx j.w0 with
  | none => none
  | some k =>
    if (s.seq k).state == .truncating && (s.seq k).inflight = 0 && !(s.seq k).dirCold
    then some (truncRun k (bits j.w1.toNat 0 32) j s) else none

/-- R91: SEQ_TRUNC_PROCEED. -/
def execSeqTruncProceed (a : At) (s : State) : Host.Outcome State Fault Refusal := .next (goOn 0x12 a truncGo s)

/-! ### SEQ.HINT (R54, R203-R206) -/

/-- R54: hints set or cleared by a mask. -/
def Hints.change (h : Hints) (m : Hints) (clear : Bool) : Hints :=
  let f (old mask : Bool) : Bool := if clear then old && !mask else old || mask
  ⟨f h.pin m.pin, f h.preferHot m.preferHot, f h.evictOk m.evictOk, f h.noDemote m.noDemote⟩

/-- R206: NO_DEMOTE set on a page: a COLD page is promoted, a Coal copy released. A COLD page's copy goes once it has been
promoted (log 28). -/
def State.forbidDemote (s : State) (h : Nat) : State :=
  let p := s.page h
  if p.res == .clean then (s.releaseCopy h).updPage h (fun g => { g with res := .hot })
  else if p.res == .cold || p.res == .promoting then s.request h .background 0
  else s

/-- R203, R204, R206: owner hints of a page set or cleared; setting one acts though it was set before, and a chunk follows its object's
EVICT_OK. -/
def State.hintPage (s : State) (h : Nat) (m : Hints) (clear : Bool) : State :=
  let p := s.page h
  if p.life == .dropped || p.life == .lost then s
  else
    let o : Hints := Hints.change ⟨p.pin, p.preferHot, false, p.noDemote⟩ m clear
    let s := s.setPage h { p with pin := o.pin, preferHot := o.preferHot, noDemote := o.noDemote }
    let s := if m.noDemote && !clear then s.forbidDemote h else s
    let s := if m.pin && !clear && p.res == .cold then s.request h .background 0 else s
    if o == ⟨p.pin, p.preferHot, false, p.noDemote⟩ then s.relist h else (s.relist h).grantPin h

/-- R204: a sequence's own reference joins or leaves KEEPCNT of a page. -/
def State.keepPte (s : State) (k l : Nat) (slot : Nat) (kept : Bool) : State :=
  let y := s.layer k l
  let e := y.ptes.lookD slot {}
  if e.v && e.kept != kept then
    (s.setLayer k l { y with ptes := y.ptes.put slot { e with kept := kept } }).keep e.handle kept
  else s

/-- R204: SEQ.HINT on one layer of a sequence. -/
def State.hintLayer (s : State) (c k l : Nat) (m : Hints) (clear : Bool) : State :=
  (s.layer k l).ptes.foldl (fun s e =>
    if !e.2.v then s
    else
      let s := if (s.page e.2.handle).ctx = c then s.hintPage e.2.handle m clear else s
      if m.evictOk then s.keepPte k l e.1 clear else s) s

/-- R204: SEQ.HINT on a weight object: every chunk follows it. -/
def State.hintObj (s : State) (w : Nat) (m : Hints) (clear : Bool) : State :=
  let o := s.wobj w
  let s := s.setWobj w { o with hints := o.hints.change m clear }
  (s.pages.filter (fun p => (p.2.chunk.map (·.1)) == some w)).foldl (fun s p => s.hintPage p.1 m clear) s

/-- R221: the checks of a weight object handle. -/
def State.checkObj (s : State) (c : Nat) (w : BitVec 64) (off : Nat) : Except (Status × Nat) Nat :=
  let h := w.toNat
  let k := bits h 21 1 * 2048 + bits h 0 11
  let o := s.wobj k
  if h / 2 ^ 40 ≠ 0 then .error (St.badReserved, off + firstByte (h / 2 ^ 40 * 2 ^ 40))
  else if handleKind h ≠ 2 || bits h 11 10 ≠ 0 || !o.live || o.gen.toNat ≠ bits h 22 16 then .error (St.badHandle, 0)
  else if o.ctx ≠ c then .error (St.access, 0)
  else .ok k

/-- R54, R75: SEQ.HINT names a weight object. -/
def hintsObj (j : Job) : Bool := j.w0.toNat / 2 ^ 40 = 0 && handleKind j.w0.toNat = 2

/-- R54, R204, R202: what SEQ.HINT checks; the tables of its sequence are resident then. -/
def hintChk (j : Job) (s : State) : Chk :=
  if hintsObj j then
    Chk.ofErr (match s.checkObj j.ctx j.w0 8 with
      | .error e => some e
      | .ok _ => badIf (hintsOf j.w1.toNat).noDemote St.badOperand 1) s
  else
    match s.badNamed j j.w0 with
    | some e => Chk.ofErr (some e) s
    | none => s.withTables j [seqKey j.w0.toNat] (fun s => .good {} s)

/-- R54: SEQ.HINT. -/
def hintBody (j : Job) (s : State) : Out :=
  let m := hintsOf j.w1.toNat
  if hintsObj j then succeeds 0 (s.hintObj (bits j.w0.toNat 21 1 * 2048 + bits j.w0.toNat 0 11) m j.inst.x0)
  else
    let k := seqKey j.w0.toNat
    let q := s.seq k
    let s := s.setSeq k { q with hints := q.hints.change m j.inst.x0 }
    succeeds 0 ((j.layersOf q.layers.length).foldl (fun s l => s.hintLayer j.ctx k l m j.inst.x0) s)

/-- R54: SEQ.HINT. -/
def execSeqHint (a : At) (s : State) : Host.Outcome State Fault Refusal := .next (runHob 0x13 a hintChk hintBody s)

/-! ### SEQ.QUERY (R54) -/

/-- R54: the smallest layer length. -/
def State.minLen (s : State) (k : Nat) : Nat := minOr 0 ((s.seq k).layers.map (·.length))

/-- R77, R36, R202: the check of an instruction that names one sequence and reads its tables. -/
def tablesChk (j : Job) (s : State) : Chk :=
  match s.badNamed j j.w0 with
  | some e => Chk.ofErr (some e) s
  | none => s.withTables j [seqKey j.w0.toNat] (fun s => .good {} s)

/-- R54: SEQ.QUERY. -/
def queryBody (j : Job) (s : State) : Out :=
  let k := seqKey j.w0.toNat
  succeeds (if j.allLayers then s.minLen k else (s.layer k j.layer.toNat).length) (s.walked k)

/-- R54: SEQ.QUERY. -/
def execSeqQuery (a : At) (s : State) : Host.Outcome State Fault Refusal := .next (runHob 0x14 a tablesChk queryBody s)

end Machine
end Sys2Proof
end

