-- ==== Sys2Proof/Machine/Mailbox.lean ====
section
/-! DEFINITION. The primary mailboxes (R290-R292, R296, R432): the frame of a command, the standard commands, and the vendor
commands of R291. -/

namespace Sys2Proof
namespace Machine

/-! ### The frame of a command -/

/-- An answer recorded. -/
def State.answer (s : State) (r : Resp) : State := { s with resp := r }

/-- R290: a standard command that succeeds. -/
def State.ok (s : State) (out : List Byte := []) : State := s.answer { ret := .success, out := out }

/-- R290: a standard command that is refused. -/
def State.no (s : State) (r : Ret) : State := s.answer { ret := r }

/-- R291: a vendor command completes with a status. -/
def State.say (s : State) (st : Status) (detail : Nat := 0) (out : List Byte := []) : State :=
  s.answer { ret := .success, status := st, detail := BitVec.ofNat 32 detail, out := out }

/-- R432: the part answers mailbox commands at all: powered and out of reset. -/
def State.reachable (s : State) : Bool := s.pkg.powered && s.pkg.resetHigh && !s.pkg.powerWarn && !s.gbl.powerHold

/-- R432: Mailbox Interface Ready of both heads: from 0.1 ms after reset release. -/
def State.mailboxReady (s : State) : Bool := s.reachable && (s.gbl.fwReady || decide (100000 ≤ s.now.toNat))

/-- R432: Media Status: Ready (else Not Ready). -/
def State.mediaReady (s : State) : Bool := s.gbl.fwReady

/-- R413, R429: a management restart: mailbox commands in progress are lost. -/
def State.mantelRestart (s : State) : State :=
  { s with
    drt := { s.drt with granWaits := [], loadWaits := [] }, gbl := { s.gbl with mantelAt := some s.now.toNat } }

/-- R290, R296, R429, R432: a standard command; `boot` marks those the boot ROM answers too. -/
def State.standard (s : State) (l : Ld) (boot identify : Bool) (go : State → State) : State :=
  if !s.mailboxReady then s.answer {}
  else if !s.gbl.fwReady && !boot then s.no .retryRequired
  else if s.ideMissing l.head && !identify then s.no .unsupported
  else go s

/-- R274, R291, R296, R429, R432: a vendor command: MANAGER LDs only (ST_ACCESS, log 36); while the part is HELD or stopped
nothing is enabled. -/
def State.vendor (s : State) (l : Ld) (go : State → State) (any boot : Bool := false) : State :=
  if !s.mailboxReady then s.answer {}
  else if !s.gbl.fwReady && !boot then s.no .retryRequired
  else if s.ideMissing l.head then s.say St.notEnabled
  else if !any && !(s.manager l) then s.say St.access
  else if s.gbl.held || s.gbl.warming || s.gbl.stopped then s.say St.notEnabled
  else go s

/-- R404, R519: a vendor command that names a context. -/
def State.vendorCtx (s : State) (l : Ld) (c : Nat) (go : State → State) : State :=
  s.vendor l (fun s =>
    if s.sec.lcs != .deployed then s.say St.notEnabled
    else if 4096 ≤ c || (s.ctx c).state == .free then s.say St.badOperand
    else if (s.ctx c).state == .retiring then s.say St.busy
    else go s)

/-! ### Standard commands (R290) -/

/-- R272, R290: Identify Memory Device: total, volatile and persistent capacity 0 (no static capacity); the rest is open. -/
def execIdentifyMemoryDevice (ld : Ld) (s : State) : Host.Outcome State Fault Refusal :=
  .next (s.standard ld true true (fun s =>
    s.ok ((List.range 69).map (fun i => if 16 ≤ i && i < 40 then 0 else Config.identity i))))

/-- R290: Get Supported Logs: one log, the Command Effects Log. -/
def execGetSupportedLogs (ld : Ld) (s : State) : Host.Outcome State Fault Refusal :=
  .next (s.standard ld false false (fun s =>
    s.ok (leBytes 2 1 ++ leBytes 6 0 ++ (List.range 20).map Config.effectsLog)))

/-- R290: Get Log: bytes of the Command Effects Log. -/
def execGetLog (ld : Ld) (off len : Nat) (s : State) : Host.Outcome State Fault Refusal :=
  .next (s.standard ld false false (fun s =>
    s.ok ((List.range len).map (fun i => Config.effectsLog (20 + off + i)))))

/-- R292, R428: the event-specific area of an event record: the part's own, or that of a Memory Module Event Record (event type 0,
18 bytes of device health, log 66). -/
def EvRec.area (r : EvRec) : List Byte :=
  match r.health with
  | some n => leBytes 1 0 ++ (List.range 18).map (Config.deviceHealth n) ++ leBytes 61 0
  | none =>
    leBytes 1 r.code ++ leBytes 1 r.head.num ++ leBytes 1 r.ld ++ leBytes 1 (Nat.min 255 r.folded) ++ leBytes 2 r.ctx
      ++ leBytes 2 0 ++ leBytes 8 r.dpa ++ leBytes 8 r.time.toNat ++ leBytes 56 0

/-- R292: the bytes of an event record: header, then the event-specific area. -/
def EvRec.bytes (r : EvRec) (uuid : List Byte) : List Byte :=
  uuid ++ leBytes 1 128 ++ leBytes 3 0 ++ leBytes 2 r.handle ++ leBytes 2 0 ++ leBytes 8 r.stamp.toNat ++ leBytes 16 0
    ++ r.area

/-- R292: Get Event Records: overflow flag, count and timestamps, the records (the standard's layout, log 66). -/
def execGetEventRecords (ld : Ld) (log : EvLog) (s : State) : Host.Outcome State Fault Refusal :=
  .next (s.standard ld false false (fun s =>
    let rs := (s.ld ld).log log
    let o := (s.ld ld).overflow.lookD (logNo log) (0, 0, 0)
    let u (r : EvRec) := (List.range 16).map (fun i => Config.identity (if r.health.isSome then 120 + i else 100 + i))
    s.ok (leBytes 1 (b2n (o.1 != 0)) ++ leBytes 1 0 ++ leBytes 2 (Nat.min o.1 65535) ++ leBytes 8 o.2.1.toNat ++ leBytes 8 o.2.2.toNat
      ++ leBytes 2 rs.length ++ leBytes 10 0 ++ rs.flatMap (fun r => r.bytes (u r)))))

/-- R290, R292: Clear Event Records: the records named, or all where none is named; the log's overflow goes with them (log 66). -/
def execClearEventRecords (ld : Ld) (log : EvLog) (handles : List Nat) (s : State) : Host.Outcome State Fault Refusal :=
  .next (s.standard ld false false (fun s =>
    let x := { s.ld ld with overflow := (s.ld ld).overflow.del (logNo log) }
    let l := x.log log
    if handles.isEmpty then (s.setLd ld (x.setLog log [])).ok
    else if handles.all (fun h => l.any (fun r => r.handle == h)) then
      (s.setLd ld (x.setLog log (l.filter (fun r => !(handles.contains r.handle))))).ok
    else s.no .invalidHandle))

/-- R290: Get Event Interrupt Policy. -/
def execGetEventInterruptPolicy (ld : Ld) (s : State) : Host.Outcome State Fault Refusal :=
  .next (s.standard ld false false (fun s => s.ok (leBytes 4 (s.ld ld).evPolicy.toNat)))

/-- R290: Set Event Interrupt Policy. -/
def execSetEventInterruptPolicy (ld : Ld) (policy : BitVec 32) (s : State) : Host.Outcome State Fault Refusal :=
  .next (s.standard ld false false (fun s => (s.setLd ld { s.ld ld with evPolicy := policy }).ok))

/-- R290: Get Timestamp. -/
def execGetTimestamp (ld : Ld) (s : State) : Host.Outcome State Fault Refusal :=
  .next (s.standard ld false false (fun s => s.ok (leBytes 8 ((s.ld ld).stampNow s.now.toNat).toNat)))

/-- R290: Set Timestamp. -/
def execSetTimestamp (ld : Ld) (stamp : BitVec 64) (s : State) : Host.Outcome State Fault Refusal :=
  .next (s.standard ld false false (fun s => (s.setLd ld { s.ld ld with stamp := (stamp, s.now.toNat) }).ok))

/-- R286: Get Poison List: the poisoned lines of a range, 16 bytes each after their count. -/
def execGetPoisonList (ld : Ld) (base len : Nat) (s : State) : Host.Outcome State Fault Refusal :=
  .next (s.standard ld false false (fun s =>
    if base % 64 ≠ 0 || len % 64 ≠ 0 then s.no .invalidInput
    else
      let all := s.mem.poison ++ (s.mem.dead.flatMap (fun g => (List.range 32768).map (· + 32768 * g)))
      let ls := (all.filter (fun l => base ≤ 64 * l && 64 * l < base + len)).foldl insNat []
      s.ok (leBytes 2 ls.length ++ leBytes 30 0 ++ ls.flatMap (fun l => leBytes 8 (64 * l) ++ leBytes 4 1 ++ leBytes 4 0))))

/-- R286, R275: the line that a poison command names is one the LD may reach. -/
def State.poisonable (s : State) (l : Ld) (dpa : Nat) : Bool :=
  dpa % 64 = 0 && (s.reachBad l dpa 64 true).isNone && dpa < ctxSpaceEnd

/-- R286, R424: Clear Poison: a full line written. -/
def execClearPoison (ld : Ld) (dpa : Nat) (data : List (BitVec 8)) (s : State) : Host.Outcome State Fault Refusal :=
  .next (s.standard ld false false (fun s =>
    if data.length ≠ 64 || dpa % 64 ≠ 0 then s.no .invalidInput
    else if !(s.poisonable ld dpa) then s.no .invalidPhysicalAddress
    else (s.poke dpa data).ok))

/-- R290: Inject Poison, only while debug is open. -/
def execInjectPoison (ld : Ld) (dpa : Nat) (s : State) : Host.Outcome State Fault Refusal :=
  .next (s.standard ld false false (fun s =>
    if !s.sec.debugOpen then s.no .unsupported
    else if dpa % 64 ≠ 0 then s.no .invalidInput
    else if !(s.poisonable ld dpa) then s.no .invalidPhysicalAddress
    else ({ s with mem := s.mem.poisonLine (dpa / 64) }).ok))

/-- R271, R272: a dynamic-capacity command, in CXL 3.1 mode only. -/
def State.dynamic (s : State) (l : Ld) (go : State → State) : State :=
  s.standard l false false (fun s => if (s.cxp.head.get l.head).mode = 1 then s.no .unsupported else go s)

/-- R278: a dynamic-capacity region: base and length. -/
def dcRegion (i : Nat) : Nat × Nat := if i = 0 then (0, ctxSpaceEnd) else (ctxSpaceEnd, ctxSpaceEnd)

/-- R278: the bytes that report a region. -/
def dcRegionBytes (i block : Nat) : List Byte :=
  let r := dcRegion i
  leBytes 8 r.1 ++ leBytes 8 (r.2 / hdmBlock) ++ leBytes 8 r.2 ++ leBytes 8 block ++ leBytes 8 0
where
  /-- R276: 256 MiB. -/
  hdmBlock : Nat := 268435456

/-- R278: Get Dynamic Capacity Configuration: the two regions. -/
def execGetDcConfiguration (ld : Ld) (s : State) : Host.Outcome State Fault Refusal :=
  .next (s.dynamic ld (fun s =>
    let b := (s.cxp.head.get ld.head).dcBlock
    s.ok (leBytes 1 2 ++ leBytes 1 2 ++ leBytes 6 0 ++ dcRegionBytes 0 b ++ dcRegionBytes 1 b)))

/-- R278: the bytes that report an extent. -/
def Extent.bytes (e : Extent) : List Byte := leBytes 8 e.base ++ leBytes 8 e.len ++ leBytes 24 0

/-- R278: Get Dynamic Capacity Extent List. -/
def execGetDcExtentList (ld : Ld) (start count : Nat) (s : State) : Host.Outcome State Fault Refusal :=
  .next (s.dynamic ld (fun s =>
    let es := (s.ld ld).extents
    let part := (es.drop start).take count
    s.ok (leBytes 4 part.length ++ leBytes 4 es.length ++ leBytes 8 0 ++ part.flatMap Extent.bytes)))

/-- R278: extents an LD may hold. -/
def maxExtents : Nat := 1024

/-- R278, R281: a range lies whole in one shared region. -/
def State.wholeShared (s : State) (a n : Nat) : Bool :=
  s.cxp.shared.vals.any (fun r => decide (r.base * granule ≤ a) && decide (a + n ≤ (r.base + r.granules) * granule))

/-- R278: extents that LDs hold, with the LD. -/
def State.heldExtents (s : State) : List (Ld × Nat × Nat) :=
  allLds.flatMap (fun l => (s.ld l).extents.map (fun e => (l, e.base, e.len)))

/-- R278: outside a shared region, an extent of another LD overlaps a range. -/
def State.heldElsewhere (s : State) (l : Ld) (e : Nat × Nat) : Bool :=
  !(s.wholeShared e.1 e.2) && s.heldExtents.any (fun x => x.1 != l && decide (e.1 < x.2.1 + x.2.2) && decide (x.2.1 < e.1 + e.2))

/-- R278: Add Dynamic Capacity Response: the extents offered that the host accepts; none that another LD holds by now. -/
def execAddDcResponse (ld : Ld) (accepted : List (Nat × Nat)) (s : State) : Host.Outcome State Fault Refusal :=
  .next (s.dynamic ld (fun s =>
    let x := s.ld ld
    if !(accepted.all (fun e => x.offered.contains e)) || accepted.any (s.heldElsewhere ld) then s.no .invalidExtentList
    else if maxExtents < x.extents.length + accepted.length then s.no .resourcesExhausted
    else (s.setLd ld { x with
      extents := x.extents ++ accepted.map (fun e => { base := e.1, len := e.2 }), offered := [] }).ok))

/-- R279, R280: requests of an LD to n bytes from a on are in flight. -/
def State.inflight (s : State) (l : Ld) (a n : Nat) : Bool :=
  let meets (b m : Nat) : Bool := decide (a < b + m) && decide (b < a + n)
  s.cxp.reqs.any (fun r => r.ld == l && meets r.dpa r.len) || s.drt.hostWaits.any (fun w => w.ld == l && meets w.dpa w.len)

/-- R279, R280: an extent may leave its LD: no request to it is in flight, and no line of it is held by the LD's host. -/
def State.mayLeave (s : State) (l : Ld) (e : Extent) : Bool :=
  (s.heldBy l.head (BitVec.ofNat 16 (2 ^ l.id)) e.base e.len).isEmpty && !(s.inflight l e.base e.len)

/-- R279, R280: an extent leaves its LD and the command completes; after a forced removal the host receives the release event. -/
def State.leaveLd (s : State) (l : Ld) (base : Nat) (forced : Bool) : State :=
  let x := s.ld l
  let s := s.setLd l { x with extents := x.extents.filter (fun y => y.base != base) }
  (if forced then s.postEvent l .info { code := 131, head := l.head, ld := l.id, dpa := base } else s).ok

/-- R279, R280: an extent starts to leave its LD: at once where it may, else once its requests have completed and its lines are
resolved. -/
def State.closeExtent (s : State) (l : Ld) (base : Nat) (forced : Bool) : State :=
  let x := s.ld l
  match x.extents.find? (fun e => e.base == base) with
  | none => s.no .invalidExtentList
  | some e =>
    if s.mayLeave l e then s.leaveLd l base forced
    else
      let me := BitVec.ofNat 16 (2 ^ l.id)
      let s := s.setLd l { x with
        extents := x.extents.map (fun y => if y.base == base then { y with closing := true, forced := forced, dropped := false } else y) }
      (s.recall l.head (s.heldBy l.head me e.base e.len) me forced).answer {}

/-- R279: Release Dynamic Capacity. -/
def execReleaseDynamicCapacity (ld : Ld) (base len : Nat) (s : State) : Host.Outcome State Fault Refusal :=
  .next (s.dynamic ld (fun s =>
    if (s.ld ld).extents.any (fun e => e.base == base && e.len == len && !e.closing) then s.closeExtent ld base false
    else s.no .invalidExtentList))

/-- R291: a percentage. -/
def percent (done all : Nat) : Nat := if all = 0 then 100 else 100 * done / all

/-- R291: Background Operation Status: running, opcode, percent, then status, DETAIL and RESULT of an operation that ended. -/
def execBackgroundOperationStatus (ld : Ld) (s : State) : Host.Outcome State Fault Refusal :=
  .next (s.standard ld false false (fun s =>
    let x := s.ld ld
    match x.bgRun, x.bgLast with
    | some r, _ => s.ok (leBytes 2 (0xC008 + (r.op.op - 0x70)) ++ leBytes 1 1 ++ leBytes 1 (percent (64 * r.done) r.op.len))
    | none, some (op, pc, st, d, v) =>
      s.ok (leBytes 2 (0xC008 + (op - 0x70)) ++ leBytes 1 0 ++ leBytes 1 pc ++ [st, 0, 0, 0] ++ leBytes 4 d ++ leBytes 8 v.toNat)
    | none, none => s.ok (leBytes 4 0)))

/-! ### Pool commands (R291) -/

/-- R58, R291: RESULT of a running operation so far. -/
def PoolRun.result (r : PoolRun) : Nat :=
  if r.op.op = 0x72 then
    match r.diff, r.poison with
    | some i, _ => i
    | none, some l => 64 * l
    | none, none => 0xFFFFFFFFFFFFFFFF
  else 64 * r.done

/-- R291: a background operation ends with a status. -/
def LdState.bgEnd (x : LdState) (r : PoolRun) (st : Status) (detail : Nat) : LdState := { x with
  bgRun := none, bgLast := some (r.op.op, percent (64 * r.done) r.op.len, st, detail, BitVec.ofNat 64 r.result) }

/-- R291: Request Abort Background Operation: a pool command stops at this granule boundary. -/
def execRequestAbortBackgroundOp (ld : Ld) (s : State) : Host.Outcome State Fault Refusal :=
  .next (s.standard ld false false (fun s =>
    let x := s.ld ld
    match x.bgRun with
    | some r => (s.setLd ld (x.bgEnd r St.cancelled 0)).ok
    | none => s.ok))

/-- R291, R382: a pool command starts, or is refused; a MAC failure is counted. -/
def State.startPool (s : State) (l : Ld) (c op : Nat) (w0 w1 w2 : BitVec 64) : State :=
  s.vendorCtx l c (fun s =>
    let o := PoolOp.of op w0 w1 w2
    let x := s.ld l
    if !s.cxp.poolEn then s.say St.notEnabled
    else if x.bgRun.isSome then s.no .busy
    else
      match firstBad [s.badPool c o, s.poolErr o] with
      | some e => (s.countFailure e.1).say e.1 e.2
      | none => (s.setLd l { x with bgRun := some { ctx := c, op := o } }).no .backgroundStarted)

/-- R291: Pool Fill. -/
def execPoolFillCommand (ld : Ld) (ctx : Nat) (w0 w1 w2 : BitVec 64) (s : State) : Host.Outcome State Fault Refusal :=
  .next (s.startPool ld ctx 0x70 w0 w1 w2)
/-- R291: Pool Copy. -/
def execPoolCopyCommand (ld : Ld) (ctx : Nat) (w0 w1 w2 : BitVec 64) (s : State) : Host.Outcome State Fault Refusal :=
  .next (s.startPool ld ctx 0x71 w0 w1 w2)
/-- R291: Pool Compare. -/
def execPoolCompareCommand (ld : Ld) (ctx : Nat) (w0 w1 w2 : BitVec 64) (s : State) : Host.Outcome State Fault Refusal :=
  .next (s.startPool ld ctx 0x72 w0 w1 w2)
/-- R291: Pool Reduce. -/
def execPoolReduceCommand (ld : Ld) (ctx : Nat) (w0 w1 w2 : BitVec 64) (s : State) : Host.Outcome State Fault Refusal :=
  .next (s.startPool ld ctx 0x73 w0 w1 w2)

/-- R491: the pool ALUs of a die on which the next piece of a pool command lies pause. -/
def State.poolPaused (s : State) (o : PoolOp) (first : Nat) : Bool :=
  [o.dst, o.src].any (fun a => match s.mem.granules.look ((a + 64 * first) / granule) with
    | some g => (s.pkg.thermalPause.get g.2.1).isSome
    | none => false)

/-- R287, R291: the next granule piece of an LD's running pool command, unless snoops hold it (R283) or a die pauses (R491). -/
def State.poolPiece (s : State) (l : Ld) : State :=
  let x := s.ld l
  match x.bgRun with
  | none => s
  | some r =>
    if s.poolPaused r.op r.done then s
    else match s.poolSnoops r.op r.done with
    | k :: ks => s.sendSnoops (k :: ks)
    | [] =>
      let n := r.op.pieceLines r.done
      let p := (s.poolPoison r.op r.done n)
      let upTo := (p.map (64 * ·)).getD (64 * (r.done + n))
      let diff := if r.op.op = 0x72 && r.diff.isNone && r.poison.isNone then
          ((List.range (upTo - 64 * r.done)).map (· + 64 * r.done)).find? (fun i =>
            s.mem.byte (r.op.dst + i) != s.mem.byte (r.op.src + i))
        else r.diff
      let s := (s.poolLines r.op r.done n).count 0x03400130 (if r.op.op = 0x72 then 0 else 64 * n)
      let s := s.ctxEvent r.ctx 4 0 noFilter noFilter noFilter (r.op.moves (64 * n))
      let r := { r with done := r.done + n, poison := r.poison.or p, diff := diff }
      let d : Done := match r.poison with
        | some l => { status := St.poison, detail := l }
        | none => {}
      let d := if r.op.op = 0x72 then d else s.stored r.op.dst r.op.len d
      s.setLd l (if r.op.len ≤ 64 * r.done then x.bgEnd r d.status d.detail else { x with bgRun := some r })

/-- R287, R291: every running pool command goes on by one piece (a tick of the idle block, log 2). -/
def State.poolTick (s : State) : State :=
  (allLds.filter (fun l => (s.ld l).bgRun.isSome)).foldl State.poolPiece s

/-! ### Profiles and images (R48, R64-R66) -/

/-- R64: the profile that a 64-byte record describes. -/
def profileOf (b : List Byte) : Profile :=
  let f (o n : Nat) : Nat := ofBytes ((b.drop o).take n)
  let fmt (n : Nat) : Fmt := match n with
    | 0 => .kvb16
    | 1 => .kvi8
    | _ => .kvi4
  { id := f 0 4, layers := f 4 2, qheads := f 6 2, kvheads := f 8 1, hdim32 := f 9 1, kfmt := fmt (f 10 1), vfmt := fmt (f 11 1)
    window := f 12 4, rope := bitOf (f 16 4) 0, keepAll := bitOf (f 16 4) 1 }

/-- R3, R64: the record has a field outside its range; reserved bits are ignored. -/
def profileBad (b : List Byte) : Bool :=
  let f (o n : Nat) : Nat := ofBytes ((b.drop o).take n)
  let out (x lo hi : Nat) : Bool := decide (x < lo) || decide (hi < x)
  f 0 4 = 0 || out (f 4 2) 1 1024 || out (f 6 2) 1 256 || out (f 8 1) 1 64 || out (f 9 1) 1 8 || 2 < f 10 1 || 2 < f 11 1
    || (f 12 4 ≠ 0 && (out (f 12 4) 16 65536 || f 12 4 % 16 ≠ 0)) || f 20 1 ≠ 0 || f 6 2 % Nat.max (f 8 1) 1 ≠ 0

/-- R3, R64, R65: Register Profile; in the record that the part returns the reserved fields are zero. -/
def State.addProfile (s : State) (b : List Byte) : State :=
  let p := profileOf b
  let i := s.profiles.lowFree
  if profileBad b || 128 < p.frameSize || s.profiles.vals.any (fun q => q.id == p.id) || 256 ≤ i then s.say St.badOperand
  else
    ({ s with profiles := s.profiles.put i { p with frameKib := p.frameSize } }).say St.ok 0
      (b.take 16 ++ leBytes 4 (b2n p.rope + 2 * b2n p.keepAll) ++ [BitVec.ofNat 8 p.frameSize] ++ leBytes 43 0)

/-- R64, R291: Register Profile. -/
def execRegisterProfile (ld : Ld) (record : List (BitVec 8)) (s : State) : Host.Outcome State Fault Refusal :=
  .next (s.vendor ld (fun s => if record.length ≠ 64 then s.no .invalidInput else s.addProfile record))

/-- R66: something refers to the profile of a slot. -/
def State.profileUsed (s : State) (slot : Nat) : Bool :=
  s.seqs.vals.any (fun q => q.state != .free && q.pslot == slot) || s.pages.vals.any (fun p => p.pslot == slot)
    || s.wobjs.vals.any (fun w => w.live && w.pslot == slot)

/-- R66: Deregister Profile. -/
def execDeregisterProfile (ld : Ld) (profileId : Nat) (s : State) : Host.Outcome State Fault Refusal :=
  .next (s.vendor ld (fun s =>
    match s.profileSlot profileId with
    | none => s.say St.badOperand
    | some i => if s.profileUsed i then s.say St.busy else ({ s with profiles := s.profiles.del i }).say St.ok))

/-- R48: steps of all registered images. -/
def State.storedSteps (s : State) : Nat := (s.images.vals.map (fun m => m.steps.length)).foldl (· + ·) 0

/-- R48: steps that the program store of 16 MiB holds, 32 bytes each. -/
def storeSteps : Nat := 524288

/-- R37, R48, R283, R382: Register Image, to be given again while a host owns a line of the steps: up to 4,096 steps, 32 bytes each, lie in the context's space (log 125). -/
def execRegisterImage (ld : Ld) (ctx steps src : Nat) (s : State) : Host.Outcome State Fault Refusal :=
  .next (s.vendorCtx ld ctx (fun s =>
    let i := s.images.lowFree
    match firstBad [badIf (4096 < steps) St.badOperand 0, s.rngUp ctx src (32 * steps) 0, s.mem.readErr src (32 * steps)] with
    | some e => (s.countFailure e.1).say e.1 e.2
    | none =>
      if 1024 ≤ i || storeSteps < s.storedSteps + steps then s.say St.noSpace
      else if !(s.heldLines src (32 * steps) false).isEmpty then
        (s.sendSnoops (s.heldLines src (32 * steps) false)).no .retryRequired
      else
        let ws := (List.range steps).map (fun k => BitVec.ofNat 256 (ofBytes (s.peek (src + 32 * k) 32)))
        ({ s with images := s.images.put i { ctx := ctx, steps := ws } }).say St.ok 0 (leBytes 2 i)))

/-- R48: a call to an image is in progress. -/
def State.imageCalled (s : State) (i : Nat) : Bool := s.rings.vals.any (fun g => g.calls.any (fun f => f.image == i))

/-- R48: Deregister Image. -/
def execDeregisterImage (ld : Ld) (image : Nat) (s : State) : Host.Outcome State Fault Refusal :=
  .next (s.vendor ld (fun s =>
    if !(s.images.has image) then s.say St.image image
    else if s.imageCalled image then s.say St.busy
    else ({ s with images := s.images.del image }).say St.ok))

/-! ### Context space (R190, R291) -/

/-- R190, R195, R209: n granules of a die taken from its page space for a context, from granule g on, one at a time; all of them or
none. -/
def State.takeGranules : Nat → Nat → Nat → Side → State → Plan
  | 0, _, _, _, s => .ready s
  | n + 1, g, c, d, s =>
    match s.allocFrame d (s.widest d) 2048 none [] with
    | .noSpace => .noSpace
    | .waits => .waits d n
    | .got f s =>
      let e := (s.ctx c).present
      let blk := if e = 0 then s.mem.blkEpoch else (List.range 32).foldl (fun t i => t.put (32 * g + i) e) s.mem.blkEpoch
      State.takeGranules n (g + 1) c d { s with mem := { s.mem with
        granules := s.mem.granules.put g (c, d, f), blkEpoch := blk } }

/-- R209, R291: an Allocate Context Space is carried out, is refused, or waits for a demotion without an answer (log 126). -/
def State.grantSpace (s : State) (w : GranWait) : State :=
  match State.takeGranules w.granules w.first w.ctx w.die s with
  | .ready t => t.say St.ok
  | .noSpace => s.say St.noSpace
  | .waits d n =>
    let s := s.allocWaits d (w.left.any (· ≤ n))
    { s with drt := { s.drt with granWaits := s.drt.granWaits ++ [{ w with left := some n }] } }.answer {}

/-- R291: granules of a range are allocated already. -/
def State.granulesTaken (s : State) (g n : Nat) : Bool := s.mem.granules.any (fun p => g ≤ p.1 && p.1 < g + n)

/-- R190, R291: Allocate Context Space. -/
def execAllocateContextSpace (ld : Ld) (ctx die granules addr : Nat) (s : State) : Host.Outcome State Fault Refusal :=
  .next (s.vendorCtx ld ctx (fun s =>
    let g := addr / granule
    if addr % granule ≠ 0 || 1 < die || ctxSpaceEnd < addr + granules * granule then s.say St.badOperand
    else if s.granulesTaken g granules then s.say St.badOperand
    else s.grantSpace { ld := ld, ctx := ctx, die := sideOf die, granules := granules, first := g }))

/-- R291, R402: granule g of a context goes back, zero-filled: its bytes, its poison and its marks are gone. -/
def State.dropGranule (s : State) (g : Nat) : State :=
  match s.mem.granules.look g with
  | none => s
  | some (_, d, f) =>
    let s := s.freeFrame d (some f)
    let line (l : Nat) : Bool := 64 * l / granule != g
    { s with mem := { s.mem.countWrites (f.places d) with
      cells := s.mem.cells.filter (fun c => c.1 / granule != g), granules := s.mem.granules.del g
      poison := s.mem.poison.filter line, dead := s.mem.dead.filter (· != g), badMac := s.mem.badMac.filter line
      uncorrectable := s.mem.uncorrectable.filter line, blkEpoch := s.mem.blkEpoch.keep (fun b _ => b / 32 != g) } }

/-- R291: what keeps a range of granules from being released: a ring, a completion ring, a remote-key region, a shared
region. -/
def State.rangeBusy (s : State) (a n : Nat) : Bool :=
  let meets (b m : Nat) : Bool := decide (a < b + m) && decide (b < a + n)
  s.rings.vals.any (fun r => (r.en && meets r.base.toNat (32 * r.size.toNat))
      || ((r.en || r.draining || r.cidx != r.aidx) && meets r.cqBase.toNat (32 * r.cqSize.toNat)))
    || s.flu.keys.vals.any (fun k => meets k.base k.len)
    || s.cxp.shared.vals.any (fun r => meets (r.base * granule) (r.granules * granule))

/-- R291: Release Context Space. -/
def execReleaseContextSpace (ld : Ld) (ctx granules addr : Nat) (s : State) : Host.Outcome State Fault Refusal :=
  .next (s.vendorCtx ld ctx (fun s =>
    let n := granules * granule
    if addr % granule ≠ 0 || ctxSpaceEnd < addr + n || !(s.owns ctx addr n) then s.say St.badOperand
    else if s.rangeBusy addr n then s.say St.busy
    else (((List.range granules).map (· + addr / granule)).foldl State.dropGranule s).say St.ok))

/-- R46, R291: Set Event. -/
def execSetEvent (ld : Ld) (ctx event op : Nat) (value : BitVec 64) (s : State) : Host.Outcome State Fault Refusal :=
  .next (s.vendorCtx ld ctx (fun s =>
    if 16384 ≤ event || 1 < op then s.say St.badOperand
    else
      let s := (s.signal ctx event value (op = 1)).markFree
      s.say St.ok 0 (leBytes 8 (s.event ctx event).toNat)))

end Machine
end Sys2Proof
end

