-- ==== Sys2Proof/Machine/Fm.lean ====
section
/-! DEFINITION. The fabric-manager endpoint (R278-R281, R285, R293): standard queries, dynamic capacity, bindings, shared
regions, hosts that are down, privileges. -/

namespace Sys2Proof
namespace Machine

/-- R293: an FM command on a head's FM-owned LD: served once the firmware runs and the head's link is up. -/
def State.fm (s : State) (h : Side) (go : State → State) : State :=
  if !s.reachable || !(s.cxp.head.get h).up then s.answer {}
  else if !s.gbl.fwReady then s.no .retryRequired
  else if s.gbl.held || s.gbl.warming || s.gbl.stopped then s.no .retryRequired
  else go s

/-- R271, R293: an FM command of dynamic capacity or shared regions, in CXL 3.1 mode only. -/
def State.fmDynamic (s : State) (h : Side) (go : State → State) : State :=
  s.fm h (fun s => if (s.cxp.head.get h).mode = 1 then s.no .unsupported else go s)

/-- R293: n bytes of the answer to query k that the spec does not give. -/
def fmOpen (k n : Nat) : List Byte := (List.range n).map (Config.fmBytes k)

/-- R272, R293: Get LD Info: memory size, LD count 16, QoS telemetry. -/
def execGetLdInfo (head : Side) (s : State) : Host.Outcome State Fault Refusal :=
  .next (s.fm head (fun s => s.ok (fmOpen 0 8 ++ leBytes 2 16 ++ fmOpen 1 1)))

/-- R272, R293: Get LD Allocations: sixteen LDs without static capacity. -/
def execGetLdAllocations (head : Side) (s : State) : Host.Outcome State Fault Refusal :=
  .next (s.fm head (fun s => s.ok (leBytes 1 16 ++ fmOpen 2 3 ++ leBytes 256 0)))

/-- R293: the QoS commands: control, allocated bandwidth and bandwidth limit are kept as set; the status is open. -/
def State.qosCmd (s : State) (h : Side) : Qos → State
  | .getControl => s.ok (leBytes 8 ((s.cxp.head.get h).qos.lookD 0 0).toNat)
  | .setControl v => (s.setHead h { s.cxp.head.get h with qos := (s.cxp.head.get h).qos.put 0 v }).ok
  | .getStatus => s.ok (fmOpen 3 1)
  | .getAllocated => s.ok (leBytes 8 ((s.cxp.head.get h).qos.lookD 1 0).toNat)
  | .setAllocated v => (s.setHead h { s.cxp.head.get h with qos := (s.cxp.head.get h).qos.put 1 v }).ok
  | .getLimit => s.ok (leBytes 8 ((s.cxp.head.get h).qos.lookD 2 0).toNat)
  | .setLimit v => (s.setHead h { s.cxp.head.get h with qos := (s.cxp.head.get h).qos.put 2 v }).ok

/-- R293: the QoS commands. -/
def execQosCommands (head : Side) (cmd : Qos) (s : State) : Host.Outcome State Fault Refusal :=
  .next (s.fm head (fun s => s.qosCmd head cmd))

/-- R272, R293: Get Multi-Headed Info: sixteen LDs per head, two heads. -/
def execGetMultiHeadedInfo (head : Side) (s : State) : Host.Outcome State Fault Refusal :=
  .next (s.fm head (fun s => s.ok (leBytes 1 16 ++ leBytes 1 2 ++ fmOpen 4 6)))

/-- R278, R293: Get DCD Info: sixteen hosts, two regions of 2 MiB blocks; the rest is open. -/
def execGetDcdInfo (head : Side) (s : State) : Host.Outcome State Fault Refusal :=
  .next (s.fmDynamic head (fun s => s.ok (leBytes 1 16 ++ leBytes 1 2 ++ fmOpen 5 14 ++ leBytes 8 (s.cxp.head.get head).dcBlock)))

/-- R278, R293: Get Host DC Region Configuration. -/
def execGetHostDcRegionConfig (head : Side) (host : Nat) (s : State) : Host.Outcome State Fault Refusal :=
  .next (s.fmDynamic head (fun s =>
    if 16 ≤ host then s.no .invalidInput
    else
      let b := (s.cxp.head.get head).dcBlock
      s.ok (leBytes 2 host ++ leBytes 1 2 ++ leBytes 1 2 ++ dcRegionBytes 0 b ++ dcRegionBytes 1 b)))

/-- R278: Set DC Region Configuration refuses any block size but 2 MiB. -/
def execSetDcRegionConfiguration (head : Side) (region blockSize : Nat) (s : State) : Host.Outcome State Fault Refusal :=
  .next (s.fmDynamic head (fun s =>
    if 1 < region || blockSize ≠ granule then s.no .invalidInput
    else (s.setHead head { s.cxp.head.get head with dcBlock := blockSize }).ok))

/-- R278, R293: Get DC Region Extent Lists. -/
def execGetDcRegionExtentLists (head : Side) (host : Nat) (s : State) : Host.Outcome State Fault Refusal :=
  .next (s.fmDynamic head (fun s =>
    if 16 ≤ host then s.no .invalidInput
    else
      let es := (s.ld { head := head, id := host }).extents
      s.ok (leBytes 2 host ++ leBytes 2 0 ++ leBytes 4 es.length ++ es.flatMap Extent.bytes)))

/-- R278: extents and offers of every LD. -/
def State.allExtents (s : State) : List (Nat × Nat) :=
  allLds.flatMap (fun l => (s.ld l).extents.map (fun e => (e.base, e.len)) ++ (s.ld l).offered)

/-- R278: Initiate Dynamic Capacity Add: an extent is offered unless it overlaps one held elsewhere outside a shared
region. -/
def State.offer (s : State) (l : Ld) (a n : Nat) : State :=
  let x := s.ld l
  let own := x.extents.map (fun e => (e.base, e.len)) ++ x.offered
  let meets (e : Nat × Nat) : Bool := decide (a < e.1 + e.2) && decide (e.1 < a + n)
  if 16 ≤ l.id || n = 0 || a % granule ≠ 0 || n % granule ≠ 0 || dpaEnd < a + n then s.no .invalidInput
  else if own.any meets || (!(s.wholeShared a n) && s.allExtents.any meets) then s.no .invalidExtentList
  else (s.setLd l { x with offered := x.offered ++ [(a, n)] }).ok

/-- R278: Initiate Dynamic Capacity Add. -/
def execInitiateDcAdd (head : Side) (ld base len : Nat) (s : State) : Host.Outcome State Fault Refusal :=
  .next (s.fmDynamic head (fun s => s.offer { head := head, id := ld } base len))

/-- R280: Initiate Dynamic Capacity Release: forced, the extent closes at once; otherwise the host is asked to release it
(log 37). -/
def execInitiateDcRelease (head : Side) (ld base len : Nat) (forced : Bool) (s : State) :
    Host.Outcome State Fault Refusal :=
  .next (s.fmDynamic head (fun s =>
    let l : Ld := { head := head, id := ld }
    if !((s.ld l).extents.any (fun e => e.base == base && e.len == len)) then s.no .invalidExtentList
    else if forced then s.closeExtent l base true
    else (s.postEvent l .info { code := 131, head := head, ld := ld, dpa := base }).ok))

/-- R279, R280: EXTENT_REMOVAL_DONE: no request to a closing extent is in flight and no line of it is held any more: it leaves the LD's
list. -/
def State.removalDone (s : State) (l : Ld) (base : Nat) : State :=
  match (s.ld l).extents.find? (fun e => e.base == base && e.closing) with
  | none => s
  | some e =>
    if s.mayLeave l e then s.silently e.dropped (fun s => s.leaveLd l base e.forced) else s

/-- R280: EXTENT_REMOVAL_DONE. -/
def execExtentRemovalDone (ld : Ld) (base : Nat) (s : State) : Host.Outcome State Fault Refusal :=
  .next (s.removalDone ld base)

/-- R275, R280: Bind Context: it completes once no request to the context of an LD that it removes is in flight. -/
def State.bindContext (s : State) (head : Side) (c : Nat) (word : BitVec 32) : State :=
  let gone := (s.ctx c).bind &&& ~~~ word
  let s := s.setCtx c { s.ctx c with bind := word }
  if s.inflightTo c gone then { s with cxp := { s.cxp with bindWaits := s.cxp.bindWaits ++ [(c, gone, some head)] } }.answer {} else s.ok

/-- R275: Bind Context. -/
def execBindContext (head : Side) (ctx : Nat) (word : BitVec 32) (s : State) : Host.Outcome State Fault Refusal :=
  .next (s.fm head (fun s => if 4096 ≤ ctx then s.no .invalidInput else s.bindContext head ctx word))

/-- R285: what Host Down makes of one filter entry. -/
def State.downEntry (s : State) (head : Side) (lds : BitVec 16) (e : SfEntry) : State :=
  let h := s.cxp.head.get head
  if (e.holders &&& lds) = 0 then s
  else if !e.owned then
    s.setHead head (h.keepEntry (e.answered lds))
  else
    match e.snoopAt with
    | none => s.poisonHeld head e.line
    | some t =>
      if t + 1000 * s.cxp.biTimeoutUs ≤ s.now.toNat then s.poisonHeld head e.line
      else s.setHead head { h with sf := h.sf.map (fun x => if x.line == e.line then { x with down := true } else x) }

/-- R285: Host Down. -/
def execHostDown (head : Side) (lds : BitVec 16) (s : State) : Host.Outcome State Fault Refusal :=
  .next (s.fm head (fun s =>
    ((s.cxp.head.get head).sf.foldl (fun s e => s.downEntry head lds e) s).linesResolved.ok))

/-- R281: Define Shared Region. -/
def State.defineShared (s : State) (h : Side) (base n : Nat) : State :=
  let i := s.cxp.shared.lowFree
  let g := base / granule
  let owner := s.granuleCtx g
  let meets (e : Nat × Nat) : Bool := decide (base < e.1 + e.2) && decide (e.1 < base + n * granule)
  if n = 0 || 32768 < n || base % granule ≠ 0 || ctxSpaceEnd < base + n * granule || 16 ≤ i then s.no .invalidInput
  else if (s.cxp.head.get h).mode ≠ 2 then s.no .unsupported
  else if !(match owner with
      | some c => s.owns c base (n * granule)
      | none => false) then s.no .invalidInput
  else if s.heldExtents.any (fun e => meets e.2) || s.cxp.shared.vals.any (fun r => meets (r.base * granule, r.granules * granule)) then
    s.no .busy
  else { s with cxp := { s.cxp with shared := s.cxp.shared.put i { base := g, granules := n } } }.ok (leBytes 1 i)

/-- R281: Define Shared Region. -/
def execDefineSharedRegion (head : Side) (base granules : Nat) (s : State) : Host.Outcome State Fault Refusal :=
  .next (s.fm head (fun s => s.defineShared head base granules))

/-- R281: the held lines of a shared region are recalled; it is gone once none is held. `asked`: a command of that head waits for it. -/
def State.deleteShared (s : State) (i : Nat) (asked : Option Side) : State :=
  match s.cxp.shared.look i with
  | none => s
  | some r =>
    let mark (j : Nat) (x : Shared) : Shared := if j = i then { x with deleting := true, asked := asked.or x.asked } else x
    let s := { s with cxp := { s.cxp with shared := s.cxp.shared.mapVals mark } }
    let ls := (s.tracked.map (·.1)).filter (fun l => r.base ≤ 64 * l / granule && 64 * l / granule < r.base + r.granules)
    (s.sendSnoops (ls.foldl insNat [])).endDeleting

/-- R281: Delete Shared Region: it completes once no line of the region is held. -/
def execDeleteSharedRegion (head : Side) (index : Nat) (s : State) : Host.Outcome State Fault Refusal :=
  .next (s.fm head (fun s => if s.cxp.shared.has index then (s.answer {}).deleteShared index (some head) else s.no .invalidInput))

/-- R274, R503: Set LD Privilege. -/
def execSetLdPrivilege (head : Side) (ld : Nat) (grant : Bool) (s : State) : Host.Outcome State Fault Refusal :=
  .next (s.fm head (fun s =>
    if 16 ≤ ld then s.no .invalidInput
    else
      let l : Ld := { head := head, id := ld }
      let s := s.setHead head { s.cxp.head.get head with privSet := true }
      (s.setLd l { s.ld l with manager := grant }).ok))

end Machine
end Sys2Proof
end

