-- ==== Sys2Proof/Machine/Rings.lean ====
section
/-! DEFINITION. Rings: doorbells, acceptance, posting of completions, issue windows (R25-R31, R60-R62, R440, R512-R518). -/

namespace Sys2Proof
namespace Machine

/-- R28, R518: a doorbell write is ignored: it is counted and DB_ERR is set. -/
def State.dbIgnored (s : State) (n : Nat) : State :=
  (s.setRing n { s.ring n with dbErr := true }).count 0x38

/-- R26, R29: PI moves to p: the entries of each earlier doorbell write that p still covers, then those up to p. -/
def Ring.movePi (g : Ring) (p : BitVec 32) : Ring :=
  if p = g.pi then g
  else
    { g with
      pi := p
      marks := g.marks.filter (fun m => (m - g.aidx).toNat < (p - g.aidx).toNat) ++ (if p = g.aidx then [] else [p]) }

/-- R62: the completion ring is full. -/
def Ring.cqFull (g : Ring) : Bool := decide (g.cqSize.toNat ≤ (g.cqPi - g.cqCi).toNat)

/-- R62, R444: the ring takes note when its completion ring becomes full, and when it has room again. -/
def Ring.noteRoom (g : Ring) (now : Nat) : Ring :=
  match g.cqFull, g.cqFullAt with
  | true, none => { g with cqFullAt := some now }
  | false, some _ => { g with cqFullNs := g.fullNs now, cqFullAt := none }
  | _, _ => g

/-- R28, R517, R518: a write of `size` bytes at offset `off` of BAR2. While EN is 0 and DRAINING is 1 a write that leaves PI as
it is takes CQ_CI, and any other is one to a disabled ring (log 24). A CQ_CI more than RING_CQ_SIZE behind CQ_PI is taken as
ahead of it (log 113). -/
def State.doorbell (s : State) (ld : Ld) (off size : Nat) (v : BitVec 64) : State :=
  let n := off / 8
  let g := s.ring n
  let p := v.setWidth 32
  let ci : BitVec 32 := (v >>> 32).setWidth 32
  if 65536 ≤ n then s
  else if !(s.manager ld || s.bound ld g.ctx.toNat) then s.dbIgnored n
  else if size ≠ 8 || off % 8 ≠ 0 then s.dbIgnored n
  else if !(s.gbl.fwReady && !s.gbl.held && !s.gbl.warming && (g.en || g.draining)) then s.dbIgnored n
  else if g.cqSize.toNat < (g.cqPi - ci).toNat then s.dbIgnored n
  else if !g.en then (if p = g.pi then s.setRing n (({ g with cqCi := ci }).noteRoom s.now.toNat) else s.dbIgnored n)
  else if g.size.toNat < (p - g.aidx).toNat then s.dbIgnored n
  else s.setRing n (({ g.movePi p with cqCi := ci }).noteRoom s.now.toNat)

/-- R28: DOORBELL_WRITE. -/
def execDoorbellWrite (ld : Ld) (off size : Nat) (value : BitVec 64) (s : State) : Host.Outcome State Fault Refusal :=
  .next (s.doorbell ld off size value)

/-! ### Acceptance -/

/-- R407: slots of a journal copy. -/
def journalSlots : Nat := 524288

/-- R408, R422: the lowest free slot from k on, of those no lost bank holds. The first argument bounds the banks. -/
def freeSlot : Nat → List Nat → List Nat → Nat → Option Nat
  | 0, _, _, _ => none
  | f + 1, used, lost, k =>
    let x := lowestFree used k
    if journalSlots ≤ x then none
    else if lost.contains (x / 16384) then freeSlot f used lost ((x / 16384 + 1) * 16384)
    else some x

/-- R408: slots for k entries of a ring of class c: classes 0 to 3 may use every slot, others those from 32,768 on. -/
def freeSlots : Nat → Nat → List Nat → List Nat → Option (List Nat)
  | 0, _, _, _ => some []
  | k + 1, c, used, lost =>
    match freeSlot 33 used lost (if c < 4 then 0 else 32768) with
    | none => none
    | some x => (freeSlots k c (insNat used x) lost).map (x :: ·)

/-- R27: the address of ring entry i. -/
def Ring.entryAt (g : Ring) (i : BitVec 32) : Nat := g.base.toNat + 32 * (i.toNat % Nat.max g.size.toNat 1)

/-- R283: the lines of the next k entries of a ring that a host owns. -/
def State.ownedEntries (s : State) (g : Ring) (k : Nat) : List Nat :=
  ((List.range k).flatMap (fun t => s.heldLines (g.entryAt (g.aidx + BitVec.ofNat 32 t)) 32 false)).foldl insNat []

/-- R27, R33: the 32 bytes of ring entry i; a slot that reads as poison gives a word whose opcode no table lists
(log 26). -/
def State.readEntry (s : State) (g : Ring) (i : BitVec 32) : BitVec 256 :=
  let a := g.entryAt i
  if (s.mem.readErr a 32).isSome then 0xFF else BitVec.ofNat 256 (s.field a 32)

/-- R382: a MAC failure met as a ring entry is read is counted. -/
def State.countEntry (s : State) (g : Ring) (i : BitVec 32) : State :=
  match s.mem.readErr (g.entryAt i) 32 with
  | some e => s.countFailure e.1
  | none => s

/-- R30, R47: the record of an entry as accepted: ST_SKIPPED at once while a CTL.SKIPIF count remains. LAYER of an
instruction that never issues is its field as written, the model's choice (log 140). -/
def State.newRec (s : State) (n : Nat) (g : Ring) (i : BitVec 32) (slot : Nat) (skipped : Bool) : JRec :=
  let d := s.readEntry g i
  let r : JRec := { slot := slot, desc := d, index := i, ring := n, ctx := g.ctx.toNat, layer := (Inst.of d).layer }
  if skipped then r.ended St.skipped s.now else r

/-- R29: entries of the next packet: up to 16, and no further than the doorbell write that brought them. -/
def Ring.packet (g : Ring) : Nat :=
  match g.marks with
  | [] => 0
  | m :: _ => Nat.min 16 (m - g.aidx).toNat

/-- R31: why the first two conditions of R30 fail. -/
def State.refuses (s : State) (g : Ring) : Option Reason :=
  if !g.en then some (if g.reason == .none then .disabled else g.reason)
  else if g.halted then some .halted
  else if (s.ctx g.ctx.toNat).state ≠ .active then some .ctxNotActive
  else none

/-- R30, R408, R422, R433: the slots of the next packet, when the last two conditions of R30 hold. -/
def State.roomFor (s : State) (g : Ring) (k : Nat) : Option (List Nat) :=
  if g.cqSize.toNat < (g.aidx - g.cidx).toNat + k then none
  else if s.jrn.rebuilding.w || s.jrn.rebuilding.e || s.jrn.sealed || s.gbl.journalFail || s.gbl.stackFail then none
  else if s.jrn.recs.any (fun r => s.jrn.lostBanks.contains (r.slot / 16384)) then none
  else freeSlots k g.cls.toNat ((s.jrn.recs.map (·.slot)).foldl insNat []) s.jrn.lostBanks

/-- R29-R31, R283: the next packet of ring n; where a host owns a line of its entries, it waits for the host's data. -/
def State.accept (s : State) (n : Nat) : State :=
  let g := s.ring n
  let k := g.packet
  if k = 0 then s
  else
    match s.refuses g with
    | some w => s.setRing n { g with reason := w }
    | none =>
      if !s.running then s
      else
        match s.roomFor g k with
        | none => s.setRing n { g with waiting := true }
        | some slots =>
          match s.ownedEntries g k with
          | x :: xs => s.sendSnoops (x :: xs)
          | [] =>
          let s := (List.range k).foldl (fun s t => s.countEntry g (g.aidx + BitVec.ofNat 32 t)) s
          let rs := (List.range k).map (fun t =>
            s.newRec n g (g.aidx + BitVec.ofNat 32 t) (slots.getD t 0) (decide (t < g.skip)))
          let a' := g.aidx + BitVec.ofNat 32 k
          let g' := { g with
            aidx := a', skip := g.skip - k, waiting := false
            marks := g.marks.filter (fun m => m != a') }
          ((({ s with jrn := { s.jrn with recs := s.jrn.recs ++ rs } }).setRing n g').noteEnded (rs.filter (fun (r : JRec) => r.state == JState.done))).markFree

/-- R30: PACKET_ACCEPT. -/
def execPacketAccept (ring : Nat) (s : State) : Host.Outcome State Fault Refusal := .next (s.accept ring)

/-! ### Posting -/

/-- R515: the vector of a ring is raised, while its LD is bound to the ring's context; else IRQ_UNBOUND is set. -/
def State.ringInterrupt (s : State) (n : Nat) : State :=
  let g := s.ring n
  let v := bits g.msix.toNat 0 11
  let h := sideOf (bits g.msix.toNat 11 1)
  let l := bits g.msix.toNat 12 4
  if !g.irqEn then s
  else if s.bound ⟨h, l⟩ g.ctx.toNat && v < 2048 then s.raise h l v
  else s.setRing n { g with irqUnbound := true }

/-- R444, R454: what posting adds to a record of a booked ring: LATE, and the counts of TEL_RING_LATE. -/
def State.measure (s : State) (r : JRec) : Bool × State :=
  let g := s.ring r.ring
  if s.boundNs r.ring = 0 then (r.cflags.getLsbD 1, s)
  else
    let late := r.cflags.getLsbD 1 || s.lateNow r
    let g' := { g with
      measured := if g.measured = 0xFFFFFFFF then g.measured else g.measured + 1
      late := if late && g.late != 0xFFFFFFFF then g.late + 1 else g.late }
    (late, if s.tel.globalEn && !s.sec.confidential then s.setRing r.ring g' else s)

/-- R60: CIDX passes a record, whose slot returns to FREE; a ring whose last record this was has drained (R513). -/
def State.retireRec (s : State) (r : JRec) : State :=
  let s := { s with jrn := { s.jrn with
    recs := s.jrn.recs.filter (fun x => !(x.ring == r.ring && x.index == r.index)) } }
  let g := s.ring r.ring
  let g' := { g with cidx := g.cidx + 1 }
  s.setRing r.ring { g' with draining := g.draining && g'.cidx != g'.aidx }

/-- R462: the COMPLETE trace record of a counted completion with these FLAGS; an index record has no PHASE, which shows 0 (log 104). -/
def State.traceComplete (s : State) (r : JRec) (flags : BitVec 8) : State :=
  let g := s.ring r.ring
  s.trace g.home { type := 3, cls := 2, unit := g.stoker, ctx := some r.ctx, ring := r.ring, layer := r.layer.toNat,
                   opid := (Inst.of r.desc).opid.toNat, index := r.index.toNat
                   arg := r.status.toNat + 256 * flags.toNat + 2 ^ 32 * r.detail.toNat }

/-- R60-R62, R283, R424: the oldest completion of a ring is posted: as an index record, or as a full record once the completion
ring has room and is not lost, and the hosts that hold the line have given it up; not while the die pauses (R460). -/
def State.post (s : State) (n : Nat) : State :=
  match s.ringRecs n with
  | [] => s
  | r :: _ =>
    let g := s.ring n
    let i := Inst.of r.desc
    let (late, s1) := s.measure r
    let fl : BitVec 4 := if late then r.cflags ||| Fl.late else r.cflags
    if r.state ≠ .done || !s.live || s.gbl.held || s.gbl.stopped || (s.pkg.thermalPause.get g.home).isSome then s
    else if !(needsFull i.c r.status late) then ((s1.traceComplete r (flagsByte fl false)).retireRec r).markFree
    else if g.cqLost || g.cqFull then s
    else
      let ph := phaseOf g.cqPi.toNat g.cqSize.toNat
      let bs := fullRecord r.index r.status (flagsByte fl ph) (BitVec.ofNat 8 i.opcode) r.layer i.opid r.detail
        r.result r.time
      let at_ := g.cqBase.toNat + 32 * (g.cqPi.toNat % Nat.max g.cqSize.toNat 1)
      match s.heldLines at_ 32 true with
      | x :: xs => s.sendSnoops (x :: xs)
      | [] =>
      let s2 := s1.poke at_ bs
      let s3 := s2.setRing n (({ s2.ring n with cqPi := g.cqPi + 1 }).noteRoom s.now.toNat)
      let s4 := if late then s3.ctxEvent r.ctx 0x09 0 n r.layer.toNat i.opid.toNat 1 else s3
      (((s4.traceComplete r (flagsByte fl ph)).retireRec r).ringInterrupt n).markFree

/-- R60: COMPLETION_POST. -/
def execCompletionPost (ring : Nat) (s : State) : Host.Outcome State Fault Refusal := .next (s.post ring)

/-! ### Issue windows -/

/-- R440: a booked ring's window with the present time: [t0 + kP, t0 + (k + 1)P). -/
def State.windowStart (s : State) (n : Nat) : State :=
  let g := s.ring n
  match g.booking with
  | none => s
  | some b =>
    let k := (s.now.toNat - g.t0) / Nat.max (1000 * b.demand.period) 1
    if g.en && g.window < k then s.setRing n { g with window := k, issued := 0 } else s

/-- R440: BOOKING_WINDOW_START. -/
def execBookingWindowStart (ring : Nat) (s : State) : Host.Outcome State Fault Refusal := .next (s.windowStart ring)

/-! ### Enabling -/

/-- R25: a power of two from 16 to 65,536. -/
def ringSizeOk (n : Nat) : Bool := (List.range 13).any (fun k => n == 16 * 2 ^ k)

/-- R25, R512 rule 2: the configuration of a ring, its arrays in context space of its context. -/
def State.ringCfgOk (s : State) (g : Ring) : Bool :=
  ringSizeOk g.size.toNat && ringSizeOk g.cqSize.toNat && g.base.toNat % 4096 == 0 && g.cqBase.toNat % 4096 == 0 &&
    (s.checkRange g.ctx.toNat g.base.toNat (32 * g.size.toNat) 64).isNone &&
    (s.checkRange g.ctx.toNat g.cqBase.toNat (32 * g.cqSize.toNat) 64).isNone

/-- R44, R423: the Stoker a ring binds to: ring number mod 8, or the next one in service counting upward modulo 8. -/
def stokerOf (inService : List Nat) (n : Nat) : Nat :=
  (((List.range 8).map (fun k => (n + k) % 8)).find? (fun x => inService.contains x)).getD (n % 8)

/-- R424: a ring's completion ring touches one of these granules. -/
def Ring.cqOn (g : Ring) (gs : List Nat) : Bool :=
  let lo := g.cqBase.toNat / granule
  let hi := (g.cqBase.toNat + 32 * g.cqSize.toNat - 1) / granule
  gs.any (fun x => decide (lo ≤ x) && decide (x ≤ hi))

/-- R26, R424, R512 rule 5: the ring as enabled: indices, registers and records clear. -/
def State.enabled (s : State) (n : Nat) (g : Ring) : Ring :=
  { g with
    en := true, reason := .none, aidx := 0, cidx := 0, cqPi := 0, pi := 0, cqCi := 0, marks := [], skip := 0
    failed := none, halted := false, calls := [], regs := List.replicate 64 {}, waiting := false
    stoker := stokerOf (s.eng.get g.home).stokers n, t0 := s.now.toNat, window := 0, issued := 0, retiredAt := none
    cqLost := g.cqOn s.mem.dead, cqFullNs := 0, cqFullAt := none }

/-- R512: RING_EN goes from 0 to 1. -/
def State.ringEnable (s : State) (n : Nat) (irq : Bool) (home : Side) : State :=
  let g := s.ring n
  if g.draining then s
  else
    let g := { g with irqEn := irq, home := home }
    if !(s.ringCfgOk g) then s.setRing n { g with reason := .cfgErr }
    else if (s.ctx g.ctx.toNat).state ≠ .active then s.setRing n { g with reason := .ctxNotActive }
    else if g.cls.toNat < 4 && g.booking.isNone then s.setRing n { g with reason := .notAdmitted }
    else
      let x := s.ctx g.ctx.toNat
      (s.setRing n (s.enabled n g)).setCtx g.ctx.toNat { x with ringEnabled := true }

/-- R513: RING_EN goes from 1 to 0: acceptance stops, a remaining skip count is discarded (R47) and the ring drains. -/
def Ring.disable (g : Ring) : Ring :=
  { g with en := false, reason := .disabled, skip := 0, draining := g.cidx != g.aidx, waiting := false }

/-- R499-R502: a BAR0 write is taken: by the part's reset state and by the LD. -/
def State.ringWritable (s : State) (ld : Ld) (n : Nat) : Bool :=
  n < 65536 && s.gbl.fwReady && !s.gbl.held && (s.manager ld || s.bound ld (s.ring n).ctx.toNat)

/-- R510, R512, R513: a write to RING_EN. -/
def State.writeRingEn (s : State) (ld : Ld) (n : Nat) (v : BitVec 32) : State :=
  let g := s.ring n
  let en := v.getLsbD 0
  let irq := v.getLsbD 1
  let home := sideOf (bits v.toNat 2 1)
  if !(s.ringWritable ld n) then s
  else if (g.en || g.draining) && home ≠ g.home then s
  else if en && !g.en then s.ringEnable n irq home
  else if !en && g.en then s.setRing n { g.disable with irqEn := irq }
  else s.setRing n { g with irqEn := irq, home := home }

/-- R512: RING_ENABLE, a write to RING_EN with EN 1. -/
def execRingEnable (ld : Ld) (ring : Nat) (value : BitVec 32) (s : State) : Host.Outcome State Fault Refusal :=
  .next (if value.getLsbD 0 then s.writeRingEn ld ring value else s)

/-- R513: RING_DISABLE, a write to RING_EN with EN 0. -/
def execRingDisable (ld : Ld) (ring : Nat) (value : BitVec 32) (s : State) : Host.Outcome State Fault Refusal :=
  .next (if value.getLsbD 0 then s else s.writeRingEn ld ring value)

/-- R424, R511: a write to RING_CQ_BASE: while the ring runs it is taken only while CQ_LOST is set, for an array that
meets R25; CQ_LOST clears, unless the new one lies on a failed stack too, and the held records are posted from there on. -/
def State.moveCqBase (s : State) (ld : Ld) (n : Nat) (v : BitVec 64) : State :=
  let g := s.ring n
  if !(s.ringWritable ld n) then s
  else if !(g.en || g.draining) then s.setRing n { g with cqBase := v }
  else if g.cqLost && s.ringCfgOk { g with cqBase := v } then s.setRing n { g with cqBase := v, cqLost := ({ g with cqBase := v }).cqOn s.mem.dead }
  else s

/-- R424: RING_CQ_BASE_MOVE. -/
def execRingCqBaseMove (ld : Ld) (ring : Nat) (value : BitVec 64) (s : State) : Host.Outcome State Fault Refusal :=
  .next (s.moveCqBase ld ring value)

end Machine
end Sys2Proof
end

