-- ==== Sys2Proof/Machine/Admit.lean ====
section
/-! DEFINITION. Service classes, bookings and their tests (R438-R448), gate schedules (R351, R352, R356) and the policer
registers (R355). -/

namespace Sys2Proof
namespace Machine

/-! ### Resources and capacities (R439) -/

/-- R439: a resource. -/
inductive Resource where
  | issue (die : Side) (stoker : Nat)
  | arith (die : Side)
  | hearth (die : Side)
  | flue (port : Side)
deriving DecidableEq, Repr

/-- R446: DETAIL [3:0]. -/
def Resource.code : Resource → Nat
  | .issue .. => 1
  | .arith _ => 2
  | .hearth _ => 3
  | .flue .west => 4
  | .flue .east => 5

/-- R446: DETAIL [4]. -/
def Resource.die : Resource → Side
  | .issue d _ => d
  | .arith d => d
  | .hearth d => d
  | .flue p => p

/-- R439: every resource, in the order of its code. -/
def resources : List Resource :=
  let ds := [Side.west, Side.east]
  ds.flatMap (fun d => (List.range 8).map (Resource.issue d)) ++ ds.map .arith ++ ds.map .hearth ++ ds.map .flue

/-- R441, R466: what a test is made under: the two settings, whether ISSUE or COMPLETE records are selected, and the gate
schedules of the ports. -/
structure AdmitEnv where
  /-- R448: ADMIT_CAP. -/
  cap : Nat
  /-- R448: BLOCK_US. -/
  block : Nat
  /-- R466: issue capacity and W_issue as with ISSUE or COMPLETE selected. -/
  traced : Bool
  /-- R441: gate schedules. -/
  gate : Two (Option GateSched)
deriving DecidableEq, Repr

/-- R441, R466: the present settings; a pending schedule counts before the running one (log 40). -/
def State.admitEnv (s : State) : AdmitEnv :=
  { cap := s.gbl.admitCap, block := s.gbl.blockUs, traced := s.tel.types.getLsbD 2 || s.tel.types.getLsbD 3
    gate := s.flu.port.map (fun x => (x.pendingGate.map (·.1)).or x.gate) }

/-- R439, R466: floor capacity of a resource per ns: a port that is down carries nothing. -/
def State.capacityOf (s : State) (e : AdmitEnv) : Resource → Rat
  | .issue d k => if (s.eng.get d).stokers.contains k then (if e.traced then 1611 / 10000 else 18125 / 100000) else 0
  | .arith d => 4096 * ((s.eng.get d).fireboxes.length : Rat) * (145 / 100)
  | .hearth d => 2560 * ((10 - (s.drt.failed.get d).length : Nat) : Rat)
  | .flue p => if (s.flu.port.get p).up then 98 else 0

/-- A booked ring: its number, and the ring with its booking. -/
abbrev Booked := Nat × Ring

/-- R438: the booked rings. -/
def State.booked (s : State) : List Booked := s.rings.filter (fun p => p.2.booking.isSome)

/-- The demand of a booked ring. -/
def demandOf (b : Booked) : Demand := (b.2.booking.getD {}).demand

/-- R439, R445: what a booking demands of a resource: while a port is down, the other carries both ports' demands. -/
def State.share (s : State) (b : Booked) : Resource → Nat
  | .issue d k => if b.2.home == d && stokerOf (s.eng.get d).stokers b.1 == k then (demandOf b).issue else 0
  | .arith d => Two.get ⟨(demandOf b).arithW, (demandOf b).arithE⟩ d
  | .hearth d => Two.get ⟨(demandOf b).hearthW, (demandOf b).hearthE⟩ d
  | .flue p =>
    let f : Two Nat := ⟨(demandOf b).flue0, (demandOf b).flue1⟩
    let up := s.flu.port.map (·.up)
    if up.get p == up.get p.other then f.get p else if up.get p then f.w + f.e else 0

/-- R439: the period of a booking in ns. -/
def periodOf (b : Booked) : Rat := 1000 * (demandOf b).period

/-- R439: the rate that bookings put on a resource, per ns. -/
def State.load (s : State) (bs : List Booked) (r : Resource) : Rat :=
  bs.foldl (fun x b => x + s.share b r / periodOf b) 0

/-! ### Gates in the tests (R441) -/

/-- Neighbouring entries of the same kind joined. -/
def joinRuns : List (Nat × Bool) → List (Nat × Bool)
  | [] => []
  | (n, o) :: r =>
    match joinRuns r with
    | (m, o') :: r' => if o == o' then (n + m, o) :: r' else (n, o) :: (m, o') :: r'
    | [] => [(n, o)]

/-- R350: the runs of open and closed time of a class over a cycle, none split by the cycle boundary. -/
def GateSched.runs (g : GateSched) (c : Nat) : List (Nat × Bool) :=
  let es := g.entries.map (fun e => (e.1, e.2.getLsbD c))
  let r1 := es.dropWhile (·.2) ++ es.takeWhile (·.2)
  joinRuns (r1.dropWhile (fun e => !e.2) ++ r1.takeWhile (fun e => !e.2))

/-- R350: lengths of a class's windows. -/
def GateSched.windows (g : GateSched) (c : Nat) : List Nat := ((g.runs c).filter (·.2)).map (·.1)

/-- R441: the longest time for which a class is closed. -/
def GateSched.longestClosed (g : GateSched) (c : Nat) : Nat := ((g.runs c).filter (fun e => !e.2)).foldl (fun n e => Nat.max n e.1) 0

/-- R441: the fraction of the cycle that a class's windows leave usable, each window less its largest frame; a class that is
never closed uses it all. -/
def GateSched.usable (g : GateSched) (c maxFrame : Nat) : Rat :=
  if g.longestClosed c = 0 then 1
  else ((g.windows c).foldl (fun n w => n + (100 * w - maxFrame)) 0 : Nat) / ((100 * g.cycle : Nat) : Rat)

/-- R350: the schedule gates the class. -/
def gatedBy (o : Option GateSched) (c : Nat) : Option GateSched := o.filter (fun g => g.mask.getLsbD c)

/-- R441: usable fraction and longest closed time of a class at a port. -/
def State.gateOf (s : State) (e : AdmitEnv) (p : Side) (c : Nat) : Rat × Nat :=
  match gatedBy (e.gate.get p) c with
  | some g => (g.usable c (s.maxFrame c), g.longestClosed c)
  | none => (1, 0)

/-! ### The tests (R441) -/

/-- A test that fails: the resource's code, its die, whether it is the latency test, and the ring. -/
structure AdmitFail where
  /-- R446: DETAIL [3:0]. -/
  res : Nat
  /-- R446: DETAIL [4]. -/
  die : Side
  /-- R446: DETAIL [5]. -/
  latency : Bool
  /-- R446: DETAIL [31:16]. -/
  ring : Nat
deriving DecidableEq, Repr

/-- R446: DETAIL. -/
def AdmitFail.detail (f : AdmitFail) : Nat := f.res + 16 * f.die.num + 32 * b2n f.latency + 65536 * f.ring

/-- R446: the ring named for a resource: the one being admitted where it shares the resource, else the lowest (log 41). -/
def State.blamed (s : State) (bs : List Booked) (who : Option Nat) (r : Resource) : Nat :=
  let on := bs.filter (fun b => s.share b r != 0)
  match who with
  | some n => if on.any (fun b => b.1 == n) then n else (on.map (·.1)).headD n
  | none => (on.map (·.1)).headD 0

/-- R441: the strict class of a port that fails its own capacity test: what its windows leave it does not hold what it books. -/
def State.classFails (s : State) (e : AdmitEnv) (bs : List Booked) (p : Side) : Option Nat :=
  let lim (x : Rat) : Rat := (e.cap : Rat) / 256 * x
  (List.range 4).find? (fun c => decide (lim (s.capacityOf e (.flue p) * (s.gateOf e p c).1)
    < s.load (bs.filter (fun b => b.2.cls.toNat == c)) (.flue p)))

/-- R441: the capacity test of one resource; at a port, a gated strict class must also fit what its windows leave. -/
def State.capacityFails (s : State) (e : AdmitEnv) (bs : List Booked) (r : Resource) : Bool :=
  let lim (x : Rat) : Rat := (e.cap : Rat) / 256 * x
  decide (lim (s.capacityOf e r) < s.load bs r) ||
    (match r with
    | .flue p => (s.classFails e bs p).isSome
    | _ => false)

/-- R441: W of a ring with the resource that limits it, in ns; none where a needed resource has no capacity. -/
def State.latencyOf (s : State) (e : AdmitEnv) (bs : List Booked) (k : Booked) : Option Rat × Resource :=
  let c := k.2.cls.toNat
  let js := bs.filter (fun b => b.2.cls.toNat ≤ c)
  let st := Resource.issue k.2.home (stokerOf (s.eng.get k.2.home).stokers k.1)
  let sum (r : Resource) : Nat := js.foldl (fun n b => n + s.share b r) 0
  let per (r : Resource) (cap : Rat) : Option Rat := if sum r = 0 then some 0 else if cap ≤ 0 then none else some (sum r / cap)
  let wIssue : Rat := sum st * (if e.traced then 9 else 8) / (145 / 100)
  let die (d : Side) : List (Option Rat × Resource) :=
    if s.share k (.hearth d) = 0 && s.share k (.arith d) = 0 then []
    else
      match per (.hearth d) (s.capacityOf e (.hearth d)), per (.arith d) (s.capacityOf e (.arith d)) with
      | some h, some a => [(some (1000 * e.block + (if h < a then a else h)), if h < a then .arith d else .hearth d)]
      | none, _ => [(none, .hearth d)]
      | _, none => [(none, .arith d)]
  let port (p : Side) : List (Option Rat × Resource) :=
    if s.share k (.flue p) = 0 then []
    else
      let (u, closed) := s.gateOf e p c
      let m := (List.range 64).foldl (fun n c => Nat.max n (s.maxFrame c)) 0
      [((per (.flue p) (s.capacityOf e (.flue p) * u)).map (fun x => (m : Rat) / 100 + x + closed), .flue p)]
  let worse (x y : Option Rat × Resource) : Option Rat × Resource :=
    match x.1, y.1 with
    | none, _ => x
    | _, none => y
    | some a, some b => if a < b then y else x
  let best := match die .west ++ die .east ++ port .west ++ port .east with
    | [] => (some 0, st)
    | x :: r => r.foldl worse x
  (best.1.map (· + wIssue), best.2)

/-- R441, R446: the latency test of a ring against its bound and its period. -/
def State.latencyFails (s : State) (e : AdmitEnv) (bs : List Booked) (k : Booked) : Option AdmitFail :=
  let b := s.gbl.bounds.lookD k.2.cls.toNat 0
  if b = 0 then none
  else
    let (w, r) := s.latencyOf e bs k
    let above (lim : Rat) : Bool := match w with
      | none => true
      | some x => decide (lim < x)
    if above (1000 * b) then some { res := r.code, die := r.die, latency := true, ring := k.1 }
    else if above (periodOf k) then some { res := 6, die := r.die, latency := true, ring := k.1 }
    else none

/-- R441: both tests over a set of bookings: the first failure, capacity first. -/
def State.admitTest (s : State) (e : AdmitEnv) (bs : List Booked) (who : Option Nat) : Option AdmitFail :=
  match resources.find? (s.capacityFails e bs) with
  | some r => some { res := r.code, die := r.die, latency := false, ring := s.blamed bs who r }
  | none => bs.findSome? (s.latencyFails e bs)

/-- R445: the tests made again: OVERBOOKED set, with a Warning record, or cleared. -/
def State.recheck (s : State) : State :=
  if (s.admitTest s.admitEnv s.booked none).isNone then { s with gbl := { s.gbl with overbooked := false } }
  else if s.gbl.overbooked then s
  else ({ s with gbl := { s.gbl with overbooked := true } }).postAll .warning 129 0 0 .west

/-! ### The admission commands (R448) -/

/-- R448: the bytes of Get Start-Up Report after the header. -/
def State.startUpReport (s : State) : List Byte :=
  let fb (d : Side) : List Byte := [BitVec.ofNat 8 (s.eng.get d).fireboxes.length, BitVec.ofNat 8 (s.eng.get d).spares.length]
  let mask (l : List Nat) : Nat := l.foldl (fun n i => n + 2 ^ i) 0
  fb .west ++ fb .east ++ leBytes 4 (mask s.drt.failed.w + 65536 * mask s.drt.failed.e)
    ++ leBytes 1 s.jrn.spares.w ++ leBytes 1 s.jrn.spares.e
    ++ leBytes 4 (mask s.eng.w.badBanks + 65536 * mask s.eng.e.badBanks) ++ leBytes 2 0 ++ leBytes 8 s.gbl.fwReadyAt

/-- R433, R448: GET_START_UP_REPORT. -/
def execGetStartUpReport (ld : Ld) (s : State) : Host.Outcome State Fault Refusal :=
  .next (s.vendor ld (fun s => s.say St.ok 0 s.startUpReport))

/-- R446, R448: Set Class. A bound of 0 means none, so a first bound lowers it. -/
def State.setClass (s : State) (cls weight bound : Nat) : State :=
  if 63 < cls || 255 < weight || 1000000 < bound || (cls < 4 && weight ≠ 0) || (4 ≤ cls && bound ≠ 0) then s.say St.badOperand
  else
    let old := s.gbl.bounds.lookD cls 0
    let lowers := bound ≠ 0 && (old = 0 || bound < old)
    let tooMuch (k : Booked) : Option AdmitFail :=
      let (w, r) := s.latencyOf s.admitEnv s.booked k
      if k.2.cls.toNat == cls && (match w with
          | none => true
          | some x => decide ((1000 * bound : Nat) < x)) then
        some { res := r.code, die := r.die, latency := true, ring := k.1 }
      else none
    match if lowers then s.booked.findSome? tooMuch else none with
    | some f => s.say St.admitDeadline f.detail
    | none =>
      (({ s with gbl := { s.gbl with weights := s.gbl.weights.put cls weight, bounds := s.gbl.bounds.put cls bound } }).recheck).say
        St.ok

/-- R448: SET_CLASS. -/
def execSetClass (ld : Ld) (cls weight bound : Nat) (s : State) : Host.Outcome State Fault Refusal :=
  .next (s.vendor ld (fun s => s.setClass cls weight bound))

/-- R446, R448: Set Admission. -/
def State.setAdmission (s : State) (cap block : Nat) : State :=
  if cap < 128 || 255 < cap || block < 1 || 1000 < block then s.say St.badOperand
  else
    match s.admitTest { s.admitEnv with cap := cap, block := block } s.booked none with
    | some f => s.say St.admitDeadline f.detail
    | none => (({ s with gbl := { s.gbl with admitCap := cap, blockUs := block } }).recheck).say St.ok

/-- R448: SET_ADMISSION. -/
def execSetAdmission (ld : Ld) (admitCap blockUs : Nat) (s : State) : Host.Outcome State Fault Refusal :=
  .next (s.vendor ld (fun s => s.setAdmission admitCap blockUs))

/-- R448: a field of Admit Ring is out of range, or every demand is 0. -/
def demandBad (d : Demand) : Bool :=
  d.period < 10 || 1000000 < d.period || 2 ^ 32 ≤ d.issue ||
    [d.arithW, d.arithE, d.hearthW, d.hearthE, d.flue0, d.flue1].any (fun x => 2 ^ 64 ≤ x) ||
    [d.issue, d.arithW, d.arithE, d.hearthW, d.hearthE, d.flue0, d.flue1].all (· == 0)

/-- A ring put in its place among the booked rings. -/
def putBooked (bs : List Booked) (n : Nat) (g : Ring) : List Booked := Tbl.put bs n g

/-- R446, R448: Admit Ring, its refusals in this order (log 42). W in ns is rounded up to 10 ns, as the worked example has its
values (log 43). -/
def State.admitRing (s : State) (n : Nat) (d : Demand) : State :=
  let g := s.ring n
  if 65535 < n then s.say St.badOperand
  else if g.en || g.booking.isSome then s.say St.busy
  else if 4 ≤ g.cls.toNat || demandBad d then s.say St.badOperand
  else if (s.ctx g.ctx.toNat).state ≠ .active then s.say St.access
  else
    let g' := { g with booking := some { demand := d } }
    let bs := putBooked s.booked n g'
    let f := if s.gbl.overbooked then
        (s.admitTest s.admitEnv s.booked (some n)).or (s.admitTest s.admitEnv bs (some n)) else s.admitTest s.admitEnv bs (some n)
    if s.gbl.overbooked || f.isSome then s.say St.admitDeadline ((f.map AdmitFail.detail).getD 0)
    else
      let (w, r) := s.latencyOf s.admitEnv bs (n, g')
      let ns := 10 * (((w.getD 0) / 10).ceil).toNat
      (s.setRing n g').say St.ok 0 (leBytes 8 ns ++ leBytes 1 r.code ++ leBytes 1 r.die.num ++ leBytes 6 0)

/-- R448: ADMIT_RING. -/
def execAdmitRing (ld : Ld) (ring : Nat) (demand : Demand) (s : State) : Host.Outcome State Fault Refusal :=
  .next (s.vendor ld (fun s => s.admitRing ring demand))

/-- R445, R448: Release Booking. -/
def execReleaseBooking (ld : Ld) (ring : Nat) (s : State) : Host.Outcome State Fault Refusal :=
  .next (s.vendor ld (fun s =>
    let g := s.ring ring
    if 65535 < ring then s.say St.badOperand
    else if g.en then s.say St.busy
    else ((s.setRing ring { g with booking := none }).recheck).say St.ok))

/-- R448: a booked rate per second. -/
def perSecond (x : Rat) : Nat := ((x * 1000000000).floor).toNat

/-- R448: Get Admission. -/
def execGetAdmission (ld : Ld) (die : Nat) (s : State) : Host.Outcome State Fault Refusal :=
  .next (s.vendor ld (fun s =>
    let d := sideOf die
    let rate (r : Resource) : Nat := perSecond (s.load s.booked r)
    if 1 < die then s.say St.badOperand
    else s.say St.ok 0 ((List.range 8).flatMap (fun k => leBytes 4 (rate (.issue d k))) ++ leBytes 8 (rate (.arith d))
      ++ leBytes 8 (rate (.hearth d)) ++ leBytes 8 (rate (.flue d)) ++ leBytes 1 (b2n s.gbl.overbooked))))

/-! ### Gate commands (R351, R352, R356) -/

/-- R356: DMP_GATE_STATUS after a command: refused with a status and a class, or not. -/
def gateStatus (e : Option (Status × Nat)) : BitVec 64 :=
  match e with
  | none => 2
  | some (st, c) => BitVec.ofNat 64 (6 + 256 * st.toNat + 65536 * c)

/-- R351: what refuses a schedule. -/
def State.gateRefused (s : State) (p : Side) (count : Nat) (g : GateSched) : Option (Status × Nat) :=
  let lim := 1000000000
  if g.entries.any (fun e => e.1 = 0 || lim < e.1) || count < 1 || 128 < count || lim < g.cycle then some (St.badOperand, 0)
  else
    let gated := (List.range 64).filter (fun c => g.mask.getLsbD c)
    match gated.find? (fun c => (g.windows c).isEmpty ||
        (g.longestClosed c ≠ 0 && (g.windows c).any (fun w => 100 * w < s.maxFrame c))) with
    | some c => some (St.gateRefused, c)
    | none =>
      let e := { s.admitEnv with gate := s.admitEnv.gate.set p (some g) }
      let on := s.booked.filter (fun b => s.share b (.flue p) != 0)
      let late := on.findSome? (s.latencyFails e s.booked)
      if s.capacityFails e s.booked (.flue p) then
        some (St.admitDeadline, ((s.classFails e s.booked p).or ((on.map (fun b => b.2.cls.toNat)).head?)).getD 0)
      else late.map (fun f => (St.admitDeadline, (s.ring f.ring).cls.toNat))

/-- R352: when an accepted schedule takes effect: its base time, or the earliest base + k × cycle, at least 10 µs on. -/
def gateStart (now : Nat) (g : GateSched) : Nat :=
  let t := now + 10000
  if t ≤ g.base then g.base else g.base + ceilDiv (t - g.base) (Nat.max g.cycle 1) * g.cycle

/-- R352, R356: a write to DMP_GATE_CMD with the operation `want`, on the schedules as the time base has left them. -/
def State.gateCmd (s : State) (ld : Ld) (want : Nat) (cmd : BitVec 64) (go : Side → Nat → State → State) : State :=
  let v := cmd.toNat
  if !s.regWritable ld || bits v 1 3 ≠ want then s else go (sideOf (bits v 0 1)) (bits v 8 7) (s.gateDue (sideOf (bits v 0 1)))

/-- DMP_GATE_STATUS replaced. -/
def State.setGateStatus (s : State) (v : BitVec 64) : State := { s with dmp := { s.dmp with gateStatus := v } }

/-- R356: WRITE_ENTRY. -/
def execDmpGateWriteEntry (ld : Ld) (cmd : BitVec 64) (s : State) : Host.Outcome State Fault Refusal :=
  .next (s.gateCmd ld 0 cmd (fun p i s =>
    let x := s.flu.port.get p
    (s.setPort p { x with gateList := x.gateList.put i (s.dmp.gateDur, s.dmp.gateOpen) }).setGateStatus (gateStatus none)))

/-- R356: READ_ENTRY; an entry that the running schedule lacks reads as a free value (log 10). -/
def execDmpGateReadEntry (ld : Ld) (cmd : BitVec 64) (s : State) : Host.Outcome State Fault Refusal :=
  .next (s.gateCmd ld 1 cmd (fun p i s =>
    match ((s.flu.port.get p).gate.bind (fun g => g.entries[i]?)) with
    | some (d, m) => ({ s with dmp := { s.dmp with gateDur := BitVec.ofNat 32 d, gateOpen := m } }).setGateStatus (gateStatus none)
    | none =>
      let (a, s) := s.free
      let (b, s) := s.free
      ({ s with dmp := { s.dmp with gateDur := a.setWidth 32, gateOpen := b } }).setGateStatus (gateStatus none)))

/-- R351, R352, R356: COMMIT. -/
def State.gateCommit (s : State) (p : Side) (count : Nat) : State :=
  let x := s.flu.port.get p
  let g : GateSched := {
    base := s.dmp.gateBase.toNat, mask := s.dmp.gateMask
    entries := (List.range (Nat.min count 128)).map (fun i =>
      let e := x.gateList.lookD i (0, 0)
      (e.1.toNat, e.2)) }
  match s.gateRefused p count g with
  | some e => s.setGateStatus (gateStatus (some e))
  | none => (s.setPort p { x with pendingGate := some (g, gateStart s.now.toNat g) }).setGateStatus (gateStatus none)

/-- R356: COMMIT. -/
def execDmpGateCommit (ld : Ld) (cmd : BitVec 64) (s : State) : Host.Outcome State Fault Refusal :=
  .next (s.gateCmd ld 2 cmd (fun p _ s => s.gateCommit p (bits cmd.toNat 16 8)))

/-- R352, R356: DISABLE: the pending schedule goes, and all classes are open from the next entry boundary. -/
def execDmpGateDisable (ld : Ld) (cmd : BitVec 64) (s : State) : Host.Outcome State Fault Refusal :=
  .next (s.gateCmd ld 3 cmd (fun p _ s =>
    let x := s.flu.port.get p
    (s.setPort p { x with
      pendingGate := none, disabling := x.gate.map (fun g => s.now.toNat + (g.entryAt s.now.toNat).2) }).setGateStatus (gateStatus none)))

/-! ### Policer registers (R340, R344, R355) -/

/-- R355: DMP_POL_STATUS after a command. -/
def polStatus (err : Nat) : BitVec 64 := if err = 0 then 2 else BitVec.ofNat 64 (6 + 256 * err)

/-- R355: a write to DMP_POL_CMD with the operation `want`, on a context's or a connection's policer, after the refills that are due
(R344). -/
def State.polCmd (s : State) (ld : Ld) (want : Nat) (cmd : BitVec 64) (go : Bool → Nat → State → Nat × State) : State :=
  let v := cmd.toNat
  let i := bits v 0 15
  let kind := bitOf v 15
  if !s.regWritable ld || bits v 16 2 ≠ want then s
  else
    let (e, s) : Nat × State := if !kind && 4096 ≤ i then (3, s) else go kind i s.refillDue
    { s with dmp := { s.dmp with polStatus := polStatus e } }

/-- R340: a policer. -/
def State.policer (s : State) (kind : Bool) (i : Nat) : Policer := (if kind then s.dmp.connPol else s.dmp.ctxPol).lookD i {}

/-- A policer replaced. -/
def State.setPolicer (s : State) (kind : Bool) (i : Nat) (p : Policer) : State :=
  if kind then { s with dmp := { s.dmp with connPol := s.dmp.connPol.put i p } }
  else { s with dmp := { s.dmp with ctxPol := s.dmp.ctxPol.put i p } }

/-- R355: READ: the settings, and the tokens in whole bytes summed over both ports. -/
def execDmpPolRead (ld : Ld) (cmd : BitVec 64) (s : State) : Host.Outcome State Fault Refusal :=
  .next (s.polCmd ld 0 cmd (fun kind i s =>
    let p := s.policer kind i
    let (en, cir, pir, cbs, pbs) := p.next.getD (p.en, p.cir, p.pir, p.cbs, p.pbs)
    (0, { s with dmp := { s.dmp with
      cir := BitVec.ofNat 64 (cir + 2 ^ 63 * b2n en), pir := BitVec.ofNat 64 pir
      cbs := BitVec.ofNat 64 (cbs + 2 ^ 32 * ((p.c.w + p.c.e) / 125))
      pbs := BitVec.ofNat 64 (pbs + 2 ^ 32 * ((p.p.w + p.p.e) / 125)) } })))

/-- R340, R355: WRITE: refused when CIR exceeds PIR, or a rate or a size is out of range; in effect at the next refill. -/
def execDmpPolWrite (ld : Ld) (cmd : BitVec 64) (s : State) : Host.Outcome State Fault Refusal :=
  .next (s.polCmd ld 1 cmd (fun kind i s =>
    let cir := bits s.dmp.cir.toNat 0 21
    let pir := bits s.dmp.pir.toNat 0 21
    let cbs := bits s.dmp.cbs.toNat 0 25
    let pbs := bits s.dmp.pbs.toNat 0 25
    let bad (n : Nat) : Bool := decide (n < 8704) || decide (16777216 < n)
    if pir < cir || 1600000 < pir || bad cbs || bad pbs then (1, s)
    else (0, s.setPolicer kind i { s.policer kind i with next := some (s.dmp.cir.getLsbD 63, cir, pir, cbs, pbs) })))

/-- R344, R355: REFILL: the buckets full. -/
def execDmpPolRefill (ld : Ld) (cmd : BitVec 64) (s : State) : Host.Outcome State Fault Refusal :=
  .next (s.polCmd ld 2 cmd (fun kind i s => (0, s.setPolicer kind i ((s.policer kind i).fill s.dmp.split))))

/-! ### FLU_CTL (R334) -/

/-- R334, R445: FLU_CTL_WRITE: a port that goes down changes the capacities. -/
def execFluCtlWrite (ld : Ld) (value : BitVec 64) (s : State) : Host.Outcome State Fault Refusal :=
  .next (if s.regWritable ld then (s.fluCtl ld value).recheck else s)

end Machine
end Sys2Proof
end

