-- ==== Sys2Proof/Machine/Pages.lean ====
section
/-! DEFINITION. The page and append instructions (R55, R74, R86-R90, R210, R218). -/

namespace Sys2Proof
namespace Machine

/-- R51: LENTAB, STATS and AUX are 0 where an instruction has no use for them. -/
def Desc.extra (d : Desc) : Bool := d.lentab != 0 || d.stats != 0 || d.aux != 0

/-! ### PAGE.STAGE (R218) -/

/-- R218: PAGE.STAGE's checks. -/
def State.stageChecks (s : State) (j : Job) : Bad :=
  let a := j.w0.toNat
  match s.badHeader j.ctx a Desc.extra with
  | some e => some e
  | none =>
    let d := s.desc a
    firstBad [s.badList j.ctx d,
      s.badEntries j a d (fun i e => badIf (decide (e.b < e.a) && e.b != 0xFFFFFFFF) St.badPosition i)]

/-- R218: the layers that PAGE.STAGE covers. -/
def Job.stageOver (j : Job) (look count : Nat) : List Nat :=
  if j.allLayers then List.range count else stageLayers j.layer.toNat look count

/-- R218: the logical pages that a position range asks for at a layer of this LENGTH and BASEPG. -/
def stagePages (len base first stop : Nat) : List Nat :=
  let stop' := if stop = 0xFFFFFFFF then len else Nat.min stop len
  if stop' ≤ first then [] else pageRange (Nat.max (first / 16) base) (pagesOf stop')

/-- R218: the sequences, layers and ranges of PAGE.STAGE, in the order of its entries and their layers. -/
def State.stageSpans (s : State) (j : Job) : List (Nat × Nat × Nat × Nat) :=
  let d := s.desc j.w0.toNat
  (s.entries j.w0.toNat d.count).flatMap (fun e =>
    (j.stageOver d.lookahead (s.prof e.key).layers).map (fun l => (e.key, l, e.a, e.b)))

/-- R86: LENGTH and BASEPG of layers, sampled. -/
def State.sample (s : State) (ls : List (Nat × Nat)) : Snap :=
  { lens := ls.map (fun x => (s.layer x.1 x.2).length), bases := ls.map (fun x => (s.layer x.1 x.2).basePg) }

/-- R218: what PAGE.STAGE checks, and the lengths it samples. -/
def stageChk (j : Job) (s : State) : Chk :=
  match s.stageChecks j with
  | some e => Chk.ofErr (some e) s
  | none => s.tableChk j (s.desc j.w0.toNat) (fun s => .good (s.sample ((s.stageSpans j).map (fun x => (x.1, x.2.1)))) s)

/-- R218: the pages of every entry and layer, walked at the lengths sampled. Answers those found resident, those away, and the
missing ranges. -/
def State.stageWalk (s : State) : List ((Nat × Nat × Nat × Nat) × Nat × Nat) → List Nat × List Nat × List Miss × State
  | [] => ([], [], [], s)
  | ((k, l, first, stop), len, base) :: r =>
    let (seen, s1) := State.walkAll k l (stagePages len base first stop) s
    let (hs, aw, ms, s2) := s1.stageWalk r
    (seen.hits.map (·.2) ++ hs, seen.away ++ aw, missesOf k l len seen.gone ++ ms, s2)

/-- R217: the pages that PAGE.STAGE waits on: with a page, the time of its request where the Coal store was not READY then. -/
def State.stageWaits (s : State) (prev : Option Wait) (hs : List Nat) : List (Nat × Option Nat) :=
  let fresh (h : Nat) : Nat × Option Nat := (h, if s.coal.ready then none else some s.now.toNat)
  hs.map (fun h => match prev with
    | some (.stage l) => (l.find? (fun x => x.1 == h)).getD (fresh h)
    | _ => fresh h)

/-- R214, R218: PAGE.STAGE asks for every page once: when it begins, and for a page it meets away without having waited on it. -/
def stageBody (j : Job) (s : State) : Out :=
  let d := s.desc j.w0.toNat
  let (hits, away, ms, s1) := (((s.entries j.w0.toNat d.count).foldl (fun s e => s.walked e.key) s).stageWalk
    ((s.stageSpans j).zip (j.snap.lens.zip j.snap.bases)))
  let away := away.eraseDups
  let old := match j.prev with
    | some (.stage hs) => hs.map Prod.fst
    | some (.expired hs) => hs
    | _ => []
  let asked := if j.snap.asked then away.filter (fun h => !(old.contains h)) else hits ++ away
  let s2 := asked.foldl (fun s h => s.request h .staging 0) s1
  let promoted := j.progress + (old.filter (fun h => hits.contains h)).length
  if away.isEmpty then .done (missDone (if ms.isEmpty then promoted else 0) d.mrlist d.mrcap ms) (s2.writeMisses d.mrlist d.mrcap ms)
  else
    match j.prev with
    | some (.expired _) => .done { status := St.notResident, detail := away.length } s2
    | _ => .wait (.stage (s2.stageWaits j.prev away)) ((s2.keepSnap j.site { j.snap with asked := true }).setProgress j.site promoted)

/-- R55: PAGE.STAGE. -/
def execPageStage (a : At) (s : State) : Host.Outcome State Fault Refusal := .next (runHob 0x20 a stageChk stageBody s)

/-! ### PAGE.SEAL -/

/-- R55, R90: PAGE.SEAL. -/
def sealBody (j : Job) (s : State) : Out :=
  let k := seqKey j.w0.toNat
  let (n, s1) := (j.layersOf (s.prof k).layers).foldl (fun (c : Nat × State) l =>
    let y := c.2.layer k l
    let (m, t) := c.2.sealUpTo k l (pageRange y.basePg (pagesOf y.length))
    (c.1 + m, t)) (0, s.walked k)
  succeeds n s1

/-- R55: PAGE.SEAL. -/
def execPageSeal (a : At) (s : State) : Host.Outcome State Fault Refusal := .next (runHob 0x21 a tablesChk sealBody s)

/-! ### PAGE.FETCH -/

/-- R55: the pages of a fetch: place in the destination, layer, logical page. -/
def fetchList (ls : List Nat) (n0 cnt : Nat) : List (Nat × Nat × Nat) :=
  (List.range ls.length).flatMap (fun t => (List.range cnt).map (fun i => (t * cnt + i, ls.getD t 0, n0 + i)))

/-- R55: the pages of a fetch, walked: those to be copied with their places, those away, and of each that is gone whether it
is lost. -/
def State.fetchWalk (s : State) (k : Nat) : List (Nat × Nat × Nat) → List (Nat × Nat) × List Nat × List Bool × State
  | [] => ([], [], [], s)
  | (t, l, n) :: r =>
    let (m, s1) := s.walk k l n
    let (fs, aw, gs, s2) := s1.fetchWalk k r
    match m with
    | .hit h => ((t, h) :: fs, aw, gs, s2)
    | .away h => (fs, h :: aw, gs, s2)
    | .gone b => (fs, aw, b :: gs, s2)

/-- R55, R216: frames copied to their places from address a on. -/
def State.fetchCopy (s : State) (a size : Nat) (fs : List (Nat × Nat)) : State :=
  fs.foldl (fun s f => (s.engineRead f.2).poke (a + f.1 * size) (s.peek (viewBase f.2) size)) s

/-- R55: PAGE.FETCH's checks of its own rule. -/
def State.fetchChecks (s : State) (k n0 cnt : Nat) (ls : List Nat) : Bad :=
  firstBad [
    badIf (cnt = 0) St.badOperand 1,
    badIf (ls.any (fun l => decide (pagesOf (s.layer k l).length < n0 + cnt) || decide (n0 < (s.layer k l).basePg)))
      St.badPosition 1]

/-- R37, R36: PAGE.FETCH's checks of its handle and its destination, and then of its layer (log 117). -/
def State.fetchFirst (s : State) (j : Job) : Bad :=
  match s.checkSeq j.ctx j.w0 8 0 none j.prev.isSome with
  | .error e => some e
  | .ok k =>
    let p := s.prof k
    firstBad [
      s.rngUp j.ctx j.w2.toNat (bits j.w1.toNat 32 32 * (p.frameKib * 1024) * (j.layersOf p.layers).length) 2,
      j.layerErr p.layers]

/-- R55: what PAGE.FETCH checks, on the lengths that it finds then. -/
def fetchChk (j : Job) (s : State) : Chk :=
  let k := seqKey j.w0.toNat
  match s.fetchFirst j with
  | some e => Chk.ofErr (some e) s
  | none => s.withTables j [k] (fun s =>
      Chk.ofErr (s.fetchChecks k (bits j.w1.toNat 0 32) (bits j.w1.toNat 32 32) (j.layersOf (s.prof k).layers)) s)

/-- R55: PAGE.FETCH. The pages that are resident are copied at once; the others once they have come (log 29). -/
def fetchBody (j : Job) (s : State) : Out :=
  let k := seqKey j.w0.toNat
  let cnt := bits j.w1.toNat 32 32
  let size := (s.prof k).frameKib * 1024
  let ls := j.layersOf (s.prof k).layers
  let todo := (fetchList ls (bits j.w1.toNat 0 32) cnt).filter (fun x => !(j.snap.copied.contains x.1))
  let (fs, away, gone, s1) := (s.walked k).fetchWalk k todo
  let bad := fs.findSome? (fun f => s1.mem.readErr (viewBase f.2) size)
  let s2 := (s1.fetchCopy j.w2.toNat size fs).hearthBytes j (2 * size * fs.length)
  let copied := j.snap.copied ++ fs.map (·.1)
  match bad with
  | some e => fails e.1 e.2 s2
  | none =>
    if !away.isEmpty then (s2.keepSnap j.site { j.snap with copied := copied }).awaitPages j away.eraseDups 0
    else
      let d : Done := if gone.isEmpty then { result := BitVec.ofNat 64 (copied.length * size) } else
        { status := if gone.any id then St.mediaLost else St.recompute, detail := gone.length }
      .done (s2.stored j.w2.toNat (cnt * size * ls.length) d) s2

/-- R55: PAGE.FETCH. -/
def execPageFetch (a : At) (s : State) : Host.Outcome State Fault Refusal := .next (runHob 0x22 a fetchChk fetchBody s)

/-! ### Rows of KV.APPEND (R71-R74) -/

/-- R74: n values in QFMT from address a on, as FP32 words. -/
def State.values (s : State) (a n : Nat) (fp32 : Bool) : List (BitVec 32) :=
  (List.range n).map (fun i => if fp32 then BitVec.ofNat 32 (s.field (a + 4 * i) 4) else ofBf16 (s.field (a + 2 * i) 2))

/-- R71, R73, R74: one head of one slot in a format: payload and scales. -/
def packHead (f : Fmt) (xs : List (BitVec 32)) : List Byte × List Byte :=
  match f with
  | .kvb16 => (xs.flatMap (fun x => leBytes 2 (toBf16 x)), [])
  | .kvi8 =>
    let bs := (chunks 32 xs.length xs).map (quantBlock 127)
    (bs.flatMap (fun b => packBytes b.2), bs.map (fun b => BitVec.ofNat 8 b.1))
  | .kvi4 =>
    let bs := (chunks 32 xs.length xs).map (quantBlock 7)
    (bs.flatMap (fun b => packNibbles b.2), bs.map (fun b => BitVec.ofNat 8 b.1))

/-- R74: a row of values as a row in page format. -/
def packRow (p : Profile) (xs : List (BitVec 32)) : List Byte :=
  let n := p.kvheads * p.hdim
  let heads (f : Fmt) (ys : List (BitVec 32)) : List Byte :=
    let hs := (chunks p.hdim p.kvheads ys).map (packHead f)
    hs.flatMap (·.1) ++ hs.flatMap (·.2)
  heads p.kfmt (xs.take n) ++ heads p.vfmt (xs.drop n)

/-- R74: a value that KV.APPEND refuses: no finite number, or one that a KVB16 section would hold as an infinity. -/
def badValue (f : Fmt) (x : BitVec 32) : Bool := fpBad x || (f == .kvb16 && toBf16 x % 32768 == 0x7F80)

/-- R55, R74: bytes of an input row. -/
def rowStride (p : Profile) (prequant fp32 : Bool) : Nat :=
  if prequant then p.rowBytes else 2 * p.kvheads * p.hdim * (if fp32 then 4 else 2)

/-- R74: an input row in page format; none where it is refused. -/
def State.inputRow (s : State) (p : Profile) (a : Nat) (prequant fp32 : Bool) : Option (List Byte) :=
  if prequant then some (s.peek a p.rowBytes)
  else
    let n := p.kvheads * p.hdim
    let xs := s.values a (2 * n) fp32
    if (xs.take n).any (badValue p.kfmt) || (xs.drop n).any (badValue p.vfmt) then none else some (packRow p xs)

/-! ### KV.APPEND (R86-R90) -/

/-- One entry of KV.APPEND at one layer. -/
structure Append where
  /-- Sequence. -/
  seq : Nat := 0
  /-- Layer. -/
  layer : Nat := 0
  /-- Rows. -/
  rows : Nat := 0
  /-- Address of the first. -/
  src : Nat := 0
deriving DecidableEq, Repr

/-- R55: rows of earlier entries of a list for the same sequence. -/
def priorRows (es : List Entry) (i : Nat) (k : Nat) : Nat :=
  (es.take i).foldl (fun n e => if e.key = k then n + e.b else n) 0

/-- R55, R80: the checks of entry i of KV.APPEND at every covered layer. -/
def State.appendEntry (s : State) (ls : List Nat) (es : List Entry) (i : Nat) (e : Entry) : Bad :=
  badIf (ls.any (fun l =>
    let len := (s.layer e.key l).length + priorRows es i e.key
    (e.a != 0xFFFFFFFF && e.a != len) || decide (2 ^ 31 < len + e.b))) St.badPosition i

/-- R51, R55: the layers that a batch instruction covers in the profile of its descriptor. -/
def State.descLayers (s : State) (j : Job) (d : Desc) : List Nat :=
  match s.profileSlot d.profile with
  | some sl => j.layersOf (s.profile sl).layers
  | none => []

/-- R55: bytes of KV.APPEND's row buffer. -/
def State.appendBytes (s : State) (j : Job) : Nat :=
  let d := s.desc j.w0.toNat
  let p := match s.profileSlot d.profile with
    | some sl => s.profile sl
    | none => {}
  (s.entries j.w0.toNat d.count).foldl (fun n e => n + e.b) 0 * rowStride p j.inst.x1 (d.qfmt = 1) * (s.descLayers j d).length

/-- R51 steps 1 to 6: KV.APPEND's checks of its header and its ranges, which read no table. -/
def State.appendRanges (s : State) (j : Job) : Bad :=
  match s.badHeader j.ctx j.w0.toNat Desc.extra with
  | some e => some e
  | none => firstBad [s.badList j.ctx (s.desc j.w0.toNat), s.rngUp j.ctx j.w1.toNat (s.appendBytes j) 1]

/-- R55: KV.APPEND's checks. -/
def State.appendChecks (s : State) (j : Job) : Bad :=
  let d := s.desc j.w0.toNat
  firstBad [
    s.appendRanges j,
    s.badEntries j j.w0.toNat d (fun i e => s.appendEntry (s.descLayers j d) (s.entries j.w0.toNat d.count) i e),
    s.mem.readErr j.w1.toNat (s.appendBytes j)]

/-- R55: the entries at every covered layer, in the order of the row buffer. -/
def appendList (ls : List Nat) (es : List Entry) (src stride : Nat) : List Append :=
  let total := es.foldl (fun n e => n + e.b) 0
  (List.range ls.length).flatMap (fun t =>
    (List.range es.length).map (fun i =>
      let e := es.getD i {}
      { seq := e.key, layer := ls.getD t 0, rows := e.b
        src := src + (t * total + (es.take i).foldl (fun n x => n + x.b) 0) * stride }))

/-- R86, R89: the open page of a layer that the next append writes, when it does not begin a page. -/
def State.openPage (s : State) (k l : Nat) : Option Nat :=
  let n := (s.layer k l).length
  if n % 16 = 0 then none else some (s.pte k l (n / 16)).handle

/-- R55, R89: the open page of a layer has been dropped. -/
def State.openGone (s : State) (k l : Nat) : Bool :=
  let n := (s.layer k l).length
  n % 16 != 0 && (match s.meet k l (n / 16) with
    | .gone _ => true
    | _ => false)

/-- R88, R89: a page that KV.APPEND needs. -/
structure Need where
  /-- Sequence. -/
  seq : Nat := 0
  /-- Layer. -/
  layer : Nat := 0
  /-- Logical page. -/
  page : Nat := 0
  /-- R89: the shared open page that it is a private copy of. -/
  copyOf : Option Nat := none
deriving DecidableEq, Repr

/-- R88, R89: the pages that a list of entries needs, in order; `len` gives the lengths reached so far. -/
def State.needs (s : State) : List Append → Tbl Nat → List Need → List Need
  | [], _, acc => acc.reverse
  | e :: r, lens, acc =>
    let key := e.layer + 1024 * e.seq
    let len := lens.lookD key (s.layer e.seq e.layer).length
    if e.rows = 0 then s.needs r lens acc
    else
      let fresh := (pageRange (pagesOf len) (pagesOf (len + e.rows))).map
        (fun n => ({ seq := e.seq, layer := e.layer, page := n } : Need))
      let cow := match (if lens.has key then none else s.openPage e.seq e.layer) with
        | none => []
        | some h =>
          if 1 + (acc.filter (fun x => x.copyOf == some h)).length < (s.page h).refcnt
          then [({ seq := e.seq, layer := e.layer, page := len / 16, copyOf := some h } : Need)] else []
      s.needs r (lens.put key (len + e.rows)) ((cow ++ fresh).reverse ++ acc)

/-- R210: frames and handles for every page needed, before anything is written. -/
def State.allocNeeds (busy : List Nat) : List Need → State → List (Need × Nat) → Plan × List (Need × Nat)
  | [], s, acc => (.ready s, acc)
  | x :: r, s, acc =>
    match s.newOpen x.seq x.layer x.page busy with
    | .waits n => (.waits (seqHome x.seq) (2 * r.length + n), [])
    | .noSpace => (.noSpace, [])
    | .got h s' => State.allocNeeds (h :: busy) r s' ((x, h) :: acc)

/-- R87: the token id of a position, where one can be read. -/
def State.tokenAt (s : State) (k pos : Nat) : Option Nat :=
  let q := s.seq k
  let a := q.tokSrc + 4 * pos
  if pos < q.tokCnt && s.owns q.ctx a 4 && (s.mem.readErr a 4).isNone then some (s.field a 4) else none

/-- R88, R89, R93: the page that position `pos` goes to: a new page, a private copy, or the open page as it stands. -/
def State.pageFor (s : State) (got : List (Need × Nat)) (k l pos : Nat) : Nat × State :=
  let p := s.prof k
  let n := pos / 16
  match got.find? (fun x => x.1.seq == k && x.1.layer == l && x.1.page == n) with
  | none => ((s.pte k l n).handle, s)
  | some (x, h) =>
    if (s.pte k l n).handle = h && (s.pte k l n).v then (h, s)
    else
      match x.copyOf with
      | some g =>
        let s := ((s.touch g).copyInto p g h (pos % 16)).dropRef k l n
        (h, s.setPte k l n (s.ownPte k h))
      | none =>
        let s := s.initFrame k l n h
        let s := match p.ring with
          | some r => if r ≤ n then s.dropRef k l (n - r) else s
          | none => s
        (h, s.setPte k l n (s.ownPte k h))

/-- R86: one position appended: the row, the token id, FILL, and LENGTH last. -/
def State.appendPos (s : State) (got : List (Need × Nat)) (k l : Nat) (row : List Byte) (doSeal : Bool) : State :=
  let p := s.prof k
  let pos := (s.layer k l).length
  let t := pos % 16
  let (h, s) := s.pageFor got k l pos
  let s := ((p.rowParts t).foldl (fun (c : List Byte × State) q =>
    (c.1.drop q.2, c.2.poke (viewBase h + q.1) (c.1.take q.2))) (row, s)).2
  let tok := s.tokenAt k pos
  let s := s.pokeHdr h (32 + 4 * t) 4 (tok.getD 0xFFFFFFFF)
  let s := if tok.isNone then
      (s.pokeHdr h 25 3 (s.pgFlags h ||| 16)).updPage h (fun g => { g with noIds := true }) else s
  let s := s.setFill h (t + 1)
  let y := s.layer k l
  let base := match p.ring with
    | some r => Nat.max y.basePg (pos / 16 + 1 - r)
    | none => y.basePg
  let s := s.setLayer k l { y with
    length := pos + 1, openH := h, basePg := base, depth := if p.ring.isSome then 0 else Nat.max y.depth (depthFor (pos + 1)) }
  if doSeal && t = 15 then (s.sealUpTo k l (pageRange base (pos / 16 + 1))).2.fixOpen k l else s

/-- R55: the rows of one entry at one layer. -/
def State.appendRows (got : List (Need × Nat)) (e : Append) (stride : Nat) (prequant fp32 doSeal : Bool) (s : State) : State :=
  let p := s.prof e.seq
  (List.range e.rows).foldl (fun s t =>
    s.appendPos got e.seq e.layer ((s.inputRow p (e.src + t * stride) prequant fp32).getD []) doSeal) s

/-- R71, R72: bytes of one position's keys, values and scales in a frame. -/
def Profile.posBytes (p : Profile) : Nat :=
  p.kvheads * (p.headBytes p.kfmt + p.headScales p.kfmt + p.headBytes p.vfmt + p.headScales p.vfmt)

/-- R79, R85-R90: KV.APPEND once its checks have passed. While it allocates, the open pages it writes or copies keep their frames. -/
def appendRun (j : Job) (d : Desc) (es : List Entry) (s : State) : Out :=
  let ls := s.descLayers j d
  let p := match s.profileSlot d.profile with
    | some sl => s.profile sl
    | none => {}
  let fp32 := d.qfmt = 1
  let stride := rowStride p j.inst.x1 fp32
  let all := appendList ls es j.w1.toNat stride
  if all.any (fun e => (List.range e.rows).any (fun t => (s.inputRow p (e.src + t * stride) j.inst.x1 fp32).isNone))
  then fails St.badOperand 1 s
  else
    let stuck := ((es.map Entry.key).eraseDups).filter (fun k => ls.any (fun l => s.openGone k l))
    let todo := all.filter (fun e => !(stuck.contains e.seq))
    let needs := s.needs todo [] []
    let busy := todo.filterMap (fun e => s.openPage e.seq e.layer)
    if !needs.isEmpty && s.overQuota j.ctx needs.length then fails St.quota 0 s
    else
      let s0 := s.use j.site busy
      match State.allocNeeds busy needs s0 [] with
      | (.waits d n, _) => waitAlloc j d n s0
      | (.noSpace, _) => fails St.noSpace 0 s
      | (.ready s1, got) =>
        let s2 := todo.foldl (fun s e => s.appendRows got e stride j.inst.x1 fp32 j.inst.x0) s1
        if s.outgrown s2 then fails St.noSpace 0 s
        else
        let lost := stuck.flatMap (fun k => (ls.filter (fun l => s.openGone k l)).map (fun l => (k, l)))
        let s3 := lost.foldl (fun s x => (s.walk x.1 x.2 ((s.layer x.1 x.2).length / 16)).2) s2
        let ms := lost.flatMap (fun x =>
          let len := (s.layer x.1 x.2).length
          missesOf x.1 x.2 len [(len / 16, false)])
        let moved := todo.foldl (fun n e => n + e.rows * (stride + p.posBytes)) 0
        .done (missDone (if ms.isEmpty then todo.foldl (fun n e => n + e.rows) 0 else 0) d.mrlist d.mrcap ms)
          ((s3.writeMisses d.mrlist d.mrcap ms).hearthBytes j moved)

/-- R55, R202: what KV.APPEND checks. -/
def appendChk (j : Job) (s : State) : Chk :=
  match s.appendRanges j with
  | some e => Chk.ofErr (some e) s
  | none => s.tableChk j (s.desc j.w0.toNat) (fun s => Chk.ofErr (s.appendChecks j) s)

/-- R55: KV.APPEND. -/
def appendBody (j : Job) (s : State) : Out :=
  let d := s.desc j.w0.toNat
  let es := s.entries j.w0.toNat d.count
  appendRun j d es (es.foldl (fun s e => s.walked e.key) s)

/-- R55: KV.APPEND. -/
def execKvAppend (a : At) (s : State) : Host.Outcome State Fault Refusal := .next (runHob 0x30 a appendChk appendBody s)

end Machine
end Sys2Proof
end

