-- ==== Sys2Proof/Machine/Score.lean ====
section
/-! DEFINITION. The arithmetic of the Fireboxes (R135-R147, R157, R161, R171): keys and values of a page, products and
scores, Methods M and S, joins, and the rows that leave a Firebox. Each value is worked out as the spec's steps say; a finished
row is that, or any row within the bound of R161 (log 12). -/

namespace Sys2Proof
namespace Machine

/-! ### Keys and values of a page (R71, R72, R143) -/

/-- R71: 32 integers of a block of a format, from the bytes that hold them; of KVB16 the exact values in units of 2^-149. -/
def blockInts (f : Fmt) (bs : List Byte) : List Int :=
  match f with
  | .kvb16 => (chunks 2 32 bs).map (fun b => fpVal (ofBf16 (ofBytes b)))
  | .kvi8 => bs.map (fun b => b.toInt)
  | .kvi4 => bs.flatMap (fun b => [(b.extractLsb' 0 4).toInt, (b.extractLsb' 4 4).toInt])

/-- R143: a KVB16 block that holds a NaN or an infinity: the spec states no conversion of it. -/
def blockBad (f : Fmt) (bs : List Byte) : Bool := f == .kvb16 && (chunks 2 32 bs).any (fun b => fpBad (ofBf16 (ofBytes b)))

/-- R71, R72: the bytes of block k of one head at one slot of a frame. -/
def State.kvBytes (s : State) (p : Profile) (key : Bool) (view head slot k : Nat) : List Byte :=
  let (ko, _, vo, _, _) := p.sections
  let f := if key then p.kfmt else p.vfmt
  s.peek (view + (if key then ko else vo) + (head * 16 + slot) * p.headBytes f + k * f.block) f.block

/-- R72: the scale of that block, as FP32. -/
def State.kvScale (s : State) (p : Profile) (key : Bool) (view head slot k : Nat) : BitVec 32 :=
  let (_, kso, _, vso, _) := p.sections
  let f := if key then p.kfmt else p.vfmt
  let c := s.field (view + (if key then kso else vso) + (head * 16 + slot) * p.headScales f + k) 1
  fpOf (scaleVal c * 2 ^ 132 : Nat) 1

/-- R71, R72, R143: block k of one head at one slot of a frame as the MAC array takes it: its scale and its integers. A KVB16 block
is converted to 16-bit mantissas with a shared exponent; of one that holds a NaN or an infinity they are free (log 120). -/
def State.kvBlock (s : State) (p : Profile) (key : Bool) (view head slot k : Nat) : BitVec 32 × List Int :=
  let f := if key then p.kfmt else p.vfmt
  let bs := s.kvBytes p key view head slot k
  match f with
  | .kvb16 =>
    if blockBad f bs then (0x3F800000, (List.range 32).map (fun t => (Config.badBlock bs t).toInt))
    else
      let (e, ms) := blockFloat 16 (blockInts f bs)
      (fpOf (2 ^ e : Nat) 1, ms)
  | _ => (s.kvScale p key view head slot k, blockInts f bs)

/-- R71, R72, R161: one head at one slot of a frame as decoded, in units of 2^-149; none where a block has no stated value. -/
def State.kvExact (s : State) (p : Profile) (key : Bool) (view head slot : Nat) : Option (List Int) :=
  let f := if key then p.kfmt else p.vfmt
  let bs := (List.range p.hdim32).map (fun k => (k, s.kvBytes p key view head slot k))
  if bs.any (fun b => blockBad f b.2) then none
  else some (bs.flatMap (fun b =>
    match f with
    | .kvb16 => blockInts f b.2
    | _ => (blockInts f b.2).map (fun x => x * fpVal (s.kvScale p key view head slot b.1))))

/-- The exact sum of products of two lists. -/
def dot (xs ys : List Int) : Int := (List.zipWith (· * ·) xs ys).foldl (· + ·) 0

/-- R141: n FP32 values converted in blocks of 32 to 8-bit mantissas, as exact values in units of 2^-149. -/
def convertRow (xs : List (BitVec 32)) : List Int :=
  (chunks 32 xs.length xs).flatMap (fun b => blockVals (blockFloat 8 (b.map fpVal)))

/-- R142, R179: the product of a converted row with a key or a value: block sums times their scales, added in ascending k. -/
def State.product (s : State) (p : Profile) (key : Bool) (q : List Int) (view head slot : Nat) : BitVec 32 :=
  (List.range p.hdim32).foldl (fun acc k =>
    let (c, xs) := s.kvBlock p key view head slot k
    fpAdd acc (fpMul (fpOf (dot ((q.drop (32 * k)).take 32) xs) 1) c)) 0

/-- R137, R142: the score of a converted query against a key. -/
def State.score (s : State) (p : Profile) (q : List Int) (view head slot : Nat) : BitVec 32 :=
  fpMul (sigma p.hdim32) (s.product p true q view head slot)

/-- R137, R161: the reference score, in units of 2^-447. -/
def State.scoreRef (s : State) (p : Profile) (q : List Int) (view head slot : Nat) : Option Int :=
  (s.kvExact p true view head slot).map (fun k => fpVal (sigma p.hdim32) * dot q k)

/-! ### A row against the positions of a unit -/

/-- A key position of a unit: where its page stands, its slot, and whether the row meets it. -/
structure KeyAt where
  /-- View of the page. -/
  view : Nat := 0
  /-- Slot in the page. -/
  slot : Nat := 0
  /-- R145, R167: the row meets it. -/
  meets : Bool := true
deriving DecidableEq, Repr

/-- R57, R157: an unnormalised result: row maximum, row sum, accumulator. -/
structure Part where
  /-- R137: m. -/
  m : BitVec 32 := fpNegInf
  /-- R147: l. -/
  l : BitVec 32 := 0
  /-- R147: the accumulator. -/
  acc : List (BitVec 32) := []
deriving DecidableEq, Repr

/-- R144, R179: one block of at most 32 positions with their weights, its values (or keys) added to the accumulator. -/
def State.weigh (s : State) (p : Profile) (key : Bool) (head : Nat) (ks : List (KeyAt × BitVec 32))
    (acc : List (BitVec 32)) : List (BitVec 32) :=
  let w := if (if key then p.kfmt else p.vfmt) == .kvb16 then 16 else 8
  (List.range p.hdim32).flatMap (fun k =>
    let bs := ks.map (fun x => (s.kvBlock p key x.1.view head x.1.slot k, x.2))
    let (e, ms) := blockFloat w (bs.map (fun b => fpVal (fpMul b.2 b.1.1)))
    (List.range 32).map (fun t =>
      fpOf (fpVal (acc.getD (32 * k + t) 0) + dot ms (bs.map (fun b => b.1.2.getD t 0)) * (2 ^ e : Nat)) 1))

/-- R142, R145: the scores of a row against positions; −∞ where it does not meet them. -/
def State.scores (s : State) (p : Profile) (q : List Int) (head : Nat) (ks : List KeyAt) : List (BitVec 32) :=
  ks.map (fun k => if k.meets then s.score p q k.view head k.slot else fpNegInf)

/-- R145, R147: exp(s - m) of each score; 0 for −∞. -/
def probs (m : BitVec 32) (sc : List (BitVec 32)) : List (BitVec 32) :=
  sc.map (fun x => if x = fpNegInf then 0 else fpExp (fpAdd x (fpNegate m)))

/-- R147: Method M over the positions of a unit. -/
def State.methodM (s : State) (p : Profile) (q : List Int) (head : Nat) (ks : List KeyAt) : Part :=
  let zero := List.replicate p.hdim (0 : BitVec 32)
  let sc := s.scores p q head ks
  let m := sc.foldl fpMax fpNegInf
  if m = fpNegInf then { acc := zero }
  else
    let ps := probs m sc
    let xs := List.zip ks ps
    { m := m, l := ps.foldl fpAdd 0
      acc := (chunks 32 xs.length xs).foldl (fun acc b => s.weigh p false head b acc) zero }

/-- R157: a result rescaled to a row maximum that is not below its own. -/
def Part.raise (r : Part) (m : BitVec 32) : Part :=
  if fpLt r.m m && r.m != fpNegInf then
    let f := fpExp (fpAdd r.m (fpNegate m))
    { m := m, l := fpMul f r.l, acc := r.acc.map (fpMul f) }
  else { r with m := m }

/-- R157, R171: one block of Method S. -/
def State.methodStep (s : State) (p : Profile) (q : List Int) (head : Nat) (r : Part) (ks : List KeyAt) : Part :=
  let sc := s.scores p q head ks
  let m := sc.foldl fpMax r.m
  if m = fpNegInf then r
  else
    let up := r.raise m
    let ps := probs m sc
    { m := m, l := ps.foldl fpAdd up.l, acc := s.weigh p false head (List.zip ks ps) up.acc }

/-- R171: Method S over the blocks of a unit. -/
def State.methodS (s : State) (p : Profile) (q : List Int) (head : Nat) (bs : List (List KeyAt)) : Part :=
  bs.foldl (fun r b => s.methodStep p q head r b) { acc := List.replicate p.hdim 0 }

/-- R157: the running-maximum join of an earlier result with a later one. -/
def Part.join (r x : Part) : Part :=
  if x.m = fpNegInf then r
  else if r.m = fpNegInf then x
  else
    let m := fpMax r.m x.m
    let a := r.raise m
    let b := x.raise m
    { m := m, l := fpAdd a.l b.l, acc := List.zipWith fpAdd a.acc b.acc }

/-- R148, R151, R152: results joined in ascending position order. -/
def joinParts (d : Nat) (ps : List Part) : Part := ps.foldl Part.join { acc := List.replicate d 0 }

/-! ### The reference (R161) -/

/-- R161: a row's reference: the greatest score (units of 2^-447), Σ p (2^-256), and of each element Σ p v and Σ p |v|
(2^-405). -/
structure RowRef where
  /-- The row maximum. -/
  top : Int := 0
  /-- Σ p. -/
  sum : Nat := 0
  /-- Σ p v. -/
  num : List Int := []
  /-- Σ p abs v. -/
  mag : List Nat := []
deriving DecidableEq, Repr

/-- R161: the reference of a row over the positions that it meets; none where an input has no stated value. -/
def State.rowRef (s : State) (p : Profile) (q : List Int) (head : Nat) (ks : List KeyAt) : Option RowRef :=
  match (ks.filter (·.meets)).mapM (fun k =>
      match s.scoreRef p q k.view head k.slot, s.kvExact p false k.view head k.slot with
      | some x, some v => some (x, v)
      | _, _ => none) with
  | none => none
  | some [] => none
  | some (x :: xs) =>
    let top := xs.foldl (fun m y => max m y.1) x.1
    let ps := (x :: xs).map (fun y => (expRef 447 (y.1 - top), y.2))
    some {
      top := top
      sum := ps.foldl (fun n y => n + y.1) 0
      num := (List.range p.hdim).map (fun d => ps.foldl (fun n y => n + y.1 * y.2.getD d 0) 0)
      mag := (List.range p.hdim).map (fun d => ps.foldl (fun n y => n + y.1 * (y.2.getD d 0).natAbs) 0) }

/-- R161: 1 / ε. -/
def Profile.invEps (p : Profile) : Nat := if p.kfmt == .kvb16 && p.vfmt == .kvb16 then 4096 else 1024

/-! ### Rows out (R136, R158) -/

/-- R136: a value in OFMT. -/
def outValue (fp32 : Bool) (x : BitVec 32) : List Byte := if fp32 then leBytes 4 x.toNat else leBytes 2 (toBf16 x)

/-- R161: of these words, the first that lies within 2 ulp of the reference row maximum, or the word nearest to it. -/
def RowRef.pickM (f : RowRef) (ws : List (BitVec 32)) : BitVec 32 :=
  (ws.find? (fun w => withinUlp 2 w f.top (2 ^ 298))).getD (fpOf f.top (2 ^ 298))

/-- R161: of these words, the first that is at least 1 and lies within ε / 16 of the reference row sum taken from the exported m, or the
word nearest to it: partials that ATT.MERGE joins then keep their weights (log 12). -/
def RowRef.pickL (f : RowRef) (inv : Nat) (m : BitVec 32) (ws : List (BitVec 32)) : BitVec 32 :=
  let sum := f.sum * expRef 447 (f.top - fpVal m * (2 ^ 298 : Nat))
  fpPick (ws.filter (fun w => !(fpNeg w) && !(fpLt w 0x3F800000))) sum (2 ^ 363) sum (16 * inv * 2 ^ 363)

/-- R157, R161: an unnormalised result as it is exported: the worked-out one, or the part's own (free value n) within three
quarters of the bound of R161, so that rows which ATT.MERGE joins from such partials keep the whole bound (log 12). -/
def Part.exported (r : Part) (ref : Option RowRef) (inv n : Nat) : Part :=
  let own := Config.fpFree n
  match ref with
  | none => { m := own 256, l := own 257, acc := (List.range r.acc.length).map own }
  | some f =>
    let m := f.pickM [own 256, r.m]
    let l := f.pickL inv m [own 257, r.l]
    { m := m, l := l
      acc := (List.range r.acc.length).map (fun d =>
        fpPick [own d, r.acc.getD d 0] (f.num.getD d 0 * fpMag l) (f.sum * 2 ^ 149) (3 * f.mag.getD d 0 * fpMag l)
          (4 * inv * f.sum * 2 ^ 149)) }

/-- R147, R161: an accumulator normalised once, under the same bound, which holds for the FP32 word before it is written in OFMT (log 12). -/
def Part.normal (r : Part) (ref : Option RowRef) (inv n : Nat) : List (BitVec 32) :=
  let own (d : Nat) := Config.fpFree n (258 + d)
  match ref with
  | none => (List.range r.acc.length).map own
  | some f => (List.range r.acc.length).map (fun d =>
      fpPick [own d, fpDiv (r.acc.getD d 0) r.l] (f.num.getD d 0) f.sum (f.mag.getD d 0) (inv * f.sum))

/-- R147, R158: what leaves for a finished row: its elements and its (m, l); of a row that met no key zeros, −∞ and 0. -/
def Part.finished (r : Part) (ref : Option RowRef) (inv n : Nat) (partial_ : Bool) : List (BitVec 32) × Part :=
  if r.m = fpNegInf then (r.acc.map (fun _ => 0), { r with l := 0 })
  else
    let x := r.exported ref inv n
    (if partial_ then x.acc else r.normal ref inv n, x)

/-- R136: (m, l) of a row and head, as bytes. -/
def Part.stat (r : Part) : List Byte := leBytes 4 r.m.toNat ++ leBytes 4 r.l.toNat

end Machine
end Sys2Proof
end

