-- ==== Sys2Proof/Machine/Units.lean ====
section
/-! DEFINITION. The dispatcher of a die: how attention instructions become units (R135, R139, R148, R150, R152, R170, R443),
which Firebox runs each (R150 step 4, R378), what they count (R146, R164, R185), and what the attention instructions share (R153,
R154, R162, R163). -/

namespace Sys2Proof
namespace Machine

/-- R166: Fireboxes of a die in service, at most 64. -/
def State.active (s : State) (d : Side) : Nat := Nat.min 64 (s.eng.get d).fireboxes.length

/-- R135: the group size. -/
def Profile.group (p : Profile) : Nat := Nat.max 1 (p.qheads / Nat.max p.kvheads 1)

/-- An entry of an attention instruction, resolved. -/
structure AttEntry where
  /-- Number in the descriptor. -/
  i : Nat := 0
  /-- Sequence. -/
  key : Nat := 0
  /-- First key position of its range. -/
  start : Nat := 0
  /-- First key position that is read: above `start` where the window begins later (R94). -/
  low : Nat := 0
  /-- End of its keys. -/
  stop : Nat := 0
  /-- First query position. -/
  q0 : Nat := 0
  /-- Queries. -/
  rows : Nat := 1
  /-- Row offset in the buffers. -/
  row0 : Nat := 0
deriving DecidableEq, Repr

/-! ### Cutting (R148, R150, R443) -/

/-- R150: the pages that a unit spans. -/
def AttUnit.pages (u : AttUnit) : Nat := pagesOf u.hi - u.lo / 16

/-- R150: its score count. -/
def AttUnit.scores (u : AttUnit) : Nat := (u.hi - u.lo) * u.rows

/-- R150: n pages cut into k runs whose lengths differ by at most one. -/
def cutPages (n k : Nat) : List Nat := (List.range k).map (fun i => n / k + (if i < n % k then 1 else 0))

/-- A unit cut at page boundaries into slices of these numbers of pages; the last takes what is left. -/
def AttUnit.cutAt (u : AttUnit) : List Nat → List AttUnit
  | [] => [u]
  | [_] => [u]
  | n :: ns =>
    let b := (u.lo / 16 + n) * 16
    { u with hi := b } :: AttUnit.cutAt { u with lo := b } ns

/-- R150: a unit cut into k slices. -/
def AttUnit.cut (u : AttUnit) (k : Nat) : List AttUnit :=
  if k ≤ 1 then [u] else AttUnit.cutAt { u with slice := true } (cutPages u.pages k)

/-- R150 steps 1 and 2: a pair or shared unit beyond the slice limit is cut. -/
def AttUnit.sliced (maxSlices : Nat) (u : AttUnit) : List AttUnit :=
  let lim := Nat.max 16 (131072 / Nat.max u.rows 1 / 16 * 16)
  let n := u.hi - u.lo
  u.cut (if lim < n then Nat.min (maxSlices + 1) (ceilDiv n lim) else 1)

/-- R135: units of one pair, or of one shared run. -/
def AttUnit.samePair (u v : AttUnit) : Bool := u.head == v.head && u.entries == v.entries

/-- R150, R152: how many slices the pair of a unit has; the shared and the private part of a grouped pair count apart, the
model's choice (log 140). -/
def slicesOf (us : List AttUnit) (u : AttUnit) : Nat := (us.filter (fun v => v.slice && u.samePair v)).length

/-- R150: the first of the longest of a list; measured in pages, the model's choice (log 140). -/
def longest : List AttUnit → Option AttUnit
  | [] => none
  | u :: us => some (us.foldl (fun b v => if b.pages < v.pages then v else b) u)

/-- R150 step 3: the largest unit of at least 128 pages whose pair may have one more slice is halved. -/
def halveOnce (maxSlices : Nat) (us : List AttUnit) : Option (List AttUnit) :=
  (longest (us.filter (fun u =>
    decide (128 ≤ u.pages) && decide (slicesOf us u + (if u.slice then 1 else 2) ≤ maxSlices + 1)))).map (fun b =>
      us.flatMap (fun u => if u == b then b.cut 2 else [u]))

/-- R150 step 3: halving while the die has fewer units than active Fireboxes. -/
def balance (maxSlices active : Nat) : Nat → List AttUnit → List AttUnit
  | 0, us => us
  | f + 1, us =>
    if active ≤ us.length then us
    else
      match halveOnce maxSlices us with
      | none => us
      | some vs => balance maxSlices active f vs

/-- R443: a ring of classes 0 to 3 is enabled on a die. -/
def State.strictOn (s : State) (d : Side) : Bool := s.rings.vals.any (fun g => g.en && g.home == d && decide (g.cls.toNat < 4))

/-- R71, R72: bytes of the key and value sections of one head in one page. -/
def Profile.headPage (p : Profile) : Nat :=
  16 * (p.headBytes p.kfmt + p.headScales p.kfmt + p.headBytes p.vfmt + p.headScales p.vfmt)

/-- R443: the longest unit in pages whose floor estimate is not above `us` µs: its bytes at 400 GB/s, its half lane-operations
(`hl` a query-key product) at twice 4,096 × 1.45 G/s. -/
def pageLimit (p : Profile) (hl us rows : Nat) (whole : Bool := false) : Nat :=
  let b := if whole then 2 else 1
  Nat.max 1 (Nat.min (us * 400000 / Nat.max p.headPage 1) (b * (us * 11878400 / Nat.max (16 * b * rows * hl) 1)))

/-- R169, R443: the query-key products of a unit: of ATT.PREFILL and ATT.BWD those of whole blocks of 32 positions. -/
def AttUnit.products (u : AttUnit) (whole : Bool) : Nat := if whole then 32 * ceilDiv (u.hi - u.lo) 32 * u.rows else u.scores

/-- R443: a unit whose floor estimate exceeds BLOCK_US is split at page boundaries until none does. -/
def AttUnit.floored (p : Profile) (hl us : Nat) (whole : Bool) (u : AttUnit) : List AttUnit :=
  if us * 400000 < u.pages * p.headPage || us * 11878400 < u.products whole * hl then
    u.cut (ceilDiv u.pages (pageLimit p hl us u.rows whole))
  else [u]

/-! ### Assignment (R150 step 4, R378) -/

/-- R407: the attention instructions that a die has in dispatch or execution. -/
def State.attLive (s : State) (d : Side) : List JRec :=
  s.allRecs.filter (fun r => r.state == .issued && r.checked && decide (0x50 ≤ r.inst.opcode) && decide (r.inst.opcode ≤ 0x53)
    && (s.diesOf r).contains d)

/-- R150: a die on which an instruction would run holds 8 attention instructions already. -/
def State.attFull (s : State) (j : Job) : Bool := (s.jobDies j).any (fun d => decide (8 ≤ (s.attLive d).length))

/-- R378: what a switch of context counts as work: 2,048 beats at 128 scores a beat (log 76). -/
def switchWork : Nat := 262144

/-- R150 step 4, R378: the work that a Firebox has in hand, and the context whose units it took last. -/
structure FbxLoad where
  /-- Its number. -/
  n : Nat := 0
  /-- Scores assigned and unfinished. -/
  work : Nat := 0
  /-- R378: the context. -/
  ctx : Option Nat := none
deriving DecidableEq, Repr

/-- R378: a unit of a context joins the work of a Firebox. -/
def FbxLoad.take (b : FbxLoad) (c scores : Nat) : FbxLoad :=
  { b with ctx := some c, work := b.work + scores + (if b.ctx.isSome && b.ctx != some c then switchWork else 0) }

/-- R150: the work of the Fireboxes of a die, over every attention instruction in flight. -/
def State.fbxLoads (s : State) (d : Side) : List FbxLoad :=
  let e := s.eng.get d
  let us := (s.attLive d).flatMap (fun r => (r.snap.units.filter (fun u => u.die == d)).map (fun u => (r.ctx, u)))
  (e.fireboxes.take 64).map (fun n =>
    (us.filter (fun x => x.2.fbx == n)).foldl (fun b x => b.take x.1 x.2.scores) { n := n, ctx := e.fbxHolds.look n })

/-- The first of the Fireboxes with the least work. -/
def idlest : List FbxLoad → Nat
  | [] => 0
  | b :: bs => (bs.foldl (fun m x => if x.work < m.work then x else m) b).n

/-- Units in descending score count; equal ones stay in order. -/
def insScores (u : AttUnit) : List AttUnit → List AttUnit
  | [] => [u]
  | v :: vs => if v.scores ≤ u.scores then u :: v :: vs else v :: insScores u vs

/-- R150 step 4: units assigned in descending score count, each to the Firebox with the least work. -/
def assignUnits (c : Nat) : List FbxLoad → List AttUnit → List AttUnit
  | _, [] => []
  | ls, u :: us =>
    let n := idlest ls
    { u with fbx := n } :: assignUnits c (ls.map (fun b => if b.n == n then b.take c u.scores else b)) us

/-- R150 steps 3 and 4, R443: the units of a die, balanced, split to the floor estimate, assigned. -/
def State.placeUnits (s : State) (j : Job) (p : Profile) (hl : Nat) (d : Side) (us : List AttUnit) (whole : Bool := false) : List AttUnit :=
  let ctl := s.fbxCtl.toNat
  let us := if bitOf ctl 0 then balance (bits ctl 8 6) (s.active d) 64 us else us
  let us := if s.strictOn d then us.flatMap (AttUnit.floored p hl s.gbl.blockUs whole) else us
  assignUnits j.ctx (s.fbxLoads d) ((us.map (fun u => { u with die := d })).foldr insScores [])

/-- R149, R150: the units of both dies, each from the entries homed on it. -/
def State.formUnits (s : State) (j : Job) (p : Profile) (hl : Nat) (form : List AttEntry → List AttUnit) (es : List AttEntry)
    (whole : Bool := false) : List AttUnit :=
  [Side.west, Side.east].flatMap (fun d => s.placeUnits j p hl d (form (es.filter (fun e => seqHome e.key == d))) whole)

/-! ### Running (R148, R164, R378, R456, R462) -/

/-- R148: the most scores that a unit works on at once. -/
def subScores : Nat := 17039360

/-- R148: a unit of more scores runs as consecutive sub-units: their first positions, and their length. -/
def AttUnit.subs (u : AttUnit) : List (Nat × Nat) :=
  let n := if u.scores ≤ subScores then u.hi - u.lo else Nat.max 16 (subScores / Nat.max u.rows 1 / 16 * 16)
  if n = 0 then [] else (List.range (ceilDiv (u.hi - u.lo) n)).map (fun t => (u.lo + t * n, Nat.min (u.lo + t * n + n) u.hi))

/-- R140, R148: scores of a unit beyond the scratch, of each of its sub-units. -/
def AttUnit.spill (u : AttUnit) : Nat := u.subs.foldl (fun n x => n + ((x.2 - x.1) * u.rows - 262144)) 0

/-- R146: half lane-operations of one forward query-key product of head dimension D. -/
def Profile.halfLanes (p : Profile) : Nat :=
  let c (f : Fmt) (b16 : Nat) : Nat :=
    match f with
    | .kvb16 => b16
    | .kvi8 => 2
    | .kvi4 => 1
  p.hdim * (c p.kfmt 4 + c p.vfmt 8)

/-- R378, R148: a Firebox takes a unit: where it holds another context's data, its SRAM is zeroed first; lines of its overflow area
that the unit writes are written under the context's key. -/
def Engines.takeUnit (e : Engines) (u : AttUnit) (c : Nat) (overflow : Bool) : Engines :=
  { e with
    fbxHolds := e.fbxHolds.put u.fbx c
    overflow := if overflow then e.overflow.put u.fbx c else e.overflow }

/-- R462: a unit starts or ends on its Firebox. -/
def State.traceUnit (s : State) (j : Job) (type : Nat) (u : AttUnit) : State :=
  s.trace u.die { type := type, cls := 1, unit := u.fbx, ctx := some j.ctx, ring := j.site.ring, layer := j.layer.toNat,
                  opid := j.inst.opid.toNat, index := j.site.index.toNat,
                  arg := u.entries.headD 0 + u.head * 2 ^ 12 + u.scores * 2 ^ 32 }

/-- R135, R164: the pairs that units cut into slices belong to. -/
def slicedPairs (us : List AttUnit) : List (Nat × Nat) :=
  ((us.filter (·.slice)).flatMap (fun u => u.entries.map (fun i => (i, u.head)))).eraseDups

/-- R148: the scores that units spill. -/
def spilled (us : List AttUnit) : Nat := us.foldl (fun n u => n + u.spill) 0

/-- R153: the units of an instruction that run to their end: those that carry a row of an entry that does not fail. -/
def unitsRun (us : List AttUnit) (good : Nat → Bool) : List AttUnit := us.filter (fun u => u.entries.any good)

/-- R164, R378, R456, R462: units of an instruction run: `hl` half lane-operations a product over the products that `prods`
gives; scores spill where `spills` says; `writes` says which units write their Firebox's overflow area (R148, R151, R183). -/
def State.runUnits (s : State) (j : Job) (us : List AttUnit) (hl : Nat) (prods : AttUnit → Nat) (spills : Bool) (writes : AttUnit → Bool) :
    State :=
  let ev (s : State) (e n : Nat) : State := s.ctxEvent j.ctx e 0 j.site.ring j.layer.toNat j.inst.opid.toNat n
  let sp := if spills then spilled us else 0
  let s := us.foldl (fun s u =>
    let s := (s.traceUnit j 4 u).traceUnit j 5 u
    { s with eng := s.eng.upd u.die (fun e => e.takeUnit u j.ctx (writes u)) }) s
  let s := ((s.count 0x03000100 us.length).count 0x03000108 (slicedPairs us).length).count 0x03000110 sp
  ev (ev s 0x0C (us.foldl (fun n u => n + prods u * hl) 0 / 2)) 0x0D sp

/-- R456: bytes of the key and value sections that units read, `pages` of each, with those of the buffers of their rows. -/
def sectionBytes (p : Profile) (us : List AttUnit) (pages : AttUnit → Nat) (bufs : Nat) : Nat :=
  us.foldl (fun n u => n + pages u * p.headPage) bufs


/-- R150: the units that carry a row of an entry against a KV head, in ascending position order: `at_` is its place among the rows
(or queries) of the unit. -/
def rowUnits (us : List AttUnit) (i head : Nat) (at_ : AttUnit → Nat) : List AttUnit :=
  let mine := us.filter (fun u => u.entries.contains i && u.head == head && decide (u.first ≤ at_ u) && decide (at_ u < u.first + u.count))
  mine.foldr (fun u vs => let (a, b) := vs.span (fun v => v.lo < u.lo); a ++ u :: b) []

/-! ### Checks shared by the attention instructions -/

/-- R155: the width order, KVB16 widest. -/
def Fmt.narrower (a b : Fmt) : Bool := decide (b.code < a.code)

/-- R155: the stored format of a profile is narrower than what the descriptor states. -/
def narrowKv (p : Profile) (d : Desc) : Bool :=
  p.kfmt.narrower (fmtOf d.kfmt) || p.vfmt.narrower (fmtOf d.vfmt)

/-- R51: the profile that a descriptor names. -/
def State.descProfile (s : State) (d : Desc) : Profile :=
  match s.profileSlot d.profile with
  | some sl => s.profile sl
  | none => {}

/-- R136: element size of a format code. -/
def eltSize (fp32 : Bool) : Nat := if fp32 then 4 else 2

/-- R94: the first position of the window of a query. -/
def Profile.windowLow (p : Profile) (q : Nat) : Nat := if p.window = 0 then 0 else q + 1 - p.window

/-- R94: the window of query q begins below what the ring still holds. -/
def State.windowGone (s : State) (p : Profile) (k l q : Nat) : Bool :=
  p.window != 0 && decide (p.windowLow q < 16 * (s.layer k l).basePg)

/-- R141: n values of a buffer hold a NaN or an infinity. -/
def State.badValues (s : State) (a n : Nat) (fp32 : Bool) : Bool := (s.values a n fp32).any fpBad

/-- R149, R154: a buffer that holds no defined rows: its bytes are free values. -/
def State.scramble (s : State) (a n : Nat) : State :=
  let f := s.fresh
  { s with fresh := f + 1 }.poke a ((List.range n).map (fun i => Config.freeByte f i))

/-- R154: the error-class statuses of a read. -/
def readFailed (st : Status) : Bool := st == St.uncorrectable || st == St.integrity || st == St.poison

/-- R149: a batch whose entries are homed on both dies. -/
def bothDies (es : List AttEntry) : Bool := es.any (fun e => seqHome e.key == .west) && es.any (fun e => seqHome e.key == .east)

/-- R149, R154: an instruction fails a check: where a read failed, or its batch is on both dies, no output row is defined
(`spoil`). -/
def State.attBadly (s : State) (es : List AttEntry) (spoil : State → State) (e : Status × Nat) : Chk :=
  .bad { status := e.1, detail := e.2 } (if readFailed e.1 || bothDies es then spoil s else s)

/-- R154, R174: an instruction fails before its entries are checked: where a read failed after the header gave its fields, no row of its
output buffer, n bytes, is defined; an extent that a header that cannot be read does not give is not known, and nothing is touched
(log 10). -/
def State.headBadly (s : State) (j : Job) (d : Desc) (n : Nat) (spoil : State → State) (e : Status × Nat) : Chk :=
  let known := (s.rng j.ctx j.w0.toNat 64 0).isNone && (s.mem.readErr j.w0.toNat 64).isNone && (s.profileSlot d.profile).isSome &&
    (s.rngUp j.ctx j.w2.toNat n 2).isNone
  s.attBadly [] (if known then spoil else id) e

/-- R149, R202: checks of the entries, made once their tables are resident; when the bound passes no output row is defined. -/
def State.attTables (s : State) (j : Job) (d : Desc) (es : List AttEntry) (spoil : State → State) (full : State → Chk) : Chk :=
  if (s.badEntries j j.w0.toNat d (fun _ _ => none)).isSome then full s
  else
    match s.tablesWait j (es.map (·.key)) with
    | some (some w, s) => .wait w s
    | some (none, s) => .bad { status := St.notResident } (spoil s)
    | none => full s

/-- R162, R175, R215: staging requests for layers ahead, sent at dispatch. -/
def State.lookahead (s : State) (j : Job) (look layers : Nat) (down : Bool) (spans : List (Nat × Nat × Nat)) : State :=
  if !s.drt.stageEn then s
  else
    (List.range (Nat.min look s.drt.stageDepth.toNat)).foldl (fun s t =>
      let d := t + 1
      let l := if down then (j.layer.toNat + layers * d - d) % Nat.max layers 1 else (j.layer.toNat + d) % Nat.max layers 1
      spans.foldl (fun s x =>
        let y := s.layer x.1 l
        (stagePages y.length y.basePg x.2.1 x.2.2).foldl (fun s n =>
          match s.meet x.1 l n with
          | .gone _ => s
          | .hit h => s.request h .staging d
          | .away h => s.request h .staging d) s) s) s

/-- R42, R149, R150, R162: an instruction whose checks have passed is dispatched: its sequences are walked, its lookahead requests are
sent, its units are kept. A die with 8 attention instructions takes it later, on the entries as they are then. -/
def State.dispatch (s : State) (j : Job) (d : Desc) (es : List AttEntry) (layers : Nat) (down : Bool)
    (spans : List (Nat × Nat × Nat)) (units : List AttUnit) : Chk :=
  if s.attFull j then .wait .run s
  else
  let s1 := es.foldl (fun s e => s.walked e.key) s
  .good { lens := es.map (·.stop), units := units } (s1.lookahead j d.lookahead layers down spans)

/-! ### Pages (R84, R153, R163) -/

/-- R153: an entry with the pages it reads, walked. -/
structure AttSeen where
  /-- The entry. -/
  e : AttEntry := {}
  /-- Pages read: logical page to handle. -/
  pages : Tbl Nat := []
  /-- Pages whose translation returned only now. -/
  fresh : List (Nat × Nat) := []
  /-- Handles that are not resident. -/
  away : List Nat := []
  /-- R153: it has missing pages, so it produces no row. -/
  fails : Bool := false
deriving DecidableEq, Repr

/-- R84, R153: the pages of every entry, walked in entry order, but for those translated before: entries with their pages, and the
missing ranges. -/
def State.attWalk (s : State) (l : Nat) (old : List (Nat × Nat × Nat)) (pages : AttEntry → List Nat) :
    List AttEntry → List AttSeen × List Miss × State
  | [] => ([], [], s)
  | e :: r =>
    let kept := (old.filter (fun x => x.1 == e.i)).map (·.2)
    let (seen, s1) := State.walkAll e.key l ((pages e).filter (fun n => !(kept.any (fun x => x.1 == n)))) s
    let (xs, ms, s2) := s1.attWalk l old pages r
    ({ e := e, pages := kept ++ seen.hits, fresh := seen.hits, away := seen.away, fails := !seen.gone.isEmpty } :: xs,
      missesOf e.key l (s.layer e.key l).length seen.gone ++ ms, s2)

/-- The first page of those read that an engine cannot read. -/
def State.attBad (s : State) (p : Profile) (xs : List AttSeen) : Bad :=
  xs.findSome? (fun x => x.pages.findSome? (fun q => s.mem.readErr (viewBase q.2) p.sections.2.2.2.2))

/-- R147, R167: the key positions [lo, hi) of an entry, with those that `meets` holds for. -/
def AttSeen.keys (x : AttSeen) (lo hi : Nat) (meets : Nat → Bool) : List KeyAt :=
  (pageRange lo hi).map (fun t => { view := viewBase (x.pages.lookD (t / 16) 0), slot := t % 16, meets := meets t })

/-- R163, R217: pages that a Firebox begins to wait on are counted as late. -/
def State.lateStage (s : State) (j : Job) (hs : List Nat) : State :=
  let n := (hs.filter (fun h =>
    match j.prev with
    | some (.pages l) => !(l.any (fun x => x.1 == h))
    | some (.expired l) => !(l.contains h)
    | _ => true)).length
  (s.count 0x03200128 n).ctxEvent j.ctx 0x07 0 j.site.ring j.layer.toNat j.inst.opid.toNat n

/-- R85, R153: what an instruction's walk found is kept in its record: the frames stay allocated. -/
def State.keepHits (s : State) (j : Job) (xs : List AttSeen) : State :=
  let hs := xs.flatMap (fun x => x.pages.map (fun q => (x.e.i, q.1, q.2)))
  let s := s.updRec j.site (fun r => { r with uses := (hs.map (fun x => x.2.2)).eraseDups, snap := { r.snap with hits := hs } })
  xs.foldl (fun s x => x.fresh.foldl (fun s q => s.engineRead q.2) s) s

/-- R150, R153: the pages that an entry's units span. -/
def unitPages (us : List AttUnit) (e : AttEntry) : List Nat :=
  ((us.filter (fun u => u.entries.contains e.i && u.head = 0)).flatMap (fun u => pageRange (u.lo / 16) (pagesOf u.hi))).foldl insNat []

/-- R153, R154, R163: an attention instruction whose units read these pages: it waits for pages away, ends by a read that failed or
by the residency bound with no output row defined (`spoil`), or runs to its end. An entry with a missing page waits for none. A value
that became a NaN or an infinity since the dispatch (`nan`) ends it with no output (R141). -/
def State.attRun (s : State) (j : Job) (p : Profile) (es : List AttEntry) (pages : AttEntry → List Nat)
    (bufs : List (Nat × Nat)) (nan : State → Bool) (spoil : State → State) (ends : List AttSeen → List Miss → State → Done × State) : Out :=
  let (xs, ms, s1) := s.attWalk j.layer.toNat j.snap.hits pages es
  let s2 := s1.keepHits j xs
  let away := ((xs.filter (fun x => !x.fails)).flatMap (·.away)).eraseDups
  match firstBad [bufs.findSome? (fun b => s2.mem.readErr b.1 b.2), s2.attBad p xs] with
  | some e => .done { status := e.1, detail := e.2 } (spoil s2)
  | none =>
    if away.isEmpty then
      if nan s2 then .done { status := St.badOperand, detail := 1 } s2
      else
      let (r, s3) := ends xs ms s2
      .done r s3
    else
      match (s2.lateStage j away).awaitPages j away 0 with
      | .done r s3 => .done r (spoil s3)
      | o => o

/-! ### Rows -/

/-- R135, R136: the converted query of a row and head. -/
def State.queryRow (s : State) (p : Profile) (a row head : Nat) (fp32 : Bool) : List Int :=
  convertRow (s.values (a + (row * p.qheads + head) * p.hdim * eltSize fp32) p.hdim fp32)

/-- R136, R158, R161: one row and head finished and written: elements, and statistics where they go. -/
def State.putRowOut (s : State) (p : Profile) (out row head : Nat) (fp32 partial_ : Bool) (stats : List Nat) (r : Part)
    (ref : Option RowRef) : State :=
  let n := row * p.qheads + head
  let (xs, x) := r.finished ref p.invEps s.fresh partial_
  let s := { s with fresh := s.fresh + 1 }.poke (out + n * p.hdim * eltSize fp32) (xs.flatMap (outValue fp32))
  stats.foldl (fun s a => s.poke (a + 8 * n) x.stat) s

end Machine
end Sys2Proof
end

