-- ==== Sys2Proof/Machine/Att.lean ====
section
/-! DEFINITION. ATT.DECODE and ATT.MERGE (R149-R163, R159-R161). -/

namespace Sys2Proof
namespace Machine

/-! ### Units of ATT.DECODE (R139, R150, R152) -/

/-- R93, R152: how many logical pages from 0 on, of n, two entries hold under the same handles; a ring holds none below its BASEPG. -/
def State.commonRun (s : State) (l k1 k2 n : Nat) : Nat :=
  let base := Nat.max (s.layer k1 l).basePg (s.layer k2 l).basePg
  ((List.range n).takeWhile (fun t => decide (base ≤ t) && (s.pte k1 l t).v && (s.pte k2 l t).v && (s.pte k1 l t).handle == (s.pte k2 l t).handle)).length

/-- R152: the groups of entries of one die whose key ranges start at 0: each a list of entries with its common run. Where the run of a
group is below 8 pages its members have private units only. -/
def State.groups (s : State) (l maxMembers : Nat) : Nat → List AttEntry → List (List AttEntry × Nat)
  | 0, _ => []
  | _ + 1, [] => []
  | f + 1, e :: es =>
    let first (x : AttEntry) : Bool := decide (0 < s.commonRun l e.key x.key 1)
    let mates := if e.start = 0 && maxMembers != 0 then (es.filter (fun x => x.start = 0 && first x)).take maxMembers else []
    let c := mates.foldl (fun c x => Nat.min c (s.commonRun l e.key x.key (Nat.min c (x.stop / 16)))) (e.stop / 16)
    (if mates.isEmpty then [([e], 0)] else if c < 8 then (e :: mates).map (fun x => ([x], 0)) else [(e :: mates, c)])
      ++ s.groups l maxMembers f (es.filter (fun x => !(mates.contains x)))

/-- R139: the rows of a pair or shared unit, in groups that one unit can carry: first row, number of rows. -/
def rowRuns (p : Profile) (rows : Nat) : List (Nat × Nat) :=
  let n := Nat.max 1 (32768 / Nat.max p.hdim 1)
  (List.range (ceilDiv rows n)).map (fun t => (t * n, Nat.min n (rows - t * n)))

/-- R139, R150: the units of members' rows of one KV head over positions [lo, hi), sliced. -/
def rowedUnits (p : Profile) (maxSlices : Nat) (members : List AttEntry) (head lo hi : Nat) : List AttUnit :=
  if hi ≤ lo then []
  else
    (rowRuns p (members.length * p.group)).flatMap (fun r =>
      ({ entries := members.map (·.i), head := head, first := r.1, count := r.2, rows := r.2, lo := lo, hi := hi } : AttUnit).sliced
        maxSlices)

/-- R150, R152: the units of one group before step 3 of R150. -/
def groupUnits (p : Profile) (maxSlices : Nat) (x : List AttEntry × Nat) : List AttUnit :=
  (List.range p.kvheads).flatMap (fun h =>
    (if x.2 = 0 then [] else rowedUnits p maxSlices x.1 h 0 (16 * x.2)) ++
      x.1.flatMap (fun e => rowedUnits p maxSlices [e] h (Nat.max e.low (16 * x.2)) e.stop))

/-- R152: the groups that SHARE_EN and MAX_MEMBERS allow; an entry without a position to read takes part and forms no unit. -/
def State.decodeGroups (s : State) (l : Nat) (es : List AttEntry) : List (List AttEntry × Nat) :=
  let ctl := s.fbxCtl.toNat
  (if bitOf ctl 1 then s.groups l (bits ctl 16 4) (es.length + 1) es else es.map (fun e => ([e], 0))).filter
    (fun g => g.1.any (fun e => decide (e.low < e.stop)))

/-- R149, R150: the units of ATT.DECODE. -/
def State.decodeUnits (s : State) (j : Job) (p : Profile) (es : List AttEntry) : List AttUnit :=
  s.formUnits j p p.halfLanes (fun es => (s.decodeGroups j.layer.toNat es).flatMap (groupUnits p (bits s.fbxCtl.toNat 8 6))) es

/-- R152, R164: section reads of a frame that shared units save: each of its two sections, once a row group. -/
def savedReads (p : Profile) (us : List AttUnit) : Nat :=
  (us.filter (fun u => decide (1 < u.entries.length))).foldl (fun n u =>
    n + (if u.first = 0 then
      2 * u.pages * (u.entries.length * (rowRuns p p.group).length - (rowRuns p (u.entries.length * p.group)).length) else 0)) 0

/-! ### ATT.DECODE (R149) -/

/-- R57: an ATT.DECODE writes FP32 rows. -/
def decodeWide (j : Job) (d : Desc) : Bool := j.inst.x2 || d.ofmt = 1

/-- R149, R289: bytes of ATT.DECODE's output buffer. -/
def decodeOutLen (j : Job) (d : Desc) (p : Profile) : Nat := d.count * p.qheads * p.hdim * eltSize (decodeWide j d)

/-- R149: bytes of its query buffer. -/
def decodeInLen (d : Desc) (p : Profile) : Nat := d.count * p.qheads * p.hdim * eltSize (d.qfmt = 1)

/-- R149: the header, the ranges it names, the operand buffers. -/
def State.decodeHead (s : State) (j : Job) : Bad :=
  let a := j.w0.toNat
  match s.badHeader j.ctx a (fun d => d.lentab != 0 || (j.inst.x2 && d.aux = 0) || (j.inst.x1 && d.stats = 0)) with
  | some e => some e
  | none =>
    let d := s.desc a
    let p := s.descProfile d
    firstBad [
      if j.inst.x1 then s.rngUp j.ctx d.stats (d.count * p.qheads * 8) 0 else none,
      if j.inst.x2 then s.rngUp j.ctx d.aux (d.count * p.qheads * 8) 0 else none,
      s.badList j.ctx d,
      s.rngUp j.ctx j.w1.toNat (decodeInLen d p) 1,
      s.rngUp j.ctx j.w2.toNat (decodeOutLen j d p) 2]

/-- R57, R86: the key end of an entry of ATT.DECODE at a layer. -/
def State.decodeEnd (s : State) (l : Nat) (e : Entry) : Nat := if e.b = 0xFFFFFFFF then (s.layer e.key l).length else e.b

/-- R149 steps 4 and 5: an entry of ATT.DECODE. -/
def State.decodeEntry (s : State) (j : Job) (d : Desc) (i : Nat) (e : Entry) : Bad :=
  let l := j.layer.toNat
  let p := s.descProfile d
  let stop := s.decodeEnd l e
  firstBad [
    badIf (decide (stop < e.a) || decide ((s.layer e.key l).length < stop)) St.badPosition i,
    badIf (s.windowGone p e.key l (stop - 1)) St.badPosition i,
    badIf (j.inst.x0 && narrowKv p d) St.formatNarrow i]

/-- R57, R149: the entries of an ATT.DECODE, with the ends that `stop` gives. -/
def State.decodeEntries (s : State) (j : Job) (d : Desc) (stop : Nat → Entry → Nat) : List AttEntry :=
  let p := s.descProfile d
  (List.range d.count).map (fun i =>
    let e := s.entry j.w0.toNat i
    let z := stop i e
    { i := i, key := e.key, start := e.a, low := Nat.max e.a (p.windowLow (z - 1)), stop := z, q0 := z - 1, row0 := i })

/-- R149, R154: its output buffer holds no defined rows. -/
def decodeSpoil (j : Job) (d : Desc) (p : Profile) (s : State) : State := s.scramble j.w2.toNat (decodeOutLen j d p)

/-- R141: a query of ATT.DECODE is a NaN or an infinity. -/
def decodeNan (j : Job) (d : Desc) (p : Profile) (s : State) : Bool :=
  s.badValues j.w1.toNat (d.count * p.qheads * p.hdim) (d.qfmt = 1)

/-- R57, R149, R150, R162: what ATT.DECODE checks, and its dispatch. -/
def attDecodeChk (j : Job) (s : State) : Chk :=
  let d := s.desc j.w0.toNat
  let p := s.descProfile d
  let spoil := decodeSpoil j d p
  match s.decodeHead j with
  | some e => s.headBadly j d (decodeOutLen j d p) spoil e
  | none =>
    let end_ (_ : Nat) (e : Entry) : Nat := s.decodeEnd j.layer.toNat e
    let es := s.decodeEntries j d end_
    s.attTables j d es spoil (fun s =>
      match firstBad [s.badEntries j j.w0.toNat d (fun i e => s.decodeEntry j d i e), s.mem.readErr j.w1.toNat (decodeInLen d p)] with
      | some e => s.attBadly es spoil e
      | none =>
        if decodeNan j d p s then .bad { status := St.badOperand, detail := 1 } s
        else s.dispatch j d es p.layers false (es.map (fun e => (e.key, e.start, e.stop + 16))) (s.decodeUnits j p es))

/-- R94, R147, R151, R152: the row of one entry and head of ATT.DECODE: its parts, joined; it meets the positions of its window. -/
def State.decodeRow (s : State) (j : Job) (p : Profile) (x : AttSeen) (q : List Int) (h : Nat) : Part :=
  let g := p.group
  let kh := h / g
  let us := rowUnits j.snap.units x.e.i kh (fun u => u.entries.idxOf x.e.i * g + h % g)
  joinParts p.hdim (us.flatMap (fun u => u.subs.map (fun b => s.methodM p q kh (x.keys b.1 b.2 (fun t => decide (x.e.low ≤ t))))))

/-- R147, R158: the rows of one entry of ATT.DECODE. -/
def State.decodeRows (s0 : State) (j : Job) (d : Desc) (p : Profile) (x : AttSeen) (s : State) : State :=
  let stats := (if j.inst.x2 then [d.aux] else []) ++ (if j.inst.x1 then [d.stats] else [])
  (List.range p.qheads).foldl (fun s h =>
    let q := s0.queryRow p j.w1.toNat x.e.i h (d.qfmt = 1)
    s.putRowOut p j.w2.toNat x.e.i h (decodeWide j d) j.inst.x2 stats (s0.decodeRow j p x q h)
      (s0.rowRef p q (h / p.group) (x.keys x.e.low x.e.stop (fun _ => true)))) s

/-- R147-R161: the units and the rows of an ATT.DECODE whose pages are resident, and how it completes. -/
def State.decodeEnds (s0 : State) (j : Job) (d : Desc) (xs : List AttSeen) (ms : List Miss) (s : State) : Done × State :=
  let p := s0.descProfile d
  let good := xs.filter (fun x => !x.fails)
  let us := unitsRun j.snap.units (fun i => good.any (fun x => x.e.i == i))
  let s1 := (s.runUnits j us p.halfLanes AttUnit.scores true (fun u => u.slice || u.spill != 0)).count 0x03000118 (savedReads p us)
  let s1 := s1.hearthBytes j (sectionBytes p us AttUnit.pages (decodeInLen d p + decodeOutLen j d p + 16 * spilled us))
  let wide := narrowKv p d
  let s2 := if wide then s1.count 0x03000120 xs.length else s1
  let s3 := good.foldl (fun t x => s0.decodeRows j d p x t) s2
  let r := missDone good.length d.mrlist d.mrcap ms
  (s3.stored j.w2.toNat (decodeOutLen j d p) { r with flags := r.flags ||| (if wide then Fl.widened else 0) },
    s3.writeMisses d.mrlist d.mrcap ms)

/-- R149-R163: ATT.DECODE once it is dispatched. -/
def attDecodeBody (j : Job) (s : State) : Out :=
  let d := s.desc j.w0.toNat
  let p := s.descProfile d
  s.attRun j p (s.decodeEntries j d (fun i _ => j.snap.lens.getD i 0))
    (unitPages j.snap.units) [(j.w1.toNat, decodeInLen d p)] (decodeNan j d p) (decodeSpoil j d p) (s.decodeEnds j d)

/-- R57: ATT.DECODE. -/
def execAttDecode (a : At) (s : State) : Host.Outcome State Fault Refusal := .next (runHob 0x50 a attDecodeChk attDecodeBody s)

/-! ### ATT.MERGE (R159, R160) -/

/-- R159: a merge descriptor. -/
structure MergeDesc where
  /-- R159: ROWS. -/
  rows : Nat := 0
  /-- R159: NPART. -/
  npart : Nat := 0
  /-- R159: OFMT. -/
  ofmt : Nat := 0
  /-- R159: QHEADS. -/
  qheads : Nat := 0
  /-- R159: HDIM. -/
  hdim : Nat := 0
  /-- R159: OSTATS. -/
  ostats : Nat := 0
  /-- R159: ACC and STAT of each input. -/
  inputs : List (Nat × Nat) := []
deriving DecidableEq, Repr

/-- R159: the merge descriptor at an address. -/
def State.mergeDesc (s : State) (a : Nat) : MergeDesc :=
  { rows := s.field a 4, npart := s.field (a + 4) 1, ofmt := s.field (a + 5) 1, qheads := s.field (a + 6) 2
    hdim := s.field (a + 8) 2, ostats := s.field (a + 16) 8
    inputs := (List.range (s.field (a + 4) 1)).map (fun i => (s.field (a + 64 + 16 * i) 8, s.field (a + 72 + 16 * i) 8)) }

/-- Two byte ranges overlap. -/
def overlap (a n b m : Nat) : Bool := n != 0 && m != 0 && decide (a < b + m) && decide (b < a + n)

/-- R160 check 7: an (m, l) pair that is refused. -/
def badStat (m l : BitVec 32) : Bool :=
  fpNan m || m == 0x7F800000 || fpBad l || (fpNeg l && fpMag l != 0) || (fpMag l == 0 && !(fpBad m))

/-- R136: (m, l) of a row and head at a statistics address. -/
def State.stat (s : State) (a n : Nat) : BitVec 32 × BitVec 32 :=
  (BitVec.ofNat 32 (s.field (a + 8 * n) 4), BitVec.ofNat 32 (s.field (a + 8 * n + 4) 4))

/-- R160: ATT.MERGE's checks; OFMT above 1 is refused with PARTIAL too, the model's choice (log 140). -/
def State.mergeChecks (s : State) (j : Job) : Bad :=
  let a := j.w0.toNat
  let useStats := j.inst.x2 || j.inst.x1
  match firstBad [badIf j.inst.x0 St.badReserved 1, s.rng j.ctx a 64 0, s.mem.readErr a 64] with
  | some e => some e
  | none =>
    let m := s.mergeDesc a
    let heads := m.rows * m.qheads
    let acc := heads * m.hdim * 4
    let outLen := heads * m.hdim * eltSize (j.inst.x2 || m.ofmt = 1)
    let rsv := (List.range 6).map (· + 10) ++ (List.range 40).map (· + 24)
    match firstBad [
        (s.mem.firstNonzero a rsv).map (fun o => (St.badReserved, o)),
        badIf (m.rows = 0 || 65536 < m.rows || m.npart < 2 || 16 < m.npart || 1 < m.ofmt || m.qheads = 0 || 256 < m.qheads
          || m.hdim = 0 || 256 < m.hdim || m.hdim % 32 != 0 || (useStats && m.ostats = 0)) St.badOperand 0,
        s.rngUp j.ctx (a + 64) (16 * m.npart) 0,
        (s.mem.readErr (a + 64) (16 * m.npart)).map (fun e => (e.1, e.2 + 1)),
        m.inputs.findSome? (fun x => firstBad [s.rngUp j.ctx x.1 acc 0, s.rngUp j.ctx x.2 (heads * 8) 0]),
        if useStats then s.rngUp j.ctx m.ostats (heads * 8) 0 else none,
        s.rngUp j.ctx j.w2.toNat outLen 2,
        badIf (m.inputs.any (fun x =>
          overlap j.w2.toNat outLen x.1 acc || overlap j.w2.toNat outLen x.2 (heads * 8) ||
            (useStats && (overlap m.ostats (heads * 8) x.1 acc || overlap m.ostats (heads * 8) x.2 (heads * 8)))))
          St.badOperand 0,
        m.inputs.findSome? (fun x => firstBad [s.mem.readErr x.1 acc, s.mem.readErr x.2 (heads * 8)]),
        badIf (m.inputs.any (fun x => (List.range heads).any (fun n => badStat (s.stat x.2 n).1 (s.stat x.2 n).2)))
          St.badOperand 0] with
    | some e => some e
    | none => none

/-- R160: one row and head joined. -/
def State.mergeRow (s : State) (m : MergeDesc) (n : Nat) : Part :=
  let ps := m.inputs.map (fun x => (s.stat x.2 n, x.1))
  let top := (ps.map (·.1.1)).foldl fpMax fpNegInf
  let as := probs top (ps.map (·.1.1))
  { m := top
    l := (List.zipWith (fun a x => fpMul a x.1.2) as ps).foldl fpAdd 0
    acc := (List.range m.hdim).map (fun d =>
      (List.zipWith (fun a x => fpMul a (BitVec.ofNat 32 (s.field (x.2 + 4 * (n * m.hdim + d)) 4))) as ps).foldl fpAdd 0) }

/-- R42, R150, R160: what ATT.MERGE checks; a die with 8 attention instructions takes it later. -/
def mergeChk (j : Job) (s : State) : Chk :=
  match s.mergeChecks j with
  | some e => Chk.ofErr (some e) s
  | none => if s.attFull j then .wait .run s else .good {} s

/-- R158, R160: the elements and the (m, l) of a joined row; a row whose inputs met no key is zero. -/
def Part.merged (r : Part) (partial_ : Bool) : List (BitVec 32) × Part :=
  if r.m = fpNegInf then (r.acc.map (fun _ => 0), { r with l := 0 })
  else (if partial_ then r.acc else r.acc.map (fun x => fpDiv x r.l), r)

/-- R57, R160: ATT.MERGE. -/
def mergeBody (j : Job) (s : State) : Out :=
  let m := s.mergeDesc j.w0.toNat
  let fp32 := j.inst.x2 || m.ofmt = 1
  let heads := m.rows * m.qheads
  let s1 := (List.range heads).foldl (fun t n =>
    let (xs, r) := (s.mergeRow m n).merged j.inst.x2
    let t := t.poke (j.w2.toNat + n * m.hdim * eltSize fp32) (xs.flatMap (outValue fp32))
    if j.inst.x2 || j.inst.x1 then t.poke (m.ostats + 8 * n) r.stat else t) s
  .done (s1.stored j.w2.toNat (heads * m.hdim * eltSize fp32) { result := BitVec.ofNat 64 m.rows })
    ((s1.count 0x03000128 m.rows).hearthBytes j (heads * (m.npart * (4 * m.hdim + 8) + m.hdim * eltSize fp32)))

/-- R57: ATT.MERGE. -/
def execAttMerge (a : At) (s : State) : Host.Outcome State Fault Refusal := .next (runHob 0x52 a mergeChk mergeBody s)

end Machine
end Sys2Proof
end

