-- ==== Sys2Proof/Machine/Bwd.lean ====
section
/-! DEFINITION. ATT.PREFILL and ATT.BWD (R167-R187). -/

namespace Sys2Proof
namespace Machine

/-! ### The length table and the segment table (R95, R168) -/

/-- R95: the words of the length table that fail. -/
def State.badLentab (s : State) (a n : Nat) : Bad :=
  (List.range n).findSome? (fun i =>
    let w := s.field (a + 4 * i) 4
    if w / 65536 ≠ 0 then some (St.badReserved, 4 * i + (if w / 65536 % 256 ≠ 0 then 2 else 3))
    else badIf (w % 65536 = 0 || 128 < w % 65536) St.badOperand 0)

/-- R57: bytes 12 to 15 of an entry are reserved. -/
def State.badEntryRsv (s : State) (a n : Nat) : Bad :=
  (List.range n).findSome? (fun i =>
    (s.mem.firstNonzero a ((List.range 4).map (fun t => 64 + 16 * i + 12 + t))).map (fun o => (St.badReserved, o)))

/-- R168, R173: a segment table and its arrays; table 0 is none. -/
def State.badSegs (s : State) (c tab : Nat) (es : List (Nat × Nat)) : Bad :=
  if tab = 0 then none
  else
    match firstBad [(s.checkRange c tab (8 * es.length) 8).map (fun st => (st, 0)), s.mem.readErr tab (8 * es.length)] with
    | some e => some e
    | none => (List.range es.length).findSome? (fun i =>
        let w := s.field (tab + 8 * i) 8
        let e := es.getD i (0, 0)
        if w = 0 then none else (s.checkRange c w (2 * (e.1 + e.2)) 2).map (fun st => (st, 0)))

/-- R168: the segment number of a position in an array; without an array every position has the same. -/
def State.seg (s : State) (arr t : Nat) : Nat := if arr = 0 then 0 else s.field (arr + 2 * t) 2

/-- R168: the array of entry i. -/
def State.segArray (s : State) (tab i : Nat) : Nat := if tab = 0 then 0 else s.field (tab + 8 * i) 8

/-- R95, R167: first query position, count and row offset of each entry. -/
def State.queryBlocks (s : State) (a lentab n : Nat) : List AttEntry :=
  (List.range n).map (fun i =>
    let e := s.entry a i
    let q := s.qcount lentab i
    { i := i, key := e.key, q0 := e.a, rows := q, start := 0, stop := e.a + q
      row0 := (List.range i).foldl (fun m t => m + s.qcount lentab t) 0 })

/-- R95: total of the QCOUNT values. -/
def rowTotal (es : List AttEntry) : Nat := es.foldl (fun n e => n + e.rows) 0

/-- R167: row q of an entry meets position t. -/
def State.meets (s : State) (p : Profile) (arr q t : Nat) : Bool :=
  decide (t ≤ q) && decide (p.windowLow q ≤ t) && s.seg arr t == s.seg arr q

/-! ### Units (R169, R170, R183) -/

/-- R170, R183: the row groups of an entry: first query and number of queries. -/
def rowGroups (area : Nat) (p : Profile) (e : AttEntry) : List (Nat × Nat) :=
  let n := Nat.max 1 (area / Nat.max p.hdim 1 / p.group)
  (List.range (ceilDiv e.rows n)).map (fun t => (e.q0 + t * n, Nat.min n (e.rows - t * n)))

/-- R167, R175: the lowest position that a query meets. -/
def State.firstMet (s : State) (p : Profile) (arr q : Nat) : Nat :=
  ((pageRange (p.windowLow q) (q + 1)).find? (fun t => s.meets p arr q t)).getD q

/-- R170: the first position of a unit's key range: the lowest that a row of the group meets, rounded down to a page. -/
def State.unitLow (s : State) (p : Profile) (arr q0 n : Nat) : Nat :=
  minOr q0 ((List.range n).map (fun k => s.firstMet p arr (q0 + k))) / 16 * 16

/-- R170, R183: the units of an entry before step 3 of R150. -/
def State.groupedUnits (s : State) (p : Profile) (area arr : Nat) (e : AttEntry) : List AttUnit :=
  (List.range p.kvheads).flatMap (fun h => (rowGroups area p e).map (fun g =>
    { entries := [e.i], head := h, first := g.1, count := g.2, rows := g.2 * p.group, lo := s.unitLow p arr g.1 g.2, hi := g.1 + g.2 }))

/-- R169, R171: the 32-position blocks of a unit, counted from its first position, that are not skipped: first position, end. -/
def State.blocksOf (s : State) (arr : Nat) (u : AttUnit) : List (Nat × Nat) :=
  (((List.range (ceilDiv (u.hi - u.lo) 32)).map (fun t => (u.lo + 32 * t, Nat.min (u.lo + 32 * t + 32) u.hi))).filter (fun b =>
    arr = 0 || (pageRange b.1 b.2).any (fun t => (List.range u.count).any (fun k => s.seg arr t == s.seg arr (u.first + k)))))

/-- R169: the pages whose sections a unit reads, those of skipped blocks left out. -/
def State.pagesRead (s : State) (arr : Nat → Nat) (u : AttUnit) : Nat :=
  (s.blocksOf (arr (u.entries.headD 0)) u).foldl (fun n b => n + (pagesOf b.2 - b.1 / 16)) 0

/-- R154, R168, R169: the segment table and its arrays, which the Fireboxes read. -/
def State.segBufs (s : State) (tab : Nat) (es : List AttEntry) : List (Nat × Nat) :=
  if tab = 0 then []
  else (tab, 8 * es.length) :: es.filterMap (fun e =>
    let w := s.segArray tab e.i
    if w = 0 then none else some (w, 2 * e.stop))

/-- R169, R170: the pages that an entry's units read. -/
def State.blockPages (s : State) (us : List AttUnit) (arr : AttEntry → Nat) (e : AttEntry) : List Nat :=
  ((us.filter (fun u => u.entries.contains e.i)).flatMap (fun u => (s.blocksOf (arr e) u).flatMap (fun b =>
    pageRange (b.1 / 16) (pagesOf b.2)))).foldl insNat []

/-- R146, R172, R185: the products that the MAC array forms for a unit: whole blocks of those not skipped. -/
def State.blockProds (s : State) (arr : Nat → Nat) (u : AttUnit) : Nat :=
  32 * (s.blocksOf (arr (u.entries.headD 0)) u).length * u.rows

/-! ### Saved statistics (R178) -/

/-- R178: where the stamp lies. -/
def stampAt (stats rows qheads : Nat) : Nat := stats + up64 (8 * rows * qheads)

/-- R178: ENTRY_CRC: the descriptor entries, then the LENTAB words. -/
def State.entryCrc (s : State) (a : Nat) (d : Desc) : BitVec 32 :=
  crc32c (s.peek (a + 64) (16 * d.count) ++ s.peek d.lentab (4 * d.count))

/-- R178: SEG_CRC. -/
def State.segCrc (s : State) (tab n : Nat) : BitVec 32 := if tab = 0 then 0 else crc32c (s.peek tab (8 * n))

/-- R178: the 64 bytes of a stamp. -/
def State.stampBytes (s : State) (j : Job) (d : Desc) (tab rows : Nat) (ok : Bool) : List Byte :=
  leBytes 4 (if ok then 0x53415653 else 0) ++ leBytes 4 d.profile ++ leBytes 2 j.layer.toNat ++ leBytes 2 d.count
    ++ leBytes 4 rows ++ leBytes 4 (s.entryCrc j.w0.toNat d).toNat ++ leBytes 4 (s.segCrc tab d.count).toNat
    ++ leBytes 8 s.now.toNat ++ leBytes 32 0

/-- R178: the stamp as the outcome of an instruction with SAVE_STATS leaves it. -/
def State.stamp (s : State) (j : Job) (d : Desc) (tab rows qheads : Nat) (st : Status) : State :=
  if j.inst.x1 then s.poke (stampAt d.stats rows qheads) (s.stampBytes j d tab rows (st == St.ok)) else s

/-- R178: checks whose failure leaves a stamp; a wait leaves none. -/
def stampedChk (j : Job) (d : Desc) (tab rows qheads : Nat) : Chk → Chk
  | .bad r s => .bad r (s.stamp j d tab rows qheads r.status)
  | c => c

/-- R178: a run whose outcome leaves a stamp; a wait leaves none. -/
def stamped (j : Job) (d : Desc) (tab rows qheads : Nat) : Out → Out
  | .done r s => .done r (s.stamp j d tab rows qheads r.status)
  | o => o

/-! ### ATT.PREFILL (R173) -/

/-- R168: the segment table of ATT.PREFILL. -/
def prefillTab (j : Job) (d : Desc) : Nat := if j.inst.x2 then 0 else d.aux

/-- R173 step 1: the header, the entries' reserved bytes (right after the entry array: the model's choice, log 137), the length table;
`zero` says which of the fields that must be 0 is not. -/
def State.raggedHead (s : State) (j : Job) (zero : Desc → Bool) : Bad :=
  let a := j.w0.toNat
  match s.badHeader j.ctx a (fun d => d.lentab = 0 || zero d) with
  | some e => some e
  | none =>
    let d := s.desc a
    firstBad [s.badEntryRsv a d.count, s.rngUp j.ctx d.lentab (4 * d.count) 0,
      s.mem.readErr d.lentab (4 * d.count), s.badLentab d.lentab d.count]

/-- R173, R178: (m, l) and the stamp at STATS. -/
def State.badStats (s : State) (j : Job) (stats rows qheads : Nat) : Bad := s.rngUp j.ctx stats (up64 (8 * rows * qheads) + 64) 0

/-- R173 step 1, up to the statistics. -/
def State.prefillTop (s : State) (j : Job) : Bad :=
  match s.raggedHead j (fun d => (j.inst.x2 && d.aux = 0) || (j.inst.x1 && d.stats = 0)) with
  | some e => some e
  | none =>
    let d := s.desc j.w0.toNat
    if j.inst.x1 then
      s.badStats j d.stats (rowTotal (s.queryBlocks j.w0.toNat d.lentab d.count)) (s.descProfile d).qheads
    else none

/-- R57: an ATT.PREFILL writes FP32 rows. -/
def prefillWide (j : Job) (d : Desc) : Bool := j.inst.x2 || d.ofmt = 1

/-- R136, R173: bytes of a buffer of these rows. -/
def rowsLen (p : Profile) (rows : Nat) (fp32 : Bool) : Nat := rows * p.qheads * p.hdim * eltSize fp32

/-- R173 step 1, from AUX on. -/
def State.prefillRanges (s : State) (j : Job) : Bad :=
  let d := s.desc j.w0.toNat
  let p := s.descProfile d
  let es := s.queryBlocks j.w0.toNat d.lentab d.count
  let rows := rowTotal es
  firstBad [
    if j.inst.x2 then s.rngUp j.ctx d.aux (8 * rows * p.qheads) 0 else none,
    s.badSegs j.ctx (prefillTab j d) (es.map (fun e => (e.q0, e.rows))),
    s.badList j.ctx d,
    s.rngUp j.ctx j.w1.toNat (rowsLen p rows (d.qfmt = 1)) 1,
    s.rngUp j.ctx j.w2.toNat (rowsLen p rows (prefillWide j d)) 2]

/-- R95, R173: an entry's queries against its layer. -/
def State.queryEntry (s : State) (l : Nat) (p : Profile) (e : AttEntry) : Bad :=
  firstBad [
    badIf (decide ((s.layer e.key l).length < e.stop)) St.badPosition e.i,
    badIf (s.windowGone p e.key l e.q0) St.badPosition e.i]

/-- R149, R154, R174: its output buffer holds no defined rows. -/
def prefillSpoil (j : Job) (d : Desc) (p : Profile) (rows : Nat) (s : State) : State :=
  s.scramble j.w2.toNat (rowsLen p rows (prefillWide j d))

/-- R141: a query of ATT.PREFILL is a NaN or an infinity. -/
def prefillNan (j : Job) (d : Desc) (p : Profile) (rows : Nat) (s : State) : Bool :=
  s.badValues j.w1.toNat (rows * p.qheads * p.hdim) (d.qfmt = 1)

/-- R175: the positions of each entry that lookahead covers: from the lowest that its first query meets. -/
def State.querySpans (s : State) (p : Profile) (arr : AttEntry → Nat) (es : List AttEntry) : List (Nat × Nat × Nat) :=
  es.map (fun e => (e.key, s.firstMet p (arr e) e.q0, e.stop))

/-- R173, R170, R175: what ATT.PREFILL checks from its entries on, and its dispatch. -/
def State.prefillEntries (s : State) (j : Job) (d : Desc) (p : Profile) (es : List AttEntry) : Chk :=
  let rows := rowTotal es
  let spoil := prefillSpoil j d p rows
  let arr (e : AttEntry) : Nat := s.segArray (prefillTab j d) e.i
  let own (s : State) (i : Nat) (_ : Entry) : Bad :=
    firstBad [s.queryEntry j.layer.toNat p (es.getD i {}), badIf (j.inst.x0 && narrowKv p d) St.formatNarrow i]
  s.attTables j d es spoil (fun s =>
    match firstBad [s.badEntries j j.w0.toNat d (own s), (s.segBufs (prefillTab j d) es).findSome? (fun b => s.mem.readErr b.1 b.2),
        s.mem.readErr j.w1.toNat (rowsLen p rows (d.qfmt = 1))] with
    | some e => s.attBadly es spoil e
    | none =>
      if prefillNan j d p rows s then .bad { status := St.badOperand, detail := 1 } s
      else s.dispatch j d es p.layers false (s.querySpans p arr es)
        (s.formUnits j p p.halfLanes (fun es => es.flatMap (fun e => s.groupedUnits p 32768 (arr e) e)) es true))

/-- R57, R173, R178: what ATT.PREFILL checks, and its dispatch; once STATS has passed, a failure leaves a stamp with TAG 0. -/
def attPrefillChk (j : Job) (s : State) : Chk :=
  let d := s.desc j.w0.toNat
  let p := s.descProfile d
  let es := s.queryBlocks j.w0.toNat d.lentab d.count
  let bad (e : Status × Nat) : Chk :=
    s.headBadly j d (rowsLen p (rowTotal es) (prefillWide j d)) (prefillSpoil j d p (rowTotal es)) e
  match s.prefillTop j with
  | some e => bad e
  | none =>
    stampedChk j d (prefillTab j d) (rowTotal es) p.qheads (match s.prefillRanges j with
      | some e => bad e
      | none => s.prefillEntries j d p es)

/-- R171, R151: the row of one query and head of ATT.PREFILL: the parts of its units, joined. -/
def State.prefillRow (s : State) (p : Profile) (us : List AttUnit) (arr : Nat) (x : AttSeen) (qv : List Int) (q h : Nat) : Part :=
  joinParts p.hdim ((rowUnits us x.e.i (h / p.group) (fun _ => q)).map (fun u =>
    s.methodS p qv (h / p.group) ((s.blocksOf arr u).map (fun b => x.keys b.1 b.2 (s.meets p arr q)))))

/-- R171, R176: the rows of one entry of ATT.PREFILL. -/
def State.prefillRows (s0 : State) (j : Job) (d : Desc) (p : Profile) (x : AttSeen) (s : State) : State :=
  let arr := s0.segArray (prefillTab j d) x.e.i
  let stats := (if j.inst.x2 then [d.aux] else []) ++ (if j.inst.x1 then [d.stats] else [])
  (List.range x.e.rows).foldl (fun s k =>
    let q := x.e.q0 + k
    let ts := (pageRange (p.windowLow q) (q + 1)).filter (s0.meets p arr q)
    (List.range p.qheads).foldl (fun s h =>
      let qv := s0.queryRow p j.w1.toNat (x.e.row0 + k) h (d.qfmt = 1)
      s.putRowOut p j.w2.toNat (x.e.row0 + k) h (prefillWide j d) j.inst.x2 stats
        (s0.prefillRow p j.snap.units arr x qv q h)
        (s0.rowRef p qv (h / p.group) (ts.flatMap (fun t => x.keys t (t + 1) (fun _ => true))))) s) s

/-- R171-R176: the units and the rows of an ATT.PREFILL whose pages are resident, and how it completes. -/
def State.prefillEnds (s0 : State) (j : Job) (d : Desc) (rows : Nat) (xs : List AttSeen) (ms : List Miss) (s : State) :
    Done × State :=
  let p := s0.descProfile d
  let good := xs.filter (fun x => !x.fails)
  let arr := s0.segArray (prefillTab j d)
  let us := unitsRun j.snap.units (fun i => good.any (fun x => x.e.i == i))
  let s1 := s.runUnits j us p.halfLanes (s0.blockProds arr) false (·.slice)
  let s1 := s1.hearthBytes j (sectionBytes p us (s0.pagesRead arr) (rowsLen p rows (d.qfmt = 1) + rowsLen p rows (prefillWide j d)))
  let wide := narrowKv p d
  let s2 := if wide then s1.count 0x03000120 xs.length else s1
  let s3 := good.foldl (fun t x => s0.prefillRows j d p x t) s2
  let r := missDone (good.foldl (fun n x => n + x.e.rows) 0) d.mrlist d.mrcap ms
  (s3.stored j.w2.toNat (rowsLen p rows (prefillWide j d)) { r with flags := r.flags ||| (if wide then Fl.widened else 0) },
    s3.writeMisses d.mrlist d.mrcap ms)

/-- R173-R178: ATT.PREFILL once it is dispatched. -/
def attPrefillBody (j : Job) (s : State) : Out :=
  let d := s.desc j.w0.toNat
  let p := s.descProfile d
  let es := s.queryBlocks j.w0.toNat d.lentab d.count
  let rows := rowTotal es
  stamped j d (prefillTab j d) rows p.qheads
    (s.attRun j p es (s.blockPages j.snap.units (fun e => s.segArray (prefillTab j d) e.i))
      ((j.w1.toNat, rowsLen p rows (d.qfmt = 1)) :: s.segBufs (prefillTab j d) es) (prefillNan j d p rows) (prefillSpoil j d p rows) (s.prefillEnds j d rows))

/-- R57: ATT.PREFILL. -/
def execAttPrefill (a : At) (s : State) : Host.Outcome State Fault Refusal := .next (runHob 0x51 a attPrefillChk attPrefillBody s)

/-! ### ATT.BWD (R179-R187) -/

/-- R180: the backward auxiliary block. -/
structure Aux where
  /-- R180: SEGTAB. -/
  segtab : Nat := 0
  /-- R180: QBUF. -/
  qbuf : Nat := 0
  /-- R180: DELTA. -/
  delta : Nat := 0
  /-- R180: GRADMAP. -/
  gradmap : Nat := 0
deriving DecidableEq, Repr

/-- R180: the block at an address. -/
def State.aux (s : State) (a : Nat) : Aux :=
  { segtab := s.field a 8, qbuf := s.field (a + 8) 8, delta := s.field (a + 16) 8, gradmap := s.field (a + 24) 8 }

/-- R181: bytes of a gradient frame. -/
def Profile.gframe (p : Profile) : Nat := 128 * p.kvheads * p.hdim

/-- R181: the gradient areas: address and bytes, one frame per logical page of the entry's sequence at the layer. -/
def State.gradAreas (s : State) (l : Nat) (p : Profile) (x : Aux) (es : List AttEntry) : List (Nat × Nat) :=
  es.map (fun e => (s.field (x.gradmap + 8 * e.i) 8, pagesOf (s.layer e.key l).length * p.gframe))

/-- R180, R182 step 1: STATS, the backward auxiliary block, and what it names. -/
def State.bwdRanges (s : State) (j : Job) : Bad :=
  let d := s.desc j.w0.toNat
  let p := s.descProfile d
  let es := s.queryBlocks j.w0.toNat d.lentab d.count
  let rows := rowTotal es
  let n := rowsLen p rows (d.qfmt = 1)
  match firstBad [if d.stats = 0 then none else s.badStats j d.stats rows p.qheads,
      s.rng j.ctx d.aux 64 0, s.mem.readErr d.aux 64,
      (s.mem.firstNonzero d.aux ((List.range 32).map (· + 32))).map (fun o => (St.badReserved, o))] with
  | some e => some e
  | none =>
    let x := s.aux d.aux
    firstBad [
      s.badSegs j.ctx x.segtab (es.map (fun e => (e.q0, e.rows))),
      s.rngUp j.ctx x.qbuf n 0,
      s.rngUp j.ctx x.delta (4 * rows * p.qheads) 0,
      s.rngUp j.ctx x.gradmap (8 * d.count) 0,
      s.mem.readErr x.gradmap (8 * d.count),
      s.badList j.ctx d,
      s.rngUp j.ctx j.w1.toNat n 1,
      s.rngUp j.ctx j.w2.toNat (rowsLen p rows (d.ofmt = 1)) 2]

/-- R182 step 4: the stamp differs from this instruction's. -/
def State.badStamp (s : State) (j : Job) (d : Desc) (p : Profile) (x : Aux) (rows : Nat) : Bool :=
  let a := stampAt d.stats rows p.qheads
  d.stats = 0 || (s.peek a 24) != (s.stampBytes j d x.segtab rows true).take 24

/-- R182 step 5: saved statistics or δ that are refused. -/
def State.badSaved (s : State) (d : Desc) (p : Profile) (x : Aux) (rows : Nat) : Bool :=
  (List.range (rows * p.qheads)).any (fun n =>
    let (m, l) := s.stat d.stats n
    fpBad m || fpBad l || fpLt l 0x3F800000 || fpBad (BitVec.ofNat 32 (s.field (x.delta + 4 * n) 4)))

/-- R154, R179: the buffers that ATT.BWD reads. -/
def bwdBufs (j : Job) (d : Desc) (p : Profile) (x : Aux) (rows : Nat) : List (Nat × Nat) :=
  [(x.qbuf, rowsLen p rows (d.qfmt = 1)), (j.w1.toNat, rowsLen p rows (d.qfmt = 1)), (x.delta, 4 * rows * p.qheads)] ++
    (if d.stats = 0 then [] else [(d.stats, up64 (8 * rows * p.qheads) + 64)])

/-- R141, R182: a query or an output gradient is a NaN or an infinity. -/
def bwdNan (j : Job) (d : Desc) (p : Profile) (x : Aux) (rows : Nat) (s : State) : Bool :=
  let n := rows * p.qheads * p.hdim
  s.badValues x.qbuf n (d.qfmt = 1) || s.badValues j.w1.toNat n (d.qfmt = 1)

/-- R182 steps 1 (values) to 6. -/
def State.bwdChecks (s : State) (j : Job) (d : Desc) (p : Profile) (x : Aux) (es : List AttEntry) : Bad :=
  let rows := rowTotal es
  let bufs := (j.w2.toNat, rowsLen p rows (d.ofmt = 1)) :: bwdBufs j d p x rows
  let areas := s.gradAreas j.layer.toNat p x es
  firstBad [
    (bwdBufs j d p x rows ++ s.segBufs x.segtab es).findSome? (fun b => s.mem.readErr b.1 b.2),
    badIf (bwdNan j d p x rows s) St.badOperand 1,
    badIf (j.inst.x1 || j.inst.x2) St.badReserved 1,
    badIf (!(p.kfmt == .kvb16 && p.vfmt == .kvb16)) St.bwdFormat 0,
    badIf (s.badStamp j d p x rows) St.statsMissing 0,
    badIf (s.badSaved d p x rows) St.badOperand 0,
    badIf (areas.any (fun r => bufs.any (fun b => overlap r.1 r.2 b.1 b.2))) St.badOperand 0,
    areas.findSome? (fun r => s.rngUp j.ctx r.1 r.2 0)]

/-- R186: gradient areas that hold undefined values. -/
def State.spoilAreas (s : State) (areas : List (Nat × Nat)) : State := areas.foldl (fun s r => s.scramble r.1 r.2) s

/-- R154, R186: no dQ row and no gradient area of the instruction is defined. -/
def bwdSpoil (j : Job) (d : Desc) (p : Profile) (rows : Nat) (areas : List (Nat × Nat)) (s : State) : State :=
  (s.scramble j.w2.toNat (rowsLen p rows (d.ofmt = 1))).spoilAreas areas

/-- R185: half lane-operations of a backward query-key product of head dimension D: 12 × D lane-operations. -/
def Profile.bwdLanes (p : Profile) : Nat := 24 * p.hdim

/-- R182: what ATT.BWD's failure leaves: areas that are no memory of its context are not touched (log 10). -/
def State.ownAreas (s : State) (j : Job) (areas : List (Nat × Nat)) : List (Nat × Nat) :=
  areas.filter (fun r => (s.rngUp j.ctx r.1 r.2 0).isNone)

/-- R154, R182: a failed check of ATT.BWD writes no dQ row and no gradient element; where a read failed, none is defined. -/
def State.bwdBadly (s : State) (spoil : State → State) (e : Status × Nat) : Chk := s.attBadly [] spoil e

/-- R57, R182, R183, R175: what ATT.BWD checks, and its dispatch. -/
def attBwdChk (j : Job) (s : State) : Chk :=
  let d := s.desc j.w0.toNat
  let p := s.descProfile d
  let es := s.queryBlocks j.w0.toNat d.lentab d.count
  let rows := rowTotal es
  let bad (e : Status × Nat) : Chk :=
    s.headBadly j d (rowsLen p rows (d.ofmt = 1)) (fun s => s.scramble j.w2.toNat (rowsLen p rows (d.ofmt = 1))) e
  match s.raggedHead j (fun d => (j.inst.x2 && d.aux = 0) || (j.inst.x1 && d.stats = 0)) with
  | some e => bad e
  | none =>
    match s.bwdRanges j with
    | some e => bad e
    | none =>
      let x := s.aux d.aux
      let spoil (s : State) : State := bwdSpoil j d p rows (s.ownAreas j (s.gradAreas j.layer.toNat p x es)) s
      let arr (e : AttEntry) : Nat := s.segArray x.segtab e.i
      s.attTables j d es spoil (fun s =>
        match firstBad [s.badEntries j j.w0.toNat d (fun i _ => s.queryEntry j.layer.toNat p (es.getD i {})),
            s.bwdChecks j d p x es] with
        | some e => s.bwdBadly spoil e
        | none => s.dispatch j d es p.layers true (s.querySpans p arr es)
            (s.formUnits j p p.bwdLanes (fun es => es.flatMap (fun e => s.groupedUnits p 16384 (arr e) e)) es true))

/-! ### The values of ATT.BWD (R179) -/

/-- R179: what a row gives at one position that it meets: ds and p as worked out, and their references: ds in units of 2^-554, p of
2^-256; no reference where an input has no stated value. -/
structure BwdAt where
  /-- The position. -/
  t : Nat := 0
  /-- Where its key and value stand. -/
  at_ : KeyAt := {}
  /-- R179: ds. -/
  ds : BitVec 32 := 0
  /-- R179: p. -/
  pr : BitVec 32 := 0
  /-- R187: the references of ds and p. -/
  ref : Option (Int × Nat) := none
deriving DecidableEq, Repr

/-- R179: one row and head of a unit: its query and output gradient as converted, and its positions in blocks. -/
structure BwdRow where
  /-- R177: row number. -/
  r : Nat := 0
  /-- Query head. -/
  h : Nat := 0
  /-- R141: the query. -/
  q : List Int := []
  /-- R141: dO. -/
  dO : List Int := []
  /-- R171: the blocks. -/
  blocks : List (List BwdAt) := []
deriving DecidableEq, Repr

/-- R187: the reference of ds and p at a position. -/
def State.bwdRef (s : State) (p : Profile) (q dO : List Int) (head : Nat) (k : KeyAt) (m l delta : BitVec 32) :
    Option (Int × Nat) :=
  match s.scoreRef p q k.view head k.slot, s.kvExact p false k.view head k.slot with
  | some sc, some v =>
    let x := sc - fpVal m * (2 ^ 298 : Nat)
    if 200 * (2 ^ 447 : Nat) < x || fpMag l = 0 then none
    else
      let pr : Nat := expRef 447 x * 2 ^ 149 / fpMag l
      some ((pr : Int) * (dot dO v - fpVal delta * (2 ^ 149 : Nat)), pr)
  | _, _ => none

/-- R179: one position of a row. -/
def State.bwdAt (s : State) (p : Profile) (q dO : List Int) (head t : Nat) (k : KeyAt) (m l delta : BitVec 32) : BwdAt :=
  if k.meets then
    let pr := fpDiv (fpExp (fpAdd (s.score p q k.view head k.slot) (fpNegate m))) l
    { t := t, at_ := k, pr := pr, ref := s.bwdRef p q dO head k m l delta
      ds := fpMul pr (fpAdd (s.product p false dO k.view head k.slot) (fpNegate delta)) }
  else { t := t, at_ := k }

/-- R179, R183: the rows of one unit, from the state at its dispatch. -/
def State.bwdUnit (s : State) (j : Job) (d : Desc) (p : Profile) (x : Aux) (e : AttSeen) (u : AttUnit) : List BwdRow :=
  let arr := s.segArray x.segtab e.e.i
  (List.range u.count).flatMap (fun c => (List.range p.group).map (fun g =>
    let query := u.first + c
    let r := e.e.row0 + (query - e.e.q0)
    let h := u.head * p.group + g
    let n := r * p.qheads + h
    let q := s.queryRow p x.qbuf r h (d.qfmt = 1)
    let dO := s.queryRow p j.w1.toNat r h (d.qfmt = 1)
    let (m, l) := s.stat d.stats n
    let delta := BitVec.ofNat 32 (s.field (x.delta + 4 * n) 4)
    { r := r, h := h, q := q, dO := dO
      blocks := (s.blocksOf arr u).map (fun b =>
        List.zipWith (fun t k => s.bwdAt p q dO u.head t k m l delta) (pageRange b.1 b.2) (e.keys b.1 b.2 (s.meets p arr query))) }))

/-- R179, R183: a row's share of dQ in one unit, before σ. -/
def State.bwdDq (s : State) (p : Profile) (head : Nat) (b : BwdRow) : List (BitVec 32) :=
  b.blocks.foldl (fun acc ks => s.weigh p true head (ks.map (fun k => (k.at_, k.ds))) acc) (List.replicate p.hdim 0)

/-- R183: the shares of a row's slices joined by FP32 addition, in ascending position order. -/
def joinDq (d : Nat) (xs : List (List (BitVec 32))) : List (BitVec 32) :=
  match xs with
  | [] => List.replicate d 0
  | x :: r => r.foldl (fun a b => List.zipWith fpAdd a b) x

/-- R187: the positions of rows that have references, or none. -/
def bwdRefs (ks : List BwdAt) : Option (List (BwdAt × Int × Nat)) :=
  (ks.filter (fun k => k.at_.meets)).mapM (fun k => k.ref.map (fun r => (k, r.1, r.2)))

/-- R179, R187: dQ of one row and head: as worked out, or the part's own within the bound (free value n). -/
def State.finishDq (s : State) (p : Profile) (head n : Nat) (bs : List BwdRow) (dq : List (BitVec 32)) : List (BitVec 32) :=
  let sg := sigma p.hdim32
  let own := Config.fpFree n
  let vs := (bwdRefs (bs.flatMap (fun b => b.blocks.flatten))).bind (fun ks =>
    ks.mapM (fun k => (s.kvExact p true k.1.at_.view head k.1.at_.slot).map (fun v => (k.2.1, v))))
  match vs with
  | none => (List.range p.hdim).map own
  | some vs => (List.range p.hdim).map (fun d =>
      let v := vs.foldl (fun a x => a + x.1 * x.2.getD d 0) 0 * fpVal sg
      let mag := vs.foldl (fun a x => a + (x.1 * x.2.getD d 0).natAbs) 0 * fpMag sg
      fpPick [own d, fpMul sg (dq.getD d 0)] v (2 ^ 703) mag (1024 * 2 ^ 703))

/-- R179, R183, R187: the sums of dK (or, with `val`, of dV) of a unit at one of its positions: worked out from the 16-bit conversions
of R143, or the part's own within half the bound (log 12). -/
def bwdSum (p : Profile) (n : Nat) (val : Bool) (rows : List (BwdRow × BwdAt × Int)) : List (BitVec 32) :=
  let sg := sigma p.hdim32
  let own := Config.fpFree n
  let side (b : BwdRow) : List Int := if val then b.dO else b.q
  let one (v : Int) : BitVec 32 := if val then fpOf v (2 ^ 149) else fpMul sg (fpOf v (2 ^ 149))
  let sum (d : Nat) : Int := rows.foldl (fun a x => a + x.2.2 * (side x.1).getD d 0) 0
  match rows.mapM (fun x => x.2.1.ref.map (fun r => (x.1, if val then (r.2 : Int) else r.1 * fpVal sg))) with
  | none => (List.range p.hdim).map own
  | some rs => (List.range p.hdim).map (fun d =>
      let v := rs.foldl (fun a x => a + x.2 * (side x.1).getD d 0) 0
      let mag := rs.foldl (fun a x => a + (x.2 * (side x.1).getD d 0).natAbs) 0
      let u := if val then 2 ^ 256 else 2 ^ 703
      fpPick [own d, one (sum d)] v u mag (2048 * u))

/-- R143, R179: the values of a block as they enter a product, converted to 16-bit mantissas, in units of 2^-149. -/
def convert16 (xs : List (BitVec 32)) : List Int := blockVals (blockFloat 16 (xs.map fpVal))

/-- R179: the rows of a unit that meet a position, with the converted ds (or p) of each there. -/
def rowsAt (val : Bool) (bs : List BwdRow) (t : Nat) : List (BwdRow × BwdAt × Int) :=
  bs.flatMap (fun b => b.blocks.flatMap (fun ks =>
    ((List.zip ks (convert16 (ks.map (fun k => if val then k.pr else k.ds)))).filter (fun x => x.1.t == t && x.1.at_.meets)).map
      (fun x => (b, x.1, x.2))))

/-- R184: one FP32 addition into memory. -/
def State.addTo (s : State) (a : Nat) (v : BitVec 32) : State :=
  s.poke a (leBytes 4 (fpAdd (BitVec.ofNat 32 (s.field a 4)) v).toNat)

/-- R184: a run of elements added, each by one FP32 addition. -/
def State.addRun (s : State) (a : Nat) : List (BitVec 32) → State
  | [] => s
  | v :: r => (s.addTo a v).addRun (a + 4) r

/-- R181, R183, R184: the add job of one unit: the dK and dV sums of each position that one of its rows meets. -/
def State.addJob (s : State) (p : Profile) (area : Nat) (u : AttUnit) (bs : List BwdRow) : State :=
  (pageRange u.lo u.hi).foldl (fun s t =>
    let ks := rowsAt false bs t
    if ks.isEmpty then s
    else
      let base := area + t / 16 * p.gframe + 4 * ((u.head * 16 + t % 16) * p.hdim)
      let n := s.fresh
      (({ s with fresh := n + 2 }).addRun base (bwdSum p n false ks)).addRun (base + p.gframe / 2)
        (bwdSum p (n + 1) true (rowsAt true bs t))) s

/-- R179: dQ of one row and head, written. -/
def State.putDq (s0 : State) (p : Profile) (out head : Nat) (fp32 : Bool) (bs : List BwdRow) (s : State) : State :=
  match bs with
  | [] => s
  | b :: _ =>
    let n := b.r * p.qheads + b.h
    let dq := s0.finishDq p head s.fresh bs (joinDq p.hdim (bs.map (s0.bwdDq p head)))
    { s with fresh := s.fresh + 1 }.poke (out + n * p.hdim * eltSize fp32) (dq.flatMap (outValue fp32))

/-- R179, R183, R184: the rows of one entry of ATT.BWD, and the add jobs of its units. -/
def State.bwdRows (s0 : State) (j : Job) (d : Desc) (p : Profile) (x : Aux) (e : AttSeen) (s : State) : State :=
  let area := s0.field (x.gradmap + 8 * e.e.i) 8
  let us := j.snap.units.filter (fun u => u.entries.contains e.e.i)
  let s := (List.range e.e.rows).foldl (fun s k =>
    let q := e.e.q0 + k
    (List.range p.qheads).foldl (fun s h =>
      let mine := rowUnits us e.e.i (h / p.group) (fun _ => q)
      s0.putDq p j.w2.toNat (h / p.group) (d.ofmt = 1)
        (mine.flatMap (fun u => (s0.bwdUnit j d p x e u).filter (fun b => b.r == e.e.row0 + k && b.h == h))) s) s) s
  us.foldl (fun s u => s.addJob p area u (s0.bwdUnit j d p x e u)) s

/-- R179-R186: the units, rows and add jobs of an ATT.BWD whose pages are resident, and how it completes. -/
def State.bwdEnds (s0 : State) (j : Job) (d : Desc) (es : List AttEntry) (xs : List AttSeen) (ms : List Miss) (s : State) :
    Done × State :=
  let p := s0.descProfile d
  let x := s0.aux d.aux
  let areas := s0.gradAreas j.layer.toNat p x es
  let good := xs.filter (fun e => !e.fails)
  let arr := s0.segArray x.segtab
  let us := unitsRun j.snap.units (fun i => good.any (fun x => x.e.i == i))
  let s1 := s.runUnits j us p.bwdLanes (s0.blockProds arr) false (fun _ => true)
  let bufs := (bwdBufs j d p x (rowTotal es)).foldl (fun n b => n + b.2) (rowsLen p (rowTotal es) (d.ofmt = 1))
  let s1 := s1.hearthBytes j (sectionBytes p us (s0.pagesRead arr) bufs)
  let s2 := good.foldl (fun s e => s0.bwdRows j d p x e s) s1
  let s3 := s2.spoilAreas ((xs.filter (·.fails)).map (fun e => areas.getD e.e.i (0, 0)))
  let r := missDone (good.foldl (fun n e => n + e.e.rows) 0) d.mrlist d.mrcap ms
  (s3.stored j.w2.toNat (rowsLen p (rowTotal es) (d.ofmt = 1)) r, s3.writeMisses d.mrlist d.mrcap ms)

/-- R179-R187: ATT.BWD once it is dispatched. -/
def attBwdBody (j : Job) (s : State) : Out :=
  let d := s.desc j.w0.toNat
  let p := s.descProfile d
  let x := s.aux d.aux
  let es := s.queryBlocks j.w0.toNat d.lentab d.count
  s.attRun j p es (s.blockPages j.snap.units (fun e => s.segArray x.segtab e.i))
    (bwdBufs j d p x (rowTotal es) ++ s.segBufs x.segtab es) (bwdNan j d p x (rowTotal es)) (bwdSpoil j d p (rowTotal es) (s.gradAreas j.layer.toNat p x es)) (s.bwdEnds j d es)

/-- R57: ATT.BWD. -/
def execAttBwd (a : At) (s : State) : Host.Outcome State Fault Refusal := .next (runHob 0x53 a attBwdChk attBwdBody s)

end Machine
end Sys2Proof
end

