-- ==== Sys2Proof/Machine/Key.lean ====
section
/-! DEFINITION. Remote keys (R328, R329): KEY.REGISTER and KEY.REVOKE. -/

namespace Sys2Proof
namespace Machine

/-- R328: the first free entry of a die's key table. -/
def State.keySlot (s : State) (d : Side) : Option Nat :=
  ((groupBanks d .keys).filter (fun b => !((s.eng.get d).badBanks.contains (b % 16)))).findSome? s.domFree

/-- R328: the Domino entry of a registration. -/
def keyEntry (rkey : BitVec 32) (ctx : Nat) (conn : Option Nat) (idx : Nat) (gen : BitVec 16) : DomEntry :=
  let all := 2 ^ 256 - 1
  { width := 4, key := keyLookup rkey ctx (conn.getD 0)
    mask := BitVec.ofNat 256 (if conn.isSome then all else all - (2 ^ 15 - 1) * 2 ^ 44)
    result := BitVec.ofNat 64 (idx + gen.toNat * 2 ^ 12) }

/-- R328: a key the context has not had, not 0: the free value where it serves, else the least that does. -/
def freshKey (issued : List Nat) (free : BitVec 64) : Nat :=
  let k := free.toNat % 2 ^ 32
  if k != 0 && !(issued.contains k) then k else lowestFree (issued.foldl insNat []) 1

/-- R328, R59: KEY.REGISTER. -/
def registerBody (j : Job) (s : State) : Out :=
  let v := j.w2.toNat
  let i := s.flu.keys.lowFree
  match s.keySlot .west, s.keySlot .east with
  | some aw, some ae =>
    if 4096 ≤ i then fails St.noSpace 0 s
    else
      let (f, s) := s.free
      let x := s.ctx j.ctx
      let k := freshKey x.issuedKeys f
      let rkey := BitVec.ofNat 32 k
      let gen := BitVec.ofNat 16 (s.flu.keyGens.lookD i 0 + 1)
      let conn := if bitOf v 15 then none else some (bits v 0 15)
      let rec_ : Key := {
        rkey := rkey, ctx := j.ctx, conn := conn, base := j.w0.toNat, len := bits j.w1.toNat 0 48, read := bitOf j.w1.toNat 48
        write := bitOf j.w1.toNat 49, event := if bitOf v 31 then some (bits v 16 14) else none, gen := gen }
      let e := keyEntry rkey j.ctx conn i gen
      let s := (s.domPut aw e).domPut ae e
      let s := s.setCtx j.ctx { x with issuedKeys := k :: x.issuedKeys }
      succeeds k { s with flu := { s.flu with
        keys := s.flu.keys.put i rec_, keyGens := s.flu.keyGens.put i gen.toNat } }
  | _, _ => fails St.noSpace 0 s

/-- R328: KEY.REGISTER. -/
def execKeyRegister (a : At) (s : State) : Host.Outcome State Fault Refusal := .next (runHob 0xB0 a (checks (fun j s => s.rng j.ctx j.w0.toNat (bits j.w1.toNat 0 48) 0)) registerBody s)

/-- R329: the Domino entries of a registration are invalidated. -/
def State.keyForget (s : State) (i : Nat) : State :=
  { s with dom := { s.dom with entries := s.dom.entries.keep (fun a e =>
      !(bankGroup (a / 8192) == .keys && bits e.result.toNat 0 12 == i)) } }

/-- R329 steps 1 and 2. -/
def State.startRevoke (s : State) (i : Nat) : State :=
  match s.flu.keys.look i with
  | none => s
  | some k => ({ s with flu := { s.flu with keys := s.flu.keys.put i { k with revoking := true } } }).keyForget i

/-- R329: the live registration of a context with a remote key. -/
def State.keyOf (s : State) (c : Nat) (rkey : Nat) : Option Nat :=
  (s.flu.keys.find? (fun k => k.2.ctx == c && k.2.rkey.toNat == rkey && !k.2.revoking)).map (·.1)

/-- R329: what KEY.REVOKE checks: a key the context does not hold completes ST_ACCESS (log 35). -/
def revokeBad (j : Job) (s : State) : Bad := badIf (s.keyOf j.ctx (bits j.w0.toNat 0 32)).isNone St.access 0

/-- R329: KEY.REVOKE. -/
def revokeBody (j : Job) (s : State) : Out :=
  match j.prev with
  | some (.revoke i) => .wait (.revoke i) s
  | _ =>
    match s.keyOf j.ctx (bits j.w0.toNat 0 32) with
    | none => fails St.access 0 s
    | some i => .wait (.revoke i) (s.startRevoke i)

/-- R329: KEY.REVOKE. -/
def execKeyRevoke (a : At) (s : State) : Host.Outcome State Fault Refusal := .next (runHob 0xB1 a (checks revokeBad) revokeBody s)

/-- R329 step 4: the in-flight count is zero: the record is freed. -/
def revokeGo (_ : Job) (w : Wait) (s : State) : Option Out :=
  match w with
  | .revoke i =>
    if (s.flu.keys.lookD i {}).inflight = 0 then
      some (succeeds 0 { s with flu := { s.flu with keys := s.flu.keys.del i } })
    else none
  | _ => none

/-- R329: KEY_REVOKE_DONE. -/
def execKeyRevokeDone (a : At) (s : State) : Host.Outcome State Fault Refusal := .next (goOn 0xB1 a revokeGo s)

end Machine
end Sys2Proof
end

