-- ==== Sys2Proof/Machine/Reset.lean ====
section
/-! DEFINITION. Faults and their report (R421-R428), warm reset (R415), cold reset and the recovery log (R417-R420), the boot
(R400, R431-R433), power (R416, R482, R486-R488) and GBL_CTL (R505). -/

namespace Sys2Proof
namespace Machine

/-! ### The fault report (R428, R507) -/

/-- R507: KIND of a fault. -/
def kindCode : FaultKind → Nat
  | .firebox => 1
  | .stoker => 2
  | .journalBank => 3
  | .hbmStack => 4
  | .bridgeLane => 5
  | .cxlLane => 6
  | .flueLane => 7
  | .nandDie => 8

/-- R507: GBL_FAULT after a fault: the first record stands, a further one sets MORE. -/
def faultWord (old : BitVec 32) (kind : Nat) (die : Side) (unit : Nat) : BitVec 32 :=
  if old.getLsbD 0 then old ||| 2 else BitVec.ofNat 32 (1 + 16 * kind + 256 * die.num + 65536 * (unit % 256))

/-- R428, R507, R515: the fault vector raised in each MANAGER LD. -/
def State.raiseFault (s : State) : State :=
  (allLds.filter s.manager).foldl (fun s l => s.raise l.head l.id s.gbl.faultVec.toNat) s

/-- R428, R452, R462, R507: a fault or fatal error is reported. -/
def State.report (s : State) (kind : Nat) (die : Side) (unit : Nat) : State :=
  let s := { s with gbl := { s.gbl with
    fault := faultWord s.gbl.fault kind die unit, alert := true
    faultCount := if s.gbl.faultCount = 0xFFFFFFFF then s.gbl.faultCount else s.gbl.faultCount + 1 } }
  let s := (s.countAo 0x03800130).raiseFault.postHealth
  s.trace die { type := 12, arg := s.gbl.fault.toNat + 2 ^ 32 * s.gbl.faultCount.toNat }

/-- R23, R427: a fatal error: the control plane stops on both dies and the journal is sealed. -/
def State.fatal (s : State) (die : Side) (unit : Nat) : State :=
  let s := s.report 11 die unit
  { s with gbl := { s.gbl with stopped := true }, jrn := { s.jrn with sealed := true } }

/-- R23, R421: a fault: its report, its recovery and its window; one inside an open window is fatal. -/
def State.fault (s : State) (kind : FaultKind) (die : Side) (unit : Nat) (recover : State → State) : State :=
  if !s.live then s
  else if s.gbl.stopped || !s.gbl.windows.isEmpty then s.fatal die unit
  else
    let s := recover (s.report (kindCode kind) die unit)
    { s with gbl := { s.gbl with windows := s.gbl.windows ++ [{ kind := kind, die := die, unit := unit, opened := s.now.toNat }] } }

/-! ### Pauses (R444, R460) -/

/-- R444: a record's latency leaves out the time from t0 on, but for what an excluded wait covers already. -/
def JRec.excludeFrom (r : JRec) (t0 now : Nat) : JRec :=
  match r.freeAt with
  | none => r
  | some f =>
    let from_ := Nat.max t0 f
    let till := match r.waitFrom with
      | some w => Nat.min w now
      | none => now
    { r with excluded := r.excluded + (till - from_) }

/-- R444: the accepted instructions' latencies leave out the time from t0 to now. -/
def State.excludeAll (s : State) (t0 : Nat) : State :=
  s.mapRecs (fun r => if r.state == .done then r else r.excludeFrom t0 s.now.toNat)

/-- R460: a record of the trace queue that was formed inside a paused region of these engine classes (all where none is named) carries
the time at which it leaves the region. -/
def leaves (cls : Option Nat) (start : Nat) (now : BitVec 64) (x : TraceRec × BitVec 64) : TraceRec × BitVec 64 :=
  if start ≤ x.2.toNat && (cls.isNone || cls == some x.1.cls) then (x.1, now) else x

/-- R460, R462: a paused region resumes on a die: what was held in it leaves it now, and one PAUSED record. -/
def State.resumed (s : State) (d : Side) (cause start : Nat) (cls : Option Nat := none) : State :=
  let t := s.tel.trace.get d
  let t := { t with queue := t.queue.map (leaves cls start s.now) }
  ({ s with tel := { s.tel with trace := s.tel.trace.set d t } }).trace d { type := 11, unit := cause, arg := start }

/-- R19, R411, R415: ISSUED instructions resume; their completions set RESUMED. -/
def State.markResumed (s : State) (p : JRec → Bool) : State :=
  s.mapRecs (fun r => if r.state == .issued && p r then { r with resumed := true } else r)

/-- R444: the latencies of the accepted instructions leave out the time from t0 to now. -/
def State.excludeSince (s : State) (t0 : Nat) : State :=
  s.mapRecs (fun r => if r.state == .done then r else r.excludeFrom t0 s.now.toNat)

/-! ### Warm reset (R415) -/

/-- R415 steps 1 to 3, R505: a warm reset starts, or waits for the end of the recovery window. -/
def State.startWarm (s : State) : State :=
  if !s.live || s.gbl.held || s.gbl.warming || s.gbl.stopped || s.pkg.powerWarn || s.gbl.powerHold then s
  else if !s.gbl.windows.isEmpty then { s with gbl := { s.gbl with warmWaiting := true } }
  else
    { s with
      gbl := { s.gbl with warming := true, warmWaiting := false }
      pkg := { s.pkg with pauses := s.pkg.pauses ++ [(4, s.now.toNat)] } }

/-- R327: what a warm reset leaves of an inbound message: held packets are gone, and their arrival bits with them. -/
def warmRx (m : RxMsg) : RxMsg :=
  let lost := (m.held.map (fun h => h.2.2.pktIdx.toNat)).filter (fun i => !(m.written.contains i))
  { m with
    held := [], arrived := m.arrived.filter (fun i => !(lost.contains i)), payload := m.payload.keep (fun i _ => !(lost.contains i))
    trailer := if lost.contains (m.count - 1) then none else m.trailer, keys := m.keys.keep (fun i _ => !(lost.contains i))
    unacked := m.unacked.filter (fun i => !(lost.contains i)), read := m.read && !(lost.contains 0) }

/-- R328: the in-flight counts of the registrations that held packets carried. -/
def heldKeys (x : Conn) : List Nat :=
  x.rx.flatMap (fun m => (m.keys.filter (fun p => m.held.any (fun h => h.2.2.pktIdx.toNat == p.1))).map (·.2))

/-- R276, R327, R366, R413: what a warm reset wipes: Firebox SRAM, the Domino CAM, port buffers, decoders (log 44), the nonces given. -/
def State.warmWipe (s : State) : State :=
  let rel := s.flu.conns.vals.flatMap heldKeys
  let s := (s.portDown .west).portDown .east
  { s with
    eng := s.eng.map (fun e => { e with fbxHolds := [] })
    sec := { s.sec with nonces := [] }
    dom := { s.dom with
      entries := [], shifts := []
      accStatus := s.dom.accStatus &&& ~~~(1 : BitVec 64)
      table := s.dom.table.mapVals (fun _ e => { e with inDomino := false }) }
    flu := { s.flu with
      conns := s.flu.conns.mapVals (fun _ x => { x with
        rx := x.rx.map warmRx, tx := x.tx.map (fun m => { m with due := true }) })
      keys := s.flu.keys.mapVals (fun i k => { k with inflight := k.inflight - (rel.filter (· == i)).length }) }
    cxp := { s.cxp with head := s.cxp.head.map (fun h => { h with
      lds := h.lds.mapVals (fun _ x => { x with decoders := [] }) }) } }

/-- R234, R415, R434, R436: the NAND channels whose power enable is high: not before it rises, and not while the part is HELD. -/
def State.nandPower (s : State) : List Nat :=
  (List.range 32).filter (fun i => s.coal.chEn.getLsbD i && !s.gbl.held && decide (s.coal.rises.lookD i 0 ≤ s.now.toNat))

/-- R415 steps 4 and 5: WARM_DONE: the wipe, then HELD, where the NAND power enables are low (State.nandPower). -/
def execWarmDone (s : State) : Host.Outcome State Fault Refusal :=
  .next (if s.gbl.warming then
      let s := s.warmWipe
      { s with gbl := { s.gbl with warming := false, held := true } }
    else s)

/-- R328, R413, R415: the registrations, which the Hearth tier has kept, stand in the key tables of both dies again (log 44). -/
def State.reloadKeys (s : State) : State :=
  (s.flu.keys.filter (fun p => !p.2.revoking)).foldl (fun s p =>
    match s.keySlot .west, s.keySlot .east with
    | some aw, some ae =>
      let e := keyEntry p.2.rkey p.2.ctx p.2.conn p.1 p.2.gen
      (s.domPut aw e).domPut ae e
    | _, _ => s) s

/-- R415: RESTORE: enables and contexts as before; issue resumes, and completions of resumed instructions set RESUMED. -/
def State.restore (s : State) : State :=
  if !s.gbl.held then s
  else
    let t0 := ((s.pkg.pauses.find? (fun p => p.1 == 4)).map (·.2)).getD s.now.toNat
    let s := ({ s with gbl := { s.gbl with held := false } }).reloadKeys
    let s := (s.excludeSince t0).markResumed (fun _ => true)
    let s := (s.resumed .west 4 t0).resumed .east 4 t0
    ({ s with pkg := { s.pkg with pauses := s.pkg.pauses.filter (fun p => p.1 != 4) } } : State).pumpAll

/-! ### The recovery log (R417-R420) -/

/-- R417, R419, R61: a journal record as the recovery log carries it. -/
def State.rlogRecord (s : State) (r : JRec) : BitVec 256 :=
  let i := Inst.of r.desc
  let late : BitVec 4 := if s.boundNs r.ring != 0 && s.lateNow r then Fl.late else 0
  let bs :=
    if r.state == .done then
      fullRecord r.index r.status (flagsByte (r.cflags ||| late) false) (BitVec.ofNat 8 i.opcode) r.layer i.opid r.detail
        (if s.sec.confidential then 0 else r.result) r.time
    else fullRecord r.index St.notExecuted 0 (BitVec.ofNat 8 i.opcode) r.layer i.opid r.detail 0 r.time
  BitVec.ofNat 256 (ofBytes bs)

/-- R418, R419: a section put at the end of the recovery log; the oldest of four goes. -/
def addSection (l : List RlogSection) (x : RlogSection) : List RlogSection :=
  if l.length < 4 then l ++ [x] else l.drop 1 ++ [{ x with flags := x.flags ||| 8 }]

/-- R21, R417, R419, R427: the section that a cold reset writes. A journal without a record makes none, unless the section reports
JOURNAL_INCOMPLETE or a stop (log 45). -/
def State.section_ (s : State) (cause flags : Nat) (recs : List JRec) : State :=
  let cause := if s.gbl.stopped then 8 else cause
  let rs := (recs.map (·.ring)).foldl insNat []
  if recs.isEmpty && flags % 2 = 0 && cause ≠ 8 then s
  else
    let x : RlogSection := {
      cause := cause, flags := BitVec.ofNat 8 flags, time := s.now, bootSeq := s.gbl.bootSeq
      rings := rs.map (fun n => (n, (s.ring n).ctx.toNat, (s.ring n).cls.toNat, (s.ring n).aidx))
      recs := rs.flatMap (fun n => (recs.filter (fun r => r.ring == n)).map (fun r => (n, s.rlogRecord r))) }
    { s with gbl := { s.gbl with rlog := addSection s.gbl.rlog x } }

/-! ### What a cold reset keeps (R413) -/

/-- R251, R252: the map of a half as its media give it: with the buffer flushed, all of it; without hold-up, what the latest
checkpoint and the programmed log give. -/
def Half.mediaMap (h : Half) (buffered : Bool) : Tbl MapEnt :=
  if (h.replayed || h.ready) && buffered then h.map else h.replayMap

/-- R251: the log records that replay finds: those programmed, and those of the buffer where it was flushed. -/
def Half.mediaLog (h : Half) (buffered : Bool) : List MapLog := h.log ++ (if buffered then h.logBuf else [])

/-- R251 step 5: the superblocks of log records whose ERASE has no following SB_OPEN. -/
def pendingErases (l : List MapLog) : List Nat :=
  l.foldl (fun ks r => match r with
    | .erase k => insNat ks k
    | .sbOpen k _ => ks.filter (· != k)
    | _ => ks) []

/-- R251 steps 2 to 5: a superblock as replay finds it: its counts are those of the index, its erases with those that the log holds
since; one without an SB_CLOSE that is left
counts as closed and is a first victim; one whose erase the log leaves pending is erased again. -/
def Half.replaySb (h : Half) (buffered : Bool) (k : Nat) (b : Superblock) : Superblock :=
  let l := h.mediaLog buffered
  let since := sinceCheckpoint h.log ++ (if buffered then h.logBuf else [])
  let opened := since.any (fun r => match r with
    | .sbOpen k' _ => k' == k
    | _ => false)
  let b := { b with
    patrolled := none, reads := if opened then [] else h.index.reads.lookD k []
    erases := h.index.erases.lookD k 0 + (since.filter (fun r => r == .erase k)).length }
  if b.state == .erasing || (pendingErases l).contains k then { erases := b.erases, members := b.members, state := .erasing }
  else if b.state == .opened || (b.state == .closed && !buffered && h.logBuf.any (· == .sbClose k)) then { b with state := .closed, firstVictim := true, copies := false }
  else b

/-- R251 step 6, R413: a half after a cold reset, before its replay: its media with the records of the persistent class, as one index
with the map-area addresses of the leaves that have not changed since they were written. -/
def Half.afterReset (h : Half) (buffered : Bool) : Half :=
  let m := (h.mediaMap buffered).keep (fun _ e => e.persist)
  let dir := (h.leaves.keep (fun n x => !x.dirty && x.addr.isSome && m.keys.any (fun k => leafOf k == n))).mapVals
    (fun _ x => x.addr.getD 0)
  let sbs := h.sbs.mapVals (fun k b => h.replaySb buffered k b)
  let since := sinceCheckpoint h.log ++ (if buffered then h.logBuf else [])
  let erased (t : Tbl Nat) (r : MapLog) : Tbl Nat := match r with
    | .erase k => (h.sb k).members.foldl (fun t m => t.upd (blockKey m) 0 (· + 1)) t
    | _ => t
  let x : Index := {
    map := m, dir := dir, blocks := h.index.blocks, valid := h.index.valid, erases := sbs.mapVals (fun _ b => b.erases)
    blkErases := since.foldl erased h.index.blkErases, reads := sbs.mapVals (fun _ b => b.reads) }
  { ckpts := [x], blkErases := x.blkErases, badAt := h.badAt, spans := h.spans.keep (fun _ v => v.2), mapNext := h.mapNext, flush := h.flush
    nextFlush := h.nextFlush, sbs := sbs, nextSeq := h.nextSeq, programmed := h.programmed, spare := h.spare
    spareStart := h.spareStart, retired := h.retired, worn := h.worn, capLoss := h.capLoss, failedLuns := h.failedLuns }

/-- R413: the Coal store after a cold reset: media, health log, the root's check value. -/
def Coal.afterReset (c : Coal) (buffered : Two Bool) : Coal :=
  { media := c.media && !c.formatting, mediaReadOnly := c.mediaReadOnly, rootCheck := c.rootCheck
    health := { c.health with hour := [], hourAt := 0, unsafeLoss := c.health.unsafeLoss + (if buffered.w && buffered.e then 0 else 1) }
    half := ⟨c.half.w.afterReset buffered.w, c.half.e.afterReset buffered.e⟩ }

/-- R396: a weight object after a cold reset: READY, without its key. -/
def coldObj (w : WObj) : WObj := { w with keyed := false, key := none }

/-- R222, R396: a chunk of a kept weight object after a cold reset: COLD. -/
def coldChunk (p : Page) : Page :=
  if p.life == .lost then p
  else { p with
    res := .cold, primary := none, promotePending := false, staged := none, ref := false, pinned := false, coal := true }

/-- R396: the weight objects that a cold reset keeps: those that are READY (log 46). -/
def State.keptObjs (s : State) : Tbl WObj :=
  (s.wobjs.keep (fun _ w => w.live && (List.range w.lengths.length).all (fun l => w.loaded.contains l))).mapVals (fun _ w => coldObj w)

/-- R120, R413: an address lies in the view of a page whose record of the persistent class the media keep. -/
def Coal.keepsByte (c : Coal) (a : Nat) : Bool :=
  (c.half.w.ckpt ++ c.half.e.ckpt).any (fun p => decide (viewBase p.1 ≤ a) && decide (a < viewBase p.1 + 1024 * p.2.kib))

/-- R413, R421, R431, R500: the part after the wipe of a cold reset; what single faults have taken from it stays lost. The bytes of a kept Coal record stand at its page's view. -/
def State.wiped (s : State) (buffered : Two Bool) (debug : Bool) : State :=
  let objs := s.keptObjs
  let coal := s.coal.afterReset buffered
  { pending := s.pending, fresh := s.fresh, resp := s.resp
    gbl := { stepping := s.gbl.stepping, rlog := s.gbl.rlog, bootSeq := s.gbl.bootSeq + 1 }
    sec := { lcs := s.sec.lcs, fuseSvn := s.sec.fuseSvn, persistGen := s.sec.persistGen, fwCopies := s.sec.fwCopies
             drbg := s.sec.drbg + 1, reserveKey := s.sec.drbg, debugOpen := debug, debugOpened := debug }
    coal := coal
    mem := { cells := s.mem.cells.filter (fun c => coal.keepsByte c.1) }
    dom := { catalogue := s.dom.catalogue }
    wobjs := objs
    pages := (s.pages.keep (fun _ p => match p.chunk with
      | some c => objs.has c.1
      | none => false)).mapVals (fun _ p => coldChunk p)
    profiles := s.profiles.keep (fun i _ => objs.vals.any (fun w => w.pslot == i))
    eng := s.eng.map (fun e => { lanes := e.lanes, spareLanes := e.spareLanes, deadStokers := e.deadStokers
                                 deadFireboxes := e.deadFireboxes })
    jrn := { failedBanks := s.jrn.failedBanks }
    drt := { failed := s.drt.failed }
    cxp := { head := s.cxp.head.map (fun h => { widest := h.widest }) }
    pkg := { s.pkg with
      powerWarn := false, highAt := 0, flushing := false, holdupMissed := false, copies := ⟨none, none⟩, thermalPause := ⟨none, none⟩
      throttle := ⟨0, 0⟩, regSilent := ⟨false, false⟩, regAt := ⟨0, 0⟩, supplyAt := ⟨none, none⟩, trefAt := none, absent := []
      sensors := [], sensorAt := [], excluded := [], pauses := [] } }

/-- R413, R417: a cold reset that is no power loss: the journal SRAM into the recovery log, then the wipe. CAUSE is the code
of R419. -/
def State.coldReset (s : State) (cause : Nat) : State :=
  if !s.pkg.powered || !s.pkg.resetHigh then s
  else (s.section_ cause 0 s.jrn.recs).wiped ⟨true, true⟩ s.sec.debugRequest

/-- R419: CAUSE. -/
def causeCode : ResetCause → Nat
  | .powerLoss => 1
  | .perst => 2
  | .fundamental => 3
  | .resetN => 4
  | .coldReset => 5
  | .lifeCycle => 6
  | .openDebug => 7
  | .stop => 8

/-- R413, R417, R481: COLD_RESET: power returns, RESET_N rises, or a cold reset of the given cause (log 47). -/
def execColdReset (cause : ResetCause) (s : State) : Host.Outcome State Fault Refusal :=
  .next (
    if !s.pkg.powered then (if cause == .powerLoss then { s with pkg := { s.pkg with powered := true } } else s)
    else if !s.pkg.resetHigh then (if cause == .resetN then { s with pkg := { s.pkg with resetHigh := true } } else s)
    else s.coldReset (causeCode cause))

/-- R413, R481, R495: RESET_N_ASSERT: a cold reset; the part stays in reset until RESET_N rises. -/
def execResetNAssert (s : State) : Host.Outcome State Fault Refusal :=
  .next (if s.pkg.powered && s.pkg.resetHigh then
      let s := s.coldReset 4
      { s with pkg := { s.pkg with resetHigh := false } }
    else s)

/-- R414, R505: a reset of a head: of the primary head a cold reset, of the other head its link down. -/
def State.headReset (s : State) (head : Side) (cause : Nat) : State :=
  if !s.pkg.powered || !s.pkg.resetHigh then s
  else if head == s.gbl.perstHead then s.coldReset cause else s.cxlDown head

/-- R414, R495: PERST_ASSERT; a pulse shorter than 1 µs is ignored. -/
def execPerstAssert (head : Side) (lowNs : Nat) (s : State) : Host.Outcome State Fault Refusal :=
  .next (if lowNs < 1000 then s else s.headReset head 2)

/-- R414: FUNDAMENTAL_RESET. -/
def execFundamentalReset (head : Side) (s : State) : Host.Outcome State Fault Refusal := .next (s.headReset head 3)

/-! ### The boot (R400, R431-R433) -/

/-- R400, R431: the boot ROM loads an image. -/
def State.loadable (s : State) (i : FwImage) : Bool :=
  i.signed && decide (i.bytes ≤ 16777216) && decide (s.sec.fuseSvn ≤ i.svn) && decide (i.svn ≤ 64) && i.serves.contains s.sec.lcs

/-- R400, R401: the image that the boot ROM loads: of two valid copies the one with the higher SVN, of equals that on
channel 0. -/
def State.bootImage (s : State) : Option FwImage :=
  match s.sec.fwCopies.w.filter s.loadable, s.sec.fwCopies.e.filter s.loadable with
  | some a, some b => if a.svn < b.svn then some b else some a
  | some a, none => some a
  | none, o => o

/-- R164, R421, R425, R433: the engines of a die after self-test: 64 Fireboxes of those that passed and have not failed before, the rest
spares; the Stokers that have not failed. -/
def Engines.tested (e : Engines) (badFbx badDomino : List Nat) (die : Side) : Engines :=
  let good := (List.range 68).filter (fun i => !(badFbx.contains i) && !(e.deadFireboxes.contains i))
  { e with
    fireboxes := good.take 64, spares := good.drop 64, stokers := (List.range 8).filter (fun u => !(e.deadStokers.contains u))
    badBanks := (badDomino.filter (fun b => b / 16 == die.num)).map (· % 16) }

/-- R421, R433: working journal banks of a die after self-test. -/
def State.goodBanks (s : State) (r : SelfTest) (d : Side) : Nat := 34 - Nat.max (r.badBanks.get d).length (s.jrn.failedBanks.get d)

/-- R401, R431-R433: the boot ends: the firmware runs with what self-test left in service. -/
def State.boot (s : State) (r : SelfTest) : State :=
  match s.bootImage with
  | none => s
  | some img =>
    let banks (d : Side) : Nat := s.goodBanks r d
    let e := s.eng
    let lostStacks : Two (List Nat) := ⟨(r.badStacks.w.filter (· < 10)).foldl insNat s.drt.failed.w,
      (r.badStacks.e.filter (· < 10)).foldl insNat s.drt.failed.e⟩
    { s with
      gbl := { s.gbl with
        fwReady := true, fwReadyAt := s.now.toNat, mantelAt := some s.now.toNat
        journalFail := decide (banks .west < 32) || decide (banks .east < 32)
        stackFail := !lostStacks.w.isEmpty && !lostStacks.e.isEmpty }
      sec := { s.sec with
        entropyFail := r.entropyFail, svn := img.svn, fwDigest := img.digest, reportSvn := s.sec.fuseSvn, fwPending := false, fwCopies := ⟨some img, some img⟩ }
      jrn := { s.jrn with spares := ⟨banks .west - 32, banks .east - 32⟩ }
      drt := { s.drt with failed := lostStacks }
      pkg := { s.pkg with absent := r.absentSensors }
      eng := ⟨e.w.tested r.badFireboxes.w r.badDomino .west, e.e.tested r.badFireboxes.e r.badDomino .east⟩ }

/-- R431, R433: FW_READY, while the part is powered, out of reset and not yet booted; without a loadable image the boot ROM
waits (R400). -/
def execFwReady (report : SelfTest) (s : State) : Host.Outcome State Fault Refusal :=
  .next (if s.pkg.powered && s.pkg.resetHigh && !s.gbl.fwReady && !s.pkg.powerWarn && !s.gbl.powerHold
      && s.sec.lcs != .scrapped then s.boot report else s)

/-! ### Power (R416, R482, R486-R488, R492) -/

/-- R416: every NAND channel of a die is enabled and in service. -/
def State.channelsOn (s : State) (d : Side) : Bool :=
  (List.range 16).all (fun i => s.coal.inService.getLsbD (i + 16 * d.num))

/-- R250, R416, R486 steps 1 to 4: a warning is recognised: acceptance and issue stop, the engines pause, the flush starts; a row that
waits to be programmed counts as one whose program runs (log 124). -/
def State.warn (s : State) : State :=
  if s.pkg.powerWarn || s.gbl.powerHold || !s.pkg.powered then s
  else { s with
    pkg := { s.pkg with
      powerWarn := true, flushing := true, holdupMissed := !(s.channelsOn .west) || !(s.channelsOn .east)
      pauses := s.pkg.pauses ++ [(1, s.now.toNat)] }
    coal := { s.coal with half := s.coal.half.map (fun h => { h with programming := h.ready && !h.row.isEmpty }) } }

/-- R486, R487: POWER_WARN_ASSERT, for as long as the pin is low; a pulse shorter than 200 ns is ignored, and a further one is noted only
for the time from which the pin is high. -/
def execPowerWarnAssert (lowNs : Nat) (s : State) : Host.Outcome State Fault Refusal :=
  .next (if lowNs < 200 then s
    else { s with pkg := { s.pkg with highAt := Nat.max s.pkg.highAt (s.now.toNat + lowNs) } }.warn)

/-- R250, R416: a half's map log buffer in one of its two flush slots, which take turns. -/
def Half.flushed (h : Half) : Half := { h with flush := some (h.nextFlush, h.logBuf), nextFlush := 1 - h.nextFlush }

/-- R416: the sealed copy of the journal that a die's flush writes, where every channel of the die is enabled. -/
def State.flushCopy (s : State) (d : Side) : Option FlushCopy :=
  if s.channelsOn d then some { recs := s.jrn.recs, time := s.now } else none

/-- R250, R416, R486 step 5: FLUSH_COMPLETE: the buffers and the journal copies lie in the flush slots; POWER_HOLD. -/
def execFlushComplete (s : State) : Host.Outcome State Fault Refusal :=
  .next (if s.pkg.flushing && s.pkg.powered then
      { s with
        pkg := { s.pkg with flushing := false, copies := ⟨s.flushCopy .west, s.flushCopy .east⟩ }
        gbl := { s.gbl with powerHold := true }
        coal := { s.coal with
          half := s.coal.half.map Half.flushed, health := { s.coal.health with powerLoss := s.coal.health.powerLoss + 1 } } }
    else s)

/-- R15, R487: POWER_HOLD_EXIT: POWER_WARN# has been high for 10 ms: a cold reset with CAUSE 1. -/
def execPowerHoldExit (s : State) : Host.Outcome State Fault Refusal :=
  .next (if s.gbl.powerHold && !s.pkg.thermtrip && decide (s.pkg.highAt + 10000000 ≤ s.now.toNat) then s.coldReset 1 else s)

/-- R24, R416, R417: the journal records that the flush slots give after a power loss, and COPY_MISMATCH: of two sealed copies the West
one, or the one that is sealed; where neither is, none before a flush had begun, and of a flush under way those slots that had
reached the Coal store, which are free (log 122). -/
def State.survivors (s : State) : List JRec × Bool :=
  match s.pkg.copies.w, s.pkg.copies.e with
  | some a, some b => (a.recs, a.recs != b.recs)
  | some a, none => (a.recs, false)
  | none, some b => (b.recs, false)
  | none, none =>
    (if s.pkg.flushing && (s.channelsOn .west || s.channelsOn .east) then
      s.jrn.recs.filter (fun r => (Config.freeByte s.fresh r.slot).getLsbD 0) else [], false)

/-- R24, R416, R417, R482: POWER_LOSS: with hold-up met the section comes from the flush slots; else JOURNAL_INCOMPLETE is set,
and only slots that were flushed give records. With RESET_N low it is an ordered power-down: the cold reset before it has written
its section. -/
def execPowerLoss (s : State) : Host.Outcome State Fault Refusal :=
  .next (
    if !s.pkg.powered then s
    else
      let met := s.pkg.flushed && !s.pkg.holdupMissed
      let flags := (if met then 0 else 1) + (if s.pkg.flushed then 2 else 0) + (if s.survivors.2 then 4 else 0)
      let buffered (d : Side) : Bool := !s.pkg.resetHigh || (s.pkg.copies.get d).isSome
      let kept := { s with fresh := s.fresh + 1 }
      let t := (if s.pkg.resetHigh then kept.section_ 1 flags s.survivors.1 else kept).wiped ⟨buffered .west, buffered .east⟩ false
      { t with pkg := { t.pkg with powered := false, thermtrip := false, vtarget := ⟨750, 750⟩ } })

/-- R434, R481, R492: THERMTRIP# is low: it has tripped, and RESET_N does not release it. -/
def State.thermtripLow (s : State) : Bool := s.pkg.thermtrip && s.pkg.resetHigh

/-- R434, R492: THERMTRIP: a sensor at 120 °C: the pin, active from reset release, falls, and the part responds as to POWER_WARN#. -/
def execThermtrip (_die : Side) (temp : Int) (s : State) : Host.Outcome State Fault Refusal :=
  .next (if temp < 120 || !s.pkg.powered || !s.pkg.resetHigh then s
    else ({ s with pkg := { s.pkg with thermtrip := true } }).warn)

/-! ### GBL_CTL and GBL_FAULT (R502, R505, R507) -/

/-- R505: a write to GBL_CTL through a MANAGER LD. -/
def State.gblCtl (s : State) (ld : Ld) (value : BitVec 64) : State :=
  if !s.pkg.powered || !s.pkg.resetHigh || !(s.manager ld) then s
  else
    let held := s.gbl.held
    let s := { s with gbl := { s.gbl with perstHead := if value.getLsbD 4 then .east else .west } }
    if value.getLsbD 2 then s.coldReset 5
    else
      let s := if value.getLsbD 3 && s.gbl.fwReady then { s with gbl := { s.gbl with rlog := [] } } else s
      let s := if value.getLsbD 0 then s.startWarm else s
      if value.getLsbD 1 && held then s.restore else s

/-- R415, R505: GBL_WARM_RESET. -/
def execGblWarmReset (ld : Ld) (value : BitVec 64) (s : State) : Host.Outcome State Fault Refusal :=
  .next (if value.getLsbD 0 then s.gblCtl ld value else s)

/-- R415, R505: GBL_RESTORE. -/
def execGblRestore (ld : Ld) (value : BitVec 64) (s : State) : Host.Outcome State Fault Refusal :=
  .next (if value.getLsbD 1 then s.gblCtl ld value else s)

/-- R505: GBL_COLD_RESET. -/
def execGblColdReset (ld : Ld) (value : BitVec 64) (s : State) : Host.Outcome State Fault Refusal :=
  .next (if value.getLsbD 2 then s.gblCtl ld value else s)

/-- R418, R505: GBL_RLOG_CLEAR. -/
def execGblRlogClear (ld : Ld) (value : BitVec 64) (s : State) : Host.Outcome State Fault Refusal :=
  .next (if value.getLsbD 3 then s.gblCtl ld value else s)

/-- R428, R500, R507: GBL_FAULT_CLEAR: VALID written 1 clears the record, and ALERT# is released. -/
def execGblFaultClear (ld : Ld) (value : BitVec 64) (s : State) : Host.Outcome State Fault Refusal :=
  .next (if value.getLsbD 0 && s.pkg.powered && s.pkg.resetHigh && !s.gbl.held && s.manager ld then
      { s with gbl := { s.gbl with fault := 0, alert := false } }
    else s)

end Machine
end Sys2Proof
end

