-- ==== Sys2Proof/Machine/Coal.lean ====
section
/-! DEFINITION. Coal store media (R232-R264, R521-R523): channels, superblocks and rows, garbage collection, wear, checkpoints,
replay, format, LUN failures, and COAL_CTL. -/

namespace Sys2Proof
namespace Machine

/-! ### Retirement of blocks (R260, R263) -/

/-- R260, R263: a member block of a channel is retired: a spare of the channel takes its place, or the capacity falls. -/
def State.retireBlock (s : State) (d : Side) (ch lun block : Nat) : State :=
  let h := s.coal.half.get d
  let n := h.spare.getD ch 0
  let h := ({ h with
    spare := h.spare.set ch (n - 1), retired := h.retired.set ch (h.retired.getD ch 0 + 1)
    capLoss := if n = 0 then h.capLoss + 1 else h.capLoss
    worn := h.worn ++ [(ch, lun, block)]
    retireTimes := h.retireTimes ++ [(ch, lun, s.now.toNat)] }).addLog (.retire ch lun block)
  (({ s with coal := { s.coal with health := { s.coal.health with retired := s.coal.health.retired + 1 } } }).setHalf d h).fullCheck d

/-! ### LUN failures (R262) -/

/-- R262: DEGRADED clears when no superblock is left to relocate. -/
def Half.relocated (h : Half) : Half :=
  { h with degraded := h.degraded && h.sbs.vals.any (fun b => b.relocate) }

/-- R262: a LUN leaves service: DEGRADED, every superblock with a member on it is closed and queued for relocation, its share of the
channel's spare pool goes; R267: with the last LUN of a channel the channel has failed. -/
def State.lunOut (s : State) (channel lun : Nat) : State :=
  let d := sideOf (channel / 16)
  let ch := channel % 16
  let h := s.coal.half.get d
  let left := Nat.max s.coal.luns 1 - (h.failedLuns.filter (fun x => x.1 == ch)).length
  if h.failedLuns.contains (ch, lun) then s
  else
    let on (b : Superblock) : Bool := b.members.any (fun m => m.1 == ch && m.2.1 == lun)
    let h : Half := { h with
      failedLuns := h.failedLuns ++ [(ch, lun)], degraded := true
      sbs := h.sbs.mapVals (fun _ b => if on b && b.state != .free then { b with relocate := b.state != .erasing } else b)
      spare := h.spare.set ch (h.spare.getD ch 0 - ceilDiv (h.spare.getD ch 0) left) }
    let filling := (h.sbs.filter (fun p => on p.2 && p.2.state == .opened)).map (·.1)
    let h := filling.foldl Half.closeSb h
    let h := h.relocated
    let fault : BitVec 32 := if left ≤ 1 then BitVec.ofNat 32 (2 ^ channel) else 0
    ({ s with coal := { s.coal with chFault := s.coal.chFault ||| fault, health := { s.coal.health with failedLuns := s.coal.health.failedLuns + 1 } } }).setHalf d h

/-- R262, R421: a LUN has failed. -/
def State.lunFail (s : State) (channel lun : Nat) : State :=
  if 32 ≤ channel || s.coal.luns ≤ lun then s
  else s.fault .nandDie (sideOf (channel / 16)) (channel % 16) (fun s => s.lunOut channel lun)

/-- R262, R421: NAND_LUN_FAIL. -/
def execNandLunFail (channel lun : Nat) (s : State) : Host.Outcome State Fault Refusal := .next (s.lunFail channel lun)

/-- R262: ns of an hour. -/
def hourNs : Nat := 3600000000000

/-- R260, R262: the member block of superblock k on a channel is retired; with the fourth of a LUN within one hour the LUN fails. -/
def State.retireMember (s : State) (d : Side) (k ch : Nat) : State :=
  match ((s.coal.half.get d).sb k).members.find? (fun m => m.1 == ch) with
  | none => s
  | some (_, lun, block) =>
    let s := s.retireBlock d ch lun block
    let late := (s.coal.half.get d).retireTimes.filter (fun r => r.1 == ch && r.2.1 == lun && decide (s.now.toNat < r.2.2 + hourNs))
    if 4 ≤ late.length then s.lunFail (16 * d.num + ch) lun else s

/-! ### Rows (R237, R240, R253, R260) -/

/-- R266: the readings of the assigned sensors that answer, in 1/16 °C. -/
def State.nandReadings (s : State) : List Int :=
  (s.pkg.sensors.filter (fun p => s.coal.sensors.getLsbD p.1 && !(s.pkg.excluded.contains p.1))).map (·.2)

/-- R266: the NAND-area temperature exceeds TLIMIT. -/
def State.nandHot (s : State) : Bool := s.nandReadings.any (fun t => decide ((16 * s.coal.tlimit : Int) < t))

/-- R253, R262, R266: the demotion ceiling of a half in MB/s: by its free superblocks, at most 4 GB/s while it relocates, halved while
the NAND area is too hot. -/
def State.ceiling (s : State) (d : Side) : Nat :=
  let h := s.coal.half.get d
  let free := 1000 * s.coal.freeSbs h
  let at_ (i : Nat) : Nat := bits s.coal.gc.toNat i 10 * s.coal.superblocks
  let c := if free < at_ 20 then 0 else if free < at_ 10 then 4000 else if free < at_ 0 then 8000 else 12000
  let c := if h.degraded then Nat.min c 4000 else c
  if s.nandHot then c / 2 else c

/-- R253: the half may program demotions: their ceiling is not 0. -/
def State.demotionsRun (s : State) (d : Side) : Bool := s.ceiling d != 0

/-- R253, R269: THROTTLED of a half: its demotion ceiling lies below 12 GB/s. -/
def State.throttled (s : State) (d : Side) : Bool := (s.coal.half.get d).ready && decide (s.ceiling d < 12000)

/-- R250, R253, R522: a row may end its program: the ceiling lets demotions run, or EN is clear and the row ran before; after a power
warning only one whose program ran then. -/
def State.rowRuns (s : State) (d : Side) : Bool :=
  s.coal.formatted && s.live && (s.demotionsRun d || !s.coal.en) && (!s.pkg.powerWarn || (s.coal.half.get d).programming)

/-- R522: operations run on the media of a half: a row that is programmed, an erase, a promotion that reads. -/
def State.mediaBusy (s : State) (d : Side) : Bool :=
  let h := s.coal.half.get d
  !h.row.isEmpty || h.sbs.vals.any (fun b => b.state == .erasing) || (s.drt.reqs.get d).any (fun r => r.issuedAt.isSome)

/-- R522 step 3: with EN clear, READY clears once the operations running have finished. -/
def State.settle (s : State) (d : Side) : State :=
  let h := s.coal.half.get d
  if h.ready && !s.coal.en && !(s.mediaBusy d) then s.setHalf d { h with ready := false } else s

/-- R237, R240, R260: the row at the front of a half is programmed, or fails on a channel: its member block is retired, the
superblock is closed, and the row is written again in another. -/
def State.rowDone (s : State) (d : Side) (ok : Bool) (channel : Nat) : State :=
  let h := s.coal.half.get d
  if !(s.rowRuns d) then s
  else
    match s.coal.nextRow h false h.row with
    | none => s
    | some (k, h, row) =>
      if ok then
        let h := s.coal.writeRow k row { h with row := h.row.drop row.length, programming := false }
        let n := row.foldl (fun n e => n + 1024 * e.kib) 0
        let s := s.newHalf d h
        let c := { s.coal with health := { s.coal.health with demoted := s.coal.health.demoted + n } }
        (({ s with coal := c }).count 0x03300108 row.length).settle d
      else (s.setHalf d ({ h with programming := false }.closeSb k)).retireMember d k (channel % 16)

/-- R237: COAL_ROW_PROGRAMMED. -/
def execCoalRowProgrammed (half : Side) (ok : Bool) (channel : Nat) (s : State) : Host.Outcome State Fault Refusal :=
  .next (s.rowDone half ok channel)

/-! ### Garbage collection (R253-R255) -/

/-- R254: the map entries that lie in a superblock. -/
def Half.live (h : Half) (k : Nat) : Tbl MapEnt := h.map.keep (fun _ e => e.sb == k)

/-- R254: valid KiB of a superblock. -/
def Half.validIn (h : Half) (k : Nat) : Nat := (h.live k).vals.foldl (fun n e => n + e.kib) 0

/-- R253: copies may take budget: below TIER1 they have their guarantee; at or above it they have what demotions leave, here while none
waits; once no demotion or demand promotion has reached the half for IDLE_MS, they run until IDLE_TARGET (log 124). -/
def State.copiesRun (s : State) (d : Side) : Bool :=
  let h := s.coal.half.get d
  let free := 1000 * s.coal.freeSbs h
  let gc := s.coal.gc.toNat
  decide (free < bits gc 0 10 * s.coal.superblocks) ||
    (if h.reached + 1000000 * bits gc 40 8 ≤ s.now.toNat then decide (free < bits gc 30 10 * s.coal.superblocks) else h.row.isEmpty)

/-! ### Reads of the media (R258, R261, R262) -/

/-- R262: the channels on which a superblock's member lies on a failed LUN. -/
def Half.goneChs (h : Half) (b : Superblock) : List Nat :=
  (b.members.filter (fun m => h.failedLuns.contains (m.1, m.2.1))).map (·.1)

/-- R262: how a record is read whose own reads end as `read`: a member on a failed LUN is rebuilt, and where two of a row are gone, or
another codeword needs the rebuild, its codewords are unrebuildable. -/
def Half.readAs (h : Half) (read : MediaRead) (e : MapEnt) : MediaRead :=
  let gone := h.goneChs (h.sb e.sb)
  if gone.any (fun ch => (h.recordChs e).contains ch) then
    (if 1 < gone.length || read == .uncorrectable || read == .rebuilt then .uncorrectable else .rebuilt)
  else if !gone.isEmpty && read == .rebuilt then .uncorrectable
  else read

/-- R261: the step at which a read ended. -/
def readStep : MediaRead → Nat
  | .hard => 1
  | .soft => 2
  | .rebuilt => 4
  | .uncorrectable => 5

/-- R261: how the records of a read end together: as the one that needed the most. -/
def Half.readAll (h : Half) (read : MediaRead) (es : List MapEnt) : MediaRead :=
  es.foldl (fun r e => if readStep r < readStep (h.readAs read e) then h.readAs read e else r) .hard

/-- R236, R261: codewords that a record spans. -/
def MapEnt.words (e : MapEnt) : Nat := ceilDiv (e.off + e.kib) 4 - e.off / 4

/-- R261, R265: the codewords corrected by hard decoding, at step 2 or 3, and at step 4, of a read of n codewords: which of them needed
what is free, within what the read's end says; a rebuild reads up to 15 further codewords for each (log 123). -/
def eccWords (fresh n : Nat) (read : MediaRead) : Nat × Nat × Nat :=
  let upTo (i m : Nat) : Nat := Config.eccCount fresh i % (m + 1)
  match read with
  | .hard => (upTo 0 n, 0, 0)
  | .soft =>
    let soft := 1 + upTo 1 (n - 1)
    (upTo 0 (n - soft), soft, 0)
  | .rebuilt =>
    let re := 1 + upTo 2 (n - 1)
    let all := n + 14 * re
    let soft := upTo 1 all
    (upTo 0 (all - soft), soft, re)
  | .uncorrectable =>
    let all := 16 * n
    let soft := upTo 1 all
    (upTo 0 (all - soft), soft, upTo 2 (n - 1))

/-- R261, R265, R267, R452: a read of n codewords ended: its counts. -/
def State.countRead (s : State) (read : MediaRead) (n bytes : Nat) : State :=
  let (hard, soft, re) := eccWords s.fresh n read
  let hl := s.coal.health
  let s := { s with fresh := s.fresh + 1, coal := { s.coal with health := { hl with
    read := hl.read + bytes, corrHard := hl.corrHard + hard, corrSoft := hl.corrSoft + soft, rebuilt := hl.rebuilt + re } } }
  ((s.count 0x03300120 soft).count 0x03300128 re).countAo 0x03800118 (soft + re)

/-- R219, R261, R265: an uncorrectable record is counted. -/
def State.countLost (s : State) : State :=
  ({ s with coal := { s.coal with health := { s.coal.health with lost := s.coal.health.lost + 1 } } }).count 0x03300130

/-- R258: n more reads of a member block. -/
def Superblock.read (b : Superblock) (x : Nat × Nat) : Superblock :=
  let l := b.reads ++ List.replicate (16 - b.reads.length) 0
  { b with reads := l.set x.1 (l.getD x.1 0 + x.2) }

/-- R258: reads of member blocks of a superblock counted; at READ_LIMIT × 1,000 of one it is queued for refresh. -/
def State.readSb (s : State) (d : Side) (k : Nat) (chs : List (Nat × Nat)) : State :=
  let h := s.coal.half.get d
  if h.sbs.has k then
    let b := chs.foldl Superblock.read (h.sb k)
    s.setHalf d (h.setSb k { b with refresh := b.refresh || b.reads.any (fun n => decide (1000 * bits s.coal.wear.toNat 32 16 ≤ n)) })
  else s

/-- R261: the reads again of a member for soft decoding and the read-retry levels: none, or two and more; free (log 123). -/
def readAgain (x : Nat) : Nat := if x = 1 then 0 else x

/-- R258, R261: the reads of each member block for the i-th record of a read: once where the record lies on it, or where a rebuild needs
it, and again as its decoding needed. -/
def Half.readsOf (h : Half) (fresh i : Nat) (read : MediaRead) (e : MapEnt) : List (Nat × Nat) :=
  let b := h.sb e.sb
  let on := if read == .hard || read == .soft then h.recordChs e else b.members.map (·.1)
  (on.filter (fun ch => !((h.goneChs b).contains ch))).map (fun ch =>
    (ch, 1 + (if read == .hard then 0 else readAgain (Config.eccCount fresh (16 + 16 * i + ch)))))

/-- R258, R261, R265, R267: records of a half read from the media, which ended as `read`. -/
def State.readRecords (s : State) (d : Side) (es : List MapEnt) (read : MediaRead) : State :=
  let h := s.coal.half.get d
  let s' := ((List.range es.length).zip es).foldl (fun s x => s.readSb d x.2.sb (h.readsOf s.fresh x.1 read x.2)) s
  (if read == .uncorrectable then s' else s'.count 0x03300100 es.length).countRead read (es.foldl (fun n e => n + e.words) 0)
    (es.foldl (fun n e => n + 1024 * e.kib) 0)

/-- R261, R262: records of a superblock that cannot be read, since their rows lack two members. -/
def Half.stuckIn (h : Half) (k : Nat) : Tbl MapEnt := (h.live k).keep (fun _ e => h.readAs .hard e == .uncorrectable)

/-- R254: the closed superblocks that may be victims: those that are queued, and those whose records can all be read. -/
def Half.closedSbs (h : Half) : Tbl Superblock :=
  h.sbs.keep (fun k b => b.state == .closed && (b.refresh || b.relocate || b.firstVictim || (h.stuckIn k).isEmpty))

/-- R253, R254: the next victim: closed under replay, then queued, then (while copies may take budget) the closed one with the fewest
valid bytes. -/
def State.gcVictim (s : State) (d : Side) : Option Nat :=
  let h := s.coal.half.get d
  let cl := h.closedSbs
  let least (x y : Nat × Superblock) : Nat × Superblock :=
    let a := h.validIn x.1
    let b := h.validIn y.1
    if b < a || (b = a && y.2.erases < x.2.erases) then y else x
  let any3 := if s.copiesRun d then
      (match cl with
      | [] => none
      | x :: r => some (r.foldl least x).1)
    else none
  ((cl.find? (fun p => p.2.firstVictim)).map (·.1)).or (((cl.find? (fun p => p.2.refresh || p.2.relocate)).map (·.1)).or any3)

/-- R257: with WL_EN, the closed superblock with the lowest erase count, when the counts of two member blocks of the half differ by more
than WEAR_SPREAD. -/
def State.wearVictim (s : State) (d : Side) : Option Nat :=
  let h := s.coal.half.get d
  let es := (List.range 16).flatMap h.erasesOn
  let blocks := (List.range 16).foldl (fun n ch => n + s.coal.blocksOn h ch) 0
  let lo := if es.length < blocks then 0 else minOr 0 es
  let cl := h.closedSbs
  if s.coal.wlEn && decide (bits s.coal.wear.toNat 16 16 < es.foldl Nat.max 0 - lo) then
    match cl with
    | [] => none
    | x :: r => some (r.foldl (fun b y => if y.2.erases < b.2.erases then y else b) x).1
  else none

/-- R255, R257, R258, R264: a victim's live records are read, copied and mapped, the log programmed, ERASE logged; its erase starts. Where
records cannot be read they stay, and the victim with them, which leaves the queue (log 124). -/
def State.reclaim (s : State) (d : Side) : State :=
  let h := s.coal.half.get d
  if !s.coal.gcEn || !s.coal.en || !h.ready || s.coal.readOnly || s.pkg.powerWarn || !s.running then s
  else
    match (s.gcVictim d).or (s.wearVictim d) with
    | none => s
    | some k =>
      let stuck := h.stuckIn k
      let good := (h.live k).keep (fun i _ => !(stuck.has i))
      let es := good.map (fun p =>
        ({ key := p.1, kib := p.2.kib, epoch := p.2.epoch, persist := p.2.persist, ctx := p.2.ctx, salt := p.2.salt, from_ := some p.2 } : RowEnt))
      let wasQueued := (h.sb k).refresh
      match (s.readRecords d good.vals (h.readAll .hard good.vals)).coalStore d true es with
      | none => s
      | some s =>
        let h := s.coal.half.get d
        let h := if stuck.isEmpty then h.programLog.addLog (.erase k) else h
        let h := (h.setSb k { h.sb k with
          state := if stuck.isEmpty then .erasing else .closed, firstVictim := false, refresh := false, relocate := false }).relocated
        let s := (s.setHalf d h).count 0x03300110 es.length
        if wasQueued then { s with coal := { s.coal with health := { s.coal.health with refreshed := s.coal.health.refreshed + 1 } } }
        else s

/-- R255: GC_RECLAIM. -/
def execGcReclaim (half : Side) (s : State) : Host.Outcome State Fault Refusal := .next (s.reclaim half)

/-- R255: a promotion that reads a record of a superblock has been issued and has not ended. -/
def State.readsIn (s : State) (d : Side) (k : Nat) : Bool :=
  (s.drt.reqs.get d).any (fun r => r.issuedAt.isSome && r.locs.any (fun e => e.sb == k))

/-- R250, R255, R260: COAL_ERASE_DONE: the superblock is free; the member blocks that failed are retired. The erase waits for every read in
flight on it; a power warning has reset the LUNs that were erasing. -/
def State.eraseDone (s : State) (d : Side) (k : Nat) (failed : List Nat) : State :=
  let h := s.coal.half.get d
  let b := h.sb k
  if b.state != .erasing || s.pkg.powerWarn || !s.live || s.readsIn d k then s
  else
    let s := s.setHalf d (h.countErase k)
    let s := failed.foldl (fun s ch => s.retireMember d k (ch % 16)) s
    let h := s.coal.half.get d
    ((s.setHalf d (h.setSb k { erases := b.erases + 1 })).count 0x03300118).settle d

/-- R255: COAL_ERASE_DONE. -/
def execCoalEraseDone (half : Side) (sb : Nat) (failed : List Nat) (s : State) : Host.Outcome State Fault Refusal :=
  .next (s.eraseDone half sb failed)

/-! ### Checkpoints and patrol (R249, R258, R259) -/

/-- R249: a checkpoint, due every CKPT_MS or after 1 GiB of log. -/
def State.checkpoint (s : State) (d : Side) : State :=
  let h := s.coal.half.get d
  if !(h.ready || h.replayed) || s.pkg.powerWarn || !s.live || s.coal.formatting then s
  else if s.now.toNat < h.ckptAt + 1000000 * s.coal.ckptMs && 16 * (sinceCheckpoint h.log).length < 1073741824 then s
  else s.setHalf d (h.checkpoint s.now.toNat)

/-- R249: COAL_CHECKPOINT. -/
def execCoalCheckpoint (half : Side) (s : State) : Host.Outcome State Fault Refusal := .next (s.checkpoint half)

/-- R270: ns of PATROL_DAYS. -/
def Coal.patrolNs (c : Coal) : Nat := bits c.wear.toNat 48 8 * 24 * hourNs

/-- R259: a patrol read of a superblock is due: PATROL_DAYS have passed since the latest one. -/
def Coal.patrolDue (c : Coal) (b : Superblock) (now : Nat) : Bool :=
  match b.patrolled with
  | none => true
  | some t => decide (t + c.patrolNs ≤ now)

/-- R259, R265: PATROL_READ: one wordline of each member block is read, 48 codewords of it, once in PATROL_DAYS; weak decoding queues the
superblock for refresh. -/
def State.patrol (s : State) (d : Side) (k : Nat) (read : MediaRead) (weak : Bool) : State :=
  let h := s.coal.half.get d
  let b := h.sb k
  if !s.coal.patrolEn || !s.coal.en || !h.ready || !(h.sbs.has k) || b.state == .free || b.state == .erasing || s.pkg.powerWarn
      || !s.live || !(s.coal.patrolDue b s.now.toNat) then s
  else
    let n := b.members.length
    let s := (s.readSb d k (b.members.map (fun m => (m.1, 1)))).countRead (if read == .uncorrectable then .rebuilt else read)
      (48 * n) (196608 * n)
    let h := s.coal.half.get d
    let b := { h.sb k with patrolled := some s.now.toNat }
    s.setHalf d (h.setSb k { b with refresh := b.refresh || read != .hard || weak })

/-- R259: PATROL_READ. -/
def execPatrolRead (half : Side) (sb : Nat) (read : MediaRead) (weak : Bool) (s : State) : Host.Outcome State Fault Refusal :=
  .next (s.patrol half sb read weak)

/-! ### Channels (R234, R436, R523) -/

/-- R234: bits of a mask. -/
def maskBits (m : BitVec 32) : List Nat := (List.range 32).filter (fun i => m.getLsbD i)

/-- R436: when the power enables of these channels rise, in ascending order: in groups of four, each 1 ms after the one before. -/
def riseTimes (now : Nat) (chs : List Nat) (t : Tbl Nat) : Tbl Nat :=
  ((List.range chs.length).zip chs).foldl (fun t x => t.put x.2 (now + 1000000 * (x.1 / 4))) t

/-- R234, R436: COAL_CH_EN: channels newly set are powered and await identification; a clear is taken unless EN or FORMATTING
forbids it. -/
def State.chEnWrite (s : State) (ld : Ld) (value : BitVec 64) : State :=
  if !s.regWritable ld then s
  else
    let c := s.coal
    let v : BitVec 32 := value.setWidth 32
    let keep := if c.en || c.formatting then c.chEn else 0
    let now := v ||| keep
    let up := now &&& ~~~ c.chEn
    { s with coal := { c with
      chEn := now, chFault := c.chFault &&& ~~~ up, powering := (c.powering &&& now) ||| up, inService := c.inService &&& now
      rises := riseTimes s.now.toNat (maskBits up) c.rises } }

/-- R234: COAL_CH_EN_WRITE. -/
def execCoalChEnWrite (ld : Ld) (value : BitVec 64) (s : State) : Host.Outcome State Fault Refusal := .next (s.chEnWrite ld value)

/-- R232, R523: die capacity in Tb: 1, 2 or 4, that which the pages of the LUN fill to more than half (log 123). -/
def nandTb (n : NandId) : Option Nat :=
  [1, 2, 4].find? (fun t => decide (t * 2 ^ 39 < 8 * n.pageBytes * n.pages * n.blocks) &&
    decide (8 * n.pageBytes * n.pages * n.blocks ≤ t * 2 ^ 40))

/-- R232: a LUN has the properties that the part supports. -/
def nandSupported (n : NandId) : Bool :=
  n.nvLpddr4 && n.onePassTlc && n.commands && !n.ezNand && (nandTb n).isSome && n.pageBytes == 16384 && decide (2048 ≤ n.spare) && n.planes == 4
    && n.pages % 3 == 0 && decide (128 ≤ n.pages / 3) && decide (n.pages / 3 ≤ 1024) && decide (n.tProg ≤ 1500)
    && decide (n.tProgSlc ≤ 250)

/-- R232, R233: a channel's LUNs have the properties of R232, and each of the four targets holds 1 to 4 of them; the raw capacity of
16 to 256 TiB follows. -/
def nandOk (n : NandId) : Bool :=
  n.same && nandSupported n && n.targets == 4 && decide (1 ≤ n.luns) && decide (n.luns ≤ 4)

/-- R523: RATED, saturating. -/
def ratedOf (n : NandId) : Nat := Nat.min 65535 (n.endurance.1 * 10 ^ n.endurance.2)

/-- R234: a parameter page as it is compared: the bad blocks are no part of it. -/
def nandPage (n : NandId) : NandId := { n with bad := 0, badAt := [] }

/-- R234: a channel is out of service, and marked faulted. -/
def Coal.faultCh (c : Coal) (ch : Nat) : Coal :=
  let bit : BitVec 32 := BitVec.ofNat 32 (2 ^ ch)
  { c with chFault := c.chFault ||| bit, inService := c.inService &&& ~~~ bit }

/-- R234: the other channels in service whose parameter page differs from that of channel 0 are faulted once it is known. -/
def Coal.compare (c : Coal) (n : NandId) : Coal :=
  ((c.ids.filter (fun p => p.1 != 0 && nandPage p.2 != nandPage n && c.inService.getLsbD p.1)).map (·.1)).foldl Coal.faultCh c

/-- R260: the factory-bad block groups of a channel, as identification reports them. -/
def Half.setBad (h : Half) (ch : Nat) (n : NandId) : Half :=
  { h with badAt := h.badAt.filter (fun x => x.1 != ch) ++ n.badAt.map (fun x => (ch, x.1, x.2)) }

/-- R523: RATED is filled from the parameter page, until software has written it. -/
def Coal.fillRated (c : Coal) (n : NandId) : Coal :=
  if c.ratedSet then c else { c with wear := BitVec.ofNat 64 (c.wear.toNat - bits c.wear.toNat 0 16 + ratedOf n) }

/-- R234, R436, R523: COAL_CHANNEL_IDENTIFY: once its power enable has risen the channel enters service, or is marked faulted. -/
def State.identify (s : State) (ch : Nat) (found : NandId) : State :=
  let c := s.coal
  let bit : BitVec 32 := BitVec.ofNat 32 (2 ^ ch)
  if 32 ≤ ch || !(c.powering.getLsbD ch) || decide (s.now.toNat < c.rises.lookD ch 0) then s
  else
    let same : Bool := match c.nand with
      | some n => ch = 0 || nandPage found == nandPage n
      | none => true
    let c := { c with powering := c.powering &&& ~~~ bit, ids := c.ids.put ch found }
    if nandOk found && same then
      let c := { c with
        inService := c.inService ||| bit, badBlocks := c.badBlocks.put ch found.bad
        half := c.half.upd (sideOf (ch / 16)) (fun h => h.setBad (ch % 16) found) }
      { s with coal := if ch = 0 then (({ c with nand := some found } : Coal).fillRated found).compare found else c }
    else { s with coal := c.faultCh ch }

/-- R234: COAL_CHANNEL_IDENTIFY. -/
def execCoalChannelIdentify (channel : Nat) (found : NandId) (s : State) : Host.Outcome State Fault Refusal :=
  .next (s.identify channel found)

/-! ### COAL_CTL (R268, R435, R521, R522) -/

/-- R435: channels of a half that are not enabled or are faulted. -/
def Coal.missing (c : Coal) (d : Side) : List Nat :=
  ((List.range 16).map (· + 16 * d.num)).filter (fun i => !(c.chEn.getLsbD i) || c.chFault.getLsbD i)

/-- R251, R522: EN is set: a half that has replayed since the last cold reset or format is READY again, the others replay;
R435: a missing channel is a failed one. -/
def State.coalOn (s : State) : State :=
  let start (h : Half) : Half := if h.replayed then { h with ready := s.coal.media } else { h with replaying := true }
  let s := { s with coal := { s.coal with en := true, half := s.coal.half.map start } }
  (s.coal.missing .west ++ s.coal.missing .east).foldl (fun s ch =>
    (List.range s.coal.luns).foldl (fun s l => s.lunOut ch l) s) s

/-- R200, R522: EN is cleared: demotions whose rows are not being programmed are refused, their pages HOT again; the row at the front counts
as being programmed (log 124); READY clears once what runs has finished. -/
def State.coalOff (s : State) : State :=
  let off (s : State) (d : Side) : State :=
    let h := s.coal.half.get d
    let n := match s.coal.nextRow h false h.row with
      | some (_, _, row) => row.length
      | none => 0
    let s := (h.row.drop n).foldl (fun (s : State) e => if !e.gone && (s.page e.key).res == .demoting then
      (s.updPage e.key (fun p => { p with res := .hot })).relist e.key else s) s
    ((s.setHalf d { h with row := h.row.take n }).fullCheck d).settle d
  let s := { s with coal := { s.coal with en := false } }
  off (off s .west) .east

/-- R521: a format starts. -/
def State.startFormat (s : State) : State :=
  { s with coal := { s.coal with
    formatting := true, formatted := false, media := false
    half := s.coal.half.map (fun h => { h with ready := false, replaying := false }) } }

/-- R268, R435, R521: a write to COAL_CTL. -/
def State.coalCtl (s : State) (ld : Ld) (value : BitVec 64) : State :=
  let en := value.getLsbD 0
  let c := s.coal
  let flags (s : State) : State := { s with coal := { s.coal with
    gcEn := value.getLsbD 1, wlEn := value.getLsbD 2, patrolEn := value.getLsbD 3 } }
  if !s.regWritable ld then s
  else if value.getLsbD 4 then (if !en && !c.en && !c.formatting then (flags s).startFormat else s)
  else if en && !c.en then
    (if c.formatting || 1 < (c.missing .west).length || 1 < (c.missing .east).length then s else (flags s).coalOn)
  else if !en && c.en then (flags s).coalOff
  else flags s

/-- R251, R268, R435: COAL_EN_SET. -/
def execCoalEnSet (ld : Ld) (value : BitVec 64) (s : State) : Host.Outcome State Fault Refusal :=
  .next (if value.getLsbD 0 then s.coalCtl ld value else s)

/-- R268, R522: COAL_EN_CLEAR. -/
def execCoalEnClear (ld : Ld) (value : BitVec 64) (s : State) : Host.Outcome State Fault Refusal :=
  .next (if value.getLsbD 0 || value.getLsbD 4 then s else s.coalCtl ld value)

/-- R268, R521: COAL_FORMAT. -/
def execCoalFormat (ld : Ld) (value : BitVec 64) (s : State) : Host.Outcome State Fault Refusal :=
  .next (if value.getLsbD 4 then s.coalCtl ld value else s)

/-- R251 step 5: a superblock erased again at replay. -/
def Half.eraseAgain (h : Half) (k : Nat) : Half :=
  (h.countErase k).setSb k { erases := (h.sb k).erases + 1 }

/-- R251: superblocks that replay erases again. -/
def Half.erasing (h : Half) : List Nat := (h.sbs.filter (fun p => p.2.state == .erasing)).map (·.1)

/-- R251 steps 1, 2 and 5: what replay makes of a half but for its map: the flush slots are erased, the directory is loaded (a leaf that the
log changed is cached), and the superblocks whose ERASE no SB_OPEN follows are erased again. -/
def Half.afterReplay (h : Half) : Half :=
  let dir : Tbl Nat := h.index.dir
  let h := h.erasing.foldl Half.eraseAgain { h with
    flush := none, leaves := dir.mapVals (fun _ a => ({ addr := some a } : Leaf)), clock := [] }
  let fresh := ((h.map.keys.map leafOf).foldl insNat []).filter (fun n => !(dir.has n))
  fresh.foldl (fun h n => { h.useLeaf n with leaves := (h.useLeaf n).leaves.upd n {} (fun x => { x with dirty := true }) }) h

/-- R251, R522: COAL_REPLAY_DONE: the map is back; READY while EN is still set; FORMATTED and READ_ONLY as the media say
(log 48). A power warning ends the reads of a replay. -/
def State.replayDone (s : State) (d : Side) : State :=
  let h := s.coal.half.get d
  if !h.replaying || s.coal.formatting || !s.live || s.pkg.powerWarn then s
  else
    let h := { h with
      replaying := false, replayed := true, map := h.replayMap, ready := s.coal.en && s.coal.media
      degraded := h.sbs.vals.any (fun b => b.relocate), ckptAt := s.now.toNat }
    let s := (s.newHalf d h.afterReplay).count 0x03300118 h.erasing.length
    { s with coal := { s.coal with formatted := s.coal.media, readOnly := s.coal.mediaReadOnly } }

/-- R251: COAL_REPLAY_DONE. -/
def execCoalReplayDone (half : Side) (s : State) : Host.Outcome State Fault Refusal := .next (s.replayDone half)

/-- R521 step 2: the block groups of a half that fail their erase at a format, as channel of the half, LUN and group: which is free; only
those that the geometry gives, and that were good (log 123); a channel that the format does not cover keeps those it had. -/
def State.failsAt (s : State) (d : Side) (cover : BitVec 32 := s.coal.inService) : List (Nat × Nat × Nat) :=
  let h := s.coal.half.get d
  (List.range 16).flatMap (fun ch =>
    if !(cover.getLsbD (ch + 16 * d.num)) then h.worn.filter (fun x => x.1 == ch)
    else ((Config.formatFails s.fresh (ch + 16 * d.num)).foldl (fun l x =>
        if l.contains x || s.coal.luns ≤ x.1 || s.coal.groups ≤ x.2 || h.badAt.contains (ch, x.1, x.2) then l else l ++ [x]) []).map
      (fun x => (ch, x.1, x.2)))

/-- R235, R260: the spare pool of each channel of a half at format, in member blocks of four: 2 % of its good blocks. -/
def Coal.spares (c : Coal) (d : Side) (fails : List (Nat × Nat × Nat)) : List Nat :=
  (List.range 16).map (fun i =>
    match c.device with
    | none => 0
    | some n => (n.targets * n.luns * n.blocks - c.badBlocks.lookD (i + 16 * d.num) 0
        - 4 * (fails.filter (fun x => x.1 == i)).length) * 2 / 400)

/-- R265: the health log after a format: the temperatures stay, the counts begin again. -/
def Health.formatted (h : Health) (bad failed : Nat) : Health :=
  { retired := failed, tmax := h.tmax, tmin := h.tmin, hours := h.hours, history := h.history, hour := h.hour, hourAt := h.hourAt, factoryBad := bad }

/-- R242, R521 steps 2 to 4: the media after a format: the blocks that failed retired, an empty map and checkpoint, fresh spare pools; a span with a live handle keeps its
frame size and class. -/
def State.erased (s : State) (ok : Bool) (cover : BitVec 32 := s.coal.inService) : State :=
  let c := s.coal
  let used (d : Side) (sp : Nat) : Bool := s.pages.keys.any (fun h => pageDie h == d && pageNo h / 2048 == sp)
  let half (d : Side) : Half :=
    let fails := s.failsAt d cover
    let spare := c.spares d fails
    ({ spare := spare, spareStart := spare, worn := fails, badAt := (c.half.get d).badAt
       retired := (List.range 16).map (fun i => (fails.filter (fun x => x.1 == i)).length)
       spans := (c.half.get d).spans.keep (fun sp _ => used d sp) } : Half).checkpoint s.now.toNat
  let failed := (s.failsAt .west cover).length + (s.failsAt .east cover).length
  { s with
    fresh := s.fresh + 1
    coal := { c with
      formatting := false, formatted := ok, media := ok, formatErr := c.formatErr || !ok, readOnly := false, mediaReadOnly := false
      half := ⟨half .west, half .east⟩, health := c.health.formatted (c.badBlocks.vals.foldl (· + ·) 0) failed, rootCheck := none }
    dom := { s.dom with catalogue := [] }
    gbl := { s.gbl with bootSeq := 0 } }

/-- R269, R521: COAL_FORMAT_DONE: goodLuns gives, for each enabled channel, its LUNs of good blocks; fewer than 4 on one sets
FORMAT_ERR. -/
def execCoalFormatDone (goodLuns : List Nat) (s : State) : Host.Outcome State Fault Refusal :=
  .next (if s.coal.formatting && s.live && !s.pkg.powerWarn then s.erased (goodLuns.all (fun n => 4 ≤ n)) else s)

end Machine
end Sys2Proof
end

