-- ==== Sys2Proof/Machine/Ctl.lean ====
section
/-! DEFINITION. The control instructions (R45-R49, R53) and the opcodes that are not listed (R32). -/

namespace Sys2Proof
namespace Machine

/-- R32, R49, R53: an unlisted opcode, or CTL.LOOP or CTL.RET in a ring entry, completes ST_BAD_OPCODE. -/
def execBadOpcode (a : At) (s : State) : Host.Outcome State Fault Refusal :=
  .next (runHob badOp a noCheck (fun _ s => fails St.badOpcode 0 s) s)

/-- R53: CTL.NOP. -/
def execCtlNop (a : At) (s : State) : Host.Outcome State Fault Refusal :=
  .next (runHob 0x00 a noCheck (fun _ s => succeeds 0 s) s)

/-- R45, R514: the ring halts: every later accepted instruction completes ST_CANCELLED, and acceptance is refused. -/
def State.halt (s : State) (n : Nat) : State :=
  let s := ((s.ringRecs n).filter (fun r => r.state == .accepted)).foldl (fun s r => s.void r St.cancelled) s
  s.setRing n { s.ring n with halted := true, reason := .halted }

/-- R45: CTL.FENCE, and what HALT makes of a failure since the previous one. -/
def fenceBody (j : Job) (s : State) : Out :=
  let n := j.site.ring
  let g := s.ring n
  let s := s.setRing n { g with failed := none }
  match j.inst.x0, g.failed with
  | true, some x => .done { status := St.ringHalted, detail := x.toNat } (s.halt n)
  | _, _ => succeeds 0 s

/-- R45: CTL.FENCE. -/
def execCtlFence (a : At) (s : State) : Host.Outcome State Fault Refusal :=
  .next (runHob 0x01 a noCheck fenceBody s)

/-- R46, R53: CTL.WAIT completes once its event is at least its threshold, compared unsigned. -/
def waitBody (j : Job) (s : State) : Out :=
  let e := bits j.w0.toNat 0 14
  let v := s.event j.ctx e
  if j.w1 ≤ v then .done { result := v } s
  else
    let deadline := match j.prev with
      | some (.event _ _ d) => d
      | _ => if j.w2 = 0 then none else some (s.now.toNat + j.w2.toNat)
    .wait (.event e j.w1 deadline) s

/-- R46: CTL.WAIT. -/
def execCtlWait (a : At) (s : State) : Host.Outcome State Fault Refusal :=
  .next (runHob 0x02 a noCheck waitBody s)

/-- R53: the timeout of a CTL.WAIT has passed. -/
def State.waitTimeout (s : State) (a : At) : State :=
  match s.rec? a with
  | none => s
  | some r =>
    match r.wait with
    | some (.event _ _ (some t)) =>
      if r.state == .issued && t ≤ s.now.toNat && s.running then (s.finish a { status := St.timeout }).markFree else s
    | _ => s

/-- R53: a CTL.WAIT that passes its timeout completes ST_TIMEOUT. -/
def execCtlWaitTimeout (a : At) (s : State) : Host.Outcome State Fault Refusal := .next (s.waitTimeout a)

/-- R46, R53: CTL.SIGNAL. -/
def signalBody (j : Job) (s : State) : Out :=
  let e := bits j.w0.toNat 0 14
  let n := if j.inst.x0 then j.w1 else s.event j.ctx e + j.w1
  .done { result := n } (s.signal j.ctx e j.w1 j.inst.x0)

/-- R46: CTL.SIGNAL. -/
def execCtlSignal (a : At) (s : State) : Host.Outcome State Fault Refusal :=
  .next (runHob 0x03 a noCheck signalBody s)

/-- R47: the comparisons of CTL.SKIPIF. -/
def skipHolds (c : Nat) (x y : BitVec 64) : Option Bool :=
  match c with
  | 0 => some (x == y)
  | 1 => some (x != y)
  | 2 => some (x.ult y)
  | 3 => some (!(x.ult y))
  | 4 => some (x.slt y)
  | 5 => some (!(x.slt y))
  | _ => none

/-- R47: CTL.SKIPIF. -/
def skipifBody (j : Job) (s : State) : Out :=
  let n := bits j.w2.toNat 16 8
  match skipHolds (bits j.w2.toNat 0 3) j.w0 j.w1 with
  | none => fails St.badOperand 2 s
  | some h =>
    if n = 0 then fails St.badOperand 2 s
    else if h then .done { result := 1, flow := .skip n } s
    else succeeds 0 s

/-- R47: CTL.SKIPIF. -/
def execCtlSkipif (a : At) (s : State) : Host.Outcome State Fault Refusal :=
  .next (runHob 0x04 a noCheck skipifBody s)

/-- R53: CTL.LOOP. -/
def loopBody (j : Job) (s : State) : Out :=
  let t := bits j.w0.toNat 0 12
  let v := (s.ring j.site.ring).val j.inst.dst
  match j.step with
  | none => fails St.badOpcode 0 s
  | some k =>
    if k ≤ t then .done { status := St.badOperand, keepDst := true } s
    else if v = 0 then succeeds 0 s
    else .done { result := v - 1, flow := .jump t } s

/-- R53: CTL.LOOP. -/
def execCtlLoop (a : At) (s : State) : Host.Outcome State Fault Refusal :=
  .next (runHob 0x05 a noCheck loopBody s)

/-- R48, R49: CTL.CALL; at most four calls are active in a ring (log 25). That ST_IMAGE comes before
ST_CALL_DEPTH is the model's choice (log 140). -/
def callBody (j : Job) (s : State) : Out :=
  let id := bits j.w0.toNat 0 10
  match s.images.look id with
  | none => fails St.image id s
  | some im =>
    if im.ctx ≠ j.ctx then fails St.image id s
    else if 4 ≤ (s.ring j.site.ring).calls.length then fails St.callDepth 0 s
    else .enter id j.inst.x0 s

/-- R49: CTL.CALL. -/
def execCtlCall (a : At) (s : State) : Host.Outcome State Fault Refusal :=
  .next (runHob 0x06 a noCheck callBody s)

/-- R49: CTL.RET ends the call. -/
def execCtlRet (a : At) (s : State) : Host.Outcome State Fault Refusal :=
  .next (runHob 0x07 a noCheck (fun _ s => .done { flow := .ret } s) s)

/-- R53: CTL.ADD. -/
def execCtlAdd (a : At) (s : State) : Host.Outcome State Fault Refusal :=
  .next (runHob 0x08 a noCheck (fun j s => .done { result := j.w0 + j.w1 } s) s)

end Machine
end Sys2Proof
end

