-- ==== Sys2Proof/Machine/Pkg.lean ====
section
/-! DEFINITION. Package (R265, R266, R480, R484, R491, R493): regulators, supply controller, thermal pause, sensors, clocks. -/

namespace Sys2Proof
namespace Machine

/-- A command of the package reaches the part only while it is powered and out of reset. -/
def State.awake (s : State) (go : State → State) : State := if s.pkg.powered && s.pkg.resetHigh then go s else s

/-! ### Regulators and the supply controller (R480, R491) -/

/-- R480: REGULATOR_POLL: IOUT of a core regulator read. -/
def execRegulatorPoll (die : Side) (iout : BitVec 16) (s : State) : Host.Outcome State Fault Refusal :=
  .next (s.awake (fun s => { s with pkg := { s.pkg with
    iout := s.pkg.iout.set die iout, regAt := s.pkg.regAt.set die s.now.toNat, regSilent := s.pkg.regSilent.set die false } }))

/-- R428, R480, R507: REGULATOR_TIMEOUT: 1 ms of silence is a fault, reported once; the die keeps its target. -/
def execRegulatorTimeout (die : Side) (s : State) : Host.Outcome State Fault Refusal :=
  .next (s.awake (fun s =>
    if s.pkg.regSilent.get die || s.now.toNat < s.pkg.regAt.get die + 1000000 then s
    else ({ s with pkg := { s.pkg with regSilent := s.pkg.regSilent.set die true } }).report 9 die 0))

/-- R17: an enabled ring carries a latency bound. -/
def State.floorHeld (s : State) : Bool := s.rings.vals.any (fun g => g.en && s.gbl.bounds.lookD g.cls.toNat 0 != 0)

/-- R480, R491: package power in mW, from IOUT in quarter amperes and the targets in mV. -/
def Package.power (p : Package) : Nat :=
  (p.iout.w.toNat * p.vtarget.w + p.iout.e.toNat * p.vtarget.e) / 4

/-- R491: package power exceeds 1,400 W. -/
def Package.overPower (p : Package) : Bool := 1400000 < p.power

/-- R17, R480: the target moves back towards 750 mV, or, while R17 holds and the measured rate is below 1.45 G beats/s, up to
800 mV; a raised target stays while R17 holds (log 121). -/
def recover (target rate : Nat) (held : Bool) : Nat :=
  if held && rate < 1450 then Nat.min 800 (target + 5)
  else if target < 750 then target + 5
  else if held then target else Nat.max 750 (target - 5)

/-- R17, R480: a held target: while R17 holds and the measured rate is below 1.45 G beats/s it is raised, up to 800 mV (log 121). -/
def holdRate (target rate : Nat) (held : Bool) : Nat := if held && rate < 1450 then Nat.min 800 (target + 5) else target

/-- R491: the level of the action that the temperature has under way (0 none, 1 from 103 °C down to the floor, 2 from 105 °C below it; each
ends 2 °C below) and the target after one tick, from the
level, the target, the temperature, the measured rate in M beats/s and whether the package draws too much. -/
def supplyTick (level target : Nat) (temp : Int) (rate : Nat) (hot held : Bool) : Nat × Nat :=
  let lower (v : Nat) : Nat := Nat.max 620 (v - 5)
  let atFloor := held && decide (rate ≤ 1450)
  let lv := if temp ≥ 105 || (level = 2 && temp > 103) then 2 else if temp ≥ 103 || (level ≠ 0 && temp > 101) then 1 else 0
  (lv, if temp ≥ 105 || (hot && atFloor) then lower target
    else if lv = 2 then (if atFloor then target else lower target)
    else if temp ≥ 103 || hot then (if atFloor then holdRate target rate held else lower target)
    else if lv = 1 then holdRate target rate held
    else recover target rate held)

/-- R15, R491: 100 µs have passed since the last tick of a die's supply controller. -/
def State.supplyDue (s : State) (d : Side) : Bool :=
  match s.pkg.supplyAt.get d with
  | some t => decide (t + 100000 ≤ s.now.toNat)
  | none => true

/-- R472, R491: SUPPLY_CONTROL_TICK, every 100 µs: the target and the beat monitor of a die. -/
def State.supply (s : State) (d : Side) (temp : Int) (rate : Nat) : State :=
  let p := { s.pkg with supplyAt := s.pkg.supplyAt.set d (some s.now.toNat) }
  let (lv, v) := if p.regSilent.get d then (p.throttle.get d, p.vtarget.get d)
    else supplyTick (p.throttle.get d) (p.vtarget.get d) temp rate p.overPower s.floorHeld
  let b := s.tel.beat.get d
  let r : BitVec 16 := BitVec.ofNat 16 rate
  { s with
    pkg := { p with throttle := p.throttle.set d lv, vtarget := p.vtarget.set d v }
    tel := { s.tel with beat := s.tel.beat.set d {
      rate := r, rateMin := if r < b.rateMin then r else b.rateMin, vcore := BitVec.ofNat 12 v, tj := temp
      belowFloor := decide (rate < 1450) && s.floorHeld } } }

/-- R491: SUPPLY_CONTROL_TICK. -/
def execSupplyControlTick (die : Side) (temp : Int) (rate : Nat) (s : State) : Host.Outcome State Fault Refusal :=
  .next (s.awake (fun s => if s.supplyDue die then s.supply die temp rate else s))

/-- R460: a completion of a ring of a die that came about inside its pause carries the time at which it leaves it. -/
def State.leavePause (s : State) (d : Side) (t0 : Nat) : State :=
  s.mapRecs (fun r => if r.state == .done && (s.ring r.ring).home == d && decide (t0 ≤ r.time.toNat) then { r with time := s.now } else r)

/-- R15, R460, R491: the end of a slot of 100 µs of the thermal pause, which begins at 110 °C and lasts until the temperature is below
108 °C. A booked instruction's latency runs on (R444, R445). -/
def State.pauseSlot (s : State) (d : Side) (temp : Int) : State :=
  match s.pkg.thermalPause.get d with
  | none => if temp ≥ 110 then
      { s with pkg := { s.pkg with thermalPause := s.pkg.thermalPause.set d (some s.now.toNat) } } else s
  | some t0 =>
    if temp < 108 && decide (t0 + 100000 ≤ s.now.toNat) then
      (({ s with pkg := { s.pkg with thermalPause := s.pkg.thermalPause.set d none } }).leavePause d t0).resumed d 2 t0
    else s

/-- R491: THERMAL_PAUSE_SLOT. -/
def execThermalPauseSlot (die : Side) (temp : Int) (s : State) : Host.Outcome State Fault Refusal :=
  .next (s.awake (fun s => s.pauseSlot die temp))

/-! ### Board sensors (R265, R266, R493) -/

/-- R266: NAND-area temperature in °C: the highest of the assigned sensors that answer. -/
def State.nandTemp (s : State) : Option Int :=
  match s.nandReadings with
  | [] => none
  | x :: r => some ((r.foldl max x) / 16)

/-- R265: a reading taken into the health log. -/
def Health.reading (h : Health) (t : Int) : Health :=
  let first : Bool := h.hours = 0 && h.hour.isEmpty && h.tmax = 0 && h.tmin = 0
  { h with
    hour := h.hour ++ [t], tmax := if first then t else max h.tmax t, tmin := if first then t else min h.tmin t }

/-- R493: SENSOR_POLL of a sensor that was present at start-up: its reading in 1/16 °C; an assigned sensor's goes into the NAND-area temperature. -/
def execSensorPoll (sensor : Nat) (value : BitVec 16) (s : State) : Host.Outcome State Fault Refusal :=
  .next (s.awake (fun s =>
    if 8 ≤ sensor || s.pkg.absent.contains sensor then s
    else
      let s := { s with pkg := { s.pkg with
        sensors := s.pkg.sensors.put sensor value.toInt, sensorAt := s.pkg.sensorAt.put sensor s.now.toNat } }
      if s.coal.sensors.getLsbD sensor then
        match s.nandTemp with
        | some t => { s with coal := { s.coal with health := s.coal.health.reading t } }
        | none => s
      else s))

/-- R493: SENSOR_TIMEOUT: a sensor that was present and has been silent for 1 s is excluded; a Warning record is posted. -/
def execSensorTimeout (sensor : Nat) (s : State) : Host.Outcome State Fault Refusal :=
  .next (s.awake (fun s =>
    if !(s.pkg.sensors.has sensor) || s.pkg.excluded.contains sensor
        || s.now.toNat < s.pkg.sensorAt.lookD sensor 0 + 1000000000 then s
    else ({ s with pkg := { s.pkg with excluded := insNat s.pkg.excluded sensor } }).postAll .warning 130 sensor 0 .west))

/-- R265: the entry of an hour's readings. -/
def hourEntry (l : List Int) (limit : Nat) : Option (Int × Int × Int × Bool) :=
  match l with
  | [] => none
  | x :: r => some (r.foldl min x, r.foldl max x, l.foldl (· + ·) 0 / l.length, l.any (fun t => (limit : Int) < t))

/-- R15, R265: TEMP_HISTORY_HOUR: an hour of the time base with readings gives one entry; the history holds 256. -/
def execTempHistoryHour (s : State) : Host.Outcome State Fault Refusal :=
  .next (s.awake (fun s =>
    let h := s.coal.health
    match hourEntry h.hour s.coal.tlimit with
    | none => s
    | some e => if s.now.toNat < h.hourAt + hourNs then s else
      let l := h.history ++ [e]
      { s with coal := { s.coal with health := { h with
        history := if 256 < l.length then l.drop 1 else l, hours := h.hours + 1, hour := [], hourAt := s.now.toNat } } }))

/-! ### Clocks (R484) -/

/-- R15, R428, R484, R507: TREF_LOSS: TREF has been still for 1 µs: the internal oscillator counts on; a clock fault is reported. -/
def execTrefLoss (s : State) : Host.Outcome State Fault Refusal :=
  .next (s.awake (fun s =>
    let early : Bool := match s.pkg.trefAt with
      | some t => decide (s.now.toNat < t + 1000)
      | none => false
    if s.pkg.trefLost || early then s else ({ s with pkg := { s.pkg with trefLost := true } }).report 10 .west 0))

/-- R484: TREF_RETURN: the time base follows TREF again, without a step back. -/
def execTrefReturn (s : State) : Host.Outcome State Fault Refusal :=
  .next (s.awake (fun s => { s with pkg := { s.pkg with trefLost := false, trefAt := some s.now.toNat } }))

/-- R297, R304, R445, R484: REFCLK_LOSS: the port or the head's link goes down. -/
def execRefclkLoss (clock : RefClock) (s : State) : Host.Outcome State Fault Refusal :=
  .next (s.awake (fun s =>
    match clock with
    | .flue p => (s.portDown p).recheck
    | .cxl h => s.cxlDown h))

end Machine
end Sys2Proof
end

