-- ==== Sys2Proof/Machine/Prefix.lean ====
section
/-! DEFINITION. The prefix store (R99-R120): matching, publishing, forking, withdrawal, the orphan sweep and re-insertion. -/

namespace Sys2Proof
namespace Machine

/-! ### The prefix table (R100-R102) -/

/-- R101: the die bit of a chain. -/
def chainDie (c : BitVec 64) : Nat := b2n (c.getLsbD 63)

/-- R100: the table indices of the 32 slots that a chain may take, in order. -/
def slotsOf (c : BitVec 64) : List Nat :=
  (List.range 4).flatMap (fun b =>
    (List.range 8).map (fun t => chainDie c * 2 ^ 27 + ((bits c.toNat 0 24 + b) % 2 ^ 24) * 8 + t))

/-- R101: the entry of a table index. -/
def State.pfx (s : State) (i : Nat) : PfxEntry := s.dom.table.lookD i {}

/-- R101: an entry replaced. -/
def State.setPfx (s : State) (i : Nat) (e : PfxEntry) : State :=
  { s with dom := { s.dom with table := s.dom.table.put i e } }

/-- R102, R119: an entry is visible to a context under a scope mask; GLOBAL ones only once the persistent rows are loaded. -/
def State.sees (s : State) (c : Nat) (mask : Nat) (e : PfxEntry) : Bool :=
  let x := s.ctx c
  match e.scope with
  | .context => bitOf mask 0 && !e.nopub && e.vctx == c
  | .domain => bitOf mask 1 && x.domain != 0 && e.vdom == x.domain.toNat
  | .global => bitOf mask 2 && x.rights.getLsbD 2 && s.dom.persistLoaded

/-- R101, R108: an entry's parent is the row P. -/
def PfxEntry.childOf (e : PfxEntry) (p : Option (Nat × BitVec 16)) : Bool := e.parent == p

/-- R68: the sixteen token ids at an address. -/
def State.tokens16 (s : State) (a : Nat) : List (BitVec 32) :=
  (List.range 16).map (fun i => BitVec.ofNat 32 (s.field (a + 4 * i) 4))

/-- R96: token ids as bytes. -/
def tokenBytes (ts : List (BitVec 32)) : List Byte := ts.flatMap (fun t => leBytes 4 t.toNat)

/-- R108: a candidate passes. -/
def State.passes (s : State) (c mask pid : Nat) (prev : Option (Nat × BitVec 16)) (ts : List (BitVec 32)) (e : PfxEntry) :
    Bool :=
  e.v && !e.withdrawing && s.sees c mask e && e.row.profile == pid && e.row.tokens == ts && e.childOf prev

/-! ### Matching (R107-R109, R128) -/

/-- R109: every page of the row is SEALED and published. -/
def State.shareable (s : State) (e : PfxEntry) : Bool :=
  e.row.handles.all (fun h => (s.page h).life == .sealed && (s.page h).scope.isSome)

/-- R109, R112: the row's pages are shared by the target at logical page n. -/
def State.shareRow (s : State) (k n : Nat) (e : PfxEntry) : State :=
  (List.range e.row.handles.length).foldl (fun s l =>
    let h := e.row.handles.getD l 0
    let own := s.ownPte k h
    let s := s.addRef h
    let s := if own.kept then s.keep h true else s
    s.setPte k l n own) s

/-- R128: an entry found in the table but not in the Domino unit. -/
def State.tableHit (s : State) (i : Nat) : State :=
  let e := s.pfx i
  if e.inDomino then s
  else
    let n := Nat.min 15 (e.hits.toNat + 1)
    let e' := { e with hits := BitVec.ofNat 4 n }
    let s := s.setPfx i e'
    if s.dom.promoteHits != 0 && decide (s.dom.promoteHits.toNat ≤ n) then s.domPromote i e' true else s

/-- R128: a Domino hit sets the entry's reference bit. -/
def State.domTouch (s : State) (a : Nat) : State :=
  match s.dom.entries.look a with
  | some e => s.domPut a { e with ref := true }
  | none => s

/-- R108: the table's candidates for a chain in the order in which they are tried, highest PRIO and then lowest index. -/
def State.tableOrder (s : State) (chain : BitVec 64) : List Nat :=
  let is := (slotsOf chain).filter (fun i => (s.pfx i).v && (s.pfx i).chain == chain)
  let asc := is.foldl insNat []
  (List.range 256).flatMap (fun q => asc.filter (fun i => (s.pfx i).prio.toNat = 255 - q))

/-- R108: what tried candidates give: the index accepted, the candidates that failed R108 with an equal chain. -/
def State.tryTable (s : State) (good : Nat → Bool) : List Nat → Nat → Option Nat × Nat
  | [], f => (none, f)
  | i :: r, f =>
    if good i then (if s.shareable (s.pfx i) then (some i, f) else s.tryTable good r f)
    else s.tryTable good r (f + 1)

/-- R107 step 4: the Domino lookup of one chain: the entry that its RESULT names, where its GEN is the table's. -/
def State.dirLookup (s : State) (c mask : Nat) (chain : BitVec 64) : Option Nat × State :=
  match s.domSearch (sideOf (chainDie chain)) .directory (dirKey chain c (s.ctx c).domain.toNat mask) with
  | (none, s1) => (none, s1)
  | (some ((a, e), _), s1) =>
    let i := bits e.result.toNat 0 28
    (if (s.pfx i).v && (s.pfx i).gen.toNat = bits e.result.toNat 28 16 then some i else none, s1.domTouch a)

/-- R107 step 4: the lookups of all chains. -/
def State.dirLookups (s : State) (c mask : Nat) : List (BitVec 64) → List (Option Nat) × State
  | [] => ([], s)
  | ch :: r =>
    let (x, s1) := s.dirLookup c mask ch
    let (xs, s2) := s1.dirLookups c mask r
    (x :: xs, s2)

/-- R107 step 3: the layer-0 chains of n rows of tokens from row t on, after a chain. -/
def State.rowChains (s : State) (pid src : Nat) : Nat → Nat → BitVec 64 → List (BitVec 64)
  | 0, _, _ => []
  | n + 1, t, chain =>
    let ch := chainOf chain (tokenBytes (s.tokens16 (src + 64 * t))) pid 0
    ch :: s.rowChains pid src n (t + 1) ch

/-- R108, R109: the entry accepted for a row: the Domino unit's, where it passes; else the first of the table's that does. -/
def State.findRow (s : State) (c mask pid : Nat) (prev : Option (Nat × BitVec 16)) (chain : BitVec 64)
    (ts : List (BitVec 32)) (dom : Option Nat) : Option Nat × State :=
  let good (i : Nat) : Bool := s.passes c mask pid prev ts (s.pfx i)
  let scan (is : List Nat) (f : Nat) : Option Nat × State :=
    let (r, n) := s.tryTable good is f
    let s2 := s.count 0x03100318 n
    (r, match r with
      | some x => s2.tableHit x
      | none => s2)
  match dom with
  | some i =>
    if good i && s.shareable (s.pfx i) then (some i, s)
    else scan ((s.tableOrder chain).filter (· != i)) (if !(good i) && (s.pfx i).chain == chain then 1 else 0)
  | none => scan (s.tableOrder chain) 0

/-- R79: the tables of a sequence have room for this many positions at every layer (log 116). -/
def State.tableRoom (s : State) (k len : Nat) : Bool :=
  let q := s.seq k
  !(s.outgrown (s.setSeq k { q with layers := q.layers.map (fun y => { y with
    length := Nat.max y.length len, depth := if (s.prof k).ring.isSome then 0 else Nat.max y.depth (depthFor len) }) }))

/-- R107 step 5: rows accepted in ascending order, from row n on, until one has no candidate or finds no table block (log 116). -/
def State.matchRows (c mask pid k src : Nat) :
    List (BitVec 64 × Option Nat) → Nat → Option (Nat × BitVec 16) → State → Nat × State
  | [], n, _, s => (n, s)
  | (ch, dom) :: r, n, prev, s =>
    match s.findRow c mask pid prev ch (s.tokens16 (src + 64 * n)) dom with
    | (none, s1) => (n, s1)
    | (some i, s1) =>
      if !(s1.tableRoom k (16 * n + 16)) then (n, s1)
      else
      let e := s1.pfx i
      let s2 := (s1.shareRow k n e).count 0x03100308
      State.matchRows c mask pid k src r (n + 1) (some (i, e.gen)) s2

/-- R107 step 1: PFX.MATCH's checks that read no table. -/
def State.matchRanges (s : State) (j : Job) : Bad :=
  firstBad [
    badIf (bits j.w2.toNat 32 3 = 0) St.badOperand 2,
    s.rngUp j.ctx j.w1.toNat (4 * bits j.w2.toNat 0 32) 1 4,
    s.badNamed j j.w0]

/-- R107 step 1: PFX.MATCH's checks. -/
def State.matchChecks (s : State) (j : Job) : Bad :=
  let mask := bits j.w2.toNat 32 3
  let x := s.ctx j.ctx
  firstBad [
    s.matchRanges j,
    badIf ((s.seq (seqKey j.w0.toNat)).layers.any (fun y => y.length != 0)) St.badPosition 0,
    badIf ((bitOf mask 1 && x.domain = 0) || (bitOf mask 2 && !(x.rights.getLsbD 2))) St.scope 0]

/-- R107 step 1, R202: what PFX.MATCH checks. -/
def matchChk (j : Job) (s : State) : Chk :=
  match s.matchRanges j with
  | some e => Chk.ofErr (some e) s
  | none => s.withTables j [seqKey j.w0.toNat] (fun s => Chk.ofErr (s.matchChecks j) s)

/-- R106, R107: the rows that a match on a profile looks up for n tokens. -/
def Profile.rowsFor (p : Profile) (n : Nat) : Nat :=
  match p.ring with
  | some r => Nat.min r (n / 16)
  | none => n / 16

/-- R56, R107, R130: PFX.MATCH. -/
def matchBody (j : Job) (s : State) : Out :=
  let k := seqKey j.w0.toNat
  let mask := bits j.w2.toNat 32 3
  let n := bits j.w2.toNat 0 32
  let src := j.w1.toNat
  let p := s.prof k
  let s := s.setSeq k { s.seq k with tokSrc := src, tokCnt := n }
  if !s.dom.dirEn then succeeds 0 s
  else
    match s.mem.readErr src (64 * p.rowsFor n) with
    | some e => fails e.1 e.2 s
    | none =>
      let chains := s.rowChains p.id src (p.rowsFor n) 0 0
      let (found, s0) := s.dirLookups j.ctx mask chains
      let (m, s1) := State.matchRows j.ctx mask p.id k src (chains.zip found) 0 none s0
      let s2 := (List.range p.layers).foldl (fun s l =>
        let y := s.layer k l
        s.setLayer k l { y with
          length := 16 * m, openH := 0, depth := if p.ring.isSome then 0 else depthFor (16 * m) }) s1
      succeeds (16 * m) (s2.ctxEvent j.ctx 0x0E 0 j.site.ring j.layer.toNat j.inst.opid.toNat m)

/-- R56: PFX.MATCH. -/
def execPfxMatch (a : At) (s : State) : Host.Outcome State Fault Refusal := .next (runHob 0x40 a matchChk matchBody s)

/-! ### Publishing (R102-R106) -/

/-- R56: the scope of a code. -/
def scopeOf (n : Nat) : Scope := if n = 0 then .context else if n = 1 then .domain else .global

/-- R103: the page at logical page n of a layer, when the row can be published. -/
def State.rowPage (s : State) (k l n : Nat) : Option Nat :=
  let y := s.layer k l
  let e := s.pte k l n
  let g := s.page e.handle
  if n < pagesOf y.length && y.basePg ≤ n && e.v && g.life == .sealed && !g.noIds && g.chain != 0 then some e.handle else none

/-- R103 rule 1: the row's pages, layer by layer. -/
def State.rowPages (s : State) (k n layers : Nat) : Option (List Nat) :=
  (List.range layers).foldr (fun l (acc : Option (List Nat)) =>
    match s.rowPage k l n, acc with
    | some h, some r => some (h :: r)
    | _, _ => none) (some [])

/-- R103 rule 3: an entry the publisher can see with this parent, these tokens and a scope that is wide enough; of several, the
first in the order of R100's slots (log 118). It looks in the slots of the row's own chain and asks an equal chain, so a ROOT row of
another profile does not count: the model's choice (log 136). -/
def State.sameRow (s : State) (c : Nat) (p : Option (Nat × BitVec 16)) (chain : BitVec 64) (ts : List (BitVec 32))
    (scope : Scope) : Option Nat :=
  (slotsOf chain).find? (fun i =>
    let e := s.pfx i
    e.v && e.chain == chain && e.childOf p && e.row.tokens == ts && s.sees c 7 e && decide (scope.rank ≤ e.scope.rank))

/-- How a row is inserted. -/
inductive Insert where
  | done (i : Nat) (s : State)
  | waits (d : Side)
  | stop (st : Status) (s : State)
  | gone (s : State)
deriving DecidableEq, Repr

/-- R99: KiB of a row record. -/
def rowKib (layers : Nat) : Nat := ceilDiv (96 + 8 * layers) 1024

/-- R131: BUCKET_FULL of a die. -/
def State.bucketFull (s : State) (die : Nat) : State :=
  { s with dom := { s.dom with bucketFull := s.dom.bucketFull.set (sideOf die) true } }

/-- R100: the first free slot of a chain. -/
def State.freeSlotOf (s : State) (chain : BitVec 64) : Option Nat := (slotsOf chain).find? (fun i => !((s.pfx i).v))

/-- R104: the table entry written and offered to the Domino unit. -/
def State.putRow (s : State) (i : Nat) (e : PfxEntry) : State :=
  let e := { e with v := true, gen := (s.pfx i).gen, withdrawing := false, inDomino := false, hits := 0 }
  (s.setPfx i e).domPromote i e false

/-- R120, R245: the catalogue record of a GLOBAL row is written and mapped under a key of a PERSIST span of the half (log 74), or the
Coal store cannot take it. -/
def State.catalogueRow (s : State) (d : Side) (row : RowRec) (prio : BitVec 8) (p : Option (Nat × BitVec 16)) : Bool × State :=
  let kib := rowKib row.layers
  let no := (s.coal.half.get d).newTable (tableChunks kib) true
  match s.coalWrite d (tableEnts d no kib 0 true row.pubCtx) with
  | (false, s) => (false, s)
  | (true, s) =>
    let c : CatRec := { row := row, prio := prio, key := recordKey d no
                        parent := p.map (fun q => ((s.pfx q.1).chain, (s.pfx q.1).row.lpage)) }
    let others := s.dom.catalogue.filter (fun x => decide (x.key < c.key) || decide (c.key + tableChunks kib ≤ x.key))
    (true, { s with dom := { s.dom with catalogue := others ++ [c] } })

/-- R99, R104, R105, R120: a row inserted; where one of its pages left SEALED meanwhile, nothing of it is.
That ST_QUOTA comes before ST_NO_SPACE is the model's choice (log 140). -/
def State.insertRow (s : State) (c : Nat) (pslot n : Nat) (hs : List Nat) (p : Option (Nat × BitVec 16)) (scope : Scope)
    (prio : BitVec 8) (ts : List (BitVec 32)) : Insert :=
  let h0 := hs.headD 0
  let chain := (s.page h0).chain
  let d := pageDie h0
  let prof := s.profile pslot
  let fail (st : Status) (s : State) : Insert := .stop st (s.count 0x03100320)
  if s.overQuota c 1 then fail St.quota s
  else
    match s.freeSlotOf chain with
    | none => fail St.noSpace (s.bucketFull (chainDie chain))
    | some i =>
        match s.allocFrame d (s.widest d) (rowKib prof.layers) none [] with
        | .waits => .waits d
        | .noSpace => fail St.noSpace s
        | .got f s1 =>
          if hs.any (fun h => (s1.page h).life != .sealed) then .gone (s1.freeFrame d (some f))
          else
          let persistent := hs.all (fun h => (s1.page h).persistent)
          let row : RowRec := { chain0 := chain, pubCtx := c, layers := prof.layers, profile := prof.id, lpage := n,
                                published := s1.now, tokens := ts, handles := hs, frame := some (d, f) }
          let e : PfxEntry := { chain := chain, vctx := c, vdom := (s1.ctx c).domain.toNat, scope := scope, prio := prio,
                                persistent := persistent, parent := p, row := row }
          match (if scope == .global then s1.catalogueRow d row prio p else (true, s1)) with
          | (false, s3) => fail St.noSpace (s3.freeFrame d (some f))
          | (true, s3) =>
            let s4 := hs.foldl (fun s h => s.updPage h (fun g => { g with scope := some scope, refcnt := g.refcnt + 1 })) s3
            .done i ((s4.chargeCtx c 1).putRow i e)

/-- R102, R384: the context may publish at a scope; one of the compatible mode not beyond CONTEXT. -/
def State.mayPublish (s : State) (c : Nat) (scope : Scope) : Bool :=
  let x := s.ctx c
  match scope with
  | .context => true
  | .domain => x.domain != 0 && x.rights.getLsbD 0 && !(x.rights.getLsbD 5)
  | .global => x.rights.getLsbD 1 && !(x.rights.getLsbD 5)

/-- R103: the rows from n on; the first argument bounds them, `acc` counts the pages published. Each row meets the rights and the domain
that the context has then (R13). -/
def State.publishRows (j : Job) (k : Nat) (scope : Scope) (prio : BitVec 8) :
    Nat → Nat → Option (Nat × BitVec 16) → Nat → State → Out
  | 0, _, _, acc, s => succeeds acc s
  | f + 1, n, p, acc, s =>
    let layers := (s.prof k).layers
    match s.rowPages k n layers with
    | none => succeeds acc s
    | some hs =>
      if !(s.mayPublish j.ctx scope) then .done { status := St.scope, result := BitVec.ofNat 64 acc } s
      else
      let h0 := hs.headD 0
      let entryOf (i : Nat) : Option (Nat × BitVec 16) := some (i, (s.pfx i).gen)
      match (if (s.page h0).scope.isSome then s.rowOf h0 else none) with
      | some i => State.publishRows j k scope prio f (n + 1) (entryOf i) acc s
      | none =>
        let s := s.stackTreat h0
        if !(s.page h0).resident then
          (s.setProgress j.site acc).awaitPages j [h0] acc
        else
          let s := s.touch h0
          let ts := s.tokens16 (viewBase h0 + 32)
          match s.sameRow j.ctx p (s.page h0).chain ts scope with
          | some i => State.publishRows j k scope prio f (n + 1) (entryOf i) acc s
          | none =>
            let narrow := match p with
              | some q => decide ((s.pfx q.1).scope.rank < scope.rank)
              | none => false
            if narrow || (scope == .global && !(hs.all (fun h => (s.page h).persistent)))
            then .done { status := St.scope, result := BitVec.ofNat 64 acc } s
            else
              match s.insertRow j.ctx (s.seq k).pslot n hs p scope prio ts with
              | .waits d => waitAlloc j d f (s.setProgress j.site acc)
              | .gone s' => succeeds acc s'
              | .stop st s' => .done { status := st, result := BitVec.ofNat 64 acc } s'
              | .done i s' => State.publishRows j k scope prio f (n + 1) (some (i, (s'.pfx i).gen)) (acc + layers) s'

/-- R56, R102, R130: what PFX.PUBLISH checks. -/
def publishChk (j : Job) (s : State) : Chk :=
  match firstBad [
    s.badNamed j j.w0,
    badIf (bits j.w1.toNat 0 2 = 3) St.badOperand 1,
    badIf (!s.dom.dirEn || !(s.mayPublish j.ctx (scopeOf (bits j.w1.toNat 0 2)))) St.scope 0] with
  | some e => Chk.ofErr (some e) s
  | none => s.withTables j [seqKey j.w0.toNat] (fun s => .good {} s)

/-- R103, R106: PFX.PUBLISH. -/
def publishBody (j : Job) (s : State) : Out :=
  let k := seqKey j.w0.toNat
  let p := s.prof k
  let n := minOr 0 ((s.seq k).layers.map (fun y => pagesOf y.length))
  let limit := match p.ring with
    | some r => Nat.min r n
    | none => n
  State.publishRows j k (scopeOf (bits j.w1.toNat 0 2)) (BitVec.ofNat 8 (bits j.w1.toNat 8 8)) limit 0 none
    j.progress (s.walked k)

/-- R56: PFX.PUBLISH. -/
def execPfxPublish (a : At) (s : State) : Host.Outcome State Fault Refusal := .next (runHob 0x41 a publishChk publishBody s)

/-! ### PFX.FORK (R114) -/

/-- R114: the layers that receive a private copy: layer, logical page, what stands there. -/
def State.forkCuts (s : State) (k t : Nat) : List (Nat × Nat × Met) :=
  if t % 16 = 0 then []
  else ((List.range (s.seq k).layers.length).filter (fun l => t < (s.layer k l).length)).map
    (fun l => (l, t / 16, s.meet k l (t / 16)))

/-- R114: a reference of the source shared with the new sequence; a page that is gone leaves its mark. -/
def State.forkRef (s : State) (k' l slot : Nat) (e : Pte) : State :=
  let y := s.layer k' l
  let p := s.page e.handle
  let put (x : Pte) (s : State) : State := s.setLayer k' l { s.layer k' l with ptes := y.ptes.put slot x }
  if !e.v then put e s
  else if p.life == .dropped then put { dropped := true } s
  else if p.life == .lost then put { lost := true } s
  else
    let own := s.ownPte k' e.handle
    let s := s.addRef e.handle
    put own (if own.kept then s.keep e.handle true else s)

/-- R114: one layer of the new sequence, without its private copy. -/
def State.forkLayer (s : State) (k k' l t : Nat) : State :=
  let p := s.prof k
  let y := s.layer k l
  let len := Nat.min y.length t
  let cut := t < y.length && t % 16 != 0
  let pages := if p.ring.isSome then y.ptes
    else y.ptes.filter (fun e => decide (e.1 < if cut then len / 16 else pagesOf len))
  let s := pages.foldl (fun s e => s.forkRef k' l e.1 e.2) s
  (s.setLayer k' l { s.layer k' l with
    length := len, basePg := y.basePg, depth := if p.ring.isSome then 0 else depthFor len }).fixOpen k' l

/-- R114: the private copies of the new sequence. -/
def State.forkCopies (k k' t : Nat) : List (Nat × Nat × Met) → State → Plan
  | [], s => .ready s
  | (l, n, m) :: r, s =>
    match m with
    | .gone b => State.forkCopies k k' t r ((s.setPte k' l n { dropped := !b, lost := b }).fixOpen k' l)
    | .away _ => State.forkCopies k k' t r s
    | .hit h =>
      match s.newOpen k' l n [h] with
      | .waits n => .waits (seqHome k') (2 * r.length + n)
      | .noSpace => .noSpace
      | .got c s1 =>
        let s2 := (s1.touch h).copyInto (s.prof k) h c (t % 16)
        State.forkCopies k k' t r ((s2.setPte k' l n (s2.ownPte k' c)).fixOpen k' l)

/-- R114: the tokens that a fork shares. -/
def State.forkTokens (s : State) (j : Job) : Nat :=
  let t := bits j.w1.toNat 0 32
  if t = 0xFFFFFFFF then s.maxLen (seqKey j.w0.toNat) else t

/-- R76, R114: PFX.FORK's checks of its source, before any layer changes. -/
def State.forkChecks (s : State) (j : Job) : Bad :=
  let k := seqKey j.w0.toNat
  let t := s.forkTokens j
  let copies := ((s.forkCuts k t).filter (fun c => match c.2.2 with
    | .gone _ => false
    | _ => true)).length
  firstBad [
    badIf ((s.prof k).ring.isSome && (s.seq k).layers.any (fun y => decide (t < y.length))) St.badPosition 1,
    badIf (decide (seqsPerDie ≤ (s.liveSeqs (seqHome k)).length)) St.noSpace 0,
    badIf (copies != 0 && s.overQuota j.ctx copies) St.quota 0]

/-- R77, R202: what PFX.FORK checks. -/
def forkChk (j : Job) (s : State) : Chk :=
  match s.badNamed j j.w0 with
  | some e => Chk.ofErr (some e) s
  | none => s.withTables j [seqKey j.w0.toNat] (fun s => Chk.ofErr (s.forkChecks j) s)

/-- R56, R85, R114: PFX.FORK. While it allocates, the pages it copies keep their frames. -/
def forkBody (j : Job) (s : State) : Out :=
  let k := seqKey j.w0.toNat
  let t := s.forkTokens j
  let q := s.seq k
  let cuts := s.forkCuts k t
  let away := cuts.filterMap (fun c => match c.2.2 with
    | .away h => some h
    | _ => none)
  let held := cuts.filterMap (fun c => match c.2.2 with
    | .hit h => some h
    | _ => none)
  if !away.isEmpty then (s.walked k).awaitPages j away 0
  else if decide (seqsPerDie ≤ (s.liveSeqs (seqHome k)).length) then fails St.noSpace 0 s
  else
    let s0 := s.use j.site held
    let (k', s1) := (s0.walked k).newSeq (seqHome k) {
      ctx := q.ctx, pslot := q.pslot, hints := q.hints, tokSrc := q.tokSrc, tokCnt := q.tokCnt
      layers := q.layers.map (fun y => ({ depth := y.depth } : Layer)) }
    let s2 := (List.range q.layers.length).foldl (fun s l => s.forkLayer k k' l t) s1
    match State.forkCopies k k' t cuts s2 with
    | .waits d n => waitAlloc j d n s0
    | .noSpace => fails St.noSpace 0 s
    | .ready s3 =>
      if s.outgrown s3 then fails St.noSpace 0 s
      else succeeds (seqHandle k' (s3.seq k').gen) s3

/-- R56: PFX.FORK. -/
def execPfxFork (a : At) (s : State) : Host.Outcome State Fault Refusal := .next (runHob 0x42 a forkChk forkBody s)

/-! ### Withdrawal (R116-R118) -/

/-- R116: every entry for which `want` holds is withdrawn; answers how many. -/
def State.withdrawAll (s : State) (want : PfxEntry → Bool) : Nat × State :=
  let is := (s.dom.table.filter (fun p => p.2.v && want p.2)).map (·.1)
  (is.length, is.foldl (fun s i => s.withdrawRow i) s)

/-- R116: management dissolves a share domain: its DOMAIN entries are withdrawn. The table has no command that does so at once
(log 98). -/
def State.dissolveDomain (s : State) (dom : Nat) : Nat × State := s.withdrawAll (fun e => e.scope == .domain && e.vdom == dom)

/-- R116, R121: the mailbox withdrawal of the entries that a context published, or of all. The table has no command for it (log 98). -/
def State.withdrawNamed (s : State) (c : Option Nat) : Nat × State :=
  s.withdrawAll (fun e => match c with
    | some c => e.vctx == c && !e.nopub
    | none => true)

/-- R56, R116: PFX.WITHDRAW. -/
def withdrawBody (j : Job) (s : State) : Out :=
  let k := seqKey j.w0.toNat
  let hs := ((s.layer k 0).ptes.filter (fun e => e.2.v)).map (fun e => e.2.handle)
  let (n, s1) := (s.walked k).withdrawAll (fun e =>
    !e.nopub && e.vctx == j.ctx && hs.contains (e.row.handles.headD 0) &&
      e.row.handles.all (fun h => (s.page h).ctx == j.ctx))
  succeeds n s1

/-- R56: PFX.WITHDRAW. -/
def execPfxWithdraw (a : At) (s : State) : Host.Outcome State Fault Refusal := .next (runHob 0x43 a tablesChk withdrawBody s)

/-- R108, R118: the parent test of an entry. -/
def State.parentOk (s : State) (e : PfxEntry) : Bool :=
  match e.parent with
  | none => true
  | some (i, g) => (s.pfx i).v && (s.pfx i).gen == g

/-- R118: one bucket of a die. -/
def State.sweepBucket (s : State) (d : Side) : State :=
  let b := s.dom.sweepAt.get d
  let s := (List.range 8).foldl (fun s t =>
    let i := d.num * 2 ^ 27 + b * 8 + t
    let e := s.pfx i
    if e.v && !(s.parentOk e) then s.withdrawRow i else s) s
  { s with dom := { s.dom with sweepAt := s.dom.sweepAt.set d ((b + 1) % 2 ^ 24) } }

/-- R118: one microsecond of the orphan sweep. -/
def State.sweepTick (s : State) : State :=
  if s.dom.sweepEn && s.running then (s.sweepBucket .west).sweepBucket .east else s

/-- R118: ORPHAN_SWEEP_TICK. -/
def execOrphanSweepTick (s : State) : Host.Outcome State Fault Refusal := .next s.sweepTick

/-! ### Re-insertion (R119, R120) -/

/-- R120: a skipped row: its withdrawal record, its count, its pages' Coal records; the pages of a record that cannot be read are not
known. -/
def State.skipRow (s : State) (c : CatRec) (known : Bool := true) : State :=
  let s := (s.withdrawRecord c).count 0x03100320
  (if known then c.row.handles else []).foldl (fun s h => if s.pages.has h then s else s.coalRelease (pageDie h) h) s

/-- R120: the entry already re-inserted for a parent's CHAIN0 and LPAGE. -/
def State.parentEntry (s : State) (p : BitVec 64 × Nat) : Option (Nat × BitVec 16) :=
  (s.dom.table.find? (fun t => t.2.v && t.2.nopub && t.2.chain == p.1 && t.2.row.lpage == p.2)).map
    (fun t => (t.1, t.2.gen))

/-- R120 step 2: a page of the row at layer l; its chain builds on its parent row's page of that layer. -/
def State.reinsertPage (s : State) (slot : Nat) (r : RowRec) (par : Option Nat) (l h : Nat) : State :=
  let p := s.profile slot
  let parent := match par with
    | some i => (s.page ((s.pfx i).row.handles.getD l 0)).chain
    | none => 0
  let d := pageDie h
  let sp := pageNo h / 2048
  let hf := s.coal.half.get d
  let g : Page := {
    life := .sealed, res := .cold, persistent := true, scope := some .global, ctx := 4096, refcnt := 1, pslot := slot
    layer := l, fill := 16, chain := chainOf parent (tokenBytes r.tokens) r.profile l, kib := p.frameKib, coal := true
    pref := (l + sp + pageNo h % 2048 / Nat.max p.frameKib 1) % 10 }
  (s.setHalf d { hf with spans := hf.spans.put sp (p.frameKib, true) }).setPage h g

/-- R120 steps 2 to 4: one catalogue record; whether its record can be read (R261) is free (log 74). An allocation that would wait for a
demotion counts as one that finds no frame (log 136); VCTX and VDOM are 0 and CONTEXT names none (log 140): the model's choices. -/
def State.reinsertRow (s : State) (n : Nat) (c : CatRec) : State :=
  let r := c.row
  let mapped := r.handles.all (fun h => (s.coal.half.get (pageDie h)).map.has h)
  let par : Option (Option (Nat × BitVec 16)) := match c.parent with
    | none => some none
    | some q => (s.parentEntry q).map some
  if (Config.freeByte n c.key).getLsbD 0 then s.skipRow c false
  else match s.profileSlot r.profile, par with
  | some slot, some p =>
    let d := pageDie (r.handles.headD 0)
    if !mapped then s.skipRow c
    else
      match s.freeSlotOf r.chain0 with
      | none => (s.bucketFull (chainDie r.chain0)).skipRow c
      | some i =>
        match s.allocFrame d (s.widest d) (rowKib r.layers) none [] with
        | .got f s1 =>
          let s2 := (List.range r.handles.length).foldl
            (fun s l => s.reinsertPage slot r (p.map (·.1)) l (r.handles.getD l 0)) s1
          s2.putRow i { chain := r.chain0, scope := .global, nopub := true, prio := c.prio, persistent := true,
                        parent := p, row := { r with frame := some (d, f) } }
        | _ => s.skipRow c
  | _, _ => s.skipRow c

/-- R120: the catalogue in ascending LPAGE. -/
def byLpage (l : List CatRec) : List CatRec :=
  let ns := (l.map (fun c => c.row.lpage)).foldl insNat []
  ns.flatMap (fun n => l.filter (fun c => c.row.lpage == n))

/-- R119, R120: re-insertion, once the persistent root is held, DIR_EN is set and the Coal store serves: the rows whose records the
map has, then the release of what no row and no weight object names. A row published since the cold reset stands in the catalogue and is
treated as an old one, the model's choice (log 136). -/
def State.reinsert (s : State) : State :=
  if s.dom.persistLoaded || !s.dom.dirEn || s.sec.persistRoot.isNone || !s.running || !s.coal.en
      || !(s.coal.half.w.ready && s.coal.half.e.ready) then s
  else
    let held (c : CatRec) : Bool := (s.coal.half.get (pageDie c.key)).map.has c.key
    let n := s.fresh
    let old := s.dom.catalogue.filter (fun c => held c && s.setAside c)
    let rows := (s.dom.catalogue.filter (fun c => held c && !(s.setAside c))).map (fun c => { c with withdrawn := none })
    let s := { s with fresh := n + 1, dom := { s.dom with catalogue := old ++ rows } }
    let s := (byLpage rows).foldl (fun s c => s.reinsertRow n c) s
    let named (s : State) (k : Nat) : Bool :=
      if k < 2 ^ 38 then s.pages.has k
      else s.dom.catalogue.any (fun c => c.withdrawn.isNone && decide (c.key ≤ k) && decide (k < c.key + tableChunks (rowKib c.row.layers)))
    let drop (s : State) (d : Side) : State :=
      ((s.coal.half.get d).map.filter (fun m => m.2.persist && !(named s m.1))).foldl
        (fun s m => s.coalRelease d m.1) s
    let s := drop (drop s .west) .east
    { s with dom := { s.dom with persistLoaded := true } }

/-- R119: PERSIST_REINSERT. -/
def execPersistReinsert (s : State) : Host.Outcome State Fault Refusal := .next s.reinsert

end Machine
end Sys2Proof
end

