-- ==== Sys2Proof/Machine/Sec.lean ====
section
/-! DEFINITION. Security commands (R366-R377, R385, R397-R401, R404, R519, R520): firmware, life cycle, mode, contexts, key
rotation, MACsec, nonces, debug, connection keys. -/

namespace Sys2Proof
namespace Machine

/-! ### Helpers -/

/-- R405: a key release or an authorisation is refused with ST_ACCESS and counted. -/
def State.refuse (s : State) : State := (s.count 0x00100118).say St.access

/-- R366, R391: code of a life-cycle state. -/
def lcsCode : Lcs → Nat
  | .blank => 0
  | .provisioned => 1
  | .deployed => 2
  | .returned => 3
  | .scrapped => 4

/-- R366: the next life-cycle state. -/
def lcsNext : Lcs → Option Lcs
  | .blank => some .provisioned
  | .provisioned => some .deployed
  | .deployed => some .returned
  | .returned => some .scrapped
  | .scrapped => none

/-- R366: what a Faltion signature covers: the target state, the identity digest, a nonce. -/
def faltionBytes (target : Nat) (digest : BitVec 512) (nonce : BitVec 256) : List Byte :=
  leBytes 1 target ++ leBytes 64 digest.toNat ++ leBytes 32 nonce.toNat

/-- R366: a Faltion signature over a target state verifies under a nonce that Get Nonce returned since the last reset. -/
def State.authorised (s : State) (target : Nat) (signature : List Byte) : Bool :=
  s.sec.nonces.any (fun n => Config.verifies (faltionBytes target Config.identityDigest n) signature)

/-- R373: a command that needs new keys: ST_BUSY when the health test failed; else the number of the DRBG's output. -/
def State.needKey (s : State) (go : Nat → State → State) : State :=
  if s.sec.entropyFail then s.say St.busy
  else
    let (n, s) := s.draw
    go n s

/-! ### Firmware (R400, R401, R404) -/

/-- R366, R400, R432: a firmware command: the boot ROM answers it too, but not in SCRAPPED. -/
def State.fwCmd (s : State) (l : Ld) (go : State → State) : State :=
  s.standard l true false (fun s => if s.sec.lcs == .scrapped then s.no .retryRequired else go s)

/-- R404, R406: Get FW Info: the bytes that the spec does not give are open. -/
def execGetFwInfo (ld : Ld) (s : State) : Host.Outcome State Fault Refusal :=
  .next (s.fwCmd ld (fun s => s.ok ((List.range 80).map (fun i => Config.identity (300 + i)))))

/-- R401 step 1: Transfer FW: the image lies in the reserve. -/
def execTransferFw (ld : Ld) (image : FwImage) (s : State) : Host.Outcome State Fault Refusal :=
  .next (s.fwCmd ld (fun s => ({ s with sec := { s.sec with fwReserve := some image } }).ok))

/-- R401 steps 2 to 5, R413: Activate FW: verified, both copies written, steps burned; the image runs now (online, by a
management restart), at the boot, or from the next cold reset on. -/
def State.activateFw (s : State) (online : Bool) : State :=
  match s.sec.fwReserve with
  | none => s.no .invalidInput
  | some i =>
    if !(s.loadable i) then s.no .invalidInput
    else
      let s := { s with sec := { s.sec with
        fwReserve := none, fwCopies := ⟨some i, some i⟩, fuseSvn := Nat.max s.sec.fuseSvn i.svn } }
      if !s.gbl.fwReady then s.ok
      else if online then
        ({ s.mantelRestart with sec := { s.sec with svn := i.svn, fwDigest := i.digest, reportSvn := s.sec.fuseSvn, fwPending := false } }).ok
      else ({ s with sec := { s.sec with fwPending := true } }).ok

/-- R401: Activate FW. -/
def execActivateFw (ld : Ld) (online : Bool) (s : State) : Host.Outcome State Fault Refusal :=
  .next (s.fwCmd ld (fun s => s.activateFw online))

/-! ### Life cycle, mode, debug (R366-R370) -/

/-- R234, R368: the channels that the format of RETURNED covers: those in service, and of the others, which are powered for it, those
that pass identification (which do is free, log 123). -/
def State.powered32 (s : State) : BitVec 32 :=
  (List.range 32).foldl (fun v c => if Config.passes s.fresh c then v ||| BitVec.ofNat 32 (2 ^ c) else v) s.coal.inService

/-- R366-R368: Advance Life Cycle: one step forward, authorised; the wipe, the fuses, the cold reset. -/
def State.advance (s : State) (target present : Nat) (digest : BitVec 512) (signature : List Byte) : State :=
  match lcsNext s.sec.lcs with
  | none => s.refuse
  | some n =>
    let signed : Bool := n == .provisioned || n == .scrapped
    if lcsCode n ≠ target || digest ≠ Config.identityDigest then s.refuse
    else if signed && !(s.authorised target signature) then s.refuse
    else if !signed && present ≠ lcsCode s.sec.lcs then s.refuse
    else
      let s := s.say St.ok
      let s := if n == .returned then ({ s with sec := { s.sec with persistGen := s.sec.persistGen + 1 } }).erased true s.powered32 else s
      ({ s with sec := { s.sec with lcs := n } }).coldReset 6

/-- R291, R367, R404: Advance Life Cycle, with a signature of 4,627 bytes for a target that needs one. -/
def execAdvanceLifeCycle (ld : Ld) (target present : Nat) (digest : BitVec 512) (signature : List (BitVec 8)) (s : State) :
    Host.Outcome State Fault Refusal :=
  .next (s.vendor ld (fun s =>
    if signature.length ≠ (if target = 1 || target = 4 then 4627 else 0) then s.no .invalidInput
    else s.advance target present digest signature))

/-- R369, R370: Set Mode; it looks at its operand, then at whether the mode may still be set, then at debug (log 137). -/
def State.setMode (s : State) (v : Nat) : State :=
  if 1 < v then s.say St.badOperand
  else if s.sec.modeSet || s.sec.ctxMade then s.say St.busy
  else if v = 1 && s.sec.debugOpen then s.say St.access
  else ({ s with sec := { s.sec with modeSet := true, confidential := v = 1 } }).say St.ok

/-- R370: Set Mode. -/
def execSetMode (ld : Ld) (confidential : Nat) (s : State) : Host.Outcome State Fault Refusal :=
  .next (s.vendor ld (fun s => s.setMode confidential))

/-- R366, R369, R405: Open Debug: authorised (in BLANK without a signature), not in confidential mode, not in SCRAPPED; a cold
reset with CAUSE 7 that comes out with debug open. -/
def State.openDebug (s : State) (signature : List Byte) : State :=
  if s.sec.confidential || s.sec.lcs == .scrapped then s.refuse
  else if s.sec.lcs != .blank && !(s.authorised (lcsCode s.sec.lcs) signature) then s.refuse
  else ({ (s.say St.ok) with sec := { s.sec with debugRequest := true } }).coldReset 7

/-- R291, R369, R404: Open Debug, with its signature of 4,627 bytes; SCRAPPED refuses it, though its firmware never runs. -/
def execOpenDebug (ld : Ld) (signature : List (BitVec 8)) (s : State) : Host.Outcome State Fault Refusal :=
  .next (s.vendor ld (fun s => if signature.length ≠ 4627 then s.no .invalidInput else s.openDebug signature)
    (boot := s.sec.lcs == .scrapped))

/-- R366, R373: Get Nonce; the boot ROM answers it too. -/
def execGetNonce (ld : Ld) (s : State) : Host.Outcome State Fault Refusal :=
  .next (s.vendor ld (fun s => s.needKey (fun n s =>
    let v : BitVec 256 := (Config.drbg n).setWidth 256
    ({ s with sec := { s.sec with nonces := s.sec.nonces ++ [v] } }).say St.ok 0 (leBytes 32 v.toNat))) false true)

/-! ### Contexts (R376, R377, R520) -/

/-- R520 step 2: a field is out of range; `compat` is the context's COMPAT410 bit where it must not change. -/
def ctxFieldBad (c : Nat) (rights : BitVec 16) (domain : Nat) (compat : Option Bool) : Bool :=
  decide (4096 ≤ c) || decide (4096 ≤ domain) || decide (64 ≤ rights.toNat) ||
    (match compat with
    | some b => rights.getLsbD 5 != b
    | none => false)

/-- R520 step 4: the mask names a unit that another context holds. -/
def State.maskTaken (s : State) (c : Nat) (mask : BitVec 64) : Bool :=
  s.ctxs.any (fun p => p.1 != c && p.2.state != .free && (p.2.chkMask &&& mask) != 0)

/-- R520 step 5: PERSIST_NEW and PERSIST without the persistent root. -/
def State.persistBad (s : State) (rights : BitVec 16) : Bool :=
  rights.getLsbD 1 && rights.getLsbD 3 && s.sec.persistRoot.isNone

/-- R376, R520: Create Context. -/
def State.createContext (s : State) (c : Nat) (rights : BitVec 16) (domain : Nat) (quota mask : BitVec 64) : State :=
  if s.sec.lcs != .deployed then s.say St.notEnabled
  else if ctxFieldBad c rights domain none then s.say St.badOperand
  else if (s.ctx c).state != .free then s.say St.busy
  else if s.maskTaken c mask then s.say St.busy
  else if s.persistBad rights then s.say St.access
  else s.needKey (fun n s =>
    let s := s.setCtx c {
      state := .active, keySet := [(0, n)], rights := rights, domain := BitVec.ofNat 12 domain, quota := quota, chkMask := mask
      created := s.now, bind := (s.ctx c).bind }
    ({ s with sec := { s.sec with ctxMade := true } }).say St.ok)

/-- R376: Create Context. -/
def execCreateContext (ld : Ld) (ctx : Nat) (rights : BitVec 16) (domain : Nat) (quota chkMask : BitVec 64) (s : State) :
    Host.Outcome State Fault Refusal :=
  .next (s.vendor ld (fun s => s.createContext ctx rights domain quota chkMask))

/-- R357: the units of `gone` are cleared. -/
def State.clearUnits (s : State) (gone : BitVec 64) : State :=
  { s with chk := s.chk.keep (fun u _ => !(decide (u < 64) && gone.getLsbD u)) }

/-- R357: the units that leave a context's mask are cleared; an instruction that has issued keeps the state that it found. -/
def State.leaveUnits (s : State) (c : Nat) (gone : BitVec 64) : State :=
  let kept := s.chk.filter (fun e => decide (e.1 < 64) && gone.getLsbD e.1 && s.unitNamed c e.1)
  let s := s.clearUnits gone
  { s with chk := kept.foldl (fun m e => m.put (keptUnit c e.1) e.2) s.chk }

/-- R357: a unit that comes back to the mask has again the state kept for an instruction. -/
def State.returnUnits (s : State) (c : Nat) (back : BitVec 64) : State :=
  let kept := s.chk.filter (fun e => decide (keptUnit c 0 ≤ e.1) && decide (e.1 < keptUnit c 64) && back.getLsbD (e.1 % 64))
  { s with chk := kept.foldl (fun m e => (m.del e.1).put (e.1 % 64) e.2) s.chk }

/-- R13, R116, R376, R520: Set Context; whatever looks at the context from now on sees the new fields. -/
def State.setContext (s : State) (c : Nat) (rights : BitVec 16) (domain : Nat) (quota mask : BitVec 64) : State :=
  let x := s.ctx c
  if s.sec.lcs != .deployed then s.say St.notEnabled
  else if ctxFieldBad c rights domain (if x.state == .free then none else some (x.rights.getLsbD 5)) then s.say St.badOperand
  else if x.state == .free then s.say St.badOperand
  else if x.state == .retiring then s.say St.busy
  else if s.maskTaken c mask then s.say St.busy
  else if s.persistBad rights then s.say St.access
  else
    let old := x.domain.toNat
    let s := (s.leaveUnits c (x.chkMask &&& ~~~mask)).returnUnits c (mask &&& ~~~x.chkMask)
    let s := if old ≠ domain then
        (s.withdrawAll (fun e => e.vctx == c && e.scope == .domain && e.vdom == old && !e.nopub)).2 else s
    (s.setCtx c { s.ctx c with rights := rights, domain := BitVec.ofNat 12 domain, quota := quota, chkMask := mask }).say St.ok

/-- R376: Set Context. -/
def execSetContext (ld : Ld) (ctx : Nat) (rights : BitVec 16) (domain : Nat) (quota chkMask : BitVec 64) (s : State) :
    Host.Outcome State Fault Refusal :=
  .next (s.vendor ld (fun s => s.setContext ctx rights domain quota chkMask))

/-- R385: Rotate Context Key. -/
def State.rotate (s : State) (c : Nat) : State :=
  let x := s.ctx c
  if x.oldLive then s.say St.busy
  else s.needKey (fun n s =>
    let e := x.present + 1
    (s.setCtx c { x with
      present := e, old := x.present, oldLive := true, sweeping := true, keySet := x.keySet.put e.toNat n }).say St.ok 0
      (leBytes 1 e.toNat))

/-- R385: Rotate Context Key. -/
def execRotateContextKey (ld : Ld) (ctx : Nat) (s : State) : Host.Outcome State Fault Refusal :=
  .next (s.vendorCtx ld ctx (fun s => s.rotate ctx))

/-! ### MACsec and connection keys (R397-R399) -/

/-- R399: Set MACsec CAK; key agreement begins under it (R331). -/
def execSetMacsecCak (ld : Ld) (port : Nat) (ckn : BitVec 128) (cak : BitVec 256) (s : State) :
    Host.Outcome State Fault Refusal :=
  .next (s.vendor ld (fun s =>
    if 1 < port then s.say St.badOperand
    else ((s.setPort (sideOf port) { s.flu.port.get (sideOf port) with cak := some (ckn, cak) }).sendMka (sideOf port)).say St.ok))

/-- R397 step 1: Begin Connection Key. -/
def State.beginKey (s : State) (n : Nat) : State :=
  if 32768 ≤ n then s.say St.badOperand
  else s.needKey (fun k s =>
    let e := Config.encapsKey k
    (s.setConn n { s.conn n with kemPair := some k }).say St.ok 0
      (e ++ Config.sign (e ++ leBytes 2 n ++ leBytes 64 Config.identityDigest.toNat)))

/-- R397: Begin Connection Key. -/
def execBeginConnectionKey (ld : Ld) (conn : Nat) (s : State) : Host.Outcome State Fault Refusal :=
  .next (s.vendor ld (fun s => s.beginKey conn))

/-- R373, R397 step 4: the 72 bytes derived under the label "flue" from a shared secret, over the connection id and PEER_CONN, each of
two bytes. -/
def flueKeys (secret : BitVec 256) (n peer : Nat) : BitVec 576 :=
  Config.kmac72 8 (secret.setWidth 512) (BitVec.ofNat 512 (n + 65536 * peer))

/-- R397 step 4, R398: Complete Connection Key. -/
def State.completeKey (s : State) (n : Nat) (ct : List Byte) : State :=
  let x := s.conn n
  if 32768 ≤ n then s.say St.badOperand
  else if x.state != .closed then s.say St.busy
  else
    match x.kemPair with
    | none => s.say St.badOperand
    | some k =>
      (s.setConn n { x with
        kemPair := none, keyed := some (flueKeys (Config.decapsulate k ct) n x.peerConn.toNat) }).say St.ok

/-- R397: Complete Connection Key. -/
def execCompleteConnectionKey (ld : Ld) (conn : Nat) (ciphertext : List (BitVec 8)) (s : State) :
    Host.Outcome State Fault Refusal :=
  .next (s.vendor ld (fun s => if ciphertext.length ≠ 1568 then s.no .invalidInput else s.completeKey conn ciphertext))

end Machine
end Sys2Proof
end

