-- ==== Sys2Proof/Machine/Win.lean ====
section
/-! DEFINITION. Weight windows (R221-R227): WIN.OPEN, WIN.ADVANCE, WIN.CLOSE, and a window's sending of its layers. -/

namespace Sys2Proof
namespace Machine

/-- R222: an object is READY: every layer's chunks have Coal copies. -/
def WObj.ready (w : WObj) : Bool := w.live && (List.range w.lengths.length).all (fun l => w.loaded.contains l)

/-- R221: home die of a weight object key. -/
def objDie (k : Nat) : Side := sideOf (k / 2048)

/-- R222: bytes of a chunk. -/
def chunkBytes : Nat := 65536

/-- R222: the handles of the chunks of a layer. -/
def State.chunks (s : State) (k l : Nat) : List Nat :=
  let w := s.wobj k
  (List.range (ceilDiv (w.lengths.getD l 0) chunkBytes)).map (fun j => pageHandle (objDie k) (w.firsts.getD l 0 + 64 * j))

/-- R222: the index of a chunk in its layer. -/
def State.chunkNo (s : State) (h : Nat) : Nat :=
  match (s.page h).chunk with
  | some (k, _) => (pageNo h - (s.wobj k).firsts.getD (s.page h).layer 0) / 64
  | none => 0

/-- R393: the key of chunk j of a layer, under the label "chunk" (4), over the model id, the layer and the chunk index. -/
def chunkKey (w : WObj) (l j : Nat) : BitVec 256 :=
  (Config.kmac 4 ((w.key.getD 0).setWidth 512) (BitVec.ofNat 512 (w.modelId.toNat + 2 ^ 128 * l + 2 ^ 192 * j))).setWidth 256

/-- R393: the data that a chunk's tag covers beside it: the model id, the layer, the chunk index, the layer length. -/
def chunkAad (w : WObj) (l j : Nat) : List Byte :=
  leBytes 16 w.modelId.toNat ++ leBytes 2 l ++ leBytes 4 j ++ leBytes 8 (w.lengths.getD l 0)

/-- R393, R394: the owner's tag of chunk j of a layer. -/
def chunkTag (w : WObj) (l j : Nat) : BitVec 128 := (w.tags.lookD l []).getD j 0

/-- R393, R396: the stored ciphertext (number i of the object) verifies under the chunk key with the owner's tag. -/
def chunkOk (w : WObj) (l j i : Nat) : Bool := Config.gcmTag (chunkKey w l j) (chunkAad w l j) (w.cipher.lookD i []) == chunkTag w l j

/-- R393, R396: the plaintext of a chunk, as the part's own decryption gives it. -/
def chunkPlain (w : WObj) (l j i : Nat) : List Byte :=
  (Config.gcmOpen (chunkKey w l j) (chunkAad w l j) (w.cipher.lookD i []) (chunkTag w l j)).take 65536

/-- R396: the bytes of a resident chunk of a KEYED object stand at its view. -/
def State.openChunk (s : State) (h : Nat) : State :=
  match s.chunkObj (s.page h), (s.page h).chunk with
  | some w, some (_, i) => if w.key.isNone then s else s.poke (viewBase h) (chunkPlain w (s.page h).layer (s.chunkNo h) i)
  | _, _ => s

/-- R395: an object's key has been released: its resident chunks open. -/
def State.openChunks (s : State) (k : Nat) : State :=
  let hs := (List.range (s.wobj k).lengths.length).flatMap (s.chunks k)
  (hs.filter (fun h => (s.page h).resident)).foldl State.openChunk s

/-- R224: SLOT, the largest layer length rounded up to 64 KiB. -/
def WObj.slot (w : WObj) : Nat := ceilDiv (w.lengths.foldl Nat.max 0) chunkBytes * chunkBytes

/-- R224: the layer that a window sends k-th. -/
def State.winLayer (s : State) (w : Win) (k : Nat) : Nat := (w.first + k) % Nat.max (s.wobj w.obj).lengths.length 1

/-- R225: the chunks of the next 2 × P layers are staged. -/
def State.winStage (s : State) (w : Win) : State :=
  (List.range (2 * w.depth)).foldl (fun s d =>
    (s.chunks w.obj (s.winLayer w (w.begun + d))).foldl (fun s h => s.request h .staging (Nat.min d 8)) s) s

/-- R221: the key of the weight object that a handle names. -/
def objKey (w : BitVec 64) : Nat := bits w.toNat 21 1 * 2048 + bits w.toNat 0 11

/-- R377: WIN instructions need the WEIGHTS right; its place, before the others, and its status are the model's choice (log 137). -/
def State.noWeights (s : State) (c : Nat) : Bad := badIf (!((s.ctx c).rights.getLsbD 4)) St.access 0

/-- R223: what WIN.OPEN checks, in the order of its table; then the alignment of the remote base W2 (ST_BAD_ALIGN, DETAIL 2), whose place no
rule gives: the model's choice (log 137). -/
def openBad (j : Job) (s : State) : Bad :=
  let n := bits j.w1.toNat 0 15
  let p := bits j.w1.toNat 16 8
  let l0 := if j.allLayers then 0 else j.layer.toNat
  let o := s.wobj (objKey j.w0)
  let bad : Bad := match s.checkObj o.ctx j.w0 8 with
    | .error e => some e
    | .ok _ => none
  firstBad [
      s.noWeights j.ctx,
      bad,
      badIf (!o.ready || !o.keyed) St.busy 0,
      badIf (o.ctx ≠ j.ctx) St.access 0,
      badIf ((s.conn n).ctx.toNat ≠ j.ctx || !(s.conn n).sealed) St.access 1,
      badIf (p = 0 || 16 < p) St.badOperand 1,
      badIf (o.lengths.length ≤ l0) St.badOperand 0x10,
      badIf (j.w2.toNat % 64 ≠ 0) St.badAlign 2,
      badIf (256 ≤ s.wins.length) St.noSpace 0]

/-- R223: WIN.OPEN. -/
def openBody (j : Job) (s : State) : Out :=
  let i := s.wins.lowFree
  let w : Win := {
    obj := objKey j.w0, ctx := j.ctx, conn := bits j.w1.toNat 0 15, depth := bits j.w1.toNat 16 8, base := j.w2
    first := if j.allLayers then 0 else j.layer.toNat }
  succeeds i (({ s with wins := s.wins.put i w }).winStage w)

/-- R223: WIN.OPEN. -/
def execWinOpen (a : At) (s : State) : Host.Outcome State Fault Refusal := .next (runHob 0x60 a (checks openBad) openBody s)

/-- R226, R227, R377: the window that W0 names: open (log 34), of the context, not closed by itself. -/
def State.badWin (s : State) (c : Nat) (w0 : BitVec 64) : Bad :=
  firstBad [s.noWeights c, match s.wins.look w0.toNat with
    | none => some (St.window, 0)
    | some w => badIf (w.ctx ≠ c) St.access 0]

/-- R226, R227: the window that W0 names, and so many layers to release. -/
def advanceBad (j : Job) (s : State) : Bad :=
  let w := s.wins.lookD j.w0.toNat {}
  firstBad [s.badWin j.ctx j.w0,
    badIf (w.selfClosed || w.closing || w.acked - w.released < bits j.w1.toNat 0 16) St.window 0]

/-- R226: WIN.ADVANCE. -/
def advanceBody (j : Job) (s : State) : Out :=
  let w := s.wins.lookD j.w0.toNat {}
  succeeds (s.winLayer w w.begun) { s with
    wins := s.wins.put j.w0.toNat { w with released := w.released + bits j.w1.toNat 0 16 } }

/-- R226: WIN.ADVANCE. -/
def execWinAdvance (a : At) (s : State) : Host.Outcome State Fault Refusal := .next (runHob 0x61 a (checks advanceBad) advanceBody s)

/-- R227: WIN.CLOSE. -/
def closeBody (j : Job) (s : State) : Out :=
  match j.prev with
  | some (.winClose i) => .wait (.winClose i) s
  | _ =>
    let i := j.w0.toNat
    let w := s.wins.lookD i {}
    if w.selfClosed then fails St.window 0 { s with wins := s.wins.del i }
    else if w.msgs.isEmpty then succeeds 0 { s with wins := s.wins.del i }
    else .wait (.winClose i) { s with wins := s.wins.put i { w with closing := true } }

/-- R227: WIN.CLOSE. -/
def execWinClose (a : At) (s : State) : Host.Outcome State Fault Refusal := .next (runHob 0x62 a (checks (fun j s => s.badWin j.ctx j.w0)) closeBody s)

/-- R222: the bytes of a layer as its resident chunks hold them. -/
def State.layerBytes (s : State) (k l : Nat) : List Byte :=
  ((s.chunks k l).flatMap (fun h => s.peek (viewBase h) chunkBytes)).take ((s.wobj k).lengths.getD l 0)

/-- R224: bytes of a window message. -/
def winMsgBytes : Nat := 67108864

/-- R224: the messages of a layer of n bytes: offset and length. -/
def layerMsgs (n : Nat) : List (Nat × Nat) :=
  (List.range (ceilDiv n winMsgBytes)).map (fun i => (i * winMsgBytes, Nat.min winMsgBytes (n - i * winMsgBytes)))

/-- R224: the messages of the next layer begin, in ascending offset, the last with FINAL. -/
def State.winSend (s : State) (i : Nat) (w : Win) : State :=
  let o := s.wobj w.obj
  let l := s.winLayer w w.begun
  let data := s.layerBytes w.obj l
  let ms := layerMsgs data.length
  let slot := w.base.toNat + (w.begun % Nat.max w.depth 1) * o.slot
  let s := (s.chunks w.obj l).foldl State.engineRead s
  let (s, qs) := ms.foldl (fun (acc : State × List Nat) m =>
    let (q, s) := acc.1.beginMsg w.conn {
      data := (data.drop m.1).take m.2, raddr := BitVec.ofNat 64 (slot + m.1), rkey := (acc.1.conn w.conn).defaultRkey
      final := m.1 + m.2 = data.length }
    (s, acc.2 ++ [q])) (s, [])
  let w := { w with begun := w.begun + 1, msgs := w.msgs ++ qs.map (fun q => (q, w.begun)) }
  ({ s with wins := s.wins.put i { w with acked := w.countAcked } }).winStage w

/-- R224-R227: WIN_LAYER_SEND: once a slot is free, the connection is open and the layer's chunks are resident, its sending
begins; chunks that are not resident are asked for. -/
def State.winStep (s : State) (i : Nat) : State :=
  match s.wins.look i with
  | none => s
  | some w =>
    let x := s.conn w.conn
    let o := s.wobj w.obj
    let hs := s.chunks w.obj (s.winLayer w w.begun)
    let s := hs.foldl State.stackTreat s
    let ms := layerMsgs (o.lengths.getD (s.winLayer w w.begun) 0)
    if w.selfClosed || w.closing || !s.running || x.state != .opened || !x.sealed || w.depth ≤ w.begun - w.released
      || !o.live || 256 < x.tx.length + ms.length then s
    else if hs.any (fun h => (s.page h).life == .lost) then s.winFail i
    else if hs.all (fun h => (s.page h).resident) then s.winSend i w
    else hs.foldl (fun s h => s.request h .staging 0) s

/-- R224: WIN_LAYER_SEND. -/
def execWinLayerSend (win : Nat) (s : State) : Host.Outcome State Fault Refusal := .next (s.winStep win)

end Machine
end Sys2Proof
end

