-- ==== Sys2Proof/Machine/Weight.lean ====
section
/-! DEFINITION. Weight objects (R198, R221, R222, R393-R396, R404): creation, loading, deletion. -/

namespace Sys2Proof
namespace Machine

/-- R221: the handle of a weight object. -/
def objHandle (k : Nat) (gen : BitVec 16) : Nat := 2 ^ 39 + gen.toNat * 2 ^ 22 + k / 2048 * 2 ^ 21 + k % 2048

/-- R221: the generation of the next object at an index: it advances at each reuse, and is never 0 at index 0 of the West die. -/
def State.nextGen (s : State) (k : Nat) : BitVec 16 :=
  let g := if s.wobjs.has k then (s.wobj k).gen + 1 else 0
  if k = 0 && g = 0 then 1 else g

/-- R221: the lowest free index of a die. -/
def State.freeObj (s : State) (d : Side) : Nat :=
  lowestFree (((s.wobjs.filter (fun p => p.2.live && objDie p.1 == d)).map (fun p => p.1 % 2048)).foldl insNat []) 0

/-- R76, R198, R404: the home die of a new object: named, or the part's choice, which passes over a die whose indices are all in
use. -/
def State.objHome (s : State) (home : Nat) : Side :=
  if home < 2 then sideOf home
  else if 2048 ≤ s.freeObj s.roomier then s.roomier.other else s.roomier

/-- R222: chunks of a layer. -/
def chunksOf (n : Nat) : Nat := ceilDiv n chunkBytes

/-- R222: first page numbers of consecutive runs from page number a on. -/
def runsFrom : Nat → List Nat → List Nat
  | _, [] => []
  | a, n :: r => a :: runsFrom (a + 64 * chunksOf n) r

/-- R222: the handle entries of n chunks of layer l from page number a on, chunks from number i of object k on. -/
def State.putChunks (k l c pslot : Nat) (d : Side) : Nat → Nat → Nat → State → State
  | 0, _, _, s => s
  | n + 1, a, i, s =>
    let p : Page := {
      life := .sealed, res := .absent, persistent := true, ctx := c, refcnt := 1, pslot := pslot, layer := l, kib := 64
      chunk := some (k, i), pref := (k % 2048 + i) % 10 }
    State.putChunks k l c pslot d n (a + 64) (i + 1) (s.setPage (pageHandle d a) p)

/-- R222: every layer's chunks: layer, first page number, length in turn. -/
def State.putLayers (k c pslot : Nat) (d : Side) : List (Nat × Nat × Nat) → Nat → State → State
  | [], _, s => s
  | (l, a, n) :: r, i, s => State.putLayers k c pslot d r (i + chunksOf n) (State.putChunks k l c pslot d (chunksOf n) a i s)

/-- R242: consecutive spans from sp on given to chunks. -/
def claimSpans (h : Half) (sp n : Nat) : Half :=
  { h with spans := (List.range n).foldl (fun t i => t.put (sp + i) (64, true)) h.spans }

/-- R222, R377, R404: Create Weight Object. -/
def State.createObj (s : State) (c home pid : Nat) (model check : BitVec 128) (lengths : List Nat) : State :=
  if 2 < home || lengths.isEmpty || 1024 < lengths.length || lengths.any (fun n => n = 0 || 4294967296 < n) then
    s.say St.badOperand
  else if !((s.ctx c).rights.getLsbD 4) then s.say St.access
  else
    match s.profileSlot pid with
    | none => s.say St.badOperand
    | some slot =>
      let d := s.objHome home
      let i := s.freeObj d
      let h := s.coal.half.get d
      let total := (lengths.map chunksOf).foldl (· + ·) 0
      let sp := h.spans.keys.foldl Nat.max 0 + 1
      if 2048 ≤ i || 402653184 < s.handlesOn d + total || 2 ^ 37 ≤ sp * 2048 + 64 * total + 2048 then s.say St.noSpace
      else
        let k := d.num * 2048 + i
        let g := s.nextGen k
        let firsts := runsFrom (sp * 2048) lengths
        let s := s.setHalf d (claimSpans h sp (ceilDiv total 32))
        let s := State.putLayers k c slot d ((List.range lengths.length).zip (firsts.zip lengths)) 0 s
        (s.setWobj k {
          live := true, gen := g, ctx := c, pslot := slot, lengths := lengths, firsts := firsts, keyCheck := check
          modelId := model }).say St.ok 0 (leBytes 8 (objHandle k g))

/-- R404: Create Weight Object. -/
def execCreateWeightObject (ld : Ld) (ctx home profileId : Nat) (modelId keyCheck : BitVec 128) (lengths : List Nat)
    (s : State) : Host.Outcome State Fault Refusal :=
  .next (s.vendorCtx ld ctx (fun s => s.createObj ctx home profileId modelId keyCheck lengths))

/-- R221, R404: a command that names a weight object. -/
def State.withObj (s : State) (handle : BitVec 64) (go : Nat → State → State) : State :=
  if s.sec.lcs != .deployed then s.say St.notEnabled
  else
    match s.checkObj (s.wobj (bits handle.toNat 21 1 * 2048 + bits handle.toNat 0 11)).ctx handle 0 with
    | .error e => s.say e.1 e.2
    | .ok k => if (s.ctx (s.wobj k).ctx).state == .retiring then s.say St.busy else go k s

/-- R393: bytes of a unit of a layer as Load Weight Layer reads it: ciphertext and tag. -/
def unitBytes : Nat := 65552

/-- R200: frames for chunks being loaded: ABSENT to HOT; a chunk that was loaded before keeps its state and its place. -/
def State.loadFrames (d : Side) : List Nat → State → Plan
  | [], s => .ready s
  | h :: r, s =>
    if (s.page h).res != .absent then State.loadFrames d r s
    else
      match s.allocFrame d (s.page h).pref 64 none [] with
      | .noSpace => .noSpace
      | .waits => .waits d r.length
      | .got f s => State.loadFrames d r (s.updPage h (fun p => { p with res := .hot, primary := some f, residentAt := s.now.toNat }))

/-- R200, R238: chunks of a row of 2,880 KiB. -/
def rowChunks : Nat := 44

/-- R200: chunks become DEMOTING, and CLEAN when their records are written and mapped. -/
def State.setRes (s : State) (hs : List Nat) (from_ to_ : Res) (coal : Bool) : State :=
  hs.foldl (fun s h => (s.updPage h (fun p => if p.res == from_ then { p with res := to_, coal := coal } else p)).relist h) s

/-- R222: a record of a chunk that still waits for its row is superseded by the layer that is loaded again. -/
def State.supersede (s : State) (d : Side) (h : Nat) : State :=
  let x := s.coal.half.get d
  s.setHalf d { x with row := x.row.map (fun (e : RowEnt) => if e.key == h then { e with gone := true } else e) }

/-- R200, R222, R247, R253: chunks of a layer being loaded, row by row: each gets its frame, is demoted while DEMOTE_EN is set, and is CLEAN
with its record written and mapped; with DEMOTE_EN clear it stays HOT. The first argument bounds the rows. -/
def State.loadChunks (d : Side) (c : Nat) : Nat → List Nat → State → Plan
  | _, [], s => .ready s
  | 0, _, _ => .noSpace
  | n + 1, hs, s =>
    let now := hs.take rowChunks
    match State.loadFrames d now s with
    | .ready s =>
      let es : List RowEnt := now.map (fun h => { key := h, kib := 64, epoch := 0, persist := true, ctx := c })
      if !s.drt.demoteEn then State.loadChunks d c n (hs.drop rowChunks) (now.foldl State.relist s)
      else match ((now.foldl (fun s h => s.supersede d h) s).setRes now .hot .demoting false).coalStore d false es with
      | none => .noSpace
      | some s =>
        let s := s.setHalf d { s.coal.half.get d with reached := s.now.toNat }
        let s := (s.setRes now .demoting .clean true).setRes now .cold .cold true
        let s := { s with coal := { s.coal with health := { s.coal.health with
          demoted := s.coal.health.demoted + 65536 * now.length } } }
        State.loadChunks d c n (hs.drop rowChunks) ((s.count 0x03200108 now.length).count 0x03300108 now.length)
    | .waits d n' => .waits d ((hs.drop rowChunks).length + n')
    | .noSpace => .noSpace

/-- R222, R247, R393: the chunks of a layer are loaded; tags and ciphertext are kept. -/
def State.storeLayer (s : State) (k l src : Nat) : Plan :=
  let w := s.wobj k
  let hs := s.chunks k l
  match State.loadChunks (objDie k) w.ctx (hs.length + 1) hs s with
  | .ready s =>
    let part (j : Nat) : List Byte := s.peek (src + unitBytes * j) unitBytes
    let tags := (List.range hs.length).map (fun j => (BitVec.ofNat 128 (ofBytes ((part j).drop 65536)) : BitVec 128))
    let first := ((s.page (hs.headD 0)).chunk.map (·.2)).getD 0
    let cipher := (List.range hs.length).foldl (fun t j => Tbl.put t (first + j) ((part j).take 65536)) w.cipher
    .ready (s.setWobj k { w with
      tags := w.tags.put l tags, cipher := cipher, loaded := if s.drt.demoteEn then insNat w.loaded l else w.loaded })
  | x => x

/-- R209, R241, R253, R264, R283, R404, R522: a Load Weight Layer is carried out, is refused, or waits without an answer, for a demotion,
for the demotion ceiling or for a host that owns a line of its source (log 126). -/
def State.putLayer (s : State) (w : LoadWait) : State :=
  let d := objDie w.obj
  let n := chunksOf ((s.wobj w.obj).lengths.getD w.layer 0)
  let owned := s.heldLines w.src (unitBytes * n) false
  let wait (s : State) (alloc : Bool) (left : Nat) : State :=
    { s with drt := { s.drt with loadWaits := s.drt.loadWaits ++ [{ w with alloc := alloc, left := left }] } }.answer {}
  if !s.coal.en || !(s.coal.half.get d).ready then s.say St.notEnabled
  else if s.coal.readOnly then s.say St.noSpace
  else if !(s.coalFits d (64 * n)) then (s.setFull d).say St.noSpace
  else if !owned.isEmpty then wait (s.sendSnoops owned) false 0
  else if s.drt.demoteEn && !(s.demotionsRun d) then wait s false 0
  else match s.storeLayer w.obj w.layer w.src with
  | .ready t => t.say St.ok
  | .noSpace => s.say St.noSpace
  | .waits d left => wait (s.allocWaits d (w.alloc && decide (w.left ≤ left))) true left

/-- R222, R241, R382, R393, R429: Load Weight Layer: into a LOADING object, all of the layer or nothing; a write that does not fit sets
FULL. -/
def State.loadLayer (s : State) (ld : Ld) (k l src : Nat) : State :=
  let w := s.wobj k
  let n := unitBytes * chunksOf (w.lengths.getD l 0)
  if w.lengths.length ≤ l then s.say St.badOperand
  else if w.ready then s.say St.busy
  else
    match firstBad [s.rngUp w.ctx src n 0, s.mem.readErr src n] with
    | some e => (s.countFailure e.1).say e.1 e.2
    | none => s.putLayer { ld := ld, obj := k, layer := l, src := src }

/-- R393: Load Weight Layer. -/
def execLoadWeightLayer (ld : Ld) (handle : BitVec 64) (layer src : Nat) (s : State) : Host.Outcome State Fault Refusal :=
  .next (s.vendor ld (fun s => s.withObj handle (fun k s => s.loadLayer ld k layer src)))

/-- R227, R396, R402: a weight object goes: its windows close, its chunks are FREE, its key is destroyed. -/
def State.deleteObj (s : State) (k : Nat) : State :=
  let w := s.wobj k
  let s := s.winFailAll (fun x => x.obj == k)
  let s := ((List.range w.lengths.length).flatMap (fun l => s.chunks k l)).foldl (fun s h =>
    if s.pages.has h then s.freePage h else s) s
  s.setWobj k { gen := w.gen }

/-- R396: Delete Weight Object. -/
def execDeleteWeightObject (ld : Ld) (handle : BitVec 64) (s : State) : Host.Outcome State Fault Refusal :=
  .next (s.vendor ld (fun s => s.withObj handle (fun k s => (s.deleteObj k).say St.ok)))

end Machine
end Sys2Proof
end

