-- ==== Sys2Proof/Machine/Retire.lean ====
section
/-! DEFINITION. Retiring a tenant (R402, R403, R429). -/

namespace Sys2Proof
namespace Machine

/-- R402: the index of the first instruction of a ring that completed ST_CTX_RETIRED is kept. -/
def State.markRetired (s : State) (r : JRec) : State :=
  let g := s.ring r.ring
  s.setRing r.ring { g with retiredAt := g.retiredAt.or (some r.index) }

/-- R403: an issued instruction (or the call it is) that stops. -/
def stops (op : Nat) : Bool :=
  op = 0x02 || op = 0x06 || (0x10 ≤ op && op ≤ 0x53) || (0x70 ≤ op && op ≤ 0x81)

/-- R403: pages done by an instruction that stops (its DETAIL): promoted by PAGE.STAGE, copied by PAGE.FETCH, published by
PFX.PUBLISH; the others do none before they complete. -/
def JRec.pagesDone (r : JRec) : Nat :=
  match r.inst.opcode with
  | 0x20 => r.result.toNat
  | 0x22 => r.snap.copied.length
  | 0x41 => r.result.toNat
  | _ => 0

/-- R178: an issued ATT.PREFILL with SAVE_STATS whose statistics' range has passed ends otherwise than ST_OK: its stamp has TAG 0. -/
def State.stopStamp (s : State) (r : JRec) : State :=
  if r.state == .issued && effOp r.inst r.step = 0x51 && (r.checked || (s.prefillTop (s.job r)).isNone) then
    let j := s.job r
    let d := s.desc j.w0.toNat
    s.stamp j d (prefillTab j d) (rowTotal (s.queryBlocks j.w0.toNat d.lentab d.count)) (s.descProfile d).qheads St.ctxRetired
  else s

/-- R403: the steps in flight of a ring's calls end. -/
def State.dropSteps (s : State) (n : Nat) : State :=
  let st := s.stepRecs n
  let s := st.foldl (fun s e =>
    let s := s.stopStamp e
    if e.state == .issued then (s.writeDst n e.inst { status := St.ctxRetired }).unname e.names else s) s
  let s := { s with jrn := { s.jrn with steps := s.jrn.steps.filter (fun e => e.ring != n) } }
  (st.foldl (fun s e => s.endUses e.uses) s).setRing n { s.ring n with calls := [] }

/-- R403: what becomes of one journal record of a retiring context. -/
def State.stopRec (s : State) (a : At) : State :=
  match s.rec? a with
  | none => s
  | some r =>
    if r.state == .accepted then (s.void r St.ctxRetired).markRetired r
    else if r.state == .issued && stops r.inst.opcode then
      let s := if r.entered then s.dropSteps r.ring else s.stopStamp r
      ((s.finishRing r r.inst { status := St.ctxRetired, detail := r.pagesDone }).endUses r.uses).markRetired r
    else s

/-- R403: the accepted work of a context ends. -/
def State.retireWork (s : State) (c : Nat) : State :=
  ((s.jrn.recs.filter (fun r => r.ctx == c)).foldl (fun s r => s.stopRec r.site) s).markFree

/-- R403: the pool commands of a context stop. -/
def State.retirePool (s : State) (c : Nat) : State :=
  allLds.foldl (fun s l =>
    match (s.ld l).bgRun with
    | some r => if r.ctx == c then s.setLd l ((s.ld l).bgEnd r St.ctxRetired 0) else s
    | none => s) s

/-- R402 steps 3 and 4: the connections of a context close with reason 1, its remote keys are revoked. -/
def State.retireLinks (s : State) (c : Nat) : State :=
  let s := ((s.flu.conns.filter (fun p => p.2.ctx.toNat == c && p.2.state == .opened)).map (·.1)).foldl
    (fun s n => s.closeConn n (some 1) St.ctxRetired) s
  ((s.flu.keys.filter (fun p => p.2.ctx == c)).map (·.1)).foldl (fun s i => s.startRevoke i) s

/-- R83, R116, R402 step 6: session-class pages that are left are dropped; no page is charged to the context any more. -/
def State.retirePages (s : State) (c : Nat) : State :=
  let hs := (s.pages.filter (fun p => p.2.ctx == c && !p.2.persistent && p.2.refcnt != 0)).map (·.1)
  let s := hs.foldl State.dropPage s
  { s with pages := s.pages.mapVals (fun _ p => if p.ctx == c then { p with charged := false } else p) }

/-- R402, R429: the ring list as known when the work has ended: number, final AIDX, first index retired. -/
def State.retireList (s : State) (c : Nat) : List (Nat × BitVec 32 × BitVec 32) :=
  (s.rings.filter (fun p => p.2.ctx.toNat == c)).map (fun p =>
    (p.1, p.2.aidx, p.2.retiredAt.getD ((Config.freeWord (s.fresh + p.1)).setWidth 32)))

/-- R402 step 7, R445: the rings of a context are disabled, its bookings end, those of disabled rings among them. -/
def State.retireRings (s : State) (c : Nat) : State :=
  { s with rings := s.rings.mapVals (fun _ g =>
      if g.ctx.toNat == c then { (if g.en then g.disable else g) with booking := none } else g) }

/-- R402 step 7: sequences, weight objects and shared regions of a context go. -/
def State.retireObjects (s : State) (c : Nat) : State :=
  let s := ((s.seqs.filter (fun p => p.2.state != .free && p.2.ctx == c)).map (·.1)).foldl State.releaseSeq s
  let s := ((s.wobjs.filter (fun p => p.2.live && p.2.ctx == c)).map (·.1)).foldl State.deleteObj s
  ((s.cxp.shared.filter (fun p => s.granuleCtx p.2.base == some c)).map (·.1)).foldl (fun s i => s.deleteShared i none) s

/-- R378, R402 step 5: Fireboxes that hold a context's units zero what they hold of it. -/
def State.switchFbx (s : State) (c : Nat) : State :=
  { s with eng := s.eng.map (fun e => { e with fbxHolds := e.fbxHolds.keep (fun _ x => x != c) }) }

/-- R280, R402 steps 1, 3 and 4: no host request to a context is in flight, its connections have closed, and every packet that passed its
key check has been written. -/
def State.linksDown (s : State) (c : Nat) : Bool :=
  !(s.inflightTo c 0xFFFFFFFF) &&
  s.flu.conns.vals.all (fun x => x.ctx.toNat != c || x.state == .closed) &&
    s.flu.keys.vals.all (fun k => k.ctx != c || k.inflight == 0)

/-- R402 steps 5 to 7, once its links are down: the Fireboxes switch, the keys are destroyed, rings, objects, regions and pages go. -/
def State.retireRest (s : State) (c : Nat) : State :=
  if !(s.linksDown c) || (s.ctx c).ringList.isSome then s
  else
  let s := s.switchFbx c
  let s := s.setCtx c { s.ctx c with
    keySet := [], compatKey := none, sweeping := false, oldLive := false, ringList := some (s.retireList c) }
  let s := { s with fresh := s.fresh + 65536 }
  let s := (s.retireRings c).recheck
  let s := (s.retireObjects c).retirePages c
  let gs := (s.mem.granules.filter (fun p => p.2.1 == c)).map (·.1)
  { s with mem := { s.mem with filling := gs.foldl insNat s.mem.filling } }

/-- R514: the enabled rings of a context that leaves ACTIVE show CTX_NOT_ACTIVE. -/
def State.ringsOff (s : State) (c : Nat) : State :=
  { s with rings := s.rings.mapVals (fun _ g => if g.en && g.ctx.toNat == c then { g with reason := .ctxNotActive } else g) }

/-- R402: Retire Context: steps 1 to 4 begin, and the rest follows as soon as it may; the zero-fill and the answer are RETIRE_COMPLETE's. -/
def State.retire (s : State) (c : Nat) : State :=
  let s := (s.setCtx c { s.ctx c with state := .retiring, bind := 0, ringList := none }).ringsOff c
  let s := (s.retireWork c).retirePool c
  let s := (s.withdrawAll (fun e => e.vctx == c && !e.nopub)).2
  let s := s.winFailAll (fun w => w.ctx == c)
  ((s.retireLinks c).retireRest c).answer {}

/-- R402: the 12 bytes per ring of the ring list. -/
def ringListBytes (l : List (Nat × BitVec 32 × BitVec 32)) : List Byte :=
  l.flatMap (fun e => leBytes 4 e.1 ++ leBytes 4 e.2.1.toNat ++ leBytes 4 e.2.2.toNat)

/-- R402, R519: Retire Context; a repeat after the end of the retirement returns the ring list. -/
def execRetireContext (ld : Ld) (ctx : Nat) (s : State) : Host.Outcome State Fault Refusal :=
  .next (
    match (s.ctx ctx).state, (s.ctx ctx).ringList with
    | .free, some l => s.vendor ld (fun s =>
        if s.sec.lcs != .deployed then s.say St.notEnabled else s.say St.ok 0 (ringListBytes l))
    | _, _ => s.vendorCtx ld ctx (fun s => s.retire ctx))

/-- R328, R402: the remote keys of a context are gone. -/
def State.freeKeys (s : State) (c : Nat) : State :=
  { s with flu := { s.flu with keys := s.flu.keys.keep (fun _ k => k.ctx != c) } }

/-- R281, R402 step 7: a shared region of a context is left: lines of it are still held. -/
def State.sharedLeft (s : State) (c : Nat) : Bool := s.cxp.shared.vals.any (fun r => s.granuleCtx r.base == some c)

/-- R402 step 7: the next granule of a die to be zero-filled: of a retiring context, in no shared region that is left. -/
def State.nextFill (s : State) (d : Side) : Option Nat :=
  s.mem.filling.find? (fun g => (match s.mem.granules.look g with
    | some (_, e, _) => e == d
    | none => false) && !(s.cxp.shared.vals.any (fun r => decide (r.base ≤ g) && decide (g < r.base + r.granules))))

/-- R402 step 7: the background zero-fill of a die: a granule takes 656 ns at 3.2 TB/s, and it is released as soon as it is done. -/
def State.fillTick (s : State) (d : Side) : State :=
  if s.mem.filling.isEmpty || !s.live then s
  else
    match s.nextFill d, s.mem.fillAt.get d with
    | none, _ => s
    | some _, none => { s with mem := { s.mem with fillAt := s.mem.fillAt.set d (some (s.now.toNat + 656)) } }
    | some g, some t =>
      if s.now.toNat < t then s
      else
        let s := s.dropGranule g
        { s with mem := { s.mem with fillAt := s.mem.fillAt.set d none, filling := s.mem.filling.filter (· != g) } }

/-- R402 steps 5 to 8: RETIRE_COMPLETE: once the rings have drained, its connections have closed and no checked packet is left, what was
left of the retirement is done; once its shared regions are gone, the granules still left are zero-filled and released, and the context is
FREE. -/
def State.retireDone (s : State) (c : Nat) : State :=
  if (s.ctx c).state != .retiring || s.jrn.recs.any (fun r => r.ctx == c) || !(s.linksDown c) || !s.live then s
  else
    let s := s.retireRest c
    if s.sharedLeft c then s else
    let x := s.ctx c
    let gs := (s.mem.granules.filter (fun p => p.2.1 == c)).map (·.1)
    let s := gs.foldl State.dropGranule s
    let s := { s with mem := { s.mem with filling := s.mem.filling.filter (fun g => !(gs.contains g)) } }
    let s := (s.freeKeys c).clearUnits x.chkMask
    let s := { s with chk := s.chk.keep (fun u _ => !(decide (keptUnit c 0 ≤ u) && decide (u < keptUnit c 64))) }
    (s.setCtx c { ringList := x.ringList }).say St.ok 0 (ringListBytes (x.ringList.getD []))

/-- R402: RETIRE_COMPLETE. -/
def execRetireComplete (ctx : Nat) (s : State) : Host.Outcome State Fault Refusal := .next (s.retireDone ctx)

end Machine
end Sys2Proof
end

