-- ==== Sys2Proof/Machine/Residency.lean ====
section
/-! DEFINITION. Residency over time (R196, R200, R202, R208, R209, R213-R219, R264, R386-R388, R424): promotions, residency bounds,
holds, demotions, tables, the rotation sweep and the failed-stack sweep. -/

namespace Sys2Proof
namespace Machine

/-! ### Instructions that wait -/

/-- The checks and the run of an instruction that may wait for pages, tables or frames, by its opcode. -/
def resumption : Nat → Option ((Job → State → Chk) × (Job → State → Out))
  | 0x10 => some (createChk, createBody)
  | 0x13 => some (hintChk, hintBody)
  | 0x14 => some (tablesChk, queryBody)
  | 0x20 => some (stageChk, stageBody)
  | 0x21 => some (tablesChk, sealBody)
  | 0x22 => some (fetchChk, fetchBody)
  | 0x30 => some (appendChk, appendBody)
  | 0x40 => some (matchChk, matchBody)
  | 0x41 => some (publishChk, publishBody)
  | 0x42 => some (forkChk, forkBody)
  | 0x43 => some (tablesChk, withdrawBody)
  | 0x50 => some (attDecodeChk, attDecodeBody)
  | 0x51 => some (attPrefillChk, attPrefillBody)
  | 0x52 => some (mergeChk, mergeBody)
  | 0x53 => some (attBwdChk, attBwdBody)
  | _ => none

/-- A waiting instruction is looked at again. -/
def State.rerun (s : State) (a : At) : State :=
  match s.rec? a with
  | none => s
  | some r =>
    let op := effOp r.inst r.step
    if op = 0x12 then goOn op a truncGo s
    else
      match resumption op with
      | some b => runHob op a b.1 b.2 s
      | none => s

/-- The pages (or tables) that a wait names. -/
def Wait.handles : Wait → List Nat
  | .pages hs => hs.map Prod.fst
  | .stage hs => hs.map Prod.fst
  | .tables k _ => [tableKey k]
  | _ => []

/-- R217: a waiting instruction's bound has passed for some pages, and it completes as its rule says. -/
def State.expire (s : State) (a : At) (hs : List Nat) : State :=
  (s.updRec a (fun r => { r with wait := some (.expired hs) })).rerun a

/-- The waiting instructions that name a page in their wait are treated by f, one after the other. -/
def State.eachWaiter (s : State) (h : Nat) (f : State → At → List Nat → State) : State :=
  s.allRecs.foldl (fun s r =>
    match s.rec? r.site with
    | none => s
    | some r =>
      match r.wait with
      | some w => if r.state == .issued && w.handles.contains h then f s r.site w.handles else s
      | none => s) s

/-- R209: every requester waiting on a page completes as if its residency bound had passed. -/
def State.expireWaiters (s : State) (h : Nat) : State :=
  ((s.drt.hostWaits.filter (fun w => w.handle == h)).foldl State.poisonLoad s).eachWaiter h State.expire

/-- R219: every requester waiting on a page that has gone meets that. -/
def State.loseWaiters (s : State) (h : Nat) : State :=
  ((s.drt.hostWaits.filter (fun w => w.handle == h)).foldl State.poisonLoad s).eachWaiter h (fun s a _ => s.rerun a)

/-! ### Issue of promotions (R213) -/

/-- R217: the residency bound in ns. -/
def State.boundOf (s : State) : Nat := 1000 * s.drt.boundUs

/-- R213, R442: the place of a request in the order of issue: class, then distance, an old staging request at distance 0; while a ring of
classes 0 to 3 is enabled, demand requests go in the order of their rings' classes. -/
def State.reqKey (s : State) (r : PromReq) : Nat × Nat :=
  (r.cls.rank, if r.cls == .demand && (s.strictOn .west || s.strictOn .east) then r.prio
    else if r.cls == .staging && decide (r.at_ + s.boundOf ≥ s.now.toNat) then r.dist else 0)

/-- R213: one request comes before another that arrived earlier. -/
def keyBefore (a b : Nat × Nat) : Bool := decide (a.1 < b.1) || (a.1 == b.1 && decide (a.2 < b.2))

/-- R395, R396: a chunk's promotion needs its object's key, without which it waits (log 51). -/
def State.mayRead (s : State) (h : Nat) : Bool :=
  match s.chunkObj (s.page h) with
  | some w => w.keyed
  | none => true

/-- R213: the next request to be issued on a die. -/
def State.nextReq (s : State) (d : Side) : Option PromReq :=
  let l := (s.drt.reqs.get d).filter (fun r => r.issuedAt.isNone && s.mayRead r.handle)
  match l with
  | [] => none
  | r :: rs => some (rs.foldl (fun b x => if keyBefore (s.reqKey x) (s.reqKey b) then x else b) r)

/-- A die's list of requests changed. -/
def State.setReqs (s : State) (d : Side) (l : List PromReq) : State := { s with drt := { s.drt with reqs := s.drt.reqs.set d l } }

/-- R209: a promotion that finds no frame is abandoned: the page stays COLD and its waiters complete as if the bound had passed; of a
sweep under R386 the page is dropped. -/
def State.abandonPromotion (s : State) (d : Side) (r : PromReq) : State :=
  let h := r.handle
  let s := s.setReqs d ((s.drt.reqs.get d).filter (fun x => x.handle != h))
  if r.sweep then ((s.dropPage h).count 0x03200118).loseWaiters h
  else (s.updPage h (fun q => { q with promotePending := false })).expireWaiters h

/-- R213: a request changed. -/
def State.updReq (s : State) (d : Side) (h : Nat) (f : PromReq → PromReq) : State :=
  s.setReqs d ((s.drt.reqs.get d).map (fun x => if x.handle == h then f x else x))

/-- R253: a demand promotion reaches the half. -/
def State.reach (s : State) (d : Side) (r : PromReq) : State :=
  if r.cls == .demand then s.setHalf d { s.coal.half.get d with reached := s.now.toNat } else s

/-- R199, R200, R209, R246: a page's promotion takes its frame, looks its record up and is issued; without a frame it waits, COLD, or is
abandoned. -/
def State.startPromotion (s : State) (d : Side) (r : PromReq) : State :=
  let h := r.handle
  let p := s.page h
  if p.res != .cold then s.setReqs d ((s.drt.reqs.get d).filter (fun x => x.handle != h))
  else
    match s.allocFrame d p.pref p.kib none [] with
    | .got f s =>
      let s := (s.updReq d h (fun x => { x with issuedAt := some s.now.toNat, allocWait := false })).updPage h
        (fun q => { q with res := .promoting, primary := some f })
      let s := s.newHalf d ((s.coal.half.get d).lookup h)
      (s.updReq d h (fun x => { x with locs := ((s.coal.half.get d).map.look h).toList })).reach d r
    | .waits => (s.updReq d h (fun x => { x with allocWait := true })).allocWaits d r.allocWait
    | .noSpace => s.abandonPromotion d r

/-- R245: the keys of the records that hold the tables of a sequence. -/
def State.tableKeys (s : State) (k : Nat) : List Nat :=
  match (s.seq k).tableRec with
  | some (n, c) => (List.range c).map (fun i => recordKey (seqHome k) (n + i))
  | none => []

/-- R202, R246, R255: the promotion of a sequence's tables is issued: their records are looked up. -/
def State.startTables (s : State) (d : Side) (r : PromReq) : State :=
  let keys := s.tableKeys (r.handle - 2 ^ 38)
  let s := s.newHalf d (keys.foldl Half.lookup (s.coal.half.get d))
  let es := keys.filterMap (s.coal.half.get d).map.look
  (s.updReq d r.handle (fun x => { x with issuedAt := some s.now.toNat, locs := es })).reach d r

/-- R213: PROMOTION_ISSUE: the next request goes to the Coal store, at most 1,024 at once, while it is READY. -/
def State.issuePromotion (s : State) (d : Side) : State :=
  let issued := ((s.drt.reqs.get d).filter (fun r => r.issuedAt.isSome)).length
  if !s.running || !s.coal.en || !s.coal.ready || 1024 ≤ issued then s
  else
    match s.nextReq d with
    | none => s
    | some r =>
      if r.handle < 2 ^ 38 then s.startPromotion d r
      else s.startTables d r

/-- R213: PROMOTION_ISSUE. -/
def execPromotionIssue (die : Side) (s : State) : Host.Outcome State Fault Refusal := .next (s.issuePromotion die)

/-! ### End of promotions (R219) -/

/-- R219: a promotion failed: the page is LOST; its waiters meet the loss. -/
def State.promotionLost (s : State) (h : Nat) : State :=
  (((s.losePage h true).count 0x03200120).countAo 0x03800128).loseWaiters h

/-- R213, R216, R456, R462: a promoted page is CLEAN (HOT with NO_DEMOTE, R206), counted, STAGED where staging asked for it. -/
def State.promoted (s : State) (h : Nat) (r : PromReq) : State :=
  let p := s.page h
  let d := pageDie h
  let s := s.setPage h { p with
    res := .clean, ref := false, promotePending := r.staging, residentAt := s.now.toNat
    staged := if r.staging then some (s.now.toNat + 1000 * s.drt.holdUs) else none }
  let s := s.setReqs d ((s.drt.reqs.get d).filter (fun x => x.handle != h))
  let s := s.openChunk h
  let s := if p.noDemote then (s.updPage h (fun q => { q with res := .hot })).releaseCopy h else s
  let s := (s.relist h).count 0x03200100
  let s := match r.cls with
    | .demand => s.ctxEvent p.ctx 5 0 noFilter p.layer noFilter 1
    | .staging => s.ctxEvent p.ctx 6 0 noFilter p.layer noFilter 1
    | .background => s
  let s := s.trace d { type := 7, cls := 5, ctx := some p.ctx, arg := h + 2 ^ 40 * (r.cls.rank + 1) }
  s.serveLoads h

/-- R70, R219 step 3: the CRC of a promoted frame is that of its header; a weight chunk has none. -/
def State.crcOk (s : State) (h : Nat) : Bool :=
  let p := s.page h
  p.chunk.isSome || s.field (viewBase h + 96) 4 == (s.frameCrc (s.profile p.pslot) h).toNat

/-- R384: the context's records are of the compatible mode, whose TAG is not checked. -/
def State.compatCtx (s : State) (c : Nat) : Bool := (s.ctx c).rights.getLsbD 5

/-- R219 step 2, R384, R393, R396: the record's tag verifies: as the media give it (authOk), and for a chunk of a KEYED object under the
chunk key; a record of the compatible mode is not checked. -/
def State.tagOk (s : State) (h : Nat) (authOk : Bool) : Bool :=
  let p := s.page h
  match s.chunkObj p, p.chunk with
  | some w, some (_, i) => authOk && (w.key.isNone || chunkOk w p.layer (s.chunkNo h) i)
  | _, _ => authOk || (p.chunk.isNone && s.compatCtx p.ctx)

/-- R219, R261: PROMOTION_COMPLETE of a page whose promotion was issued. -/
def State.promotePage (s : State) (h : Nat) (r : PromReq) (read : MediaRead) (authOk : Bool) : State :=
  let p := s.page h
  let d := pageDie h
  let drop (s : State) : State := s.setReqs d ((s.drt.reqs.get d).filter (fun x => x.handle != h))
  if p.res != .promoting then drop s
  else
    let hf := s.coal.half.get d
    let read := hf.readAll read r.locs
    if r.locs.isEmpty then (drop s).countLost.promotionLost h
    else
      let s := s.readRecords d r.locs read
      if read == .uncorrectable then (drop s).countLost.promotionLost h
      else if !(s.tagOk h authOk) || !(s.crcOk h) then (drop s).promotionLost h
      else s.promoted h r

/-- R202: the tables of a sequence are back: their records are released. -/
def State.tablesBack (s : State) (k : Nat) : State :=
  let q := s.seq k
  let d := seqHome k
  let keys := s.tableKeys k
  let s := s.setReqs d ((s.drt.reqs.get d).filter (fun x => x.handle != tableKey k))
  let s := keys.foldl (fun s i => s.coalRelease d i) s
  s.setSeq k { q with dirCold := false, tableRec := none, lastWalk := s.now.toNat }

/-- R202, R219: the tables of a sequence cannot be read: every page of it counts as lost (log 52). -/
def State.tablesLost (s : State) (k : Nat) : State :=
  let s := s.tablesBack k
  let hs := (s.seq k).layers.flatMap (fun y => (y.ptes.filter (fun e => e.2.v)).map (fun e => e.2.handle))
  let s := hs.foldl (fun s h => s.releaseRef h) s
  let gone (e : Pte) : Pte := if e.v then { e with v := false, lost := true } else e
  s.setSeq k { s.seq k with layers := (s.seq k).layers.map (fun y => { y with ptes := y.ptes.mapVals (fun _ e => gone e) }) }

/-- R202, R219, R255, R261: the tables' records have been read where the map named them at issue; a record that it did not name cannot
be. -/
def State.promoteTables (s : State) (k : Nat) (r : PromReq) (read : MediaRead) (authOk : Bool) : State :=
  let d := seqHome k
  let read := (s.coal.half.get d).readAll read r.locs
  let s' := s.readRecords d r.locs read
  if read == .uncorrectable || r.locs.length < (s.tableKeys k).length then s'.countLost.tablesLost k
  else if !authOk && !(s.compatCtx (s.seq k).ctx) then s'.tablesLost k
  else s'.tablesBack k

/-- R202, R219: PROMOTION_COMPLETE. -/
def State.promotionDone (s : State) (h : Nat) (read : MediaRead) (authOk : Bool) : State :=
  let k := h - 2 ^ 38
  let d := if h < 2 ^ 38 then pageDie h else seqHome k
  match (s.drt.reqs.get d).find? (fun r => r.handle == h && r.issuedAt.isSome) with
  | none => s
  | some r =>
    if !s.live || s.pkg.powerWarn then s
    else (if h < 2 ^ 38 then s.promotePage h r read authOk else s.promoteTables k r read authOk).settle d

/-- R219: PROMOTION_COMPLETE. -/
def execPromotionComplete (handle : Nat) (read : MediaRead) (authOk : Bool) (s : State) : Host.Outcome State Fault Refusal :=
  .next (s.promotionDone handle read authOk)

/-! ### Bounds and holds (R216, R217) -/

/-- R217: from when the bound of a PAGE.STAGE runs for a page: its request where the Coal store was not READY then, else its issue. -/
def State.stageSince (s : State) (x : Nat × Option Nat) : Option Nat :=
  match x.2 with
  | some t => some t
  | none => ((s.drt.reqs.get (pageDie x.1)).find? (fun r => r.handle == x.1)).bind (·.issuedAt)

/-- R217: the pages (or tables) of a wait that are not resident and whose bound has passed. -/
def State.duePages (s : State) (w : Wait) : List Nat :=
  let away (h : Nat) : Bool := !((s.page h).resident)
  let due (t : Nat) : Bool := decide (t + s.boundOf ≤ s.now.toNat)
  match w with
  | .pages hs => (hs.filter (fun x => away x.1 && due x.2)).map Prod.fst
  | .tables k t => if (s.seq k).dirCold && due t then [tableKey k] else []
  | .stage hs => (hs.filter (fun x => away x.1 && (match s.stageSince x with
    | some t => due t
    | none => false))).map Prod.fst
  | _ => []

/-- R217, R228: RESIDENCY_BOUND_EXPIRY: the requester completes; the promotion goes on. -/
def State.boundExpiry (s : State) (w : Waiter) (h : Nat) : State :=
  match w with
  | .instr a =>
    match s.rec? a with
    | none => s
    | some r =>
      match r.wait with
      | none => s
      | some w =>
        let hs := s.duePages w
        if r.state == .issued && hs.contains h then (s.count 0x03200138 hs.length).expire a w.handles else s
  | .load ld dpa =>
    match s.drt.hostWaits.find? (fun x => x.ld == ld && x.dpa == dpa && x.handle == h) with
    | some x => if x.since + s.boundOf ≤ s.now.toNat then (s.count 0x03200138).poisonLoad x else s
    | none => s

/-- R217: RESIDENCY_BOUND_EXPIRY. -/
def execResidencyBoundExpiry (waiter : Waiter) (handle : Nat) (s : State) : Host.Outcome State Fault Refusal :=
  .next (s.boundExpiry waiter handle)

/-- R216: STAGE_HOLD_EXPIRY: the hold of a page is over. -/
def execStageHoldExpiry (handle : Nat) (s : State) : Host.Outcome State Fault Refusal :=
  .next (
    match (s.page handle).staged with
    | some t => if t ≤ s.now.toNat && s.live then
        (s.updPage handle (fun p => { p with staged := none, promotePending := false })).relist handle else s
    | none => s)

/-! ### Background reclaim and demotions (R200, R208, R212, R264) -/

/-- R208: victims taken until more than HIGH_FREE is free. The first argument bounds them. -/
def State.reclaimPages : Nat → State → Side → State
  | 0, s, _ => s
  | n + 1, s, d =>
    if s.drt.highFree * s.dieSpace d < 256 * s.dieFree d then
      { s with drt := { s.drt with reclaiming := s.drt.reclaiming.set d false } }
    else
      match s.victim d [] (fun h => (s.page h).res == .clean || (s.demotable h && decide (s.demoting d < 64))) with
      | none => s
      | some (h, s) => State.reclaimPages n (if (s.page h).res == .clean then s.evict h else s.startDemote h) d

/-- R208: BACKGROUND_RECLAIM: begins below LOW_FREE and goes on to HIGH_FREE. -/
def State.background (s : State) (d : Side) : State :=
  if !s.running || !(s.low d || s.drt.reclaiming.get d) then s
  else ({ s with drt := { s.drt with reclaiming := s.drt.reclaiming.set d true } }).reclaimPages 64 d

/-- R208: BACKGROUND_RECLAIM. -/
def execBackgroundReclaim (die : Side) (s : State) : Host.Outcome State Fault Refusal := .next (s.background die)

/-- R196, R209, R228, R230: the allocation of a mirror or of a key sweep for page h waits, or no longer does; that of a mirror (`quiet`)
drops no page. -/
def State.sweepWait (s : State) (h : Nat) (waits : Bool) (quiet : Bool := false) : State :=
  let l := s.drt.sweepWaits.filter (· != h)
  if waits then
    let s := s.allocWaits (pageDie h) (s.drt.sweepWaits.contains h) [h] quiet
    { s with drt := { s.drt with sweepWaits := h :: l } }
  else { s with drt := { s.drt with sweepWaits := l } }

/-- R196: an open page that runs on one copy gets a mirror on another stack, without dropping any page; where a demotion is to make room
(R209 step 2), it is started. -/
def State.remirror (s : State) (h : Nat) : State :=
  let p := s.page h
  match p.life, p.mirror, p.primary with
  | .opened, none, some f =>
    match s.allocQuiet (pageDie h) ((f.stack + 5) % 10) p.kib (some f.stack) with
    | .got m s => (s.updPage h (fun q => { q with mirror := some m })).sweepWait h false
    | .waits => s.sweepWait h true true
    | .noSpace => s.sweepWait h false
  | _, _, _ => s.sweepWait h false

/-- R196: open pages of a die without a mirror. -/
def State.single (s : State) (d : Side) : List Nat :=
  (s.pages.filter (fun p => pageDie p.1 == d && p.2.life == .opened && p.2.mirror.isNone)).map (·.1)

/-- R209, R230: an allocation on a die waits: of an instruction, a promotion, a mailbox command, a mirror or a key sweep. -/
def State.allocPending (s : State) (d : Side) : Bool :=
  s.allRecs.any (fun r => r.state == .issued && (match r.wait with
    | some (.alloc d' _) => d' == d
    | _ => false)) || (s.drt.reqs.get d).any (·.allocWait)
    || s.drt.granWaits.any (fun w => w.die == d) || s.drt.loadWaits.any (fun w => w.alloc && objDie w.obj == d)
    || s.drt.sweepWaits.any (fun h => pageDie h == d && s.pages.has h)

/-- R230: URGENT of a die stays while an allocation waits. -/
def State.urgentCheck (s : State) (d : Side) : State := s.setUrgent d (s.drt.urgent.get d && s.allocPending d)

/-- R209: the mailbox commands that wait for a frame of a die are tried again, in the order of their arrival. -/
def State.retryCommands (s : State) (d : Side) : State :=
  let gs := s.drt.granWaits.filter (fun w => w.die == d)
  let ls := s.drt.loadWaits.filter (fun w => objDie w.obj == d)
  let s := { s with drt := { s.drt with
    granWaits := s.drt.granWaits.filter (fun w => w.die != d), loadWaits := s.drt.loadWaits.filter (fun w => objDie w.obj != d) } }
  let s := gs.foldl (fun s w =>
    s.silently w.dropped (fun s =>
      if (s.ctx w.ctx).state != .active then s.say St.busy
      else if s.granulesTaken w.first w.granules then s.say St.badOperand
      else s.grantSpace w)) s
  ls.foldl (fun s w =>
    s.silently w.dropped (fun s =>
      if !(s.wobj w.obj).live then s.say St.badHandle else if (s.wobj w.obj).ready then s.say St.busy else s.putLayer w)) s

/-- R120: the next sealed page of the persistent class that may enter DEMOTING. -/
def State.demotePersistent (s : State) (d : Side) : State :=
  if 64 ≤ s.demoting d then s
  else
    match s.pages.find? (fun p => pageDie p.1 == d && p.2.persistent && s.demotable p.1) with
    | some (h, _) => s.startDemote h
    | none => s

/-- R196: a frame has become free on a die with a failed stack: the mirrors that its open pages lack are tried again. -/
def State.mirrorTick (s : State) (d : Side) : State :=
  if s.drt.mirrorDue.get d && s.running then
    (s.single d).foldl State.remirror { s with drt := { s.drt with mirrorDue := s.drt.mirrorDue.set d false } }
  else s

/-- R85, R209: the mailbox commands that wait on a die are tried again when a frame that they wait for may have become free. -/
def State.commandTick (s : State) (d : Side) : State :=
  if s.running && s.demoting d = 0 && (s.drt.held.get d).isEmpty &&
      (s.drt.granWaits.any (fun w => w.die == d) || s.drt.loadWaits.any (fun w => objDie w.obj == d)) then s.retryCommands d
  else s

/-- R196, R209: what waits for a demotion of a die goes on. -/
def State.roomMade (s : State) (d : Side) : State :=
  (((s.single d).foldl State.remirror (s.retryCommands d)).demotePersistent d).urgentCheck d

/-- R222: a chunk has its Coal copy: its layer is loaded once all of its chunks have theirs. -/
def State.chunkLoaded (s : State) (h : Nat) : State :=
  let p := s.page h
  match p.chunk with
  | none => s
  | some (o, _) =>
    if (s.chunks o p.layer).all (fun x => (s.page x).coal) then
      s.setWobj o { s.wobj o with loaded := insNat (s.wobj o).loaded p.layer } else s

/-- R200, R206, R212: DEMOTION_COMPLETE: the record is written and mapped, or the Coal store has refused it. -/
def State.demoted (s : State) (h : Nat) : State :=
  let p := s.page h
  let d := pageDie h
  let hf := s.coal.half.get d
  if p.res != .demoting || !s.live || s.pkg.powerWarn then s
  else if hf.row.any (fun e => e.key == h && !e.gone) then s
  else
    match hf.map.look h with
    | some e =>
      let s := (s.setPage h { p with res := .clean, coal := true, coalEpoch := e.epoch }).count 0x03200108
      let s := if p.noDemote then (s.updPage h (fun q => { q with res := .hot })).releaseCopy h else s
      ((s.relist h).chunkLoaded h).roomMade d
    | none => ((s.updPage h (fun q => { q with res := .hot })).relist h).roomMade d

/-- R200: DEMOTION_COMPLETE. -/
def execDemotionComplete (handle : Nat) (s : State) : Host.Outcome State Fault Refusal := .next (s.demoted handle)

/-! ### Tables (R202) -/

/-- R202: handle entries that leave with the tables of a sequence: those of its COLD pages with one reference. -/
def State.awayHandles (s : State) (q : Seq) : Nat := (s.awayPages { q with dirCold := true }).length

/-- R202: the tables of a sequence may leave. -/
def State.tablesMayLeave (s : State) (k : Nat) : Bool :=
  let q := s.seq k
  s.drt.tableDemoteEn && decide (7 * tablePart < 8 * s.tablesUsed (seqHome k)) && q.state == .live && !q.dirCold && q.inflight == 0
    && decide (q.lastWalk + 1000000000 ≤ s.now.toNat)
    && (q.layers.flatMap (fun y => y.ptes.vals)).all (fun e => !e.v || (s.page e.handle).res == .cold || (s.page e.handle).res == .absent)

/-- R202, R241, R245, R253, R265: TABLE_DEMOTE: the tables of a sequence leave as one table record with the handle entries of its pages, 32 bytes
each, in chunks of 64 KiB; a write that does not fit sets FULL. -/
def State.demoteTables (s : State) (k : Nat) : State :=
  let q := s.seq k
  let d := seqHome k
  if !s.running || !(s.tablesMayLeave k) || !s.coal.en || !(s.coal.half.get d).ready || s.coal.readOnly || !(s.demotionsRun d) then s
  else
    let kib := s.tableKib q + ceilDiv (32 * s.awayHandles q) 1024
    let n := (s.coal.half.get d).newTable (tableChunks kib) false
    match s.coalWrite d (tableEnts d n kib (s.ctx q.ctx).present false q.ctx) with
    | (false, s) => s
    | (true, s) =>
      let s := (s.setSeq k { q with dirCold := true, tableRec := some (n, tableChunks kib) }).count 0x03300108 (tableChunks kib)
      let s := { s with coal := { s.coal with health := { s.coal.health with demoted := s.coal.health.demoted + 1024 * kib } } }
      s.setHalf d { s.coal.half.get d with reached := s.now.toNat }

/-- R202: TABLE_DEMOTE. -/
def execTableDemote (seq : Nat) (s : State) : Host.Outcome State Fault Refusal := .next (s.demoteTables seq)

/-! ### The rotation sweep (R386-R388) -/

/-- R386: a page of a context that still stands under its old epoch. -/
def Page.oldEpoch (p : Page) (c : Nat) (e : BitVec 2) : Bool :=
  p.ctx == c && !p.persistent && p.epoch == e && p.res != .absent

/-- R68, R386: EPOCH of a page and of its header. -/
def State.setEpoch (s : State) (h : Nat) (e : BitVec 2) : State :=
  let s := s.updPage h (fun q => { q with epoch := e })
  if (s.page h).chunk.isSome then s else s.pokeHdr h 24 1 e.toNat

/-- R386: the frame of a resident page rewritten: a new one replaces it, and a Coal copy is released. -/
def State.rewriteFrame (s : State) (h : Nat) (e : BitVec 2) : State :=
  let p := s.page h
  let d := pageDie h
  match s.allocFrame d p.pref p.kib none [h] with
  | .got f s =>
    let s := (((s.updPage h (fun q => { q with primary := some f })).yieldFrame h p.primary).setEpoch h e).sweepWait h false
    if p.res == .clean then ((s.updPage h (fun q => { q with res := .hot })).releaseCopy h).relist h else s
  | .waits => s.sweepWait h true
  | .noSpace => s.sweepWait h false

/-- R386: an open page has both of its frames rewritten. -/
def State.rewriteOpen (s : State) (h : Nat) (e : BitVec 2) : State :=
  let p := s.page h
  let d := pageDie h
  match s.allocFrame d p.pref p.kib none [h] with
  | .got f s1 =>
    match s1.allocQuiet d ((f.stack + 5) % 10) p.kib (some f.stack) with
    | .got m s2 =>
      ((((s2.updPage h (fun q => { q with primary := some f, mirror := some m })).yieldFrame h p.primary).yieldFrame h
        p.mirror).setEpoch h e).sweepWait h false
    | .waits => s.sweepWait h true true
    | .noSpace => s.sweepWait h false
  | .waits => s.sweepWait h true
  | .noSpace => s.sweepWait h false

/-- R264, R386: a COLD page under the old epoch while the Coal store takes no rewrite: it is promoted, by a request that drops it when it
finds no frame. -/
def State.sweepPromote (s : State) (h : Nat) : State :=
  (s.request h .background 0).updReq (pageDie h) h (fun r => { r with sweep := true })

/-- R386, R522: a record of a half is read and rewritten, while the Coal store serves and EN is set. -/
def State.rewriteRecord (s : State) (d : Side) (e : RowEnt) : Option State :=
  let h := s.coal.half.get d
  if !s.coal.en || !h.ready then none
  else
    let es := (h.map.look e.key).toList
    if h.readAll .hard es == .uncorrectable then none
    else (s.readRecords d es (h.readAll .hard es)).coalStore d true [e]

/-- R264, R386: one page under the old epoch is swept, as its state says; a rewrite in the Coal store waits while EN is clear (R522). -/
def State.sweepPage (s : State) (h : Nat) (e : BitVec 2) : State :=
  let p := s.page h
  let d := pageDie h
  if p.life == .opened then s.rewriteOpen h e
  else
    match p.res with
    | .hot => s.rewriteFrame h e
    | .clean => s.rewriteFrame h e
    | .cold =>
      if s.coal.readOnly then s.sweepPromote h
      else
        match s.rewriteRecord d { key := h, kib := p.kib, epoch := e, persist := false, ctx := p.ctx } with
        | some s => (s.setEpoch h e).updPage h (fun q => { q with coalEpoch := e })
        | none => s
    | _ => s

/-- R386: the next page of a context to sweep: one that is not in DEMOTING or PROMOTING, nor waits for its promotion. -/
def State.sweepNext (s : State) (c : Nat) (e : BitVec 2) : Option Nat :=
  (s.pages.find? (fun p => p.2.oldEpoch c e && p.2.res != .demoting && p.2.res != .promoting &&
    !(p.2.res == .cold && p.2.promotePending && s.coal.readOnly))).map (·.1)

/-- R388: a read of a frame of the context is in progress. -/
def State.reading (s : State) (c : Nat) : Bool := s.allRecs.any (fun r => r.uses.any (fun h => (s.page h).ctx == c))

/-- R386: the 64 KiB blocks of context space that stand under the old epoch. -/
def State.oldBlocks (s : State) (c : Nat) (e : BitVec 2) : List Nat :=
  (s.mem.granules.filter (fun g => g.2.1 == c)).flatMap (fun g =>
    ((List.range 32).map (· + 32 * g.1)).filter (fun b => s.mem.blkEpoch.lookD b 0 == e))

/-- R386: table records of a context under the old epoch, by half. -/
def State.oldRecords (s : State) (d : Side) (c : Nat) (e : BitVec 2) : List (Nat × MapEnt) :=
  (s.coal.half.get d).map.filter (fun p => 2 ^ 38 ≤ p.1 && p.2.ctx == c && !p.2.persist && p.2.epoch == e)

/-- R264, R386: a table record rewritten; while the Coal store takes no rewrite, the tables of its sequence are promoted, which releases
their records. -/
def State.sweepRecord (s : State) (d : Side) (p : Nat × MapEnt) (e : BitVec 2) : State :=
  if s.coal.readOnly then
    match s.seqs.find? (fun q => q.2.dirCold && (s.tableKeys q.1).contains p.1) with
    | some q => s.requestTables q.1
    | none => s
  else (s.rewriteRecord d { key := p.1, kib := p.2.kib, epoch := e, persist := false, ctx := p.2.ctx }).getD s

/-- R388: the old key set is destroyed: the epoch is free again. -/
def State.endRotation (s : State) (c : Nat) : State :=
  let x := s.ctx c
  (s.setCtx c { x with
    oldLive := false, sweeping := false, keySet := x.keySet.del x.old.toNat
    rotations := if x.rotations = 0xFFFFFFFF then x.rotations else x.rotations + 1 }).count 0x00100110

/-- R386-R388: KEY_SWEEP_STEP: one object is left under the new epoch; with none left the sweep ends. -/
def State.keySweep (s : State) (c : Nat) : State :=
  let x := s.ctx c
  if x.state != .active || !x.sweeping || !s.live || s.pkg.powerWarn then s
  else
    match s.sweepNext c x.old with
    | some h => s.sweepPage h x.present
    | none =>
      match s.oldBlocks c x.old with
      | b :: _ =>
        let s := s.rewriteBlock b
        { s with mem := { s.mem with
          blkEpoch := if x.present = 0 then s.mem.blkEpoch.del b else s.mem.blkEpoch.put b x.present } }
      | [] =>
        match s.oldRecords .west c x.old, s.oldRecords .east c x.old with
        | p :: _, _ => s.sweepRecord .west p x.present
        | [], p :: _ => s.sweepRecord .east p x.present
        | [], [] => if s.pages.vals.any (fun p => p.oldEpoch c x.old) || s.reading c then s else s.endRotation c

/-- R386: KEY_SWEEP_STEP. -/
def execKeySweepStep (ctx : Nat) (s : State) : Host.Outcome State Fault Refusal := .next (s.keySweep ctx)

/-! ### The failed-stack sweep (R196, R424) -/

/-- R424: pages of a die with a frame on a failed stack. -/
def State.hurt (s : State) (d : Side) : List Nat :=
  (s.pages.filter (fun p => pageDie p.1 == d && (s.frameGone d p.2.primary || s.frameGone d p.2.mirror))).map (·.1)

/-- R424: one page is treated by the sweep; a CLEAN page is promoted again at background priority. -/
def State.sweepHurt (s : State) (h : Nat) : State :=
  let s' := s.stackTreat h
  if (s'.page h).res == .cold then s'.request h .background 0 else s'

/-- R424: STACK_SWEEP_STEP. -/
def State.stackSweep (s : State) (d : Side) : State :=
  if !s.live || (s.drt.failed.get d).isEmpty || s.pkg.powerWarn then s
  else
    match s.hurt d with
    | h :: _ => s.sweepHurt h
    | [] => (s.single d).foldl State.remirror s

/-- R424: STACK_SWEEP_STEP. -/
def execStackSweepStep (die : Side) (s : State) : Host.Outcome State Fault Refusal := .next (s.stackSweep die)

end Machine
end Sys2Proof
end

