-- ==== Sys2Proof/Machine/Fault.lean ====
section
/-! DEFINITION. Faults of the recovery table and their recovery (R23, R273, R304, R421-R429), engine resets (R413), the
watchdog, and Flue ports that come and go (R437). -/

namespace Sys2Proof
namespace Machine

/-! ### Engines (R411, R413, R423, R425) -/

/-- R8, R411, R425: issued instructions that run on a die with an opcode from lo to hi run again: RESUMED. -/
def State.resumeOps (s : State) (d : Side) (lo hi : Nat) : State :=
  s.markResumed (fun r => (s.recDies r).contains d && decide (lo ≤ r.inst.opcode) && decide (r.inst.opcode ≤ hi))

/-- R150: a unit of attention work stands on a Firebox of a die. -/
def AttUnit.on (x : AttUnit) (d : Side) (u : Nat) : Bool := x.die == d && x.fbx == u

/-- R148, R183, R413, R425: the SRAM of a Firebox is wiped, and the instructions with units on it run them again whole: RESUMED. -/
def State.rerunUnits (s : State) (d : Side) (u : Nat) : State :=
  let e := s.eng.get d
  ({ s with eng := s.eng.set d { e with fbxHolds := e.fbxHolds.del u } }).markResumed (fun r => r.snap.units.any (fun x => x.on d u))

/-- R425: the units that a failed Firebox held go to another in service. -/
def State.moveUnits (s : State) (d : Side) (u : Nat) : State :=
  match (s.eng.get d).fireboxes with
  | [] => s
  | v :: _ =>
    let move (x : AttUnit) : AttUnit := if x.on d u then { x with fbx := v } else x
    s.mapRecs (fun r => { r with snap := { r.snap with units := r.snap.units.map move } })

/-- R166, R425: a failed Firebox is replaced by a spare, or leaves service. -/
def Engines.dropFirebox (e : Engines) (u : Nat) : Engines :=
  let l := e.fireboxes.filter (· != u)
  let e := { e with deadFireboxes := insNat e.deadFireboxes u }
  match e.spares with
  | x :: r => { e with fireboxes := insNat l x, spares := r }
  | [] => { e with fireboxes := l }

/-- R425: a Firebox fails. -/
def State.fireboxFails (s : State) (d : Side) (u : Nat) : State :=
  if !((s.eng.get d).fireboxes.contains u) then s
  else s.fault .firebox d u (fun s =>
    ((({ s with eng := s.eng.set d ((s.eng.get d).dropFirebox u) }).rerunUnits d u).moveUnits d u).recheck)

/-- R425: FIREBOX_FAULT. -/
def execFireboxFault (die : Side) (unit : Nat) (s : State) : Host.Outcome State Fault Refusal := .next (s.fireboxFails die unit)

/-- R423: the next Stoker in service counting upward from u, modulo 8. -/
def nextStoker (l : List Nat) (u : Nat) : Nat := (((List.range 8).map (fun i => (u + 1 + i) % 8)).find? l.contains).getD u

/-- R423: the rings of a failed Stoker rebind; their issue pauses for the window. -/
def State.rebind (s : State) (d : Side) (u : Nat) : State :=
  let e := s.eng.get d
  let l := e.stokers.filter (· != u)
  let s := { s with eng := s.eng.set d { e with stokers := l, deadStokers := insNat e.deadStokers u } }
  ({ s with rings := s.rings.mapVals (fun _ g =>
      if g.home == d && g.stoker == u && (g.en || g.draining) then { g with stoker := nextStoker l u, rebound := true } else g) }).recheck

/-- R423: STOKER_FAULT. -/
def execStokerFault (die : Side) (unit : Nat) (s : State) : Host.Outcome State Fault Refusal :=
  .next (if (s.eng.get die).stokers.contains unit then s.fault .stoker die unit (fun s => s.rebind die unit) else s)

/-- R413: ENGINE_RESET: the engine's SRAM is wiped, and its instructions resume; a second one of a Firebox within 1 s (R5) is its
failure (R425); what a check unit holds is journaled and stays (R363, R410); a Stoker runs
the CTL instructions of its rings. `u` counts the engines of that kind on the die (R7), the check units of the East die from 0
as well (log 127). -/
def State.engineReset (s : State) (d : Side) (k : EngineKind) (u : Nat) : State :=
  if !s.live || s.gbl.stopped then s
  else
    match k with
    | .firebox =>
      let e := s.eng.get d
      let again : Bool := match e.engineResets.look u with
        | some t => decide (s.now.toNat < t + 1000000000)
        | none => false
      if !(e.fireboxes.contains u) then s
      else if again then s.fireboxFails d u
      else ({ s with eng := s.eng.set d { e with engineResets := e.engineResets.put u s.now.toNat } }).rerunUnits d u
    | .stoker => s.markResumed (fun r =>
        (s.ring r.ring).home == d && (s.ring r.ring).stoker == u && decide (r.inst.opcode ≤ 0x06))
    | .walker => if u < 16 then s.resumeOps d 0x10 0x53 else s
    | .poolAlu => if u < 10 then s.resumeOps d 0x70 0x73 else s
    | .checkUnit => if u < 32 then s.resumeOps d 0x90 0x93 else s

/-- R413: ENGINE_RESET. -/
def execEngineReset (die : Side) (engine : EngineKind) (unit : Nat) (s : State) : Host.Outcome State Fault Refusal :=
  .next (s.engineReset die engine unit)

/-! ### Journal banks (R422) -/

/-- R422: a bank fails: acceptance pauses; a spare takes its place, or its slots leave the pool. -/
def State.bankFails (s : State) (d : Side) (b : Nat) : State :=
  let j := s.jrn
  let n := j.spares.get d
  let j := { j with rebuilding := j.rebuilding.set d true, failedBanks := j.failedBanks.set d (j.failedBanks.get d + 1) }
  { s with jrn := if n = 0 then { j with lostBanks := insNat j.lostBanks b } else { j with spares := j.spares.set d (n - 1) } }

/-- R422: JOURNAL_BANK_FAULT of one of the 32 banks in use. -/
def execJournalBankFault (die : Side) (bank : Nat) (s : State) : Host.Outcome State Fault Refusal :=
  .next (if bank < 32 && !(s.jrn.lostBanks.contains bank) then s.fault .journalBank die bank (fun s => s.bankFails die bank) else s)

/-! ### Stacks (R424) -/

/-- R424: granules of a die that lie on a stack. -/
def State.granulesOn (s : State) (d : Side) (st : Nat) : List Nat :=
  (s.mem.granules.filter (fun p => p.2.2.1 == d && p.2.2.2.stack == st)).map (·.1)

/-- R424, R445: a stack fails: the mask, the dead granules, CQ_LOST; open pages run on the copy that is left. -/
def State.stackFails (s : State) (d : Side) (st : Nat) : State :=
  let gs := s.granulesOn d st
  let s := { s with
    drt := { s.drt with failed := s.drt.failed.set d (insNat (s.drt.failed.get d) st) }
    mem := { s.mem with dead := gs.foldl insNat s.mem.dead }
    rings := s.rings.mapVals (fun _ g => if (g.en || g.draining) && g.cqOn gs then { g with cqLost := true } else g) }
  let os := (s.pages.filter (fun p => pageDie p.1 == d && p.2.life == .opened)).map (·.1)
  (os.foldl State.stackTreat s).recheck

/-- R23, R424: HBM_STACK_FAULT; the next stack fault of a die is fatal. -/
def execHbmStackFault (die : Side) (stack : Nat) (s : State) : Host.Outcome State Fault Refusal :=
  .next (
    if 10 ≤ stack || (s.drt.failed.get die).contains stack || !s.live then s
    else if !(s.drt.failed.get die).isEmpty then s.fatal die stack
    else s.fault .hbmStack die stack (fun s => s.stackFails die stack))

/-! ### Bridge, links and ports (R273, R304, R426, R437) -/

/-- R426: a lane fails: a spare replaces it, or the direction has one lane less. -/
def Engines.dropLane (e : Engines) : Engines :=
  if e.spareLanes = 0 then { e with lanes := e.lanes - 1 } else { e with spareLanes := e.spareLanes - 1 }

/-- R426: BRIDGE_LANE_FAULT in one direction (from the die named). -/
def execBridgeLaneFault (dir : Side) (lane : Nat) (s : State) : Host.Outcome State Fault Refusal :=
  .next (if lane < 520 then s.fault .bridgeLane dir lane (fun s => { s with eng := s.eng.set dir (s.eng.get dir).dropLane }) else s)

/-- R273, R421: CXL_LANE_FAIL: the port retrains to the widest working width, whatever the fault does. -/
def execCxlLaneFail (head : Side) (width lane : Nat) (s : State) : Host.Outcome State Fault Refusal :=
  .next (
    let h := s.cxp.head.get head
    if h.up && [4, 8, 16].contains width && width ≤ h.width then
      (s.setHead head { h with width := width, widest := Nat.min h.widest width }).fault .cxlLane head lane id
    else s)

/-- R437, R445: FLUE_PORT_UP; capacity that returns is counted again. -/
def execFluePortUp (port : Side) (phy : Nat) (s : State) : Host.Outcome State Fault Refusal :=
  .next (if s.live && !s.gbl.held then (s.portUp port phy).recheck else s)

/-- R304, R421, R445: FLUE_PORT_DOWN: a lane fault; the port goes down, whatever the fault does, and traffic moves to the other port. -/
def execFluePortDown (port : Side) (lane : Nat) (s : State) : Host.Outcome State Fault Refusal :=
  .next (if (s.flu.port.get port).up then ((s.portDown port).recheck).fault .flueLane port lane id else s)

/-! ### Windows (R23, R421, R444, R505) -/

/-- R23: SECOND_FAULT_STOP: a fault inside an open window. -/
def execSecondFaultStop (kind : FaultKind) (die : Side) (unit : Nat) (s : State) : Host.Outcome State Fault Refusal :=
  .next (if s.gbl.windows.isEmpty || s.gbl.stopped then s else s.fault kind die unit id)

/-- R421: what the end of a window of a kind still does on its die. -/
def State.recovered (s : State) (w : Window) : State :=
  match w.kind with
  | .journalBank => { s with jrn := { s.jrn with rebuilding := s.jrn.rebuilding.set w.die false } }
  | .stoker => { s with rings := s.rings.mapVals (fun _ g => if g.home == w.die then { g with rebound := false } else g) }
  | .hbmStack => (s.single w.die).foldl State.remirror s
  | _ => s

/-- R421, R444, R460, R505: RECOVERY_WINDOW_END: the window closes; a warm reset that waited starts. -/
def State.windowEnd (s : State) (kind : FaultKind) (d : Side) (u : Nat) : State :=
  match s.gbl.windows.find? (fun w => w.kind == kind && w.die == d && w.unit == u) with
  | none => s
  | some w =>
    if s.gbl.stopped then s
    else
      let s := { s with gbl := { s.gbl with windows := s.gbl.windows.filter (· != w) } }
      let s := s.recovered w
      let s := s.excludeAll w.opened
      let s := match heldClass kind with
        | some c => s.resumed d 3 w.opened (some c)
        | none => s
      if s.gbl.warmWaiting then s.startWarm else s

/-- R421: RECOVERY_WINDOW_END. -/
def execRecoveryWindowEnd (kind : FaultKind) (die : Side) (unit : Nat) (s : State) : Host.Outcome State Fault Refusal :=
  .next (s.windowEnd kind die unit)

/-- R15, R429: WATCHDOG_EXPIRY, no sooner than 100 ms after the Mantel controller last started: it restarts, and a mailbox command in
progress, one that waits for a frame, has no effect and is answered Retry Required. -/
def execWatchdogExpiry (s : State) : Host.Outcome State Fault Refusal :=
  .next (
    let early : Bool := match s.gbl.mantelAt with
      | some t => decide (s.now.toNat < t + 100000000)
      | none => false
    if !s.live || early then s
    else if s.drt.granWaits.isEmpty && s.drt.loadWaits.isEmpty then s.mantelRestart
    else s.mantelRestart.no .retryRequired)

end Machine
end Sys2Proof
end

