-- ==== Sys2Proof/Machine/Tel.lean ====
section
/-! DEFINITION. Telemetry (R449-R474): taps, trace control, TEL_CTL, and the telemetry commands. -/

namespace Sys2Proof
namespace Machine

/-- A die's tap of an engine class. -/
def State.tap (s : State) (d : Side) (c : Nat) : Tap := (s.tel.taps.get d).lookD c {}

/-- A tap replaced. -/
def State.setTap (s : State) (d : Side) (c : Nat) (t : Tap) : State :=
  { s with tel := { s.tel with taps := s.tel.taps.set d ((s.tel.taps.get d).put c t) } }

/-- R460: the engines of a class on a die are paused: power warning, temperature, a recovery window that holds them, a warm reset or a
stop; the clocked ones are not throttled by temperature (R491). -/
def State.dieHalted (s : State) (d : Side) (cls : Nat) : Bool :=
  s.gbl.windows.any (fun w => w.die == d && heldClass w.kind == some cls) || s.pkg.powerWarn || s.gbl.powerHold || (decide (cls < 10) && (s.pkg.thermalPause.get d).isSome) || s.gbl.warming || s.gbl.held || s.gbl.stopped

/-- R451: the reason that a stalled beat takes: the lowest of those that hold. -/
def lowestReason (l : List Nat) : Nat := l.foldl Nat.min (l.headD 0)

/-- R449, R451: n beats (or ns) of one kind counted by a tap, or n ns of pause. -/
def Tap.add (t : Tap) (halted : Bool) (b : Beat) (n : Nat) : Tap :=
  let k : BitVec 64 := BitVec.ofNat 64 n
  if halted then { t with paused := t.paused + k }
  else
    match b with
    | .busy => { t with busy := t.busy + k }
    | .stalled l => { t with stall := t.stall + k, reasons := t.reasons.upd (lowestReason l) 0 (· + k) }
    | .idle => { t with idle := t.idle + k }

/-- R450, R451: the class and the reason are of the tables. -/
def beatOk (cls : Nat) (b : Beat) : Bool :=
  1 ≤ cls && cls ≤ 11 && (match b with
    | .stalled l => !l.isEmpty && l.all (fun r => 1 ≤ r && r ≤ 24)
    | _ => true)

/-- R455, R456: the beats spent on a context's work. -/
def State.beatEvents (s : State) (cls : Nat) (b : Beat) (n c : Nat) : State :=
  let ev (s : State) (e : Nat) : State := s.ctxEvent c e cls noFilter noFilter noFilter n
  if 4096 ≤ c then s
  else
    match b with
    | .busy => ev s 2
    | .stalled l => ev (ev s 3) (0x40 + lowestReason l)
    | .idle => s

/-- R449: ns that n beats (or ns) of a class on a die last: at the die's present rate, where it has been measured. -/
def State.beatNs (s : State) (d : Side) (cls n : Nat) : Nat :=
  if 10 ≤ cls then n else n * 1000 / Nat.max 1 (s.tel.beat.get d).rate.toNat

/-- R462: a stall of 1 µs or more that ends: a STALL record; which engine of the class it was is open (log 133). -/
def State.stallEnds (s : State) (d : Side) (cls : Nat) (b : Beat) (n c : Nat) : State :=
  let ns := s.beatNs d cls n
  match b with
  | .stalled l =>
    if ns < 1000 || (cls < 10 && (s.tel.beat.get d).rate = 0) then s
    else
      let (u, s) := s.free
      s.trace d { type := 6, cls := cls, unit := u.toNat % 65536, ctx := if c < 4096 then some c else none
                  arg := lowestReason l + 2 ^ 32 * Nat.min ns 0xFFFFFFFF }
  | _ => s

/-- R14, R449, R452: TAP_SNAPSHOT: the taps count from reset release on. -/
def execTapSnapshot (die : Side) (cls : Nat) (beat : Beat) (n ctx : Nat) (s : State) : Host.Outcome State Fault Refusal :=
  .next (if !(beatOk cls beat) || !s.pkg.powered || !s.pkg.resetHigh then s
    else
      let halted := s.dieHalted die cls
      let s := s.setTap die cls ((s.tap die cls).add halted beat n)
      if halted then s else (s.beatEvents cls beat n ctx).stallEnds die cls beat n ctx)

/-- R452, R470: TEL_UTIL_BUSY_READ: BUSY is returned; STALL, IDLE and PAUSED_NS are latched with it. -/
def execTelUtilBusyRead (ld : Ld) (die : Side) (cls : Nat) (s : State) : Host.Outcome State Fault Refusal :=
  .next (if cls < 1 || 11 < cls || !s.reachable || 16 ≤ ld.id then s
    else
      let t := s.tap die cls
      (s.setTap die cls { t with latStall := t.stall, latIdle := t.idle, latPaused := t.paused }).ok (leBytes 8 t.busy.toNat))

/-! ### TEL_CTL (R471) -/

/-- R469: a counter is always-on. -/
def alwaysOn (off : Nat) : Bool := 0x03800100 ≤ off && off < 0x03800138

/-- R471: CLEAR: every privileged counter is zero. -/
def State.clearPriv (s : State) : State :=
  { s with
    tel := { s.tel with cnt := s.tel.cnt.keep (fun k _ => alwaysOn k) }
    rings := s.rings.mapVals (fun _ g => { g with late := 0, measured := 0 }) }

/-- R471: CLEAR_AO: the always-on counts are zero, the beat minimum begins again. -/
def State.clearAo (s : State) : State :=
  let back (t : Tap) : Tap := { latStall := t.latStall, latIdle := t.latIdle, latPaused := t.latPaused }
  { s with tel := { s.tel with
    cnt := s.tel.cnt.keep (fun k _ => !(alwaysOn k))
    taps := s.tel.taps.map (fun l => l.mapVals (fun _ t => back t))
    beat := s.tel.beat.map (fun b => { b with rateMin := 0xFFFF }) } }

/-- R471: a write to TEL_CTL. -/
def State.telCtl (s : State) (ld : Ld) (value : BitVec 64) : State :=
  if !(s.regWritable ld) then s
  else
    let s := { s with tel := { s.tel with globalEn := value.getLsbD 0 } }
    let s := if value.getLsbD 1 then s.clearPriv else s
    if value.getLsbD 2 && s.manager ld then s.clearAo else s

/-- R471: TEL_CLEAR. -/
def execTelClear (ld : Ld) (value : BitVec 64) (s : State) : Host.Outcome State Fault Refusal :=
  .next (if value.getLsbD 1 then s.telCtl ld value else s)

/-- R471: TEL_CLEAR_AO. -/
def execTelClearAo (ld : Ld) (value : BitVec 64) (s : State) : Host.Outcome State Fault Refusal :=
  .next (if value.getLsbD 2 then s.telCtl ld value else s)

/-! ### TEL_TRACE_CTL (R463, R466, R467, R473) -/

/-- R466, R467: a write to TEL_TRACE_CTL is refused. -/
def State.traceRefused (s : State) (value : BitVec 64) : Bool :=
  (value.getLsbD 3 && !s.booked.isEmpty)
    || ((value.getLsbD 34 || value.getLsbD 35) && (s.admitTest { s.admitEnv with traced := true } s.booked none).isSome)
    || (value.getLsbD 4 && s.sec.confidential)

/-- R463: a die's EN goes to 1: the trace starts with a START record; or it stops or runs on. -/
def State.traceEn (s : State) (d : Side) (on : Bool) : State :=
  let t := s.tel.trace.get d
  if on && !t.en then
    let s := { s with tel := { s.tel with trace := s.tel.trace.set d { en := true } } }
    s.trace d { type := 1, arg := s.tel.partId.toNat + 65536 * d.num }
  else { s with tel := { s.tel with trace := s.tel.trace.set d { t with en := on } } }

/-- R463, R473: a write to TEL_TRACE_CTL. -/
def State.traceCtl (s : State) (ld : Ld) (value : BitVec 64) : State :=
  if !(s.regWritable ld) then s
  else if s.traceRefused value then { s with tel := { s.tel with refused := true } }
  else
    let v := value.toNat
    let s := { s with tel := { s.tel with
      wrap := bitOf v 2, lossless := bitOf v 3, allCtx := bitOf v 4, ctx := BitVec.ofNat 12 (bits v 16 12)
      types := BitVec.ofNat 32 (bits v 32 32) } }
    (s.traceEn .west (bitOf v 0)).traceEn .east (bitOf v 1)

/-- R463: TEL_TRACE_CTL_WRITE. -/
def execTelTraceCtlWrite (ld : Ld) (value : BitVec 64) (s : State) : Host.Outcome State Fault Refusal :=
  .next (s.traceCtl ld value)

/-! ### Telemetry commands (R474) -/

/-- R467: a trace or counter command of an LD about a context is served. -/
def State.mayWatch (s : State) (ld : Ld) (c : Nat) : Bool := s.bound ld c || (!s.sec.confidential && s.manager ld)

/-- R474: Read Trace; a slot not written since the trace started reads zero. -/
def execReadTrace (ld : Ld) (die first count : Nat) (s : State) : Host.Outcome State Fault Refusal :=
  .next (s.vendor ld (fun s =>
    if 1 < die || count = 0 || 32768 < count || traceSlots < first + count then s.say St.badOperand
    else if !(s.mayWatch ld s.tel.ctx.toNat) then s.say St.access
    else
      let t := s.tel.trace.get (sideOf die)
      s.say St.ok 0 ((List.range count).flatMap (fun i => leBytes 32 (t.recs.lookD (first + i) 0).toNat))) true)

/-- R457, R474: the 32 bytes of a counter at a time. -/
def Counter.bytes (k : Counter) (now : Nat) : List Byte :=
  leBytes 8 (k.past now).toNat ++ leBytes 8 k.interval.toNat ++ leBytes 8 k.selector.toNat ++ leBytes 1 (b2n k.running) ++ leBytes 7 0

/-- R453, R454, R469: TEL_RING_LATE of a ring. -/
def State.ringLate (s : State) (g : Ring) : List Byte :=
  if s.sec.confidential then leBytes 8 0 else leBytes 4 g.late.toNat ++ leBytes 4 g.measured.toNat

/-- R474: Read Context Counters. -/
def State.readCounters (s : State) (ld : Ld) (c first count : Nat) : State :=
  if 4096 ≤ c || (s.ctx c).state != .active then s.say St.badOperand
  else if !(s.mayWatch ld c) then s.say St.access
  else if first = 0 && count = 0 then
    s.say St.ok 0 ((s.rings.filter (fun p => p.2.ctx.toNat == c)).flatMap (fun p => s.ringLate p.2))
  else if count = 0 || 256 < first + count then s.say St.badOperand
  else s.say St.ok 0 ((List.range count).flatMap (fun i => ((s.ctx c).counters.lookD (first + i) {}).bytes s.now.toNat))

/-- R474: Read Context Counters. -/
def execReadContextCounters (ld : Ld) (ctx first count : Nat) (s : State) : Host.Outcome State Fault Refusal :=
  .next (s.vendor ld (fun s => s.readCounters ld ctx first count) true)

/-- R474: Read Stall Histogram: MANAGER LDs only, not in confidential mode. -/
def execReadStallHistogram (ld : Ld) (die cls : Nat) (s : State) : Host.Outcome State Fault Refusal :=
  .next (s.vendor ld (fun s =>
    if s.sec.confidential then s.say St.access
    else if 1 < die || cls < 1 || 11 < cls then s.say St.badOperand
    else
      let t := s.tap (sideOf die) cls
      s.say St.ok 0 ((List.range 24).flatMap (fun r => leBytes 8 (t.reasons.lookD (r + 1) 0).toNat))))

end Machine
end Sys2Proof
end

