-- ==== Sys2Proof/Machine/Reg.lean ====
section
/-! DEFINITION. REGISTER_WRITE: one write to a BAR0 register (R497-R503), by block. A register whose fields have a
command of their own is written by the same operation as that command. -/

namespace Sys2Proof
namespace Machine

/-- The state that a meaning answers, `s` where it answers none. -/
def stateAfter (s : State) (o : Host.Outcome State Fault Refusal) : State :=
  match o with
  | .next t => t
  | _ => s

/-- R499: a word with the bits of `v` that are set in `mask`. -/
def masked (v mask : BitVec 64) : BitVec 64 := v &&& mask

/-- The 64-bit part number `i` of a wider register replaced. -/
def setPart {w : Nat} (x : BitVec w) (i : Nat) (v : BitVec 64) : BitVec w :=
  (x &&& ~~~(((0xFFFF_FFFF_FFFF_FFFF : BitVec 64).setWidth w) <<< (64 * i))) ||| ((v.setWidth w) <<< (64 * i))

/-! ### GBL -/

/-- R432, R504: the GBL registers that are written, also before FW_READY. -/
def State.writeGbl (s : State) (ld : Ld) (off : Nat) (v : BitVec 64) : State :=
  if off = 0x08 then s.gblCtl ld v
  else if off = 0x18 then stateAfter s (execGblFaultClear ld v s)
  else if off = 0x20 && !s.gbl.held && s.manager ld then { s with gbl := { s.gbl with faultVec := v.setWidth 11 } }
  else s

/-! ### RING -/

/-- R511: the ring neither accepts nor drains. -/
def Ring.idle (g : Ring) : Bool := !(g.en || g.draining)

/-- R509: the 32-bit registers of a ring window. -/
def State.writeRing32 (s : State) (ld : Ld) (n off : Nat) (v : BitVec 32) : State :=
  let g := s.ring n
  if !(s.ringWritable ld n) then s
  else if off = 0x00 then s.writeRingEn ld n v
  else if off = 0x04 then (if g.idle && s.manager ld then s.setRing n { g with ctx := v.setWidth 12 } else s)
  else if off = 0x18 then (if g.idle then s.setRing n { g with size := v.setWidth 17 } else s)
  else if off = 0x1C then (if g.idle then s.setRing n { g with cqSize := v.setWidth 17 } else s)
  else if off = 0x20 then (if g.idle && g.booking.isNone then s.setRing n { g with cls := v.setWidth 6 } else s)
  else if off = 0x24 then s.setRing n { g with
    dbErr := g.dbErr && !(v.getLsbD 4), irqUnbound := g.irqUnbound && !(v.getLsbD 8) }
  else if off = 0x3C then s.setRing n { g with msix := v.setWidth 16 }
  else s

/-- R509: the 64-bit registers of a ring window. -/
def State.writeRing64 (s : State) (ld : Ld) (n off : Nat) (v : BitVec 64) : State :=
  let g := s.ring n
  if off = 0x08 then (if s.ringWritable ld n && g.idle then s.setRing n { g with base := v } else s)
  else if off = 0x10 then s.moveCqBase ld n v
  else s

/-! ### DOM -/

/-- R132: DOM_BANK_CFG of a classifier bank: EN, and WIDTH while EN is 0; the reserved width changes nothing. -/
def State.writeBankCfg (s : State) (b : Nat) (v : BitVec 64) : State :=
  if bankGroup b != .classifier then s
  else
    let w := bits v.toNat 0 2
    let width := if s.dom.bankEn.lookD b false || w = 3 then s.dom.width else s.dom.width.put b w
    { s with dom := { s.dom with width := width, bankEn := s.dom.bankEn.put b (v.getLsbD 2) } }

/-- R133: DOM_ACC_CMD by its OP; a reserved OP is refused while BUSY, as every write is, and otherwise does nothing (log 119). -/
def State.writeDomAcc (s : State) (ld : Ld) (v : BitVec 64) : State :=
  match bits v.toNat 0 3 with
  | 0 => stateAfter s (execDomLookup ld v s)
  | 1 => stateAfter s (execDomRead ld v s)
  | 2 => stateAfter s (execDomInsertAny ld v s)
  | 3 => stateAfter s (execDomInsertAt ld v s)
  | 4 => stateAfter s (execDomDelete ld v s)
  | op => s.domAcc ld op v (fun _ s => s)

/-- R129-R134: the DOM registers that are written. -/
def State.writeDom (s : State) (ld : Ld) (off : Nat) (v : BitVec 64) : State :=
  let d := s.dom
  if off = 0x000 then { s with dom := { d with
    dirEn := v.getLsbD 0, sweepEn := v.getLsbD 1, promoteHits := BitVec.ofNat 4 (bits v.toNat 8 4) } }
  else if off = 0x008 then { s with dom := { d with
    bucketFull := ⟨d.bucketFull.w && !(v.getLsbD 1), d.bucketFull.e && !(v.getLsbD 2)⟩ } }
  else if 0x100 ≤ off && off < 0x200 then s.writeBankCfg ((off - 0x100) / 8) v
  else if off = 0x200 then s.writeDomAcc ld v
  else if off = 0x208 then { s with dom := { d with accStatus := d.accStatus &&& ~~~(masked v 2) } }
  else if 0x210 ≤ off && off < 0x230 then { s with dom := { d with accKey := setPart d.accKey ((off - 0x210) / 8) v } }
  else if 0x230 ≤ off && off < 0x250 then { s with dom := { d with accMask := setPart d.accMask ((off - 0x230) / 8) v } }
  else if off = 0x250 then { s with dom := { d with accResult := v } }
  else s

/-! ### DRT -/

/-- R228-R231: the DRT registers that are written; a write that breaks a range or a relation is ignored. -/
def State.writeDrt (s : State) (off : Nat) (v : BitVec 64) : State :=
  let d := s.drt
  let n := v.toNat
  if off = 0x00 then { s with drt := { d with
    demoteEn := bitOf n 0, stageEn := bitOf n 1, compactEn := bitOf n 2, tableDemoteEn := bitOf n 3
    stageDepth := BitVec.ofNat 4 (bits n 8 4), pinLimit := BitVec.ofNat 8 (bits n 16 8) } }
  else if off = 0x08 then { s with drt := { d with
    pinOver := ⟨d.pinOver.w && !(bitOf n 1), d.pinOver.e && !(bitOf n 2)⟩ } }
  else if off = 0x10 then
    (let b := bits n 0 20
     if 20 ≤ b && b ≤ 1000000 then { s with drt := { d with boundUs := b } } else s)
  else if off = 0x18 then
    (let lo := bits n 0 8
     let hi := bits n 8 8
     if lo < hi then { s with drt := { d with lowFree := lo, highFree := hi } } else s)
  else if off = 0x20 then { s with drt := { d with holdUs := bits n 0 24 } }
  else s

/-! ### COAL -/

/-- R270: the ranges and relations of COAL_GC. -/
def coalGcOk (n : Nat) : Bool :=
  let t1 := bits n 0 10
  let t2 := bits n 10 10
  let t3 := bits n 20 10
  decide (t2 < t1) && decide (t3 < t2) && decide (5 ≤ t3) && decide (t1 ≤ bits n 30 10) && decide (1 ≤ bits n 40 8)

/-- R270: the ranges of COAL_WEAR. -/
def coalWearOk (n : Nat) : Bool :=
  decide (1 ≤ bits n 0 16) && decide (50 ≤ bits n 16 16) && decide (10 ≤ bits n 32 16) && decide (1 ≤ bits n 48 8)

/-- R267-R270: the COAL registers that are written. -/
def State.writeCoal (s : State) (ld : Ld) (off : Nat) (v : BitVec 64) : State :=
  let c := s.coal
  let n := v.toNat
  if off = 0x00 then s.coalCtl ld v
  else if off = 0x08 then { s with coal := { c with formatErr := c.formatErr && !(bitOf n 10) } }
  else if off = 0x10 then s.chEnWrite ld v
  else if off = 0x40 then
    (if coalGcOk n then { s with coal := { c with gc := masked v 0x0000_FFFF_FFFF_FFFF } } else s)
  else if off = 0x48 then
    (if coalWearOk n then { s with coal := { c with wear := masked v 0x00FF_FFFF_FFFF_FFFF, ratedSet := true } } else s)
  else if off = 0x50 then
    (let m := bits n 0 16
     if 100 ≤ m && m ≤ 60000 then { s with coal := { c with ckptMs := m } } else s)
  else if off = 0x58 then
    (let t := bits n 0 8
     if 40 ≤ t && t ≤ 100 then { s with coal := { c with tlimit := t, sensors := BitVec.ofNat 8 (bits n 8 8) } } else s)
  else s

/-! ### CXP -/

/-- R299-R302: the CXP registers that are written. -/
def State.writeCxp (s : State) (ld : Ld) (off : Nat) (v : BitVec 64) : State :=
  let c := s.cxp
  let n := v.toNat
  if off = 0x00 then s.cxpCtl ld v
  else if off = 0x08 then { s with cxp := { c with
    head := ⟨{ c.head.w with biTimeout := c.head.w.biTimeout && !(bitOf n 2) },
             { c.head.e with biTimeout := c.head.e.biTimeout && !(bitOf n 3) }⟩
    lateBirsp := c.lateBirsp && !(bitOf n 4) } }
  else if off = 0x20 then
    (let t := bits n 0 24
     if 100 ≤ t && t ≤ 1000000 then { s with cxp := { c with biTimeoutUs := t } } else s)
  else s

/-! ### FLU -/

/-- R337: FLU_CONN_CMD by its OP; a reserved OP does nothing. -/
def State.writeConnCmd (s : State) (ld : Ld) (v : BitVec 64) : State :=
  match bits v.toNat 16 3 with
  | 0 => stateAfter s (execFluConnRead ld v s)
  | 1 => stateAfter s (execFluConnWrite ld v s)
  | 2 => stateAfter s (execFluConnOpen ld v s)
  | 3 => stateAfter s (execFluConnClose ld v s)
  | _ => s

/-- R333: one half of the IPv6 address. -/
def State.setIp6 (s : State) (hi : Bool) (v : BitVec 64) : State :=
  { s with flu := { s.flu with ip6 := setPart s.flu.ip6 (b2n hi) v } }

/-- R333-R337: the FLU registers that are written. -/
def State.writeFlu (s : State) (ld : Ld) (off : Nat) (v : BitVec 64) : State :=
  let f := s.flu
  let n := v.toNat
  let low : BitVec 48 := v.setWidth 48
  if off = 0x00 then stateAfter s (execFluCtlWrite ld v s)
  else if off = 0x08 then
    (let t := bits n 0 20
     let c := bits n 20 4
     let a := bits n 24 4
     if 200 ≤ t && t ≤ 1000000 && 1 ≤ c && 1 ≤ a then
       { s with flu := { f with msgTimeoutUs := t, closeAfter := c, ackDelayUs := a } }
     else s)
  else if off = 0x20 then { s with flu := { f with encap := masked v 0x0000_FFFF_FFFF_FFFF } }
  else if off = 0x28 then s.setPort .west { f.port.w with mac := low }
  else if off = 0x30 then s.setPort .east { f.port.e with mac := low }
  else if off = 0x38 then s.setPort .west { f.port.w with gw := low }
  else if off = 0x40 then s.setPort .east { f.port.e with gw := low }
  else if off = 0x48 then { s with flu := { f with ip4 := v.setWidth 32 } }
  else if off = 0x50 then s.setIp6 false v
  else if off = 0x58 then s.setIp6 true v
  else if off = 0x60 then ({ s with flu := { f with pfcEn := v.setWidth 8, wpcp := BitVec.ofNat 3 (bits n 8 3) } } : State).pfcBoth
  else if off = 0x80 then s.writeConnCmd ld v
  else if off = 0x88 then { s with flu := { f with connStatus := f.connStatus &&& ~~~(masked v 2) } }
  else if 0x100 ≤ off && off < 0x140 then { s with flu := { f with connData := setPart f.connData ((off - 0x100) / 8) v } }
  else s

/-! ### DMP -/

/-- R355: DMP_POL_CMD by its OP; the reserved OP does nothing. -/
def State.writePolCmd (s : State) (ld : Ld) (v : BitVec 64) : State :=
  match bits v.toNat 16 2 with
  | 0 => stateAfter s (execDmpPolRead ld v s)
  | 1 => stateAfter s (execDmpPolWrite ld v s)
  | 2 => stateAfter s (execDmpPolRefill ld v s)
  | _ => s

/-- R356: DMP_GATE_CMD by its OP; a reserved OP does nothing. -/
def State.writeGateCmd (s : State) (ld : Ld) (v : BitVec 64) : State :=
  match bits v.toNat 1 3 with
  | 0 => stateAfter s (execDmpGateWriteEntry ld v s)
  | 1 => stateAfter s (execDmpGateReadEntry ld v s)
  | 2 => stateAfter s (execDmpGateCommit ld v s)
  | 3 => stateAfter s (execDmpGateDisable ld v s)
  | _ => s

/-- R355: a size register keeps its token count, which is read-only. -/
def sizeWrite (old v : BitVec 64) : BitVec 64 := masked old 0x01FF_FFFF_0000_0000 ||| masked v 0x01FF_FFFF

/-- R353-R356: the DMP registers that are written. -/
def State.writeDmp (s : State) (ld : Ld) (off : Nat) (v : BitVec 64) : State :=
  let d := s.dmp
  let n := v.toNat
  if off = 0x000 then
    (let f := bits n 16 10
     { s with dmp := { d with
       ingressEn := bitOf n 0, clsInEn := bitOf n 1, clsEgEn := bitOf n 2, overhead := bits n 8 6
       ftdKib := if 16 ≤ f then f else d.ftdKib } })
  else if off = 0x040 then s.writePolCmd ld v
  else if off = 0x048 then { s with dmp := { d with polStatus := d.polStatus &&& ~~~(masked v 2) } }
  else if off = 0x050 then { s with dmp := { d with cir := masked v 0x8000_0000_001F_FFFF } }
  else if off = 0x058 then { s with dmp := { d with pir := masked v 0x001F_FFFF } }
  else if off = 0x060 then { s with dmp := { d with cbs := sizeWrite d.cbs v } }
  else if off = 0x068 then { s with dmp := { d with pbs := sizeWrite d.pbs v } }
  else if off = 0x080 then s.writeGateCmd ld v
  else if off = 0x088 then { s with dmp := { d with gateStatus := d.gateStatus &&& ~~~(masked v 2) } }
  else if off = 0x090 then { s with dmp := { d with gateBase := v } }
  else if off = 0x098 then { s with dmp := { d with gateMask := v } }
  else if off = 0x0A0 then { s with dmp := { d with gateDur := v.setWidth 32 } }
  else if off = 0x0A8 then { s with dmp := { d with gateOpen := v } }
  else if 0x100 ≤ off && off < 0x300 then
    (let m := bits n 0 13
     if 64 ≤ m && m ≤ 4329 then { s with dmp := { d with maxFrame := d.maxFrame.put ((off - 0x100) / 8) m } } else s)
  else s

/-! ### TEL -/

/-- R469-R473: the TEL registers that are written. -/
def State.writeTel (s : State) (ld : Ld) (off : Nat) (v : BitVec 64) : State :=
  if off = 0x00 then s.telCtl ld v
  else if off = 0x08 then { s with tel := { s.tel with refused := s.tel.refused && !(v.getLsbD 5) } }
  else if off = 0x10 then { s with tel := { s.tel with partId := v.setWidth 16 } }
  else if off = 0x40 then s.traceCtl ld v
  else s

/-! ### The write -/

/-- R497: the blocks of 64-bit registers past the RING windows; SEC, CTX and CHK hold nothing that is written. -/
def State.writeBlock (s : State) (ld : Ld) (off : Nat) (v : BitVec 64) : State :=
  let r := off % 0x100000
  match off / 0x100000 with
  | 0x30 => if r = 0 then { s with fbxCtl := masked v 0x000F_3F03 } else s
  | 0x31 => s.writeDom ld r v
  | 0x32 => s.writeDrt r v
  | 0x33 => s.writeCoal ld r v
  | 0x34 => s.writeCxp ld r v
  | 0x35 => s.writeFlu ld r v
  | 0x36 => s.writeDmp ld r v
  | 0x38 => s.writeTel ld r v
  | _ => s

/-- R497-R503: one write of `width` bytes at an offset of BAR0: it is applied only when it covers a whole register. -/
def State.regWrite (s : State) (ld : Ld) (off width : Nat) (v : BitVec 64) : State :=
  if width = 0 || off % width ≠ 0 then s
  else if 0x1000000 ≤ off && off < 0x1400000 then
    (let n := (off - 0x1000000) / 64
     let r := off % 64
     if width = 4 then s.writeRing32 ld n r (v.setWidth 32)
     else if width = 8 then s.writeRing64 ld n r v
     else s)
  else if width ≠ 8 then s
  else if off < 0x100000 then s.writeGbl ld off v
  else if s.regWritable ld then s.writeBlock ld off v
  else s

/-- R498-R502: REGISTER_WRITE. -/
def execRegisterWrite (ld : Ld) (off width : Nat) (value : BitVec 64) (s : State) : Host.Outcome State Fault Refusal :=
  .next (s.regWrite ld off width value)

end Machine
end Sys2Proof
end

