-- ==== Sys2Proof/Machine/Spdm.lean ====
section
/-! DEFINITION. SPDM on the DOE mailbox of each head (R389-R392, R404): the flow, the report, key releases, IDE keys. -/

namespace Sys2Proof
namespace Machine

/-! ### The flow (R389, R390) -/

/-- R389, R432: an SPDM request on a head: the firmware runs and the head's link is up. -/
def State.doe (s : State) (h : Side) (go : State → State) : State :=
  if !s.reachable || !s.gbl.fwReady || !(s.cxp.head.get h).up then s.answer {}
  else if s.gbl.held || s.gbl.warming || s.gbl.stopped then s.answer {}
  else go s

/-- R389: a head's responder replaced. -/
def State.setSpdm (s : State) (h : Side) (x : Spdm) : State := { s with sec := { s.sec with spdm := s.sec.spdm.set h x } }

/-- R389: a request that the flow allows in these states; elsewhere it is answered with an error (log 37). -/
def State.spdmIn (s : State) (h : Side) (allowed : List SpdmState) (go : State → State) : State :=
  s.doe h (fun s => if allowed.contains (s.sec.spdm.get h).state then go s else s.no .invalidInput)

/-- R389: n bytes of an answer that the spec does not give. -/
def spdmOpen (k n : Nat) : List Byte := (List.range n).map (Config.spdmBytes k)

/-- R389: GET_VERSION: the flow starts again; a session ends. -/
def execSpdmGetVersion (head : Side) (s : State) : Host.Outcome State Fault Refusal :=
  .next (s.doe head (fun s => (s.setSpdm head { state := .version }).ok (spdmOpen 0 8)))

/-- R389: GET_CAPABILITIES. -/
def execSpdmGetCapabilities (head : Side) (s : State) : Host.Outcome State Fault Refusal :=
  .next (s.spdmIn head [.version] (fun s => (s.setSpdm head { state := .capabilities }).ok (spdmOpen 1 20)))

/-- R390: an extended algorithm entry. -/
def extAlg (id : Nat) : List Byte := leBytes 1 4 ++ leBytes 1 0 ++ leBytes 2 id

/-- R390: an algorithm structure of ALGORITHMS: its type, its count byte, its base bits, its extended entries. -/
def algStruct (type base : Nat) (ext : List Nat) : List Byte :=
  leBytes 1 type ++ leBytes 1 (32 + ext.length) ++ leBytes 2 base ++ ext.flatMap extAlg

/-- R389, R390: ALGORITHMS: SHA3-512 alone as base hash, no base signature, ML-DSA-87 extended; ML-KEM-1024 extended as DHE, AES-256-GCM
alone as AEAD, ML-DSA-87 extended as ReqBaseAsymAlg where mutual authentication is asked for, the SPDM key schedule. Its layout is that of
SPDM 1.3 (log 37). -/
def algorithms (mutualAuth : Bool) : List Byte :=
  let structs := algStruct 2 0 [0xFA02] ++ algStruct 3 2 [] ++ (if mutualAuth then algStruct 4 0 [0xFA01] else []) ++ algStruct 5 1 []
  let body := leBytes 1 1 ++ leBytes 1 0 ++ leBytes 4 0 ++ leBytes 4 0 ++ leBytes 4 32 ++ leBytes 12 0 ++ leBytes 1 1 ++ leBytes 1 0
    ++ leBytes 2 0 ++ extAlg 0xFA01 ++ structs
  [0x13, 0x63, BitVec.ofNat 8 (if mutualAuth then 4 else 3), 0] ++ leBytes 2 (6 + body.length) ++ body

/-- R389, R390: NEGOTIATE_ALGORITHMS fails without the part's algorithms. -/
def execSpdmNegotiateAlgorithms (head : Side) (offer : SpdmOffer) (s : State) : Host.Outcome State Fault Refusal :=
  .next (s.spdmIn head [.capabilities] (fun s =>
    if offer.sign && offer.hash && offer.kem && offer.aead then
      (s.setSpdm head { state := .negotiated }).ok (algorithms offer.mutualAuth)
    else s.no .invalidInput))

/-- R389: the states in which digests, certificates, challenges and measurements are answered. -/
def spdmOpenStates : List SpdmState := [.negotiated, .handshake, .session]

/-- R366, R389: the chain of certificate slot 0, which Faltion installs in PROVISIONED: a BLANK part has none. -/
def State.slot0 (s : State) : List Byte := if s.sec.lcs == .blank then [] else Config.certificate

/-- R389: GET_DIGESTS: the digest of slot 0. -/
def execSpdmGetDigests (head : Side) (s : State) : Host.Outcome State Fault Refusal :=
  .next (s.spdmIn head spdmOpenStates (fun s => s.ok (leBytes 64 (Config.sha3 s.slot0).toNat)))

/-- R389: GET_CERTIFICATE: bytes of the chain of slot 0. -/
def execSpdmGetCertificate (head : Side) (off len : Nat) (s : State) : Host.Outcome State Fault Refusal :=
  .next (s.spdmIn head spdmOpenStates (fun s => s.ok ((s.slot0.drop off).take len)))

/-- R389, R390: CHALLENGE: signed over the data that SPDM defines, of which the model holds the chain's digest and the requester's nonce. -/
def execSpdmChallenge (head : Side) (nonce : BitVec 256) (s : State) : Host.Outcome State Fault Refusal :=
  .next (s.spdmIn head spdmOpenStates (fun s =>
    let b := leBytes 64 (Config.sha3 s.slot0).toNat ++ leBytes 32 nonce.toNat
    s.ok (b ++ Config.sign (Config.transcript 0 b))))

/-! ### The configuration block (R392) -/

/-- R376: code of a context's state. -/
def ctxCode : CtxState → Nat
  | .free => 0
  | .active => 1
  | .retiring => 2

/-- R392: CXP_CTL as a register holds it. -/
def State.cxpCtlWord (s : State) : Nat :=
  b2n s.cxp.head.w.hdmEn + 2 * b2n s.cxp.head.e.hdmEn + 4 * b2n s.cxp.poolEn + 8 * b2n s.cxp.biEn + 16 * b2n (s.cxp.ideReq || s.sec.confidential)

/-- R64: the 64 bytes of a registered profile. -/
def Profile.bytes (p : Profile) : List Byte :=
  leBytes 4 p.id ++ leBytes 2 p.layers ++ leBytes 2 p.qheads ++ leBytes 1 p.kvheads ++ leBytes 1 p.hdim32 ++ leBytes 1 p.kfmt.code
    ++ leBytes 1 p.vfmt.code ++ leBytes 4 p.window ++ leBytes 4 (b2n p.rope + 2 * b2n p.keepAll) ++ leBytes 1 p.frameKib ++ leBytes 43 0

/-- R392: the configuration block: its parts in the order of the rule (their widths are the model's, log 49). -/
def State.cfgBlock (s : State) : List Byte :=
  let live := s.ctxs.filter (fun p => p.2.state != .free)
  live.flatMap (fun p => leBytes 2 p.1 ++ leBytes 1 (ctxCode p.2.state) ++ leBytes 2 p.2.rights.toNat ++ leBytes 2 p.2.domain.toNat
      ++ leBytes 8 p.2.quota.toNat ++ leBytes 8 p.2.chkMask.toNat)
    ++ (List.range 4096).flatMap (fun c => leBytes 4 (s.ctx c).bind.toNat)
    ++ allLds.map (fun l => BitVec.ofNat 8 (b2n (s.manager l)))
    ++ s.cxp.shared.flatMap (fun p => leBytes 1 p.1 ++ leBytes 8 (p.2.base * granule) ++ leBytes 4 p.2.granules)
    ++ s.profiles.vals.flatMap Profile.bytes
    ++ leBytes 8 s.cxpCtlWord
    ++ leBytes 1 (b2n s.flu.port.w.macsecEn + 2 * b2n s.flu.port.e.macsecEn + 4 * b2n s.flu.macsecReq)

/-- R392: Get Configuration Block. -/
def execGetConfigurationBlock (ld : Ld) (off len : Nat) (s : State) : Host.Outcome State Fault Refusal :=
  .next (s.vendor ld (fun s => s.say St.ok 0 ((s.cfgBlock.drop off).take len)))

/-! ### The report (R391, R394) -/

/-- R391: state of a weight object as the report shows it. -/
def objCode (w : WObj) : Nat := if w.keyed then 2 else if w.ready then 1 else 0

/-- R394: the weight digest of a READY object. -/
def State.weightDigest (s : State) (w : WObj) : BitVec 512 :=
  Config.sha3 (leBytes 16 w.modelId.toNat ++ leBytes 4 (s.profile w.pslot).id ++ leBytes 2 w.lengths.length
    ++ w.lengths.flatMap (leBytes 8) ++ w.tags.vals.flatMap (fun l => l.flatMap (fun t => leBytes 16 t.toNat)))

/-- R391: the 72 bytes of an image. -/
def imageBytes (i : Nat) (m : Image) : List Byte :=
  leBytes 2 i ++ leBytes 2 m.ctx ++ leBytes 2 m.steps.length ++ leBytes 2 0
    ++ leBytes 64 (Config.sha3 (m.steps.flatMap (fun w => leBytes 32 w.toNat))).toNat

/-- R391: the 96 bytes of a weight object; before it is READY its digest is open (log 10). -/
def State.weightBytes (s : State) (k : Nat) (w : WObj) : List Byte :=
  leBytes 5 (objHandle k w.gen) ++ leBytes 1 (objCode w) ++ leBytes 2 w.ctx ++ leBytes 16 w.modelId.toNat
    ++ leBytes 4 (s.profile w.pslot).id ++ leBytes 2 w.lengths.length ++ leBytes 2 0
    ++ (if w.ready then leBytes 64 (s.weightDigest w).toNat else (List.range 64).map (Config.freeByte k))

/-- R384, R391: MODE of the report. -/
def State.reportMode (s : State) : Nat :=
  b2n s.sec.confidential + 2 * b2n s.sec.debugOpened + 4 * b2n s.sec.persistRoot.isSome
    + 8 * b2n (s.ctxs.vals.any (fun x => x.state != .free && x.rights.getLsbD 5))

/-- R391: the attestation report. -/
def State.attestation (s : State) (nonce : BitVec 256) : List Byte :=
  let ws := s.wobjs.filter (fun p => p.2.live)
  leBytes 4 1 ++ leBytes 4 (256 + 72 * s.images.length + 96 * ws.length) ++ leBytes 1 (lcsCode s.sec.lcs)
    ++ leBytes 1 s.reportMode ++ leBytes 1 s.sec.reportSvn ++ leBytes 1 0 ++ leBytes 2 s.images.length ++ leBytes 2 ws.length
    ++ leBytes 8 s.now.toNat ++ leBytes 8 0 ++ leBytes 32 nonce.toNat ++ leBytes 64 Config.romDigest.toNat
    ++ leBytes 64 s.sec.fwDigest.toNat ++ leBytes 64 (Config.sha3 s.cfgBlock).toNat
    ++ s.images.flatMap (fun p => imageBytes p.1 p.2) ++ ws.flatMap (fun p => s.weightBytes p.1 p.2)

/-- R391, R405: GET_MEASUREMENTS: the report, signed; counted. -/
def execSpdmGetMeasurements (head : Side) (nonce : BitVec 256) (s : State) : Host.Outcome State Fault Refusal :=
  .next (s.spdmIn head spdmOpenStates (fun s =>
    let b := s.attestation nonce
    (s.count 0x00100108).ok (b ++ Config.sign b)))

/-- R389, R390: KEY_EXCHANGE: encapsulated to the requester's 1,568-byte key; the answer carries the ciphertext as ExchangeData and the
part's signature (40 bytes before it and 64 of verify data after it are SPDM's own), and the shared secret is kept for the session. -/
def execSpdmKeyExchange (head : Side) (encapsKey : List (BitVec 8)) (s : State) : Host.Outcome State Fault Refusal :=
  .next (s.spdmIn head [.negotiated] (fun s =>
    if encapsKey.length ≠ 1568 then s.no .invalidInput
    else if s.sec.entropyFail then s.no .busy
    else
      let (n, s) := s.draw
      let ct := Config.encapsulate encapsKey n
      let b := spdmOpen 3 40 ++ ct
      (s.setSpdm head { state := .handshake, secret := some (Config.encapsSecret encapsKey n) }).ok
        (b ++ Config.sign (Config.transcript 1 (leBytes 64 (Config.sha3 s.slot0).toNat ++ encapsKey ++ b)) ++ spdmOpen 4 64)))

/-- R389: FINISH: with the right verify data the session stands. -/
def execSpdmFinish (head : Side) (verifyData : List (BitVec 8)) (s : State) : Host.Outcome State Fault Refusal :=
  .next (s.spdmIn head [.handshake] (fun s =>
    let x := s.sec.spdm.get head
    if Config.finishOk (x.secret.getD 0) verifyData then (s.setSpdm head { x with state := .session }).ok
    else (s.setSpdm head { state := .negotiated }).no .invalidInput))

/-- R372, R389: END_SESSION: the session keys are destroyed. -/
def execSpdmEndSession (head : Side) (s : State) : Host.Outcome State Fault Refusal :=
  .next (s.spdmIn head [.session] (fun s => (s.setSpdm head { state := .negotiated }).ok))

/-! ### Requests inside a session (R375, R384, R395, R404, R295) -/

/-- R404: a vendor-defined request inside an SPDM secure session. -/
def State.secure (s : State) (h : Side) (go : State → State) : State := s.spdmIn h [.session] go

/-- R372, R375: the persistent root of a release secret. -/
def State.rootFor (s : State) (secret : BitVec 256) : BitVec 256 :=
  (Config.kmac 1 Config.wrapKey (BitVec.ofNat 512 (secret.toNat + s.sec.persistGen * 2 ^ 256))).setWidth 256

/-- R375: the 16-byte check value of a root. -/
def rootCheckOf (root : BitVec 256) : BitVec 128 := (Config.kmac 2 (root.setWidth 512) 0).setWidth 128

/-- R369, R375: Release Persistent Root; the first release stores the check value in the map area of formatted media. -/
def State.releaseRoot (s : State) (secret : BitVec 256) : State :=
  let root := s.rootFor secret
  if s.sec.lcs != .deployed then s.say St.notEnabled
  else if s.sec.debugOpened then s.refuse
  else
    match s.coal.rootCheck with
    | some v => if v = rootCheckOf root then ({ s with sec := { s.sec with persistRoot := some root } }).say St.ok else s.refuse
    | none =>
      if !s.coal.formatted then s.say St.notEnabled
      else
        ({ s with sec := { s.sec with persistRoot := some root }
                  coal := { s.coal with rootCheck := some (rootCheckOf root) } }).say St.ok

/-- R375: Release Persistent Root. -/
def execReleasePersistentRoot (head : Side) (secret : BitVec 256) (s : State) : Host.Outcome State Fault Refusal :=
  .next (s.secure head (fun s => s.releaseRoot secret))

/-- R395: the key check value of a model key. -/
def modelCheck (key : BitVec 256) (model : BitVec 128) : BitVec 128 :=
  (Config.kmac 3 (key.setWidth 512) (model.setWidth 512)).setWidth 128

/-- R369, R395: Release Model Key. -/
def State.releaseModel (s : State) (k : Nat) (key : BitVec 256) : State :=
  let w := s.wobj k
  if !w.ready || s.sec.debugOpened || w.keyCheck ≠ modelCheck key w.modelId then s.refuse
  else ((s.setWobj k { w with keyed := true, key := some key }).openChunks k).say St.ok

/-- R395: Release Model Key. -/
def execReleaseModelKey (head : Side) (handle : BitVec 64) (key : BitVec 256) (s : State) : Host.Outcome State Fault Refusal :=
  .next (s.secure head (fun s => s.withObj handle (fun k s => s.releaseModel k key)))

/-- R384, R519: Import Compat Key: for a context with COMPAT410, before its first ring is enabled. -/
def State.importCompat (s : State) (c : Nat) (key : BitVec 512) : State :=
  let x := s.ctx c
  if s.sec.lcs != .deployed then s.say St.notEnabled
  else if 4096 ≤ c || x.state == .free then s.say St.badOperand
  else if x.state == .retiring then s.say St.busy
  else if !(x.rights.getLsbD 5) then s.say St.badOperand
  else if x.ringEnabled then s.say St.busy
  else (s.setCtx c { x with compatKey := some key }).say St.ok

/-- R384: Import Compat Key; the key itself never leaves the security block (R374). -/
def execImportCompatKey (head : Side) (ctx : Nat) (key : BitVec 512) (s : State) : Host.Outcome State Fault Refusal :=
  .next (s.secure head (fun s => s.importCompat ctx key))

/-- R295: whether CXL.cachemem IDE is in skid mode once a stream has been programmed. -/
def skidOf (stream : IdeStream) (old : Bool) : Bool :=
  match stream with
  | .io => old
  | .mem skid => skid

/-- R295: IDE_KM: a stream's key is programmed or refreshed, CXL.cachemem in the mode named; no request is dropped. -/
def execIdeKmKeyProgram (head : Side) (stream : IdeStream) (key : BitVec 256) (s : State) : Host.Outcome State Fault Refusal :=
  .next (s.secure head (fun s =>
    let h := s.cxp.head.get head
    let i : Nat := if stream == .io then 0 else 1
    (s.setHead head { h with
      ideKeys := h.ideKeys.put i key, ideIo := h.ideIo || stream == .io, ideMem := h.ideMem || stream != .io
      ideSkid := skidOf stream h.ideSkid }).ok))

end Machine
end Sys2Proof
end

