-- ==== Sys2Proof/Machine/Unit.lean ====
section
/-! DEFINITION. The check units (R357-R363) and the per-context counters (R455-R459): CHK and CTR instructions. -/

namespace Sys2Proof
namespace Machine

/-! ### Check units -/

/-- R357: where a CHK instruction finds its unit: one that issued before the unit left its context's mask finds the state that it had
then. -/
def State.unitKey (s : State) (j : Job) : Nat :=
  let u := bits j.w0.toNat 0 6
  if (s.ctx j.ctx).chkMask.getLsbD u then u else keptUnit j.ctx u

/-- R357: the unit as the instruction finds it. -/
def State.unitOf (s : State) (j : Job) : CheckUnit := s.chk.lookD (s.unitKey j) {}

/-- R357: the unit is held by the context at issue, and (for all but CHK.SETUP) SET. -/
def State.badUnit (s : State) (j : Job) (needSet : Bool) : Bad :=
  firstBad [badIf (!(s.issuedBefore j.site) && !((s.ctx j.ctx).chkMask.getLsbD (bits j.w0.toNat 0 6))) St.access 0,
    badIf (needSet && !(s.chk.has (s.unitKey j))) St.badOperand 3]

/-- R357: what was kept of a unit for the issued instructions of a context ends with the last of them. -/
def State.dropKept (s : State) (j : Job) : State :=
  let u := bits j.w0.toNat 0 6
  if s.unitNamed j.ctx u (some j.site) then s else { s with chk := s.chk.del (keptUnit j.ctx u) }

/-- R357, R358: the instruction leaves its unit so. -/
def State.putUnit (s : State) (j : Job) (x : CheckUnit) : State :=
  ({ s with chk := s.chk.put (s.unitKey j) x } : State).dropKept j

/-- R32, R357: the checks of a CHK instruction. -/
def unitChecks (f : Job → State → Bad) (j : Job) (s : State) : Chk :=
  match f j s with
  | some e => Chk.ofErr (some e) (s.dropKept j)
  | none => .good {} s

/-- R358: ALIVE_W in bits. -/
def aliveBits (code : Nat) : Nat :=
  match code with
  | 1 => 4
  | 2 => 8
  | 3 => 16
  | _ => 0

/-- R358: the parameter block at address a as a unit. -/
def State.unitBlock (s : State) (a : Nat) : CheckUnit :=
  let fl := s.field (a + 25) 1
  { poly := BitVec.ofNat 64 (s.field a 8), init := BitVec.ofNat 64 (s.field (a + 8) 8)
    xorOut := BitVec.ofNat 64 (s.field (a + 16) 8), width := s.field (a + 24) 1, refIn := bitOf fl 0, refOut := bitOf fl 1
    aliveW := aliveBits (bits fl 4 2), aliveNext := s.field (a + 26) 2, running := BitVec.ofNat 64 (s.field (a + 8) 8) }

/-- R358: the parameters are out of range. -/
def CheckUnit.bad (u : CheckUnit) : Bool :=
  !([8, 16, 24, 32, 64].contains u.width) || 2 ^ u.width ≤ u.poly.toNat || 2 ^ u.width ≤ u.init.toNat
    || 2 ^ u.width ≤ u.xorOut.toNat || 2 ^ u.aliveW ≤ u.aliveNext

/-- R358: the first reserved field of the block that is not zero. -/
def State.unitReserved (s : State) (a : Nat) : Bad :=
  if (s.field (a + 25) 1) &&& 0xCC ≠ 0 then some (St.badReserved, 25)
  else (s.mem.firstNonzero a ((List.range 36).map (· + 28))).map (fun o => (St.badReserved, o))

/-- R32, R37, R358: what CHK.SETUP checks: its range before its unit. -/
def setupBad (j : Job) (s : State) : Bad :=
  let a := j.w1.toNat
  firstBad [s.rng j.ctx a 64 1, s.badUnit j false, s.mem.readErr a 64, s.unitReserved a,
    badIf (s.unitBlock a).bad St.badOperand 1]

/-- R358: CHK.SETUP. -/
def setupBody (j : Job) (s : State) : Out :=
  succeeds 0 (s.putUnit j (s.unitBlock j.w1.toNat))

/-- R358: CHK.SETUP. -/
def execChkSetup (a : At) (s : State) : Host.Outcome State Fault Refusal := .next (runHob 0x90 a (unitChecks setupBad) setupBody s)

/-- R359: one bit enters the register. -/
def unitBit (u : CheckUnit) (r : Nat) (b : Bool) : Nat :=
  let x := (2 * r) % 2 ^ u.width
  if bitOf r (u.width - 1) != b then x ^^^ u.poly.toNat else x

/-- R359: one step: the eight bits of a byte. -/
def unitStep (u : CheckUnit) (r : Nat) (b : Byte) : Nat :=
  ((if u.refIn then [0, 1, 2, 3, 4, 5, 6, 7] else [7, 6, 5, 4, 3, 2, 1, 0]).map (fun i => b.getLsbD i)).foldl (unitBit u) r

/-- R360: the bytes of a source in the order in which they enter. -/
def feedOrder (refIn : Bool) (w : Nat) (bs : List Byte) : List Byte :=
  if refIn then bs else (chunks w bs.length bs).flatMap List.reverse

/-- A number's low w bits reversed. -/
def mirror (w v : Nat) : Nat := (List.range w).foldl (fun n i => if bitOf v i then n + 2 ^ (w - 1 - i) else n) 0

/-- R359: the value that CHK.FEED gives. -/
def CheckUnit.value (u : CheckUnit) : Nat :=
  (if u.refOut then mirror u.width u.running.toNat else u.running.toNat) ^^^ u.xorOut.toNat

/-- R32, R37, R360, R361: what CHK.FEED checks: its range before its unit. -/
def feedBad (j : Job) (s : State) : Bad :=
  let f := bits j.w0.toNat 8 2
  let n := bits j.w2.toNat 0 32
  let x := s.unitOf j
  firstBad [
    (s.checkRange j.ctx j.w1.toNat n (if f = 3 then 1 else 2 ^ f) false).map (fun st => (st, 1)),
    s.badUnit j true,
    badIf (f = 3) St.badOperand 0,
    badIf (n = 0 || n % 2 ^ f ≠ 0) St.badOperand 2,
    badIf (j.inst.x0 && (x.aliveW = 0 || 2 ^ x.aliveW ≤ bits j.w2.toNat 48 16)) St.badOperand 2]

/-- R360, R361: CHK.FEED. -/
def feedBody (j : Job) (s : State) : Out :=
  let a := j.w1.toNat
  let n := bits j.w2.toNat 0 32
  let v := bits j.w2.toNat 48 16
  let x := s.unitOf j
  let next := (v + 1) % 2 ^ x.aliveW
  if j.inst.x0 && v ≠ x.aliveNext then
    fails St.aliveMismatch v ((s.putUnit j { x with aliveNext := next }).count 0x03700110)
  else
    match s.mem.readErr a n with
    | some e => fails e.1 e.2 (s.dropKept j)
    | none =>
      let r := (feedOrder x.refIn (2 ^ bits j.w0.toNat 8 2) (s.peek a n)).foldl (unitStep x) x.running.toNat
      let y := { x with running := BitVec.ofNat 64 r, aliveNext := if j.inst.x0 then next else x.aliveNext }
      succeeds y.value (((s.putUnit j y).count 0x03700100 n).count 0x03700108)

/-- R360: CHK.FEED. -/
def execChkFeed (a : At) (s : State) : Host.Outcome State Fault Refusal := .next (runHob 0x91 a (unitChecks feedBad) feedBody s)

/-- R362: CHK.SAVE. -/
def saveBody (j : Job) (s : State) : Out := succeeds (s.unitOf j).running.toNat (s.dropKept j)

/-- R362: CHK.SAVE. -/
def execChkSave (a : At) (s : State) : Host.Outcome State Fault Refusal := .next (runHob 0x92 a (unitChecks (fun j s => s.badUnit j true)) saveBody s)

/-- R362: what CHK.RESTORE checks. -/
def restoreBad (j : Job) (s : State) : Bad :=
  firstBad [s.badUnit j true, badIf (2 ^ (s.unitOf j).width ≤ j.w1.toNat) St.badOperand 1]

/-- R362: CHK.RESTORE. -/
def restoreBody (j : Job) (s : State) : Out :=
  succeeds 0 (s.putUnit j { s.unitOf j with running := j.w1 })

/-- R362: CHK.RESTORE. -/
def execChkRestore (a : At) (s : State) : Host.Outcome State Fault Refusal := .next (runHob 0x93 a (unitChecks restoreBad) restoreBody s)

/-! ### Per-context counters -/

/-- R455: the number of a counter. -/
def badCounter (n : Nat) : Bad := badIf (255 < n) St.badOperand 0

/-- R456: an event code that the table lists, with whether it takes a class. -/
def eventTakes (e : Nat) : Option Bool :=
  if e = 2 || e = 3 || (0x41 ≤ e && e ≤ 0x58) then some true else if 1 ≤ e && e ≤ 14 then some false else none

/-- R456: a selector's event and class are refused. -/
def badSelector (v : Nat) : Bool :=
  let cls := bits v 8 4
  match eventTakes (bits v 0 8) with
  | none => true
  | some takes => if takes then decide (11 < cls) else cls != 0

/-- R455, R456: what CTR.START checks. -/
def ctrStartBad (j : Job) (s : State) : Bad :=
  let v := j.w1.toNat
  firstBad [
    badCounter (bits j.w0.toNat 0 16),
    badIf (badSelector v) St.badOperand 1,
    badIf (bitOf v 12 && (s.ring (bits v 16 16)).ctx.toNat ≠ j.ctx) St.access 1]

/-- R455, R456, R458: CTR.START. -/
def ctrStartBody (j : Job) (s : State) : Out :=
  let n := bits j.w0.toNat 0 16
  let x := s.ctx j.ctx
  let k := x.counters.lookD n {}
  let starts := k.starts + 1
  let id : Nat := if j.inst.x0 then j.site.index.toNat + j.site.ring * 2 ^ 32 else starts.toNat + 2 ^ 63
  let k' : Counter := {
    selector := j.w1, value := 0, running := true, resetAtStart := j.inst.x0, interval := BitVec.ofNat 64 id, starts := starts }
  succeeds 0 (s.setCtx j.ctx { x with counters := x.counters.put n k' })

/-- R455: CTR.START. -/
def execCtrStart (a : At) (s : State) : Host.Outcome State Fault Refusal := .next (runHob 0xA0 a (checks ctrStartBad) ctrStartBody s)

/-- R455: CTR.STOP. -/
def ctrStopBody (j : Job) (s : State) : Out :=
  let n := bits j.w0.toNat 0 16
  let x := s.ctx j.ctx
  let k := x.counters.lookD n {}
  .done { result := k.value } (if x.counters.has n then
    s.setCtx j.ctx { x with counters := x.counters.put n { k with running := false, stampAt := none, endedAt := none } } else s)

/-- R455: CTR.STOP. -/
def execCtrStop (a : At) (s : State) : Host.Outcome State Fault Refusal := .next (runHob 0xA1 a (checks (fun j _ => badCounter (bits j.w0.toNat 0 16))) ctrStopBody s)

/-- R457, R459: the value and interval id that a sample issued at a time gives. -/
def Counter.sampleAt (k : Counter) (now : Nat) : BitVec 64 × BitVec 64 :=
  if k.endedAt == some now then (k.endedValue, k.endedInterval) else (k.past now, k.interval)

/-- R37, R457: what CTR.SAMPLE checks. -/
def ctrSampleBad (j : Job) (s : State) : Bad :=
  firstBad [s.rngUp j.ctx j.w1.toNat 16 1, badCounter (bits j.w0.toNat 0 16)]

/-- R457, R459: what CTR.SAMPLE finds at its issue. -/
def ctrSampleChk (j : Job) (s : State) : Chk :=
  match ctrSampleBad j s with
  | some (st, d) => .bad { status := st, detail := d } s
  | none => .good { sample := ((s.ctx j.ctx).counters.lookD (bits j.w0.toNat 0 16) {}).sampleAt s.now.toNat } s

/-- R457, R459: CTR.SAMPLE. -/
def ctrSampleBody (j : Job) (s : State) : Out :=
  let a := j.w1.toNat
  let (v, i) := j.snap.sample
  .done (s.stored a 16 { result := v }) (s.poke a (leBytes 8 v.toNat ++ leBytes 8 i.toNat))

/-- R457: CTR.SAMPLE. -/
def execCtrSample (a : At) (s : State) : Host.Outcome State Fault Refusal := .next (runHob 0xA2 a ctrSampleChk ctrSampleBody s)

end Machine
end Sys2Proof
end

