-- ==== Sys2Proof/Machine/Vlog.lean ====
section
/-! DEFINITION. Get Vendor Log (R291): the Coal store health log (R265) and the recovery log (R419). -/

namespace Sys2Proof
namespace Machine

/-! ### The health log (R265) -/

/-- R265: an erase count in percent of RATED, saturating at 255. -/
def wearOf (n rated : Nat) : Nat := Nat.min 255 (100 * n / Nat.max rated 1)

/-- R265: the spare pools of the 32 channels, with their start. -/
def Coal.pools (c : Coal) : List (Nat × Nat) :=
  (List.range 16).map (fun i => (c.half.w.spare.getD i 0, c.half.w.spareStart.getD i 0))
    ++ (List.range 16).map (fun i => (c.half.e.spare.getD i 0, c.half.e.spareStart.getD i 0))

/-- R265: SPARE_LEFT: the smallest pool in percent of its start. -/
def Coal.spareLeft (c : Coal) : Nat := minOr 100 ((c.pools.filter (fun p => p.2 != 0)).map (fun p => 100 * p.1 / p.2))

/-- R265: a signed byte. -/
def signedByte (t : Int) : Nat := (BitVec.ofInt 8 t).toNat

/-- R265: average and largest erase count of the member blocks in service on some channels, each with its half. -/
def erasesOf (c : Coal) (chs : List (Half × Nat)) : Nat × Nat :=
  let es := chs.flatMap (fun x => x.1.erasesOn x.2)
  let blocks := chs.foldl (fun n x => n + c.blocksOn x.1 x.2) 0
  (es.foldl (· + ·) 0 / Nat.max 1 blocks, es.foldl Nat.max 0)

/-- R235: the channels of both halves. -/
def Coal.channels (c : Coal) : List (Half × Nat) :=
  (List.range 16).map (fun i => (c.half.w, i)) ++ (List.range 16).map (fun i => (c.half.e, i))

/-- R265: HFLAGS. -/
def Coal.hflags (c : Coal) : Nat :=
  let (avg, _) := erasesOf c c.channels
  let exhausted := c.mediaReadOnly
  b2n exhausted + 2 * b2n c.mediaReadOnly + 4 * b2n (c.half.w.degraded || c.half.e.degraded) + 8 * b2n (decide (c.spareLeft < 10))
    + 16 * b2n (decide (90 ≤ wearOf avg (bits c.wear.toNat 0 16)))

/-- R265: the 16 bytes of a channel. -/
def Coal.channelBytes (c : Coal) (d : Side) (i : Nat) : List Byte :=
  let h := c.half.get d
  let (avg, most) := erasesOf c [(h, i)]
  leBytes 4 (h.spare.getD i 0) ++ leBytes 4 (h.retired.getD i 0) ++ leBytes 4 avg ++ leBytes 4 most

/-- R265: history entry h of 256. -/
def Health.entry (x : Health) (h : Nat) : Nat :=
  let back := (x.hours + 255 - h % 256) % 256
  match x.history.reverse[back]? with
  | none => 0
  | some (lo, hi, mean, hot) => signedByte lo + 2 ^ 8 * signedByte hi + 2 ^ 16 * signedByte mean + 2 ^ 24 * b2n hot

/-- R265: the health log. -/
def State.healthLog (s : State) : List Byte :=
  let c := s.coal
  let x := c.health
  let rated := bits c.wear.toNat 0 16
  let (avg, most) := erasesOf c c.channels
  leBytes 4 1 ++ leBytes 4 c.hflags ++ leBytes 8 s.now.toNat ++ leBytes 1 c.spareLeft ++ leBytes 1 (wearOf avg rated)
    ++ leBytes 1 (wearOf most rated) ++ leBytes 1 0 ++ leBytes 4 rated
    ++ leBytes 8 (1024 * (c.capacity c.half.w + c.capacity c.half.e)) ++ leBytes 8 (1024 * (c.half.w.validKib + c.half.e.validKib))
    ++ leBytes 8 x.demoted ++ leBytes 8 (c.half.w.programmed + c.half.e.programmed) ++ leBytes 8 x.read ++ leBytes 8 x.corrHard ++ leBytes 8 x.corrSoft
    ++ leBytes 8 x.rebuilt ++ leBytes 8 x.lost ++ leBytes 4 x.retired ++ leBytes 4 x.factoryBad ++ leBytes 4 x.failedLuns
    ++ leBytes 4 x.powerLoss ++ leBytes 4 x.unsafeLoss ++ leBytes 4 x.refreshed ++ leBytes 8 0
    ++ (List.range 16).flatMap (c.channelBytes .west) ++ (List.range 16).flatMap (c.channelBytes .east)
    ++ leBytes 1 (signedByte x.tmax) ++ leBytes 1 (signedByte x.tmin) ++ leBytes 2 (x.hours % 256) ++ leBytes 4 x.hours
    ++ leBytes 376 0 ++ (List.range 256).flatMap (fun h => leBytes 4 (x.entry h))

/-! ### The recovery log (R419) -/

/-- R419: bytes of a section. -/
def RlogSection.length (x : RlogSection) : Nat := 64 + 16 * x.rings.length + 32 * x.recs.length

/-- R419: a ring entry with its records. -/
def RlogSection.ringBytes (x : RlogSection) (r : Nat × Nat × Nat × BitVec 32) : List Byte :=
  let recs := x.recs.filter (fun p => p.1 == r.1)
  leBytes 2 r.1 ++ leBytes 2 r.2.1 ++ leBytes 1 r.2.2.1 ++ leBytes 3 0 ++ leBytes 4 r.2.2.2.toNat ++ leBytes 4 recs.length
    ++ recs.flatMap (fun p => leBytes 32 p.2.toNat)

/-- R419: a section. -/
def RlogSection.bytes (x : RlogSection) : List Byte :=
  leBytes 1 x.cause ++ leBytes 1 x.flags.toNat ++ leBytes 2 0 ++ leBytes 4 x.rings.length ++ leBytes 4 x.recs.length ++ leBytes 4 0
    ++ leBytes 8 x.time.toNat ++ leBytes 8 x.bootSeq ++ leBytes 8 x.length ++ leBytes 24 0 ++ x.rings.flatMap x.ringBytes

/-- R419: the recovery log. -/
def recoveryLog (l : List RlogSection) : List Byte :=
  leBytes 4 1 ++ leBytes 4 l.length ++ leBytes 8 (64 + (l.map (·.length)).foldl (· + ·) 0) ++ leBytes 48 0
    ++ l.flatMap RlogSection.bytes

/-- R291: Get Vendor Log. -/
def execGetVendorLog (ld : Ld) (logId off len : Nat) (s : State) : Host.Outcome State Fault Refusal :=
  .next (s.vendor ld (fun s =>
    if logId = 1 then s.say St.ok 0 ((s.healthLog.drop off).take len)
    else if logId = 2 then s.say St.ok 0 (((recoveryLog s.gbl.rlog).drop off).take len)
    else s.say St.badOperand))

end Machine
end Sys2Proof
end

