-- ==== Sys2Proof/Machine/Dispatch.lean ====
section
/-! DEFINITION. One arm per command: what it does to everything but the queue. -/

namespace Sys2Proof
namespace Machine

/-- The effect of a command on everything but the queue of commands. -/
def exec (i : Instr) (s : State) : Host.Outcome State Fault Refusal :=
  match i with
  | .doorbellWrite ld off size value => Sys2Proof.Machine.execDoorbellWrite ld off size value s
  | .packetAccept ring => Sys2Proof.Machine.execPacketAccept ring s
  | .completionPost ring => Sys2Proof.Machine.execCompletionPost ring s
  | .bookingWindowStart ring => Sys2Proof.Machine.execBookingWindowStart ring s
  | .badOpcode a => Sys2Proof.Machine.execBadOpcode a s
  | .ctlNop a => Sys2Proof.Machine.execCtlNop a s
  | .ctlFence a => Sys2Proof.Machine.execCtlFence a s
  | .ctlWait a => Sys2Proof.Machine.execCtlWait a s
  | .ctlWaitTimeout a => Sys2Proof.Machine.execCtlWaitTimeout a s
  | .ctlSignal a => Sys2Proof.Machine.execCtlSignal a s
  | .ctlSkipif a => Sys2Proof.Machine.execCtlSkipif a s
  | .ctlLoop a => Sys2Proof.Machine.execCtlLoop a s
  | .ctlCall a => Sys2Proof.Machine.execCtlCall a s
  | .ctlRet a => Sys2Proof.Machine.execCtlRet a s
  | .ctlAdd a => Sys2Proof.Machine.execCtlAdd a s
  | .seqCreate a => Sys2Proof.Machine.execSeqCreate a s
  | .seqDestroy a => Sys2Proof.Machine.execSeqDestroy a s
  | .seqDestroyRelease a => Sys2Proof.Machine.execSeqDestroyRelease a s
  | .seqTrunc a => Sys2Proof.Machine.execSeqTrunc a s
  | .seqTruncProceed a => Sys2Proof.Machine.execSeqTruncProceed a s
  | .seqHint a => Sys2Proof.Machine.execSeqHint a s
  | .seqQuery a => Sys2Proof.Machine.execSeqQuery a s
  | .pageStage a => Sys2Proof.Machine.execPageStage a s
  | .pageSeal a => Sys2Proof.Machine.execPageSeal a s
  | .pageFetch a => Sys2Proof.Machine.execPageFetch a s
  | .kvAppend a => Sys2Proof.Machine.execKvAppend a s
  | .pfxMatch a => Sys2Proof.Machine.execPfxMatch a s
  | .pfxPublish a => Sys2Proof.Machine.execPfxPublish a s
  | .pfxFork a => Sys2Proof.Machine.execPfxFork a s
  | .pfxWithdraw a => Sys2Proof.Machine.execPfxWithdraw a s
  | .attDecode a => Sys2Proof.Machine.execAttDecode a s
  | .attPrefill a => Sys2Proof.Machine.execAttPrefill a s
  | .attMerge a => Sys2Proof.Machine.execAttMerge a s
  | .attBwd a => Sys2Proof.Machine.execAttBwd a s
  | .winOpen a => Sys2Proof.Machine.execWinOpen a s
  | .winAdvance a => Sys2Proof.Machine.execWinAdvance a s
  | .winClose a => Sys2Proof.Machine.execWinClose a s
  | .winLayerSend win => Sys2Proof.Machine.execWinLayerSend win s
  | .poolFill a => Sys2Proof.Machine.execPoolFill a s
  | .poolCopy a => Sys2Proof.Machine.execPoolCopy a s
  | .poolCompare a => Sys2Proof.Machine.execPoolCompare a s
  | .poolReduce a => Sys2Proof.Machine.execPoolReduce a s
  | .flueSend a => Sys2Proof.Machine.execFlueSend a s
  | .flueWait a => Sys2Proof.Machine.execFlueWait a s
  | .flueWaitTimeout a => Sys2Proof.Machine.execFlueWaitTimeout a s
  | .chkSetup a => Sys2Proof.Machine.execChkSetup a s
  | .chkFeed a => Sys2Proof.Machine.execChkFeed a s
  | .chkSave a => Sys2Proof.Machine.execChkSave a s
  | .chkRestore a => Sys2Proof.Machine.execChkRestore a s
  | .ctrStart a => Sys2Proof.Machine.execCtrStart a s
  | .ctrStop a => Sys2Proof.Machine.execCtrStop a s
  | .ctrSample a => Sys2Proof.Machine.execCtrSample a s
  | .keyRegister a => Sys2Proof.Machine.execKeyRegister a s
  | .keyRevoke a => Sys2Proof.Machine.execKeyRevoke a s
  | .keyRevokeDone a => Sys2Proof.Machine.execKeyRevokeDone a s
  | .identifyMemoryDevice ld => Sys2Proof.Machine.execIdentifyMemoryDevice ld s
  | .getSupportedLogs ld => Sys2Proof.Machine.execGetSupportedLogs ld s
  | .getLog ld off len => Sys2Proof.Machine.execGetLog ld off len s
  | .getEventRecords ld log => Sys2Proof.Machine.execGetEventRecords ld log s
  | .clearEventRecords ld log handles => Sys2Proof.Machine.execClearEventRecords ld log handles s
  | .getEventInterruptPolicy ld => Sys2Proof.Machine.execGetEventInterruptPolicy ld s
  | .setEventInterruptPolicy ld policy => Sys2Proof.Machine.execSetEventInterruptPolicy ld policy s
  | .getTimestamp ld => Sys2Proof.Machine.execGetTimestamp ld s
  | .setTimestamp ld stamp => Sys2Proof.Machine.execSetTimestamp ld stamp s
  | .getPoisonList ld base len => Sys2Proof.Machine.execGetPoisonList ld base len s
  | .clearPoison ld dpa data => Sys2Proof.Machine.execClearPoison ld dpa data s
  | .injectPoison ld dpa => Sys2Proof.Machine.execInjectPoison ld dpa s
  | .getDcConfiguration ld => Sys2Proof.Machine.execGetDcConfiguration ld s
  | .getDcExtentList ld start count => Sys2Proof.Machine.execGetDcExtentList ld start count s
  | .addDcResponse ld accepted => Sys2Proof.Machine.execAddDcResponse ld accepted s
  | .releaseDynamicCapacity ld base len => Sys2Proof.Machine.execReleaseDynamicCapacity ld base len s
  | .backgroundOperationStatus ld => Sys2Proof.Machine.execBackgroundOperationStatus ld s
  | .requestAbortBackgroundOp ld => Sys2Proof.Machine.execRequestAbortBackgroundOp ld s
  | .getFwInfo ld => Sys2Proof.Machine.execGetFwInfo ld s
  | .transferFw ld image => Sys2Proof.Machine.execTransferFw ld image s
  | .activateFw ld online => Sys2Proof.Machine.execActivateFw ld online s
  | .getVendorLog ld logId off len => Sys2Proof.Machine.execGetVendorLog ld logId off len s
  | .registerProfile ld record => Sys2Proof.Machine.execRegisterProfile ld record s
  | .deregisterProfile ld profileId => Sys2Proof.Machine.execDeregisterProfile ld profileId s
  | .registerImage ld ctx steps src => Sys2Proof.Machine.execRegisterImage ld ctx steps src s
  | .deregisterImage ld image => Sys2Proof.Machine.execDeregisterImage ld image s
  | .allocateContextSpace ld ctx die granules addr => Sys2Proof.Machine.execAllocateContextSpace ld ctx die granules addr s
  | .releaseContextSpace ld ctx granules addr => Sys2Proof.Machine.execReleaseContextSpace ld ctx granules addr s
  | .setEvent ld ctx event op value => Sys2Proof.Machine.execSetEvent ld ctx event op value s
  | .poolFillCommand ld ctx w0 w1 w2 => Sys2Proof.Machine.execPoolFillCommand ld ctx w0 w1 w2 s
  | .poolCopyCommand ld ctx w0 w1 w2 => Sys2Proof.Machine.execPoolCopyCommand ld ctx w0 w1 w2 s
  | .poolCompareCommand ld ctx w0 w1 w2 => Sys2Proof.Machine.execPoolCompareCommand ld ctx w0 w1 w2 s
  | .poolReduceCommand ld ctx w0 w1 w2 => Sys2Proof.Machine.execPoolReduceCommand ld ctx w0 w1 w2 s
  | .advanceLifeCycle ld target present digest signature => Sys2Proof.Machine.execAdvanceLifeCycle ld target present digest signature s
  | .setMode ld confidential => Sys2Proof.Machine.execSetMode ld confidential s
  | .createContext ld ctx rights domain quota chkMask => Sys2Proof.Machine.execCreateContext ld ctx rights domain quota chkMask s
  | .setContext ld ctx rights domain quota chkMask => Sys2Proof.Machine.execSetContext ld ctx rights domain quota chkMask s
  | .rotateContextKey ld ctx => Sys2Proof.Machine.execRotateContextKey ld ctx s
  | .retireContext ld ctx => Sys2Proof.Machine.execRetireContext ld ctx s
  | .retireComplete ctx => Sys2Proof.Machine.execRetireComplete ctx s
  | .createWeightObject ld ctx home profileId modelId keyCheck lengths => Sys2Proof.Machine.execCreateWeightObject ld ctx home profileId modelId keyCheck lengths s
  | .loadWeightLayer ld handle layer src => Sys2Proof.Machine.execLoadWeightLayer ld handle layer src s
  | .deleteWeightObject ld handle => Sys2Proof.Machine.execDeleteWeightObject ld handle s
  | .getConfigurationBlock ld off len => Sys2Proof.Machine.execGetConfigurationBlock ld off len s
  | .setMacsecCak ld port ckn cak => Sys2Proof.Machine.execSetMacsecCak ld port ckn cak s
  | .getNonce ld => Sys2Proof.Machine.execGetNonce ld s
  | .openDebug ld signature => Sys2Proof.Machine.execOpenDebug ld signature s
  | .beginConnectionKey ld conn => Sys2Proof.Machine.execBeginConnectionKey ld conn s
  | .completeConnectionKey ld conn ciphertext => Sys2Proof.Machine.execCompleteConnectionKey ld conn ciphertext s
  | .releasePersistentRoot head secret => Sys2Proof.Machine.execReleasePersistentRoot head secret s
  | .releaseModelKey head handle key => Sys2Proof.Machine.execReleaseModelKey head handle key s
  | .importCompatKey head ctx key => Sys2Proof.Machine.execImportCompatKey head ctx key s
  | .getStartUpReport ld => Sys2Proof.Machine.execGetStartUpReport ld s
  | .setClass ld cls weight bound => Sys2Proof.Machine.execSetClass ld cls weight bound s
  | .setAdmission ld admitCap blockUs => Sys2Proof.Machine.execSetAdmission ld admitCap blockUs s
  | .admitRing ld ring demand => Sys2Proof.Machine.execAdmitRing ld ring demand s
  | .releaseBooking ld ring => Sys2Proof.Machine.execReleaseBooking ld ring s
  | .getAdmission ld die => Sys2Proof.Machine.execGetAdmission ld die s
  | .readTrace ld die first count => Sys2Proof.Machine.execReadTrace ld die first count s
  | .readContextCounters ld ctx first count => Sys2Proof.Machine.execReadContextCounters ld ctx first count s
  | .readStallHistogram ld die cls => Sys2Proof.Machine.execReadStallHistogram ld die cls s
  | .getLdInfo head => Sys2Proof.Machine.execGetLdInfo head s
  | .getLdAllocations head => Sys2Proof.Machine.execGetLdAllocations head s
  | .qosCommands head cmd => Sys2Proof.Machine.execQosCommands head cmd s
  | .getMultiHeadedInfo head => Sys2Proof.Machine.execGetMultiHeadedInfo head s
  | .getDcdInfo head => Sys2Proof.Machine.execGetDcdInfo head s
  | .getHostDcRegionConfig head host => Sys2Proof.Machine.execGetHostDcRegionConfig head host s
  | .setDcRegionConfiguration head region blockSize => Sys2Proof.Machine.execSetDcRegionConfiguration head region blockSize s
  | .getDcRegionExtentLists head host => Sys2Proof.Machine.execGetDcRegionExtentLists head host s
  | .initiateDcAdd head ld base len => Sys2Proof.Machine.execInitiateDcAdd head ld base len s
  | .initiateDcRelease head ld base len forced => Sys2Proof.Machine.execInitiateDcRelease head ld base len forced s
  | .extentRemovalDone ld base => Sys2Proof.Machine.execExtentRemovalDone ld base s
  | .bindContext head ctx word => Sys2Proof.Machine.execBindContext head ctx word s
  | .hostDown head lds => Sys2Proof.Machine.execHostDown head lds s
  | .defineSharedRegion head base granules => Sys2Proof.Machine.execDefineSharedRegion head base granules s
  | .deleteSharedRegion head index => Sys2Proof.Machine.execDeleteSharedRegion head index s
  | .setLdPrivilege head ld grant => Sys2Proof.Machine.execSetLdPrivilege head ld grant s
  | .spdmGetVersion head => Sys2Proof.Machine.execSpdmGetVersion head s
  | .spdmGetCapabilities head => Sys2Proof.Machine.execSpdmGetCapabilities head s
  | .spdmNegotiateAlgorithms head offer => Sys2Proof.Machine.execSpdmNegotiateAlgorithms head offer s
  | .spdmGetDigests head => Sys2Proof.Machine.execSpdmGetDigests head s
  | .spdmGetCertificate head off len => Sys2Proof.Machine.execSpdmGetCertificate head off len s
  | .spdmChallenge head nonce => Sys2Proof.Machine.execSpdmChallenge head nonce s
  | .spdmGetMeasurements head nonce => Sys2Proof.Machine.execSpdmGetMeasurements head nonce s
  | .spdmKeyExchange head encapsKey => Sys2Proof.Machine.execSpdmKeyExchange head encapsKey s
  | .spdmFinish head verifyData => Sys2Proof.Machine.execSpdmFinish head verifyData s
  | .spdmEndSession head => Sys2Proof.Machine.execSpdmEndSession head s
  | .ideKmKeyProgram head stream key => Sys2Proof.Machine.execIdeKmKeyProgram head stream key s
  | .hostMemRead ld dpa len bi => Sys2Proof.Machine.execHostMemRead ld dpa len bi s
  | .hostMemWrite ld dpa data bi => Sys2Proof.Machine.execHostMemWrite ld dpa data bi s
  | .viewLoad ld dpa len => Sys2Proof.Machine.execViewLoad ld dpa len s
  | .viewWrite ld dpa len => Sys2Proof.Machine.execViewWrite ld dpa len s
  | .hdmDecoderCommit ld decoder base size ways bi => Sys2Proof.Machine.execHdmDecoderCommit ld decoder base size ways bi s
  | .biResponse ld line data => Sys2Proof.Machine.execBiResponse ld line data s
  | .biTimeout head line => Sys2Proof.Machine.execBiTimeout head line s
  | .cxlLinkDown head => Sys2Proof.Machine.execCxlLinkDown head s
  | .cxlLinkUp head mode => Sys2Proof.Machine.execCxlLinkUp head mode s
  | .cxlLaneFail head width lane => Sys2Proof.Machine.execCxlLaneFail head width lane s
  | .frameReceive port frame => Sys2Proof.Machine.execFrameReceive port frame s
  | .flueDataReceive port pkt => Sys2Proof.Machine.execFlueDataReceive port pkt s
  | .flueAckReceive port pkt => Sys2Proof.Machine.execFlueAckReceive port pkt s
  | .flueCloseReceive port pkt => Sys2Proof.Machine.execFlueCloseReceive port pkt s
  | .flueReadReceive port pkt => Sys2Proof.Machine.execFlueReadReceive port pkt s
  | .pfcReceive port prio pauseNs => Sys2Proof.Machine.execPfcReceive port prio pauseNs s
  | .mkaFrameReceive port ckn agreed => Sys2Proof.Machine.execMkaFrameReceive port ckn agreed s
  | .ackDelayExpiry conn msgSeq => Sys2Proof.Machine.execAckDelayExpiry conn msgSeq s
  | .linkReplay conn msgSeq pktIdx => Sys2Proof.Machine.execLinkReplay conn msgSeq pktIdx s
  | .messageTimeout conn msgSeq => Sys2Proof.Machine.execMessageTimeout conn msgSeq s
  | .egressFrameSend port => Sys2Proof.Machine.execEgressFrameSend port s
  | .policerRefill => Sys2Proof.Machine.execPolicerRefill s
  | .gateScheduleSwitch port => Sys2Proof.Machine.execGateScheduleSwitch port s
  | .gateEntryBoundary port => Sys2Proof.Machine.execGateEntryBoundary port s
  | .fluePortUp port phy => Sys2Proof.Machine.execFluePortUp port phy s
  | .fluePortDown port lane => Sys2Proof.Machine.execFluePortDown port lane s
  | .promotionIssue die => Sys2Proof.Machine.execPromotionIssue die s
  | .promotionComplete handle read authOk => Sys2Proof.Machine.execPromotionComplete handle read authOk s
  | .residencyBoundExpiry waiter handle => Sys2Proof.Machine.execResidencyBoundExpiry waiter handle s
  | .stageHoldExpiry handle => Sys2Proof.Machine.execStageHoldExpiry handle s
  | .backgroundReclaim die => Sys2Proof.Machine.execBackgroundReclaim die s
  | .demotionComplete handle => Sys2Proof.Machine.execDemotionComplete handle s
  | .tableDemote seq => Sys2Proof.Machine.execTableDemote seq s
  | .orphanSweepTick => Sys2Proof.Machine.execOrphanSweepTick s
  | .persistReinsert => Sys2Proof.Machine.execPersistReinsert s
  | .keySweepStep ctx => Sys2Proof.Machine.execKeySweepStep ctx s
  | .stackSweepStep die => Sys2Proof.Machine.execStackSweepStep die s
  | .coalRowProgrammed half ok channel => Sys2Proof.Machine.execCoalRowProgrammed half ok channel s
  | .gcReclaim half => Sys2Proof.Machine.execGcReclaim half s
  | .coalEraseDone half sb failed => Sys2Proof.Machine.execCoalEraseDone half sb failed s
  | .coalCheckpoint half => Sys2Proof.Machine.execCoalCheckpoint half s
  | .patrolRead half sb read weak => Sys2Proof.Machine.execPatrolRead half sb read weak s
  | .nandLunFail channel lun => Sys2Proof.Machine.execNandLunFail channel lun s
  | .coalReplayDone half => Sys2Proof.Machine.execCoalReplayDone half s
  | .coalFormatDone goodLuns => Sys2Proof.Machine.execCoalFormatDone goodLuns s
  | .coalChannelIdentify channel found => Sys2Proof.Machine.execCoalChannelIdentify channel found s
  | .gblWarmReset ld value => Sys2Proof.Machine.execGblWarmReset ld value s
  | .warmDone => Sys2Proof.Machine.execWarmDone s
  | .gblRestore ld value => Sys2Proof.Machine.execGblRestore ld value s
  | .gblColdReset ld value => Sys2Proof.Machine.execGblColdReset ld value s
  | .gblRlogClear ld value => Sys2Proof.Machine.execGblRlogClear ld value s
  | .gblFaultClear ld value => Sys2Proof.Machine.execGblFaultClear ld value s
  | .ringEnable ld ring value => Sys2Proof.Machine.execRingEnable ld ring value s
  | .ringDisable ld ring value => Sys2Proof.Machine.execRingDisable ld ring value s
  | .ringCqBaseMove ld ring value => Sys2Proof.Machine.execRingCqBaseMove ld ring value s
  | .domLookup ld cmd => Sys2Proof.Machine.execDomLookup ld cmd s
  | .domRead ld cmd => Sys2Proof.Machine.execDomRead ld cmd s
  | .domInsertAny ld cmd => Sys2Proof.Machine.execDomInsertAny ld cmd s
  | .domInsertAt ld cmd => Sys2Proof.Machine.execDomInsertAt ld cmd s
  | .domDelete ld cmd => Sys2Proof.Machine.execDomDelete ld cmd s
  | .domShiftMove bank => Sys2Proof.Machine.execDomShiftMove bank s
  | .coalEnSet ld value => Sys2Proof.Machine.execCoalEnSet ld value s
  | .coalEnClear ld value => Sys2Proof.Machine.execCoalEnClear ld value s
  | .coalFormat ld value => Sys2Proof.Machine.execCoalFormat ld value s
  | .coalChEnWrite ld value => Sys2Proof.Machine.execCoalChEnWrite ld value s
  | .fluConnRead ld cmd => Sys2Proof.Machine.execFluConnRead ld cmd s
  | .fluConnWrite ld cmd => Sys2Proof.Machine.execFluConnWrite ld cmd s
  | .fluConnOpen ld cmd => Sys2Proof.Machine.execFluConnOpen ld cmd s
  | .fluConnClose ld cmd => Sys2Proof.Machine.execFluConnClose ld cmd s
  | .fluCtlWrite ld value => Sys2Proof.Machine.execFluCtlWrite ld value s
  | .dmpPolRead ld cmd => Sys2Proof.Machine.execDmpPolRead ld cmd s
  | .dmpPolWrite ld cmd => Sys2Proof.Machine.execDmpPolWrite ld cmd s
  | .dmpPolRefill ld cmd => Sys2Proof.Machine.execDmpPolRefill ld cmd s
  | .dmpGateWriteEntry ld cmd => Sys2Proof.Machine.execDmpGateWriteEntry ld cmd s
  | .dmpGateReadEntry ld cmd => Sys2Proof.Machine.execDmpGateReadEntry ld cmd s
  | .dmpGateCommit ld cmd => Sys2Proof.Machine.execDmpGateCommit ld cmd s
  | .dmpGateDisable ld cmd => Sys2Proof.Machine.execDmpGateDisable ld cmd s
  | .cxpCtlWrite ld value => Sys2Proof.Machine.execCxpCtlWrite ld value s
  | .telClear ld value => Sys2Proof.Machine.execTelClear ld value s
  | .telClearAo ld value => Sys2Proof.Machine.execTelClearAo ld value s
  | .telTraceCtlWrite ld value => Sys2Proof.Machine.execTelTraceCtlWrite ld value s
  | .telUtilBusyRead ld die cls => Sys2Proof.Machine.execTelUtilBusyRead ld die cls s
  | .registerWrite ld off width value => Sys2Proof.Machine.execRegisterWrite ld off width value s
  | .tapSnapshot die cls beat n ctx => Sys2Proof.Machine.execTapSnapshot die cls beat n ctx s
  | .powerWarnAssert lowNs => Sys2Proof.Machine.execPowerWarnAssert lowNs s
  | .flushComplete => Sys2Proof.Machine.execFlushComplete s
  | .powerHoldExit => Sys2Proof.Machine.execPowerHoldExit s
  | .resetNAssert => Sys2Proof.Machine.execResetNAssert s
  | .coldReset cause => Sys2Proof.Machine.execColdReset cause s
  | .fwReady report => Sys2Proof.Machine.execFwReady report s
  | .perstAssert head lowNs => Sys2Proof.Machine.execPerstAssert head lowNs s
  | .fundamentalReset head => Sys2Proof.Machine.execFundamentalReset head s
  | .thermtrip die temp => Sys2Proof.Machine.execThermtrip die temp s
  | .supplyControlTick die temp rate => Sys2Proof.Machine.execSupplyControlTick die temp rate s
  | .thermalPauseSlot die temp => Sys2Proof.Machine.execThermalPauseSlot die temp s
  | .regulatorPoll die iout => Sys2Proof.Machine.execRegulatorPoll die iout s
  | .regulatorTimeout die => Sys2Proof.Machine.execRegulatorTimeout die s
  | .sensorPoll sensor value => Sys2Proof.Machine.execSensorPoll sensor value s
  | .sensorTimeout sensor => Sys2Proof.Machine.execSensorTimeout sensor s
  | .tempHistoryHour => Sys2Proof.Machine.execTempHistoryHour s
  | .trefLoss => Sys2Proof.Machine.execTrefLoss s
  | .trefReturn => Sys2Proof.Machine.execTrefReturn s
  | .refclkLoss clock => Sys2Proof.Machine.execRefclkLoss clock s
  | .watchdogExpiry => Sys2Proof.Machine.execWatchdogExpiry s
  | .fireboxFault die unit => Sys2Proof.Machine.execFireboxFault die unit s
  | .stokerFault die unit => Sys2Proof.Machine.execStokerFault die unit s
  | .journalBankFault die bank => Sys2Proof.Machine.execJournalBankFault die bank s
  | .hbmStackFault die stack => Sys2Proof.Machine.execHbmStackFault die stack s
  | .bridgeLaneFault dir lane => Sys2Proof.Machine.execBridgeLaneFault dir lane s
  | .secondFaultStop kind die unit => Sys2Proof.Machine.execSecondFaultStop kind die unit s
  | .recoveryWindowEnd kind die unit => Sys2Proof.Machine.execRecoveryWindowEnd kind die unit s
  | .engineReset die engine unit => Sys2Proof.Machine.execEngineReset die engine unit s
  | .powerLoss => Sys2Proof.Machine.execPowerLoss s
  | .pfcPauseExpiry port prio => Sys2Proof.Machine.execPfcPauseExpiry port prio s
  | .secureAssociationLoss port => Sys2Proof.Machine.execSecureAssociationLoss port s

end Machine
end Sys2Proof
end

