-- ==== Sys2Proof/Machine/Tick.lean ====
section
/-! DEFINITION. The passing of time while no command waits (log 2): the time base, the counters of time, and the work
that goes on by itself. -/

namespace Sys2Proof
namespace Machine

/-- R267: COAL_CNT_THROTTLE gains the nanosecond during which a half is THROTTLED. -/
def State.throttleTick (s : State) : State :=
  if s.throttled .west || s.throttled .east then s.count 0x03300140 else s

/-- R460, R464: the trace queue of a die moves on, unless the die pauses. -/
def State.traceTick (s : State) (d : Side) : State :=
  if (s.pkg.thermalPause.get d).isSome || s.gbl.warming || s.gbl.held || s.pkg.powerWarn then s
  else { s with tel := { s.tel with trace := s.tel.trace.set d ((s.tel.trace.get d).drain s.tel.wrap d s.now) } }

/-- R486, R491: the part's pool ALUs run unless a warning or a stop holds them. -/
def State.poolStep (s : State) : State := if s.pkg.powerWarn || s.gbl.powerHold || s.gbl.stopped then s else s.poolTick

/-- R15, R120, R402, R350, R352, R484: the time base advances by 1 ns; what runs by itself goes on by one piece (log 2). -/
def State.advanceTime (s : State) : State :=
  let s := (s.gateTick .west).gateTick .east
  let s := (({ s with now := s.now + 1 } : State).gateDue .west).gateDue .east
  let s := (((s.mirrorTick .west).mirrorTick .east).commandTick .west).commandTick .east
  let s := (s.traceTick .west).traceTick .east
  let s := (s.fillTick .west).fillTick .east
  let s := if s.running then (s.demotePersistent .west).demotePersistent .east else s
  ((((s.throttleTick).urgentCheck .west).urgentCheck .east).poolStep).closeWorn

/-- R431, R481: the time base runs from reset release on. -/
def State.tick (s : State) : State := if s.pkg.powered && s.pkg.resetHigh then s.advanceTime else s

end Machine
end Sys2Proof
end

