-- ==== Sys2Proof/Safety.lean ====
section
/-! DEFINITION. The terms that statements about the part use: a step that answers a next state, an instruction that may
issue now, how it completes, and what an instruction's completion leaves. -/

namespace Sys2Proof
namespace Machine

/-- The outcome is a next state. -/
def completes (o : Host.Outcome State Fault Refusal) : Prop := ∃ t, o = .next t

/-! ### An instruction that runs (R32-R44) -/

/-- R32-R44, R49: the record `r` at `a`, of an accepted instruction or of a fetched step, may issue now, its Stoker's turn is
its ring's, nothing ends it before its own checks, and no host holds a line of a shared region. -/
def Runs (a : At) (r : JRec) (s : State) : Prop :=
  s.rec? a = some r ∧ s.issuable r = true ∧ s.stokerRing (s.ring a.ring).stokerKey = some a.ring ∧
    s.preCheck (s.job r) = none ∧ s.tracked = []

/-- R34-R36: what a record's instruction is given when it issues from `s`. -/
def jobAt (s : State) (r : JRec) : Job := { s.job r with prev := none }

/-- R39-R42: the part when the record's instruction has issued: its own checks come next. -/
def issuedAt (s : State) (r : JRec) : State := s.issue r

/-- R32, R39-R42: the part when the record's instruction has issued, its checks have passed, and it has done nothing yet. -/
def begun (s : State) (r : JRec) : State := (issuedAt s r).keepSnap r.site {}

/-- R32: an instruction's own checks, made in the part as its issue leaves it, pass and take `k`, in the part as they leave it. -/
def Passes (check : Job → State → Chk) (s : State) (r : JRec) (k : Snap) (s0 : State) : Prop :=
  check (jobAt s r) (issuedAt s r) = .good k s0

/-- R32: the part when an instruction's checks have passed: what they took stands in its record. -/
def passed (s0 : State) (r : JRec) (k : Snap) : State := s0.keepSnap r.site k

/-- R32, R34-R36: what an instruction whose checks took `k` runs on. -/
def jobWith (s : State) (r : JRec) (k : Snap) : Job := { jobAt s r with snap := k }

/-- R38-R50: the instruction at `a` has completed with `d`. -/
def ended (s : State) (a : At) (d : Done) : State := (s.finish a d).markFree

/-- R46, R315: the instruction at `a` has begun to wait. -/
def waiting (s : State) (a : At) (w : Wait) : State := (settle a (.wait w s)).markFree

/-- R39: the instruction at `a`, issued before, its checks passed and not completed, goes on now: its engines run. -/
def GoesOn (a : At) (r : JRec) (s : State) : Prop :=
  s.rec? a = some r ∧ r.state = .issued ∧ r.wait.isSome = true ∧ listed r.inst.opcode r.step.isSome = true ∧
    s.diesRun (s.diesOf r) = true ∧ r.checked = true ∧ s.tracked = []

/-! ### What a completion leaves -/

/-- R38-R40: in `t` the DST of an instruction of ring `n`, unless v0, holds the result of its completion (zero and poison after a
failure), not PENDING. -/
def HoldsDst (t : State) (n dst : Nat) (st : Status) (res : BitVec 64) : Prop :=
  dst ≠ 0 → (t.ring n).val dst = (if Status.success st then res else 0) ∧ (t.ring n).isPending dst = false ∧
    (t.ring n).isPoison dst = !(Status.success st)

/-- R38-R40, R407: in `t` the record of the ring entry at `a` is DONE with a status and a result, and its DST holds the result.
(A completed step of an image has no record.) -/
def HoldsDone (t : State) (a : At) (dst : Nat) (st : Status) (res : BitVec 64) : Prop :=
  a.step = none →
    (∃ x, t.rec? a = some x ∧ x.state = .done ∧ x.status = st ∧ x.result = res) ∧ HoldsDst t a.ring dst st res

/-! ### Who may command (R274, R290, R291, R293, R296, R389, R404, R429, R432, R519) -/

/-- R290, R296, R429, R432: the mailbox of an LD takes a standard command now. -/
def State.takesStandard (s : State) (l : Ld) : Prop :=
  s.reachable = true ∧ s.gbl.fwReady = true ∧ s.ideMissing l.head = false

/-- R274, R291: it takes a vendor command of a MANAGER LD. -/
def State.takesVendor (s : State) (l : Ld) : Prop :=
  s.takesStandard l ∧ s.manager l = true ∧ s.gbl.held = false ∧ s.gbl.warming = false ∧ s.gbl.stopped = false

/-- R404, R519: it takes a vendor command about context c. -/
def State.takesVendorCtx (s : State) (l : Ld) (c : Nat) : Prop :=
  s.takesVendor l ∧ s.sec.lcs = .deployed ∧ c < 4096 ∧ (s.ctx c).state = .active

/-- R293: a head takes a command of the fabric manager now. -/
def State.takesFm (s : State) (h : Side) : Prop :=
  s.reachable = true ∧ (s.cxp.head.get h).up = true ∧ s.gbl.fwReady = true ∧ s.gbl.held = false ∧ s.gbl.warming = false ∧
    s.gbl.stopped = false

/-- R389, R404: a head's SPDM responder stands in a secure session and takes a request. -/
def State.takesSecure (s : State) (h : Side) : Prop := s.takesFm h ∧ (s.sec.spdm.get h).state = .session

/-- A command was answered with success, and nothing but the answer changed. -/
def Answered (s t : State) : Prop := t.resp.ret = .success ∧ { t with resp := s.resp } = s

/-- A vendor command was answered with a status, and nothing but the answer changed. -/
def Said (st : Status) (s t : State) : Prop := Answered s t ∧ t.resp.status = st

/-! ### What stays -/

/-- R189: every byte of memory reads as before. -/
def SameMemory (s t : State) : Prop := ∀ x, t.mem.byte x = s.mem.byte x

/-- R189: every byte of memory outside [lo, lo + n) reads as before. -/
def SameMemoryBut (lo n : Nat) (s t : State) : Prop := ∀ x, ¬(lo ≤ x ∧ x < lo + n) → t.mem.byte x = s.mem.byte x

/-- R189: every byte of context space reads as before. -/
def SameContextSpace (s t : State) : Prop := ∀ x, x < ctxSpaceEnd → t.mem.byte x = s.mem.byte x

/-! ### What every state of a run has -/

/-- R17, R38, R260, R491: every ring has its 64 registers; the core targets stand on the steps of 5 mV from 620 to 800; and media
that were ever formatted count retired blocks for each of a half's 16 channels. -/
def Shaped (s : State) : Prop :=
  (∀ n, (s.ring n).regs.length = 64) ∧
    (∀ d, 620 ≤ s.pkg.vtarget.get d ∧ s.pkg.vtarget.get d ≤ 800 ∧ s.pkg.vtarget.get d % 5 = 0) ∧
    (s.coal.media = true ∨ s.coal.formatted = true → ∀ d, (s.coal.half.get d).retired.length = 16)

end Machine
end Sys2Proof
end

