-- ==== Sys2Proof/Certificates/Slice0/Obligations.lean ====
section
/-! DEFINITION. The statements for the provers. -/

open Sys2Proof Sys2Proof.Machine

/-! ### The queue, reset, memory -/

/-- A step takes the command at the front of the queue and answers what exec answers on the rest. -/
def Obligations.StepRunsFrontCommand : Prop :=
  ∀ (c : Instr) (cs : List Instr) (s : State), s.pending = c :: cs → step s = exec c { s with pending := cs }

/-- The model's own choice (log 2): on an empty queue a step is one nanosecond of the time base, which runs from reset release on. -/
def Obligations.IdleStepAdvancesTime : Prop :=
  ∀ (s : State), s.pending = [] → s.pkg.powered = true → s.pkg.resetHigh = true →
    ∃ t, step s = .next t ∧ t.now = s.now + 1 ∧ t.pending = []

/-- What a cold reset leaves: the after-wipe values of chapters 4, 5, 7, 8, 9, 10, 11, 15 and 17, every table empty. -/
def Obligations.ResetLeavesAfterWipeValues : Prop :=
  State.reset.pending = [] ∧ State.reset.gbl.fwReady = false ∧ State.reset.gbl.held = false ∧
  State.reset.gbl.perstHead = .west ∧ State.reset.gbl.faultVec = 0 ∧ State.reset.gbl.fault = 0 ∧
  (∀ c, c < 64 → State.reset.weight c = if c < 4 then 0 else 1) ∧
  (∀ n, State.reset.ring n = ({} : Ring)) ∧ (∀ n, ¬(State.reset.ring n).en ∧ (State.reset.ring n).cls = 4 ∧
    (State.reset.ring n).reason = .disabled ∧ (State.reset.ring n).regs.length = 64) ∧
  (∀ c, (State.reset.ctx c).state = .free) ∧ State.reset.jrn.recs = [] ∧
  State.reset.dom.dirEn = false ∧ State.reset.dom.promoteHits = 2 ∧ State.reset.dom.persistLoaded = false ∧
  State.reset.fbxCtl = 0x000F_3F03 ∧ State.reset.drt.stageDepth = 8 ∧ State.reset.drt.pinLimit = 0x80 ∧
  State.reset.drt.boundUs = 200 ∧ State.reset.drt.lowFree = 16 ∧ State.reset.drt.highFree = 32 ∧
  State.reset.drt.holdUs = 10000 ∧ State.reset.coal.chEn = 0 ∧ State.reset.coal.en = false ∧
  State.reset.coal.ckptMs = 1000 ∧ State.reset.coal.tlimit = 80 ∧ State.reset.cxp.poolEn = false ∧
  State.reset.cxp.biTimeoutUs = 2000 ∧ State.reset.flu.flueEn = false ∧ State.reset.flu.msgTimeoutUs = 500 ∧
  State.reset.flu.closeAfter = 8 ∧ State.reset.flu.ackDelayUs = 1 ∧ State.reset.flu.encap = 0x0000_C000_4C54_88B5 ∧
  State.reset.flu.wpcp = 3 ∧ State.reset.dmp.overhead = 20 ∧ State.reset.dmp.ftdKib = 192 ∧
  State.reset.tel.globalEn = true ∧ State.reset.tel.partId = 0 ∧
  (∀ l : Ld, State.reset.manager l = (l.id == 0))

/-- Both invariants hold after reset: memory is in its canonical form (and reads zero everywhere, the model's choice, log 3),
and the state is Shaped. -/
def Obligations.ResetMeetsInvariants : Prop :=
  (State.reset.mem.wf = true ∧ ∀ a, State.reset.mem.byte a = 0) ∧ Shaped State.reset

/-- Every step keeps memory in its canonical form: addresses rising, no zero byte listed. -/
def Obligations.StepKeepsMemoryCanonical : Prop :=
  ∀ (s t : State), s.mem.wf = true → step s = .next t → t.mem.wf = true

/-- Every step keeps a state Shaped: 64 registers in every ring, core targets on their steps within 620 to 800 mV, and 16
channels in the counts of retired blocks of formatted media. -/
def Obligations.StepKeepsShape : Prop :=
  ∀ (s t : State), Shaped s → step s = .next t → Shaped t

/-- A write of the Hearth tier reads back byte for byte, changes no other byte, and keeps the canonical form. -/
def Obligations.WrittenBytesReadBack : Prop :=
  ∀ (s : State) (a : Nat) (bs : List Byte), s.mem.wf = true →
    (s.poke a bs).mem.wf = true ∧ (s.poke a bs).peek a bs.length = bs ∧ SameMemoryBut a bs.length s (s.poke a bs) ∧
    (s.poke a bs).mem.poison = s.mem.poison.filter (fun l => !(decide (a ≤ 64 * l) && decide (64 * l + 64 ≤ a + bs.length)))

/-! ### Rings -/

/-- DOORBELL_WRITE: an aligned 8-byte write through a MANAGER LD or one bound to the ring's context, whose PI and CQ_CI lie
in their ranges, becomes the part's record of both; nothing else changes. A doorbell write from an LD that is neither
MANAGER nor bound to the ring's context, of another size or unaligned, or with PI or CQ_CI out of range, or to a disabled
ring (one that drains takes a CQ_CI under its present PI), changes only DB_ERR of the ring and the count GBL_DB_ERR. -/
def Obligations.DoorbellDecides : Prop :=
  (∀ (ld : Ld) (n : Nat) (v : BitVec 64) (s : State), n < 65536 →
      (s.manager ld = true ∨ s.bound ld (s.ring n).ctx.toNat = true) →
      s.gbl.fwReady = true → s.gbl.held = false → s.gbl.warming = false → (s.ring n).en = true →
      ((s.ring n).cqPi - (v >>> 32).setWidth 32).toNat ≤ (s.ring n).cqSize.toNat →
      (v.setWidth 32 - (s.ring n).aidx).toNat ≤ (s.ring n).size.toNat →
      ∃ t, exec (.doorbellWrite ld (8 * n) 8 v) s = .next t ∧ (t.ring n).pi = v.setWidth 32 ∧
        (t.ring n).cqCi = (v >>> 32).setWidth 32 ∧ (t.ring n).aidx = (s.ring n).aidx ∧ (t.ring n).dbErr = (s.ring n).dbErr ∧
        (∀ m, m ≠ n → t.ring m = s.ring m) ∧ { t with rings := s.rings } = s) ∧
  (∀ (ld : Ld) (off size : Nat) (v : BitVec 64) (s : State), off / 8 < 65536 →
      ((s.manager ld = false ∧ s.bound ld (s.ring (off / 8)).ctx.toNat = false) ∨ size ≠ 8 ∨ off % 8 ≠ 0 ∨
        ((s.ring (off / 8)).en = true ∧
          ((s.ring (off / 8)).size.toNat < (v.setWidth 32 - (s.ring (off / 8)).aidx).toNat ∨
            (s.ring (off / 8)).cqSize.toNat < ((s.ring (off / 8)).cqPi - (v >>> 32).setWidth 32).toNat)) ∨
        ((s.ring (off / 8)).en = false ∧
          ((s.ring (off / 8)).draining = false ∨ v.setWidth 32 ≠ (s.ring (off / 8)).pi))) →
      exec (.doorbellWrite ld off size v) s =
        .next ((s.setRing (off / 8) { s.ring (off / 8) with dbErr := true }).count 0x38))

/-- PACKET_ACCEPT: the next packet, of whose entries no host owns a line, is accepted whole: a record for each entry at the
end of the journal, AIDX past the packet; memory and every other ring stay. PACKET_ACCEPT of a ring that is not enabled, is
halted, or whose context is not ACTIVE accepts nothing: AIDX stays and RING_STATUS gives the reason. -/
def Obligations.PacketDecides : Prop :=
  (∀ (n : Nat) (s : State) (slots : List Nat), (s.ring n).packet ≠ 0 → s.refuses (s.ring n) = none → s.running = true →
      s.roomFor (s.ring n) (s.ring n).packet = some slots → s.ownedEntries (s.ring n) (s.ring n).packet = [] →
      ∃ t, exec (.packetAccept n) s = .next t ∧
        (t.ring n).aidx = (s.ring n).aidx + BitVec.ofNat 32 (s.ring n).packet ∧
        t.jrn.recs.length = s.jrn.recs.length + (s.ring n).packet ∧ (∀ m, m ≠ n → t.ring m = s.ring m) ∧ t.mem = s.mem) ∧
  (∀ (n : Nat) (s : State) (why : Reason), (s.ring n).packet ≠ 0 → s.refuses (s.ring n) = some why →
      ∃ t, exec (.packetAccept n) s = .next t ∧ (t.ring n).aidx = (s.ring n).aidx ∧ (t.ring n).reason = why ∧
        { t with rings := s.rings } = s)

/-- COMPLETION_POST of an index record: CIDX passes the oldest record of the ring, whose journal slot is free again.
COMPLETION_POST of a full record whose line no host holds: its 32 bytes stand in the completion ring at CQ_PI, and CQ_PI and
CIDX advance. -/
def Obligations.CompletionPosted : Prop :=
  (∀ (n : Nat) (s : State) (r : JRec) (rs : List JRec), s.ringRecs n = r :: rs → r.state = .done → s.live = true →
      s.gbl.held = false → s.gbl.stopped = false → s.pkg.thermalPause.get (s.ring n).home = none →
      needsFull r.inst.c r.status (s.measure r).1 = false →
      ∃ t, exec (.completionPost n) s = .next t ∧ (t.ring n).cidx = (s.ring n).cidx + 1 ∧
        (t.ring n).cqPi = (s.ring n).cqPi ∧ t.mem = s.mem ∧
        (∀ x, x ∈ t.jrn.recs → ¬(x.ring = n ∧ x.index = r.index))) ∧
  (∀ (n : Nat) (s : State) (r : JRec) (rs : List JRec), s.mem.wf = true → s.ringRecs n = r :: rs → r.state = .done →
      s.live = true → s.gbl.held = false → s.gbl.stopped = false → s.pkg.thermalPause.get (s.ring n).home = none →
      needsFull r.inst.c r.status (s.measure r).1 = true →
      (s.ring n).cqLost = false → ((s.ring n).cqPi - (s.ring n).cqCi).toNat < (s.ring n).cqSize.toNat →
      let at_ := (s.ring n).cqBase.toNat + 32 * ((s.ring n).cqPi.toNat % Nat.max (s.ring n).cqSize.toNat 1)
      s.heldLines at_ 32 true = [] →
      let fl : BitVec 4 := if (s.measure r).1 then r.cflags ||| Fl.late else r.cflags
      ∃ t, exec (.completionPost n) s = .next t ∧ (t.ring n).cidx = (s.ring n).cidx + 1 ∧
        (t.ring n).cqPi = (s.ring n).cqPi + 1 ∧
        t.peek at_ 32 = fullRecord r.index r.status (flagsByte fl (phaseOf (s.ring n).cqPi.toNat (s.ring n).cqSize.toNat))
          (BitVec.ofNat 8 r.inst.opcode) r.layer r.inst.opid r.detail r.result r.time ∧
        SameMemoryBut at_ 32 s t ∧ (∀ x, x ∈ t.jrn.recs → ¬(x.ring = n ∧ x.index = r.index)))

/-- RING_ENABLE, R512: what a write that sets EN from 0 to 1 does, in the order of the rule. -/
def Obligations.RingEnableDecides : Prop :=
  ∀ (ld : Ld) (n : Nat) (v : BitVec 32) (s : State), s.ringWritable ld n = true → v.getLsbD 0 = true → (s.ring n).en = false →
    let g : Ring := { s.ring n with irqEn := v.getLsbD 1, home := sideOf (bits v.toNat 2 1) }
    ((s.ring n).draining = true → exec (.ringEnable ld n v) s = .next s) ∧
    ((s.ring n).draining = false → s.ringCfgOk g = false →
      ∃ t, exec (.ringEnable ld n v) s = .next t ∧ (t.ring n).en = false ∧ (t.ring n).reason = .cfgErr) ∧
    ((s.ring n).draining = false → s.ringCfgOk g = true → (s.ctx g.ctx.toNat).state ≠ .active →
      ∃ t, exec (.ringEnable ld n v) s = .next t ∧ (t.ring n).en = false ∧ (t.ring n).reason = .ctxNotActive) ∧
    ((s.ring n).draining = false → s.ringCfgOk g = true → (s.ctx g.ctx.toNat).state = .active →
      g.cls.toNat < 4 → g.booking = none →
      ∃ t, exec (.ringEnable ld n v) s = .next t ∧ (t.ring n).en = false ∧ (t.ring n).reason = .notAdmitted) ∧
    ((s.ring n).draining = false → s.ringCfgOk g = true → (s.ctx g.ctx.toNat).state = .active →
      (4 ≤ g.cls.toNat ∨ g.booking ≠ none) →
      ∃ t, exec (.ringEnable ld n v) s = .next t ∧ (t.ring n).en = true ∧ (t.ring n).reason = .none ∧
        (t.ring n).aidx = 0 ∧ (t.ring n).cidx = 0 ∧ (t.ring n).cqPi = 0 ∧ (t.ring n).pi = 0 ∧ (t.ring n).cqCi = 0 ∧
        (t.ring n).regs = List.replicate 64 {} ∧ (t.ring n).stoker = stokerOf (s.eng.get g.home).stokers n ∧
        (∀ m, m ≠ n → t.ring m = s.ring m) ∧ t.mem = s.mem)

/-- RING_DISABLE and RING_CQ_BASE_MOVE: clearing EN stops acceptance and drains; a new RING_CQ_BASE is taken while CQ_LOST
is set and clears it, unless the new array lies on a failed stack too. BOOKING_WINDOW_START: when the time base has entered
a later window of a booked ring, the window's number is that of the present time and no instruction of it has issued. -/
def Obligations.RingChangesWhileItRuns : Prop :=
  ((∀ (ld : Ld) (n : Nat) (v : BitVec 32) (s : State), s.ringWritable ld n = true → v.getLsbD 0 = false →
      (s.ring n).en = true → sideOf (bits v.toNat 2 1) = (s.ring n).home →
      ∃ t, exec (.ringDisable ld n v) s = .next t ∧ (t.ring n).en = false ∧ (t.ring n).reason = .disabled ∧
        (t.ring n).draining = ((s.ring n).cidx != (s.ring n).aidx) ∧ (t.ring n).skip = 0 ∧
        (t.ring n).aidx = (s.ring n).aidx ∧ (t.ring n).cidx = (s.ring n).cidx ∧ (t.ring n).cqPi = (s.ring n).cqPi ∧
        { t with rings := s.rings } = s) ∧
    (∀ (ld : Ld) (n : Nat) (v : BitVec 64) (s : State), s.ringWritable ld n = true →
      ((s.ring n).en = true ∨ (s.ring n).draining = true) → (s.ring n).cqLost = true →
      s.ringCfgOk { s.ring n with cqBase := v } = true →
      exec (.ringCqBaseMove ld n v) s = .next (s.setRing n { s.ring n with
          cqBase := v, cqLost := ({ s.ring n with cqBase := v } : Ring).cqOn s.mem.dead }))) ∧
  (∀ (n : Nat) (s : State) (b : Booking), (s.ring n).booking = some b → (s.ring n).en = true →
      (s.ring n).window < (s.now.toNat - (s.ring n).t0) / Nat.max (1000 * b.demand.period) 1 →
      exec (.bookingWindowStart n) s = .next (s.setRing n { s.ring n with
        window := (s.now.toNat - (s.ring n).t0) / Nat.max (1000 * b.demand.period) 1, issued := 0 }))

/-- R511: the registers of a ring window that a write leaves while EN or DRAINING is 1, and RING_CLASS of a booked ring. -/
def Obligations.RunningRingKeepsItsRegisters : Prop :=
  ∀ (ld : Ld) (n : Nat) (v : BitVec 64) (s : State), n < 65536 →
    (((s.ring n).en = true ∨ (s.ring n).draining = true) →
      exec (.registerWrite ld (0x1000000 + 64 * n + 0x04) 4 v) s = .next s ∧
      exec (.registerWrite ld (0x1000000 + 64 * n + 0x08) 8 v) s = .next s ∧
      exec (.registerWrite ld (0x1000000 + 64 * n + 0x18) 4 v) s = .next s ∧
      exec (.registerWrite ld (0x1000000 + 64 * n + 0x1C) 4 v) s = .next s ∧
      exec (.registerWrite ld (0x1000000 + 64 * n + 0x20) 4 v) s = .next s ∧
      ((s.ring n).cqLost = false → exec (.registerWrite ld (0x1000000 + 64 * n + 0x10) 8 v) s = .next s ∧
        exec (.ringCqBaseMove ld n v) s = .next s)) ∧
    ((s.ring n).booking ≠ none → exec (.registerWrite ld (0x1000000 + 64 * n + 0x20) 4 v) s = .next s)

/-! ### How an instruction completes; the control instructions -/

/-- R38-R40, R49, R61, R407: when the instruction of a ring entry completes, its record is DONE with its status and result, and
its DST holds the result, or after a failure zero and poison; a step of an image leaves the same in its DST and is counted by
its call, which goes on unless the step failed without CONTINUE; a step that fails so ends its call, whose CTL.CALL completes
with the step's status, its number and its DETAIL. -/
def Obligations.CompletionWritesRecordAndDst : Prop :=
  ∀ (s : State) (a : At) (r : JRec) (d : Done), s.rec? a = some r → d.keepDst = false → d.status ≠ St.skipped →
    d.flow = .next → (s.ring a.ring).regs.length = 64 →
    (a.step = none → r.state = .issued → r.uses = [] →
      HoldsDone (ended s a d) a r.inst.dst d.status d.result ∧
        (∀ m, m ≠ a.ring → (ended s a d).ring m = s.ring m) ∧ SameMemory s (ended s a d) ∧
        (∀ n, n ≠ r.inst.dst → ((ended s a d).ring a.ring).val n = (s.ring a.ring).val n)) ∧
    (∀ f fs, a.step ≠ none → (s.ring a.ring).calls = f :: fs →
      (f.stop = false → f.pc < (s.imageSteps f.image).length → Status.success d.status = true ∨ f.cont = true → r.uses = [] →
        HoldsDst (ended s a d) a.ring r.inst.dst d.status d.result ∧
          (∃ f', ((ended s a d).ring a.ring).calls = f' :: fs ∧ f'.executed = f.executed + 1 ∧ f'.stop = false) ∧
          (∀ m, m ≠ a.ring → (ended s a d).ring m = s.ring m) ∧ SameMemory s (ended s a d)) ∧
      (∀ c, fs = [] → f.cont = false → f.first = none → Status.success d.status = false → s.stepRecs a.ring = [r] →
        (s.ringRecs a.ring).find? JRec.entered = some c → c.step = none →
        ∃ x, (ended s a d).rec? c.site = some x ∧ x.state = .done ∧ x.status = d.status ∧
          x.detail = BitVec.ofNat 32 (r.pc * 2 ^ 20 + Nat.min d.detail 0xFFFFF)))

/-- R39, R407, R440: an instruction that issues is ISSUED in its record, makes its DST PENDING and counts in its ring's
window; it changes no byte of memory, no other ring, and no other register of its own. -/
def Obligations.IssueMakesDstPending : Prop :=
  ∀ (s : State) (a : At) (r : JRec), Runs a r s → (s.ring a.ring).regs.length = 64 →
    (∃ x, (begun s r).rec? a = some x ∧ x.state = .issued ∧ x.desc = r.desc) ∧
      (r.inst.dst ≠ 0 → ((begun s r).ring a.ring).isPending r.inst.dst = true) ∧
      ((begun s r).ring a.ring).issued = (s.ring a.ring).issued + 1 ∧
      (∀ m, m ≠ a.ring → (begun s r).ring m = s.ring m) ∧ (begun s r).mem = s.mem ∧
      (∀ n, n ≠ r.inst.dst → ((begun s r).ring a.ring).val n = (s.ring a.ring).val n)

/-- CTL.NOP, CTL.ADD, CTL.FENCE, CTL.WAIT whose event has reached its threshold, and CTL.SKIPIF that does not hold: each
completes with its result in DST and leaves memory as it was. -/
def Obligations.ControlResults : Prop :=
  ∀ (a : At) (r : JRec) (s : State), Runs a r s → (s.ring a.ring).regs.length = 64 →
    (r.inst.opcode = 0x00 → ∃ t, exec (.ctlNop a) s = .next t ∧ t = ended (begun s r) a {} ∧
      HoldsDone t a r.inst.dst St.ok 0 ∧ SameMemory s t) ∧
    (r.inst.opcode = 0x08 → ∃ t, exec (.ctlAdd a) s = .next t ∧
      t = ended (begun s r) a { result := (jobAt s r).w0 + (jobAt s r).w1 } ∧
      HoldsDone t a r.inst.dst St.ok ((jobAt s r).w0 + (jobAt s r).w1) ∧ SameMemory s t) ∧
    (r.inst.opcode = 0x01 → (r.inst.x0 = false ∨ (s.ring a.ring).failed = none) →
      ∃ t, exec (.ctlFence a) s = .next t ∧ HoldsDone t a r.inst.dst St.ok 0 ∧
        (a.step = none → (t.ring a.ring).failed = none) ∧ SameMemory s t) ∧
    (r.inst.opcode = 0x02 → (jobAt s r).w1 ≤ s.event (jobAt s r).ctx (bits (jobAt s r).w0.toNat 0 14) →
      ∃ t, exec (.ctlWait a) s = .next t ∧
        t = ended (begun s r) a { result := s.event (jobAt s r).ctx (bits (jobAt s r).w0.toNat 0 14) } ∧
        HoldsDone t a r.inst.dst St.ok (s.event (jobAt s r).ctx (bits (jobAt s r).w0.toNat 0 14)) ∧ SameMemory s t) ∧
    (r.inst.opcode = 0x04 → skipHolds (bits (jobAt s r).w2.toNat 0 3) (jobAt s r).w0 (jobAt s r).w1 = some false →
      bits (jobAt s r).w2.toNat 16 8 ≠ 0 →
      ∃ t, exec (.ctlSkipif a) s = .next t ∧ t = ended (begun s r) a {} ∧ HoldsDone t a r.inst.dst St.ok 0 ∧ SameMemory s t)

/-- R45: CTL.FENCE with HALT, as a ring entry, after a failure completes ST_RING_HALTED with the failed index in DETAIL, and the ring halts:
its accepted instructions complete ST_CANCELLED, and its next packet is refused. -/
def Obligations.FenceHaltsAfterFailure : Prop :=
  ∀ (a : At) (r : JRec) (s : State) (x : BitVec 32), Runs a r s → a.step = none → r.inst.opcode = 0x01 → r.inst.x0 = true →
    (s.ring a.ring).failed = some x →
    ∃ t, exec (.ctlFence a) s = .next t ∧ (t.ring a.ring).halted = true ∧ (t.ring a.ring).reason = .halted ∧
      (∃ y, t.rec? a = some y ∧ y.state = .done ∧ y.status = St.ringHalted ∧ y.detail = x) ∧
      (∀ y, y ∈ t.jrn.recs → y.ring = a.ring → y.state ≠ .accepted)

/-- R46, R47, R49, R53: CTL.SIGNAL sets or raises its event and completes with the new count; CTL.SKIPIF that holds skips;
CTL.CALL enters its image; a CTL.WAIT below its threshold waits, and past its timeout completes ST_TIMEOUT. R49, R53: the
steps of an image: CTL.LOOP counts its register down and goes back while it is not zero, or goes on; CTL.RET ends the call.
-/
def Obligations.ControlFlow : Prop :=
  (∀ (a : At) (r : JRec) (s : State),
      (Runs a r s → r.inst.opcode = 0x03 →
        let e := bits (jobAt s r).w0.toNat 0 14
        let v := if r.inst.x0 then (jobAt s r).w1 else (begun s r).event (jobAt s r).ctx e + (jobAt s r).w1
        exec (.ctlSignal a) s =
          .next (ended ((begun s r).signal (jobAt s r).ctx e (jobAt s r).w1 r.inst.x0) a { result := v })) ∧
      (Runs a r s → r.inst.opcode = 0x04 →
        skipHolds (bits (jobAt s r).w2.toNat 0 3) (jobAt s r).w0 (jobAt s r).w1 = some true →
        bits (jobAt s r).w2.toNat 16 8 ≠ 0 →
        exec (.ctlSkipif a) s =
          .next (ended (begun s r) a { result := 1, flow := .skip (bits (jobAt s r).w2.toNat 16 8) })) ∧
      (Runs a r s → r.inst.opcode = 0x06 → ∀ im : Image,
        s.images.look (bits (jobAt s r).w0.toNat 0 10) = some im → im.ctx = (jobAt s r).ctx → im.steps ≠ [] →
        (s.ring a.ring).calls.length < 4 →
        ∃ t f, exec (.ctlCall a) s = .next t ∧ (t.ring a.ring).calls = f :: (s.ring a.ring).calls ∧
          f.image = bits (jobAt s r).w0.toNat 0 10 ∧ f.cont = r.inst.x0 ∧ f.executed = 0 ∧ f.stop = false) ∧
      (Runs a r s → r.inst.opcode = 0x02 →
        ¬((jobAt s r).w1 ≤ (begun s r).event (jobAt s r).ctx (bits (jobAt s r).w0.toNat 0 14)) →
        exec (.ctlWait a) s = .next (waiting (begun s r) a (.event (bits (jobAt s r).w0.toNat 0 14) (jobAt s r).w1
          (if (jobAt s r).w2 = 0 then none else some ((begun s r).now.toNat + (jobAt s r).w2.toNat))))) ∧
      (∀ (e : Nat) (th : BitVec 64) (d : Nat), s.rec? a = some r → r.wait = some (.event e th (some d)) →
        r.state = .issued → d ≤ s.now.toNat → s.running = true → (s.ring a.ring).regs.length = 64 →
        ∃ t, exec (.ctlWaitTimeout a) s = .next t ∧ HoldsDone t a r.inst.dst St.timeout 0)) ∧
  (∀ (a : At) (r : JRec) (s : State), Runs a r s → r.step ≠ none →
      (r.inst.opcode = 0x05 → bits (jobAt s r).w0.toNat 0 12 < r.pc →
        exec (.ctlLoop a) s = .next (ended (begun s r) a
          (if ((begun s r).ring a.ring).val r.inst.dst = 0 then {}
           else { result := ((begun s r).ring a.ring).val r.inst.dst - 1
                  flow := .jump (bits (jobAt s r).w0.toNat 0 12) }))) ∧
      (r.inst.opcode = 0x07 → exec (.ctlRet a) s = .next (ended (begun s r) a { flow := .ret })))

/-- R32, R49: an opcode that the instruction tables do not list, or CTL.LOOP or CTL.RET as a ring entry, completes
ST_BAD_OPCODE without effect. R40: an instruction that reads a POISONED register completes ST_SOURCE_FAILED with the
register in DETAIL. -/
def Obligations.FailsBeforeItsChecks : Prop :=
  (∀ (a : At) (r : JRec) (s : State), s.rec? a = some r → s.issuable r = true →
      s.stokerRing (s.ring a.ring).stokerKey = some a.ring → listed r.inst.opcode r.step.isSome = false →
      (∀ n, n ∈ r.inst.reads → (s.ring a.ring).isPoison n = false) → (s.ring a.ring).regs.length = 64 →
      ∃ t, exec (.badOpcode a) s = .next t ∧ HoldsDone t a r.inst.dst St.badOpcode 0 ∧ SameMemory s t) ∧
  (∀ (a : At) (r : JRec) (s : State), s.rec? a = some r → s.issuable r = true →
      s.stokerRing (s.ring a.ring).stokerKey = some a.ring → r.inst.opcode = 0x08 →
      (∃ n, n ∈ r.inst.reads ∧ (s.ring a.ring).isPoison n = true) → (s.ring a.ring).regs.length = 64 →
      ∃ t, exec (.ctlAdd a) s = .next t ∧ HoldsDone t a r.inst.dst St.sourceFailed 0 ∧ SameMemory s t)

/-- R431, R434, R415, R486: while no engine runs (before FW_READY, HELD, stopped, in a power warning or a thermal pause of
both dies) no instruction issues or goes on: a command for one changes nothing. -/
def Obligations.NothingIssuesWhileStopped : Prop :=
  ∀ (a : At) (s : State), (∀ d, s.dieRuns d = false) →
    ∀ c ∈ [Instr.badOpcode a, .ctlNop a, .ctlFence a, .ctlWait a, .ctlSignal a, .ctlSkipif a, .ctlLoop a, .ctlCall a,
      .ctlRet a, .ctlAdd a, .seqCreate a, .seqDestroy a, .seqTrunc a, .seqHint a, .seqQuery a, .pageStage a, .pageSeal a,
      .pageFetch a, .kvAppend a, .pfxMatch a, .pfxPublish a, .pfxFork a, .pfxWithdraw a, .attDecode a, .attPrefill a,
      .attMerge a, .attBwd a, .winOpen a, .winAdvance a, .winClose a, .poolFill a, .poolCopy a, .poolCompare a,
      .poolReduce a, .flueSend a, .flueWait a, .chkSetup a, .chkFeed a, .chkSave a, .chkRestore a, .ctrStart a,
      .ctrStop a, .ctrSample a, .keyRegister a, .keyRevoke a], exec c s = .next s

/-! ### Sequences and pages -/

/-- SEQ.CREATE: an entry that was FREE, on the die that the home field and the room decide, becomes LIVE for the
instruction's context with its profile, its hints and empty layers; RESULT is its handle; no other sequence and no byte of
memory changes. SEQ.HINT whose checks pass changes the hints of the sequence it names by its mask and walks the layers it
covers; SEQ.QUERY answers the length of a layer, or with all layers the least, and changes no length and no memory.
SEQ.DESTROY and SEQ.TRUNC whose handle passes mark their sequence and wait until its last instruction has completed; what
destroys it then leaves its entry FREE with its generation; what truncates it leaves it LIVE with every layer at most L
long, and answers the largest. -/
def Obligations.SequencesServed : Prop :=
  (∀ (a : At) (r : JRec) (s : State) (slot : Nat) (d : Side), Runs a r s → r.inst.opcode = 0x10 →
      (s.ring a.ring).regs.length = 64 → s.profileSlot (bits (jobAt s r).w0.toNat 0 32) = some slot →
      bits (jobAt s r).w0.toNat 32 2 ≠ 3 → (jobAt s r).layerErr (s.profile slot).layers = none →
      s.seqDie (bits (jobAt s r).w0.toNat 32 2) (s.profile slot).layers = some d →
      ∃ t u k, exec (.seqCreate a) s = .next t ∧
        t = ended u a { result := BitVec.ofNat 64 (seqHandle k (nextGen k (s.seq k).gen)) } ∧
        (s.seq k).state = .free ∧ seqHome k = d ∧
        HoldsDone t a r.inst.dst St.ok (BitVec.ofNat 64 (seqHandle k (nextGen k (s.seq k).gen))) ∧
        (u.seq k).state = .live ∧ (u.seq k).gen = nextGen k (s.seq k).gen ∧ (u.seq k).ctx = (jobAt s r).ctx ∧
        (u.seq k).pslot = slot ∧ (u.seq k).hints = hintsOf (jobAt s r).w1.toNat ∧ (u.seq k).inflight = 0 ∧
        (u.seq k).layers = List.replicate (s.profile slot).layers
          { depth := if (s.profile slot).ring.isSome then 0 else 1 } ∧
        (∀ k', k' ≠ k → u.seq k' = s.seq k') ∧ (a.step = none → ∀ k', t.seq k' = u.seq k') ∧ SameMemory s t) ∧
  (∀ (a : At) (r : JRec) (s s0 : State) (n : Snap), Runs a r s →
      let j := jobWith s r n
      let k := seqKey j.w0.toNat
      let s1 := passed s0 r n
      (r.inst.opcode = 0x13 → Passes hintChk s r n s0 → hintsObj j = false →
        let m := hintsOf j.w1.toNat
        let s2 := s1.setSeq k { s1.seq k with hints := (s1.seq k).hints.change m r.inst.x0 }
        exec (.seqHint a) s = .next (ended
          ((j.layersOf (s1.seq k).layers.length).foldl (fun s l => s.hintLayer j.ctx k l m r.inst.x0) s2) a {})) ∧
      (r.inst.opcode = 0x13 → Passes hintChk s r n s0 → hintsObj j = true →
        exec (.seqHint a) s = .next (ended (s1.hintObj (bits j.w0.toNat 21 1 * 2048 + bits j.w0.toNat 0 11)
          (hintsOf j.w1.toNat) r.inst.x0) a {})) ∧
      (r.inst.opcode = 0x14 → Passes tablesChk s r n s0 → (s.ring a.ring).regs.length = 64 →
        ∃ t, exec (.seqQuery a) s = .next t ∧
          HoldsDone t a r.inst.dst St.ok
            (BitVec.ofNat 64 (if j.allLayers then s.minLen k else (s.layer k j.layer.toNat).length)) ∧
          (∀ k', (t.seq k').layers = (s.seq k').layers) ∧ SameMemory s t)) ∧
  (∀ (a : At) (r : JRec) (s : State) (k : Nat),
      (Runs a r s → r.inst.opcode = 0x11 → (issuedAt s r).badNamed (jobAt s r) (jobAt s r).w0 = none →
        k = seqKey (jobAt s r).w0.toNat →
        ∃ t, exec (.seqDestroy a) s = .next t ∧ (t.seq k).state = .destroying ∧ (t.seq k).layers = (s.seq k).layers ∧
          (∃ x, t.rec? a = some x ∧ x.state = .issued ∧ x.wait = some (.seqIdle k)) ∧ SameMemory s t) ∧
      (Runs a r s → r.inst.opcode = 0x12 → (issuedAt s r).badNamed (jobAt s r) (jobAt s r).w0 = none →
        k = seqKey (jobAt s r).w0.toNat →
        ∃ t, exec (.seqTrunc a) s = .next t ∧ (t.seq k).state = .truncating ∧ (t.seq k).layers = (s.seq k).layers ∧
          (∃ x, t.rec? a = some x ∧ x.state = .issued ∧ x.wait = some (.seqIdle k)) ∧ SameMemory s t) ∧
      (GoesOn a r s → r.inst.opcode = 0x11 → r.wait = some (.seqIdle k) → (s.seq k).state = .destroying →
        (s.seq k).inflight = 0 → (s.seq k).dirCold = false →
        exec (.seqDestroyRelease a) s = .next (ended (s.releaseSeq k) a {}) ∧ ((s.releaseSeq k).seq k).state = .free ∧
          ((s.releaseSeq k).seq k).gen = (s.seq k).gen ∧ ((s.releaseSeq k).seq k).layers = []) ∧
      (GoesOn a r s → r.inst.opcode = 0x12 → s.heldSeq (s.job r).ctx (s.job r).w0 = some k →
        (s.seq k).state = .truncating → (s.seq k).inflight = 0 → (s.seq k).dirCold = false →
        ∀ len, len = bits (s.job r).w1.toNat 0 32 →
        (∀ l, l < (s.seq k).layers.length → s.cutOf k l len = .nothing) →
        ∃ s1, exec (.seqTruncProceed a) s = .next (ended s1 a { result := BitVec.ofNat 64 (s1.maxLen k) }) ∧
          (s1.seq k).state = .live ∧ (∀ l, (s1.layer k l).length = Nat.min (s.layer k l).length len)))

/-- PAGE.STAGE that has just issued, its checks passed: it asks for every page of its ranges; where all are resident it
completes with the missing ranges and 0 promoted, and else it waits for those that are away; one that waited and finds all
resident completes with the number of pages that came. PAGE.SEAL seals the full open pages of each layer it covers and
answers how many. PAGE.FETCH whose pages are all resident and readable copies their frames one after the other and answers
the bytes. R90: a full open page of a layer is sealed: SEALED, its chain of R96 over its parent's (0 without token ids or
without a chain to build on), its mirror frame given back; a page that is not open or not full stays. -/
def Obligations.PagesServed : Prop :=
  ((∀ (a : At) (r : JRec) (s s0 : State) (n : Snap), Runs a r s →
      let j := jobWith s r n
      let s1 := passed s0 r n
      let k := seqKey j.w0.toNat
      (r.inst.opcode = 0x20 → Passes stageChk s r n s0 →
        let d := s1.desc j.w0.toNat
        let es := s1.entries j.w0.toNat d.count
        ∀ hits away ms s2, (es.foldl (fun s e => s.walked e.key) s1).stageWalk ((s1.stageSpans j).zip (n.lens.zip n.bases)) =
            (hits, away, ms, s2) →
        let s3 := (hits ++ away.eraseDups).foldl (fun s h => s.request h .staging 0) s2
        (away = [] → exec (.pageStage a) s = .next (ended (s3.writeMisses d.mrlist d.mrcap ms) a (missDone 0 d.mrlist d.mrcap ms))) ∧
        (away ≠ [] → exec (.pageStage a) s =
          .next (waiting ((s3.keepSnap a { n with asked := true }).setProgress a 0) a
            (.stage (s3.stageWaits none away.eraseDups))))) ∧
      (r.inst.opcode = 0x21 → Passes tablesChk s r n s0 →
        let c := (j.layersOf (s1.prof k).layers).foldl (fun (c : Nat × State) l =>
          let m := c.2.sealUpTo k l (pageRange (c.2.layer k l).basePg (pagesOf (c.2.layer k l).length))
          (c.1 + m.1, m.2)) (0, s1.walked k)
        exec (.pageSeal a) s = .next (ended c.2 a { result := BitVec.ofNat 64 c.1 }) ∧
          (∀ k' l, (c.2.layer k' l).length = (s.layer k' l).length)) ∧
      (r.inst.opcode = 0x22 → Passes fetchChk s r n s0 →
        let cnt := bits j.w1.toNat 32 32
        let size := (s1.prof k).frameKib * 1024
        let ls := j.layersOf (s1.prof k).layers
        ∀ fs s2, (s1.walked k).fetchWalk k (fetchList ls (bits j.w1.toNat 0 32) cnt) = (fs, [], [], s2) →
        (∀ f, f ∈ fs → s2.mem.readErr (viewBase f.2) size = none) →
        let s3 := (s2.fetchCopy j.w2.toNat size fs).hearthBytes j (2 * size * fs.length)
        exec (.pageFetch a) s = .next (ended s3 a
          (s3.stored j.w2.toNat (cnt * size * ls.length)
            { result := BitVec.ofNat 64 (fs.length * size) })))) ∧
    (∀ (a : At) (r : JRec) (s : State) (hs : List (Nat × Option Nat)), GoesOn a r s → r.inst.opcode = 0x20 → r.wait = some (.stage hs) →
      r.snap.asked = true →
      let j := s.job r
      let d := s.desc j.w0.toNat
      ∀ hits ms s2, ((s.entries j.w0.toNat d.count).foldl (fun s e => s.walked e.key) s).stageWalk
          ((s.stageSpans j).zip (r.snap.lens.zip r.snap.bases)) = (hits, [], ms, s2) →
      exec (.pageStage a) s = .next (ended (s2.writeMisses d.mrlist d.mrcap ms) a
        (missDone (if ms.isEmpty then r.result.toNat + ((hs.map Prod.fst).filter (fun h => hits.contains h)).length else 0)
          d.mrlist d.mrcap ms)))) ∧
  (∀ (s : State) (k l n h : Nat),
      ((s.page h).life ≠ .opened ∨ (s.page h).fill ≠ 16 → s.sealPage k l n h = s) ∧
      ((s.page h).life = .opened → (s.page h).fill = 16 →
        ((s.sealPage k l n h).page h).life = .sealed ∧ ((s.sealPage k l n h).page h).mirror = none ∧
        ((s.page h).noIds = true → ((s.sealPage k l n h).page h).chain = 0) ∧
        ((s.page h).noIds = false → ((s.sealPage k l n h).page h).chain = match s.parentChain k l n with
          | none => 0
          | some c => chainOf c (s.peek (viewBase h + 32) 64) (s.prof k).id l) ∧
        SameMemoryBut (viewBase h) 128 s (s.sealPage k l n h)))

/-- KV.APPEND whose checks hold, whose open pages stand and whose new pages find frames: every entry's rows are appended
layer by layer, RESULT is their number; each position appended raises LENGTH of its layer by one. -/
def Obligations.RowsAppended : Prop :=
  (∀ (a : At) (r : JRec) (s s0 : State) (n : Snap), Runs a r s → r.inst.opcode = 0x30 → Passes appendChk s r n s0 →
    let j := jobWith s r n
    let s1 := passed s0 r n
    let d := s1.desc j.w0.toNat
    let es := s1.entries j.w0.toNat d.count
    let s2 := es.foldl (fun s e => s.walked e.key) s1
    let p := match s2.profileSlot d.profile with
      | some sl => s2.profile sl
      | none => {}
    let stride := rowStride p r.inst.x1 (decide (d.qfmt = 1))
    let ls := s2.descLayers j d
    let all := appendList ls es j.w1.toNat stride
    (∀ e, e ∈ all → ∀ t, t < e.rows → s2.inputRow p (e.src + t * stride) r.inst.x1 (decide (d.qfmt = 1)) ≠ none) →
    (∀ e, e ∈ es → ∀ l, l ∈ ls → s2.openGone e.key l = false) →
    (s2.needs all [] [] = [] ∨ s2.overQuota j.ctx (s2.needs all [] []).length = false) →
    ∀ s3 got, State.allocNeeds (all.filterMap (fun e => s2.openPage e.seq e.layer)) (s2.needs all [] [])
        (s2.use j.site (all.filterMap (fun e => s2.openPage e.seq e.layer))) [] = (.ready s3, got) →
      s2.outgrown (all.foldl (fun s e => s.appendRows got e stride r.inst.x1 (decide (d.qfmt = 1)) r.inst.x0) s3) = false →
      exec (.kvAppend a) s = .next (ended
        ((all.foldl (fun s e => s.appendRows got e stride r.inst.x1 (decide (d.qfmt = 1)) r.inst.x0) s3).hearthBytes j
          (all.foldl (fun n e => n + e.rows * (stride + p.posBytes)) 0)) a
        { result := BitVec.ofNat 64 (all.foldl (fun n e => n + e.rows) 0) })) ∧
  (∀ (s : State) (got : List (Need × Nat)) (k l : Nat) (row : List Byte) (doSeal : Bool), l < (s.seq k).layers.length →
    ((s.appendPos got k l row doSeal).layer k l).length = (s.layer k l).length + 1 ∧
    (∀ k' l', (k', l') ≠ (k, l) → ((s.appendPos got k l row doSeal).layer k' l').length = (s.layer k' l').length))

/-! ### The prefix store, attention, windows -/

/-- PFX.MATCH whose checks pass: with DIR_EN clear nothing is matched. Else, its token array readable, the rows accepted are, in order,
entries that pass R108 for their tokens, each the child of the one before; their pages stand in the sequence's tables; every
layer is as long as the rows; RESULT is the positions matched. -/
def Obligations.PrefixMatched : Prop :=
  ∀ (a : At) (r : JRec) (s s0 : State) (y : Snap), Runs a r s → r.inst.opcode = 0x40 → Passes matchChk s r y s0 →
    let j := jobWith s r y
    let k := seqKey j.w0.toNat
    let n := bits j.w2.toNat 0 32
    let s1 := (passed s0 r y).setSeq k { (passed s0 r y).seq k with tokSrc := j.w1.toNat, tokCnt := n }
    (s.dom.dirEn = false → exec (.pfxMatch a) s = .next (ended s1 a {})) ∧
    (s.dom.dirEn = true → s.mem.readErr j.w1.toNat (64 * (s1.prof k).rowsFor n) = none →
      ∃ (is : List Nat) (t : State),
        exec (.pfxMatch a) s = .next (ended t a { result := BitVec.ofNat 64 (16 * is.length) }) ∧
        is.length ≤ (s1.prof k).rowsFor n ∧
        (∀ l, l < (s1.prof k).layers → l < (s1.seq k).layers.length → (t.layer k l).length = 16 * is.length) ∧ SameMemory s t ∧
        (∀ m, m < is.length →
          let e := s1.pfx (is.getD m 0)
          let before := if m = 0 then none else some (is.getD (m - 1) 0, (s1.pfx (is.getD (m - 1) 0)).gen)
          s1.passes j.ctx (bits j.w2.toNat 32 3) (s1.prof k).id before (s1.tokens16 (j.w1.toNat + 64 * m)) e = true ∧
          (∀ l, l < e.row.handles.length → l < (s1.seq k).layers.length →
            (t.pte k l m).v = true ∧ (t.pte k l m).handle = e.row.handles.getD l 0)))

/-- R104: a row inserted stands in a slot of its chain that was free, with its scope, PRIO, parent, tokens and pages, and
the publisher's context; each of its pages is published and has one reference more. PFX.PUBLISH, PFX.FORK and PFX.WITHDRAW
complete with their counts or their new sequence once their checks hold and their pages are resident; PFX.FORK, where the
tables of its die have room for its blocks. -/
def Obligations.PrefixRowsServed : Prop :=
  (∀ (s s' : State) (c pslot n i : Nat) (hs : List Nat) (p : Option (Nat × BitVec 16)) (scope : Scope) (prio : BitVec 8)
      (ts : List (BitVec 32)), s.insertRow c pslot n hs p scope prio ts = .done i s' →
      (s.pfx i).v = false ∧ i ∈ slotsOf (s.page (hs.headD 0)).chain ∧ (s'.pfx i).v = true ∧
      (s'.pfx i).chain = (s.page (hs.headD 0)).chain ∧ (s'.pfx i).scope = scope ∧ (s'.pfx i).prio = prio ∧
      (s'.pfx i).parent = p ∧ (s'.pfx i).row.tokens = ts ∧ (s'.pfx i).row.handles = hs ∧ (s'.pfx i).row.lpage = n ∧
      (s'.pfx i).vctx = c ∧ (s'.pfx i).withdrawing = false) ∧
  (∀ (a : At) (r : JRec) (s s0 : State) (y : Snap), Runs a r s →
      let j := jobWith s r y
      let k := seqKey j.w0.toNat
      let s1 := passed s0 r y
      (r.inst.opcode = 0x41 → Passes publishChk s r y s0 →
        ((s1.walked k).rowPages k 0 ((s1.walked k).prof k).layers = none →
          exec (.pfxPublish a) s = .next (ended (s1.walked k) a {})) ∧
        (∀ m t, State.publishRows j k (scopeOf (bits j.w1.toNat 0 2)) (BitVec.ofNat 8 (bits j.w1.toNat 8 8))
            (Nat.min (((s1.prof k).ring).getD (minOr 0 ((s1.seq k).layers.map (fun y => pagesOf y.length))))
              (minOr 0 ((s1.seq k).layers.map (fun y => pagesOf y.length)))) 0 none 0 (s1.walked k) = succeeds m t →
          exec (.pfxPublish a) s = .next (ended t a { result := BitVec.ofNat 64 m }))) ∧
      (r.inst.opcode = 0x42 → Passes forkChk s r y s0 →
        let len := s1.forkTokens j
        let fork : Seq := { s1.seq k with layers := (s1.seq k).layers.map (fun y => { y with
          length := Nat.min y.length len
          depth := if (s1.prof k).ring.isSome then 0 else depthFor (Nat.min y.length len) }) }
        s1.forkCuts k len = [] → s1.tablesUsed (seqHome k) + s1.tableKib fork ≤ tablePart →
        ∃ k' t, exec (.pfxFork a) s = .next (ended t a { result := BitVec.ofNat 64 (seqHandle k' (t.seq k').gen) }) ∧
          (s1.seq k').state = .free ∧ (t.seq k').state = .live ∧ (t.seq k').ctx = (s1.seq k).ctx ∧
          (t.seq k').pslot = (s1.seq k).pslot ∧ (t.seq k').hints = (s1.seq k).hints ∧
          (∀ l, l < (s1.seq k).layers.length → (t.layer k' l).length = Nat.min (s1.layer k l).length len) ∧
          (t.seq k).layers = (s1.seq k).layers ∧ SameMemory s t) ∧
      (r.inst.opcode = 0x43 → Passes tablesChk s r y s0 →
        let hs := ((s1.layer k 0).ptes.filter (fun e => e.2.v)).map (fun e => e.2.handle)
        let mine : PfxEntry → Bool := fun e => !e.nopub && e.vctx == j.ctx && hs.contains (e.row.handles.headD 0) &&
          e.row.handles.all (fun h => (s1.page h).ctx == j.ctx)
        exec (.pfxWithdraw a) s = .next (ended ((s1.walked k).withdrawAll mine).2 a
          { result := BitVec.ofNat 64 (s.dom.table.filter (fun p => p.2.v && mine p.2)).length })))

/-- ATT.DECODE whose checks pass and whose pages are resident and readable: the rows that the rules give, its missing
ranges, and how it completes. ATT.PREFILL, ATT.MERGE and ATT.BWD whose checks pass and whose pages are resident and
readable. -/
def Obligations.AttentionCompletes : Prop :=
  (∀ (a : At) (r : JRec) (s s0 : State) (n : Snap), Runs a r s → r.inst.opcode = 0x50 → Passes attDecodeChk s r n s0 →
      let j := jobWith s r n
      let s1 := passed s0 r n
      let d := s1.desc j.w0.toNat
      let p := s1.descProfile d
      ∀ xs ms s2, s1.attWalk j.layer.toNat n.hits (unitPages n.units)
          (s1.decodeEntries j d (fun i _ => n.lens.getD i 0)) = (xs, ms, s2) →
        (∀ x, x ∈ xs → x.fails = false → x.away = []) →
        (s2.keepHits j xs).mem.readErr j.w1.toNat (decodeInLen d p) = none → (s2.keepHits j xs).attBad p xs = none →
        decodeNan j d p (s2.keepHits j xs) = false →
        exec (.attDecode a) s = .next (ended (s1.decodeEnds j d xs ms (s2.keepHits j xs)).2 a
          (s1.decodeEnds j d xs ms (s2.keepHits j xs)).1)) ∧
  (∀ (a : At) (r : JRec) (s s0 : State) (n : Snap), Runs a r s →
      let j := jobWith s r n
      let s1 := passed s0 r n
      let d := s1.desc j.w0.toNat
      let p := s1.descProfile d
      let es := s1.queryBlocks j.w0.toNat d.lentab d.count
      let rows := rowTotal es
      (r.inst.opcode = 0x51 → Passes attPrefillChk s r n s0 →
        ∀ xs ms s2, s1.attWalk j.layer.toNat n.hits (s1.blockPages n.units (fun e => s1.segArray (prefillTab j d) e.i)) es =
            (xs, ms, s2) →
          (∀ x, x ∈ xs → x.fails = false → x.away = []) →
          (∀ b, b ∈ (j.w1.toNat, rowsLen p rows (d.qfmt = 1)) :: s1.segBufs (prefillTab j d) es →
            (s2.keepHits j xs).mem.readErr b.1 b.2 = none) → (s2.keepHits j xs).attBad p xs = none →
          prefillNan j d p rows (s2.keepHits j xs) = false →
          exec (.attPrefill a) s = .next ((settle a (stamped j d (prefillTab j d) rows p.qheads
            (.done (s1.prefillEnds j d rows xs ms (s2.keepHits j xs)).1
              (s1.prefillEnds j d rows xs ms (s2.keepHits j xs)).2))).markFree)) ∧
      (r.inst.opcode = 0x52 → Passes mergeChk s r n s0 →
        let m := s1.mergeDesc j.w0.toNat
        let fp32 := r.inst.x2 || decide (m.ofmt = 1)
        let out := (List.range (m.rows * m.qheads)).foldl (fun t i =>
          let x := (s1.mergeRow m i).merged r.inst.x2
          let t := t.poke (j.w2.toNat + i * m.hdim * eltSize fp32) (x.1.flatMap (outValue fp32))
          if r.inst.x2 || r.inst.x1 then t.poke (m.ostats + 8 * i) x.2.stat else t) s1
        let bytes := m.rows * m.qheads * (m.npart * (4 * m.hdim + 8) + m.hdim * eltSize fp32)
        exec (.attMerge a) s = .next (ended ((out.count 0x03000128 m.rows).hearthBytes j bytes) a
          (out.stored j.w2.toNat (m.rows * m.qheads * m.hdim * eltSize fp32) { result := BitVec.ofNat 64 m.rows }))) ∧
      (r.inst.opcode = 0x53 → Passes attBwdChk s r n s0 →
        let x := s1.aux d.aux
        ∀ xs ms s2, s1.attWalk j.layer.toNat n.hits (s1.blockPages n.units (fun e => s1.segArray x.segtab e.i)) es = (xs, ms, s2) →
          (∀ x, x ∈ xs → x.fails = false → x.away = []) →
          (∀ b, b ∈ bwdBufs j d p x rows ++ s1.segBufs x.segtab es → (s2.keepHits j xs).mem.readErr b.1 b.2 = none) →
          (s2.keepHits j xs).attBad p xs = none → bwdNan j d p x rows (s2.keepHits j xs) = false →
          exec (.attBwd a) s = .next (ended (s1.bwdEnds j d es xs ms (s2.keepHits j xs)).2 a
            (s1.bwdEnds j d es xs ms (s2.keepHits j xs)).1)))

/-- WIN.OPEN, WIN.ADVANCE and WIN.CLOSE of a context with the WEIGHTS right, and the sending of a window's next layer. -/
def Obligations.WindowsServed : Prop :=
  (∀ (a : At) (r : JRec) (s : State), Runs a r s → r.inst.opcode = 0x60 → (s.ring a.ring).regs.length = 64 →
    let j := jobAt s r
    let k := objKey j.w0
    let n := bits j.w1.toNat 0 15
    let l0 := if j.allLayers then 0 else j.layer.toNat
    s.checkObj (s.wobj k).ctx j.w0 8 = .ok k → (s.wobj k).ready = true → (s.wobj k).keyed = true →
    (s.ctx j.ctx).rights.getLsbD 4 = true → (s.wobj k).ctx = j.ctx → (s.conn n).ctx.toNat = j.ctx → (s.conn n).sealed = true →
    1 ≤ bits j.w1.toNat 16 8 → bits j.w1.toNat 16 8 ≤ 16 → l0 < (s.wobj k).lengths.length → j.w2.toNat % 64 = 0 →
    s.wins.length < 256 →
    ∃ t i, exec (.winOpen a) s = .next t ∧ s.wins.has i = false ∧ HoldsDone t a r.inst.dst St.ok (BitVec.ofNat 64 i) ∧
      t.wins.look i =
        some { obj := k, ctx := j.ctx, conn := n, depth := bits j.w1.toNat 16 8, base := j.w2, first := l0 }) ∧
  (∀ (a : At) (r : JRec) (s : State) (w : Win), Runs a r s → s.wins.look (jobAt s r).w0.toNat = some w →
    w.ctx = (jobAt s r).ctx → (s.ctx (jobAt s r).ctx).rights.getLsbD 4 = true →
    (r.inst.opcode = 0x61 → (s.ring a.ring).regs.length = 64 → w.selfClosed = false → w.closing = false →
      bits (jobAt s r).w1.toNat 0 16 ≤ w.acked - w.released →
      ∃ t, exec (.winAdvance a) s = .next t ∧ HoldsDone t a r.inst.dst St.ok (BitVec.ofNat 64 (s.winLayer w w.begun)) ∧
        t.wins.look (jobAt s r).w0.toNat =
          some { w with released := w.released + bits (jobAt s r).w1.toNat 0 16 } ∧ SameMemory s t) ∧
    (r.inst.opcode = 0x62 → (s.ring a.ring).regs.length = 64 →
      (w.selfClosed = false → w.msgs = [] → ∃ t, exec (.winClose a) s = .next t ∧ HoldsDone t a r.inst.dst St.ok 0 ∧
        t.wins.has (jobAt s r).w0.toNat = false ∧ SameMemory s t) ∧
      (w.selfClosed = false → w.msgs ≠ [] → ∃ t, exec (.winClose a) s = .next t ∧
        t.wins.look (jobAt s r).w0.toNat = some { w with closing := true } ∧ SameMemory s t) ∧
      (w.selfClosed = true → ∃ t, exec (.winClose a) s = .next t ∧ HoldsDone t a r.inst.dst St.window 0 ∧
        t.wins.has (jobAt s r).w0.toNat = false ∧ SameMemory s t))) ∧
  (∀ (i : Nat) (w : Win) (s : State), s.wins.look i = some w → w.selfClosed = false → w.closing = false →
    (s.conn w.conn).state = .opened → (s.conn w.conn).sealed = true → w.begun - w.released < w.depth →
    (s.wobj w.obj).live = true →
    (s.conn w.conn).tx.length + (layerMsgs ((s.wobj w.obj).lengths.getD (s.winLayer w w.begun) 0)).length ≤ 256 →
    let hs := s.chunks w.obj (s.winLayer w w.begun)
    let s1 := hs.foldl State.stackTreat s
    s1.running = true → (∀ h, h ∈ hs → (s1.page h).resident = true ∧ (s1.page h).life ≠ .lost) →
    exec (.winLayerSend i) s = .next (s1.winSend i w))

/-! ### Pool operations, check units, counters, keys -/

/-- POOL.FILL of readable, aligned operands: every byte of the destination holds its byte of the pattern, every other byte
stays. POOL.FILL, POOL.COPY, POOL.COMPARE and POOL.REDUCE whose operands pass: every line of the operands in ascending
order, and how the operation completes (R58, R287-R289). -/
def Obligations.PoolOperations : Prop :=
  (∀ (a : At) (r : JRec) (s : State), s.mem.wf = true → Runs a r s → r.inst.opcode = 0x70 →
      let j := jobAt s r
      (begun s r).badPool j.ctx (PoolOp.of 0x70 j.w0 j.w1 j.w2) = none →
      ∃ t, exec (.poolFill a) s = .next t ∧
        (∀ i, i < j.w1.toNat → t.mem.byte (j.w0.toNat + i) = BitVec.ofNat 8 (j.w2.toNat >>> (8 * (i % 8)))) ∧
        SameMemoryBut j.w0.toNat j.w1.toNat s t) ∧
  (∀ (a : At) (r : JRec) (s : State), Runs a r s →
      let j := jobAt s r
      let s1 := begun s r
      ∀ op, r.inst.opcode = op →
      let o := PoolOp.of op j.w0 j.w1 j.w2
      s1.badPool j.ctx o = none → s1.poolErr o = none →
      (op = 0x70 → exec (.poolFill a) s = .next (ended ((s1.poolAll o).hearthBytes j (o.moves o.len)) a (s1.poolDone o))) ∧
      (op = 0x71 → exec (.poolCopy a) s = .next (ended ((s1.poolAll o).hearthBytes j (o.moves o.len)) a (s1.poolDone o))) ∧
      (op = 0x72 → exec (.poolCompare a) s = .next (ended ((s1.poolAll o).hearthBytes j (o.moves o.len)) a (s1.poolDone o)) ∧
        SameMemory s (ended ((s1.poolAll o).hearthBytes j (o.moves o.len)) a (s1.poolDone o))) ∧
      (op = 0x73 → exec (.poolReduce a) s = .next (ended ((s1.poolAll o).hearthBytes j (o.moves o.len)) a (s1.poolDone o))))

/-- CHK.SETUP, CHK.SAVE, CHK.RESTORE and CHK.FEED of a unit that the context holds: the unit set as the block says, its
register saved, restored, or fed the source's bytes. R361: CHK.FEED with an alive value that is not the expected one
completes ST_ALIVE_MISMATCH with the value in DETAIL, takes the next value as expected and leaves the register. -/
def Obligations.CheckUnitsServe : Prop :=
  (∀ (a : At) (r : JRec) (s : State), Runs a r s → (s.ring a.ring).regs.length = 64 →
      let j := jobAt s r
      let u := bits j.w0.toNat 0 6
      let x := s.chk.lookD u {}
      (s.ctx j.ctx).chkMask.getLsbD u = true →
      (r.inst.opcode = 0x90 → (begun s r).rng j.ctx j.w1.toNat 64 1 = none → s.mem.readErr j.w1.toNat 64 = none →
        s.unitReserved j.w1.toNat = none → (s.unitBlock j.w1.toNat).bad = false →
        ∃ t, exec (.chkSetup a) s = .next t ∧ HoldsDone t a r.inst.dst St.ok 0 ∧
          t.chk.look u = some (s.unitBlock j.w1.toNat) ∧ (∀ v, v < 64 → v ≠ u → t.chk.look v = s.chk.look v) ∧ SameMemory s t) ∧
      (r.inst.opcode = 0x92 → s.chk.has u = true →
        ∃ t, exec (.chkSave a) s = .next t ∧ HoldsDone t a r.inst.dst St.ok (BitVec.ofNat 64 x.running.toNat) ∧
          (∀ v, v < 64 → t.chk.look v = s.chk.look v) ∧ SameMemory s t) ∧
      (r.inst.opcode = 0x93 → s.chk.has u = true → j.w1.toNat < 2 ^ x.width →
        ∃ t, exec (.chkRestore a) s = .next t ∧ HoldsDone t a r.inst.dst St.ok 0 ∧
          t.chk.look u = some { x with running := j.w1 } ∧ (∀ v, v < 64 → v ≠ u → t.chk.look v = s.chk.look v) ∧ SameMemory s t) ∧
      (r.inst.opcode = 0x91 → s.chk.has u = true → r.inst.x0 = false →
        let w := 2 ^ bits j.w0.toNat 8 2
        let n := bits j.w2.toNat 0 32
        bits j.w0.toNat 8 2 ≠ 3 → n ≠ 0 → n % w = 0 → (begun s r).checkRange j.ctx j.w1.toNat n w false = none →
        s.mem.readErr j.w1.toNat n = none →
        let run := (feedOrder x.refIn w (s.peek j.w1.toNat n)).foldl (unitStep x) x.running.toNat
        let y := { x with running := BitVec.ofNat 64 run }
        ∃ t, exec (.chkFeed a) s = .next t ∧ HoldsDone t a r.inst.dst St.ok (BitVec.ofNat 64 y.value) ∧
          t.chk.look u = some y ∧ (∀ v, v < 64 → v ≠ u → t.chk.look v = s.chk.look v) ∧ SameMemory s t)) ∧
  (∀ (a : At) (r : JRec) (s : State), Runs a r s → (s.ring a.ring).regs.length = 64 → r.inst.opcode = 0x91 → r.inst.x0 = true →
      let j := jobAt s r
      let u := bits j.w0.toNat 0 6
      let x := s.chk.lookD u {}
      let w := 2 ^ bits j.w0.toNat 8 2
      let n := bits j.w2.toNat 0 32
      let v := bits j.w2.toNat 48 16
      (s.ctx j.ctx).chkMask.getLsbD u = true → s.chk.has u = true → bits j.w0.toNat 8 2 ≠ 3 → n ≠ 0 → n % w = 0 →
      (begun s r).checkRange j.ctx j.w1.toNat n w false = none → x.aliveW ≠ 0 → v < 2 ^ x.aliveW → v ≠ x.aliveNext →
      ∃ t, exec (.chkFeed a) s = .next t ∧ HoldsDone t a r.inst.dst St.aliveMismatch 0 ∧
        (a.step = none → ∃ y, t.rec? a = some y ∧ y.detail = BitVec.ofNat 32 v) ∧
        t.chk.look u = some { x with aliveNext := (v + 1) % 2 ^ x.aliveW } ∧ SameMemory s t)

/-- CTR.START, CTR.STOP and CTR.SAMPLE: a counter starts from zero with its selector; stops, answering its value; its value
and its interval id are stored in sixteen bytes. -/
def Obligations.CountersServe : Prop :=
  ∀ (a : At) (r : JRec) (s : State), Runs a r s → (s.ring a.ring).regs.length = 64 →
    let j := jobAt s r
    let n := bits j.w0.toNat 0 16
    n ≤ 255 →
    (r.inst.opcode = 0xA0 → badSelector j.w1.toNat = false →
      (bitOf j.w1.toNat 12 = false ∨ (s.ring (bits j.w1.toNat 16 16)).ctx.toNat = j.ctx) →
      ∃ t s2, exec (.ctrStart a) s = .next t ∧ t = ended s2 a {} ∧
        ((s2.ctx j.ctx).counters.lookD n {}).selector = j.w1 ∧ ((s2.ctx j.ctx).counters.lookD n {}).value = 0 ∧
        ((s2.ctx j.ctx).counters.lookD n {}).running = true ∧
        ((s2.ctx j.ctx).counters.lookD n {}).resetAtStart = r.inst.x0 ∧ SameMemory s t) ∧
    (r.inst.opcode = 0xA1 → ∃ t, exec (.ctrStop a) s = .next t ∧
      HoldsDone t a r.inst.dst St.ok (((begun s r).ctx j.ctx).counters.lookD n {}).value ∧
      ((t.ctx j.ctx).counters.lookD n {}).running = false ∧ SameMemory s t) ∧
    (r.inst.opcode = 0xA2 → (begun s r).rngUp j.ctx j.w1.toNat 16 1 = none →
      let vi := ((((begun s r).ctx j.ctx).counters.lookD n {}).sampleAt s.now.toNat)
      let u := passed (issuedAt s r) r { sample := vi }
      exec (.ctrSample a) s = .next (ended (u.poke j.w1.toNat (leBytes 8 vi.1.toNat ++ leBytes 8 vi.2.toNat)) a
        (u.stored j.w1.toNat 16 { result := vi.1 })))

/-- KEY.REGISTER gives a key that the context has never had, in a free registration with its range and rights; KEY.REVOKE
marks it and waits; KEY_REVOKE_DONE frees it once nothing of it is in flight. -/
def Obligations.KeysServe : Prop :=
  (∀ (a : At) (r : JRec) (s : State) (aw ae : Nat), Runs a r s → r.inst.opcode = 0xB0 → (s.ring a.ring).regs.length = 64 →
    let j := jobAt s r
    (begun s r).rng j.ctx j.w0.toNat (bits j.w1.toNat 0 48) 0 = none → (begun s r).keySlot .west = some aw →
    (begun s r).keySlot .east = some ae → s.flu.keys.lowFree < 4096 →
    ∃ t k i x, exec (.keyRegister a) s = .next t ∧ HoldsDone t a r.inst.dst St.ok (BitVec.ofNat 64 k) ∧ k ≠ 0 ∧
      k ∉ (s.ctx j.ctx).issuedKeys ∧ s.flu.keys.look i = none ∧ t.flu.keys.look i = some x ∧
      x.rkey = BitVec.ofNat 32 k ∧ x.ctx = j.ctx ∧ x.base = j.w0.toNat ∧ x.len = bits j.w1.toNat 0 48 ∧
      x.read = bitOf j.w1.toNat 48 ∧ x.write = bitOf j.w1.toNat 49 ∧ x.revoking = false ∧ x.inflight = 0 ∧
      (∀ i', i' ≠ i → t.flu.keys.look i' = s.flu.keys.look i') ∧ SameMemory s t) ∧
  (∀ (a : At) (r : JRec) (s : State) (i : Nat), Runs a r s → r.inst.opcode = 0xB1 →
    s.keyOf (jobAt s r).ctx (bits (jobAt s r).w0.toNat 0 32) = some i →
    exec (.keyRevoke a) s = .next (waiting ((begun s r).startRevoke i) a (.revoke i))) ∧
  (∀ (a : At) (r : JRec) (s : State) (i : Nat), GoesOn a r s → r.inst.opcode = 0xB1 → r.wait = some (.revoke i) →
    (s.ring a.ring).regs.length = 64 → r.uses = [] → (s.flu.keys.lookD i {}).inflight = 0 →
    ∃ t, exec (.keyRevokeDone a) s = .next t ∧ HoldsDone t a r.inst.dst St.ok 0 ∧ t.flu.keys.look i = none ∧
      SameMemory s t)

/-! ### The Flue transport and the Damper unit -/

/-- FLUE.SEND of a readable source on an open connection of the context with fewer than 256 messages outstanding: a message
with the connection's next sequence number begins, and the instruction waits for its acknowledgement. FLUE.WAIT completes
with RX_DONE once that has reached its threshold, else waits, and past its timeout completes ST_TIMEOUT. -/
def Obligations.FlueSendsAndWaits : Prop :=
  (∀ (a : At) (r : JRec) (s : State), Runs a r s → r.inst.opcode = 0x80 →
    let j := jobAt s r
    let n := bits j.w1.toNat 49 15
    let src := bits j.w1.toNat 0 49
    let len := bits j.w2.toNat 0 27
    1 ≤ len → len ≤ 67108864 → (s.conn n).ctx.toNat = j.ctx → (s.conn n).state = .opened →
    (begun s r).rng j.ctx src len 1 1 = none → s.mem.readErr src len = none → (s.conn n).tx.length < 256 →
    let m : TxMsg := { data := s.peek src len, raddr := j.w0, rkey := BitVec.ofNat 32 (bits j.w2.toNat 32 32)
                       final := r.inst.x0 }
    ((begun s r).beginMsg n m).1 = (s.conn n).txSeq.toNat ∧
    exec (.flueSend a) s = .next (waiting ((begun s r).beginMsg n m).2 a (.sent n (s.conn n).txSeq.toNat))) ∧
  (∀ (a : At) (r : JRec) (s : State), Runs a r s → r.inst.opcode = 0x81 →
    let j := jobAt s r
    let n := bits j.w0.toNat 0 15
    let v : BitVec 64 := (s.conn n).rxDone.setWidth 64
    (s.conn n).ctx.toNat = j.ctx → (s.conn n).state = .opened →
    (j.w1 ≤ v → (s.ring a.ring).regs.length = 64 →
      ∃ t, exec (.flueWait a) s = .next t ∧ HoldsDone t a r.inst.dst St.ok v ∧ SameMemory s t) ∧
    (¬ j.w1 ≤ v → exec (.flueWait a) s = .next (waiting (begun s r) a (.inbound n j.w1
      (if j.w2 = 0 then none else some (s.now.toNat + j.w2.toNat)))))) ∧
  (∀ (a : At) (r : JRec) (s : State) (n d : Nat) (th : BitVec 64), s.rec? a = some r →
    r.wait = some (.inbound n th (some d)) → r.state = .issued → d ≤ s.now.toNat → s.running = true →
    (s.ring a.ring).regs.length = 64 →
    ∃ t, exec (.flueWaitTimeout a) s = .next t ∧ HoldsDone t a r.inst.dst St.timeout 0)

/-- R303, R310, R314, R316, R331, R437: a Flue packet that fails a check is dropped and counted: one while FLUE_EN is clear,
one that MACsec does not pass, a malformed one (with the credit it may owe), one whose seal does not match, one whose alive
count does not match. R313, R316-R320, R332: a Flue packet that passes every check: DATA is accepted, ACK COMPLETE ends its
message, CLOSE closes its connection, READ is accepted, its answer to begin once it may. -/
def Obligations.FluePacketsDecided : Prop :=
  ((∀ (p : Side) (k : Packet) (s : State), frameFits k.frameLen = true →
      ((s.flu.port.get p).up = true → s.flu.flueEn = false → exec (.flueDataReceive p k) s = .next (s.count 0x03500248)) ∧
      (s.portCarries p = true → k.type = 1 → s.macsecIn p k.sec = none →
        exec (.flueDataReceive p k) s = .next (s.count 0x03500250))) ∧
    (∀ (p : Side) (k : Packet) (s s0 : State), s.portCarries p = true → frameFits k.frameLen = true → s.macsecIn p k.sec = some s0 →
      let n := bits k.conn.toNat 0 15
      let s1 := if k.ce then s0.count 0x03500258 else s0
      (k.type = 1 → malformed k = true ∨ typeOk k = false → exec (.flueDataReceive p k) s = .next (s1.malformedCredit k)) ∧
      (k.type = 2 → malformed k = false → typeOk k = true → (s.conn n).state = .opened → (s.conn n).fromPeer k = true →
        (pktSealed k ≠ (s.conn n).sealed ∨ ((s.conn n).sealed = true ∧ k.sealOk = false) →
          exec (.flueAckReceive p k) s = .next (s1.count 0x03500230)) ∧
        (pktSealed k = (s.conn n).sealed → ((s.conn n).sealed = false ∨ k.sealOk = true) → k.alive ≠ (s.conn n).peerAlive →
          exec (.flueAckReceive p k) s = .next (s1.count 0x03500228))))) ∧
  (∀ (p : Side) (k : Packet) (s s0 : State), s.portCarries p = true → frameFits k.frameLen = true → s.macsecIn p k.sec = some s0 →
      malformed k = false → typeOk k = true →
      let n := bits k.conn.toNat 0 15
      let q := k.msgSeq.toNat
      let sc := if k.ce then s0.count 0x03500258 else s0
      let from_ : State → State := fun s => s.setConn n { s.conn n with lastPort := p }
      let auth : State → Prop := fun s => (s.conn n).state = .opened ∧ (s.conn n).fromPeer k = true ∧
        pktSealed k = (s.conn n).sealed ∧ ((s.conn n).sealed = false ∨ k.sealOk = true) ∧ k.alive = (s.conn n).peerAlive
      (k.type = 1 → (s.conn n).state = .opened → ∀ cls s1 i, sc.ingress p n k = (some cls, s1) → auth s1 →
        let s2 := from_ s1
        (s2.conn n).isDone q = false → (∀ m, s2.rx? n q = some m → k.pktIdx.toNat ∉ m.arrived) → s2.shapeOk n k = true →
        s2.keyCheck p n k.rkey k.raddr.toNat k.payload.length false = .ok i →
        exec (.flueDataReceive p k) s = .next (s2.acceptData p n cls i k)) ∧
      (k.type = 2 → auth s → ofBytes ((k.payload.drop 8).take 1) = 1 →
        ∀ m, ((from_ sc).ackProgress n k).tx? n q = some m → m.next ≠ 0 →
        exec (.flueAckReceive p k) s =
          .next ((((from_ sc).ackProgress n k).endTx n q { result := BitVec.ofNat 64 q }).pumpConn n)) ∧
      (k.type = 3 → auth s → ∃ t, exec (.flueCloseReceive p k) s = .next t ∧ t = (from_ sc).closeConn n none ∧
        (t.conn n).state ≠ .opened ∧ (t.conn n).tx = [] ∧ (t.conn n).rx = [] ∧
        ((∀ d f, f ∈ (s.flu.port.get d).queue → f.closes n = false) → (t.conn n).state = .closed ∧ (t.conn n).keyed = none)) ∧
      (k.type = 4 → (s.conn n).state = .opened → ∀ cls s1 i, sc.ingress p n k = (some cls, s1) → auth s1 →
        let s2 := from_ s1
        (s2.conn n).isDone q = false → s2.rx? n q = none → 1 ≤ readLen k → readLen k ≤ 67108864 →
        (k.msgSeq - (s2.conn n).rxCum).toNat < 256 → s2.flu.readEn = true →
        s2.keyCheck p n k.rkey k.raddr.toNat (readLen k) true = .ok i →
        exec (.flueReadReceive p k) s = .next (s2.acceptRead n i k)))

/-- R303, R305, R322, R331: what a port does with other frames: one of a length that is not received does nothing; one that is neither
Flue, PFC nor key agreement is counted, whether or not MACsec passes it; PFC pauses a priority until its time runs out; MACsec key
agreement under the port's CAK makes a new secure association live, its packet numbers from 1, while none is; its loss ends it. -/
def Obligations.PortFramesTaken : Prop :=
  ∀ (p : Side) (s : State), (s.flu.port.get p).up = true →
    (∀ f : EthFrame, frameFits f.len = false → exec (.frameReceive p f) s = .next s) ∧
    (∀ f : EthFrame, frameFits f.len = true → f.fecBad = false → f.pfc = false → f.mka = false → f.udp = none →
      f.etherType.toNat ≠ bits s.flu.encap.toNat 0 16 →
      exec (.frameReceive p f) s = .next (((s.macsecIn p f.sec).getD s).count 0x03500250)) ∧
    (∀ prio ns, s.flu.pfcEn.getLsbD prio = true → 0 < ns → ∃ t, exec (.pfcReceive p prio ns) s = .next t ∧
      (t.flu.port.get p).paused.look prio = some (s.now.toNat + ns) ∧ { t with flu := s.flu } = s) ∧
    (∀ prio, s.flu.pfcEn.getLsbD prio = true → ∃ t, exec (.pfcReceive p prio 0) s = .next t ∧
      (t.flu.port.get p).paused.look prio = none ∧ { t with flu := s.flu } = s) ∧
    (∀ prio d, (s.flu.port.get p).paused.look prio = some d → d ≤ s.now.toNat →
      ∃ t, exec (.pfcPauseExpiry p prio) s = .next t ∧ (t.flu.port.get p).paused.look prio = none ∧
        { t with flu := s.flu } = s) ∧
    (∀ name cak sci, (s.flu.port.get p).cak = some (name, cak) → (s.flu.port.get p).macsecEn = true →
      ((s.flu.port.get p).macsecUp = false → exec (.mkaFrameReceive p name (some sci)) s =
        .next (((s.setPort p { (s.flu.port.get p).resize true with
          macsecUp := true, assoc := (s.flu.port.get p).assoc + 1, peerSci := sci, txPn := 1, rxPn := 1 }).sendMka p).pumpAll)) ∧
      ((s.flu.port.get p).macsecUp = true → exec (.mkaFrameReceive p name (some sci)) s = .next s)) ∧
    (∃ t, exec (.secureAssociationLoss p) s = .next t ∧ (t.flu.port.get p).macsecUp = false ∧
      t.flu.port.get p.other = s.flu.port.get p.other ∧ { t with flu := s.flu } = s)

/-- R320, R323, R324: the timers of a connection: a delayed ACK, the replay of a packet that no bitmap covers (none while it waits to be
transmitted), the resending of a message that made no progress. -/
def Obligations.FlueTimersServe : Prop :=
  ∀ (n : Nat) (q : BitVec 32) (s : State), (s.conn n).state = .opened →
    (∀ m t, s.rx? n q.toNat = some m → m.unackedAt = some t → t + 1000 * s.flu.ackDelayUs ≤ s.now.toNat →
      exec (.ackDelayExpiry n q) s = .next (s.sendProgress n q.toNat)) ∧
    (∀ m i t reps p, s.tx? n q.toNat = some m → m.sent.find? (fun e => e.1 == i) = some (i, some t, reps, p) →
      i ∉ m.covered → (s.conn n).worn = false → reps < 4 → t + 5000 ≤ s.now.toNat → s.portCarries p.other = true →
      let m' := { m with sent := m.sent.map (fun e => if e.1 == i then (i, some t, reps + 1, p) else e) }
      exec (.linkReplay n q i) s =
        .next ((((s.setTx n m').sendPacket n m' i p.other).count 0x03500210).countAo 0x03800120)) ∧
    (∀ m i reps p, s.tx? n q.toNat = some m → m.sent.find? (fun e => e.1 == i) = some (i, none, reps, p) →
      exec (.linkReplay n q i) s = .next s) ∧
    (∀ m, s.tx? n q.toNat = some m → m.progress + 1000 * s.flu.msgTimeoutUs ≤ s.now.toNat → s.flu.bothDown = none →
      (s.flu.closeAfter ≤ (s.conn n).timeouts + 1 → exec (.messageTimeout n q) s = .next (s.closeConn n (some 2))) ∧
      ((s.conn n).timeouts + 1 < s.flu.closeAfter → exec (.messageTimeout n q) s =
        .next ((s.setConn n { s.conn n with timeouts := (s.conn n).timeouts + 1 }).resendMsg n m)))

/-- R340, R344, R347, R350, R352: at a multiple of 256 ns every policer has the refills that are due; a port's next frame leaves as its
schedules stand then, with its time stamp and packet number, and occupies the wire for its counted length from the end of the frame
before it on; a pending gate schedule takes effect at its time, the entry in force follows the time base, and a DISABLE ends the
schedule at its entry boundary. -/
def Obligations.DamperServes : Prop :=
  ∀ (s : State),
    (s.now.toNat % 256 = 0 → s.dmp.refilledAt.getD 0 / 256 < s.now.toNat / 256 → s.live = true →
      let up := s.flu.port.map (·.up)
      let k := s.now.toNat / 256 - s.dmp.refilledAt.getD 0 / 256
      ∃ t, exec .policerRefill s = .next t ∧ t.dmp.ctxPol = s.dmp.ctxPol.mapVals (fun _ p => p.refill up k) ∧
        t.dmp.connPol = s.dmp.connPol.mapVals (fun _ p => p.refill up k) ∧ t.dmp.refilledAt = some s.now.toNat ∧
        t.dmp.split = s.bothUp ∧ { t with dmp := s.dmp } = s) ∧
    (∀ p f d c,
      let b := Nat.max (100 * s.now.toNat) (s.flu.port.get p).busyUntil
      let s1 := (s.gateDue p).gateWaits p b
      (s.flu.port.get p).up = true → (s.flu.port.get p).busyUntil < 100 * s.now.toNat + 100 → s1.pickFrame p b = some (f, d, c) →
      ∃ t, exec (.egressFrameSend p) s = .next t ∧
        (t.flu.port.get p).wire = (s.flu.port.get p).wire ++ [f.leaving (s1.flu.port.get p) s.now] ∧
        (t.flu.port.get p).busyUntil = b + f.counted ∧
        (t.flu.port.get p).queue.length + 1 = (s.flu.port.get p).queue.length) ∧
    (∀ p g w, (s.flu.port.get p).pendingGate = some (g, w) → w ≤ s.now.toNat →
      ∃ t, exec (.gateScheduleSwitch p) s = .next t ∧ (t.flu.port.get p).gate = some g ∧
        (t.flu.port.get p).pendingGate = none ∧ (t.flu.port.get p).entry = 0 ∧ { t with flu := s.flu } = s) ∧
    (∀ p g, (s.flu.port.get p).gate = some g →
      (∀ e, (s.flu.port.get p).disabling = some e → e ≤ s.now.toNat → ∃ t, exec (.gateEntryBoundary p) s = .next t ∧
        (t.flu.port.get p).gate = none ∧ { t with flu := s.flu } = s) ∧
      ((∀ e, (s.flu.port.get p).disabling = some e → s.now.toNat < e) → ∃ t, exec (.gateEntryBoundary p) s = .next t ∧
        (t.flu.port.get p).gate = some g ∧ (t.flu.port.get p).entry = (g.entryAt s.now.toNat).1 ∧
        { t with flu := s.flu } = s))

/-- R311-R313, R337: FLU_CONN_CMD through a MANAGER LD while no CLOSE runs: READ shows the entry; WRITE of a CLOSED connection takes the
fields of a valid entry; OPEN checks its conditions in order and clears the sequence state; each leaves DONE and its error code in
FLU_CONN_STATUS. CLOSE ends the connection's work; it is DONE when the connection is CLOSED, and BUSY while its CLOSE packets
have not left; while it is BUSY every command is refused with ERRCODE 6. -/
def Obligations.ConnectionCommands : Prop :=
  ∀ (ld : Ld) (cmd : BitVec 64) (s : State), s.regWritable ld = true →
    let n := bits cmd.toNat 0 15
    let x := s.conn n
    (s.flu.closing.isSome = true → ∀ c, (bits cmd.toNat 16 3, c) ∈ [(0, Instr.fluConnRead ld cmd), (1, .fluConnWrite ld cmd),
        (2, .fluConnOpen ld cmd), (3, .fluConnClose ld cmd)] →
      exec c s = .next { s with flu := { s.flu with connStatus := connStatus 6 &&& ~~~(2 : BitVec 64) ||| 1 } }) ∧
    (s.flu.closing = none →
    (bits cmd.toNat 16 3 = 0 → ∃ t, exec (.fluConnRead ld cmd) s = .next t ∧ t.flu.connStatus = connStatus 0 ∧
      t.flu.connData = BitVec.ofNat 512 (ofBytes x.bytes) ∧ { t with flu := s.flu } = s) ∧
    (bits cmd.toNat 16 3 = 1 → ∃ t, exec (.fluConnWrite ld cmd) s = .next t ∧
      t.flu.connStatus = connStatus (if x.state ≠ .closed then 1 else if entryBad s.flu.connData.toNat then 5 else 0) ∧
      t.conn n = (if x.state = .closed ∧ entryBad s.flu.connData.toNat = false then x.fields s.flu.connData.toNat else x) ∧
      (∀ m, m ≠ n → t.conn m = s.conn m) ∧ { t with flu := s.flu } = s) ∧
    (bits cmd.toNat 16 3 = 2 → ∃ t, exec (.fluConnOpen ld cmd) s = .next t ∧
      t.flu.connStatus = connStatus (if x.state ≠ .closed then 1 else if s.flu.flueEn = false then 2
        else if (s.ctx x.ctx.toNat).state ≠ .active then 3
        else if (x.sealed = true ∧ x.keyed = none) ∨ (x.sealed = false ∧ s.sec.confidential = true) then 4 else 0) ∧
      (x.state = .closed → s.flu.flueEn = true → (s.ctx x.ctx.toNat).state = .active →
        ¬((x.sealed = true ∧ x.keyed = none) ∨ (x.sealed = false ∧ s.sec.confidential = true)) →
        (t.conn n).state = .opened ∧ (t.conn n).txSeq = 0 ∧ (t.conn n).rxCum = 0 ∧ (t.conn n).rxDone = 0 ∧
        (t.conn n).txCtr = 1 ∧ (t.conn n).txLimit = x.initCredit.setWidth 32)) ∧
    (bits cmd.toNat 16 3 = 3 → ∃ t, exec (.fluConnClose ld cmd) s = .next t ∧ (t.conn n).state ≠ .opened ∧
      ((t.conn n).state = .closed → t.flu.connStatus = connStatus 0 ∧ t.flu.closing = none) ∧
      ((t.conn n).state = .closing → t.flu.connStatus = 1 ∧ t.flu.closing = some n) ∧
      (x.state = .opened → (t.conn n).tx = [] ∧ (t.conn n).rx = [])))

/-! ### Registers -/

/-- R126, R132-R134: DOM_ACC_CMD through a MANAGER LD while no shift is in progress: LOOKUP and READ show the entry found with HIT, its
place and its PRIO, or no HIT; INSERT_ANY writes the lowest free slot of a classifier bank, INSERT_AT a slot that is free, or starts a
shift of the block below the next free one (BUSY), DELETE removes an entry; each that ends sets DONE. Refused, with ERR, are a write
to another bank or without room, LOOKUP and READ of such a bank in confidential mode, and every command while BUSY. A move of a shift
takes the entry below the hole up into it; the last one writes the new entry, clears BUSY and sets DONE. -/
def Obligations.DominoAccess : Prop :=
  ∀ (ld : Ld) (cmd : BitVec 64) (s : State), s.regWritable ld = true →
    let b := bits cmd.toNat 8 5
    let u := bits cmd.toNat 13 13
    let prio := bits cmd.toNat 26 8
    let at_ := b * 8192 + u
    let op := bits cmd.toNat 0 3
    (bitOf s.dom.accStatus.toNat 0 = true → ∀ c, (op, c) ∈ [(0, Instr.domLookup ld cmd), (1, .domRead ld cmd),
        (2, .domInsertAny ld cmd), (3, .domInsertAt ld cmd), (4, .domDelete ld cmd)] → exec c s = .next s.accRefuse) ∧
    (bitOf s.dom.accStatus.toNat 0 = false →
      (op = 0 → s.accReadable b = true →
        (∀ x e n, s.domLookup (bankDie b) (bankGroup b) s.dom.accKey = some ((x, e), n) →
          ∃ t, exec (.domLookup ld cmd) s = .next t ∧ t.dom.accKey = e.key ∧ t.dom.accMask = e.mask ∧
            t.dom.accResult = e.result ∧ t.dom.accStatus = accStatus false false true (decide (2 ≤ n)) n x e.prio.toNat ∧
            t.dom.entries = s.dom.entries ∧ { t with dom := s.dom, tel := s.tel } = s) ∧
        (s.domLookup (bankDie b) (bankGroup b) s.dom.accKey = none →
          ∃ t, exec (.domLookup ld cmd) s = .next t ∧ t.dom.accStatus = accStatus false false false false 0 0 0 ∧
            t.dom.accKey = s.dom.accKey ∧ t.dom.accMask = s.dom.accMask ∧ t.dom.accResult = s.dom.accResult ∧
            t.dom.entries = s.dom.entries ∧ { t with dom := s.dom, tel := s.tel } = s)) ∧
      (op = 1 → s.accReadable b = true →
        (∀ e, s.dom.entries.look at_ = some e →
          ∃ t, exec (.domRead ld cmd) s = .next t ∧ t.dom.accKey = e.key ∧ t.dom.accMask = e.mask ∧
            t.dom.accResult = e.result ∧ t.dom.accStatus = accStatus false false true false 0 at_ e.prio.toNat ∧
            t.dom.entries = s.dom.entries ∧ { t with dom := s.dom } = s) ∧
        (s.dom.entries.look at_ = none → exec (.domRead ld cmd) s =
          .next { s with dom := { s.dom with accStatus := accStatus false false false false 0 at_ 0 } })) ∧
      (s.accReadable b = false → (op = 0 → exec (.domLookup ld cmd) s = .next s.accRefuse) ∧
        (op = 1 → exec (.domRead ld cmd) s = .next s.accRefuse)) ∧
      (bankGroup b ≠ .classifier → (op = 2 → exec (.domInsertAny ld cmd) s = .next s.accRefuse) ∧
        (op = 3 → exec (.domInsertAt ld cmd) s = .next s.accRefuse) ∧ (op = 4 → exec (.domDelete ld cmd) s = .next s.accRefuse)) ∧
      (bankGroup b = .classifier → s.dom.shifts.has b = false →
        (op = 2 → (s.domFree b = none → exec (.domInsertAny ld cmd) s = .next s.accRefuse) ∧
          (∀ x, s.domFree b = some x → ∃ t, exec (.domInsertAny ld cmd) s = .next t ∧
            t.dom.entries.look x = some (s.accEntry b prio) ∧ (∀ y, y ≠ x → t.dom.entries.look y = s.dom.entries.look y) ∧
            t.dom.accStatus = accStatus false false false false 0 x (s.accEntry b prio).prio.toNat ∧ { t with dom := s.dom } = s)) ∧
        (op = 3 → u % s.bankUnits b = 0 →
          (s.dom.entries.has at_ = false → ∃ t, exec (.domInsertAt ld cmd) s = .next t ∧
            t.dom.entries.look at_ = some (s.accEntry b prio) ∧ (∀ y, y ≠ at_ → t.dom.entries.look y = s.dom.entries.look y) ∧
            t.dom.accStatus = accStatus false false false false 0 at_ (s.accEntry b prio).prio.toNat ∧ { t with dom := s.dom } = s) ∧
          (s.dom.entries.has at_ = true → (s.freeAbove b u = none → exec (.domInsertAt ld cmd) s = .next s.accRefuse) ∧
            (∀ h, s.freeAbove b u = some h → ∃ t, exec (.domInsertAt ld cmd) s = .next t ∧
              t.dom.shifts.look b = some { target := at_, hole := h, entry := s.accEntry b prio } ∧
              t.dom.accStatus = accStatus true false false false 0 at_ prio ∧ t.dom.entries = s.dom.entries ∧
              { t with dom := s.dom } = s))) ∧
        (op = 4 → ∃ t, exec (.domDelete ld cmd) s = .next t ∧ t.dom.entries.look at_ = none ∧
          (∀ y, y ≠ at_ → t.dom.entries.look y = s.dom.entries.look y) ∧
          t.dom.accStatus = accStatus false false false false 0 at_ 0 ∧ { t with dom := s.dom } = s))) ∧
    (∀ sh e, s.dom.shifts.look b = some sh → sh.target < sh.hole → s.dom.entries.look (sh.hole - s.bankUnits b) = some e →
      ∃ t, exec (.domShiftMove b) s = .next t ∧ { t with dom := s.dom } = s ∧ t.dom.entries.look sh.hole = some e ∧
        (∀ y, y ≠ sh.hole → y ≠ sh.hole - s.bankUnits b → t.dom.entries.look y = s.dom.entries.look y) ∧
        (sh.hole - s.bankUnits b ≠ sh.target → t.dom.entries.look (sh.hole - s.bankUnits b) = none ∧
          t.dom.shifts.look b = some { sh with hole := sh.hole - s.bankUnits b } ∧ t.dom.accStatus = s.dom.accStatus) ∧
        (sh.hole - s.bankUnits b = sh.target → t.dom.entries.look sh.target = some sh.entry ∧ t.dom.shifts.has b = false ∧
          bitOf t.dom.accStatus.toNat 0 = false ∧ bitOf t.dom.accStatus.toNat 1 = true))

/-- R231: a write of DRT_RES_BOUND or DRT_WM outside its range or with LOW_FREE not below HIGH_FREE is ignored, and one within
it, or one of DRT_STAGE_HOLD, is taken; reserved bits do nothing; after the wipe the fields hold 200 µs, 16, 32 and
10,000 µs. -/
def Obligations.PlacementRegistersHoldTheirRanges : Prop :=
  (∀ (ld : Ld) (v : BitVec 64) (s : State), s.regWritable ld = true →
    let b := bits v.toNat 0 20
    let lo := bits v.toNat 0 8
    let hi := bits v.toNat 8 8
    ((b < 20 ∨ 1000000 < b) → exec (.registerWrite ld 0x3200010 8 v) s = .next s) ∧
    (20 ≤ b → b ≤ 1000000 → exec (.registerWrite ld 0x3200010 8 v) s = .next { s with drt := { s.drt with boundUs := b } }) ∧
    (hi ≤ lo → exec (.registerWrite ld 0x3200018 8 v) s = .next s) ∧
    (lo < hi → exec (.registerWrite ld 0x3200018 8 v) s =
      .next { s with drt := { s.drt with lowFree := lo, highFree := hi } }) ∧
    exec (.registerWrite ld 0x3200020 8 v) s = .next { s with drt := { s.drt with holdUs := bits v.toNat 0 24 } }) ∧
  State.reset.drt.boundUs = 200 ∧ State.reset.drt.lowFree = 0x10 ∧ State.reset.drt.highFree = 0x20 ∧
  State.reset.drt.holdUs = 0x2710

/-- R498-R503: a write that does not cover a whole register, that comes from an LD that is no MANAGER, or that comes before
FW_READY or while the part is HELD, changes no register of the DOM, DRT, COAL, CXP, FLU, DMP and TEL blocks. -/
def Obligations.RegisterWritesRefused : Prop :=
  ∀ (ld : Ld) (off width : Nat) (v : BitVec 64) (s : State), 0x3000000 ≤ off → off < 0x3900000 →
    (width ≠ 8 ∨ off % 8 ≠ 0 ∨ s.manager ld = false ∨ s.gbl.fwReady = false ∨ s.gbl.held = true) →
    exec (.registerWrite ld off width v) s = .next s

/-- R300, R334, R471, R473, R452: CXP_CTL, FLU_CTL, TEL_CTL and TEL_TRACE_CTL written, TEL_UTIL_BUSY read, and a tap's
beats counted. -/
def Obligations.ControlRegistersTaken : Prop :=
  ∀ (ld : Ld) (v : BitVec 64) (s : State), s.regWritable ld = true →
    (∃ t, exec (.cxpCtlWrite ld v) s = .next t ∧ t.cxp.head.w.hdmEn = v.getLsbD 0 ∧ t.cxp.head.e.hdmEn = v.getLsbD 1 ∧
      t.cxp.poolEn = v.getLsbD 2 ∧ t.cxp.biEn = v.getLsbD 3 ∧
      t.cxp.ideReq = (if s.sec.confidential then s.cxp.ideReq else v.getLsbD 4) ∧ { t with cxp := s.cxp } = s) ∧
    (∃ t, exec (.fluCtlWrite ld v) s = .next t ∧ t.flu.flueEn = v.getLsbD 2 ∧ t.flu.readEn = v.getLsbD 3 ∧
      t.flu.port.w.en = v.getLsbD 0 ∧ t.flu.port.e.en = v.getLsbD 1 ∧ t.flu.paths = BitVec.ofNat 8 (bits v.toNat 8 8) ∧
      SameMemory s t) ∧
    (v.getLsbD 1 = true → ∃ t, exec (.telClear ld v) s = .next t ∧ t.tel.globalEn = v.getLsbD 0 ∧
      (∀ k, alwaysOn k = false → t.tel.cnt.lookD k 0 = 0) ∧ (∀ n, (t.ring n).late = 0 ∧ (t.ring n).measured = 0)) ∧
    (v.getLsbD 2 = true → ∃ t, exec (.telClearAo ld v) s = .next t ∧ t.tel.globalEn = v.getLsbD 0 ∧
      (∀ k, alwaysOn k = true → t.tel.cnt.lookD k 0 = 0)) ∧
    (s.traceRefused v = true → exec (.telTraceCtlWrite ld v) s = .next { s with tel := { s.tel with refused := true } }) ∧
    (s.traceRefused v = false → ∃ t, exec (.telTraceCtlWrite ld v) s = .next t ∧ t.tel.wrap = v.getLsbD 2 ∧
      t.tel.lossless = v.getLsbD 3 ∧ t.tel.allCtx = v.getLsbD 4 ∧ t.tel.ctx = BitVec.ofNat 12 (bits v.toNat 16 12) ∧
      (t.tel.trace.get .west).en = v.getLsbD 0 ∧ (t.tel.trace.get .east).en = v.getLsbD 1) ∧
    (∀ d k, 1 ≤ k → k ≤ 11 → s.reachable = true → ld.id < 16 → ∃ t, exec (.telUtilBusyRead ld d k) s = .next t ∧
      t.resp.out = leBytes 8 (s.tap d k).busy.toNat ∧ (t.tap d k).latStall = (s.tap d k).stall ∧
      (t.tap d k).latIdle = (s.tap d k).idle ∧ (t.tap d k).latPaused = (s.tap d k).paused ∧
      (t.tap d k).busy = (s.tap d k).busy) ∧
    (∀ d k n c, 1 ≤ k → k ≤ 11 → s.pkg.powered = true → s.pkg.resetHigh = true → s.dieHalted d k = false →
      ∃ t, exec (.tapSnapshot d k .busy n c) s = .next t ∧ (t.tap d k).busy = (s.tap d k).busy + BitVec.ofNat 64 n ∧
        (t.tap d k).stall = (s.tap d k).stall ∧ (t.tap d k).idle = (s.tap d k).idle)

/-- R340, R344, R350-R352, R355, R356: the commands of the Damper unit's policers, after the refills that are due, and of its gates, through
a MANAGER LD. -/
def Obligations.DamperCommands : Prop :=
  ∀ (ld : Ld) (cmd : BitVec 64) (s : State), s.regWritable ld = true →
    let i := bits cmd.toNat 0 15
    let kind := bitOf cmd.toNat 15
    let p := sideOf (bits cmd.toNat 0 1)
    let gi := bits cmd.toNat 8 7
    let s' := s.refillDue
    ((kind = true ∨ i < 4096) →
      (bits cmd.toNat 16 2 = 0 → ∃ t, exec (.dmpPolRead ld cmd) s = .next t ∧ t.dmp.polStatus = polStatus 0 ∧
        t.dmp.ctxPol = s'.dmp.ctxPol ∧ t.dmp.connPol = s'.dmp.connPol ∧
        ((s'.policer kind i).next = none → t.dmp.pir = BitVec.ofNat 64 (s'.policer kind i).pir ∧
          t.dmp.pbs = BitVec.ofNat 64 ((s'.policer kind i).pbs + 2 ^ 32 * (((s'.policer kind i).p.w + (s'.policer kind i).p.e) / 125))) ∧
        { t with dmp := s.dmp } = s) ∧
      (bits cmd.toNat 16 2 = 1 →
        let cir := bits s.dmp.cir.toNat 0 21
        let pir := bits s.dmp.pir.toNat 0 21
        let cbs := bits s.dmp.cbs.toNat 0 25
        let pbs := bits s.dmp.pbs.toNat 0 25
        (cir ≤ pir → pir ≤ 1600000 → 8704 ≤ cbs → cbs ≤ 16777216 → 8704 ≤ pbs → pbs ≤ 16777216 →
          ∃ t, exec (.dmpPolWrite ld cmd) s = .next t ∧ t.dmp.polStatus = polStatus 0 ∧
            (t.policer kind i).next = some (s.dmp.cir.getLsbD 63, cir, pir, cbs, pbs) ∧ { t with dmp := s.dmp } = s) ∧
        (pir < cir → ∃ t, exec (.dmpPolWrite ld cmd) s = .next t ∧ t.dmp.polStatus = polStatus 1 ∧
          t.dmp.ctxPol = s'.dmp.ctxPol ∧ t.dmp.connPol = s'.dmp.connPol)) ∧
      (bits cmd.toNat 16 2 = 2 → ∃ t, exec (.dmpPolRefill ld cmd) s = .next t ∧ t.dmp.polStatus = polStatus 0 ∧
        t.policer kind i = (s'.policer kind i).fill s'.dmp.split ∧ { t with dmp := s.dmp } = s)) ∧
    ((bits cmd.toNat 1 3 = 0 → ∃ t, exec (.dmpGateWriteEntry ld cmd) s = .next t ∧ t.dmp.gateStatus = gateStatus none ∧
        (t.flu.port.get p).gateList.look gi = some (s.dmp.gateDur, s.dmp.gateOpen)) ∧
      (bits cmd.toNat 1 3 = 1 → ∀ g d m, ((s.gateDue p).flu.port.get p).gate = some g → g.entries[gi]? = some (d, m) →
        ∃ t, exec (.dmpGateReadEntry ld cmd) s = .next t ∧ t.dmp.gateDur = BitVec.ofNat 32 d ∧ t.dmp.gateOpen = m ∧
          { t with dmp := s.dmp } = s.gateDue p) ∧
      (bits cmd.toNat 1 3 = 2 →
        let n := bits cmd.toNat 16 8
        let g : GateSched := {
          base := s.dmp.gateBase.toNat, mask := s.dmp.gateMask
          entries := (List.range (Nat.min n 128)).map (fun i =>
            let e := (s.flu.port.get p).gateList.lookD i (0, 0)
            (e.1.toNat, e.2)) }
        ((s.gateDue p).gateRefused p n g = none → ∃ t, exec (.dmpGateCommit ld cmd) s = .next t ∧
          t.dmp.gateStatus = gateStatus none ∧
          (t.flu.port.get p).pendingGate = some (g, gateStart s.now.toNat g)) ∧
        (∀ e, (s.gateDue p).gateRefused p n g = some e → ∃ t, exec (.dmpGateCommit ld cmd) s = .next t ∧
          t.dmp.gateStatus = gateStatus (some e) ∧ t.flu = (s.gateDue p).flu)) ∧
      (bits cmd.toNat 1 3 = 3 → ∃ t, exec (.dmpGateDisable ld cmd) s = .next t ∧ t.dmp.gateStatus = gateStatus none ∧
        (t.flu.port.get p).pendingGate = none ∧ (t.flu.port.get p).disabling =
          ((s.gateDue p).flu.port.get p).gate.map (fun g => s.now.toNat + (g.entryAt s.now.toNat).2)))

/-! ### The mailbox -/

/-- R290, R291, R448, R474: a command that only reads is answered with success by a mailbox that takes it, and changes
nothing but the answer. R278, R286, R290, R291: the standard commands that set something. R274, R291, R404: a vendor command
from an LD that is no MANAGER is answered ST_ACCESS; one that names a context that is FREE is answered ST_BAD_OPERAND,
RETIRING ST_BUSY; nothing else changes. -/
def Obligations.MailboxServed : Prop :=
  (∀ (ld : Ld) (s : State), s.takesStandard ld →
      (∀ log off len, ∀ c ∈ [Instr.identifyMemoryDevice ld, .getSupportedLogs ld, .getLog ld off len, .getEventRecords ld log,
        .getEventInterruptPolicy ld, .getTimestamp ld, .backgroundOperationStatus ld],
        ∃ t, exec c s = .next t ∧ Answered s t) ∧
      (∃ t, exec (.getTimestamp ld) s = .next t ∧ t.resp.out = leBytes 8 ((s.ld ld).stampNow s.now.toNat).toNat) ∧
      (∃ t, exec (.getEventInterruptPolicy ld) s = .next t ∧ t.resp.out = leBytes 4 (s.ld ld).evPolicy.toNat) ∧
      (∀ base len, base % 64 = 0 → len % 64 = 0 → ∃ t, exec (.getPoisonList ld base len) s = .next t ∧ Answered s t) ∧
      ((s.cxp.head.get ld.head).mode ≠ 1 → ∀ start count,
        (∃ t, exec (.getDcConfiguration ld) s = .next t ∧ Answered s t) ∧
        (∃ t, exec (.getDcExtentList ld start count) s = .next t ∧ Answered s t)) ∧
      (s.sec.lcs ≠ .scrapped → ∃ t, exec (.getFwInfo ld) s = .next t ∧ Answered s t) ∧
      (s.takesVendor ld → ∀ off len,
        (∀ i, i = 1 ∨ i = 2 → ∃ t, exec (.getVendorLog ld i off len) s = .next t ∧ Said St.ok s t) ∧
        (∃ t, exec (.getConfigurationBlock ld off len) s = .next t ∧ Said St.ok s t ∧
          t.resp.out = (s.cfgBlock.drop off).take len) ∧
        (∃ t, exec (.getStartUpReport ld) s = .next t ∧ Said St.ok s t ∧ t.resp.out = s.startUpReport) ∧
        (∀ die, die ≤ 1 → ∃ t, exec (.getAdmission ld die) s = .next t ∧ Said St.ok s t) ∧
        (∀ die cls, die ≤ 1 → 1 ≤ cls → cls ≤ 11 → s.sec.confidential = false →
          ∃ t, exec (.readStallHistogram ld die cls) s = .next t ∧ Said St.ok s t)) ∧
      (s.gbl.held = false → s.gbl.warming = false → s.gbl.stopped = false →
        (∀ die first count, die ≤ 1 → 1 ≤ count → count ≤ 32768 → first + count ≤ traceSlots →
          s.mayWatch ld s.tel.ctx.toNat = true → ∃ t, exec (.readTrace ld die first count) s = .next t ∧ Said St.ok s t) ∧
        (∀ c first count, c < 4096 → (s.ctx c).state = .active → s.mayWatch ld c = true → 1 ≤ count → first + count ≤ 256 →
          ∃ t, exec (.readContextCounters ld c first count) s = .next t ∧ Said St.ok s t ∧
            t.resp.out = (List.range count).flatMap (fun i => ((s.ctx c).counters.lookD (first + i) {}).bytes s.now.toNat)))) ∧
  (∀ (ld : Ld) (s : State), s.takesStandard ld →
      (∀ p, ∃ t, exec (.setEventInterruptPolicy ld p) s = .next t ∧ (t.ld ld).evPolicy = p ∧ t.resp.ret = .success ∧
        (∀ l, l ≠ ld → t.ld l = s.ld l) ∧ SameMemory s t) ∧
      (∀ v, ∃ t, exec (.setTimestamp ld v) s = .next t ∧ (t.ld ld).stamp = (v, s.now.toNat) ∧ t.resp.ret = .success ∧
        SameMemory s t) ∧
      (∀ log, ∃ t, exec (.clearEventRecords ld log []) s = .next t ∧ (t.ld ld).log log = [] ∧ t.resp.ret = .success) ∧
      (∀ log hs, hs ≠ [] → (∀ h, h ∈ hs → ∃ r, r ∈ (s.ld ld).log log ∧ r.handle = h) →
        ∃ t, exec (.clearEventRecords ld log hs) s = .next t ∧ t.resp.ret = .success ∧
          (t.ld ld).log log = ((s.ld ld).log log).filter (fun r => !(hs.contains r.handle))) ∧
      (∀ dpa data, data.length = 64 → dpa % 64 = 0 → s.poisonable ld dpa = true →
        exec (.clearPoison ld dpa data) s = .next (s.poke dpa data).ok) ∧
      (∀ dpa, dpa % 64 = 0 → s.poisonable ld dpa = true → s.sec.debugOpen = true →
        exec (.injectPoison ld dpa) s = .next ({ s with mem := s.mem.poisonLine (dpa / 64) }).ok) ∧
      (∀ dpa, s.sec.debugOpen = false → ∃ t, exec (.injectPoison ld dpa) s = .next t ∧ t.resp.ret = .unsupported ∧
        SameMemory s t) ∧
      ((s.cxp.head.get ld.head).mode ≠ 1 →
        (∀ es, (∀ e, e ∈ es → e ∈ (s.ld ld).offered ∧ s.heldElsewhere ld e = false) → (s.ld ld).extents.length + es.length ≤ maxExtents →
          ∃ t, exec (.addDcResponse ld es) s = .next t ∧ (t.ld ld).offered = [] ∧
            (t.ld ld).extents = (s.ld ld).extents ++ es.map (fun e => { base := e.1, len := e.2 })) ∧
        (∀ e, (s.ld ld).extents.find? (fun x => x.base == e.base) = some e → e.closing = false → s.mayLeave ld e = true →
          ∃ t, exec (.releaseDynamicCapacity ld e.base e.len) s = .next t ∧ t.resp.ret = .success ∧
            (t.ld ld).extents = (s.ld ld).extents.filter (fun x => x.base != e.base))) ∧
      (∀ r, (s.ld ld).bgRun = some r → ∃ t, exec (.requestAbortBackgroundOp ld) s = .next t ∧ (t.ld ld).bgRun = none) ∧
      ((s.ld ld).bgRun = none → ∃ t, exec (.requestAbortBackgroundOp ld) s = .next t ∧ Answered s t)) ∧
  (∀ (ld : Ld) (s : State), s.takesStandard ld →
      (s.manager ld = false → ∀ c w v n m b1 b2 e op i data, ∀ k ∈ [Instr.setEvent ld c e op v, .createContext ld c b1 n v w,
        .setContext ld c b1 n v w, .rotateContextKey ld c, .poolFillCommand ld c v w v, .deregisterProfile ld n,
        .deregisterImage ld i, .setClass ld n m e, .setAdmission ld n m, .releaseBooking ld n, .setMode ld n,
        .getConfigurationBlock ld n m, .deleteWeightObject ld v, .setMacsecCak ld n b2 data],
        ∃ t, exec k s = .next t ∧ Said St.access s t) ∧
      (s.takesVendor ld → s.sec.lcs = .deployed → ∀ c e op v, c < 4096 →
        ((s.ctx c).state = .free → ∃ t, exec (.setEvent ld c e op v) s = .next t ∧ Said St.badOperand s t) ∧
        ((s.ctx c).state = .retiring → ∃ t, exec (.setEvent ld c e op v) s = .next t ∧ Said St.busy s t)))

/-- R376, R377, R385, R388, R402, R520: the life of a context: created ACTIVE with its fields and a fresh key set, changed,
its key rotated and swept, retired, and FREE again once nothing of it is left. -/
def Obligations.ContextLife : Prop :=
  ∀ (ld : Ld) (c : Nat) (s : State),
    (∀ rights domain quota mask, s.takesVendor ld → s.sec.lcs = .deployed → ctxFieldBad c rights domain none = false →
      (s.ctx c).state = .free → s.maskTaken c mask = false → s.persistBad rights = false → s.sec.entropyFail = false →
      ∃ t, exec (.createContext ld c rights domain quota mask) s = .next t ∧ t.resp.status = St.ok ∧
        (t.ctx c).state = .active ∧ (t.ctx c).rights = rights ∧ (t.ctx c).domain = BitVec.ofNat 12 domain ∧
        (t.ctx c).quota = quota ∧ (t.ctx c).chkMask = mask ∧ (t.ctx c).bind = (s.ctx c).bind ∧ (t.ctx c).charged = 0 ∧
        (t.ctx c).present = 0 ∧ (∀ c', c' ≠ c → t.ctx c' = s.ctx c') ∧ t.sec.ctxMade = true ∧ SameMemory s t) ∧
    (∀ rights domain quota mask, s.takesVendorCtx ld c →
      ctxFieldBad c rights domain (some ((s.ctx c).rights.getLsbD 5)) = false → s.maskTaken c mask = false →
      s.persistBad rights = false → domain = (s.ctx c).domain.toNat →
      ∃ t, exec (.setContext ld c rights domain quota mask) s = .next t ∧ t.resp.status = St.ok ∧
        (t.ctx c).state = .active ∧ (t.ctx c).rights = rights ∧ (t.ctx c).quota = quota ∧ (t.ctx c).chkMask = mask ∧
        (∀ u, (s.ctx c).chkMask.getLsbD u = true → mask.getLsbD u = false → t.chk.look u = none) ∧ SameMemory s t) ∧
    (s.takesVendorCtx ld c → (s.ctx c).oldLive = false → s.sec.entropyFail = false →
      ∃ t, exec (.rotateContextKey ld c) s = .next t ∧ t.resp.status = St.ok ∧
        (t.ctx c).present = (s.ctx c).present + 1 ∧ (t.ctx c).old = (s.ctx c).present ∧ (t.ctx c).oldLive = true ∧
        (t.ctx c).sweeping = true ∧ (∀ c', c' ≠ c → t.ctx c' = s.ctx c') ∧ SameMemory s t) ∧
    (s.takesVendorCtx ld c → (s.ctx c).oldLive = true →
      ∃ t, exec (.rotateContextKey ld c) s = .next t ∧ Said St.busy s t) ∧
    ((s.ctx c).state = .active → (s.ctx c).sweeping = true → s.live = true → s.pkg.powerWarn = false →
      (∀ h, s.sweepNext c (s.ctx c).old = some h → exec (.keySweepStep c) s = .next (s.sweepPage h (s.ctx c).present)) ∧
      (s.sweepNext c (s.ctx c).old = none → s.reading c = false → s.oldBlocks c (s.ctx c).old = [] → s.oldRecords .west c (s.ctx c).old = [] →
        s.oldRecords .east c (s.ctx c).old = [] → (∀ p, p ∈ s.pages.vals → p.oldEpoch c (s.ctx c).old = false) →
        ∃ t, exec (.keySweepStep c) s = .next t ∧ (t.ctx c).oldLive = false ∧ (t.ctx c).sweeping = false ∧
          (t.ctx c).keySet = (s.ctx c).keySet.del (s.ctx c).old.toNat)) ∧
    (s.takesVendorCtx ld c → exec (.retireContext ld c) s = .next (s.retire c)) ∧
    ((s.ctx c).state = .retiring → (∀ r, r ∈ s.jrn.recs → r.ctx ≠ c) →
      s.linksDown c = true → s.live = true → (s.retireRest c).sharedLeft c = false →
      ∃ t, exec (.retireComplete c) s = .next t ∧ (t.ctx c).state = .free ∧ (t.ctx c).charged = 0 ∧
        (t.ctx c).ringList.isSome = true ∧ t.resp.status = St.ok ∧ (∀ k, k ∈ t.flu.keys.vals → k.ctx ≠ c) ∧
        ((s.ctx c).ringList ≠ none → (t.ctx c).ringList = (s.ctx c).ringList ∧ ∀ c', c' ≠ c → t.ctx c' = s.ctx c'))

/-- R46, R48, R64-R66, R190, R291: profiles and images registered and withdrawn, context space allocated and released, an
event set, and the four pool commands started in the background. -/
def Obligations.ContextResources : Prop :=
  ∀ (ld : Ld) (c : Nat) (s : State),
    (∀ rec_, s.takesVendor ld → rec_.length = 64 → profileBad rec_ = false → (profileOf rec_).frameSize ≤ 128 →
      (∀ p, p ∈ s.profiles.vals → p.id ≠ (profileOf rec_).id) → s.profiles.lowFree < 256 →
      ∃ t, exec (.registerProfile ld rec_) s = .next t ∧ t.resp.status = St.ok ∧ s.profiles.look s.profiles.lowFree = none ∧
        t.profiles.look s.profiles.lowFree =
          some { profileOf rec_ with frameKib := (profileOf rec_).frameSize }) ∧
    (∀ pid i, s.takesVendor ld → s.profileSlot pid = some i → s.profileUsed i = false →
      ∃ t, exec (.deregisterProfile ld pid) s = .next t ∧ t.resp.status = St.ok ∧ t.profiles.look i = none ∧
        { t with profiles := s.profiles, resp := s.resp } = s) ∧
    (∀ steps src, s.takesVendorCtx ld c → steps ≤ 4096 → s.storedSteps + steps ≤ storeSteps → s.rngUp c src (32 * steps) 0 = none → s.mem.readErr src (32 * steps) = none →
      s.images.lowFree < 1024 → s.heldLines src (32 * steps) false = [] →
      ∃ t im, exec (.registerImage ld c steps src) s = .next t ∧ t.resp.status = St.ok ∧
        t.images.look s.images.lowFree = some im ∧ im.ctx = c ∧ im.steps.length = steps ∧
        { t with images := s.images, resp := s.resp } = s) ∧
    (∀ i, s.takesVendor ld → s.images.has i = true → s.imageCalled i = false →
      ∃ t, exec (.deregisterImage ld i) s = .next t ∧ t.resp.status = St.ok ∧ t.images.look i = none ∧
        { t with images := s.images, resp := s.resp } = s) ∧
    (∀ die n addr t, s.takesVendorCtx ld c → addr % granule = 0 → die ≤ 1 → addr + n * granule ≤ ctxSpaceEnd →
      (∀ p, p ∈ s.mem.granules → ¬(addr / granule ≤ p.1 ∧ p.1 < addr / granule + n)) →
      State.takeGranules n (addr / granule) c (sideOf die) s = .ready t →
      exec (.allocateContextSpace ld c die n addr) s = .next (t.say St.ok) ∧
        (∀ g, addr / granule ≤ g → g < addr / granule + n → (t.mem.granules.look g).map (·.1) = some c) ∧
        SameContextSpace s t) ∧
    (∀ n addr, s.takesVendorCtx ld c → addr % granule = 0 → addr + n * granule ≤ ctxSpaceEnd →
      s.owns c addr (n * granule) = true → s.rangeBusy addr (n * granule) = false →
      ∃ t, exec (.releaseContextSpace ld c n addr) s = .next t ∧ t.resp.status = St.ok ∧
        (∀ g, addr / granule ≤ g → g < addr / granule + n → t.mem.granules.look g = none)) ∧
    (∀ e op v, s.takesVendorCtx ld c → e < 16384 → op ≤ 1 →
      ∃ t, exec (.setEvent ld c e op v) s = .next t ∧ t.resp.status = St.ok ∧
        t.event c e = (if op = 1 then v else s.event c e + v) ∧ SameMemory s t) ∧
    (∀ w0 w1 w2, s.takesVendorCtx ld c → s.cxp.poolEn = true → (s.ld ld).bgRun = none →
      ∀ op k, (op, k) ∈ [(0x70, Instr.poolFillCommand ld c w0 w1 w2), (0x71, .poolCopyCommand ld c w0 w1 w2),
        (0x72, .poolCompareCommand ld c w0 w1 w2), (0x73, .poolReduceCommand ld c w0 w1 w2)] →
      s.badPool c (PoolOp.of op w0 w1 w2) = none → s.poolErr (PoolOp.of op w0 w1 w2) = none →
      ∃ t, exec k s = .next t ∧ t.resp.ret = .backgroundStarted ∧
        (t.ld ld).bgRun = some { ctx := c, op := PoolOp.of op w0 w1 w2 } ∧ SameMemory s t)

/-! ### Weights, keys, firmware, attestation, admission, the fabric manager -/

/-- R222, R393, R395, R396: a weight object is created with its layers' chunks, loaded layer by layer, keyed, and deleted. -/
def Obligations.WeightObjects : Prop :=
  (∀ (ld : Ld) (c home pid slot : Nat) (model check : BitVec 128) (lens : List Nat) (s : State), s.takesVendorCtx ld c →
    home ≤ 2 → lens ≠ [] → lens.length ≤ 1024 → (∀ n, n ∈ lens → 1 ≤ n ∧ n ≤ 4294967296) →
    (s.ctx c).rights.getLsbD 4 = true → s.profileSlot pid = some slot →
    let d := s.objHome home
    let h := s.coal.half.get d
    let total := (lens.map chunksOf).foldl (· + ·) 0
    s.freeObj d < 2048 → s.handlesOn d + total ≤ 402653184 →
    (h.spans.keys.foldl Nat.max 0 + 1) * 2048 + 64 * total + 2048 < 2 ^ 37 →
    ∃ t k, exec (.createWeightObject ld c home pid model check lens) s = .next t ∧ t.resp.status = St.ok ∧
      t.resp.out = leBytes 8 (objHandle k (s.nextGen k)) ∧ objDie k = d ∧ (t.wobj k).live = true ∧ (t.wobj k).ctx = c ∧
      (t.wobj k).pslot = slot ∧ (t.wobj k).lengths = lens ∧ (t.wobj k).keyCheck = check ∧ (t.wobj k).modelId = model ∧
      (t.wobj k).keyed = false ∧ (t.wobj k).loaded = [] ∧ SameMemory s t) ∧
  (∀ (ld : Ld) (handle : BitVec 64) (k l src : Nat) (s t : State), s.takesVendor ld → s.sec.lcs = .deployed →
    s.checkObj (s.wobj (bits handle.toNat 21 1 * 2048 + bits handle.toNat 0 11)).ctx handle 0 = .ok k →
    (s.ctx (s.wobj k).ctx).state ≠ .retiring →
    (l < (s.wobj k).lengths.length → (s.wobj k).ready = false →
      s.rngUp (s.wobj k).ctx src (unitBytes * chunksOf ((s.wobj k).lengths.getD l 0)) 0 = none →
      s.mem.readErr src (unitBytes * chunksOf ((s.wobj k).lengths.getD l 0)) = none → s.coal.en = true →
      (s.coal.half.get (objDie k)).ready = true → s.coal.readOnly = false →
      s.coalFits (objDie k) (64 * chunksOf ((s.wobj k).lengths.getD l 0)) = true →
      s.heldLines src (unitBytes * chunksOf ((s.wobj k).lengths.getD l 0)) false = [] →
      (s.drt.demoteEn = true → s.demotionsRun (objDie k) = true) → s.storeLayer k l src = .ready t →
      exec (.loadWeightLayer ld handle l src) s = .next (t.say St.ok) ∧ (s.drt.demoteEn = true → l ∈ (t.wobj k).loaded) ∧
      SameContextSpace s t) ∧
    (exec (.deleteWeightObject ld handle) s = .next ((s.deleteObj k).say St.ok) ∧
      ((s.deleteObj k).wobj k).live = false ∧ ((s.deleteObj k).wobj k).gen = (s.wobj k).gen)) ∧
  (∀ (hd : Side) (handle : BitVec 64) (key : BitVec 256) (k : Nat) (s : State), s.takesSecure hd → s.sec.lcs = .deployed →
    s.checkObj (s.wobj (bits handle.toNat 21 1 * 2048 + bits handle.toNat 0 11)).ctx handle 0 = .ok k →
    (s.ctx (s.wobj k).ctx).state ≠ .retiring →
    ((s.wobj k).ready = true → s.sec.debugOpened = false → (s.wobj k).keyCheck = modelCheck key (s.wobj k).modelId →
      ∃ t, exec (.releaseModelKey hd handle key) s = .next t ∧ t.resp.status = St.ok ∧ (t.wobj k).keyed = true ∧
        SameContextSpace s t) ∧
    (s.sec.debugOpened = true ∨ (s.wobj k).keyCheck ≠ modelCheck key (s.wobj k).modelId →
      exec (.releaseModelKey hd handle key) s = .next s.refuse))

/-- R366-R370, R373, R397, R399-R401: firmware transferred and activated, the life cycle advanced, the mode set, a debug
session opened, a nonce drawn, MACsec and connection keys set. -/
def Obligations.SecurityCommands : Prop :=
  ∀ (ld : Ld) (s : State),
    (s.takesStandard ld → s.sec.lcs ≠ .scrapped →
      (∀ i, ∃ t, exec (.transferFw ld i) s = .next t ∧ t.sec.fwReserve = some i ∧ t.resp.ret = .success ∧ SameMemory s t) ∧
      (∀ i online, s.sec.fwReserve = some i → s.loadable i = true →
        ∃ t, exec (.activateFw ld online) s = .next t ∧ t.resp.ret = .success ∧ t.sec.fwCopies = ⟨some i, some i⟩ ∧
          t.sec.fwReserve = none ∧ t.sec.fuseSvn = Nat.max s.sec.fuseSvn i.svn ∧
          (online = true → t.sec.svn = i.svn ∧ t.sec.fwDigest = i.digest))) ∧
    (s.takesVendor ld →
      (∀ n sig, lcsNext s.sec.lcs = some n → n ≠ .returned → s.pkg.powered = true → s.pkg.resetHigh = true →
        (n = .provisioned ∨ n = .scrapped → s.authorised (lcsCode n) sig = true) →
        sig.length = (if n = .provisioned ∨ n = .scrapped then 4627 else 0) →
        ∃ t, exec (.advanceLifeCycle ld (lcsCode n) (lcsCode s.sec.lcs) Config.identityDigest sig) s = .next t ∧
          t.sec.lcs = n ∧ t.gbl.fwReady = false ∧ t.resp.status = St.ok) ∧
      (∀ target present digest sig, digest ≠ Config.identityDigest →
        sig.length = (if target = 1 ∨ target = 4 then 4627 else 0) →
        exec (.advanceLifeCycle ld target present digest sig) s = .next s.refuse) ∧
      (∀ v, v ≤ 1 → s.sec.modeSet = false → s.sec.ctxMade = false → (v = 0 ∨ s.sec.debugOpen = false) →
        ∃ t, exec (.setMode ld v) s = .next t ∧ t.sec.modeSet = true ∧ t.sec.confidential = decide (v = 1) ∧
          t.resp.status = St.ok ∧ SameMemory s t) ∧
      (∀ sig, s.sec.confidential = false → s.sec.lcs ≠ .scrapped →
        (s.sec.lcs = .blank ∨ s.authorised (lcsCode s.sec.lcs) sig = true) → sig.length = 4627 → s.pkg.powered = true → s.pkg.resetHigh = true →
        ∃ t, exec (.openDebug ld sig) s = .next t ∧ t.sec.debugOpen = true ∧ t.sec.debugOpened = true ∧
          t.gbl.fwReady = false) ∧
      (∀ sig, s.sec.confidential = true → sig.length = 4627 → exec (.openDebug ld sig) s = .next s.refuse) ∧
      (∀ p ckn cak, p ≤ 1 → ∃ t, exec (.setMacsecCak ld p ckn cak) s = .next t ∧
        (t.flu.port.get (sideOf p)).cak = some (ckn, cak) ∧ t.resp.status = St.ok) ∧
      (∀ n, n < 32768 → s.sec.entropyFail = false → ∃ t, exec (.beginConnectionKey ld n) s = .next t ∧
        (t.conn n).kemPair.isSome = true ∧ t.resp.status = St.ok) ∧
      (∀ n ct k, n < 32768 → ct.length = 1568 → (s.conn n).state = .closed → (s.conn n).kemPair = some k →
        ∃ t, exec (.completeConnectionKey ld n ct) s = .next t ∧ (t.conn n).kemPair = none ∧
          (t.conn n).keyed = some (flueKeys (Config.decapsulate k ct) n (s.conn n).peerConn.toNat) ∧
          t.resp.status = St.ok) ∧
      (s.sec.entropyFail = false → ∃ t v, exec (.getNonce ld) s = .next t ∧ t.sec.nonces = s.sec.nonces ++ [v] ∧
        t.resp.out = leBytes 32 v.toNat ∧ t.resp.status = St.ok))

/-- R389-R391: the SPDM flow of a head: each request is answered in the states that the flow allows and moves it on. -/
def Obligations.SpdmFlow : Prop :=
  ∀ (hd : Side) (s : State), s.takesFm hd →
    (∃ t, exec (.spdmGetVersion hd) s = .next t ∧ (t.sec.spdm.get hd).state = .version ∧ t.resp.ret = .success) ∧
    ((s.sec.spdm.get hd).state = .version → ∃ t, exec (.spdmGetCapabilities hd) s = .next t ∧
      (t.sec.spdm.get hd).state = .capabilities ∧ t.resp.ret = .success) ∧
    ((s.sec.spdm.get hd).state ≠ .version → ∃ t, exec (.spdmGetCapabilities hd) s = .next t ∧
      t.resp.ret = .invalidInput ∧ { t with resp := s.resp } = s) ∧
    (∀ o : SpdmOffer, (s.sec.spdm.get hd).state = .capabilities → o.sign = true → o.hash = true → o.kem = true → o.aead = true →
      ∃ t, exec (.spdmNegotiateAlgorithms hd o) s = .next t ∧ (t.sec.spdm.get hd).state = .negotiated ∧
        t.resp.out = algorithms o.mutualAuth ∧ t.resp.ret = .success) ∧
    ((s.sec.spdm.get hd).state ∈ spdmOpenStates → ∀ off len n,
      (∃ t, exec (.spdmGetDigests hd) s = .next t ∧ Answered s t) ∧
      (∃ t, exec (.spdmGetCertificate hd off len) s = .next t ∧ Answered s t ∧
        t.resp.out = (s.slot0.drop off).take len) ∧
      (∃ t, exec (.spdmChallenge hd n) s = .next t ∧ Answered s t) ∧
      (∃ t, exec (.spdmGetMeasurements hd n) s = .next t ∧
        t.resp.out = s.attestation n ++ Config.sign (s.attestation n) ∧ SameMemory s t)) ∧
    (∀ k : List (BitVec 8), (s.sec.spdm.get hd).state = .negotiated → k.length = 1568 → s.sec.entropyFail = false →
      ∃ t, exec (.spdmKeyExchange hd k) s = .next t ∧ (t.sec.spdm.get hd).state = .handshake ∧ t.resp.ret = .success) ∧
    (∀ v, (s.sec.spdm.get hd).state = .handshake →
      ∃ t, exec (.spdmFinish hd v) s = .next t ∧ (t.sec.spdm.get hd).state =
        (if Config.finishOk ((s.sec.spdm.get hd).secret.getD 0) v then .session else .negotiated)) ∧
    (s.takesSecure hd → (∃ t, exec (.spdmEndSession hd) s = .next t ∧ (t.sec.spdm.get hd).state = .negotiated) ∧
      (∀ k, (∃ t, exec (.ideKmKeyProgram hd .io k) s = .next t ∧ (t.cxp.head.get hd).ideIo = true ∧
          (t.cxp.head.get hd).ideMem = (s.cxp.head.get hd).ideMem) ∧
        (∀ skid, ∃ t, exec (.ideKmKeyProgram hd (.mem skid) k) s = .next t ∧ (t.cxp.head.get hd).ideMem = true ∧
          (t.cxp.head.get hd).ideSkid = skid ∧ (t.cxp.head.get hd).ideIo = (s.cxp.head.get hd).ideIo)) ∧
      (∀ c key, s.sec.lcs = .deployed → c < 4096 → (s.ctx c).state = .active → (s.ctx c).rights.getLsbD 5 = true →
        (s.ctx c).ringEnabled = false → ∃ t, exec (.importCompatKey hd c key) s = .next t ∧
          (t.ctx c).compatKey = some key ∧ t.resp.status = St.ok) ∧
      (∀ secret, s.sec.lcs = .deployed → s.sec.debugOpened = false →
        (s.coal.rootCheck = some (rootCheckOf (s.rootFor secret)) → ∃ t, exec (.releasePersistentRoot hd secret) s = .next t ∧
          t.sec.persistRoot = some (s.rootFor secret) ∧ t.resp.status = St.ok) ∧
        (∀ v, s.coal.rootCheck = some v → v ≠ rootCheckOf (s.rootFor secret) →
          exec (.releasePersistentRoot hd secret) s = .next s.refuse)))

/-- R438-R448: class weights and bounds, the admission settings, a ring admitted when both tests of R441 pass with it, and a
booking released. -/
def Obligations.AdmissionDecides : Prop :=
  ∀ (ld : Ld) (s : State), s.takesVendor ld →
    (∀ cls weight, 4 ≤ cls → cls ≤ 63 → weight ≤ 255 → ∃ t, exec (.setClass ld cls weight 0) s = .next t ∧
      t.resp.status = St.ok ∧ t.weight cls = weight ∧ (∀ c, c ≠ cls → t.weight c = s.weight c) ∧ SameMemory s t) ∧
    (∀ cls weight bound, cls ≤ 63 → weight ≤ 255 → bound ≤ 1000000 → (cls < 4 → weight = 0) → (4 ≤ cls → bound = 0) →
      (bound = 0 ∨ s.gbl.bounds.lookD cls 0 ≠ 0 ∧ s.gbl.bounds.lookD cls 0 ≤ bound) →
      exec (.setClass ld cls weight bound) s = .next ((({ s with gbl := { s.gbl with
        weights := s.gbl.weights.put cls weight, bounds := s.gbl.bounds.put cls bound } }).recheck).say St.ok)) ∧
    (∀ cls weight bound, cls < 4 → weight ≠ 0 → ∃ t, exec (.setClass ld cls weight bound) s = .next t ∧
      Said St.badOperand s t) ∧
    (∀ cap block, 128 ≤ cap → cap ≤ 255 → 1 ≤ block → block ≤ 1000 →
      (s.admitTest { s.admitEnv with cap := cap, block := block } s.booked none = none →
        exec (.setAdmission ld cap block) s =
          .next ((({ s with gbl := { s.gbl with admitCap := cap, blockUs := block } }).recheck).say St.ok)) ∧
      (∀ f, s.admitTest { s.admitEnv with cap := cap, block := block } s.booked none = some f →
        ∃ t, exec (.setAdmission ld cap block) s = .next t ∧ Said St.admitDeadline s t ∧
          t.resp.detail = BitVec.ofNat 32 f.detail)) ∧
    (∀ n d, n ≤ 65535 → (s.ring n).en = false → (s.ring n).booking = none → (s.ring n).cls.toNat < 4 → demandBad d = false →
      (s.ctx (s.ring n).ctx.toNat).state = .active → s.gbl.overbooked = false →
      let g : Ring := { s.ring n with booking := some { demand := d } }
      (s.admitTest s.admitEnv (putBooked s.booked n g) (some n) = none →
        ∃ out, exec (.admitRing ld n d) s = .next ((s.setRing n g).say St.ok 0 out)) ∧
      (∀ f, s.admitTest s.admitEnv (putBooked s.booked n g) (some n) = some f →
        ∃ t, exec (.admitRing ld n d) s = .next t ∧ Said St.admitDeadline s t ∧ t.resp.detail = BitVec.ofNat 32 f.detail)) ∧
    (∀ n, n ≤ 65535 → ((s.ring n).en = true ∨ (s.ring n).booking ≠ none) → ∀ d,
      ∃ t, exec (.admitRing ld n d) s = .next t ∧ Said St.busy s t) ∧
    (∀ n, n ≤ 65535 → (s.ring n).en = false → ∃ t, exec (.releaseBooking ld n) s = .next t ∧
      t = ((s.setRing n { s.ring n with booking := none }).recheck).say St.ok ∧ (t.ring n).booking = none ∧ (∀ m, m ≠ n → t.ring m = s.ring m) ∧ SameMemory s t)

/-- R272, R275, R278-R281, R285, R293, R503: the commands of a head's fabric manager. -/
def Obligations.FabricManagerCommands : Prop :=
  ∀ (hd : Side) (s : State), s.takesFm hd →
    (∀ c ∈ [Instr.getLdInfo hd, .getLdAllocations hd, .getMultiHeadedInfo hd, .qosCommands hd .getControl,
      .qosCommands hd .getStatus, .qosCommands hd .getAllocated, .qosCommands hd .getLimit],
      ∃ t, exec c s = .next t ∧ Answered s t) ∧
    (∀ host, host < 16 → ∀ c ∈ [Instr.getDcdInfo hd, .getHostDcRegionConfig hd host, .getDcRegionExtentLists hd host],
      ((s.cxp.head.get hd).mode ≠ 1 → ∃ t, exec c s = .next t ∧ Answered s t) ∧
      ((s.cxp.head.get hd).mode = 1 → ∃ t, exec c s = .next t ∧ t.resp.ret = .unsupported ∧ { t with resp := s.resp } = s)) ∧
    (∀ v, (∃ t, exec (.qosCommands hd (.setControl v)) s = .next t ∧ (t.cxp.head.get hd).qos.lookD 0 0 = v) ∧
      (∃ t, exec (.qosCommands hd (.setAllocated v)) s = .next t ∧ (t.cxp.head.get hd).qos.lookD 1 0 = v) ∧
      (∃ t, exec (.qosCommands hd (.setLimit v)) s = .next t ∧ (t.cxp.head.get hd).qos.lookD 2 0 = v)) ∧
    (∀ r, (s.cxp.head.get hd).mode ≠ 1 → r ≤ 1 →
      ∃ t, exec (.setDcRegionConfiguration hd r granule) s = .next t ∧ t.resp.ret = .success ∧
      (t.cxp.head.get hd).dcBlock = granule) ∧
    (∀ r b, (s.cxp.head.get hd).mode ≠ 1 → b ≠ granule → ∃ t, exec (.setDcRegionConfiguration hd r b) s = .next t ∧ t.resp.ret = .invalidInput ∧
      { t with resp := s.resp } = s) ∧
    (∀ l base len, (s.cxp.head.get hd).mode ≠ 1 → l < 16 → len ≠ 0 → base % granule = 0 → len % granule = 0 →
      base + len ≤ dpaEnd → (∀ e, e ∈ s.allExtents → ¬(base < e.1 + e.2 ∧ e.1 < base + len)) →
      ∃ t, exec (.initiateDcAdd hd l base len) s = .next t ∧ t.resp.ret = .success ∧
        (t.ld ⟨hd, l⟩).offered = (s.ld ⟨hd, l⟩).offered ++ [(base, len)] ∧
        (t.ld ⟨hd, l⟩).extents = (s.ld ⟨hd, l⟩).extents) ∧
    (∀ l e, (s.cxp.head.get hd).mode ≠ 1 → (s.ld ⟨hd, l⟩).extents.find? (fun x => x.base == e.base) = some e →
      s.mayLeave ⟨hd, l⟩ e = true →
      ∃ t, exec (.initiateDcRelease hd l e.base e.len true) s = .next t ∧
        (t.ld ⟨hd, l⟩).extents = (s.ld ⟨hd, l⟩).extents.filter (fun x => x.base != e.base)) ∧
    (∀ l e, (s.ld ⟨hd, l⟩).extents.find? (fun x => x.base == e.base && x.closing) = some e →
      s.mayLeave ⟨hd, l⟩ e = true →
      ∃ t, exec (.extentRemovalDone ⟨hd, l⟩ e.base) s = .next t ∧
        (t.ld ⟨hd, l⟩).extents = (s.ld ⟨hd, l⟩).extents.filter (fun x => x.base != e.base)) ∧
    (∀ c w, c < 4096 → s.inflightTo c ((s.ctx c).bind &&& ~~~w) = false → ∃ t, exec (.bindContext hd c w) s = .next t ∧ (t.ctx c).bind = w ∧ t.resp.ret = .success ∧
      (∀ c', c' ≠ c → t.ctx c' = s.ctx c') ∧ SameMemory s t) ∧
    (∀ lds, (s.cxp.head.get hd).sf = [] → ∃ t, exec (.hostDown hd lds) s = .next t ∧ t.resp.ret = .success) ∧
    (∀ base n, n ≠ 0 → n ≤ 32768 → base % granule = 0 → base + n * granule ≤ ctxSpaceEnd → s.cxp.shared.lowFree < 16 →
      (s.cxp.head.get hd).mode = 2 → (∃ c, s.granuleCtx (base / granule) = some c ∧ s.owns c base (n * granule) = true) →
      (∀ e, e ∈ s.heldExtents → ¬(base < e.2.1 + e.2.2 ∧ e.2.1 < base + n * granule)) →
      (∀ r, r ∈ s.cxp.shared.vals → ¬(base < r.base * granule + r.granules * granule ∧ r.base * granule < base + n * granule)) →
      ∃ t, exec (.defineSharedRegion hd base n) s = .next t ∧ t.resp.ret = .success ∧
        t.cxp.shared.look s.cxp.shared.lowFree = some { base := base / granule, granules := n }) ∧
    (∀ i r, s.cxp.shared.look i = some r → s.tracked = [] →
      ∃ t, exec (.deleteSharedRegion hd i) s = .next t ∧ t.resp.ret = .success ∧ t.cxp.shared.look i = none ∧
        SameMemory s t) ∧
    (∀ l g, l < 16 → ∃ t, exec (.setLdPrivilege hd l g) s = .next t ∧ t.manager ⟨hd, l⟩ = g ∧ t.resp.ret = .success)

/-! ### Host accesses, links, lines held by hosts -/

/-- R192, R193, R272, R275, R276, R282: a host's load or store of context space that passes its checks reads or writes
memory, in a line that no shared region holds, and its response carries a DevLoad; one that fails its checks reads poison or
stores nothing; one that must wait for other holders of its lines, or for room in the snoop filter, waits without a
response; one that no committed decoder passes has no answer. R192, R193: a load of the object view returns the bytes of a
resident page, waits for one that is not resident, and returns poison outside its extents and pages; a write to the object
view is discarded. -/
def Obligations.HostAccessesServed : Prop :=
  (∀ (ld : Ld) (a n : Nat) (data : List Byte) (bi : Bool) (s : State), s.mem.wf = true →
      (s.decoded ld bi = false →
        (∃ t, exec (.hostMemRead ld a n bi) s = .next t ∧ t.resp.ret = .none ∧ { t with resp := s.resp } = s) ∧
        (∃ t, exec (.hostMemWrite ld a data bi) s = .next t ∧ t.resp.ret = .none ∧ { t with resp := s.resp } = s)) ∧
      (s.decoded ld bi = true → a < ctxSpaceEnd →
        (s.reachBad ld a n bi = none →
          (s.sharedLines a n = [] → s.mem.readErr a n = none → ∃ t, exec (.hostMemRead ld a n bi) s = .next t ∧
            t.resp.out = s.peek a n ∧ t.resp.poison = false ∧ t.resp.devLoad = some (Config.devLoad s.fresh) ∧ SameMemory s t) ∧
          (s.sharedLines a n = [] → s.mem.readErr a n ≠ none → ∃ t, exec (.hostMemRead ld a n bi) s = .next t ∧
            t.resp.out = [] ∧ t.resp.poison = true ∧ SameMemory s t) ∧
          (s.reqConflicts ⟨ld, a, n, none, false⟩ ≠ [] → ∃ t, exec (.hostMemRead ld a n bi) s = .next t ∧ t.resp = {} ∧
            t.cxp.reqs = s.cxp.reqs ++ [⟨ld, a, n, none, false⟩] ∧ SameMemory s t)) ∧
        (∀ k, s.reachBad ld a n bi = some k → ∃ t, exec (.hostMemRead ld a n bi) s = .next t ∧ t.resp.ret = .success ∧
          t.resp.poison = true ∧ t.resp.devLoad.isSome = true ∧ SameMemory s t) ∧
        (s.reachBad ld a data.length bi = none →
          (s.sharedLines a data.length = [] → ∃ t, exec (.hostMemWrite ld a data bi) s = .next t ∧ t.resp.ret = .success ∧
            t.resp.devLoad = some (Config.devLoad s.fresh) ∧ t.peek a data.length = data ∧
            SameMemoryBut a data.length s t) ∧
          (s.reqConflicts ⟨ld, a, data.length, some data, false⟩ ≠ [] → ∃ t, exec (.hostMemWrite ld a data bi) s = .next t ∧
            t.resp = {} ∧ t.cxp.reqs = s.cxp.reqs ++ [⟨ld, a, data.length, some data, false⟩] ∧ SameMemory s t)) ∧
        (∀ k, s.reachBad ld a data.length bi = some k → ∃ t, exec (.hostMemWrite ld a data bi) s = .next t ∧
          t.resp.ret = .success ∧ SameMemory s t))) ∧
  (∀ (ld : Ld) (a n : Nat) (s : State),
      (s.decoded ld false = true → s.openTo ld a n = true →
        (∀ h, s.viewPage a n = some h → s.frameGone (pageDie h) (s.page h).primary = false →
          s.frameGone (pageDie h) (s.page h).mirror = false → s.lineBad h = false → s.bound ld (s.page h).ctx = true →
          ((s.page h).resident = true → s.mem.readErr a n = none → ∃ t, exec (.viewLoad ld a n) s = .next t ∧
            t.resp.out = s.peek a n ∧ t.resp.poison = false ∧ t.resp.devLoad.isSome = true ∧ (t.page h).ref = true ∧
            SameMemory s t) ∧
          ((s.page h).resident = false → ∃ t w, exec (.viewLoad ld a n) s = .next t ∧ w ∈ t.drt.hostWaits ∧ w.ld = ld ∧
            w.dpa = a ∧ w.len = n ∧ w.handle = h ∧ t.resp.ret = .none)) ∧
        (s.viewPage a n = none → ∃ t, exec (.viewLoad ld a n) s = .next t ∧ t.resp.poison = true ∧ SameMemory s t) ∧
        (∃ t, exec (.viewWrite ld a n) s = .next t ∧ t.resp.ret = .success ∧ t.pages = s.pages ∧ SameMemory s t)) ∧
      (s.decoded ld false = true → s.openTo ld a n = false →
        (∃ t, exec (.viewLoad ld a n) s = .next t ∧ t.resp.poison = true ∧ SameMemory s t) ∧
        (∃ t, exec (.viewWrite ld a n) s = .next t ∧ t.resp.ret = .success ∧ SameMemory s t)) ∧
      (s.decoded ld false = false →
        (∃ t, exec (.viewLoad ld a n) s = .next t ∧ t.resp.ret = .none ∧ { t with resp := s.resp } = s) ∧
        (∃ t, exec (.viewWrite ld a n) s = .next t ∧ t.resp.ret = .none ∧ { t with resp := s.resp } = s)))

/-- R271, R273, R276, R297: a decoder is committed after the decoders below it and its DPA skip, or refused with its error bit,
once; a head's link comes up at the widest width of its working lanes, goes down with its decoders and IDE streams gone, and narrows on a lane fault. -/
def Obligations.DecodersAndLinks : Prop :=
  ∀ (s : State),
    (∀ (ld : Ld) (i base size skip ways : Nat) (bi : Bool), i < 4 → (s.cxp.head.get ld.head).up = true →
      ((s.ld ld).decoders.lookD i {}).committed = false →
      let below := ((s.ld ld).decoders.filter (fun d => decide (d.1 < i) && d.2.committed)).foldl
        (fun n d => n + (d.2.skip + d.2.size)) 0
      let good : Bool := decide (ways = 1 ∧ base % 268435456 = 0 ∧ size % 268435456 = 0 ∧ below + (skip + size) ≤ dpaEnd) &&
        (s.cxp.head.get ld.head).hdmEn && !(bi && decide ((s.cxp.head.get ld.head).mode = 1))
      ∃ t, exec (.hdmDecoderCommit ld i base { size := size, skip := skip } ways bi) s = .next t ∧
        (t.ld ld).decoders.look i =
          some { base := base, size := size, skip := skip, committed := good, bi := bi, error := !good } ∧
        (∀ j, j ≠ i → (t.ld ld).decoders.look j = (s.ld ld).decoders.look j) ∧ { t with cxp := s.cxp } = s) ∧
    (∀ (ld : Ld) (i base ways : Nat) (size : HdmSize) (bi : Bool), ((s.ld ld).decoders.lookD i {}).committed = true →
      exec (.hdmDecoderCommit ld i base size ways bi) s = .next s) ∧
    (∀ (hd : Side) (mode : Nat), (s.cxp.head.get hd).up = false → 1 ≤ mode → mode ≤ 2 → s.pkg.powered = true →
      s.pkg.resetHigh = true → ∃ t, exec (.cxlLinkUp hd mode) s = .next t ∧
        t.cxp.head.get hd = { s.cxp.head.get hd with up := true, mode := mode, width := (s.cxp.head.get hd).widest } ∧ { t with cxp := s.cxp } = s) ∧
    (∀ (hd : Side), (s.cxp.head.get hd).up = true → ∃ t, exec (.cxlLinkDown hd) s = .next t ∧
      (t.cxp.head.get hd).up = false ∧ (t.cxp.head.get hd).ideIo = false ∧ (t.cxp.head.get hd).ideMem = false ∧
      (∀ l, (t.ld ⟨hd, l⟩).decoders = []) ∧ (∀ l, (t.ld ⟨hd, l⟩).extents =
        (s.ld ⟨hd, l⟩).extents.map (fun e => if e.closing then { e with dropped := true } else e)) ∧
      (t.cxp.head.get hd).sf = (s.cxp.head.get hd).sf ∧ (∀ w, w ∈ t.cxp.reqs → w.ld.head = hd → w.dropped = true) ∧
      (∀ w, w ∈ t.drt.hostWaits → w.ld.head = hd → w.dropped = true) ∧
      (∀ w, w ∈ t.drt.granWaits → w.ld.head = hd → w.dropped = true) ∧
      (∀ w, w ∈ t.drt.loadWaits → w.ld.head = hd → w.dropped = true) ∧ { t with cxp := s.cxp, drt := s.drt } = s) ∧
    (∀ (hd : Side) (width lane : Nat), s.live = true → s.gbl.stopped = false → s.gbl.windows = [] →
      (s.cxp.head.get hd).up = true → width ∈ [4, 8, 16] → width ≤ (s.cxp.head.get hd).width →
      ∃ t, exec (.cxlLaneFail hd width lane) s = .next t ∧ (t.cxp.head.get hd).width = width ∧
        (t.cxp.head.get hd).up = true ∧ t.gbl.fault = faultWord s.gbl.fault 6 hd lane ∧ t.gbl.alert = true ∧
        t.gbl.windows = [{ kind := .cxlLane, die := hd, unit := lane, opened := s.now.toNat }] ∧ SameMemory s t)

/-- R280, R283-R285: the answer of a holder that was asked gives its line up, writing back the data it owned; a holder that does not
answer in time is noted and snooped again, also where its host is down, and a line of a host that is down or of a forced removal is
poisoned then; an answer that comes later is discarded and noted. -/
def Obligations.HeldLinesResolved : Prop :=
  ∀ (s : State) (line : Nat), s.mem.wf = true →
    (∀ (ld : Ld) (e : SfEntry), s.cxp.late.contains (ld, line) = false → (s.cxp.head.get ld.head).entry? line = some e →
      e.target &&& BitVec.ofNat 16 (2 ^ ld.id) ≠ 0 → ∀ data : Option (List Byte),
      let me := BitVec.ofNat 16 (2 ^ ld.id)
      let keep := e.holders &&& ~~~me
      let left := e.target &&& ~~~me
      ∃ u, exec (.biResponse ld line data) s = .next u.linesResolved ∧
        (u.cxp.head.get ld.head).entry? line = (if keep = 0 then none else some { e with
          holders := keep, target := left, forced := e.forced &&& ~~~me
          snoopAt := if left = 0 then none else e.snoopAt }) ∧
        (∀ l, l ≠ line → (u.cxp.head.get ld.head).entry? l = (s.cxp.head.get ld.head).entry? l) ∧
        (data = none ∨ e.owned = false → SameMemory s u) ∧
        (∀ bs, data = some bs → e.owned = true → bs.length = 64 →
          u.peek (64 * line) 64 = bs ∧ SameMemoryBut (64 * line) 64 s u)) ∧
    (∀ (ld : Ld) (data : Option (List Byte)), s.cxp.late.contains (ld, line) = true →
      ∃ t, exec (.biResponse ld line data) s = .next t ∧ t.cxp.lateBirsp = true ∧
        t.cxp.late = s.cxp.late.erase (ld, line) ∧ t.cxp.head = s.cxp.head ∧ SameMemory s t) ∧
    (∀ (ld : Ld) (data : Option (List Byte)), s.cxp.late.contains (ld, line) = false →
      (s.cxp.head.get ld.head).entry? line = none → exec (.biResponse ld line data) s = .next s) ∧
    (∀ (hd : Side) (e : SfEntry) (t0 : Nat), (s.cxp.head.get hd).entry? line = some e → e.snoopAt = some t0 →
      (e.down = false → e.forced = 0 → e.lastSnoop + 1000 * s.cxp.biTimeoutUs ≤ s.now.toNat →
        exec (.biTimeout hd line) s = .next (s.biAgain hd e) ∧ ((s.biAgain hd e).cxp.head.get hd).biTimeout = true ∧
          ((s.biAgain hd e).cxp.head.get hd).entry? line = some { e with lastSnoop := s.now.toNat } ∧
          SameMemory s (s.biAgain hd e)) ∧
      (e.down = true ∨ e.forced ≠ 0 → t0 + 1000 * s.cxp.biTimeoutUs ≤ s.now.toNat →
        e.lastSnoop + 1000 * s.cxp.biTimeoutUs ≤ s.now.toNat →
        let gone := if e.owned then e.holders else e.forced
        ∃ u, exec (.biTimeout hd line) s = .next u.linesResolved ∧ line ∈ u.mem.poison ∧
          (u.cxp.head.get hd).biTimeout = true ∧ (e.holders &&& ~~~gone = 0 → (u.cxp.head.get hd).entry? line = none) ∧
          (e.holders &&& ~~~gone ≠ 0 → ∃ e', (u.cxp.head.get hd).entry? line = some e' ∧
            e'.holders = e.holders &&& ~~~gone ∧ e'.target = e.target &&& ~~~gone) ∧
          u.cxp.poisoned = s.cxp.poisoned + 1 ∧
          u.cxp.late = s.cxp.late ++ (ldsOf hd (e.target &&& gone)).map (fun l => (l, line)) ∧ SameMemory s u) ∧
      (e.down = false → e.forced = 0 → s.now.toNat < e.lastSnoop + 1000 * s.cxp.biTimeoutUs →
        exec (.biTimeout hd line) s = .next s))

/-! ### Residency over time, the Coal store -/

/-- R118, R119, R200, R202, R208, R213, R216, R217, R219, R424: promotions, demotions, bounds and holds, tables that leave, the
sweeps. -/
def Obligations.ResidencyMoves : Prop :=
  ∀ (s : State),
    (∀ (d : Side) (r : PromReq), s.running = true → s.coal.en = true → s.coal.ready = true →
      ((s.drt.reqs.get d).filter (fun x => x.issuedAt.isSome)).length < 1024 → s.nextReq d = some r →
      (r.handle < 2 ^ 38 → exec (.promotionIssue d) s = .next (s.startPromotion d r) ∧
        ((s.page r.handle).res = .cold → ∀ f s1,
          s.allocFrame d (s.page r.handle).pref (s.page r.handle).kib none [] = .got f s1 →
          ((s.startPromotion d r).page r.handle).res = .promoting ∧
          ((s.startPromotion d r).page r.handle).primary = some f ∧ (s.startPromotion d r).drt.reqs.get d =
            (s1.drt.reqs.get d).map (fun x =>
              if x.handle == r.handle then { x with
                issuedAt := some s1.now.toNat, allocWait := false
                locs := ((s1.coal.half.get d).map.look r.handle).toList } else x))) ∧
      (2 ^ 38 ≤ r.handle → exec (.promotionIssue d) s = .next (s.startTables d r) ∧
        (s.startTables d r).drt.reqs.get d = (s.drt.reqs.get d).map (fun x => if x.handle == r.handle then { x with
          issuedAt := some s.now.toNat
          locs := (s.tableKeys (r.handle - 2 ^ 38)).filterMap (s.coal.half.get d).map.look } else x))) ∧
    (∀ (h : Nat) (read : MediaRead) (authOk : Bool) (r : PromReq), h < 2 ^ 38 →
      (s.drt.reqs.get (pageDie h)).find? (fun x => x.handle == h && x.issuedAt.isSome) = some r → s.live = true →
      s.pkg.powerWarn = false → (s.page h).res = .promoting → r.locs ≠ [] →
      let m := (s.coal.half.get (pageDie h)).readAll read r.locs
      let s1 := s.readRecords (pageDie h) r.locs m
      let s2 := s1.setReqs (pageDie h) ((s1.drt.reqs.get (pageDie h)).filter (fun x => x.handle != h))
      (m ≠ .uncorrectable → s1.tagOk h authOk = true → s1.crcOk h = true →
        exec (.promotionComplete h read authOk) s = .next ((s1.promoted h r).settle (pageDie h))) ∧
      (m = .uncorrectable → exec (.promotionComplete h read authOk) s =
        .next ((s2.countLost.promotionLost h).settle (pageDie h))) ∧
      (m ≠ .uncorrectable → s1.tagOk h authOk = false ∨ s1.crcOk h = false → exec (.promotionComplete h read authOk) s =
        .next ((s2.promotionLost h).settle (pageDie h)))) ∧
    (∀ (a : At) (r : JRec) (w : Wait) (h : Nat), s.rec? a = some r → r.state = .issued → r.wait = some w →
      (h ∈ s.duePages w → exec (.residencyBoundExpiry (.instr a) h) s =
        .next ((s.count 0x03200138 (s.duePages w).length).expire a w.handles)) ∧
      (h ∉ s.duePages w → exec (.residencyBoundExpiry (.instr a) h) s = .next s)) ∧
    (∀ (ld : Ld) (a h : Nat) (x : HostWait),
      s.drt.hostWaits.find? (fun w => w.ld == ld && w.dpa == a && w.handle == h) = some x →
      x.dropped = false → s.cxp.bindWaits = [] →
      (x.since + 1000 * s.drt.boundUs ≤ s.now.toNat → ∃ t, exec (.residencyBoundExpiry (.load ld a) h) s = .next t ∧
        t.drt.hostWaits = s.drt.hostWaits.filter (· != x) ∧ t.resp.poison = true ∧
        t.drt.nrAddr = BitVec.ofNat 64 x.dpa ∧ t.drt.nrTime = s.now ∧ t.pages = s.pages ∧ SameMemory s t) ∧
      (s.now.toNat < x.since + 1000 * s.drt.boundUs → exec (.residencyBoundExpiry (.load ld a) h) s = .next s)) ∧
    (∀ (h t0 : Nat), (s.page h).staged = some t0 → s.live = true →
      (t0 ≤ s.now.toNat → ∃ t, exec (.stageHoldExpiry h) s = .next t ∧
        t.page h = { s.page h with staged := none, promotePending := false } ∧ (∀ k, k ≠ h → t.page k = s.page k) ∧
        t.mem = s.mem) ∧
      (s.now.toNat < t0 → exec (.stageHoldExpiry h) s = .next s)) ∧
    (∀ d : Side, s.running = true →
      (s.low d = false → s.drt.reclaiming.get d = false → exec (.backgroundReclaim d) s = .next s) ∧
      (s.low d = true ∨ s.drt.reclaiming.get d = true →
        exec (.backgroundReclaim d) s =
          .next (({ s with drt := { s.drt with reclaiming := s.drt.reclaiming.set d true } }).reclaimPages 64 d))) ∧
    (∀ h, (s.page h).res = .demoting → s.live = true → s.pkg.powerWarn = false →
      (∀ e, e ∈ (s.coal.half.get (pageDie h)).row → e.key ≠ h) →
      (∀ e, (s.coal.half.get (pageDie h)).map.look h = some e → (s.page h).noDemote = false →
        exec (.demotionComplete h) s = .next (((((s.setPage h { s.page h with
          res := .clean, coal := true, coalEpoch := e.epoch }).count 0x03200108).relist h).chunkLoaded h).roomMade (pageDie h))) ∧
      ((s.coal.half.get (pageDie h)).map.look h = none → exec (.demotionComplete h) s =
        .next (((s.setPage h { s.page h with res := .hot }).relist h).roomMade (pageDie h)))) ∧
    (∀ k, (s.tablesMayLeave k = false → exec (.tableDemote k) s = .next s) ∧
      (s.running = true → s.tablesMayLeave k = true → s.coal.en = true → (s.coal.half.get (seqHome k)).ready = true →
        s.coal.readOnly = false → s.demotionsRun (seqHome k) = true →
        let kib := s.tableKib (s.seq k) + ceilDiv (32 * s.awayHandles (s.seq k)) 1024
        let n := (s.coal.half.get (seqHome k)).newTable (tableChunks kib) false
        ∀ s1, (s.coalWrite (seqHome k) (tableEnts (seqHome k) n kib (s.ctx (s.seq k).ctx).present false (s.seq k).ctx)
            = (true, s1) →
          ∃ t, exec (.tableDemote k) s = .next t ∧
            t.seq k = { s.seq k with dirCold := true, tableRec := some (n, tableChunks kib) } ∧
            (∀ m, m ≠ k → t.seq m = s.seq m) ∧ t.mem = s.mem) ∧
          (s.coalWrite (seqHome k) (tableEnts (seqHome k) n kib (s.ctx (s.seq k).ctx).present false (s.seq k).ctx)
            = (false, s1) → exec (.tableDemote k) s = .next s1))) ∧
    (∀ d : Side, (s.drt.failed.get d = [] → exec (.stackSweepStep d) s = .next s) ∧
      (s.live = true → s.pkg.powerWarn = false → s.drt.failed.get d ≠ [] → ∀ h hs, s.hurt d = h :: hs →
        exec (.stackSweepStep d) s = .next (s.sweepHurt h))) ∧
    (s.dom.sweepEn = false → exec .orphanSweepTick s = .next s) ∧
    (s.dom.sweepEn = true → s.running = true → ∃ t, exec .orphanSweepTick s = .next t ∧
      ∀ d, t.dom.sweepAt.get d = (s.dom.sweepAt.get d + 1) % 2 ^ 24) ∧
    (s.dom.persistLoaded = true ∨ s.dom.dirEn = false ∨ s.sec.persistRoot = none ∨ s.coal.en = false →
      exec .persistReinsert s = .next s) ∧
    (s.dom.persistLoaded = false → s.dom.dirEn = true → s.sec.persistRoot ≠ none → s.running = true →
      s.coal.en = true → s.coal.half.w.ready = true → s.coal.half.e.ready = true →
      ∃ t, exec .persistReinsert s = .next t ∧ t.dom.persistLoaded = true)

/-- R237, R240, R249, R254, R255, R258-R262: a row programmed maps its records, a failed one closes its superblock and retires a
block; a superblock reclaimed, erased, read by the patrol; a checkpoint; a LUN that fails. -/
def Obligations.CoalMediaServed : Prop :=
  ∀ (s : State) (d : Side),
    (∀ ch k h row, s.rowRuns d = true → s.coal.nextRow (s.coal.half.get d) false (s.coal.half.get d).row = some (k, h, row) →
      (∃ t, exec (.coalRowProgrammed d true ch) s = .next t ∧ (s.coal.en = true → t.coal.half.get d =
          { s.coal.writeRow k row { h with row := h.row.drop row.length, programming := false } with leafMiss := 0 }) ∧
        (∀ e, e ∈ row → e.from_ = none → e.gone = false → ((t.coal.half.get d).map.look e.key).isSome = true) ∧
        { t with coal := s.coal, tel := s.tel } = s) ∧
      (∃ t, exec (.coalRowProgrammed d false ch) s = .next t ∧ ((t.coal.half.get d).sb k).state = .closed ∧
        (t.coal.half.get d).row = (s.coal.half.get d).row ∧ (t.coal.half.get d).map = (s.coal.half.get d).map ∧
        ((∃ m, m ∈ (h.sb k).members ∧ m.1 = ch % 16) → (s.coal.half.get d).retired.length = 16 →
          (t.coal.half.get d).retired.getD (ch % 16) 0 = (s.coal.half.get d).retired.getD (ch % 16) 0 + 1) ∧
        SameMemory s t)) ∧
    (s.coal.nextRow (s.coal.half.get d) false (s.coal.half.get d).row = none → ∀ ok ch,
      exec (.coalRowProgrammed d ok ch) s = .next s) ∧
    (s.coal.gcEn = true → s.coal.en = true → (s.coal.half.get d).ready = true → s.coal.readOnly = false →
      s.pkg.powerWarn = false → s.running = true →
      ((s.gcVictim d).or (s.wearVictim d) = none → exec (.gcReclaim d) s = .next s) ∧
      (∀ k s1, (s.gcVictim d).or (s.wearVictim d) = some k →
        let stuck := (s.coal.half.get d).stuckIn k
        let good := ((s.coal.half.get d).live k).keep (fun i _ => !(stuck.has i))
        (s.readRecords d good.vals ((s.coal.half.get d).readAll .hard good.vals)).coalStore d true (good.map (fun p =>
          ({ key := p.1, kib := p.2.kib, epoch := p.2.epoch, persist := p.2.persist, ctx := p.2.ctx, salt := p.2.salt, from_ := some p.2 } : RowEnt)))
          = some s1 →
        ∃ t, exec (.gcReclaim d) s = .next t ∧ ((t.coal.half.get d).sb k).state = (if stuck = [] then .erasing else .closed) ∧
          ((t.coal.half.get d).sb k).refresh = false ∧ ((t.coal.half.get d).sb k).relocate = false ∧
          (t.coal.half.get d).map = (s1.coal.half.get d).map ∧
          { t with coal := s.coal, tel := s.tel, fresh := s.fresh } = s)) ∧
    (∀ k failed, s.pkg.powerWarn = false → s.live = true →
      (((s.coal.half.get d).sb k).state = .erasing → s.readsIn d k = true → exec (.coalEraseDone d k failed) s = .next s) ∧
      (((s.coal.half.get d).sb k).state = .erasing → s.readsIn d k = false → ∃ t, exec (.coalEraseDone d k failed) s = .next t ∧
        (t.coal.half.get d).sb k = { erases := ((s.coal.half.get d).sb k).erases + 1 } ∧
        (t.coal.half.get d).map = (s.coal.half.get d).map ∧
        (failed = [] → { t with coal := s.coal, tel := s.tel } = s)) ∧
      (((s.coal.half.get d).sb k).state ≠ .erasing → exec (.coalEraseDone d k failed) s = .next s)) ∧
    (∀ k failed, s.pkg.powerWarn = true → exec (.coalEraseDone d k failed) s = .next s) ∧
    ((s.coal.half.get d).ready = true → s.pkg.powerWarn = false → s.live = true → s.coal.formatting = false →
      ((s.coal.half.get d).ckptAt + 1000000 * s.coal.ckptMs ≤ s.now.toNat → ∃ t, exec (.coalCheckpoint d) s = .next t ∧
        (t.coal.half.get d).index.map = (s.coal.half.get d).map ∧ (t.coal.half.get d).index.dir = (t.coal.half.get d).dir ∧ sinceCheckpoint (t.coal.half.get d).log = [] ∧
        (t.coal.half.get d).logBuf = [] ∧ (t.coal.half.get d).map = (s.coal.half.get d).map ∧
        { t with coal := s.coal } = s) ∧
      (s.now.toNat < (s.coal.half.get d).ckptAt + 1000000 * s.coal.ckptMs →
        16 * (sinceCheckpoint (s.coal.half.get d).log).length < 1073741824 → exec (.coalCheckpoint d) s = .next s)) ∧
    (∀ k read weak, s.coal.patrolEn = true → s.coal.en = true → (s.coal.half.get d).ready = true →
      (s.coal.half.get d).sbs.has k = true → ((s.coal.half.get d).sb k).state ≠ .free →
      ((s.coal.half.get d).sb k).state ≠ .erasing → s.pkg.powerWarn = false → s.live = true →
      (s.coal.patrolDue ((s.coal.half.get d).sb k) s.now.toNat = false → exec (.patrolRead d k read weak) s = .next s) ∧
      (s.coal.patrolDue ((s.coal.half.get d).sb k) s.now.toNat = true → ∃ t, exec (.patrolRead d k read weak) s = .next t ∧
        ((t.coal.half.get d).sb k).reads = ((((s.coal.half.get d).sb k).members.map (fun m => (m.1, 1))).foldl Superblock.read
          ((s.coal.half.get d).sb k)).reads ∧ ((t.coal.half.get d).sb k).patrolled = some s.now.toNat ∧
        (read ≠ .hard ∨ weak = true → ((t.coal.half.get d).sb k).refresh = true) ∧
        (t.coal.half.get d).map = (s.coal.half.get d).map ∧
        { t with coal := s.coal, tel := s.tel, fresh := s.fresh } = s)) ∧
    (∀ ch lun, ch < 32 → lun < s.coal.luns → s.live = true → s.gbl.stopped = false → s.gbl.windows = [] →
      ∃ t, exec (.nandLunFail ch lun) s = .next t ∧
        (ch % 16, lun) ∈ (t.coal.half.get (sideOf (ch / 16))).failedLuns ∧
        t.gbl.fault = faultWord s.gbl.fault 8 (sideOf (ch / 16)) (ch % 16) ∧ t.gbl.alert = true ∧
        t.gbl.windows = [{ kind := .nandDie, die := sideOf (ch / 16), unit := ch % 16, opened := s.now.toNat }] ∧
        SameMemory s t)

/-- R234, R249-R251, R268, R521-R523: the Coal store's channels, its enable, its replay and its format. -/
def Obligations.CoalControl : Prop :=
  ∀ (s : State),
    (∀ (ld : Ld) (v : BitVec 64), s.regWritable ld = true →
      (v.getLsbD 0 = true → v.getLsbD 4 = false → s.coal.en = false → s.coal.formatting = false →
        (s.coal.missing .west).length ≤ 1 → (s.coal.missing .east).length ≤ 1 →
        ∃ t, exec (.coalEnSet ld v) s = .next t ∧ t.coal.en = true ∧ t.coal.gcEn = v.getLsbD 1 ∧ t.coal.wlEn = v.getLsbD 2 ∧
          t.coal.patrolEn = v.getLsbD 3 ∧
          (∀ d, ((s.coal.half.get d).replayed = true → (t.coal.half.get d).ready = s.coal.media) ∧
            ((s.coal.half.get d).replayed = false → (t.coal.half.get d).replaying = true)) ∧
          { t with coal := s.coal } = s) ∧
      (v.getLsbD 0 = true → v.getLsbD 4 = false → s.coal.en = false →
        s.coal.formatting = true ∨ 1 < (s.coal.missing .west).length ∨ 1 < (s.coal.missing .east).length →
        exec (.coalEnSet ld v) s = .next s) ∧
      (v.getLsbD 0 = false → v.getLsbD 4 = false → s.coal.en = true →
        ∃ t, exec (.coalEnClear ld v) s = .next t ∧ t.coal.en = false ∧ t.coal.gcEn = v.getLsbD 1 ∧
          (∀ d, (t.coal.half.get d).row = (s.coal.half.get d).row.take
              (((s.coal.nextRow (s.coal.half.get d) false (s.coal.half.get d).row).map (·.2.2.length)).getD 0) ∧
            (t.coal.half.get d).ready = ((s.coal.half.get d).ready && t.mediaBusy d) ∧
            (t.coal.half.get d).map = (s.coal.half.get d).map) ∧ t.mem = s.mem) ∧
      (v.getLsbD 4 = true → v.getLsbD 0 = false → s.coal.en = false → s.coal.formatting = false →
        ∃ t, exec (.coalFormat ld v) s = .next t ∧ t.coal.formatting = true ∧ t.coal.formatted = false ∧
          (∀ d, (t.coal.half.get d).ready = false) ∧ { t with coal := s.coal } = s) ∧
      (v.getLsbD 4 = true → s.coal.en = true ∨ s.coal.formatting = true ∨ v.getLsbD 0 = true →
        exec (.coalFormat ld v) s = .next s) ∧
      (∃ t, exec (.coalChEnWrite ld v) s = .next t ∧
        t.coal.chEn = (v.setWidth 32 ||| (if s.coal.en || s.coal.formatting then s.coal.chEn else 0)) ∧
        (∀ i, i < 32 → t.coal.chEn.getLsbD i = true → s.coal.chEn.getLsbD i = false → t.coal.powering.getLsbD i = true) ∧
        { t with coal := s.coal } = s)) ∧
    (∀ (ch : Nat) (found : NandId), ch < 32 → s.coal.powering.getLsbD ch = true → s.coal.rises.lookD ch 0 ≤ s.now.toNat →
      (nandOk found = true → s.coal.nand = none → ∃ t, exec (.coalChannelIdentify ch found) s = .next t ∧
        t.coal.inService.getLsbD ch = true ∧ t.coal.powering.getLsbD ch = false ∧
        (ch = 0 → t.coal.nand = some found) ∧ { t with coal := s.coal } = s) ∧
      (nandOk found = false → ∃ t, exec (.coalChannelIdentify ch found) s = .next t ∧
        t.coal.chFault.getLsbD ch = true ∧ t.coal.powering.getLsbD ch = false ∧ t.coal.inService.getLsbD ch = false ∧
        { t with coal := s.coal } = s)) ∧
    (∀ (d : Side), (s.coal.half.get d).replaying = true → s.coal.formatting = false → s.live = true → s.pkg.powerWarn = false →
      ∃ t, exec (.coalReplayDone d) s = .next t ∧ (t.coal.half.get d).replayed = true ∧
        (t.coal.half.get d).replaying = false ∧
        (t.coal.half.get d).map = (s.coal.half.get d).replayMap ∧
        (t.coal.half.get d).ready = (s.coal.en && s.coal.media) ∧ t.coal.formatted = s.coal.media ∧
        { t with coal := s.coal, tel := s.tel } = s) ∧
    (∀ (good : List Nat), s.coal.formatting = true → s.live = true → s.pkg.powerWarn = false →
      ∃ t, exec (.coalFormatDone good) s = .next t ∧ t.coal.formatting = false ∧
        t.coal.formatted = good.all (fun n => 4 ≤ n) ∧
        (good.all (fun n => 4 ≤ n) = false → t.coal.formatErr = true) ∧
        (∀ d, (t.coal.half.get d).map = [] ∧ (t.coal.half.get d).worn = s.failsAt d) ∧
        t.coal.rootCheck = none ∧ t.dom.catalogue = [] ∧ t.gbl.bootSeq = 0 ∧ t.mem = s.mem)

/-! ### Resets, power, the package -/

/-- R415, R418, R428, R505, R507: GBL_CTL and GBL_FAULT written through a MANAGER LD, and the end of a warm reset: HELD, with
rings, contexts, pages and memory as they were. -/
def Obligations.GlobalControl : Prop :=
  ∀ (s : State),
    (∀ (ld : Ld) (v : BitVec 64), s.pkg.powered = true → s.pkg.resetHigh = true → s.manager ld = true →
      (v.getLsbD 0 = true → v.getLsbD 2 = false → v.getLsbD 3 = false → s.gbl.fwReady = true → s.gbl.held = false →
        s.gbl.warming = false → s.gbl.stopped = false → s.pkg.powerWarn = false → s.gbl.powerHold = false →
        ∃ t, exec (.gblWarmReset ld v) s = .next t ∧ t.gbl.warming = s.gbl.windows.isEmpty ∧
          t.gbl.warmWaiting = !s.gbl.windows.isEmpty ∧ { t with gbl := s.gbl, pkg := s.pkg } = s) ∧
      (v.getLsbD 1 = true → v.getLsbD 2 = false → s.gbl.held = true →
        ∃ t, exec (.gblRestore ld v) s = .next t ∧ t.gbl.held = false ∧ t.rings = s.rings ∧ t.ctxs = s.ctxs ∧
          t.jrn.recs.length = s.jrn.recs.length ∧ (∀ r, r ∈ t.jrn.recs → r.state = .issued → r.resumed = true) ∧
          t.mem = s.mem) ∧
      (v.getLsbD 2 = true → ∃ t, exec (.gblColdReset ld v) s = .next t ∧ t.gbl.fwReady = false ∧
        t.gbl.bootSeq = s.gbl.bootSeq + 1 ∧ t.rings = [] ∧ t.ctxs = [] ∧ t.jrn.recs = [] ∧
        (s.jrn.recs ≠ [] → ∃ x, t.gbl.rlog.getLast? = some x ∧ x.recs.length = s.jrn.recs.length ∧
          x.cause = if s.gbl.stopped then 8 else 5)) ∧
      (v.getLsbD 3 = true → v.getLsbD 2 = false → v.getLsbD 1 = false → v.getLsbD 0 = false → s.gbl.fwReady = true →
        ∃ t, exec (.gblRlogClear ld v) s = .next t ∧ t.gbl.rlog = [] ∧ { t with gbl := s.gbl } = s) ∧
      (v.getLsbD 0 = true → s.gbl.held = false → ∃ t, exec (.gblFaultClear ld v) s = .next t ∧ t.gbl.fault = 0 ∧
        t.gbl.alert = false ∧ t.gbl.faultCount = s.gbl.faultCount ∧ { t with gbl := s.gbl } = s)) ∧
    (∀ (ld : Ld) (v : BitVec 64), s.manager ld = false → ∀ c ∈ [Instr.gblWarmReset ld v, .gblRestore ld v,
      .gblColdReset ld v, .gblRlogClear ld v, .gblFaultClear ld v], exec c s = .next s) ∧
    (s.gbl.warming = true → ∃ t, exec .warmDone s = .next t ∧ t.gbl.held = true ∧ t.gbl.warming = false ∧
      t.rings = s.rings ∧ t.ctxs = s.ctxs ∧ t.jrn = s.jrn ∧ t.seqs = s.seqs ∧ t.pages = s.pages ∧ t.mem = s.mem ∧
      t.dom.shifts = [] ∧ (∀ l, (t.ld l).decoders = [])) ∧
    (s.gbl.warming = false → exec .warmDone s = .next s)

/-- What a cold reset leaves: no ring, context, record, sequence, window or decoder, FW_READY clear, BOOT_SEQ one more, the
life cycle and the fuses as they were, and no link up. R413, R414, R416, R417, R431, R433, R481, R482, R486, R487, R492: the
resets, the boot, and the ways that power goes and returns. -/
def Obligations.ResetsAndPower : Prop :=
  (∀ (s t : State) (b : Two Bool) (debug : Bool), s.wiped b debug = t →
      t.gbl.fwReady = false ∧ t.gbl.bootSeq = s.gbl.bootSeq + 1 ∧ t.gbl.rlog = s.gbl.rlog ∧ t.gbl.fault = 0 ∧
      t.rings = [] ∧ t.ctxs = [] ∧ t.jrn.recs = [] ∧ t.seqs = [] ∧ t.wins = [] ∧ t.chk = [] ∧ t.dom.entries = [] ∧
      t.sec.lcs = s.sec.lcs ∧ t.sec.fuseSvn = s.sec.fuseSvn ∧ t.sec.fwCopies = s.sec.fwCopies ∧ t.sec.persistRoot = none ∧
      t.coal.en = false ∧ t.coal.rootCheck = s.coal.rootCheck ∧ (∀ d, (t.cxp.head.get d).up = false ∧
        (t.flu.port.get d).up = false ∧ (t.coal.half.get d).ready = false ∧
        (∀ k e, (t.coal.half.get d).ckpt.look k = some e → e.persist = true)) ∧
      (∀ k, (t.wobj k).keyed = false) ∧ (∀ x, t.mem.byte x ≠ 0 → t.mem.byte x = s.mem.byte x)) ∧
  (∀ (s : State),
      (s.pkg.powered = true → s.pkg.resetHigh = true →
        (∀ c, exec (.coldReset c) s = .next (s.coldReset (causeCode c)) ∧
          s.coldReset (causeCode c) = (s.section_ (causeCode c) 0 s.jrn.recs).wiped ⟨true, true⟩ s.sec.debugRequest) ∧
        (∃ t, exec .resetNAssert s = .next t ∧ t.pkg.resetHigh = false ∧ t.gbl.fwReady = false ∧ t.rings = []) ∧
        (∀ hd, (hd = s.gbl.perstHead → (∀ n, 1000 ≤ n → exec (.perstAssert hd n) s = .next (s.coldReset 2)) ∧
            exec (.fundamentalReset hd) s = .next (s.coldReset 3)) ∧
          (hd ≠ s.gbl.perstHead → (∀ n, 1000 ≤ n → exec (.perstAssert hd n) s = exec (.cxlLinkDown hd) s) ∧
            exec (.fundamentalReset hd) s = exec (.cxlLinkDown hd) s) ∧
          (∀ n, n < 1000 → exec (.perstAssert hd n) s = .next s)) ∧
        (∀ (r : SelfTest) (img : FwImage), s.gbl.fwReady = false → s.pkg.powerWarn = false → s.gbl.powerHold = false →
          s.sec.lcs ≠ .scrapped → s.bootImage = some img →
          ∃ t, exec (.fwReady r) s = .next t ∧ t.gbl.fwReady = true ∧ t.sec.svn = img.svn ∧ t.sec.fwDigest = img.digest ∧
            (t.eng.get .west).fireboxes.length ≤ 64 ∧ (∀ u, u ∈ r.badFireboxes.w → u ∉ (t.eng.get .west).fireboxes) ∧
            t.gbl.journalFail = decide (s.goodBanks r .west < 32 ∨ s.goodBanks r .east < 32) ∧ t.mem = s.mem)) ∧
      (∀ n, (n < 200 → exec (.powerWarnAssert n) s = .next s) ∧
        (200 ≤ n → s.pkg.powerWarn = false → s.gbl.powerHold = false → s.pkg.powered = true →
          ∃ t, exec (.powerWarnAssert n) s = .next t ∧ t.pkg.powerWarn = true ∧ t.pkg.flushing = true ∧ t.running = false ∧
            { t with pkg := s.pkg, coal := s.coal } = s)) ∧
      (s.pkg.flushing = true → s.pkg.powered = true → ∃ t, exec .flushComplete s = .next t ∧ t.gbl.powerHold = true ∧
        t.pkg.flushing = false ∧ t.pkg.flushed = (s.channelsOn .west || s.channelsOn .east) ∧
        (∀ d, (t.coal.half.get d).flush = some ((s.coal.half.get d).nextFlush, (s.coal.half.get d).logBuf)) ∧ t.jrn = s.jrn ∧ t.mem = s.mem) ∧
      (s.gbl.powerHold = true → s.pkg.thermtrip = false → s.pkg.highAt + 10000000 ≤ s.now.toNat →
        exec .powerHoldExit s = .next (s.coldReset 1)) ∧
      (s.gbl.powerHold = false ∨ s.pkg.thermtrip = true ∨ s.now.toNat < s.pkg.highAt + 10000000 → exec .powerHoldExit s = .next s) ∧
      (∀ d temp, (temp < 120 → exec (.thermtrip d temp) s = .next s) ∧
        (temp ≥ 120 → s.pkg.powered = true → s.pkg.resetHigh = true → ∃ t, exec (.thermtrip d temp) s = .next t ∧ t.pkg.thermtrip = true ∧
          (s.gbl.powerHold = false → t.pkg.powerWarn = true) ∧ { t with pkg := s.pkg, coal := s.coal } = s)) ∧
      (s.pkg.powered = true → ∃ t, exec .powerLoss s = .next t ∧ t.pkg.powered = false ∧ t.gbl.fwReady = false ∧
        t.rings = [] ∧ t.jrn.recs = [] ∧
        (∀ c, (s.pkg.copies.w.or s.pkg.copies.e) = some c → c.recs ≠ [] → s.pkg.resetHigh = true →
          ∃ x, t.gbl.rlog.getLast? = some x ∧ x.recs.length = c.recs.length) ∧
        (s.pkg.resetHigh = false → t.gbl.rlog = s.gbl.rlog) ∧
        (s.pkg.flushed = false → s.pkg.resetHigh = true → ∃ x, t.gbl.rlog.getLast? = some x ∧ x.flags.getLsbD 0 = true ∧
          (s.pkg.flushing = false → x.recs = []))) ∧
      (s.pkg.powered = false → exec (.coldReset .powerLoss) s = .next { s with pkg := { s.pkg with powered := true } }) ∧
      (s.pkg.powered = true → s.pkg.resetHigh = false →
        exec (.coldReset .resetN) s = .next { s with pkg := { s.pkg with resetHigh := true } }))

/-- R265, R266, R480, R484, R491, R493: regulators, the supply controller, the thermal pause, sensors and clocks. -/
def Obligations.PackageServed : Prop :=
  ∀ (s : State), s.pkg.powered = true → s.pkg.resetHigh = true →
    (∀ d v, ∃ t, exec (.regulatorPoll d v) s = .next t ∧ t.pkg.iout.get d = v ∧ t.pkg.regSilent.get d = false ∧
      { t with pkg := s.pkg } = s) ∧
    (∀ d, (s.pkg.regSilent.get d = false → s.pkg.regAt.get d + 1000000 ≤ s.now.toNat → ∃ t, exec (.regulatorTimeout d) s = .next t ∧ t.pkg.regSilent.get d = true ∧
        t.pkg.vtarget = s.pkg.vtarget ∧ t.gbl.fault = faultWord s.gbl.fault 9 d 0 ∧ t.gbl.alert = true ∧ SameMemory s t) ∧
      (s.now.toNat < s.pkg.regAt.get d + 1000000 → exec (.regulatorTimeout d) s = .next s) ∧
      (s.pkg.regSilent.get d = true → exec (.regulatorTimeout d) s = .next s)) ∧
    (∀ d temp rate, s.supplyDue d = false → exec (.supplyControlTick d temp rate) s = .next s) ∧
    (∀ d temp rate, s.supplyDue d = true → ∃ t, exec (.supplyControlTick d temp rate) s = .next t ∧
      (s.pkg.regSilent.get d = true → t.pkg.vtarget.get d = s.pkg.vtarget.get d) ∧
      (s.pkg.regSilent.get d = false → 620 ≤ s.pkg.vtarget.get d → s.pkg.vtarget.get d ≤ 800 →
        620 ≤ t.pkg.vtarget.get d ∧ t.pkg.vtarget.get d ≤ 800 ∧ t.pkg.vtarget.get d ≤ s.pkg.vtarget.get d + 5 ∧
        s.pkg.vtarget.get d ≤ t.pkg.vtarget.get d + 5 ∧
        (temp ≥ 105 → t.pkg.vtarget.get d = Nat.max 620 (s.pkg.vtarget.get d - 5))) ∧
      (t.tel.beat.get d).rate = BitVec.ofNat 16 rate ∧ (t.tel.beat.get d).tj = temp ∧
      { t with pkg := s.pkg, tel := s.tel } = s) ∧
    (∀ d temp, (s.pkg.thermalPause.get d = none → temp < 110 → exec (.thermalPauseSlot d temp) s = .next s) ∧
      (s.pkg.thermalPause.get d = none → temp ≥ 110 → ∃ t, exec (.thermalPauseSlot d temp) s = .next t ∧
        t.pkg.thermalPause.get d = some s.now.toNat ∧ t.dieRuns d = false ∧ { t with pkg := s.pkg } = s) ∧
      (∀ t0, s.pkg.thermalPause.get d = some t0 → (temp ≥ 108 ∨ s.now.toNat < t0 + 100000 → exec (.thermalPauseSlot d temp) s = .next s) ∧
        (temp < 108 → t0 + 100000 ≤ s.now.toNat → ∃ t, exec (.thermalPauseSlot d temp) s = .next t ∧ t.pkg.thermalPause.get d = none ∧
          t.jrn.recs.length = s.jrn.recs.length ∧ SameMemory s t))) ∧
    (∀ k v, k < 8 → k ∈ s.pkg.absent → exec (.sensorPoll k v) s = .next s) ∧
    (∀ k v, k < 8 → k ∉ s.pkg.absent → ∃ t, exec (.sensorPoll k v) s = .next t ∧ t.pkg.sensors.look k = some v.toInt ∧
      (∀ j, j ≠ k → t.pkg.sensors.look j = s.pkg.sensors.look j) ∧ { t with pkg := s.pkg, coal := s.coal } = s) ∧
    (∀ k, (s.pkg.sensors.has k = true → k ∉ s.pkg.excluded →
        s.pkg.sensorAt.lookD k 0 + 1000000000 ≤ s.now.toNat → ∃ t, exec (.sensorTimeout k) s = .next t ∧
        k ∈ t.pkg.excluded ∧ SameMemory s t) ∧
      (s.pkg.sensors.has k = false → exec (.sensorTimeout k) s = .next s)) ∧
    ((s.coal.health.hour = [] → exec .tempHistoryHour s = .next s) ∧
      (s.now.toNat < s.coal.health.hourAt + 3600000000000 → exec .tempHistoryHour s = .next s) ∧
      (∀ e, hourEntry s.coal.health.hour s.coal.tlimit = some e → s.coal.health.hourAt + 3600000000000 ≤ s.now.toNat → ∃ t, exec .tempHistoryHour s = .next t ∧
        t.coal.health.history.getLast? = some e ∧ t.coal.health.hour = [] ∧ t.coal.health.hourAt = s.now.toNat ∧
        t.coal.health.hours = s.coal.health.hours + 1 ∧ { t with coal := s.coal } = s)) ∧
    ((s.pkg.trefLost = false → (∀ t0, s.pkg.trefAt = some t0 → t0 + 1000 ≤ s.now.toNat) → ∃ t, exec .trefLoss s = .next t ∧ t.pkg.trefLost = true ∧ t.now = s.now ∧
        t.gbl.fault = faultWord s.gbl.fault 10 .west 0 ∧ t.gbl.alert = true ∧ SameMemory s t) ∧
      (∃ t, exec .trefReturn s = .next t ∧ t.pkg.trefLost = false ∧ t.now = s.now ∧ { t with pkg := s.pkg } = s)) ∧
    (∀ d, exec (.refclkLoss (.cxl d)) s = exec (.cxlLinkDown d) s ∧
      ∃ t, exec (.refclkLoss (.flue d)) s = .next t ∧ (t.flu.port.get d).up = false ∧ SameMemory s t)

/-- R23, R413, R421-R429, R437: a fault of the recovery table in a part that runs with no window open is reported, its unit is
replaced or leaves service, and its window opens; one inside an open window stops the part; a window's end closes it. -/
def Obligations.FaultsRecovered : Prop :=
  ∀ (s : State), s.live = true → s.gbl.stopped = false →
    (s.gbl.windows = [] →
      (∀ d u, u ∈ (s.eng.get d).fireboxes → u ∉ (s.eng.get d).spares →
        ∃ t, exec (.fireboxFault d u) s = .next t ∧ u ∉ (t.eng.get d).fireboxes ∧
          t.gbl.fault = faultWord s.gbl.fault 1 d u ∧ t.gbl.alert = true ∧
          t.gbl.windows = [{ kind := .firebox, die := d, unit := u, opened := s.now.toNat }] ∧ SameMemory s t) ∧
      (∀ d u, u ∈ (s.eng.get d).stokers → ∃ t, exec (.stokerFault d u) s = .next t ∧ u ∉ (t.eng.get d).stokers ∧
        (∀ v, v ∈ (s.eng.get d).stokers → v ≠ u → v < 8 → ∀ n, (s.ring n).home = d → (s.ring n).stoker = u →
          (s.ring n).en = true → (t.ring n).stoker ≠ u) ∧ t.gbl.fault = faultWord s.gbl.fault 2 d u ∧ SameMemory s t) ∧
      (∀ d b, b < 32 → b ∉ s.jrn.lostBanks → ∃ t, exec (.journalBankFault d b) s = .next t ∧
        t.jrn.rebuilding.get d = true ∧ t.jrn.recs = s.jrn.recs ∧
        (s.jrn.spares.get d = 0 → b ∈ t.jrn.lostBanks) ∧ t.jrn.spares.get d = s.jrn.spares.get d - 1 ∧
        t.gbl.fault = faultWord s.gbl.fault 3 d b ∧ SameMemory s t) ∧
      (∀ d st, st < 10 → s.drt.failed.get d = [] → ∃ t, exec (.hbmStackFault d st) s = .next t ∧
        st ∈ t.drt.failed.get d ∧ (∀ g, g ∈ s.granulesOn d st → g ∈ t.mem.dead) ∧
        t.gbl.fault = faultWord s.gbl.fault 4 d st) ∧
      (∀ d lane, lane < 520 → ∃ t, exec (.bridgeLaneFault d lane) s = .next t ∧ t.eng.get d = (s.eng.get d).dropLane ∧
        t.gbl.fault = faultWord s.gbl.fault 5 d lane ∧ SameMemory s t) ∧
      (∀ p lane, (s.flu.port.get p).up = true → ∃ t, exec (.fluePortDown p lane) s = .next t ∧
        (t.flu.port.get p).up = false ∧ t.gbl.fault = faultWord s.gbl.fault 7 p lane ∧ SameMemory s t)) ∧
    (s.gbl.windows ≠ [] → ∀ k d u, ∃ t, exec (.secondFaultStop k d u) s = .next t ∧ t.gbl.stopped = true ∧
      t.jrn.sealed = true ∧ t.running = false ∧ t.jrn.recs = s.jrn.recs ∧ SameMemory s t) ∧
    (s.gbl.windows = [] → ∀ k d u, exec (.secondFaultStop k d u) s = .next s) ∧
    (∀ k d u w, s.gbl.windows.find? (fun x => x.kind == k && x.die == d && x.unit == u) = some w → s.gbl.warmWaiting = false →
      ∃ t, exec (.recoveryWindowEnd k d u) s = .next t ∧ t.gbl.windows = s.gbl.windows.filter (· != w)) ∧
    (∀ d, (∃ t, exec (.engineReset d .walker 0) s = .next t ∧ t.jrn.recs.length = s.jrn.recs.length ∧
        { t with jrn := s.jrn } = s) ∧
      (∀ u, u < 32 → ∃ t, exec (.engineReset d .checkUnit u) s = .next t ∧ t.jrn.recs.length = s.jrn.recs.length ∧
        { t with jrn := s.jrn } = s)) ∧
    ((∃ t0, s.gbl.mantelAt = some t0 ∧ s.now.toNat < t0 + 100000000) → exec .watchdogExpiry s = .next s) ∧
    ((∀ t0, s.gbl.mantelAt = some t0 → t0 + 100000000 ≤ s.now.toNat) → s.drt.granWaits = [] → s.drt.loadWaits = [] →
      ∃ t, exec .watchdogExpiry s = .next t ∧ t.gbl.mantelAt = some s.now.toNat ∧ { t with gbl := s.gbl } = s) ∧
    ((∀ t0, s.gbl.mantelAt = some t0 → t0 + 100000000 ≤ s.now.toNat) → s.drt.granWaits ≠ [] ∨ s.drt.loadWaits ≠ [] → ∃ t, exec .watchdogExpiry s = .next t ∧ t.resp.ret = .retryRequired ∧
      t.drt.granWaits = [] ∧ t.drt.loadWaits = [] ∧ SameMemory s t) ∧
    (∀ p phy, (s.flu.port.get p).en = true → (s.flu.port.get p).up = false → 1 ≤ phy → phy ≤ 3 → s.gbl.held = false →
      ∃ t, exec (.fluePortUp p phy) s = .next t ∧ (t.flu.port.get p).up = true ∧ (t.flu.port.get p).phy = phy)
end

