-- ==== Sys2Proof/Laws/Table.lean ====
section
/-! SUPPORT. Laws of the plain containers: pairs by die, sparse tables. -/

namespace Sys2Proof

@[simp] theorem Two.get_set_self {α : Type} (t : Two α) (d : Side) (x : α) : (t.set d x).get d = x := by
  cases d <;> rfl

theorem Two.get_set_ne {α : Type} (t : Two α) {d e : Side} (x : α) (h : e ≠ d) : (t.set d x).get e = t.get e := by
  cases d <;> cases e <;> first | rfl | exact absurd rfl h

@[simp] theorem Two.get_map {α β : Type} (t : Two α) (f : α → β) (d : Side) : (t.map f).get d = f (t.get d) := by
  cases d <;> rfl

@[simp] theorem Tbl.look_put_self {α : Type} (t : Tbl α) (k : Nat) (x : α) : (t.put k x).look k = some x := by
  induction t with
  | nil => simp [Tbl.put, Tbl.look]
  | cons p r ih =>
    obtain ⟨i, y⟩ := p
    unfold Tbl.put
    split
    · simp [Tbl.look]
    · split
      · simp [Tbl.look]
      · next h1 h2 =>
        have : i ≠ k := fun e => h2 e.symm
        simp [Tbl.look, this, ih]

theorem Tbl.look_put_ne {α : Type} (t : Tbl α) {k j : Nat} (x : α) (h : j ≠ k) : (t.put k x).look j = t.look j := by
  induction t with
  | nil => simp [Tbl.put, Tbl.look, Ne.symm h]
  | cons p r ih =>
    obtain ⟨i, y⟩ := p
    unfold Tbl.put
    split
    · simp [Tbl.look, Ne.symm h]
    · split
      · next h2 =>
        have : i ≠ j := fun e => h (e.symm.trans h2.symm)
        simp [Tbl.look, Ne.symm h, this]
      · simp [Tbl.look, ih]

@[simp] theorem Tbl.lookD_put_self {α : Type} (t : Tbl α) (k : Nat) (x d : α) : (t.put k x).lookD k d = x := by
  simp [Tbl.lookD]

theorem Tbl.lookD_put_ne {α : Type} (t : Tbl α) {k j : Nat} (x d : α) (h : j ≠ k) : (t.put k x).lookD j d = t.lookD j d := by
  simp [Tbl.lookD, Tbl.look_put_ne t x h]

theorem Tbl.lookD_put {α : Type} (t : Tbl α) (k j : Nat) (x d : α) :
    (t.put k x).lookD j d = if j = k then x else t.lookD j d := by
  split
  · next h => rw [h]; exact Tbl.lookD_put_self t k x d
  · next h => exact Tbl.lookD_put_ne t x d h

theorem Tbl.look_mapVals {α β : Type} (t : Tbl α) (f : Nat → α → β) (k : Nat) :
    (t.mapVals f).look k = (t.look k).map (f k) := by
  induction t with
  | nil => rfl
  | cons p r ih =>
    obtain ⟨i, y⟩ := p
    show Tbl.look ((i, f i y) :: Tbl.mapVals r f) k = _
    unfold Tbl.look
    split
    · next h => rw [h]; rfl
    · exact ih

theorem Tbl.look_keep {α : Type} (t : Tbl α) (p : Nat → Bool) (k : Nat) :
    (t.keep (fun i _ => p i)).look k = if p k then t.look k else none := by
  induction t with
  | nil => simp [Tbl.keep, Tbl.look]
  | cons q r ih =>
    obtain ⟨i, y⟩ := q
    unfold Tbl.keep at ih ⊢
    rw [List.filter_cons]
    by_cases hp : p i = true
    · simp only [hp, if_true, Tbl.look]
      by_cases h : i = k
      · subst h; simp [hp]
      · simp only [h, if_false, ih]
    · simp only [hp, Bool.false_eq_true, if_false, ih, Tbl.look]
      by_cases h : i = k
      · subst h; simp [hp]
      · simp only [h, if_false]

theorem Tbl.look_del {α : Type} (t : Tbl α) (k j : Nat) : (t.del k).look j = if j = k then none else t.look j := by
  have h : t.del k = t.keep (fun i _ => i != k) := rfl
  rw [h, Tbl.look_keep t (fun i => i != k) j]
  by_cases h : j = k <;> simp [h]

@[simp] theorem Tbl.look_del_self {α : Type} (t : Tbl α) (k : Nat) : (t.del k).look k = none := by
  rw [Tbl.look_del, if_pos rfl]

theorem Tbl.look_del_ne {α : Type} (t : Tbl α) {k j : Nat} (h : j ≠ k) : (t.del k).look j = t.look j := by
  rw [Tbl.look_del, if_neg h]

theorem Tbl.look_put {α : Type} (t : Tbl α) (k j : Nat) (x : α) : (t.put k x).look j = if j = k then some x else t.look j := by
  split
  · next h => rw [h]; exact Tbl.look_put_self t k x
  · next h => exact Tbl.look_put_ne t x h

theorem Tbl.has_iff {α : Type} (t : Tbl α) (k : Nat) : t.has k = true ↔ ∃ x, t.look k = some x := by
  unfold Tbl.has
  cases t.look k <;> simp

/-! ### The least free number -/

theorem mem_insNat {l : List Nat} {k x : Nat} : x ∈ insNat l k ↔ x = k ∨ x ∈ l := by
  induction l with
  | nil => simp [insNat]
  | cons i r ih =>
    unfold insNat
    split
    · simp
    · split
      · next h => simp [h]
      · simp only [List.mem_cons, ih]
        constructor
        · rintro (h | h | h) <;> simp [h]
        · rintro (h | h | h) <;> simp [h]

theorem mem_foldl_insNat {ks : List Nat} : ∀ {l : List Nat} {x : Nat}, x ∈ ks.foldl insNat l ↔ x ∈ ks ∨ x ∈ l := by
  induction ks with
  | nil => simp
  | cons k r ih =>
    intro l x
    rw [List.foldl_cons, ih, mem_insNat]
    simp only [List.mem_cons]
    constructor
    · rintro (h | h | h) <;> simp [h]
    · rintro ((h | h) | h) <;> simp [h]

/-- A list put together with insNat ascends without repeats. -/
theorem pairwise_insNat {l : List Nat} (h : l.Pairwise (· < ·)) (k : Nat) : (insNat l k).Pairwise (· < ·) := by
  induction l with
  | nil => simp [insNat]
  | cons i r ih =>
    rw [List.pairwise_cons] at h
    unfold insNat
    split
    · next hk =>
      refine List.pairwise_cons.mpr ⟨?_, List.pairwise_cons.mpr h⟩
      intro x hx
      rcases List.mem_cons.mp hx with rfl | hx
      · exact hk
      · exact Nat.lt_trans hk (h.1 x hx)
    · split
      · exact List.pairwise_cons.mpr h
      · next h1 h2 =>
        refine List.pairwise_cons.mpr ⟨?_, ih h.2⟩
        intro x hx
        rcases mem_insNat.mp hx with rfl | hx
        · omega
        · exact h.1 x hx

theorem pairwise_foldl_insNat (ks : List Nat) : ∀ {l : List Nat}, l.Pairwise (· < ·) → (ks.foldl insNat l).Pairwise (· < ·) := by
  induction ks with
  | nil => exact fun h => h
  | cons k r ih => exact fun h => ih (pairwise_insNat h k)

/-- The least free number from k on is k or more, and no member of an ascending list. -/
theorem lowestFree_spec : ∀ {l : List Nat} (k : Nat), l.Pairwise (· < ·) → k ≤ lowestFree l k ∧ lowestFree l k ∉ l
  | [], k, _ => by simp [lowestFree]
  | i :: r, k, h => by
    have h' := List.pairwise_cons.mp h
    unfold lowestFree
    split
    · next hi =>
      have := lowestFree_spec k h'.2
      refine ⟨this.1, fun hm => ?_⟩
      rcases List.mem_cons.mp hm with e | e
      · omega
      · exact this.2 e
    · split
      · next hi =>
        have := lowestFree_spec (k + 1) h'.2
        refine ⟨by omega, fun hm => ?_⟩
        rcases List.mem_cons.mp hm with e | e
        · omega
        · exact this.2 e
      · next h1 h2 =>
        refine ⟨Nat.le_refl k, fun hm => ?_⟩
        rcases List.mem_cons.mp hm with e | e
        · omega
        · have := h'.1 k e
          omega

/-- A number that is no key of a table. -/
theorem Tbl.look_of_not_mem {α : Type} (t : Tbl α) {n : Nat} (h : n ∉ t.keys) : t.look n = none := by
  induction t with
  | nil => rfl
  | cons p r ih =>
    obtain ⟨i, y⟩ := p
    have hk : n ≠ i ∧ n ∉ Tbl.keys r := by
      constructor
      · intro e; exact h (by rw [e]; exact List.mem_cons_self)
      · intro e; exact h (List.mem_cons_of_mem _ e)
    rw [Tbl.look, if_neg (fun e => hk.1 e.symm)]
    exact ih hk.2

/-- The least number that is no key of a table is no key of it. -/
theorem Tbl.look_lowFree {α : Type} (t : Tbl α) : t.look t.lowFree = none := by
  have h := (lowestFree_spec 0 (pairwise_foldl_insNat t.keys List.Pairwise.nil)).2
  rw [mem_foldl_insNat] at h
  exact look_of_not_mem t (fun e => h (Or.inl e))

theorem ofBytes_leBytes_zero : ofBytes (leBytes 0 0) = 0 := rfl

end Sys2Proof
end

