-- ==== Sys2Proof/Laws/State.lean ====
section
/-! SUPPORT. What each update of the state changes: one lemma per field per update, so that no later proof unfolds a
record update. -/

namespace Sys2Proof
namespace Machine

variable (s : State)

/-! State.setRing -/
@[simp] theorem State.setRing_pending (n : Nat) (g : Ring) : (s.setRing n g).pending = s.pending := rfl
@[simp] theorem State.setRing_fresh (n : Nat) (g : Ring) : (s.setRing n g).fresh = s.fresh := rfl
@[simp] theorem State.setRing_now (n : Nat) (g : Ring) : (s.setRing n g).now = s.now := rfl
@[simp] theorem State.setRing_resp (n : Nat) (g : Ring) : (s.setRing n g).resp = s.resp := rfl
@[simp] theorem State.setRing_gbl (n : Nat) (g : Ring) : (s.setRing n g).gbl = s.gbl := rfl
@[simp] theorem State.setRing_jrn (n : Nat) (g : Ring) : (s.setRing n g).jrn = s.jrn := rfl
@[simp] theorem State.setRing_ctxs (n : Nat) (g : Ring) : (s.setRing n g).ctxs = s.ctxs := rfl
@[simp] theorem State.setRing_profiles (n : Nat) (g : Ring) : (s.setRing n g).profiles = s.profiles := rfl
@[simp] theorem State.setRing_images (n : Nat) (g : Ring) : (s.setRing n g).images = s.images := rfl
@[simp] theorem State.setRing_seqs (n : Nat) (g : Ring) : (s.setRing n g).seqs = s.seqs := rfl
@[simp] theorem State.setRing_pages (n : Nat) (g : Ring) : (s.setRing n g).pages = s.pages := rfl
@[simp] theorem State.setRing_dom (n : Nat) (g : Ring) : (s.setRing n g).dom = s.dom := rfl
@[simp] theorem State.setRing_eng (n : Nat) (g : Ring) : (s.setRing n g).eng = s.eng := rfl
@[simp] theorem State.setRing_fbxCtl (n : Nat) (g : Ring) : (s.setRing n g).fbxCtl = s.fbxCtl := rfl
@[simp] theorem State.setRing_drt (n : Nat) (g : Ring) : (s.setRing n g).drt = s.drt := rfl
@[simp] theorem State.setRing_wobjs (n : Nat) (g : Ring) : (s.setRing n g).wobjs = s.wobjs := rfl
@[simp] theorem State.setRing_wins (n : Nat) (g : Ring) : (s.setRing n g).wins = s.wins := rfl
@[simp] theorem State.setRing_coal (n : Nat) (g : Ring) : (s.setRing n g).coal = s.coal := rfl
@[simp] theorem State.setRing_cxp (n : Nat) (g : Ring) : (s.setRing n g).cxp = s.cxp := rfl
@[simp] theorem State.setRing_flu (n : Nat) (g : Ring) : (s.setRing n g).flu = s.flu := rfl
@[simp] theorem State.setRing_dmp (n : Nat) (g : Ring) : (s.setRing n g).dmp = s.dmp := rfl
@[simp] theorem State.setRing_chk (n : Nat) (g : Ring) : (s.setRing n g).chk = s.chk := rfl
@[simp] theorem State.setRing_sec (n : Nat) (g : Ring) : (s.setRing n g).sec = s.sec := rfl
@[simp] theorem State.setRing_tel (n : Nat) (g : Ring) : (s.setRing n g).tel = s.tel := rfl
@[simp] theorem State.setRing_pkg (n : Nat) (g : Ring) : (s.setRing n g).pkg = s.pkg := rfl
@[simp] theorem State.setRing_mem (n : Nat) (g : Ring) : (s.setRing n g).mem = s.mem := rfl

/-! State.setCtx -/
@[simp] theorem State.setCtx_pending (c : Nat) (x : Ctx) : (s.setCtx c x).pending = s.pending := rfl
@[simp] theorem State.setCtx_fresh (c : Nat) (x : Ctx) : (s.setCtx c x).fresh = s.fresh := rfl
@[simp] theorem State.setCtx_now (c : Nat) (x : Ctx) : (s.setCtx c x).now = s.now := rfl
@[simp] theorem State.setCtx_resp (c : Nat) (x : Ctx) : (s.setCtx c x).resp = s.resp := rfl
@[simp] theorem State.setCtx_gbl (c : Nat) (x : Ctx) : (s.setCtx c x).gbl = s.gbl := rfl
@[simp] theorem State.setCtx_jrn (c : Nat) (x : Ctx) : (s.setCtx c x).jrn = s.jrn := rfl
@[simp] theorem State.setCtx_rings (c : Nat) (x : Ctx) : (s.setCtx c x).rings = s.rings := rfl
@[simp] theorem State.setCtx_profiles (c : Nat) (x : Ctx) : (s.setCtx c x).profiles = s.profiles := rfl
@[simp] theorem State.setCtx_images (c : Nat) (x : Ctx) : (s.setCtx c x).images = s.images := rfl
@[simp] theorem State.setCtx_seqs (c : Nat) (x : Ctx) : (s.setCtx c x).seqs = s.seqs := rfl
@[simp] theorem State.setCtx_pages (c : Nat) (x : Ctx) : (s.setCtx c x).pages = s.pages := rfl
@[simp] theorem State.setCtx_dom (c : Nat) (x : Ctx) : (s.setCtx c x).dom = s.dom := rfl
@[simp] theorem State.setCtx_eng (c : Nat) (x : Ctx) : (s.setCtx c x).eng = s.eng := rfl
@[simp] theorem State.setCtx_fbxCtl (c : Nat) (x : Ctx) : (s.setCtx c x).fbxCtl = s.fbxCtl := rfl
@[simp] theorem State.setCtx_drt (c : Nat) (x : Ctx) : (s.setCtx c x).drt = s.drt := rfl
@[simp] theorem State.setCtx_wobjs (c : Nat) (x : Ctx) : (s.setCtx c x).wobjs = s.wobjs := rfl
@[simp] theorem State.setCtx_wins (c : Nat) (x : Ctx) : (s.setCtx c x).wins = s.wins := rfl
@[simp] theorem State.setCtx_coal (c : Nat) (x : Ctx) : (s.setCtx c x).coal = s.coal := rfl
@[simp] theorem State.setCtx_cxp (c : Nat) (x : Ctx) : (s.setCtx c x).cxp = s.cxp := rfl
@[simp] theorem State.setCtx_flu (c : Nat) (x : Ctx) : (s.setCtx c x).flu = s.flu := rfl
@[simp] theorem State.setCtx_dmp (c : Nat) (x : Ctx) : (s.setCtx c x).dmp = s.dmp := rfl
@[simp] theorem State.setCtx_chk (c : Nat) (x : Ctx) : (s.setCtx c x).chk = s.chk := rfl
@[simp] theorem State.setCtx_sec (c : Nat) (x : Ctx) : (s.setCtx c x).sec = s.sec := rfl
@[simp] theorem State.setCtx_tel (c : Nat) (x : Ctx) : (s.setCtx c x).tel = s.tel := rfl
@[simp] theorem State.setCtx_pkg (c : Nat) (x : Ctx) : (s.setCtx c x).pkg = s.pkg := rfl
@[simp] theorem State.setCtx_mem (c : Nat) (x : Ctx) : (s.setCtx c x).mem = s.mem := rfl

/-! State.setSeq -/
@[simp] theorem State.setSeq_pending (k : Nat) (q : Seq) : (s.setSeq k q).pending = s.pending := rfl
@[simp] theorem State.setSeq_fresh (k : Nat) (q : Seq) : (s.setSeq k q).fresh = s.fresh := rfl
@[simp] theorem State.setSeq_now (k : Nat) (q : Seq) : (s.setSeq k q).now = s.now := rfl
@[simp] theorem State.setSeq_resp (k : Nat) (q : Seq) : (s.setSeq k q).resp = s.resp := rfl
@[simp] theorem State.setSeq_gbl (k : Nat) (q : Seq) : (s.setSeq k q).gbl = s.gbl := rfl
@[simp] theorem State.setSeq_jrn (k : Nat) (q : Seq) : (s.setSeq k q).jrn = s.jrn := rfl
@[simp] theorem State.setSeq_rings (k : Nat) (q : Seq) : (s.setSeq k q).rings = s.rings := rfl
@[simp] theorem State.setSeq_ctxs (k : Nat) (q : Seq) : (s.setSeq k q).ctxs = s.ctxs := rfl
@[simp] theorem State.setSeq_profiles (k : Nat) (q : Seq) : (s.setSeq k q).profiles = s.profiles := rfl
@[simp] theorem State.setSeq_images (k : Nat) (q : Seq) : (s.setSeq k q).images = s.images := rfl
@[simp] theorem State.setSeq_pages (k : Nat) (q : Seq) : (s.setSeq k q).pages = s.pages := rfl
@[simp] theorem State.setSeq_dom (k : Nat) (q : Seq) : (s.setSeq k q).dom = s.dom := rfl
@[simp] theorem State.setSeq_eng (k : Nat) (q : Seq) : (s.setSeq k q).eng = s.eng := rfl
@[simp] theorem State.setSeq_fbxCtl (k : Nat) (q : Seq) : (s.setSeq k q).fbxCtl = s.fbxCtl := rfl
@[simp] theorem State.setSeq_drt (k : Nat) (q : Seq) : (s.setSeq k q).drt = s.drt := rfl
@[simp] theorem State.setSeq_wobjs (k : Nat) (q : Seq) : (s.setSeq k q).wobjs = s.wobjs := rfl
@[simp] theorem State.setSeq_wins (k : Nat) (q : Seq) : (s.setSeq k q).wins = s.wins := rfl
@[simp] theorem State.setSeq_coal (k : Nat) (q : Seq) : (s.setSeq k q).coal = s.coal := rfl
@[simp] theorem State.setSeq_cxp (k : Nat) (q : Seq) : (s.setSeq k q).cxp = s.cxp := rfl
@[simp] theorem State.setSeq_flu (k : Nat) (q : Seq) : (s.setSeq k q).flu = s.flu := rfl
@[simp] theorem State.setSeq_dmp (k : Nat) (q : Seq) : (s.setSeq k q).dmp = s.dmp := rfl
@[simp] theorem State.setSeq_chk (k : Nat) (q : Seq) : (s.setSeq k q).chk = s.chk := rfl
@[simp] theorem State.setSeq_sec (k : Nat) (q : Seq) : (s.setSeq k q).sec = s.sec := rfl
@[simp] theorem State.setSeq_tel (k : Nat) (q : Seq) : (s.setSeq k q).tel = s.tel := rfl
@[simp] theorem State.setSeq_pkg (k : Nat) (q : Seq) : (s.setSeq k q).pkg = s.pkg := rfl
@[simp] theorem State.setSeq_mem (k : Nat) (q : Seq) : (s.setSeq k q).mem = s.mem := rfl

/-! State.setPage -/
@[simp] theorem State.setPage_pending (h : Nat) (p : Page) : (s.setPage h p).pending = s.pending := rfl
@[simp] theorem State.setPage_fresh (h : Nat) (p : Page) : (s.setPage h p).fresh = s.fresh := rfl
@[simp] theorem State.setPage_now (h : Nat) (p : Page) : (s.setPage h p).now = s.now := rfl
@[simp] theorem State.setPage_resp (h : Nat) (p : Page) : (s.setPage h p).resp = s.resp := rfl
@[simp] theorem State.setPage_gbl (h : Nat) (p : Page) : (s.setPage h p).gbl = s.gbl := rfl
@[simp] theorem State.setPage_jrn (h : Nat) (p : Page) : (s.setPage h p).jrn = s.jrn := rfl
@[simp] theorem State.setPage_rings (h : Nat) (p : Page) : (s.setPage h p).rings = s.rings := rfl
@[simp] theorem State.setPage_ctxs (h : Nat) (p : Page) : (s.setPage h p).ctxs = s.ctxs := rfl
@[simp] theorem State.setPage_profiles (h : Nat) (p : Page) : (s.setPage h p).profiles = s.profiles := rfl
@[simp] theorem State.setPage_images (h : Nat) (p : Page) : (s.setPage h p).images = s.images := rfl
@[simp] theorem State.setPage_seqs (h : Nat) (p : Page) : (s.setPage h p).seqs = s.seqs := rfl
@[simp] theorem State.setPage_dom (h : Nat) (p : Page) : (s.setPage h p).dom = s.dom := rfl
@[simp] theorem State.setPage_eng (h : Nat) (p : Page) : (s.setPage h p).eng = s.eng := rfl
@[simp] theorem State.setPage_fbxCtl (h : Nat) (p : Page) : (s.setPage h p).fbxCtl = s.fbxCtl := rfl
@[simp] theorem State.setPage_drt (h : Nat) (p : Page) : (s.setPage h p).drt = s.drt := rfl
@[simp] theorem State.setPage_wobjs (h : Nat) (p : Page) : (s.setPage h p).wobjs = s.wobjs := rfl
@[simp] theorem State.setPage_wins (h : Nat) (p : Page) : (s.setPage h p).wins = s.wins := rfl
@[simp] theorem State.setPage_coal (h : Nat) (p : Page) : (s.setPage h p).coal = s.coal := rfl
@[simp] theorem State.setPage_cxp (h : Nat) (p : Page) : (s.setPage h p).cxp = s.cxp := rfl
@[simp] theorem State.setPage_flu (h : Nat) (p : Page) : (s.setPage h p).flu = s.flu := rfl
@[simp] theorem State.setPage_dmp (h : Nat) (p : Page) : (s.setPage h p).dmp = s.dmp := rfl
@[simp] theorem State.setPage_chk (h : Nat) (p : Page) : (s.setPage h p).chk = s.chk := rfl
@[simp] theorem State.setPage_sec (h : Nat) (p : Page) : (s.setPage h p).sec = s.sec := rfl
@[simp] theorem State.setPage_tel (h : Nat) (p : Page) : (s.setPage h p).tel = s.tel := rfl
@[simp] theorem State.setPage_pkg (h : Nat) (p : Page) : (s.setPage h p).pkg = s.pkg := rfl
@[simp] theorem State.setPage_mem (h : Nat) (p : Page) : (s.setPage h p).mem = s.mem := rfl

/-! State.updPage -/
@[simp] theorem State.updPage_pending (h : Nat) (f : Page → Page) : (s.updPage h f).pending = s.pending := rfl
@[simp] theorem State.updPage_fresh (h : Nat) (f : Page → Page) : (s.updPage h f).fresh = s.fresh := rfl
@[simp] theorem State.updPage_now (h : Nat) (f : Page → Page) : (s.updPage h f).now = s.now := rfl
@[simp] theorem State.updPage_resp (h : Nat) (f : Page → Page) : (s.updPage h f).resp = s.resp := rfl
@[simp] theorem State.updPage_gbl (h : Nat) (f : Page → Page) : (s.updPage h f).gbl = s.gbl := rfl
@[simp] theorem State.updPage_jrn (h : Nat) (f : Page → Page) : (s.updPage h f).jrn = s.jrn := rfl
@[simp] theorem State.updPage_rings (h : Nat) (f : Page → Page) : (s.updPage h f).rings = s.rings := rfl
@[simp] theorem State.updPage_ctxs (h : Nat) (f : Page → Page) : (s.updPage h f).ctxs = s.ctxs := rfl
@[simp] theorem State.updPage_profiles (h : Nat) (f : Page → Page) : (s.updPage h f).profiles = s.profiles := rfl
@[simp] theorem State.updPage_images (h : Nat) (f : Page → Page) : (s.updPage h f).images = s.images := rfl
@[simp] theorem State.updPage_seqs (h : Nat) (f : Page → Page) : (s.updPage h f).seqs = s.seqs := rfl
@[simp] theorem State.updPage_dom (h : Nat) (f : Page → Page) : (s.updPage h f).dom = s.dom := rfl
@[simp] theorem State.updPage_eng (h : Nat) (f : Page → Page) : (s.updPage h f).eng = s.eng := rfl
@[simp] theorem State.updPage_fbxCtl (h : Nat) (f : Page → Page) : (s.updPage h f).fbxCtl = s.fbxCtl := rfl
@[simp] theorem State.updPage_drt (h : Nat) (f : Page → Page) : (s.updPage h f).drt = s.drt := rfl
@[simp] theorem State.updPage_wobjs (h : Nat) (f : Page → Page) : (s.updPage h f).wobjs = s.wobjs := rfl
@[simp] theorem State.updPage_wins (h : Nat) (f : Page → Page) : (s.updPage h f).wins = s.wins := rfl
@[simp] theorem State.updPage_coal (h : Nat) (f : Page → Page) : (s.updPage h f).coal = s.coal := rfl
@[simp] theorem State.updPage_cxp (h : Nat) (f : Page → Page) : (s.updPage h f).cxp = s.cxp := rfl
@[simp] theorem State.updPage_flu (h : Nat) (f : Page → Page) : (s.updPage h f).flu = s.flu := rfl
@[simp] theorem State.updPage_dmp (h : Nat) (f : Page → Page) : (s.updPage h f).dmp = s.dmp := rfl
@[simp] theorem State.updPage_chk (h : Nat) (f : Page → Page) : (s.updPage h f).chk = s.chk := rfl
@[simp] theorem State.updPage_sec (h : Nat) (f : Page → Page) : (s.updPage h f).sec = s.sec := rfl
@[simp] theorem State.updPage_tel (h : Nat) (f : Page → Page) : (s.updPage h f).tel = s.tel := rfl
@[simp] theorem State.updPage_pkg (h : Nat) (f : Page → Page) : (s.updPage h f).pkg = s.pkg := rfl
@[simp] theorem State.updPage_mem (h : Nat) (f : Page → Page) : (s.updPage h f).mem = s.mem := rfl

/-! State.setWobj -/
@[simp] theorem State.setWobj_pending (k : Nat) (w : WObj) : (s.setWobj k w).pending = s.pending := rfl
@[simp] theorem State.setWobj_fresh (k : Nat) (w : WObj) : (s.setWobj k w).fresh = s.fresh := rfl
@[simp] theorem State.setWobj_now (k : Nat) (w : WObj) : (s.setWobj k w).now = s.now := rfl
@[simp] theorem State.setWobj_resp (k : Nat) (w : WObj) : (s.setWobj k w).resp = s.resp := rfl
@[simp] theorem State.setWobj_gbl (k : Nat) (w : WObj) : (s.setWobj k w).gbl = s.gbl := rfl
@[simp] theorem State.setWobj_jrn (k : Nat) (w : WObj) : (s.setWobj k w).jrn = s.jrn := rfl
@[simp] theorem State.setWobj_rings (k : Nat) (w : WObj) : (s.setWobj k w).rings = s.rings := rfl
@[simp] theorem State.setWobj_ctxs (k : Nat) (w : WObj) : (s.setWobj k w).ctxs = s.ctxs := rfl
@[simp] theorem State.setWobj_profiles (k : Nat) (w : WObj) : (s.setWobj k w).profiles = s.profiles := rfl
@[simp] theorem State.setWobj_images (k : Nat) (w : WObj) : (s.setWobj k w).images = s.images := rfl
@[simp] theorem State.setWobj_seqs (k : Nat) (w : WObj) : (s.setWobj k w).seqs = s.seqs := rfl
@[simp] theorem State.setWobj_pages (k : Nat) (w : WObj) : (s.setWobj k w).pages = s.pages := rfl
@[simp] theorem State.setWobj_dom (k : Nat) (w : WObj) : (s.setWobj k w).dom = s.dom := rfl
@[simp] theorem State.setWobj_eng (k : Nat) (w : WObj) : (s.setWobj k w).eng = s.eng := rfl
@[simp] theorem State.setWobj_fbxCtl (k : Nat) (w : WObj) : (s.setWobj k w).fbxCtl = s.fbxCtl := rfl
@[simp] theorem State.setWobj_drt (k : Nat) (w : WObj) : (s.setWobj k w).drt = s.drt := rfl
@[simp] theorem State.setWobj_wins (k : Nat) (w : WObj) : (s.setWobj k w).wins = s.wins := rfl
@[simp] theorem State.setWobj_coal (k : Nat) (w : WObj) : (s.setWobj k w).coal = s.coal := rfl
@[simp] theorem State.setWobj_cxp (k : Nat) (w : WObj) : (s.setWobj k w).cxp = s.cxp := rfl
@[simp] theorem State.setWobj_flu (k : Nat) (w : WObj) : (s.setWobj k w).flu = s.flu := rfl
@[simp] theorem State.setWobj_dmp (k : Nat) (w : WObj) : (s.setWobj k w).dmp = s.dmp := rfl
@[simp] theorem State.setWobj_chk (k : Nat) (w : WObj) : (s.setWobj k w).chk = s.chk := rfl
@[simp] theorem State.setWobj_sec (k : Nat) (w : WObj) : (s.setWobj k w).sec = s.sec := rfl
@[simp] theorem State.setWobj_tel (k : Nat) (w : WObj) : (s.setWobj k w).tel = s.tel := rfl
@[simp] theorem State.setWobj_pkg (k : Nat) (w : WObj) : (s.setWobj k w).pkg = s.pkg := rfl
@[simp] theorem State.setWobj_mem (k : Nat) (w : WObj) : (s.setWobj k w).mem = s.mem := rfl

/-! State.setConn -/
@[simp] theorem State.setConn_pending (n : Nat) (c : Conn) : (s.setConn n c).pending = s.pending := rfl
@[simp] theorem State.setConn_fresh (n : Nat) (c : Conn) : (s.setConn n c).fresh = s.fresh := rfl
@[simp] theorem State.setConn_now (n : Nat) (c : Conn) : (s.setConn n c).now = s.now := rfl
@[simp] theorem State.setConn_resp (n : Nat) (c : Conn) : (s.setConn n c).resp = s.resp := rfl
@[simp] theorem State.setConn_gbl (n : Nat) (c : Conn) : (s.setConn n c).gbl = s.gbl := rfl
@[simp] theorem State.setConn_jrn (n : Nat) (c : Conn) : (s.setConn n c).jrn = s.jrn := rfl
@[simp] theorem State.setConn_rings (n : Nat) (c : Conn) : (s.setConn n c).rings = s.rings := rfl
@[simp] theorem State.setConn_ctxs (n : Nat) (c : Conn) : (s.setConn n c).ctxs = s.ctxs := rfl
@[simp] theorem State.setConn_profiles (n : Nat) (c : Conn) : (s.setConn n c).profiles = s.profiles := rfl
@[simp] theorem State.setConn_images (n : Nat) (c : Conn) : (s.setConn n c).images = s.images := rfl
@[simp] theorem State.setConn_seqs (n : Nat) (c : Conn) : (s.setConn n c).seqs = s.seqs := rfl
@[simp] theorem State.setConn_pages (n : Nat) (c : Conn) : (s.setConn n c).pages = s.pages := rfl
@[simp] theorem State.setConn_dom (n : Nat) (c : Conn) : (s.setConn n c).dom = s.dom := rfl
@[simp] theorem State.setConn_eng (n : Nat) (c : Conn) : (s.setConn n c).eng = s.eng := rfl
@[simp] theorem State.setConn_fbxCtl (n : Nat) (c : Conn) : (s.setConn n c).fbxCtl = s.fbxCtl := rfl
@[simp] theorem State.setConn_drt (n : Nat) (c : Conn) : (s.setConn n c).drt = s.drt := rfl
@[simp] theorem State.setConn_wobjs (n : Nat) (c : Conn) : (s.setConn n c).wobjs = s.wobjs := rfl
@[simp] theorem State.setConn_wins (n : Nat) (c : Conn) : (s.setConn n c).wins = s.wins := rfl
@[simp] theorem State.setConn_coal (n : Nat) (c : Conn) : (s.setConn n c).coal = s.coal := rfl
@[simp] theorem State.setConn_cxp (n : Nat) (c : Conn) : (s.setConn n c).cxp = s.cxp := rfl
@[simp] theorem State.setConn_dmp (n : Nat) (c : Conn) : (s.setConn n c).dmp = s.dmp := rfl
@[simp] theorem State.setConn_chk (n : Nat) (c : Conn) : (s.setConn n c).chk = s.chk := rfl
@[simp] theorem State.setConn_sec (n : Nat) (c : Conn) : (s.setConn n c).sec = s.sec := rfl
@[simp] theorem State.setConn_tel (n : Nat) (c : Conn) : (s.setConn n c).tel = s.tel := rfl
@[simp] theorem State.setConn_pkg (n : Nat) (c : Conn) : (s.setConn n c).pkg = s.pkg := rfl
@[simp] theorem State.setConn_mem (n : Nat) (c : Conn) : (s.setConn n c).mem = s.mem := rfl

/-! State.setHead -/
@[simp] theorem State.setHead_pending (h : Side) (x : HeadState) : (s.setHead h x).pending = s.pending := rfl
@[simp] theorem State.setHead_fresh (h : Side) (x : HeadState) : (s.setHead h x).fresh = s.fresh := rfl
@[simp] theorem State.setHead_now (h : Side) (x : HeadState) : (s.setHead h x).now = s.now := rfl
@[simp] theorem State.setHead_resp (h : Side) (x : HeadState) : (s.setHead h x).resp = s.resp := rfl
@[simp] theorem State.setHead_gbl (h : Side) (x : HeadState) : (s.setHead h x).gbl = s.gbl := rfl
@[simp] theorem State.setHead_jrn (h : Side) (x : HeadState) : (s.setHead h x).jrn = s.jrn := rfl
@[simp] theorem State.setHead_rings (h : Side) (x : HeadState) : (s.setHead h x).rings = s.rings := rfl
@[simp] theorem State.setHead_ctxs (h : Side) (x : HeadState) : (s.setHead h x).ctxs = s.ctxs := rfl
@[simp] theorem State.setHead_profiles (h : Side) (x : HeadState) : (s.setHead h x).profiles = s.profiles := rfl
@[simp] theorem State.setHead_images (h : Side) (x : HeadState) : (s.setHead h x).images = s.images := rfl
@[simp] theorem State.setHead_seqs (h : Side) (x : HeadState) : (s.setHead h x).seqs = s.seqs := rfl
@[simp] theorem State.setHead_pages (h : Side) (x : HeadState) : (s.setHead h x).pages = s.pages := rfl
@[simp] theorem State.setHead_dom (h : Side) (x : HeadState) : (s.setHead h x).dom = s.dom := rfl
@[simp] theorem State.setHead_eng (h : Side) (x : HeadState) : (s.setHead h x).eng = s.eng := rfl
@[simp] theorem State.setHead_fbxCtl (h : Side) (x : HeadState) : (s.setHead h x).fbxCtl = s.fbxCtl := rfl
@[simp] theorem State.setHead_drt (h : Side) (x : HeadState) : (s.setHead h x).drt = s.drt := rfl
@[simp] theorem State.setHead_wobjs (h : Side) (x : HeadState) : (s.setHead h x).wobjs = s.wobjs := rfl
@[simp] theorem State.setHead_wins (h : Side) (x : HeadState) : (s.setHead h x).wins = s.wins := rfl
@[simp] theorem State.setHead_coal (h : Side) (x : HeadState) : (s.setHead h x).coal = s.coal := rfl
@[simp] theorem State.setHead_flu (h : Side) (x : HeadState) : (s.setHead h x).flu = s.flu := rfl
@[simp] theorem State.setHead_dmp (h : Side) (x : HeadState) : (s.setHead h x).dmp = s.dmp := rfl
@[simp] theorem State.setHead_chk (h : Side) (x : HeadState) : (s.setHead h x).chk = s.chk := rfl
@[simp] theorem State.setHead_sec (h : Side) (x : HeadState) : (s.setHead h x).sec = s.sec := rfl
@[simp] theorem State.setHead_tel (h : Side) (x : HeadState) : (s.setHead h x).tel = s.tel := rfl
@[simp] theorem State.setHead_pkg (h : Side) (x : HeadState) : (s.setHead h x).pkg = s.pkg := rfl
@[simp] theorem State.setHead_mem (h : Side) (x : HeadState) : (s.setHead h x).mem = s.mem := rfl

/-! State.setLd -/
@[simp] theorem State.setLd_pending (l : Ld) (x : LdState) : (s.setLd l x).pending = s.pending := rfl
@[simp] theorem State.setLd_fresh (l : Ld) (x : LdState) : (s.setLd l x).fresh = s.fresh := rfl
@[simp] theorem State.setLd_now (l : Ld) (x : LdState) : (s.setLd l x).now = s.now := rfl
@[simp] theorem State.setLd_resp (l : Ld) (x : LdState) : (s.setLd l x).resp = s.resp := rfl
@[simp] theorem State.setLd_gbl (l : Ld) (x : LdState) : (s.setLd l x).gbl = s.gbl := rfl
@[simp] theorem State.setLd_jrn (l : Ld) (x : LdState) : (s.setLd l x).jrn = s.jrn := rfl
@[simp] theorem State.setLd_rings (l : Ld) (x : LdState) : (s.setLd l x).rings = s.rings := rfl
@[simp] theorem State.setLd_ctxs (l : Ld) (x : LdState) : (s.setLd l x).ctxs = s.ctxs := rfl
@[simp] theorem State.setLd_profiles (l : Ld) (x : LdState) : (s.setLd l x).profiles = s.profiles := rfl
@[simp] theorem State.setLd_images (l : Ld) (x : LdState) : (s.setLd l x).images = s.images := rfl
@[simp] theorem State.setLd_seqs (l : Ld) (x : LdState) : (s.setLd l x).seqs = s.seqs := rfl
@[simp] theorem State.setLd_pages (l : Ld) (x : LdState) : (s.setLd l x).pages = s.pages := rfl
@[simp] theorem State.setLd_dom (l : Ld) (x : LdState) : (s.setLd l x).dom = s.dom := rfl
@[simp] theorem State.setLd_eng (l : Ld) (x : LdState) : (s.setLd l x).eng = s.eng := rfl
@[simp] theorem State.setLd_fbxCtl (l : Ld) (x : LdState) : (s.setLd l x).fbxCtl = s.fbxCtl := rfl
@[simp] theorem State.setLd_drt (l : Ld) (x : LdState) : (s.setLd l x).drt = s.drt := rfl
@[simp] theorem State.setLd_wobjs (l : Ld) (x : LdState) : (s.setLd l x).wobjs = s.wobjs := rfl
@[simp] theorem State.setLd_wins (l : Ld) (x : LdState) : (s.setLd l x).wins = s.wins := rfl
@[simp] theorem State.setLd_coal (l : Ld) (x : LdState) : (s.setLd l x).coal = s.coal := rfl
@[simp] theorem State.setLd_flu (l : Ld) (x : LdState) : (s.setLd l x).flu = s.flu := rfl
@[simp] theorem State.setLd_dmp (l : Ld) (x : LdState) : (s.setLd l x).dmp = s.dmp := rfl
@[simp] theorem State.setLd_chk (l : Ld) (x : LdState) : (s.setLd l x).chk = s.chk := rfl
@[simp] theorem State.setLd_sec (l : Ld) (x : LdState) : (s.setLd l x).sec = s.sec := rfl
@[simp] theorem State.setLd_tel (l : Ld) (x : LdState) : (s.setLd l x).tel = s.tel := rfl
@[simp] theorem State.setLd_pkg (l : Ld) (x : LdState) : (s.setLd l x).pkg = s.pkg := rfl
@[simp] theorem State.setLd_mem (l : Ld) (x : LdState) : (s.setLd l x).mem = s.mem := rfl

/-! State.setPort -/
@[simp] theorem State.setPort_pending (p : Side) (x : PortState) : (s.setPort p x).pending = s.pending := rfl
@[simp] theorem State.setPort_fresh (p : Side) (x : PortState) : (s.setPort p x).fresh = s.fresh := rfl
@[simp] theorem State.setPort_now (p : Side) (x : PortState) : (s.setPort p x).now = s.now := rfl
@[simp] theorem State.setPort_resp (p : Side) (x : PortState) : (s.setPort p x).resp = s.resp := rfl
@[simp] theorem State.setPort_gbl (p : Side) (x : PortState) : (s.setPort p x).gbl = s.gbl := rfl
@[simp] theorem State.setPort_jrn (p : Side) (x : PortState) : (s.setPort p x).jrn = s.jrn := rfl
@[simp] theorem State.setPort_rings (p : Side) (x : PortState) : (s.setPort p x).rings = s.rings := rfl
@[simp] theorem State.setPort_ctxs (p : Side) (x : PortState) : (s.setPort p x).ctxs = s.ctxs := rfl
@[simp] theorem State.setPort_profiles (p : Side) (x : PortState) : (s.setPort p x).profiles = s.profiles := rfl
@[simp] theorem State.setPort_images (p : Side) (x : PortState) : (s.setPort p x).images = s.images := rfl
@[simp] theorem State.setPort_seqs (p : Side) (x : PortState) : (s.setPort p x).seqs = s.seqs := rfl
@[simp] theorem State.setPort_pages (p : Side) (x : PortState) : (s.setPort p x).pages = s.pages := rfl
@[simp] theorem State.setPort_dom (p : Side) (x : PortState) : (s.setPort p x).dom = s.dom := rfl
@[simp] theorem State.setPort_eng (p : Side) (x : PortState) : (s.setPort p x).eng = s.eng := rfl
@[simp] theorem State.setPort_fbxCtl (p : Side) (x : PortState) : (s.setPort p x).fbxCtl = s.fbxCtl := rfl
@[simp] theorem State.setPort_drt (p : Side) (x : PortState) : (s.setPort p x).drt = s.drt := rfl
@[simp] theorem State.setPort_wobjs (p : Side) (x : PortState) : (s.setPort p x).wobjs = s.wobjs := rfl
@[simp] theorem State.setPort_wins (p : Side) (x : PortState) : (s.setPort p x).wins = s.wins := rfl
@[simp] theorem State.setPort_coal (p : Side) (x : PortState) : (s.setPort p x).coal = s.coal := rfl
@[simp] theorem State.setPort_cxp (p : Side) (x : PortState) : (s.setPort p x).cxp = s.cxp := rfl
@[simp] theorem State.setPort_dmp (p : Side) (x : PortState) : (s.setPort p x).dmp = s.dmp := rfl
@[simp] theorem State.setPort_chk (p : Side) (x : PortState) : (s.setPort p x).chk = s.chk := rfl
@[simp] theorem State.setPort_sec (p : Side) (x : PortState) : (s.setPort p x).sec = s.sec := rfl
@[simp] theorem State.setPort_tel (p : Side) (x : PortState) : (s.setPort p x).tel = s.tel := rfl
@[simp] theorem State.setPort_pkg (p : Side) (x : PortState) : (s.setPort p x).pkg = s.pkg := rfl
@[simp] theorem State.setPort_mem (p : Side) (x : PortState) : (s.setPort p x).mem = s.mem := rfl

/-! State.setHalf -/
@[simp] theorem State.setHalf_pending (d : Side) (x : Half) : (s.setHalf d x).pending = s.pending := rfl
@[simp] theorem State.setHalf_fresh (d : Side) (x : Half) : (s.setHalf d x).fresh = s.fresh := rfl
@[simp] theorem State.setHalf_now (d : Side) (x : Half) : (s.setHalf d x).now = s.now := rfl
@[simp] theorem State.setHalf_resp (d : Side) (x : Half) : (s.setHalf d x).resp = s.resp := rfl
@[simp] theorem State.setHalf_gbl (d : Side) (x : Half) : (s.setHalf d x).gbl = s.gbl := rfl
@[simp] theorem State.setHalf_jrn (d : Side) (x : Half) : (s.setHalf d x).jrn = s.jrn := rfl
@[simp] theorem State.setHalf_rings (d : Side) (x : Half) : (s.setHalf d x).rings = s.rings := rfl
@[simp] theorem State.setHalf_ctxs (d : Side) (x : Half) : (s.setHalf d x).ctxs = s.ctxs := rfl
@[simp] theorem State.setHalf_profiles (d : Side) (x : Half) : (s.setHalf d x).profiles = s.profiles := rfl
@[simp] theorem State.setHalf_images (d : Side) (x : Half) : (s.setHalf d x).images = s.images := rfl
@[simp] theorem State.setHalf_seqs (d : Side) (x : Half) : (s.setHalf d x).seqs = s.seqs := rfl
@[simp] theorem State.setHalf_pages (d : Side) (x : Half) : (s.setHalf d x).pages = s.pages := rfl
@[simp] theorem State.setHalf_dom (d : Side) (x : Half) : (s.setHalf d x).dom = s.dom := rfl
@[simp] theorem State.setHalf_eng (d : Side) (x : Half) : (s.setHalf d x).eng = s.eng := rfl
@[simp] theorem State.setHalf_fbxCtl (d : Side) (x : Half) : (s.setHalf d x).fbxCtl = s.fbxCtl := rfl
@[simp] theorem State.setHalf_drt (d : Side) (x : Half) : (s.setHalf d x).drt = s.drt := rfl
@[simp] theorem State.setHalf_wobjs (d : Side) (x : Half) : (s.setHalf d x).wobjs = s.wobjs := rfl
@[simp] theorem State.setHalf_wins (d : Side) (x : Half) : (s.setHalf d x).wins = s.wins := rfl
@[simp] theorem State.setHalf_cxp (d : Side) (x : Half) : (s.setHalf d x).cxp = s.cxp := rfl
@[simp] theorem State.setHalf_flu (d : Side) (x : Half) : (s.setHalf d x).flu = s.flu := rfl
@[simp] theorem State.setHalf_dmp (d : Side) (x : Half) : (s.setHalf d x).dmp = s.dmp := rfl
@[simp] theorem State.setHalf_chk (d : Side) (x : Half) : (s.setHalf d x).chk = s.chk := rfl
@[simp] theorem State.setHalf_sec (d : Side) (x : Half) : (s.setHalf d x).sec = s.sec := rfl
@[simp] theorem State.setHalf_tel (d : Side) (x : Half) : (s.setHalf d x).tel = s.tel := rfl
@[simp] theorem State.setHalf_pkg (d : Side) (x : Half) : (s.setHalf d x).pkg = s.pkg := rfl
@[simp] theorem State.setHalf_mem (d : Side) (x : Half) : (s.setHalf d x).mem = s.mem := rfl

/-! State.poke -/
@[simp] theorem State.poke_pending (a : Nat) (bs : List Byte) : (s.poke a bs).pending = s.pending := rfl
@[simp] theorem State.poke_fresh (a : Nat) (bs : List Byte) : (s.poke a bs).fresh = s.fresh := rfl
@[simp] theorem State.poke_now (a : Nat) (bs : List Byte) : (s.poke a bs).now = s.now := rfl
@[simp] theorem State.poke_resp (a : Nat) (bs : List Byte) : (s.poke a bs).resp = s.resp := rfl
@[simp] theorem State.poke_gbl (a : Nat) (bs : List Byte) : (s.poke a bs).gbl = s.gbl := rfl
@[simp] theorem State.poke_jrn (a : Nat) (bs : List Byte) : (s.poke a bs).jrn = s.jrn := rfl
@[simp] theorem State.poke_rings (a : Nat) (bs : List Byte) : (s.poke a bs).rings = s.rings := rfl
@[simp] theorem State.poke_ctxs (a : Nat) (bs : List Byte) : (s.poke a bs).ctxs = s.ctxs := rfl
@[simp] theorem State.poke_profiles (a : Nat) (bs : List Byte) : (s.poke a bs).profiles = s.profiles := rfl
@[simp] theorem State.poke_images (a : Nat) (bs : List Byte) : (s.poke a bs).images = s.images := rfl
@[simp] theorem State.poke_seqs (a : Nat) (bs : List Byte) : (s.poke a bs).seqs = s.seqs := rfl
@[simp] theorem State.poke_pages (a : Nat) (bs : List Byte) : (s.poke a bs).pages = s.pages := rfl
@[simp] theorem State.poke_dom (a : Nat) (bs : List Byte) : (s.poke a bs).dom = s.dom := rfl
@[simp] theorem State.poke_eng (a : Nat) (bs : List Byte) : (s.poke a bs).eng = s.eng := rfl
@[simp] theorem State.poke_fbxCtl (a : Nat) (bs : List Byte) : (s.poke a bs).fbxCtl = s.fbxCtl := rfl
@[simp] theorem State.poke_drt (a : Nat) (bs : List Byte) : (s.poke a bs).drt = s.drt := rfl
@[simp] theorem State.poke_wobjs (a : Nat) (bs : List Byte) : (s.poke a bs).wobjs = s.wobjs := rfl
@[simp] theorem State.poke_wins (a : Nat) (bs : List Byte) : (s.poke a bs).wins = s.wins := rfl
@[simp] theorem State.poke_coal (a : Nat) (bs : List Byte) : (s.poke a bs).coal = s.coal := rfl
@[simp] theorem State.poke_cxp (a : Nat) (bs : List Byte) : (s.poke a bs).cxp = s.cxp := rfl
@[simp] theorem State.poke_flu (a : Nat) (bs : List Byte) : (s.poke a bs).flu = s.flu := rfl
@[simp] theorem State.poke_dmp (a : Nat) (bs : List Byte) : (s.poke a bs).dmp = s.dmp := rfl
@[simp] theorem State.poke_chk (a : Nat) (bs : List Byte) : (s.poke a bs).chk = s.chk := rfl
@[simp] theorem State.poke_sec (a : Nat) (bs : List Byte) : (s.poke a bs).sec = s.sec := rfl
@[simp] theorem State.poke_tel (a : Nat) (bs : List Byte) : (s.poke a bs).tel = s.tel := rfl
@[simp] theorem State.poke_pkg (a : Nat) (bs : List Byte) : (s.poke a bs).pkg = s.pkg := rfl

/-! State.countAo -/
@[simp] theorem State.countAo_pending (o n : Nat) : (s.countAo o n).pending = s.pending := rfl
@[simp] theorem State.countAo_fresh (o n : Nat) : (s.countAo o n).fresh = s.fresh := rfl
@[simp] theorem State.countAo_now (o n : Nat) : (s.countAo o n).now = s.now := rfl
@[simp] theorem State.countAo_resp (o n : Nat) : (s.countAo o n).resp = s.resp := rfl
@[simp] theorem State.countAo_gbl (o n : Nat) : (s.countAo o n).gbl = s.gbl := rfl
@[simp] theorem State.countAo_jrn (o n : Nat) : (s.countAo o n).jrn = s.jrn := rfl
@[simp] theorem State.countAo_rings (o n : Nat) : (s.countAo o n).rings = s.rings := rfl
@[simp] theorem State.countAo_ctxs (o n : Nat) : (s.countAo o n).ctxs = s.ctxs := rfl
@[simp] theorem State.countAo_profiles (o n : Nat) : (s.countAo o n).profiles = s.profiles := rfl
@[simp] theorem State.countAo_images (o n : Nat) : (s.countAo o n).images = s.images := rfl
@[simp] theorem State.countAo_seqs (o n : Nat) : (s.countAo o n).seqs = s.seqs := rfl
@[simp] theorem State.countAo_pages (o n : Nat) : (s.countAo o n).pages = s.pages := rfl
@[simp] theorem State.countAo_dom (o n : Nat) : (s.countAo o n).dom = s.dom := rfl
@[simp] theorem State.countAo_eng (o n : Nat) : (s.countAo o n).eng = s.eng := rfl
@[simp] theorem State.countAo_fbxCtl (o n : Nat) : (s.countAo o n).fbxCtl = s.fbxCtl := rfl
@[simp] theorem State.countAo_drt (o n : Nat) : (s.countAo o n).drt = s.drt := rfl
@[simp] theorem State.countAo_wobjs (o n : Nat) : (s.countAo o n).wobjs = s.wobjs := rfl
@[simp] theorem State.countAo_wins (o n : Nat) : (s.countAo o n).wins = s.wins := rfl
@[simp] theorem State.countAo_coal (o n : Nat) : (s.countAo o n).coal = s.coal := rfl
@[simp] theorem State.countAo_cxp (o n : Nat) : (s.countAo o n).cxp = s.cxp := rfl
@[simp] theorem State.countAo_flu (o n : Nat) : (s.countAo o n).flu = s.flu := rfl
@[simp] theorem State.countAo_dmp (o n : Nat) : (s.countAo o n).dmp = s.dmp := rfl
@[simp] theorem State.countAo_chk (o n : Nat) : (s.countAo o n).chk = s.chk := rfl
@[simp] theorem State.countAo_sec (o n : Nat) : (s.countAo o n).sec = s.sec := rfl
@[simp] theorem State.countAo_pkg (o n : Nat) : (s.countAo o n).pkg = s.pkg := rfl
@[simp] theorem State.countAo_mem (o n : Nat) : (s.countAo o n).mem = s.mem := rfl

/-! State.count -/
@[simp] theorem State.count_pending (o n : Nat) : (s.count o n).pending = s.pending := by unfold State.count; split <;> rfl
@[simp] theorem State.count_fresh (o n : Nat) : (s.count o n).fresh = s.fresh := by unfold State.count; split <;> rfl
@[simp] theorem State.count_now (o n : Nat) : (s.count o n).now = s.now := by unfold State.count; split <;> rfl
@[simp] theorem State.count_resp (o n : Nat) : (s.count o n).resp = s.resp := by unfold State.count; split <;> rfl
@[simp] theorem State.count_gbl (o n : Nat) : (s.count o n).gbl = s.gbl := by unfold State.count; split <;> rfl
@[simp] theorem State.count_jrn (o n : Nat) : (s.count o n).jrn = s.jrn := by unfold State.count; split <;> rfl
@[simp] theorem State.count_rings (o n : Nat) : (s.count o n).rings = s.rings := by unfold State.count; split <;> rfl
@[simp] theorem State.count_ctxs (o n : Nat) : (s.count o n).ctxs = s.ctxs := by unfold State.count; split <;> rfl
@[simp] theorem State.count_profiles (o n : Nat) : (s.count o n).profiles = s.profiles := by unfold State.count; split <;> rfl
@[simp] theorem State.count_images (o n : Nat) : (s.count o n).images = s.images := by unfold State.count; split <;> rfl
@[simp] theorem State.count_seqs (o n : Nat) : (s.count o n).seqs = s.seqs := by unfold State.count; split <;> rfl
@[simp] theorem State.count_pages (o n : Nat) : (s.count o n).pages = s.pages := by unfold State.count; split <;> rfl
@[simp] theorem State.count_dom (o n : Nat) : (s.count o n).dom = s.dom := by unfold State.count; split <;> rfl
@[simp] theorem State.count_eng (o n : Nat) : (s.count o n).eng = s.eng := by unfold State.count; split <;> rfl
@[simp] theorem State.count_fbxCtl (o n : Nat) : (s.count o n).fbxCtl = s.fbxCtl := by unfold State.count; split <;> rfl
@[simp] theorem State.count_drt (o n : Nat) : (s.count o n).drt = s.drt := by unfold State.count; split <;> rfl
@[simp] theorem State.count_wobjs (o n : Nat) : (s.count o n).wobjs = s.wobjs := by unfold State.count; split <;> rfl
@[simp] theorem State.count_wins (o n : Nat) : (s.count o n).wins = s.wins := by unfold State.count; split <;> rfl
@[simp] theorem State.count_coal (o n : Nat) : (s.count o n).coal = s.coal := by unfold State.count; split <;> rfl
@[simp] theorem State.count_cxp (o n : Nat) : (s.count o n).cxp = s.cxp := by unfold State.count; split <;> rfl
@[simp] theorem State.count_flu (o n : Nat) : (s.count o n).flu = s.flu := by unfold State.count; split <;> rfl
@[simp] theorem State.count_dmp (o n : Nat) : (s.count o n).dmp = s.dmp := by unfold State.count; split <;> rfl
@[simp] theorem State.count_chk (o n : Nat) : (s.count o n).chk = s.chk := by unfold State.count; split <;> rfl
@[simp] theorem State.count_sec (o n : Nat) : (s.count o n).sec = s.sec := by unfold State.count; split <;> rfl
@[simp] theorem State.count_pkg (o n : Nat) : (s.count o n).pkg = s.pkg := by unfold State.count; split <;> rfl
@[simp] theorem State.count_mem (o n : Nat) : (s.count o n).mem = s.mem := by unfold State.count; split <;> rfl

/-! State.raise -/
@[simp] theorem State.raise_pending (h : Side) (l v : Nat) : (s.raise h l v).pending = s.pending := rfl
@[simp] theorem State.raise_fresh (h : Side) (l v : Nat) : (s.raise h l v).fresh = s.fresh := rfl
@[simp] theorem State.raise_now (h : Side) (l v : Nat) : (s.raise h l v).now = s.now := rfl
@[simp] theorem State.raise_resp (h : Side) (l v : Nat) : (s.raise h l v).resp = s.resp := rfl
@[simp] theorem State.raise_jrn (h : Side) (l v : Nat) : (s.raise h l v).jrn = s.jrn := rfl
@[simp] theorem State.raise_rings (h : Side) (l v : Nat) : (s.raise h l v).rings = s.rings := rfl
@[simp] theorem State.raise_ctxs (h : Side) (l v : Nat) : (s.raise h l v).ctxs = s.ctxs := rfl
@[simp] theorem State.raise_profiles (h : Side) (l v : Nat) : (s.raise h l v).profiles = s.profiles := rfl
@[simp] theorem State.raise_images (h : Side) (l v : Nat) : (s.raise h l v).images = s.images := rfl
@[simp] theorem State.raise_seqs (h : Side) (l v : Nat) : (s.raise h l v).seqs = s.seqs := rfl
@[simp] theorem State.raise_pages (h : Side) (l v : Nat) : (s.raise h l v).pages = s.pages := rfl
@[simp] theorem State.raise_dom (h : Side) (l v : Nat) : (s.raise h l v).dom = s.dom := rfl
@[simp] theorem State.raise_eng (h : Side) (l v : Nat) : (s.raise h l v).eng = s.eng := rfl
@[simp] theorem State.raise_fbxCtl (h : Side) (l v : Nat) : (s.raise h l v).fbxCtl = s.fbxCtl := rfl
@[simp] theorem State.raise_drt (h : Side) (l v : Nat) : (s.raise h l v).drt = s.drt := rfl
@[simp] theorem State.raise_wobjs (h : Side) (l v : Nat) : (s.raise h l v).wobjs = s.wobjs := rfl
@[simp] theorem State.raise_wins (h : Side) (l v : Nat) : (s.raise h l v).wins = s.wins := rfl
@[simp] theorem State.raise_coal (h : Side) (l v : Nat) : (s.raise h l v).coal = s.coal := rfl
@[simp] theorem State.raise_cxp (h : Side) (l v : Nat) : (s.raise h l v).cxp = s.cxp := rfl
@[simp] theorem State.raise_flu (h : Side) (l v : Nat) : (s.raise h l v).flu = s.flu := rfl
@[simp] theorem State.raise_dmp (h : Side) (l v : Nat) : (s.raise h l v).dmp = s.dmp := rfl
@[simp] theorem State.raise_chk (h : Side) (l v : Nat) : (s.raise h l v).chk = s.chk := rfl
@[simp] theorem State.raise_sec (h : Side) (l v : Nat) : (s.raise h l v).sec = s.sec := rfl
@[simp] theorem State.raise_tel (h : Side) (l v : Nat) : (s.raise h l v).tel = s.tel := rfl
@[simp] theorem State.raise_pkg (h : Side) (l v : Nat) : (s.raise h l v).pkg = s.pkg := rfl
@[simp] theorem State.raise_mem (h : Side) (l v : Nat) : (s.raise h l v).mem = s.mem := rfl

/-! State.trace -/
@[simp] theorem State.trace_pending (d : Side) (r : TraceRec) : (s.trace d r).pending = s.pending := by unfold State.trace; dsimp only; split <;> rfl
@[simp] theorem State.trace_fresh (d : Side) (r : TraceRec) : (s.trace d r).fresh = s.fresh := by unfold State.trace; dsimp only; split <;> rfl
@[simp] theorem State.trace_now (d : Side) (r : TraceRec) : (s.trace d r).now = s.now := by unfold State.trace; dsimp only; split <;> rfl
@[simp] theorem State.trace_resp (d : Side) (r : TraceRec) : (s.trace d r).resp = s.resp := by unfold State.trace; dsimp only; split <;> rfl
@[simp] theorem State.trace_gbl (d : Side) (r : TraceRec) : (s.trace d r).gbl = s.gbl := by unfold State.trace; dsimp only; split <;> rfl
@[simp] theorem State.trace_jrn (d : Side) (r : TraceRec) : (s.trace d r).jrn = s.jrn := by unfold State.trace; dsimp only; split <;> rfl
@[simp] theorem State.trace_rings (d : Side) (r : TraceRec) : (s.trace d r).rings = s.rings := by unfold State.trace; dsimp only; split <;> rfl
@[simp] theorem State.trace_ctxs (d : Side) (r : TraceRec) : (s.trace d r).ctxs = s.ctxs := by unfold State.trace; dsimp only; split <;> rfl
@[simp] theorem State.trace_profiles (d : Side) (r : TraceRec) : (s.trace d r).profiles = s.profiles := by unfold State.trace; dsimp only; split <;> rfl
@[simp] theorem State.trace_images (d : Side) (r : TraceRec) : (s.trace d r).images = s.images := by unfold State.trace; dsimp only; split <;> rfl
@[simp] theorem State.trace_seqs (d : Side) (r : TraceRec) : (s.trace d r).seqs = s.seqs := by unfold State.trace; dsimp only; split <;> rfl
@[simp] theorem State.trace_pages (d : Side) (r : TraceRec) : (s.trace d r).pages = s.pages := by unfold State.trace; dsimp only; split <;> rfl
@[simp] theorem State.trace_dom (d : Side) (r : TraceRec) : (s.trace d r).dom = s.dom := by unfold State.trace; dsimp only; split <;> rfl
@[simp] theorem State.trace_eng (d : Side) (r : TraceRec) : (s.trace d r).eng = s.eng := by unfold State.trace; dsimp only; split <;> rfl
@[simp] theorem State.trace_fbxCtl (d : Side) (r : TraceRec) : (s.trace d r).fbxCtl = s.fbxCtl := by unfold State.trace; dsimp only; split <;> rfl
@[simp] theorem State.trace_drt (d : Side) (r : TraceRec) : (s.trace d r).drt = s.drt := by unfold State.trace; dsimp only; split <;> rfl
@[simp] theorem State.trace_wobjs (d : Side) (r : TraceRec) : (s.trace d r).wobjs = s.wobjs := by unfold State.trace; dsimp only; split <;> rfl
@[simp] theorem State.trace_wins (d : Side) (r : TraceRec) : (s.trace d r).wins = s.wins := by unfold State.trace; dsimp only; split <;> rfl
@[simp] theorem State.trace_coal (d : Side) (r : TraceRec) : (s.trace d r).coal = s.coal := by unfold State.trace; dsimp only; split <;> rfl
@[simp] theorem State.trace_cxp (d : Side) (r : TraceRec) : (s.trace d r).cxp = s.cxp := by unfold State.trace; dsimp only; split <;> rfl
@[simp] theorem State.trace_flu (d : Side) (r : TraceRec) : (s.trace d r).flu = s.flu := by unfold State.trace; dsimp only; split <;> rfl
@[simp] theorem State.trace_dmp (d : Side) (r : TraceRec) : (s.trace d r).dmp = s.dmp := by unfold State.trace; dsimp only; split <;> rfl
@[simp] theorem State.trace_chk (d : Side) (r : TraceRec) : (s.trace d r).chk = s.chk := by unfold State.trace; dsimp only; split <;> rfl
@[simp] theorem State.trace_sec (d : Side) (r : TraceRec) : (s.trace d r).sec = s.sec := by unfold State.trace; dsimp only; split <;> rfl
@[simp] theorem State.trace_pkg (d : Side) (r : TraceRec) : (s.trace d r).pkg = s.pkg := by unfold State.trace; dsimp only; split <;> rfl
@[simp] theorem State.trace_mem (d : Side) (r : TraceRec) : (s.trace d r).mem = s.mem := by unfold State.trace; dsimp only; split <;> rfl

/-! State.ctxEvent -/
@[simp] theorem State.ctxEvent_pending (c ev cls ring layer opid n : Nat) : (s.ctxEvent c ev cls ring layer opid n).pending = s.pending := by unfold State.ctxEvent; dsimp only; split <;> rfl
@[simp] theorem State.ctxEvent_fresh (c ev cls ring layer opid n : Nat) : (s.ctxEvent c ev cls ring layer opid n).fresh = s.fresh := by unfold State.ctxEvent; dsimp only; split <;> rfl
@[simp] theorem State.ctxEvent_now (c ev cls ring layer opid n : Nat) : (s.ctxEvent c ev cls ring layer opid n).now = s.now := by unfold State.ctxEvent; dsimp only; split <;> rfl
@[simp] theorem State.ctxEvent_resp (c ev cls ring layer opid n : Nat) : (s.ctxEvent c ev cls ring layer opid n).resp = s.resp := by unfold State.ctxEvent; dsimp only; split <;> rfl
@[simp] theorem State.ctxEvent_gbl (c ev cls ring layer opid n : Nat) : (s.ctxEvent c ev cls ring layer opid n).gbl = s.gbl := by unfold State.ctxEvent; dsimp only; split <;> rfl
@[simp] theorem State.ctxEvent_jrn (c ev cls ring layer opid n : Nat) : (s.ctxEvent c ev cls ring layer opid n).jrn = s.jrn := by unfold State.ctxEvent; dsimp only; split <;> rfl
@[simp] theorem State.ctxEvent_rings (c ev cls ring layer opid n : Nat) : (s.ctxEvent c ev cls ring layer opid n).rings = s.rings := by unfold State.ctxEvent; dsimp only; split <;> rfl
@[simp] theorem State.ctxEvent_profiles (c ev cls ring layer opid n : Nat) : (s.ctxEvent c ev cls ring layer opid n).profiles = s.profiles := by unfold State.ctxEvent; dsimp only; split <;> rfl
@[simp] theorem State.ctxEvent_images (c ev cls ring layer opid n : Nat) : (s.ctxEvent c ev cls ring layer opid n).images = s.images := by unfold State.ctxEvent; dsimp only; split <;> rfl
@[simp] theorem State.ctxEvent_seqs (c ev cls ring layer opid n : Nat) : (s.ctxEvent c ev cls ring layer opid n).seqs = s.seqs := by unfold State.ctxEvent; dsimp only; split <;> rfl
@[simp] theorem State.ctxEvent_pages (c ev cls ring layer opid n : Nat) : (s.ctxEvent c ev cls ring layer opid n).pages = s.pages := by unfold State.ctxEvent; dsimp only; split <;> rfl
@[simp] theorem State.ctxEvent_dom (c ev cls ring layer opid n : Nat) : (s.ctxEvent c ev cls ring layer opid n).dom = s.dom := by unfold State.ctxEvent; dsimp only; split <;> rfl
@[simp] theorem State.ctxEvent_eng (c ev cls ring layer opid n : Nat) : (s.ctxEvent c ev cls ring layer opid n).eng = s.eng := by unfold State.ctxEvent; dsimp only; split <;> rfl
@[simp] theorem State.ctxEvent_fbxCtl (c ev cls ring layer opid n : Nat) : (s.ctxEvent c ev cls ring layer opid n).fbxCtl = s.fbxCtl := by unfold State.ctxEvent; dsimp only; split <;> rfl
@[simp] theorem State.ctxEvent_drt (c ev cls ring layer opid n : Nat) : (s.ctxEvent c ev cls ring layer opid n).drt = s.drt := by unfold State.ctxEvent; dsimp only; split <;> rfl
@[simp] theorem State.ctxEvent_wobjs (c ev cls ring layer opid n : Nat) : (s.ctxEvent c ev cls ring layer opid n).wobjs = s.wobjs := by unfold State.ctxEvent; dsimp only; split <;> rfl
@[simp] theorem State.ctxEvent_wins (c ev cls ring layer opid n : Nat) : (s.ctxEvent c ev cls ring layer opid n).wins = s.wins := by unfold State.ctxEvent; dsimp only; split <;> rfl
@[simp] theorem State.ctxEvent_coal (c ev cls ring layer opid n : Nat) : (s.ctxEvent c ev cls ring layer opid n).coal = s.coal := by unfold State.ctxEvent; dsimp only; split <;> rfl
@[simp] theorem State.ctxEvent_cxp (c ev cls ring layer opid n : Nat) : (s.ctxEvent c ev cls ring layer opid n).cxp = s.cxp := by unfold State.ctxEvent; dsimp only; split <;> rfl
@[simp] theorem State.ctxEvent_flu (c ev cls ring layer opid n : Nat) : (s.ctxEvent c ev cls ring layer opid n).flu = s.flu := by unfold State.ctxEvent; dsimp only; split <;> rfl
@[simp] theorem State.ctxEvent_dmp (c ev cls ring layer opid n : Nat) : (s.ctxEvent c ev cls ring layer opid n).dmp = s.dmp := by unfold State.ctxEvent; dsimp only; split <;> rfl
@[simp] theorem State.ctxEvent_chk (c ev cls ring layer opid n : Nat) : (s.ctxEvent c ev cls ring layer opid n).chk = s.chk := by unfold State.ctxEvent; dsimp only; split <;> rfl
@[simp] theorem State.ctxEvent_sec (c ev cls ring layer opid n : Nat) : (s.ctxEvent c ev cls ring layer opid n).sec = s.sec := by unfold State.ctxEvent; dsimp only; split <;> rfl
@[simp] theorem State.ctxEvent_tel (c ev cls ring layer opid n : Nat) : (s.ctxEvent c ev cls ring layer opid n).tel = s.tel := by unfold State.ctxEvent; dsimp only; split <;> rfl
@[simp] theorem State.ctxEvent_pkg (c ev cls ring layer opid n : Nat) : (s.ctxEvent c ev cls ring layer opid n).pkg = s.pkg := by unfold State.ctxEvent; dsimp only; split <;> rfl
@[simp] theorem State.ctxEvent_mem (c ev cls ring layer opid n : Nat) : (s.ctxEvent c ev cls ring layer opid n).mem = s.mem := by unfold State.ctxEvent; dsimp only; split <;> rfl

/-! State.ctxReset -/
@[simp] theorem State.ctxReset_pending (c ring layer opid index : Nat) : (s.ctxReset c ring layer opid index).pending = s.pending := by unfold State.ctxReset; dsimp only; split <;> rfl
@[simp] theorem State.ctxReset_fresh (c ring layer opid index : Nat) : (s.ctxReset c ring layer opid index).fresh = s.fresh := by unfold State.ctxReset; dsimp only; split <;> rfl
@[simp] theorem State.ctxReset_now (c ring layer opid index : Nat) : (s.ctxReset c ring layer opid index).now = s.now := by unfold State.ctxReset; dsimp only; split <;> rfl
@[simp] theorem State.ctxReset_resp (c ring layer opid index : Nat) : (s.ctxReset c ring layer opid index).resp = s.resp := by unfold State.ctxReset; dsimp only; split <;> rfl
@[simp] theorem State.ctxReset_gbl (c ring layer opid index : Nat) : (s.ctxReset c ring layer opid index).gbl = s.gbl := by unfold State.ctxReset; dsimp only; split <;> rfl
@[simp] theorem State.ctxReset_jrn (c ring layer opid index : Nat) : (s.ctxReset c ring layer opid index).jrn = s.jrn := by unfold State.ctxReset; dsimp only; split <;> rfl
@[simp] theorem State.ctxReset_rings (c ring layer opid index : Nat) : (s.ctxReset c ring layer opid index).rings = s.rings := by unfold State.ctxReset; dsimp only; split <;> rfl
@[simp] theorem State.ctxReset_profiles (c ring layer opid index : Nat) : (s.ctxReset c ring layer opid index).profiles = s.profiles := by unfold State.ctxReset; dsimp only; split <;> rfl
@[simp] theorem State.ctxReset_images (c ring layer opid index : Nat) : (s.ctxReset c ring layer opid index).images = s.images := by unfold State.ctxReset; dsimp only; split <;> rfl
@[simp] theorem State.ctxReset_seqs (c ring layer opid index : Nat) : (s.ctxReset c ring layer opid index).seqs = s.seqs := by unfold State.ctxReset; dsimp only; split <;> rfl
@[simp] theorem State.ctxReset_pages (c ring layer opid index : Nat) : (s.ctxReset c ring layer opid index).pages = s.pages := by unfold State.ctxReset; dsimp only; split <;> rfl
@[simp] theorem State.ctxReset_dom (c ring layer opid index : Nat) : (s.ctxReset c ring layer opid index).dom = s.dom := by unfold State.ctxReset; dsimp only; split <;> rfl
@[simp] theorem State.ctxReset_eng (c ring layer opid index : Nat) : (s.ctxReset c ring layer opid index).eng = s.eng := by unfold State.ctxReset; dsimp only; split <;> rfl
@[simp] theorem State.ctxReset_fbxCtl (c ring layer opid index : Nat) : (s.ctxReset c ring layer opid index).fbxCtl = s.fbxCtl := by unfold State.ctxReset; dsimp only; split <;> rfl
@[simp] theorem State.ctxReset_drt (c ring layer opid index : Nat) : (s.ctxReset c ring layer opid index).drt = s.drt := by unfold State.ctxReset; dsimp only; split <;> rfl
@[simp] theorem State.ctxReset_wobjs (c ring layer opid index : Nat) : (s.ctxReset c ring layer opid index).wobjs = s.wobjs := by unfold State.ctxReset; dsimp only; split <;> rfl
@[simp] theorem State.ctxReset_wins (c ring layer opid index : Nat) : (s.ctxReset c ring layer opid index).wins = s.wins := by unfold State.ctxReset; dsimp only; split <;> rfl
@[simp] theorem State.ctxReset_coal (c ring layer opid index : Nat) : (s.ctxReset c ring layer opid index).coal = s.coal := by unfold State.ctxReset; dsimp only; split <;> rfl
@[simp] theorem State.ctxReset_cxp (c ring layer opid index : Nat) : (s.ctxReset c ring layer opid index).cxp = s.cxp := by unfold State.ctxReset; dsimp only; split <;> rfl
@[simp] theorem State.ctxReset_flu (c ring layer opid index : Nat) : (s.ctxReset c ring layer opid index).flu = s.flu := by unfold State.ctxReset; dsimp only; split <;> rfl
@[simp] theorem State.ctxReset_dmp (c ring layer opid index : Nat) : (s.ctxReset c ring layer opid index).dmp = s.dmp := by unfold State.ctxReset; dsimp only; split <;> rfl
@[simp] theorem State.ctxReset_chk (c ring layer opid index : Nat) : (s.ctxReset c ring layer opid index).chk = s.chk := by unfold State.ctxReset; dsimp only; split <;> rfl
@[simp] theorem State.ctxReset_sec (c ring layer opid index : Nat) : (s.ctxReset c ring layer opid index).sec = s.sec := by unfold State.ctxReset; dsimp only; split <;> rfl
@[simp] theorem State.ctxReset_tel (c ring layer opid index : Nat) : (s.ctxReset c ring layer opid index).tel = s.tel := by unfold State.ctxReset; dsimp only; split <;> rfl
@[simp] theorem State.ctxReset_pkg (c ring layer opid index : Nat) : (s.ctxReset c ring layer opid index).pkg = s.pkg := by unfold State.ctxReset; dsimp only; split <;> rfl
@[simp] theorem State.ctxReset_mem (c ring layer opid index : Nat) : (s.ctxReset c ring layer opid index).mem = s.mem := by unfold State.ctxReset; dsimp only; split <;> rfl

/-! State.mapRecs -/
@[simp] theorem State.mapRecs_pending (f : JRec → JRec) : (s.mapRecs f).pending = s.pending := rfl
@[simp] theorem State.mapRecs_fresh (f : JRec → JRec) : (s.mapRecs f).fresh = s.fresh := rfl
@[simp] theorem State.mapRecs_now (f : JRec → JRec) : (s.mapRecs f).now = s.now := rfl
@[simp] theorem State.mapRecs_resp (f : JRec → JRec) : (s.mapRecs f).resp = s.resp := rfl
@[simp] theorem State.mapRecs_gbl (f : JRec → JRec) : (s.mapRecs f).gbl = s.gbl := rfl
@[simp] theorem State.mapRecs_rings (f : JRec → JRec) : (s.mapRecs f).rings = s.rings := rfl
@[simp] theorem State.mapRecs_ctxs (f : JRec → JRec) : (s.mapRecs f).ctxs = s.ctxs := rfl
@[simp] theorem State.mapRecs_profiles (f : JRec → JRec) : (s.mapRecs f).profiles = s.profiles := rfl
@[simp] theorem State.mapRecs_images (f : JRec → JRec) : (s.mapRecs f).images = s.images := rfl
@[simp] theorem State.mapRecs_seqs (f : JRec → JRec) : (s.mapRecs f).seqs = s.seqs := rfl
@[simp] theorem State.mapRecs_pages (f : JRec → JRec) : (s.mapRecs f).pages = s.pages := rfl
@[simp] theorem State.mapRecs_dom (f : JRec → JRec) : (s.mapRecs f).dom = s.dom := rfl
@[simp] theorem State.mapRecs_eng (f : JRec → JRec) : (s.mapRecs f).eng = s.eng := rfl
@[simp] theorem State.mapRecs_fbxCtl (f : JRec → JRec) : (s.mapRecs f).fbxCtl = s.fbxCtl := rfl
@[simp] theorem State.mapRecs_drt (f : JRec → JRec) : (s.mapRecs f).drt = s.drt := rfl
@[simp] theorem State.mapRecs_wobjs (f : JRec → JRec) : (s.mapRecs f).wobjs = s.wobjs := rfl
@[simp] theorem State.mapRecs_wins (f : JRec → JRec) : (s.mapRecs f).wins = s.wins := rfl
@[simp] theorem State.mapRecs_coal (f : JRec → JRec) : (s.mapRecs f).coal = s.coal := rfl
@[simp] theorem State.mapRecs_cxp (f : JRec → JRec) : (s.mapRecs f).cxp = s.cxp := rfl
@[simp] theorem State.mapRecs_flu (f : JRec → JRec) : (s.mapRecs f).flu = s.flu := rfl
@[simp] theorem State.mapRecs_dmp (f : JRec → JRec) : (s.mapRecs f).dmp = s.dmp := rfl
@[simp] theorem State.mapRecs_chk (f : JRec → JRec) : (s.mapRecs f).chk = s.chk := rfl
@[simp] theorem State.mapRecs_sec (f : JRec → JRec) : (s.mapRecs f).sec = s.sec := rfl
@[simp] theorem State.mapRecs_tel (f : JRec → JRec) : (s.mapRecs f).tel = s.tel := rfl
@[simp] theorem State.mapRecs_pkg (f : JRec → JRec) : (s.mapRecs f).pkg = s.pkg := rfl
@[simp] theorem State.mapRecs_mem (f : JRec → JRec) : (s.mapRecs f).mem = s.mem := rfl

/-! State.setRec -/
@[simp] theorem State.setRec_pending (x : JRec) : (s.setRec x).pending = s.pending := rfl
@[simp] theorem State.setRec_fresh (x : JRec) : (s.setRec x).fresh = s.fresh := rfl
@[simp] theorem State.setRec_now (x : JRec) : (s.setRec x).now = s.now := rfl
@[simp] theorem State.setRec_resp (x : JRec) : (s.setRec x).resp = s.resp := rfl
@[simp] theorem State.setRec_gbl (x : JRec) : (s.setRec x).gbl = s.gbl := rfl
@[simp] theorem State.setRec_rings (x : JRec) : (s.setRec x).rings = s.rings := rfl
@[simp] theorem State.setRec_ctxs (x : JRec) : (s.setRec x).ctxs = s.ctxs := rfl
@[simp] theorem State.setRec_profiles (x : JRec) : (s.setRec x).profiles = s.profiles := rfl
@[simp] theorem State.setRec_images (x : JRec) : (s.setRec x).images = s.images := rfl
@[simp] theorem State.setRec_seqs (x : JRec) : (s.setRec x).seqs = s.seqs := rfl
@[simp] theorem State.setRec_pages (x : JRec) : (s.setRec x).pages = s.pages := rfl
@[simp] theorem State.setRec_dom (x : JRec) : (s.setRec x).dom = s.dom := rfl
@[simp] theorem State.setRec_eng (x : JRec) : (s.setRec x).eng = s.eng := rfl
@[simp] theorem State.setRec_fbxCtl (x : JRec) : (s.setRec x).fbxCtl = s.fbxCtl := rfl
@[simp] theorem State.setRec_drt (x : JRec) : (s.setRec x).drt = s.drt := rfl
@[simp] theorem State.setRec_wobjs (x : JRec) : (s.setRec x).wobjs = s.wobjs := rfl
@[simp] theorem State.setRec_wins (x : JRec) : (s.setRec x).wins = s.wins := rfl
@[simp] theorem State.setRec_coal (x : JRec) : (s.setRec x).coal = s.coal := rfl
@[simp] theorem State.setRec_cxp (x : JRec) : (s.setRec x).cxp = s.cxp := rfl
@[simp] theorem State.setRec_flu (x : JRec) : (s.setRec x).flu = s.flu := rfl
@[simp] theorem State.setRec_dmp (x : JRec) : (s.setRec x).dmp = s.dmp := rfl
@[simp] theorem State.setRec_chk (x : JRec) : (s.setRec x).chk = s.chk := rfl
@[simp] theorem State.setRec_sec (x : JRec) : (s.setRec x).sec = s.sec := rfl
@[simp] theorem State.setRec_tel (x : JRec) : (s.setRec x).tel = s.tel := rfl
@[simp] theorem State.setRec_pkg (x : JRec) : (s.setRec x).pkg = s.pkg := rfl
@[simp] theorem State.setRec_mem (x : JRec) : (s.setRec x).mem = s.mem := rfl

/-! State.setProgress -/
@[simp] theorem State.setProgress_pending (a : At) (n : Nat) : (s.setProgress a n).pending = s.pending := rfl
@[simp] theorem State.setProgress_fresh (a : At) (n : Nat) : (s.setProgress a n).fresh = s.fresh := rfl
@[simp] theorem State.setProgress_now (a : At) (n : Nat) : (s.setProgress a n).now = s.now := rfl
@[simp] theorem State.setProgress_resp (a : At) (n : Nat) : (s.setProgress a n).resp = s.resp := rfl
@[simp] theorem State.setProgress_gbl (a : At) (n : Nat) : (s.setProgress a n).gbl = s.gbl := rfl
@[simp] theorem State.setProgress_rings (a : At) (n : Nat) : (s.setProgress a n).rings = s.rings := rfl
@[simp] theorem State.setProgress_ctxs (a : At) (n : Nat) : (s.setProgress a n).ctxs = s.ctxs := rfl
@[simp] theorem State.setProgress_profiles (a : At) (n : Nat) : (s.setProgress a n).profiles = s.profiles := rfl
@[simp] theorem State.setProgress_images (a : At) (n : Nat) : (s.setProgress a n).images = s.images := rfl
@[simp] theorem State.setProgress_seqs (a : At) (n : Nat) : (s.setProgress a n).seqs = s.seqs := rfl
@[simp] theorem State.setProgress_pages (a : At) (n : Nat) : (s.setProgress a n).pages = s.pages := rfl
@[simp] theorem State.setProgress_dom (a : At) (n : Nat) : (s.setProgress a n).dom = s.dom := rfl
@[simp] theorem State.setProgress_eng (a : At) (n : Nat) : (s.setProgress a n).eng = s.eng := rfl
@[simp] theorem State.setProgress_fbxCtl (a : At) (n : Nat) : (s.setProgress a n).fbxCtl = s.fbxCtl := rfl
@[simp] theorem State.setProgress_drt (a : At) (n : Nat) : (s.setProgress a n).drt = s.drt := rfl
@[simp] theorem State.setProgress_wobjs (a : At) (n : Nat) : (s.setProgress a n).wobjs = s.wobjs := rfl
@[simp] theorem State.setProgress_wins (a : At) (n : Nat) : (s.setProgress a n).wins = s.wins := rfl
@[simp] theorem State.setProgress_coal (a : At) (n : Nat) : (s.setProgress a n).coal = s.coal := rfl
@[simp] theorem State.setProgress_cxp (a : At) (n : Nat) : (s.setProgress a n).cxp = s.cxp := rfl
@[simp] theorem State.setProgress_flu (a : At) (n : Nat) : (s.setProgress a n).flu = s.flu := rfl
@[simp] theorem State.setProgress_dmp (a : At) (n : Nat) : (s.setProgress a n).dmp = s.dmp := rfl
@[simp] theorem State.setProgress_chk (a : At) (n : Nat) : (s.setProgress a n).chk = s.chk := rfl
@[simp] theorem State.setProgress_sec (a : At) (n : Nat) : (s.setProgress a n).sec = s.sec := rfl
@[simp] theorem State.setProgress_tel (a : At) (n : Nat) : (s.setProgress a n).tel = s.tel := rfl
@[simp] theorem State.setProgress_pkg (a : At) (n : Nat) : (s.setProgress a n).pkg = s.pkg := rfl
@[simp] theorem State.setProgress_mem (a : At) (n : Nat) : (s.setProgress a n).mem = s.mem := rfl

/-! State.updRec -/
@[simp] theorem State.updRec_pending (a : At) (f : JRec → JRec) : (s.updRec a f).pending = s.pending := rfl
@[simp] theorem State.updRec_fresh (a : At) (f : JRec → JRec) : (s.updRec a f).fresh = s.fresh := rfl
@[simp] theorem State.updRec_now (a : At) (f : JRec → JRec) : (s.updRec a f).now = s.now := rfl
@[simp] theorem State.updRec_resp (a : At) (f : JRec → JRec) : (s.updRec a f).resp = s.resp := rfl
@[simp] theorem State.updRec_gbl (a : At) (f : JRec → JRec) : (s.updRec a f).gbl = s.gbl := rfl
@[simp] theorem State.updRec_rings (a : At) (f : JRec → JRec) : (s.updRec a f).rings = s.rings := rfl
@[simp] theorem State.updRec_ctxs (a : At) (f : JRec → JRec) : (s.updRec a f).ctxs = s.ctxs := rfl
@[simp] theorem State.updRec_profiles (a : At) (f : JRec → JRec) : (s.updRec a f).profiles = s.profiles := rfl
@[simp] theorem State.updRec_images (a : At) (f : JRec → JRec) : (s.updRec a f).images = s.images := rfl
@[simp] theorem State.updRec_seqs (a : At) (f : JRec → JRec) : (s.updRec a f).seqs = s.seqs := rfl
@[simp] theorem State.updRec_pages (a : At) (f : JRec → JRec) : (s.updRec a f).pages = s.pages := rfl
@[simp] theorem State.updRec_dom (a : At) (f : JRec → JRec) : (s.updRec a f).dom = s.dom := rfl
@[simp] theorem State.updRec_eng (a : At) (f : JRec → JRec) : (s.updRec a f).eng = s.eng := rfl
@[simp] theorem State.updRec_fbxCtl (a : At) (f : JRec → JRec) : (s.updRec a f).fbxCtl = s.fbxCtl := rfl
@[simp] theorem State.updRec_drt (a : At) (f : JRec → JRec) : (s.updRec a f).drt = s.drt := rfl
@[simp] theorem State.updRec_wobjs (a : At) (f : JRec → JRec) : (s.updRec a f).wobjs = s.wobjs := rfl
@[simp] theorem State.updRec_wins (a : At) (f : JRec → JRec) : (s.updRec a f).wins = s.wins := rfl
@[simp] theorem State.updRec_coal (a : At) (f : JRec → JRec) : (s.updRec a f).coal = s.coal := rfl
@[simp] theorem State.updRec_cxp (a : At) (f : JRec → JRec) : (s.updRec a f).cxp = s.cxp := rfl
@[simp] theorem State.updRec_flu (a : At) (f : JRec → JRec) : (s.updRec a f).flu = s.flu := rfl
@[simp] theorem State.updRec_dmp (a : At) (f : JRec → JRec) : (s.updRec a f).dmp = s.dmp := rfl
@[simp] theorem State.updRec_chk (a : At) (f : JRec → JRec) : (s.updRec a f).chk = s.chk := rfl
@[simp] theorem State.updRec_sec (a : At) (f : JRec → JRec) : (s.updRec a f).sec = s.sec := rfl
@[simp] theorem State.updRec_tel (a : At) (f : JRec → JRec) : (s.updRec a f).tel = s.tel := rfl
@[simp] theorem State.updRec_pkg (a : At) (f : JRec → JRec) : (s.updRec a f).pkg = s.pkg := rfl
@[simp] theorem State.updRec_mem (a : At) (f : JRec → JRec) : (s.updRec a f).mem = s.mem := rfl

/-! State.hearthBytes -/
@[simp] theorem State.hearthBytes_pending (j : Job) (n : Nat) : (s.hearthBytes j n).pending = s.pending := by unfold State.hearthBytes; simp
@[simp] theorem State.hearthBytes_fresh (j : Job) (n : Nat) : (s.hearthBytes j n).fresh = s.fresh := by unfold State.hearthBytes; simp
@[simp] theorem State.hearthBytes_now (j : Job) (n : Nat) : (s.hearthBytes j n).now = s.now := by unfold State.hearthBytes; simp
@[simp] theorem State.hearthBytes_resp (j : Job) (n : Nat) : (s.hearthBytes j n).resp = s.resp := by unfold State.hearthBytes; simp
@[simp] theorem State.hearthBytes_gbl (j : Job) (n : Nat) : (s.hearthBytes j n).gbl = s.gbl := by unfold State.hearthBytes; simp
@[simp] theorem State.hearthBytes_jrn (j : Job) (n : Nat) : (s.hearthBytes j n).jrn = s.jrn := by unfold State.hearthBytes; simp
@[simp] theorem State.hearthBytes_rings (j : Job) (n : Nat) : (s.hearthBytes j n).rings = s.rings := by unfold State.hearthBytes; simp
@[simp] theorem State.hearthBytes_profiles (j : Job) (n : Nat) : (s.hearthBytes j n).profiles = s.profiles := by unfold State.hearthBytes; simp
@[simp] theorem State.hearthBytes_images (j : Job) (n : Nat) : (s.hearthBytes j n).images = s.images := by unfold State.hearthBytes; simp
@[simp] theorem State.hearthBytes_seqs (j : Job) (n : Nat) : (s.hearthBytes j n).seqs = s.seqs := by unfold State.hearthBytes; simp
@[simp] theorem State.hearthBytes_pages (j : Job) (n : Nat) : (s.hearthBytes j n).pages = s.pages := by unfold State.hearthBytes; simp
@[simp] theorem State.hearthBytes_dom (j : Job) (n : Nat) : (s.hearthBytes j n).dom = s.dom := by unfold State.hearthBytes; simp
@[simp] theorem State.hearthBytes_eng (j : Job) (n : Nat) : (s.hearthBytes j n).eng = s.eng := by unfold State.hearthBytes; simp
@[simp] theorem State.hearthBytes_fbxCtl (j : Job) (n : Nat) : (s.hearthBytes j n).fbxCtl = s.fbxCtl := by unfold State.hearthBytes; simp
@[simp] theorem State.hearthBytes_drt (j : Job) (n : Nat) : (s.hearthBytes j n).drt = s.drt := by unfold State.hearthBytes; simp
@[simp] theorem State.hearthBytes_wobjs (j : Job) (n : Nat) : (s.hearthBytes j n).wobjs = s.wobjs := by unfold State.hearthBytes; simp
@[simp] theorem State.hearthBytes_wins (j : Job) (n : Nat) : (s.hearthBytes j n).wins = s.wins := by unfold State.hearthBytes; simp
@[simp] theorem State.hearthBytes_coal (j : Job) (n : Nat) : (s.hearthBytes j n).coal = s.coal := by unfold State.hearthBytes; simp
@[simp] theorem State.hearthBytes_cxp (j : Job) (n : Nat) : (s.hearthBytes j n).cxp = s.cxp := by unfold State.hearthBytes; simp
@[simp] theorem State.hearthBytes_flu (j : Job) (n : Nat) : (s.hearthBytes j n).flu = s.flu := by unfold State.hearthBytes; simp
@[simp] theorem State.hearthBytes_dmp (j : Job) (n : Nat) : (s.hearthBytes j n).dmp = s.dmp := by unfold State.hearthBytes; simp
@[simp] theorem State.hearthBytes_chk (j : Job) (n : Nat) : (s.hearthBytes j n).chk = s.chk := by unfold State.hearthBytes; simp
@[simp] theorem State.hearthBytes_sec (j : Job) (n : Nat) : (s.hearthBytes j n).sec = s.sec := by unfold State.hearthBytes; simp
@[simp] theorem State.hearthBytes_tel (j : Job) (n : Nat) : (s.hearthBytes j n).tel = s.tel := by unfold State.hearthBytes; simp
@[simp] theorem State.hearthBytes_pkg (j : Job) (n : Nat) : (s.hearthBytes j n).pkg = s.pkg := by unfold State.hearthBytes; simp
@[simp] theorem State.hearthBytes_mem (j : Job) (n : Nat) : (s.hearthBytes j n).mem = s.mem := by unfold State.hearthBytes; simp

/-! State.setLayer -/
@[simp] theorem State.setLayer_pending (k l : Nat) (x : Layer) : (s.setLayer k l x).pending = s.pending := rfl
@[simp] theorem State.setLayer_fresh (k l : Nat) (x : Layer) : (s.setLayer k l x).fresh = s.fresh := rfl
@[simp] theorem State.setLayer_now (k l : Nat) (x : Layer) : (s.setLayer k l x).now = s.now := rfl
@[simp] theorem State.setLayer_resp (k l : Nat) (x : Layer) : (s.setLayer k l x).resp = s.resp := rfl
@[simp] theorem State.setLayer_gbl (k l : Nat) (x : Layer) : (s.setLayer k l x).gbl = s.gbl := rfl
@[simp] theorem State.setLayer_jrn (k l : Nat) (x : Layer) : (s.setLayer k l x).jrn = s.jrn := rfl
@[simp] theorem State.setLayer_rings (k l : Nat) (x : Layer) : (s.setLayer k l x).rings = s.rings := rfl
@[simp] theorem State.setLayer_ctxs (k l : Nat) (x : Layer) : (s.setLayer k l x).ctxs = s.ctxs := rfl
@[simp] theorem State.setLayer_profiles (k l : Nat) (x : Layer) : (s.setLayer k l x).profiles = s.profiles := rfl
@[simp] theorem State.setLayer_images (k l : Nat) (x : Layer) : (s.setLayer k l x).images = s.images := rfl
@[simp] theorem State.setLayer_pages (k l : Nat) (x : Layer) : (s.setLayer k l x).pages = s.pages := rfl
@[simp] theorem State.setLayer_dom (k l : Nat) (x : Layer) : (s.setLayer k l x).dom = s.dom := rfl
@[simp] theorem State.setLayer_eng (k l : Nat) (x : Layer) : (s.setLayer k l x).eng = s.eng := rfl
@[simp] theorem State.setLayer_fbxCtl (k l : Nat) (x : Layer) : (s.setLayer k l x).fbxCtl = s.fbxCtl := rfl
@[simp] theorem State.setLayer_drt (k l : Nat) (x : Layer) : (s.setLayer k l x).drt = s.drt := rfl
@[simp] theorem State.setLayer_wobjs (k l : Nat) (x : Layer) : (s.setLayer k l x).wobjs = s.wobjs := rfl
@[simp] theorem State.setLayer_wins (k l : Nat) (x : Layer) : (s.setLayer k l x).wins = s.wins := rfl
@[simp] theorem State.setLayer_coal (k l : Nat) (x : Layer) : (s.setLayer k l x).coal = s.coal := rfl
@[simp] theorem State.setLayer_cxp (k l : Nat) (x : Layer) : (s.setLayer k l x).cxp = s.cxp := rfl
@[simp] theorem State.setLayer_flu (k l : Nat) (x : Layer) : (s.setLayer k l x).flu = s.flu := rfl
@[simp] theorem State.setLayer_dmp (k l : Nat) (x : Layer) : (s.setLayer k l x).dmp = s.dmp := rfl
@[simp] theorem State.setLayer_chk (k l : Nat) (x : Layer) : (s.setLayer k l x).chk = s.chk := rfl
@[simp] theorem State.setLayer_sec (k l : Nat) (x : Layer) : (s.setLayer k l x).sec = s.sec := rfl
@[simp] theorem State.setLayer_tel (k l : Nat) (x : Layer) : (s.setLayer k l x).tel = s.tel := rfl
@[simp] theorem State.setLayer_pkg (k l : Nat) (x : Layer) : (s.setLayer k l x).pkg = s.pkg := rfl
@[simp] theorem State.setLayer_mem (k l : Nat) (x : Layer) : (s.setLayer k l x).mem = s.mem := rfl

/-! State.setPte -/
@[simp] theorem State.setPte_pending (k l n : Nat) (e : Pte) : (s.setPte k l n e).pending = s.pending := rfl
@[simp] theorem State.setPte_fresh (k l n : Nat) (e : Pte) : (s.setPte k l n e).fresh = s.fresh := rfl
@[simp] theorem State.setPte_now (k l n : Nat) (e : Pte) : (s.setPte k l n e).now = s.now := rfl
@[simp] theorem State.setPte_resp (k l n : Nat) (e : Pte) : (s.setPte k l n e).resp = s.resp := rfl
@[simp] theorem State.setPte_gbl (k l n : Nat) (e : Pte) : (s.setPte k l n e).gbl = s.gbl := rfl
@[simp] theorem State.setPte_jrn (k l n : Nat) (e : Pte) : (s.setPte k l n e).jrn = s.jrn := rfl
@[simp] theorem State.setPte_rings (k l n : Nat) (e : Pte) : (s.setPte k l n e).rings = s.rings := rfl
@[simp] theorem State.setPte_ctxs (k l n : Nat) (e : Pte) : (s.setPte k l n e).ctxs = s.ctxs := rfl
@[simp] theorem State.setPte_profiles (k l n : Nat) (e : Pte) : (s.setPte k l n e).profiles = s.profiles := rfl
@[simp] theorem State.setPte_images (k l n : Nat) (e : Pte) : (s.setPte k l n e).images = s.images := rfl
@[simp] theorem State.setPte_pages (k l n : Nat) (e : Pte) : (s.setPte k l n e).pages = s.pages := rfl
@[simp] theorem State.setPte_dom (k l n : Nat) (e : Pte) : (s.setPte k l n e).dom = s.dom := rfl
@[simp] theorem State.setPte_eng (k l n : Nat) (e : Pte) : (s.setPte k l n e).eng = s.eng := rfl
@[simp] theorem State.setPte_fbxCtl (k l n : Nat) (e : Pte) : (s.setPte k l n e).fbxCtl = s.fbxCtl := rfl
@[simp] theorem State.setPte_drt (k l n : Nat) (e : Pte) : (s.setPte k l n e).drt = s.drt := rfl
@[simp] theorem State.setPte_wobjs (k l n : Nat) (e : Pte) : (s.setPte k l n e).wobjs = s.wobjs := rfl
@[simp] theorem State.setPte_wins (k l n : Nat) (e : Pte) : (s.setPte k l n e).wins = s.wins := rfl
@[simp] theorem State.setPte_coal (k l n : Nat) (e : Pte) : (s.setPte k l n e).coal = s.coal := rfl
@[simp] theorem State.setPte_cxp (k l n : Nat) (e : Pte) : (s.setPte k l n e).cxp = s.cxp := rfl
@[simp] theorem State.setPte_flu (k l n : Nat) (e : Pte) : (s.setPte k l n e).flu = s.flu := rfl
@[simp] theorem State.setPte_dmp (k l n : Nat) (e : Pte) : (s.setPte k l n e).dmp = s.dmp := rfl
@[simp] theorem State.setPte_chk (k l n : Nat) (e : Pte) : (s.setPte k l n e).chk = s.chk := rfl
@[simp] theorem State.setPte_sec (k l n : Nat) (e : Pte) : (s.setPte k l n e).sec = s.sec := rfl
@[simp] theorem State.setPte_tel (k l n : Nat) (e : Pte) : (s.setPte k l n e).tel = s.tel := rfl
@[simp] theorem State.setPte_pkg (k l n : Nat) (e : Pte) : (s.setPte k l n e).pkg = s.pkg := rfl
@[simp] theorem State.setPte_mem (k l n : Nat) (e : Pte) : (s.setPte k l n e).mem = s.mem := rfl

/-! State.setPfx -/
@[simp] theorem State.setPfx_pending (i : Nat) (e : PfxEntry) : (s.setPfx i e).pending = s.pending := rfl
@[simp] theorem State.setPfx_fresh (i : Nat) (e : PfxEntry) : (s.setPfx i e).fresh = s.fresh := rfl
@[simp] theorem State.setPfx_now (i : Nat) (e : PfxEntry) : (s.setPfx i e).now = s.now := rfl
@[simp] theorem State.setPfx_resp (i : Nat) (e : PfxEntry) : (s.setPfx i e).resp = s.resp := rfl
@[simp] theorem State.setPfx_gbl (i : Nat) (e : PfxEntry) : (s.setPfx i e).gbl = s.gbl := rfl
@[simp] theorem State.setPfx_jrn (i : Nat) (e : PfxEntry) : (s.setPfx i e).jrn = s.jrn := rfl
@[simp] theorem State.setPfx_rings (i : Nat) (e : PfxEntry) : (s.setPfx i e).rings = s.rings := rfl
@[simp] theorem State.setPfx_ctxs (i : Nat) (e : PfxEntry) : (s.setPfx i e).ctxs = s.ctxs := rfl
@[simp] theorem State.setPfx_profiles (i : Nat) (e : PfxEntry) : (s.setPfx i e).profiles = s.profiles := rfl
@[simp] theorem State.setPfx_images (i : Nat) (e : PfxEntry) : (s.setPfx i e).images = s.images := rfl
@[simp] theorem State.setPfx_seqs (i : Nat) (e : PfxEntry) : (s.setPfx i e).seqs = s.seqs := rfl
@[simp] theorem State.setPfx_pages (i : Nat) (e : PfxEntry) : (s.setPfx i e).pages = s.pages := rfl
@[simp] theorem State.setPfx_eng (i : Nat) (e : PfxEntry) : (s.setPfx i e).eng = s.eng := rfl
@[simp] theorem State.setPfx_fbxCtl (i : Nat) (e : PfxEntry) : (s.setPfx i e).fbxCtl = s.fbxCtl := rfl
@[simp] theorem State.setPfx_drt (i : Nat) (e : PfxEntry) : (s.setPfx i e).drt = s.drt := rfl
@[simp] theorem State.setPfx_wobjs (i : Nat) (e : PfxEntry) : (s.setPfx i e).wobjs = s.wobjs := rfl
@[simp] theorem State.setPfx_wins (i : Nat) (e : PfxEntry) : (s.setPfx i e).wins = s.wins := rfl
@[simp] theorem State.setPfx_coal (i : Nat) (e : PfxEntry) : (s.setPfx i e).coal = s.coal := rfl
@[simp] theorem State.setPfx_cxp (i : Nat) (e : PfxEntry) : (s.setPfx i e).cxp = s.cxp := rfl
@[simp] theorem State.setPfx_flu (i : Nat) (e : PfxEntry) : (s.setPfx i e).flu = s.flu := rfl
@[simp] theorem State.setPfx_dmp (i : Nat) (e : PfxEntry) : (s.setPfx i e).dmp = s.dmp := rfl
@[simp] theorem State.setPfx_chk (i : Nat) (e : PfxEntry) : (s.setPfx i e).chk = s.chk := rfl
@[simp] theorem State.setPfx_sec (i : Nat) (e : PfxEntry) : (s.setPfx i e).sec = s.sec := rfl
@[simp] theorem State.setPfx_tel (i : Nat) (e : PfxEntry) : (s.setPfx i e).tel = s.tel := rfl
@[simp] theorem State.setPfx_pkg (i : Nat) (e : PfxEntry) : (s.setPfx i e).pkg = s.pkg := rfl
@[simp] theorem State.setPfx_mem (i : Nat) (e : PfxEntry) : (s.setPfx i e).mem = s.mem := rfl

/-! State.setReqs -/
@[simp] theorem State.setReqs_pending (d : Side) (l : List PromReq) : (s.setReqs d l).pending = s.pending := rfl
@[simp] theorem State.setReqs_fresh (d : Side) (l : List PromReq) : (s.setReqs d l).fresh = s.fresh := rfl
@[simp] theorem State.setReqs_now (d : Side) (l : List PromReq) : (s.setReqs d l).now = s.now := rfl
@[simp] theorem State.setReqs_resp (d : Side) (l : List PromReq) : (s.setReqs d l).resp = s.resp := rfl
@[simp] theorem State.setReqs_gbl (d : Side) (l : List PromReq) : (s.setReqs d l).gbl = s.gbl := rfl
@[simp] theorem State.setReqs_jrn (d : Side) (l : List PromReq) : (s.setReqs d l).jrn = s.jrn := rfl
@[simp] theorem State.setReqs_rings (d : Side) (l : List PromReq) : (s.setReqs d l).rings = s.rings := rfl
@[simp] theorem State.setReqs_ctxs (d : Side) (l : List PromReq) : (s.setReqs d l).ctxs = s.ctxs := rfl
@[simp] theorem State.setReqs_profiles (d : Side) (l : List PromReq) : (s.setReqs d l).profiles = s.profiles := rfl
@[simp] theorem State.setReqs_images (d : Side) (l : List PromReq) : (s.setReqs d l).images = s.images := rfl
@[simp] theorem State.setReqs_seqs (d : Side) (l : List PromReq) : (s.setReqs d l).seqs = s.seqs := rfl
@[simp] theorem State.setReqs_pages (d : Side) (l : List PromReq) : (s.setReqs d l).pages = s.pages := rfl
@[simp] theorem State.setReqs_dom (d : Side) (l : List PromReq) : (s.setReqs d l).dom = s.dom := rfl
@[simp] theorem State.setReqs_eng (d : Side) (l : List PromReq) : (s.setReqs d l).eng = s.eng := rfl
@[simp] theorem State.setReqs_fbxCtl (d : Side) (l : List PromReq) : (s.setReqs d l).fbxCtl = s.fbxCtl := rfl
@[simp] theorem State.setReqs_wobjs (d : Side) (l : List PromReq) : (s.setReqs d l).wobjs = s.wobjs := rfl
@[simp] theorem State.setReqs_wins (d : Side) (l : List PromReq) : (s.setReqs d l).wins = s.wins := rfl
@[simp] theorem State.setReqs_coal (d : Side) (l : List PromReq) : (s.setReqs d l).coal = s.coal := rfl
@[simp] theorem State.setReqs_cxp (d : Side) (l : List PromReq) : (s.setReqs d l).cxp = s.cxp := rfl
@[simp] theorem State.setReqs_flu (d : Side) (l : List PromReq) : (s.setReqs d l).flu = s.flu := rfl
@[simp] theorem State.setReqs_dmp (d : Side) (l : List PromReq) : (s.setReqs d l).dmp = s.dmp := rfl
@[simp] theorem State.setReqs_chk (d : Side) (l : List PromReq) : (s.setReqs d l).chk = s.chk := rfl
@[simp] theorem State.setReqs_sec (d : Side) (l : List PromReq) : (s.setReqs d l).sec = s.sec := rfl
@[simp] theorem State.setReqs_tel (d : Side) (l : List PromReq) : (s.setReqs d l).tel = s.tel := rfl
@[simp] theorem State.setReqs_pkg (d : Side) (l : List PromReq) : (s.setReqs d l).pkg = s.pkg := rfl
@[simp] theorem State.setReqs_mem (d : Side) (l : List PromReq) : (s.setReqs d l).mem = s.mem := rfl

/-! State.updReq -/
@[simp] theorem State.updReq_pending (d : Side) (h : Nat) (f : PromReq → PromReq) : (s.updReq d h f).pending = s.pending := rfl
@[simp] theorem State.updReq_fresh (d : Side) (h : Nat) (f : PromReq → PromReq) : (s.updReq d h f).fresh = s.fresh := rfl
@[simp] theorem State.updReq_now (d : Side) (h : Nat) (f : PromReq → PromReq) : (s.updReq d h f).now = s.now := rfl
@[simp] theorem State.updReq_resp (d : Side) (h : Nat) (f : PromReq → PromReq) : (s.updReq d h f).resp = s.resp := rfl
@[simp] theorem State.updReq_gbl (d : Side) (h : Nat) (f : PromReq → PromReq) : (s.updReq d h f).gbl = s.gbl := rfl
@[simp] theorem State.updReq_jrn (d : Side) (h : Nat) (f : PromReq → PromReq) : (s.updReq d h f).jrn = s.jrn := rfl
@[simp] theorem State.updReq_rings (d : Side) (h : Nat) (f : PromReq → PromReq) : (s.updReq d h f).rings = s.rings := rfl
@[simp] theorem State.updReq_ctxs (d : Side) (h : Nat) (f : PromReq → PromReq) : (s.updReq d h f).ctxs = s.ctxs := rfl
@[simp] theorem State.updReq_profiles (d : Side) (h : Nat) (f : PromReq → PromReq) : (s.updReq d h f).profiles = s.profiles := rfl
@[simp] theorem State.updReq_images (d : Side) (h : Nat) (f : PromReq → PromReq) : (s.updReq d h f).images = s.images := rfl
@[simp] theorem State.updReq_seqs (d : Side) (h : Nat) (f : PromReq → PromReq) : (s.updReq d h f).seqs = s.seqs := rfl
@[simp] theorem State.updReq_pages (d : Side) (h : Nat) (f : PromReq → PromReq) : (s.updReq d h f).pages = s.pages := rfl
@[simp] theorem State.updReq_dom (d : Side) (h : Nat) (f : PromReq → PromReq) : (s.updReq d h f).dom = s.dom := rfl
@[simp] theorem State.updReq_eng (d : Side) (h : Nat) (f : PromReq → PromReq) : (s.updReq d h f).eng = s.eng := rfl
@[simp] theorem State.updReq_fbxCtl (d : Side) (h : Nat) (f : PromReq → PromReq) : (s.updReq d h f).fbxCtl = s.fbxCtl := rfl
@[simp] theorem State.updReq_wobjs (d : Side) (h : Nat) (f : PromReq → PromReq) : (s.updReq d h f).wobjs = s.wobjs := rfl
@[simp] theorem State.updReq_wins (d : Side) (h : Nat) (f : PromReq → PromReq) : (s.updReq d h f).wins = s.wins := rfl
@[simp] theorem State.updReq_coal (d : Side) (h : Nat) (f : PromReq → PromReq) : (s.updReq d h f).coal = s.coal := rfl
@[simp] theorem State.updReq_cxp (d : Side) (h : Nat) (f : PromReq → PromReq) : (s.updReq d h f).cxp = s.cxp := rfl
@[simp] theorem State.updReq_flu (d : Side) (h : Nat) (f : PromReq → PromReq) : (s.updReq d h f).flu = s.flu := rfl
@[simp] theorem State.updReq_dmp (d : Side) (h : Nat) (f : PromReq → PromReq) : (s.updReq d h f).dmp = s.dmp := rfl
@[simp] theorem State.updReq_chk (d : Side) (h : Nat) (f : PromReq → PromReq) : (s.updReq d h f).chk = s.chk := rfl
@[simp] theorem State.updReq_sec (d : Side) (h : Nat) (f : PromReq → PromReq) : (s.updReq d h f).sec = s.sec := rfl
@[simp] theorem State.updReq_tel (d : Side) (h : Nat) (f : PromReq → PromReq) : (s.updReq d h f).tel = s.tel := rfl
@[simp] theorem State.updReq_pkg (d : Side) (h : Nat) (f : PromReq → PromReq) : (s.updReq d h f).pkg = s.pkg := rfl
@[simp] theorem State.updReq_mem (d : Side) (h : Nat) (f : PromReq → PromReq) : (s.updReq d h f).mem = s.mem := rfl

/-! State.setTx -/
@[simp] theorem State.setTx_pending (n : Nat) (x : TxMsg) : (s.setTx n x).pending = s.pending := rfl
@[simp] theorem State.setTx_fresh (n : Nat) (x : TxMsg) : (s.setTx n x).fresh = s.fresh := rfl
@[simp] theorem State.setTx_now (n : Nat) (x : TxMsg) : (s.setTx n x).now = s.now := rfl
@[simp] theorem State.setTx_resp (n : Nat) (x : TxMsg) : (s.setTx n x).resp = s.resp := rfl
@[simp] theorem State.setTx_gbl (n : Nat) (x : TxMsg) : (s.setTx n x).gbl = s.gbl := rfl
@[simp] theorem State.setTx_jrn (n : Nat) (x : TxMsg) : (s.setTx n x).jrn = s.jrn := rfl
@[simp] theorem State.setTx_rings (n : Nat) (x : TxMsg) : (s.setTx n x).rings = s.rings := rfl
@[simp] theorem State.setTx_ctxs (n : Nat) (x : TxMsg) : (s.setTx n x).ctxs = s.ctxs := rfl
@[simp] theorem State.setTx_profiles (n : Nat) (x : TxMsg) : (s.setTx n x).profiles = s.profiles := rfl
@[simp] theorem State.setTx_images (n : Nat) (x : TxMsg) : (s.setTx n x).images = s.images := rfl
@[simp] theorem State.setTx_seqs (n : Nat) (x : TxMsg) : (s.setTx n x).seqs = s.seqs := rfl
@[simp] theorem State.setTx_pages (n : Nat) (x : TxMsg) : (s.setTx n x).pages = s.pages := rfl
@[simp] theorem State.setTx_dom (n : Nat) (x : TxMsg) : (s.setTx n x).dom = s.dom := rfl
@[simp] theorem State.setTx_eng (n : Nat) (x : TxMsg) : (s.setTx n x).eng = s.eng := rfl
@[simp] theorem State.setTx_fbxCtl (n : Nat) (x : TxMsg) : (s.setTx n x).fbxCtl = s.fbxCtl := rfl
@[simp] theorem State.setTx_drt (n : Nat) (x : TxMsg) : (s.setTx n x).drt = s.drt := rfl
@[simp] theorem State.setTx_wobjs (n : Nat) (x : TxMsg) : (s.setTx n x).wobjs = s.wobjs := rfl
@[simp] theorem State.setTx_wins (n : Nat) (x : TxMsg) : (s.setTx n x).wins = s.wins := rfl
@[simp] theorem State.setTx_coal (n : Nat) (x : TxMsg) : (s.setTx n x).coal = s.coal := rfl
@[simp] theorem State.setTx_cxp (n : Nat) (x : TxMsg) : (s.setTx n x).cxp = s.cxp := rfl
@[simp] theorem State.setTx_dmp (n : Nat) (x : TxMsg) : (s.setTx n x).dmp = s.dmp := rfl
@[simp] theorem State.setTx_chk (n : Nat) (x : TxMsg) : (s.setTx n x).chk = s.chk := rfl
@[simp] theorem State.setTx_sec (n : Nat) (x : TxMsg) : (s.setTx n x).sec = s.sec := rfl
@[simp] theorem State.setTx_tel (n : Nat) (x : TxMsg) : (s.setTx n x).tel = s.tel := rfl
@[simp] theorem State.setTx_pkg (n : Nat) (x : TxMsg) : (s.setTx n x).pkg = s.pkg := rfl
@[simp] theorem State.setTx_mem (n : Nat) (x : TxMsg) : (s.setTx n x).mem = s.mem := rfl

/-! State.setRx -/
@[simp] theorem State.setRx_pending (n : Nat) (x : RxMsg) : (s.setRx n x).pending = s.pending := rfl
@[simp] theorem State.setRx_fresh (n : Nat) (x : RxMsg) : (s.setRx n x).fresh = s.fresh := rfl
@[simp] theorem State.setRx_now (n : Nat) (x : RxMsg) : (s.setRx n x).now = s.now := rfl
@[simp] theorem State.setRx_resp (n : Nat) (x : RxMsg) : (s.setRx n x).resp = s.resp := rfl
@[simp] theorem State.setRx_gbl (n : Nat) (x : RxMsg) : (s.setRx n x).gbl = s.gbl := rfl
@[simp] theorem State.setRx_jrn (n : Nat) (x : RxMsg) : (s.setRx n x).jrn = s.jrn := rfl
@[simp] theorem State.setRx_rings (n : Nat) (x : RxMsg) : (s.setRx n x).rings = s.rings := rfl
@[simp] theorem State.setRx_ctxs (n : Nat) (x : RxMsg) : (s.setRx n x).ctxs = s.ctxs := rfl
@[simp] theorem State.setRx_profiles (n : Nat) (x : RxMsg) : (s.setRx n x).profiles = s.profiles := rfl
@[simp] theorem State.setRx_images (n : Nat) (x : RxMsg) : (s.setRx n x).images = s.images := rfl
@[simp] theorem State.setRx_seqs (n : Nat) (x : RxMsg) : (s.setRx n x).seqs = s.seqs := rfl
@[simp] theorem State.setRx_pages (n : Nat) (x : RxMsg) : (s.setRx n x).pages = s.pages := rfl
@[simp] theorem State.setRx_dom (n : Nat) (x : RxMsg) : (s.setRx n x).dom = s.dom := rfl
@[simp] theorem State.setRx_eng (n : Nat) (x : RxMsg) : (s.setRx n x).eng = s.eng := rfl
@[simp] theorem State.setRx_fbxCtl (n : Nat) (x : RxMsg) : (s.setRx n x).fbxCtl = s.fbxCtl := rfl
@[simp] theorem State.setRx_drt (n : Nat) (x : RxMsg) : (s.setRx n x).drt = s.drt := rfl
@[simp] theorem State.setRx_wobjs (n : Nat) (x : RxMsg) : (s.setRx n x).wobjs = s.wobjs := rfl
@[simp] theorem State.setRx_wins (n : Nat) (x : RxMsg) : (s.setRx n x).wins = s.wins := rfl
@[simp] theorem State.setRx_coal (n : Nat) (x : RxMsg) : (s.setRx n x).coal = s.coal := rfl
@[simp] theorem State.setRx_cxp (n : Nat) (x : RxMsg) : (s.setRx n x).cxp = s.cxp := rfl
@[simp] theorem State.setRx_dmp (n : Nat) (x : RxMsg) : (s.setRx n x).dmp = s.dmp := rfl
@[simp] theorem State.setRx_chk (n : Nat) (x : RxMsg) : (s.setRx n x).chk = s.chk := rfl
@[simp] theorem State.setRx_sec (n : Nat) (x : RxMsg) : (s.setRx n x).sec = s.sec := rfl
@[simp] theorem State.setRx_tel (n : Nat) (x : RxMsg) : (s.setRx n x).tel = s.tel := rfl
@[simp] theorem State.setRx_pkg (n : Nat) (x : RxMsg) : (s.setRx n x).pkg = s.pkg := rfl
@[simp] theorem State.setRx_mem (n : Nat) (x : RxMsg) : (s.setRx n x).mem = s.mem := rfl

/-! State.newHalf -/
@[simp] theorem State.newHalf_pending (d : Side) (h : Half) : (s.newHalf d h).pending = s.pending := by unfold State.newHalf; dsimp only; split <;> simp
@[simp] theorem State.newHalf_fresh (d : Side) (h : Half) : (s.newHalf d h).fresh = s.fresh := by unfold State.newHalf; dsimp only; split <;> simp
@[simp] theorem State.newHalf_now (d : Side) (h : Half) : (s.newHalf d h).now = s.now := by unfold State.newHalf; dsimp only; split <;> simp
@[simp] theorem State.newHalf_resp (d : Side) (h : Half) : (s.newHalf d h).resp = s.resp := by unfold State.newHalf; dsimp only; split <;> simp
@[simp] theorem State.newHalf_gbl (d : Side) (h : Half) : (s.newHalf d h).gbl = s.gbl := by unfold State.newHalf; dsimp only; split <;> simp
@[simp] theorem State.newHalf_jrn (d : Side) (h : Half) : (s.newHalf d h).jrn = s.jrn := by unfold State.newHalf; dsimp only; split <;> simp
@[simp] theorem State.newHalf_rings (d : Side) (h : Half) : (s.newHalf d h).rings = s.rings := by unfold State.newHalf; dsimp only; split <;> simp
@[simp] theorem State.newHalf_ctxs (d : Side) (h : Half) : (s.newHalf d h).ctxs = s.ctxs := by unfold State.newHalf; dsimp only; split <;> simp
@[simp] theorem State.newHalf_profiles (d : Side) (h : Half) : (s.newHalf d h).profiles = s.profiles := by unfold State.newHalf; dsimp only; split <;> simp
@[simp] theorem State.newHalf_images (d : Side) (h : Half) : (s.newHalf d h).images = s.images := by unfold State.newHalf; dsimp only; split <;> simp
@[simp] theorem State.newHalf_seqs (d : Side) (h : Half) : (s.newHalf d h).seqs = s.seqs := by unfold State.newHalf; dsimp only; split <;> simp
@[simp] theorem State.newHalf_pages (d : Side) (h : Half) : (s.newHalf d h).pages = s.pages := by unfold State.newHalf; dsimp only; split <;> simp
@[simp] theorem State.newHalf_dom (d : Side) (h : Half) : (s.newHalf d h).dom = s.dom := by unfold State.newHalf; dsimp only; split <;> simp
@[simp] theorem State.newHalf_eng (d : Side) (h : Half) : (s.newHalf d h).eng = s.eng := by unfold State.newHalf; dsimp only; split <;> simp
@[simp] theorem State.newHalf_fbxCtl (d : Side) (h : Half) : (s.newHalf d h).fbxCtl = s.fbxCtl := by unfold State.newHalf; dsimp only; split <;> simp
@[simp] theorem State.newHalf_drt (d : Side) (h : Half) : (s.newHalf d h).drt = s.drt := by unfold State.newHalf; dsimp only; split <;> simp
@[simp] theorem State.newHalf_wobjs (d : Side) (h : Half) : (s.newHalf d h).wobjs = s.wobjs := by unfold State.newHalf; dsimp only; split <;> simp
@[simp] theorem State.newHalf_wins (d : Side) (h : Half) : (s.newHalf d h).wins = s.wins := by unfold State.newHalf; dsimp only; split <;> simp
@[simp] theorem State.newHalf_cxp (d : Side) (h : Half) : (s.newHalf d h).cxp = s.cxp := by unfold State.newHalf; dsimp only; split <;> simp
@[simp] theorem State.newHalf_flu (d : Side) (h : Half) : (s.newHalf d h).flu = s.flu := by unfold State.newHalf; dsimp only; split <;> simp
@[simp] theorem State.newHalf_dmp (d : Side) (h : Half) : (s.newHalf d h).dmp = s.dmp := by unfold State.newHalf; dsimp only; split <;> simp
@[simp] theorem State.newHalf_chk (d : Side) (h : Half) : (s.newHalf d h).chk = s.chk := by unfold State.newHalf; dsimp only; split <;> simp
@[simp] theorem State.newHalf_sec (d : Side) (h : Half) : (s.newHalf d h).sec = s.sec := by unfold State.newHalf; dsimp only; split <;> simp
@[simp] theorem State.newHalf_pkg (d : Side) (h : Half) : (s.newHalf d h).pkg = s.pkg := by unfold State.newHalf; dsimp only; split <;> simp
@[simp] theorem State.newHalf_mem (d : Side) (h : Half) : (s.newHalf d h).mem = s.mem := by unfold State.newHalf; dsimp only; split <;> simp

/-! State.served -/
@[simp] theorem State.served_pending (n : Nat) : (s.served n).pending = s.pending := by unfold State.served; dsimp only; split <;> rfl
@[simp] theorem State.served_fresh (n : Nat) : (s.served n).fresh = s.fresh := by unfold State.served; dsimp only; split <;> rfl
@[simp] theorem State.served_now (n : Nat) : (s.served n).now = s.now := by unfold State.served; dsimp only; split <;> rfl
@[simp] theorem State.served_resp (n : Nat) : (s.served n).resp = s.resp := by unfold State.served; dsimp only; split <;> rfl
@[simp] theorem State.served_jrn (n : Nat) : (s.served n).jrn = s.jrn := by unfold State.served; dsimp only; split <;> rfl
@[simp] theorem State.served_rings (n : Nat) : (s.served n).rings = s.rings := by unfold State.served; dsimp only; split <;> rfl
@[simp] theorem State.served_ctxs (n : Nat) : (s.served n).ctxs = s.ctxs := by unfold State.served; dsimp only; split <;> rfl
@[simp] theorem State.served_profiles (n : Nat) : (s.served n).profiles = s.profiles := by unfold State.served; dsimp only; split <;> rfl
@[simp] theorem State.served_images (n : Nat) : (s.served n).images = s.images := by unfold State.served; dsimp only; split <;> rfl
@[simp] theorem State.served_seqs (n : Nat) : (s.served n).seqs = s.seqs := by unfold State.served; dsimp only; split <;> rfl
@[simp] theorem State.served_pages (n : Nat) : (s.served n).pages = s.pages := by unfold State.served; dsimp only; split <;> rfl
@[simp] theorem State.served_dom (n : Nat) : (s.served n).dom = s.dom := by unfold State.served; dsimp only; split <;> rfl
@[simp] theorem State.served_eng (n : Nat) : (s.served n).eng = s.eng := by unfold State.served; dsimp only; split <;> rfl
@[simp] theorem State.served_fbxCtl (n : Nat) : (s.served n).fbxCtl = s.fbxCtl := by unfold State.served; dsimp only; split <;> rfl
@[simp] theorem State.served_drt (n : Nat) : (s.served n).drt = s.drt := by unfold State.served; dsimp only; split <;> rfl
@[simp] theorem State.served_wobjs (n : Nat) : (s.served n).wobjs = s.wobjs := by unfold State.served; dsimp only; split <;> rfl
@[simp] theorem State.served_wins (n : Nat) : (s.served n).wins = s.wins := by unfold State.served; dsimp only; split <;> rfl
@[simp] theorem State.served_coal (n : Nat) : (s.served n).coal = s.coal := by unfold State.served; dsimp only; split <;> rfl
@[simp] theorem State.served_cxp (n : Nat) : (s.served n).cxp = s.cxp := by unfold State.served; dsimp only; split <;> rfl
@[simp] theorem State.served_flu (n : Nat) : (s.served n).flu = s.flu := by unfold State.served; dsimp only; split <;> rfl
@[simp] theorem State.served_dmp (n : Nat) : (s.served n).dmp = s.dmp := by unfold State.served; dsimp only; split <;> rfl
@[simp] theorem State.served_chk (n : Nat) : (s.served n).chk = s.chk := by unfold State.served; dsimp only; split <;> rfl
@[simp] theorem State.served_sec (n : Nat) : (s.served n).sec = s.sec := by unfold State.served; dsimp only; split <;> rfl
@[simp] theorem State.served_tel (n : Nat) : (s.served n).tel = s.tel := by unfold State.served; dsimp only; split <;> rfl
@[simp] theorem State.served_pkg (n : Nat) : (s.served n).pkg = s.pkg := by unfold State.served; dsimp only; split <;> rfl
@[simp] theorem State.served_mem (n : Nat) : (s.served n).mem = s.mem := by unfold State.served; dsimp only; split <;> rfl

/-! Reading back what an update wrote -/

@[simp] theorem State.ring_setRing_self (n : Nat) (g : Ring) : (s.setRing n g).ring n = g := Tbl.lookD_put_self ..

theorem State.ring_setRing_ne {n m : Nat} (g : Ring) (h : m ≠ n) : (s.setRing n g).ring m = s.ring m :=
  Tbl.lookD_put_ne _ _ _ h

@[simp] theorem State.ctx_setCtx_self (c : Nat) (x : Ctx) : (s.setCtx c x).ctx c = x := Tbl.lookD_put_self ..

theorem State.ctx_setCtx_ne {c d : Nat} (x : Ctx) (h : d ≠ c) : (s.setCtx c x).ctx d = s.ctx d :=
  Tbl.lookD_put_ne _ _ _ h

@[simp] theorem State.seq_setSeq_self (k : Nat) (q : Seq) : (s.setSeq k q).seq k = q := Tbl.lookD_put_self ..

theorem State.seq_setSeq_ne {k j : Nat} (q : Seq) (h : j ≠ k) : (s.setSeq k q).seq j = s.seq j :=
  Tbl.lookD_put_ne _ _ _ h

@[simp] theorem State.page_setPage_self (h : Nat) (p : Page) : (s.setPage h p).page h = p := Tbl.lookD_put_self ..

theorem State.page_setPage_ne {h g : Nat} (p : Page) (e : g ≠ h) : (s.setPage h p).page g = s.page g :=
  Tbl.lookD_put_ne _ _ _ e

@[simp] theorem State.wobj_setWobj_self (k : Nat) (w : WObj) : (s.setWobj k w).wobj k = w := Tbl.lookD_put_self ..

@[simp] theorem State.conn_setConn_self (n : Nat) (c : Conn) : (s.setConn n c).conn n = c := Tbl.lookD_put_self ..

theorem State.conn_setConn_ne {n m : Nat} (c : Conn) (h : m ≠ n) : (s.setConn n c).conn m = s.conn m :=
  Tbl.lookD_put_ne _ _ _ h

@[simp] theorem State.ld_setLd_self (l : Ld) (x : LdState) : (s.setLd l x).ld l = x := by
  simp [State.ld, State.setLd, State.setHead]

/-! Rings see only the table of rings, contexts only theirs, and so on -/

@[simp] theorem State.setRing_ctx (n : Nat) (g : Ring) (m : Nat) : (s.setRing n g).ctx m = s.ctx m := rfl
@[simp] theorem State.setRing_seq (n : Nat) (g : Ring) (m : Nat) : (s.setRing n g).seq m = s.seq m := rfl
@[simp] theorem State.setRing_page (n : Nat) (g : Ring) (m : Nat) : (s.setRing n g).page m = s.page m := rfl
@[simp] theorem State.setRing_wobj (n : Nat) (g : Ring) (m : Nat) : (s.setRing n g).wobj m = s.wobj m := rfl
@[simp] theorem State.setRing_conn (n : Nat) (g : Ring) (m : Nat) : (s.setRing n g).conn m = s.conn m := rfl
@[simp] theorem State.setRing_ld (n : Nat) (g : Ring) (m : Ld) : (s.setRing n g).ld m = s.ld m := rfl
@[simp] theorem State.setCtx_ring (c : Nat) (x : Ctx) (m : Nat) : (s.setCtx c x).ring m = s.ring m := rfl
@[simp] theorem State.setCtx_seq (c : Nat) (x : Ctx) (m : Nat) : (s.setCtx c x).seq m = s.seq m := rfl
@[simp] theorem State.setCtx_page (c : Nat) (x : Ctx) (m : Nat) : (s.setCtx c x).page m = s.page m := rfl
@[simp] theorem State.setCtx_wobj (c : Nat) (x : Ctx) (m : Nat) : (s.setCtx c x).wobj m = s.wobj m := rfl
@[simp] theorem State.setCtx_conn (c : Nat) (x : Ctx) (m : Nat) : (s.setCtx c x).conn m = s.conn m := rfl
@[simp] theorem State.setCtx_ld (c : Nat) (x : Ctx) (m : Ld) : (s.setCtx c x).ld m = s.ld m := rfl
@[simp] theorem State.setSeq_ring (k : Nat) (q : Seq) (m : Nat) : (s.setSeq k q).ring m = s.ring m := rfl
@[simp] theorem State.setSeq_ctx (k : Nat) (q : Seq) (m : Nat) : (s.setSeq k q).ctx m = s.ctx m := rfl
@[simp] theorem State.setSeq_page (k : Nat) (q : Seq) (m : Nat) : (s.setSeq k q).page m = s.page m := rfl
@[simp] theorem State.setSeq_wobj (k : Nat) (q : Seq) (m : Nat) : (s.setSeq k q).wobj m = s.wobj m := rfl
@[simp] theorem State.setSeq_conn (k : Nat) (q : Seq) (m : Nat) : (s.setSeq k q).conn m = s.conn m := rfl
@[simp] theorem State.setSeq_ld (k : Nat) (q : Seq) (m : Ld) : (s.setSeq k q).ld m = s.ld m := rfl
@[simp] theorem State.setPage_ring (h : Nat) (p : Page) (m : Nat) : (s.setPage h p).ring m = s.ring m := rfl
@[simp] theorem State.setPage_ctx (h : Nat) (p : Page) (m : Nat) : (s.setPage h p).ctx m = s.ctx m := rfl
@[simp] theorem State.setPage_seq (h : Nat) (p : Page) (m : Nat) : (s.setPage h p).seq m = s.seq m := rfl
@[simp] theorem State.setPage_wobj (h : Nat) (p : Page) (m : Nat) : (s.setPage h p).wobj m = s.wobj m := rfl
@[simp] theorem State.setPage_conn (h : Nat) (p : Page) (m : Nat) : (s.setPage h p).conn m = s.conn m := rfl
@[simp] theorem State.setPage_ld (h : Nat) (p : Page) (m : Ld) : (s.setPage h p).ld m = s.ld m := rfl
@[simp] theorem State.updPage_ring (h : Nat) (f : Page → Page) (m : Nat) : (s.updPage h f).ring m = s.ring m := rfl
@[simp] theorem State.updPage_ctx (h : Nat) (f : Page → Page) (m : Nat) : (s.updPage h f).ctx m = s.ctx m := rfl
@[simp] theorem State.updPage_seq (h : Nat) (f : Page → Page) (m : Nat) : (s.updPage h f).seq m = s.seq m := rfl
@[simp] theorem State.updPage_wobj (h : Nat) (f : Page → Page) (m : Nat) : (s.updPage h f).wobj m = s.wobj m := rfl
@[simp] theorem State.updPage_conn (h : Nat) (f : Page → Page) (m : Nat) : (s.updPage h f).conn m = s.conn m := rfl
@[simp] theorem State.updPage_ld (h : Nat) (f : Page → Page) (m : Ld) : (s.updPage h f).ld m = s.ld m := rfl
@[simp] theorem State.setWobj_ring (k : Nat) (w : WObj) (m : Nat) : (s.setWobj k w).ring m = s.ring m := rfl
@[simp] theorem State.setWobj_ctx (k : Nat) (w : WObj) (m : Nat) : (s.setWobj k w).ctx m = s.ctx m := rfl
@[simp] theorem State.setWobj_seq (k : Nat) (w : WObj) (m : Nat) : (s.setWobj k w).seq m = s.seq m := rfl
@[simp] theorem State.setWobj_page (k : Nat) (w : WObj) (m : Nat) : (s.setWobj k w).page m = s.page m := rfl
@[simp] theorem State.setWobj_conn (k : Nat) (w : WObj) (m : Nat) : (s.setWobj k w).conn m = s.conn m := rfl
@[simp] theorem State.setWobj_ld (k : Nat) (w : WObj) (m : Ld) : (s.setWobj k w).ld m = s.ld m := rfl
@[simp] theorem State.setConn_ring (n : Nat) (c : Conn) (m : Nat) : (s.setConn n c).ring m = s.ring m := rfl
@[simp] theorem State.setConn_ctx (n : Nat) (c : Conn) (m : Nat) : (s.setConn n c).ctx m = s.ctx m := rfl
@[simp] theorem State.setConn_seq (n : Nat) (c : Conn) (m : Nat) : (s.setConn n c).seq m = s.seq m := rfl
@[simp] theorem State.setConn_page (n : Nat) (c : Conn) (m : Nat) : (s.setConn n c).page m = s.page m := rfl
@[simp] theorem State.setConn_wobj (n : Nat) (c : Conn) (m : Nat) : (s.setConn n c).wobj m = s.wobj m := rfl
@[simp] theorem State.setConn_ld (n : Nat) (c : Conn) (m : Ld) : (s.setConn n c).ld m = s.ld m := rfl
@[simp] theorem State.setHead_ring (h : Side) (x : HeadState) (m : Nat) : (s.setHead h x).ring m = s.ring m := rfl
@[simp] theorem State.setHead_ctx (h : Side) (x : HeadState) (m : Nat) : (s.setHead h x).ctx m = s.ctx m := rfl
@[simp] theorem State.setHead_seq (h : Side) (x : HeadState) (m : Nat) : (s.setHead h x).seq m = s.seq m := rfl
@[simp] theorem State.setHead_page (h : Side) (x : HeadState) (m : Nat) : (s.setHead h x).page m = s.page m := rfl
@[simp] theorem State.setHead_wobj (h : Side) (x : HeadState) (m : Nat) : (s.setHead h x).wobj m = s.wobj m := rfl
@[simp] theorem State.setHead_conn (h : Side) (x : HeadState) (m : Nat) : (s.setHead h x).conn m = s.conn m := rfl
@[simp] theorem State.setLd_ring (l : Ld) (x : LdState) (m : Nat) : (s.setLd l x).ring m = s.ring m := rfl
@[simp] theorem State.setLd_ctx (l : Ld) (x : LdState) (m : Nat) : (s.setLd l x).ctx m = s.ctx m := rfl
@[simp] theorem State.setLd_seq (l : Ld) (x : LdState) (m : Nat) : (s.setLd l x).seq m = s.seq m := rfl
@[simp] theorem State.setLd_page (l : Ld) (x : LdState) (m : Nat) : (s.setLd l x).page m = s.page m := rfl
@[simp] theorem State.setLd_wobj (l : Ld) (x : LdState) (m : Nat) : (s.setLd l x).wobj m = s.wobj m := rfl
@[simp] theorem State.setLd_conn (l : Ld) (x : LdState) (m : Nat) : (s.setLd l x).conn m = s.conn m := rfl
@[simp] theorem State.setPort_ring (p : Side) (x : PortState) (m : Nat) : (s.setPort p x).ring m = s.ring m := rfl
@[simp] theorem State.setPort_ctx (p : Side) (x : PortState) (m : Nat) : (s.setPort p x).ctx m = s.ctx m := rfl
@[simp] theorem State.setPort_seq (p : Side) (x : PortState) (m : Nat) : (s.setPort p x).seq m = s.seq m := rfl
@[simp] theorem State.setPort_page (p : Side) (x : PortState) (m : Nat) : (s.setPort p x).page m = s.page m := rfl
@[simp] theorem State.setPort_wobj (p : Side) (x : PortState) (m : Nat) : (s.setPort p x).wobj m = s.wobj m := rfl
@[simp] theorem State.setPort_ld (p : Side) (x : PortState) (m : Ld) : (s.setPort p x).ld m = s.ld m := rfl
@[simp] theorem State.setHalf_ring (d : Side) (x : Half) (m : Nat) : (s.setHalf d x).ring m = s.ring m := rfl
@[simp] theorem State.setHalf_ctx (d : Side) (x : Half) (m : Nat) : (s.setHalf d x).ctx m = s.ctx m := rfl
@[simp] theorem State.setHalf_seq (d : Side) (x : Half) (m : Nat) : (s.setHalf d x).seq m = s.seq m := rfl
@[simp] theorem State.setHalf_page (d : Side) (x : Half) (m : Nat) : (s.setHalf d x).page m = s.page m := rfl
@[simp] theorem State.setHalf_wobj (d : Side) (x : Half) (m : Nat) : (s.setHalf d x).wobj m = s.wobj m := rfl
@[simp] theorem State.setHalf_conn (d : Side) (x : Half) (m : Nat) : (s.setHalf d x).conn m = s.conn m := rfl
@[simp] theorem State.setHalf_ld (d : Side) (x : Half) (m : Ld) : (s.setHalf d x).ld m = s.ld m := rfl
@[simp] theorem State.poke_ring (a : Nat) (bs : List Byte) (m : Nat) : (s.poke a bs).ring m = s.ring m := rfl
@[simp] theorem State.poke_ctx (a : Nat) (bs : List Byte) (m : Nat) : (s.poke a bs).ctx m = s.ctx m := rfl
@[simp] theorem State.poke_seq (a : Nat) (bs : List Byte) (m : Nat) : (s.poke a bs).seq m = s.seq m := rfl
@[simp] theorem State.poke_page (a : Nat) (bs : List Byte) (m : Nat) : (s.poke a bs).page m = s.page m := rfl
@[simp] theorem State.poke_wobj (a : Nat) (bs : List Byte) (m : Nat) : (s.poke a bs).wobj m = s.wobj m := rfl
@[simp] theorem State.poke_conn (a : Nat) (bs : List Byte) (m : Nat) : (s.poke a bs).conn m = s.conn m := rfl
@[simp] theorem State.poke_ld (a : Nat) (bs : List Byte) (m : Ld) : (s.poke a bs).ld m = s.ld m := rfl
@[simp] theorem State.countAo_ring (o n : Nat) (m : Nat) : (s.countAo o n).ring m = s.ring m := rfl
@[simp] theorem State.countAo_ctx (o n : Nat) (m : Nat) : (s.countAo o n).ctx m = s.ctx m := rfl
@[simp] theorem State.countAo_seq (o n : Nat) (m : Nat) : (s.countAo o n).seq m = s.seq m := rfl
@[simp] theorem State.countAo_page (o n : Nat) (m : Nat) : (s.countAo o n).page m = s.page m := rfl
@[simp] theorem State.countAo_wobj (o n : Nat) (m : Nat) : (s.countAo o n).wobj m = s.wobj m := rfl
@[simp] theorem State.countAo_conn (o n : Nat) (m : Nat) : (s.countAo o n).conn m = s.conn m := rfl
@[simp] theorem State.countAo_ld (o n : Nat) (m : Ld) : (s.countAo o n).ld m = s.ld m := rfl
@[simp] theorem State.count_ring (o n : Nat) (m : Nat) : (s.count o n).ring m = s.ring m := by simp [State.ring]
@[simp] theorem State.count_ctx (o n : Nat) (m : Nat) : (s.count o n).ctx m = s.ctx m := by simp [State.ctx]
@[simp] theorem State.count_seq (o n : Nat) (m : Nat) : (s.count o n).seq m = s.seq m := by simp [State.seq]
@[simp] theorem State.count_page (o n : Nat) (m : Nat) : (s.count o n).page m = s.page m := by simp [State.page]
@[simp] theorem State.count_wobj (o n : Nat) (m : Nat) : (s.count o n).wobj m = s.wobj m := by simp [State.wobj]
@[simp] theorem State.count_conn (o n : Nat) (m : Nat) : (s.count o n).conn m = s.conn m := by simp [State.conn]
@[simp] theorem State.count_ld (o n : Nat) (m : Ld) : (s.count o n).ld m = s.ld m := by simp [State.ld]
@[simp] theorem State.raise_ring (h : Side) (l v : Nat) (m : Nat) : (s.raise h l v).ring m = s.ring m := rfl
@[simp] theorem State.raise_ctx (h : Side) (l v : Nat) (m : Nat) : (s.raise h l v).ctx m = s.ctx m := rfl
@[simp] theorem State.raise_seq (h : Side) (l v : Nat) (m : Nat) : (s.raise h l v).seq m = s.seq m := rfl
@[simp] theorem State.raise_page (h : Side) (l v : Nat) (m : Nat) : (s.raise h l v).page m = s.page m := rfl
@[simp] theorem State.raise_wobj (h : Side) (l v : Nat) (m : Nat) : (s.raise h l v).wobj m = s.wobj m := rfl
@[simp] theorem State.raise_conn (h : Side) (l v : Nat) (m : Nat) : (s.raise h l v).conn m = s.conn m := rfl
@[simp] theorem State.raise_ld (h : Side) (l v : Nat) (m : Ld) : (s.raise h l v).ld m = s.ld m := rfl
@[simp] theorem State.trace_ring (d : Side) (r : TraceRec) (m : Nat) : (s.trace d r).ring m = s.ring m := by simp [State.ring]
@[simp] theorem State.trace_ctx (d : Side) (r : TraceRec) (m : Nat) : (s.trace d r).ctx m = s.ctx m := by simp [State.ctx]
@[simp] theorem State.trace_seq (d : Side) (r : TraceRec) (m : Nat) : (s.trace d r).seq m = s.seq m := by simp [State.seq]
@[simp] theorem State.trace_page (d : Side) (r : TraceRec) (m : Nat) : (s.trace d r).page m = s.page m := by simp [State.page]
@[simp] theorem State.trace_wobj (d : Side) (r : TraceRec) (m : Nat) : (s.trace d r).wobj m = s.wobj m := by simp [State.wobj]
@[simp] theorem State.trace_conn (d : Side) (r : TraceRec) (m : Nat) : (s.trace d r).conn m = s.conn m := by simp [State.conn]
@[simp] theorem State.trace_ld (d : Side) (r : TraceRec) (m : Ld) : (s.trace d r).ld m = s.ld m := by simp [State.ld]
@[simp] theorem State.ctxEvent_ring (c ev cls ring layer opid n : Nat) (m : Nat) : (s.ctxEvent c ev cls ring layer opid n).ring m = s.ring m := by simp [State.ring]
@[simp] theorem State.ctxEvent_seq (c ev cls ring layer opid n : Nat) (m : Nat) : (s.ctxEvent c ev cls ring layer opid n).seq m = s.seq m := by simp [State.seq]
@[simp] theorem State.ctxEvent_page (c ev cls ring layer opid n : Nat) (m : Nat) : (s.ctxEvent c ev cls ring layer opid n).page m = s.page m := by simp [State.page]
@[simp] theorem State.ctxEvent_wobj (c ev cls ring layer opid n : Nat) (m : Nat) : (s.ctxEvent c ev cls ring layer opid n).wobj m = s.wobj m := by simp [State.wobj]
@[simp] theorem State.ctxEvent_conn (c ev cls ring layer opid n : Nat) (m : Nat) : (s.ctxEvent c ev cls ring layer opid n).conn m = s.conn m := by simp [State.conn]
@[simp] theorem State.ctxEvent_ld (c ev cls ring layer opid n : Nat) (m : Ld) : (s.ctxEvent c ev cls ring layer opid n).ld m = s.ld m := by simp [State.ld]
@[simp] theorem State.ctxReset_ring (c ring layer opid index : Nat) (m : Nat) : (s.ctxReset c ring layer opid index).ring m = s.ring m := by simp [State.ring]
@[simp] theorem State.ctxReset_seq (c ring layer opid index : Nat) (m : Nat) : (s.ctxReset c ring layer opid index).seq m = s.seq m := by simp [State.seq]
@[simp] theorem State.ctxReset_page (c ring layer opid index : Nat) (m : Nat) : (s.ctxReset c ring layer opid index).page m = s.page m := by simp [State.page]
@[simp] theorem State.ctxReset_wobj (c ring layer opid index : Nat) (m : Nat) : (s.ctxReset c ring layer opid index).wobj m = s.wobj m := by simp [State.wobj]
@[simp] theorem State.ctxReset_conn (c ring layer opid index : Nat) (m : Nat) : (s.ctxReset c ring layer opid index).conn m = s.conn m := by simp [State.conn]
@[simp] theorem State.ctxReset_ld (c ring layer opid index : Nat) (m : Ld) : (s.ctxReset c ring layer opid index).ld m = s.ld m := by simp [State.ld]
@[simp] theorem State.mapRecs_ring (f : JRec → JRec) (m : Nat) : (s.mapRecs f).ring m = s.ring m := rfl
@[simp] theorem State.mapRecs_ctx (f : JRec → JRec) (m : Nat) : (s.mapRecs f).ctx m = s.ctx m := rfl
@[simp] theorem State.mapRecs_seq (f : JRec → JRec) (m : Nat) : (s.mapRecs f).seq m = s.seq m := rfl
@[simp] theorem State.mapRecs_page (f : JRec → JRec) (m : Nat) : (s.mapRecs f).page m = s.page m := rfl
@[simp] theorem State.mapRecs_wobj (f : JRec → JRec) (m : Nat) : (s.mapRecs f).wobj m = s.wobj m := rfl
@[simp] theorem State.mapRecs_conn (f : JRec → JRec) (m : Nat) : (s.mapRecs f).conn m = s.conn m := rfl
@[simp] theorem State.mapRecs_ld (f : JRec → JRec) (m : Ld) : (s.mapRecs f).ld m = s.ld m := rfl
@[simp] theorem State.setRec_ring (x : JRec) (m : Nat) : (s.setRec x).ring m = s.ring m := rfl
@[simp] theorem State.setRec_ctx (x : JRec) (m : Nat) : (s.setRec x).ctx m = s.ctx m := rfl
@[simp] theorem State.setRec_seq (x : JRec) (m : Nat) : (s.setRec x).seq m = s.seq m := rfl
@[simp] theorem State.setRec_page (x : JRec) (m : Nat) : (s.setRec x).page m = s.page m := rfl
@[simp] theorem State.setRec_wobj (x : JRec) (m : Nat) : (s.setRec x).wobj m = s.wobj m := rfl
@[simp] theorem State.setRec_conn (x : JRec) (m : Nat) : (s.setRec x).conn m = s.conn m := rfl
@[simp] theorem State.setRec_ld (x : JRec) (m : Ld) : (s.setRec x).ld m = s.ld m := rfl
@[simp] theorem State.setProgress_ring (a : At) (n : Nat) (m : Nat) : (s.setProgress a n).ring m = s.ring m := rfl
@[simp] theorem State.setProgress_ctx (a : At) (n : Nat) (m : Nat) : (s.setProgress a n).ctx m = s.ctx m := rfl
@[simp] theorem State.setProgress_seq (a : At) (n : Nat) (m : Nat) : (s.setProgress a n).seq m = s.seq m := rfl
@[simp] theorem State.setProgress_page (a : At) (n : Nat) (m : Nat) : (s.setProgress a n).page m = s.page m := rfl
@[simp] theorem State.setProgress_wobj (a : At) (n : Nat) (m : Nat) : (s.setProgress a n).wobj m = s.wobj m := rfl
@[simp] theorem State.setProgress_conn (a : At) (n : Nat) (m : Nat) : (s.setProgress a n).conn m = s.conn m := rfl
@[simp] theorem State.setProgress_ld (a : At) (n : Nat) (m : Ld) : (s.setProgress a n).ld m = s.ld m := rfl
@[simp] theorem State.updRec_ring (a : At) (f : JRec → JRec) (m : Nat) : (s.updRec a f).ring m = s.ring m := rfl
@[simp] theorem State.updRec_ctx (a : At) (f : JRec → JRec) (m : Nat) : (s.updRec a f).ctx m = s.ctx m := rfl
@[simp] theorem State.updRec_seq (a : At) (f : JRec → JRec) (m : Nat) : (s.updRec a f).seq m = s.seq m := rfl
@[simp] theorem State.updRec_page (a : At) (f : JRec → JRec) (m : Nat) : (s.updRec a f).page m = s.page m := rfl
@[simp] theorem State.updRec_wobj (a : At) (f : JRec → JRec) (m : Nat) : (s.updRec a f).wobj m = s.wobj m := rfl
@[simp] theorem State.updRec_conn (a : At) (f : JRec → JRec) (m : Nat) : (s.updRec a f).conn m = s.conn m := rfl
@[simp] theorem State.updRec_ld (a : At) (f : JRec → JRec) (m : Ld) : (s.updRec a f).ld m = s.ld m := rfl
@[simp] theorem State.hearthBytes_ring (j : Job) (n : Nat) (m : Nat) : (s.hearthBytes j n).ring m = s.ring m := by simp [State.ring]
@[simp] theorem State.hearthBytes_seq (j : Job) (n : Nat) (m : Nat) : (s.hearthBytes j n).seq m = s.seq m := by simp [State.seq]
@[simp] theorem State.hearthBytes_page (j : Job) (n : Nat) (m : Nat) : (s.hearthBytes j n).page m = s.page m := by simp [State.page]
@[simp] theorem State.hearthBytes_wobj (j : Job) (n : Nat) (m : Nat) : (s.hearthBytes j n).wobj m = s.wobj m := by simp [State.wobj]
@[simp] theorem State.hearthBytes_conn (j : Job) (n : Nat) (m : Nat) : (s.hearthBytes j n).conn m = s.conn m := by simp [State.conn]
@[simp] theorem State.hearthBytes_ld (j : Job) (n : Nat) (m : Ld) : (s.hearthBytes j n).ld m = s.ld m := by simp [State.ld]
@[simp] theorem State.setLayer_ring (k l : Nat) (x : Layer) (m : Nat) : (s.setLayer k l x).ring m = s.ring m := rfl
@[simp] theorem State.setLayer_ctx (k l : Nat) (x : Layer) (m : Nat) : (s.setLayer k l x).ctx m = s.ctx m := rfl
@[simp] theorem State.setLayer_page (k l : Nat) (x : Layer) (m : Nat) : (s.setLayer k l x).page m = s.page m := rfl
@[simp] theorem State.setLayer_wobj (k l : Nat) (x : Layer) (m : Nat) : (s.setLayer k l x).wobj m = s.wobj m := rfl
@[simp] theorem State.setLayer_conn (k l : Nat) (x : Layer) (m : Nat) : (s.setLayer k l x).conn m = s.conn m := rfl
@[simp] theorem State.setLayer_ld (k l : Nat) (x : Layer) (m : Ld) : (s.setLayer k l x).ld m = s.ld m := rfl
@[simp] theorem State.setPte_ring (k l n : Nat) (e : Pte) (m : Nat) : (s.setPte k l n e).ring m = s.ring m := rfl
@[simp] theorem State.setPte_ctx (k l n : Nat) (e : Pte) (m : Nat) : (s.setPte k l n e).ctx m = s.ctx m := rfl
@[simp] theorem State.setPte_page (k l n : Nat) (e : Pte) (m : Nat) : (s.setPte k l n e).page m = s.page m := rfl
@[simp] theorem State.setPte_wobj (k l n : Nat) (e : Pte) (m : Nat) : (s.setPte k l n e).wobj m = s.wobj m := rfl
@[simp] theorem State.setPte_conn (k l n : Nat) (e : Pte) (m : Nat) : (s.setPte k l n e).conn m = s.conn m := rfl
@[simp] theorem State.setPte_ld (k l n : Nat) (e : Pte) (m : Ld) : (s.setPte k l n e).ld m = s.ld m := rfl
@[simp] theorem State.setPfx_ring (i : Nat) (e : PfxEntry) (m : Nat) : (s.setPfx i e).ring m = s.ring m := rfl
@[simp] theorem State.setPfx_ctx (i : Nat) (e : PfxEntry) (m : Nat) : (s.setPfx i e).ctx m = s.ctx m := rfl
@[simp] theorem State.setPfx_seq (i : Nat) (e : PfxEntry) (m : Nat) : (s.setPfx i e).seq m = s.seq m := rfl
@[simp] theorem State.setPfx_page (i : Nat) (e : PfxEntry) (m : Nat) : (s.setPfx i e).page m = s.page m := rfl
@[simp] theorem State.setPfx_wobj (i : Nat) (e : PfxEntry) (m : Nat) : (s.setPfx i e).wobj m = s.wobj m := rfl
@[simp] theorem State.setPfx_conn (i : Nat) (e : PfxEntry) (m : Nat) : (s.setPfx i e).conn m = s.conn m := rfl
@[simp] theorem State.setPfx_ld (i : Nat) (e : PfxEntry) (m : Ld) : (s.setPfx i e).ld m = s.ld m := rfl
@[simp] theorem State.setReqs_ring (d : Side) (l : List PromReq) (m : Nat) : (s.setReqs d l).ring m = s.ring m := rfl
@[simp] theorem State.setReqs_ctx (d : Side) (l : List PromReq) (m : Nat) : (s.setReqs d l).ctx m = s.ctx m := rfl
@[simp] theorem State.setReqs_seq (d : Side) (l : List PromReq) (m : Nat) : (s.setReqs d l).seq m = s.seq m := rfl
@[simp] theorem State.setReqs_page (d : Side) (l : List PromReq) (m : Nat) : (s.setReqs d l).page m = s.page m := rfl
@[simp] theorem State.setReqs_wobj (d : Side) (l : List PromReq) (m : Nat) : (s.setReqs d l).wobj m = s.wobj m := rfl
@[simp] theorem State.setReqs_conn (d : Side) (l : List PromReq) (m : Nat) : (s.setReqs d l).conn m = s.conn m := rfl
@[simp] theorem State.setReqs_ld (d : Side) (l : List PromReq) (m : Ld) : (s.setReqs d l).ld m = s.ld m := rfl
@[simp] theorem State.updReq_ring (d : Side) (h : Nat) (f : PromReq → PromReq) (m : Nat) : (s.updReq d h f).ring m = s.ring m := rfl
@[simp] theorem State.updReq_ctx (d : Side) (h : Nat) (f : PromReq → PromReq) (m : Nat) : (s.updReq d h f).ctx m = s.ctx m := rfl
@[simp] theorem State.updReq_seq (d : Side) (h : Nat) (f : PromReq → PromReq) (m : Nat) : (s.updReq d h f).seq m = s.seq m := rfl
@[simp] theorem State.updReq_page (d : Side) (h : Nat) (f : PromReq → PromReq) (m : Nat) : (s.updReq d h f).page m = s.page m := rfl
@[simp] theorem State.updReq_wobj (d : Side) (h : Nat) (f : PromReq → PromReq) (m : Nat) : (s.updReq d h f).wobj m = s.wobj m := rfl
@[simp] theorem State.updReq_conn (d : Side) (h : Nat) (f : PromReq → PromReq) (m : Nat) : (s.updReq d h f).conn m = s.conn m := rfl
@[simp] theorem State.updReq_ld (d : Side) (h : Nat) (f : PromReq → PromReq) (m : Ld) : (s.updReq d h f).ld m = s.ld m := rfl
@[simp] theorem State.setTx_ring (n : Nat) (x : TxMsg) (m : Nat) : (s.setTx n x).ring m = s.ring m := rfl
@[simp] theorem State.setTx_ctx (n : Nat) (x : TxMsg) (m : Nat) : (s.setTx n x).ctx m = s.ctx m := rfl
@[simp] theorem State.setTx_seq (n : Nat) (x : TxMsg) (m : Nat) : (s.setTx n x).seq m = s.seq m := rfl
@[simp] theorem State.setTx_page (n : Nat) (x : TxMsg) (m : Nat) : (s.setTx n x).page m = s.page m := rfl
@[simp] theorem State.setTx_wobj (n : Nat) (x : TxMsg) (m : Nat) : (s.setTx n x).wobj m = s.wobj m := rfl
@[simp] theorem State.setTx_ld (n : Nat) (x : TxMsg) (m : Ld) : (s.setTx n x).ld m = s.ld m := rfl
@[simp] theorem State.setRx_ring (n : Nat) (x : RxMsg) (m : Nat) : (s.setRx n x).ring m = s.ring m := rfl
@[simp] theorem State.setRx_ctx (n : Nat) (x : RxMsg) (m : Nat) : (s.setRx n x).ctx m = s.ctx m := rfl
@[simp] theorem State.setRx_seq (n : Nat) (x : RxMsg) (m : Nat) : (s.setRx n x).seq m = s.seq m := rfl
@[simp] theorem State.setRx_page (n : Nat) (x : RxMsg) (m : Nat) : (s.setRx n x).page m = s.page m := rfl
@[simp] theorem State.setRx_wobj (n : Nat) (x : RxMsg) (m : Nat) : (s.setRx n x).wobj m = s.wobj m := rfl
@[simp] theorem State.setRx_ld (n : Nat) (x : RxMsg) (m : Ld) : (s.setRx n x).ld m = s.ld m := rfl
@[simp] theorem State.newHalf_ring (d : Side) (h : Half) (m : Nat) : (s.newHalf d h).ring m = s.ring m := by simp [State.ring]
@[simp] theorem State.newHalf_ctx (d : Side) (h : Half) (m : Nat) : (s.newHalf d h).ctx m = s.ctx m := by simp [State.ctx]
@[simp] theorem State.newHalf_seq (d : Side) (h : Half) (m : Nat) : (s.newHalf d h).seq m = s.seq m := by simp [State.seq]
@[simp] theorem State.newHalf_page (d : Side) (h : Half) (m : Nat) : (s.newHalf d h).page m = s.page m := by simp [State.page]
@[simp] theorem State.newHalf_wobj (d : Side) (h : Half) (m : Nat) : (s.newHalf d h).wobj m = s.wobj m := by simp [State.wobj]
@[simp] theorem State.newHalf_conn (d : Side) (h : Half) (m : Nat) : (s.newHalf d h).conn m = s.conn m := by simp [State.conn]
@[simp] theorem State.newHalf_ld (d : Side) (h : Half) (m : Ld) : (s.newHalf d h).ld m = s.ld m := by simp [State.ld]
@[simp] theorem State.served_ring (n : Nat) (m : Nat) : (s.served n).ring m = s.ring m := by simp [State.ring]
@[simp] theorem State.served_ctx (n : Nat) (m : Nat) : (s.served n).ctx m = s.ctx m := by simp [State.ctx]
@[simp] theorem State.served_seq (n : Nat) (m : Nat) : (s.served n).seq m = s.seq m := by simp [State.seq]
@[simp] theorem State.served_page (n : Nat) (m : Nat) : (s.served n).page m = s.page m := by simp [State.page]
@[simp] theorem State.served_wobj (n : Nat) (m : Nat) : (s.served n).wobj m = s.wobj m := by simp [State.wobj]
@[simp] theorem State.served_conn (n : Nat) (m : Nat) : (s.served n).conn m = s.conn m := by simp [State.conn]
@[simp] theorem State.served_ld (n : Nat) (m : Ld) : (s.served n).ld m = s.ld m := by simp [State.ld]

end Machine
end Sys2Proof
end

