-- ==== Sys2Proof/Laws/Command.lean ====
section
/-! SUPPORT. What the mailbox, the fabric manager's endpoint and a secure session do with a command that they take, and
what an answer changes. -/

namespace Sys2Proof
namespace Machine

/-- R290: a standard command that is taken does its work. -/
theorem State.standard_takes {s : State} {l : Ld} (h : s.takesStandard l) (boot identify : Bool) (go : State → State) :
    s.standard l boot identify go = go s := by
  obtain ⟨h1, h2, h3⟩ := h
  simp [State.standard, State.mailboxReady, h1, h2, h3]

/-- R291: a vendor command that is taken does its work. -/
theorem State.vendor_takes {s : State} {l : Ld} (h : s.takesVendor l) (go : State → State) (any boot : Bool) :
    s.vendor l go any boot = go s := by
  obtain ⟨⟨h1, h2, h3⟩, h4, h5, h6, h7⟩ := h
  simp [State.vendor, State.mailboxReady, h1, h2, h3, h4, h5, h6, h7]

/-- R274, R291: a vendor command of an LD that is no MANAGER. -/
theorem State.vendor_access {s : State} {l : Ld} (h : s.takesStandard l) (hm : s.manager l = false) (go : State → State)
    (boot : Bool) : s.vendor l go false boot = s.say St.access := by
  obtain ⟨h1, h2, h3⟩ := h
  simp [State.vendor, State.mailboxReady, h1, h2, h3, hm]

/-- R404, R519: a vendor command about a context that is taken does its work. -/
theorem State.vendorCtx_takes {s : State} {l : Ld} {c : Nat} (h : s.takesVendorCtx l c) (go : State → State) :
    s.vendorCtx l c go = go s := by
  obtain ⟨hv, h1, h2, h3⟩ := h
  unfold State.vendorCtx
  rw [State.vendor_takes hv]
  simp [h1, h3, show ¬(4096 ≤ c) by omega]

/-- R293: a command of the fabric manager that is taken does its work. -/
theorem State.fm_takes {s : State} {h : Side} (ht : s.takesFm h) (go : State → State) : s.fm h go = go s := by
  obtain ⟨h1, h2, h3, h4, h5, h6⟩ := ht
  simp [State.fm, h1, h2, h3, h4, h5, h6]

/-! ### Answers -/

/-- An answer changes nothing but the answer. -/
theorem State.answered_ok (s : State) (out : List Byte) : Answered s (s.ok out) := ⟨rfl, rfl⟩

/-- A status changes nothing but the answer. -/
theorem State.said_say (s : State) (st : Status) (d : Nat) (out : List Byte) : Said st s (s.say st d out) := ⟨⟨rfl, rfl⟩, rfl⟩

@[simp] theorem State.answer_mem (s : State) (r : Resp) : (s.answer r).mem = s.mem := rfl
@[simp] theorem State.ok_mem (s : State) (o : List Byte) : (s.ok o).mem = s.mem := rfl
@[simp] theorem State.no_mem (s : State) (r : Ret) : (s.no r).mem = s.mem := rfl
@[simp] theorem State.say_mem (s : State) (st : Status) (d : Nat) (o : List Byte) : (s.say st d o).mem = s.mem := rfl
@[simp] theorem State.say_status (s : State) (st : Status) (d : Nat) (o : List Byte) : (s.say st d o).resp.status = st := rfl
@[simp] theorem State.say_out (s : State) (st : Status) (d : Nat) (o : List Byte) : (s.say st d o).resp.out = o := rfl
@[simp] theorem State.say_ret (s : State) (st : Status) (d : Nat) (o : List Byte) : (s.say st d o).resp.ret = .success := rfl
@[simp] theorem State.ok_ret (s : State) (o : List Byte) : (s.ok o).resp.ret = .success := rfl
@[simp] theorem State.ok_out (s : State) (o : List Byte) : (s.ok o).resp.out = o := rfl
@[simp] theorem State.no_ret (s : State) (r : Ret) : (s.no r).resp.ret = r := rfl
@[simp] theorem State.say_ctx (s : State) (st : Status) (d : Nat) (o : List Byte) (c : Nat) : (s.say st d o).ctx c = s.ctx c := rfl
@[simp] theorem State.say_ring (s : State) (st : Status) (d : Nat) (o : List Byte) (n : Nat) : (s.say st d o).ring n = s.ring n := rfl
@[simp] theorem State.say_conn (s : State) (st : Status) (d : Nat) (o : List Byte) (n : Nat) : (s.say st d o).conn n = s.conn n := rfl
@[simp] theorem State.ok_ctx (s : State) (o : List Byte) (c : Nat) : (s.ok o).ctx c = s.ctx c := rfl
@[simp] theorem State.ok_ld (s : State) (o : List Byte) (l : Ld) : (s.ok o).ld l = s.ld l := rfl
@[simp] theorem State.no_ld (s : State) (r : Ret) (l : Ld) : (s.no r).ld l = s.ld l := rfl

/-- An LD reads back as it was set. -/
@[simp] theorem State.ld_setLd (s : State) (l : Ld) (x : LdState) : (s.setLd l x).ld l = x := by
  simp [State.ld, State.setLd, State.setHead]

/-- The other LDs stay. -/
theorem State.ld_setLd_ne (s : State) {l m : Ld} (x : LdState) (h : m ≠ l) : (s.setLd l x).ld m = s.ld m := by
  unfold State.ld State.setLd State.setHead
  by_cases hh : m.head = l.head
  · have hi : m.id ≠ l.id := fun e => h (by cases m; cases l; simp_all)
    simp [hh, Tbl.lookD_put_ne _ _ _ hi]
  · simp [Two.get_set_ne _ _ hh]

end Machine
end Sys2Proof
end

