-- ==== Sys2Proof/Laws/Issue.lean ====
section
/-! SUPPORT. What an instruction's issue and completion do, once: later proofs cite these and do not unfold them. -/

namespace Sys2Proof
namespace Machine

/-! ### Records of the journal -/

theorem State.rec?_site {s : State} {a : At} {r : JRec} (h : s.rec? a = some r) : r.site = a := by
  have := List.find?_some h
  simpa using this

theorem State.rec?_key {s : State} {a : At} {r : JRec} (h : s.rec? a = some r) :
    r.ring = a.ring ∧ r.index = a.index ∧ r.step = a.step := by
  have := State.rec?_site h
  subst this
  exact ⟨rfl, rfl, rfl⟩

theorem find?_map_site (a : At) (f : JRec → JRec) (hf : ∀ r, (f r).site = r.site) :
    ∀ (l : List JRec), (l.map f).find? (fun r => r.site == a) = (l.find? (fun r => r.site == a)).map f
  | [] => rfl
  | x :: l => by
    rw [List.map_cons, List.find?_cons, List.find?_cons, hf x]
    split
    · rfl
    · exact find?_map_site a f hf l

/-- A record after a change that keeps where every record stands. -/
theorem State.rec?_mapRecs (s : State) (a : At) (f : JRec → JRec) (hf : ∀ r, (f r).site = r.site) :
    (s.mapRecs f).rec? a = (s.rec? a).map f := by
  unfold State.rec? State.allRecs State.mapRecs
  dsimp only
  rw [← List.map_append]
  exact find?_map_site a f hf _

/-- A record that was replaced. -/
theorem State.rec?_setRec {s : State} {a : At} {r x : JRec} (h : s.rec? a = some r) (hx : x.site = a) :
    (s.setRec x).rec? a = some x := by
  have hk := State.rec?_site h
  unfold State.setRec
  rw [State.rec?_mapRecs]
  · rw [h]
    simp [hk, hx]
  · intro r
    split
    · next he => simp at he; exact he.symm
    · rfl

/-- A record changed where it stands. -/
theorem State.rec?_updRec {s : State} {a : At} {r : JRec} (f : JRec → JRec) (h : s.rec? a = some r)
    (hf : ∀ r, (f r).site = r.site) : (s.updRec a f).rec? a = some (f r) := by
  have hk := State.rec?_site h
  unfold State.updRec
  rw [State.rec?_mapRecs]
  · rw [h]
    simp [hk]
  · intro r
    split
    · exact hf r
    · rfl

/-- Records see only the journal. -/
theorem State.rec?_congr {s t : State} (h : t.jrn = s.jrn) (a : At) : t.rec? a = s.rec? a := by
  unfold State.rec? State.allRecs
  rw [h]

@[simp] theorem State.rec?_setRing (s : State) (n : Nat) (g : Ring) (a : At) : (s.setRing n g).rec? a = s.rec? a := rfl
@[simp] theorem State.rec?_setSeq (s : State) (k : Nat) (q : Seq) (a : At) : (s.setSeq k q).rec? a = s.rec? a := rfl
@[simp] theorem State.rec?_setCtx (s : State) (c : Nat) (x : Ctx) (a : At) : (s.setCtx c x).rec? a = s.rec? a := rfl
@[simp] theorem State.rec?_count (s : State) (o n : Nat) (a : At) : (s.count o n).rec? a = s.rec? a :=
  State.rec?_congr (State.count_jrn s o n) a
@[simp] theorem State.rec?_ctxEvent (s : State) (c ev cls ring layer opid n : Nat) (a : At) :
    (s.ctxEvent c ev cls ring layer opid n).rec? a = s.rec? a := State.rec?_congr (State.ctxEvent_jrn ..) a

/-- R444: markFree only notes a time in accepted records. -/
theorem State.rec?_markFree {s : State} {a : At} {r : JRec} (h : s.rec? a = some r) (hr : r.state ≠ .accepted) :
    s.markFree.rec? a = some r := by
  unfold State.markFree
  rw [State.rec?_mapRecs]
  · rw [h, Option.map_some, if_neg]
    have : (r.state == JState.accepted) = false := by simpa using hr
    simp [this]
  · intro r
    split <;> rfl

@[simp] theorem State.ring_markFree (s : State) (n : Nat) : s.markFree.ring n = s.ring n := rfl
@[simp] theorem State.mem_markFree (s : State) : s.markFree.mem = s.mem := rfl

/-! ### Naming of sequences -/

@[simp] theorem State.name_jrn (s : State) (ks : List Nat) : (s.name ks).jrn = s.jrn := by
  unfold State.name
  induction ks generalizing s with
  | nil => rfl
  | cons k r ih => rw [List.foldl_cons, ih]; rfl

@[simp] theorem State.name_rings (s : State) (ks : List Nat) : (s.name ks).rings = s.rings := by
  unfold State.name
  induction ks generalizing s with
  | nil => rfl
  | cons k r ih => rw [List.foldl_cons, ih]; rfl

@[simp] theorem State.name_mem (s : State) (ks : List Nat) : (s.name ks).mem = s.mem := by
  unfold State.name
  induction ks generalizing s with
  | nil => rfl
  | cons k r ih => rw [List.foldl_cons, ih]; rfl

@[simp] theorem State.name_cxp (s : State) (ks : List Nat) : (s.name ks).cxp = s.cxp := by
  unfold State.name
  induction ks generalizing s with
  | nil => rfl
  | cons k r ih => rw [List.foldl_cons, ih]; rfl

@[simp] theorem State.name_now (s : State) (ks : List Nat) : (s.name ks).now = s.now := by
  unfold State.name
  induction ks generalizing s with
  | nil => rfl
  | cons k r ih => rw [List.foldl_cons, ih]; rfl

@[simp] theorem State.name_ctxs (s : State) (ks : List Nat) : (s.name ks).ctxs = s.ctxs := by
  unfold State.name
  induction ks generalizing s with
  | nil => rfl
  | cons k r ih => rw [List.foldl_cons, ih]; rfl

@[simp] theorem State.name_gbl (s : State) (ks : List Nat) : (s.name ks).gbl = s.gbl := by
  unfold State.name
  induction ks generalizing s with
  | nil => rfl
  | cons k r ih => rw [List.foldl_cons, ih]; rfl

@[simp] theorem State.name_flu (s : State) (ks : List Nat) : (s.name ks).flu = s.flu := by
  unfold State.name
  induction ks generalizing s with
  | nil => rfl
  | cons k r ih => rw [List.foldl_cons, ih]; rfl

@[simp] theorem State.name_tel (s : State) (ks : List Nat) : (s.name ks).tel = s.tel := by
  unfold State.name
  induction ks generalizing s with
  | nil => rfl
  | cons k r ih => rw [List.foldl_cons, ih]; rfl

@[simp] theorem State.unname_jrn (s : State) (ks : List Nat) : (s.unname ks).jrn = s.jrn := by
  unfold State.unname
  induction ks generalizing s with
  | nil => rfl
  | cons k r ih => rw [List.foldl_cons, ih]; rfl

@[simp] theorem State.unname_rings (s : State) (ks : List Nat) : (s.unname ks).rings = s.rings := by
  unfold State.unname
  induction ks generalizing s with
  | nil => rfl
  | cons k r ih => rw [List.foldl_cons, ih]; rfl

@[simp] theorem State.unname_mem (s : State) (ks : List Nat) : (s.unname ks).mem = s.mem := by
  unfold State.unname
  induction ks generalizing s with
  | nil => rfl
  | cons k r ih => rw [List.foldl_cons, ih]; rfl

@[simp] theorem State.unname_cxp (s : State) (ks : List Nat) : (s.unname ks).cxp = s.cxp := by
  unfold State.unname
  induction ks generalizing s with
  | nil => rfl
  | cons k r ih => rw [List.foldl_cons, ih]; rfl

@[simp] theorem State.unname_now (s : State) (ks : List Nat) : (s.unname ks).now = s.now := by
  unfold State.unname
  induction ks generalizing s with
  | nil => rfl
  | cons k r ih => rw [List.foldl_cons, ih]; rfl

@[simp] theorem State.unname_ctxs (s : State) (ks : List Nat) : (s.unname ks).ctxs = s.ctxs := by
  unfold State.unname
  induction ks generalizing s with
  | nil => rfl
  | cons k r ih => rw [List.foldl_cons, ih]; rfl

@[simp] theorem State.unname_gbl (s : State) (ks : List Nat) : (s.unname ks).gbl = s.gbl := by
  unfold State.unname
  induction ks generalizing s with
  | nil => rfl
  | cons k r ih => rw [List.foldl_cons, ih]; rfl

@[simp] theorem State.unname_flu (s : State) (ks : List Nat) : (s.unname ks).flu = s.flu := by
  unfold State.unname
  induction ks generalizing s with
  | nil => rfl
  | cons k r ih => rw [List.foldl_cons, ih]; rfl

@[simp] theorem State.unname_tel (s : State) (ks : List Nat) : (s.unname ks).tel = s.tel := by
  unfold State.unname
  induction ks generalizing s with
  | nil => rfl
  | cons k r ih => rw [List.foldl_cons, ih]; rfl

/-! ### Issue -/

@[simp] theorem State.noteIssue_jrn (s : State) (r : JRec) (j : Job) : (s.noteIssue r j).jrn = s.jrn := by
  unfold State.noteIssue
  dsimp only
  rw [State.trace_jrn]
  split
  · rfl
  · rw [State.ctxReset_jrn]

@[simp] theorem State.noteIssue_rings (s : State) (r : JRec) (j : Job) : (s.noteIssue r j).rings = s.rings := by
  unfold State.noteIssue
  dsimp only
  rw [State.trace_rings]
  split
  · rfl
  · rw [State.ctxReset_rings]

@[simp] theorem State.noteIssue_mem (s : State) (r : JRec) (j : Job) : (s.noteIssue r j).mem = s.mem := by
  unfold State.noteIssue
  dsimp only
  rw [State.trace_mem]
  split
  · rfl
  · rw [State.ctxReset_mem]

@[simp] theorem State.noteIssue_cxp (s : State) (r : JRec) (j : Job) : (s.noteIssue r j).cxp = s.cxp := by
  unfold State.noteIssue
  dsimp only
  rw [State.trace_cxp]
  split
  · rfl
  · rw [State.ctxReset_cxp]

@[simp] theorem State.noteIssue_now (s : State) (r : JRec) (j : Job) : (s.noteIssue r j).now = s.now := by
  unfold State.noteIssue
  dsimp only
  rw [State.trace_now]
  split
  · rfl
  · rw [State.ctxReset_now]

/-- R283: issuing touches no snoop filter. -/
@[simp] theorem State.issue_cxp (s : State) (r : JRec) : (s.issue r).cxp = s.cxp := by
  unfold State.issue
  simp [State.startRing]

/-- R42: issuing touches no byte of memory. -/
@[simp] theorem State.issue_mem (s : State) (r : JRec) : (s.issue r).mem = s.mem := by
  unfold State.issue
  simp [State.startRing]

@[simp] theorem State.issue_tracked (s : State) (r : JRec) : (s.issue r).tracked = s.tracked := by
  unfold State.tracked
  rw [State.issue_cxp]

@[simp] theorem State.keepSnap_cxp (s : State) (a : At) (k : Snap) : (s.keepSnap a k).cxp = s.cxp := rfl
@[simp] theorem State.keepSnap_mem (s : State) (a : At) (k : Snap) : (s.keepSnap a k).mem = s.mem := rfl
@[simp] theorem State.keepSnap_rings (s : State) (a : At) (k : Snap) : (s.keepSnap a k).rings = s.rings := rfl
@[simp] theorem State.keepSnap_ctxs (s : State) (a : At) (k : Snap) : (s.keepSnap a k).ctxs = s.ctxs := rfl
@[simp] theorem State.keepSnap_seqs (s : State) (a : At) (k : Snap) : (s.keepSnap a k).seqs = s.seqs := rfl
@[simp] theorem State.keepSnap_now (s : State) (a : At) (k : Snap) : (s.keepSnap a k).now = s.now := rfl
@[simp] theorem State.keepSnap_tracked (s : State) (a : At) (k : Snap) : (s.keepSnap a k).tracked = s.tracked := rfl

/-- R407: an instruction that issues is ISSUED in its record. -/
theorem State.issue_rec {s : State} {a : At} {r : JRec} (h : s.rec? a = some r) :
    (s.issue r).rec? a = some (r.started (s.job r) (s.issueNames (s.job r)) (s.jobFootprint (s.job r))) := by
  have hk := State.rec?_site h
  unfold State.issue
  dsimp only
  rw [State.rec?_congr (State.noteIssue_jrn _ _ _)]
  refine State.rec?_setRec (r := r) ?_ ?_
  · unfold State.startRing
    rw [State.rec?_setRing, State.rec?_congr (State.name_jrn _ _), State.rec?_congr (State.served_jrn _ _)]
    exact h
  · exact hk

/-- R32: its record when its checks have passed. -/
theorem begun_rec {s : State} {a : At} {r : JRec} (h : s.rec? a = some r) :
    (begun s r).rec? a = some { r.started (s.job r) (s.issueNames (s.job r)) (s.jobFootprint (s.job r)) with
      snap := {}, checked := true } := by
  have hk := State.rec?_site h
  unfold begun issuedAt State.keepSnap
  rw [hk]
  exact State.rec?_updRec _ (State.issue_rec h) (fun _ => rfl)

/-- R39: in the ring, the issue of an instruction makes its DST PENDING and is counted in the window. -/
theorem State.issue_ring (s : State) (r : JRec) :
    (s.issue r).ring r.ring = { ((s.ring r.ring).setReg r.inst.dst { ((s.ring r.ring).regs.getD r.inst.dst {}) with pending := true }) with
      issued := (s.ring r.ring).issued + 1 } := by
  have h1 : ∀ t : State, (t.noteIssue r (s.job r)).ring r.ring = t.ring r.ring := by
    intro t; unfold State.ring; rw [State.noteIssue_rings]
  have h2 : ∀ ks : List Nat, ((s.served r.ring).name ks).ring r.ring = s.ring r.ring := by
    intro ks; unfold State.ring; rw [State.name_rings, State.served_rings]
  unfold State.issue
  dsimp only
  rw [h1, State.setRec_ring]
  unfold State.startRing
  dsimp only
  rw [State.ring_setRing_self, h2]
  rfl

theorem issuable_accepted {s : State} {r : JRec} (h : s.issuable r = true) : r.state = .accepted := by
  unfold State.issuable at h
  simp only [Bool.and_eq_true] at h
  simpa using h.1.1.1.1.1.1.1

theorem preCheck_listed {s : State} {j : Job} (h : s.preCheck j = none) : listed j.inst.opcode j.step.isSome = true := by
  unfold State.preCheck at h
  dsimp only at h
  split at h
  · cases h
  · split at h
    · cases h
    · next hl => simpa using hl

/-- R32: a record whose instruction is listed where it stands is of the row of its opcode. -/
theorem effOp_listed {i : Inst} {st : Option Nat} (h : listed i.opcode st.isSome = true) : effOp i st = i.opcode := by
  unfold effOp
  rw [h]
  rfl

theorem State.job_step (s : State) (r : JRec) : (s.job r).step.isSome = r.step.isSome := by
  unfold State.job
  dsimp only
  cases r.step <;> rfl

theorem snoopWait_none {s : State} (h : s.tracked = []) (j : Job) : s.snoopWait j = none := by
  unfold State.snoopWait State.snoopLines
  split
  · rfl
  · rfl
  · rw [h]; rfl

/-- R32: what a job was preceded by decides nothing of the checks that come before its own. -/
theorem preCheck_prev (s : State) (j : Job) (w : Option Wait) : s.preCheck { j with prev := w } = s.preCheck j := rfl

/-- R32-R50: what a command for an instruction of row `op` does when the instruction runs: its own checks come first. -/
theorem runHob_runs {op : Nat} {a : At} {r : JRec} {s : State} (check : Job → State → Chk) (body : Job → State → Out)
    (h : Runs a r s) (hop : r.inst.opcode = op) :
    runHob op a check body s = (settle a ((issuedAt s r).proceed a (jobAt s r) check body)).markFree := by
  obtain ⟨h1, h2, h3, h4, h5⟩ := h
  have hs := State.rec?_site h1
  have hl := preCheck_listed h4
  rw [State.job_step] at hl
  have he : effOp r.inst r.step = op := (effOp_listed hl).trans hop
  unfold runHob
  rw [h1]
  dsimp only
  rw [if_neg (by simpa using he), if_pos h2, if_pos h3]
  unfold State.begin
  dsimp only
  rw [preCheck_prev, h4]
  dsimp only
  rw [hs]
  rfl

/-- R32: the checks of an instruction that has just issued have not passed before. -/
theorem keptSnap_issued {s : State} {a : At} {r : JRec} (h : s.rec? a = some r) (k : Snap) :
    (issuedAt s r).keptSnap a k = k := by
  unfold State.keptSnap issuedAt
  rw [State.issue_rec h]
  rfl

/-- R32-R50: the same, where nothing of its own is checked or its checks pass and take nothing. -/
theorem runHob_passes {op : Nat} {a : At} {r : JRec} {s : State} (check : Job → State → Chk) (body : Job → State → Out)
    (h : Runs a r s) (hop : r.inst.opcode = op) (hc : check (jobAt s r) (issuedAt s r) = .good {} (issuedAt s r)) :
    runHob op a check body s = (settle a (body { jobAt s r with snap := {} } (begun s r))).markFree := by
  rw [runHob_runs check body h hop]
  have hs := State.rec?_site h.1
  unfold State.proceed
  rw [hc]
  dsimp only
  rw [keptSnap_issued h.1, snoopWait_none (s := issuedAt s r) ((State.issue_tracked s r).trans h.2.2.2.2)]
  unfold begun
  rw [hs]

/-- R39: the same of an instruction that has issued before and goes on. -/
theorem runHob_goesOn {op : Nat} {a : At} {r : JRec} {s : State} (check : Job → State → Chk) (body : Job → State → Out)
    (h : GoesOn a r s) (hop : r.inst.opcode = op) :
    runHob op a check body s = (settle a (body (s.job r) s)).markFree := by
  obtain ⟨h1, h2, h3, h4, h5, h6, h7⟩ := h
  have he : effOp r.inst r.step = op := (effOp_listed h4).trans hop
  unfold runHob
  rw [h1]
  dsimp only
  have n1 : s.issuable r = false := by
    cases hi : s.issuable r with
    | false => rfl
    | true => rw [issuable_accepted hi] at h2; cases h2
  rw [if_neg (by simpa using he), if_neg (by simp [n1]), if_pos (by simp [h2, h3, h5]), if_pos h6]
  congr 2
  unfold State.runBody
  rw [snoopWait_none h7]

theorem siteDies_ne (op : Nat) (names : List Nat) (home : Side) : siteDies op names home ≠ [] := by
  unfold siteDies
  split
  · next h =>
    cases names with
    | nil => simp at h
    | cons x xs =>
      rw [List.map_cons, List.eraseDups_cons]
      exact List.cons_ne_nil _ _
  · exact List.cons_ne_nil _ _

theorem diesRun_false {s : State} (h : ∀ d, s.dieRuns d = false) (ds : List Side) (hd : ds ≠ []) : s.diesRun ds = false := by
  unfold State.diesRun
  cases ds with
  | nil => exact absurd rfl hd
  | cons d ds => simp [h]

/-- R32-R45: while nothing may issue and nothing has issued, a command for an instruction does nothing. -/
theorem runHob_idle {op : Nat} {a : At} {s : State} (check : Job → State → Chk) (body : Job → State → Out)
    (h : ∀ d, s.dieRuns d = false) : runHob op a check body s = s := by
  unfold runHob
  split
  · rfl
  · next r _ =>
    have n1 : s.issuable r = false := by
      unfold State.issuable State.jobDies
      rw [diesRun_false h _ (siteDies_ne _ _ _)]
      simp
    split
    · rfl
    · rw [n1, if_neg (by simp), if_neg (by
        unfold State.diesOf
        rw [diesRun_false h _ (siteDies_ne _ _ _)]
        simp)]

/-! ### Completion -/

theorem Ring.setReg_val (g : Ring) {n : Nat} (v : VReg) (h : n ≠ 0) (hl : n < g.regs.length) :
    (g.setReg n v).val n = v.val ∧ (g.setReg n v).isPending n = v.pending ∧ (g.setReg n v).isPoison n = v.poison := by
  unfold Ring.setReg Ring.val Ring.isPending Ring.isPoison
  rw [if_neg h]
  simp [h, hl]

@[simp] theorem State.noteDone_jrn (s : State) (r : JRec) (i : Inst) (d : Done) : (s.noteDone r i d).jrn = s.jrn := by
  unfold State.noteDone
  dsimp only
  split <;> simp

@[simp] theorem State.noteDone_rings (s : State) (r : JRec) (i : Inst) (d : Done) : (s.noteDone r i d).rings = s.rings := by
  unfold State.noteDone
  dsimp only
  split <;> simp

@[simp] theorem State.noteDone_mem (s : State) (r : JRec) (i : Inst) (d : Done) : (s.noteDone r i d).mem = s.mem := by
  unfold State.noteDone
  dsimp only
  split <;> simp

@[simp] theorem State.writeDst_jrn (s : State) (n : Nat) (i : Inst) (d : Done) : (s.writeDst n i d).jrn = s.jrn := by
  unfold State.writeDst
  dsimp only
  repeat' split
  all_goals rfl

@[simp] theorem State.writeDst_mem (s : State) (n : Nat) (i : Inst) (d : Done) : (s.writeDst n i d).mem = s.mem := by
  unfold State.writeDst
  dsimp only
  repeat' split
  all_goals rfl

/-- R38-R40: DST of an instruction that completed. -/
theorem State.writeDst_ring (s : State) (n : Nat) (i : Inst) (d : Done) (hk : d.keepDst = false)
    (hst : d.status ≠ St.skipped) (h0 : i.dst ≠ 0) : (s.writeDst n i d).ring n =
      (s.ring n).setReg i.dst (if Status.success d.status then { val := d.result } else { val := 0, poison := true }) := by
  have hne : (d.status == St.skipped) = false := by simpa using hst
  unfold State.writeDst
  dsimp only
  rw [hne, hk, if_neg (by simpa using h0), if_neg (by simp)]
  split <;> rw [State.ring_setRing_self]

@[simp] theorem Ring.noteFail_regs (g : Ring) (i : Inst) (d : Done) (x : BitVec 32) : (g.noteFail i d x).regs = g.regs := by
  unfold Ring.noteFail
  repeat' split
  all_goals rfl

theorem Ring.congr_regs {g g' : Ring} (h : g.regs = g'.regs) (n : Nat) :
    g.val n = g'.val n ∧ g.isPending n = g'.isPending n ∧ g.isPoison n = g'.isPoison n := by
  unfold Ring.val Ring.isPending Ring.isPoison
  rw [h]
  exact ⟨rfl, rfl, rfl⟩

/-! ### What giving back the pages in use touches -/

/-- What each step of a fold leaves as it was, the fold leaves. -/
theorem foldl_keeps {β γ : Type} (get : State → γ) (f : State → β → State) (h : ∀ t x, get (f t x) = get t) (l : List β) (s : State) :
    get (l.foldl f s) = get s := by
  induction l generalizing s with
  | nil => rfl
  | cons x xs ih => rw [List.foldl_cons, ih, h]

@[simp] theorem State.mirrorFreed_jrn (s : State) (d : Side) (k : Nat) : (s.mirrorFreed d k).jrn = s.jrn := by
  unfold State.mirrorFreed
  repeat' split
  all_goals rfl

@[simp] theorem State.freeFrame_jrn (s : State) (d : Side) (f : Option FrameAt) : (s.freeFrame d f).jrn = s.jrn := by
  unfold State.freeFrame
  split
  · rw [State.mirrorFreed_jrn]; rfl
  · rfl

@[simp] theorem State.fullCheck_jrn (s : State) (d : Side) : (s.fullCheck d).jrn = s.jrn := by
  unfold State.fullCheck
  dsimp only
  split <;> rfl

@[simp] theorem State.coalRelease_jrn (s : State) (d : Side) (k : Nat) : (s.coalRelease d k).jrn = s.jrn := by
  unfold State.coalRelease
  dsimp only
  rw [State.fullCheck_jrn, State.newHalf_jrn]

@[simp] theorem State.releaseCopy_jrn (s : State) (h : Nat) : (s.releaseCopy h).jrn = s.jrn := by
  unfold State.releaseCopy
  simp

@[simp] theorem State.trimSpan_jrn (s : State) (h : Nat) : (s.trimSpan h).jrn = s.jrn := by
  unfold State.trimSpan
  dsimp only
  split <;> rfl

@[simp] theorem State.freeNow_jrn (s : State) (h : Nat) : (s.freeNow h).jrn = s.jrn := by
  unfold State.freeNow
  dsimp only
  rw [State.trimSpan_jrn]
  show (State.jrn _) = _
  split <;> simp [State.dropReqs, State.clearView, State.unchargeCtx]

@[simp] theorem State.releaseFrames_jrn (s : State) (h : Nat) : (s.releaseFrames h).jrn = s.jrn := by
  unfold State.releaseFrames
  simp [State.clearView]

@[simp] theorem State.releaseHeld_jrn (s : State) (d : Side) : (s.releaseHeld d).jrn = s.jrn := by
  unfold State.releaseHeld
  dsimp only
  rw [foldl_keeps State.jrn]
  intro t x
  exact State.freeFrame_jrn t d _

@[simp] theorem State.endUses_jrn (s : State) (hs : List Nat) : (s.endUses hs).jrn = s.jrn := by
  unfold State.endUses
  rw [State.releaseHeld_jrn, State.releaseHeld_jrn, foldl_keeps State.jrn]
  intro t h
  repeat' split
  all_goals simp

@[simp] theorem State.mirrorFreed_rings (s : State) (d : Side) (k : Nat) : (s.mirrorFreed d k).rings = s.rings := by
  unfold State.mirrorFreed
  repeat' split
  all_goals rfl

@[simp] theorem State.freeFrame_rings (s : State) (d : Side) (f : Option FrameAt) : (s.freeFrame d f).rings = s.rings := by
  unfold State.freeFrame
  split
  · rw [State.mirrorFreed_rings]; rfl
  · rfl

@[simp] theorem State.fullCheck_rings (s : State) (d : Side) : (s.fullCheck d).rings = s.rings := by
  unfold State.fullCheck
  dsimp only
  split <;> rfl

@[simp] theorem State.coalRelease_rings (s : State) (d : Side) (k : Nat) : (s.coalRelease d k).rings = s.rings := by
  unfold State.coalRelease
  dsimp only
  rw [State.fullCheck_rings, State.newHalf_rings]

@[simp] theorem State.releaseCopy_rings (s : State) (h : Nat) : (s.releaseCopy h).rings = s.rings := by
  unfold State.releaseCopy
  simp

@[simp] theorem State.trimSpan_rings (s : State) (h : Nat) : (s.trimSpan h).rings = s.rings := by
  unfold State.trimSpan
  dsimp only
  split <;> rfl

@[simp] theorem State.freeNow_rings (s : State) (h : Nat) : (s.freeNow h).rings = s.rings := by
  unfold State.freeNow
  dsimp only
  rw [State.trimSpan_rings]
  show (State.rings _) = _
  split <;> simp [State.dropReqs, State.clearView, State.unchargeCtx]

@[simp] theorem State.releaseFrames_rings (s : State) (h : Nat) : (s.releaseFrames h).rings = s.rings := by
  unfold State.releaseFrames
  simp [State.clearView]

@[simp] theorem State.releaseHeld_rings (s : State) (d : Side) : (s.releaseHeld d).rings = s.rings := by
  unfold State.releaseHeld
  dsimp only
  rw [foldl_keeps State.rings]
  intro t x
  exact State.freeFrame_rings t d _

@[simp] theorem State.endUses_rings (s : State) (hs : List Nat) : (s.endUses hs).rings = s.rings := by
  unfold State.endUses
  rw [State.releaseHeld_rings, State.releaseHeld_rings, foldl_keeps State.rings]
  intro t h
  repeat' split
  all_goals simp

/-- R85: what an instruction gives back touches neither records nor rings. -/
@[simp] theorem State.endUses_rec? (s : State) (hs : List Nat) (a : At) : (s.endUses hs).rec? a = s.rec? a := by
  apply State.rec?_congr
  exact State.endUses_jrn s hs

/-- R38-R40, R61, R407: what the completion of an issued record of a ring entry leaves in the record and in DST. -/
theorem State.finishRing_holds {s : State} {a : At} {r : JRec} {d : Done} (h : s.rec? a = some r) (hk : d.keepDst = false)
    (hst : d.status ≠ St.skipped) (hf : d.flow = .next) (hl : r.inst.dst < (s.ring a.ring).regs.length) :
    HoldsDone (s.finishRing r r.inst d) a r.inst.dst d.status d.result := by
  intro _
  have key := State.rec?_key h
  unfold State.finishRing
  dsimp only
  have hskip : ∀ t : State, t.skipOn r d = t := by intro t; unfold State.skipOn; rw [hf]
  rw [hskip]
  refine ⟨⟨s.doneRec r d, ?_, rfl, rfl, rfl⟩, fun h0 => ?_⟩
  · rw [State.rec?_setRing, State.rec?_congr (State.noteDone_jrn _ _ _ _)]
    refine State.rec?_setRec (r := r) ?_ (show r.site = a from State.rec?_site h)
    rw [State.rec?_congr (State.unname_jrn _ _), State.rec?_congr (State.writeDst_jrn _ _ _ _)]
    exact h
  rw [← key.1, State.ring_setRing_self]
  have hr : (((((s.writeDst r.ring r.inst d).unname r.names).setRec (s.doneRec r d)).noteDone r r.inst d)).ring r.ring
      = (s.ring r.ring).setReg r.inst.dst (if Status.success d.status then { val := d.result } else { val := 0, poison := true }) := by
    rw [← State.writeDst_ring s r.ring r.inst d hk hst h0]
    unfold State.ring
    rw [State.noteDone_rings, State.setRec_rings, State.unname_rings]
  rw [hr]
  have hg := Ring.congr_regs (Ring.noteFail_regs ((s.ring r.ring).setReg r.inst.dst
    (if Status.success d.status then { val := d.result } else { val := 0, poison := true })) r.inst d r.index) r.inst.dst
  have hv := Ring.setReg_val (s.ring r.ring) (if Status.success d.status then { val := d.result } else { val := 0, poison := true })
    h0 (by rw [key.1]; exact hl)
  rw [hg.1, hg.2.1, hg.2.2, hv.1, hv.2.1, hv.2.2]
  cases Status.success d.status <;> exact ⟨rfl, rfl, rfl⟩

@[simp] theorem State.countFailure_rec? (s : State) (st : Status) (a : At) : (s.countFailure st).rec? a = s.rec? a := by
  unfold State.countFailure
  repeat' split
  all_goals first | rfl | (unfold State.count; split <;> rfl)

@[simp] theorem State.countFailure_ring (s : State) (st : Status) (n : Nat) : (s.countFailure st).ring n = s.ring n := by
  unfold State.countFailure
  repeat' split
  all_goals first | rfl | (unfold State.count; split <;> rfl)

/-- R39: an instruction of a ring entry completes in its ring, and gives back what it used. -/
theorem State.finishAt_ring {s : State} {a : At} {r : JRec} (d : Done) (h : s.rec? a = some r) (hc : r.step = none) :
    s.finishAt a d = (s.finishRing r r.inst d).endUses r.uses := by
  unfold State.finishAt
  rw [h]
  dsimp only
  unfold State.finishRec
  rw [hc]
  rfl

/-- What HoldsDone says survives giving back what was used, and the notes of R444. -/
theorem HoldsDone.endUses {t : State} {a : At} {dst : Nat} {st : Status} {res : BitVec 64} (h : HoldsDone t a dst st res)
    (hs : List Nat) : HoldsDone (t.endUses hs).markFree a dst st res := by
  intro hn
  obtain ⟨⟨x, hx, h1, h2⟩, h3⟩ := h hn
  refine ⟨⟨x, State.rec?_markFree (by rw [State.endUses_rec?]; exact hx) (by rw [h1]; intro e; cases e), h1, h2⟩, ?_⟩
  have : (t.endUses hs).markFree.ring a.ring = t.ring a.ring := by
    rw [State.ring_markFree]
    unfold State.ring
    rw [State.endUses_rings]
  unfold HoldsDst
  rw [this]
  exact h3

/-- R38-R40, R61, R407: what the completion of an issued instruction of a ring entry leaves in its record and its DST. -/
theorem State.finish_holds {s : State} {a : At} {r : JRec} {d : Done} (h : s.rec? a = some r)
    (hk : d.keepDst = false) (hst : d.status ≠ St.skipped) (hf : d.flow = .next)
    (hl : r.inst.dst < (s.ring a.ring).regs.length) :
    HoldsDone (ended s a d) a r.inst.dst d.status d.result := by
  intro hn
  have h' : (s.countFailure d.status).rec? a = some r := by rw [State.countFailure_rec?]; exact h
  have hr : r.step = none := (State.rec?_key h).2.2.trans hn
  unfold ended State.finish
  rw [State.finishAt_ring d h' hr]
  exact (State.finishRing_holds h' hk hst hf (by rw [State.countFailure_ring]; exact hl)).endUses r.uses hn

end Machine
end Sys2Proof
end

