-- ==== Sys2Proof/Laws/Memory.lean ====
section
/-! SUPPORT. Laws of memory: a byte read after a write, and the canonical form that every write keeps. -/

namespace Sys2Proof
namespace Machine

theorem cellsAbove_cons {lo k : Nat} {v : BitVec 8} {r : List Host.Cell} :
    cellsAbove lo ((k, v) :: r) = true ↔ (lo ≤ k ∧ v ≠ 0) ∧ cellsAbove (k + 1) r = true := by
  simp only [cellsAbove, Bool.and_eq_true, decide_eq_true_eq]

/-- A weaker lower bound. -/
theorem cellsAbove_mono {lo lo' : Nat} (h : lo ≤ lo') : ∀ {cs : List Host.Cell}, cellsAbove lo' cs = true → cellsAbove lo cs = true
  | [], _ => rfl
  | (k, v) :: r, hc => by
    simp only [cellsAbove, Bool.and_eq_true, decide_eq_true_eq] at hc ⊢
    exact ⟨⟨Nat.le_trans h hc.1.1, hc.1.2⟩, hc.2⟩

/-- An address below every listed one reads zero. -/
theorem cellAt_below : ∀ {cs : List Host.Cell} {lo a : Nat}, cellsAbove lo cs = true → a < lo → cellAt cs a = 0
  | [], _, _, _, _ => rfl
  | (k, v) :: r, lo, a, hc, h => by
    simp only [cellsAbove, Bool.and_eq_true, decide_eq_true_eq] at hc
    have h1 : k ≠ a := by omega
    simp only [cellAt, h1, if_false]
    exact cellAt_below hc.2 (by omega)

theorem cellsAbove_putCell : ∀ {cs : List Host.Cell} {lo a : Nat} {b : Byte}, cellsAbove lo cs = true → lo ≤ a →
    cellsAbove lo (putCell cs a b) = true
  | [], lo, a, b, _, h => by
    unfold putCell
    split <;> simp_all [cellsAbove]
  | (k, v) :: r, lo, a, b, hc, h => by
    have hc' := hc
    simp only [cellsAbove, Bool.and_eq_true, decide_eq_true_eq] at hc
    unfold putCell
    split
    · next hk =>
      split
      · exact hc'
      · next hb => exact cellsAbove_cons.2 ⟨⟨h, hb⟩, cellsAbove_cons.2 ⟨⟨hk, hc.1.2⟩, hc.2⟩⟩
    · split
      · next h1 h2 =>
        subst h2
        split
        · exact cellsAbove_mono (by omega) hc.2
        · next hb => exact cellsAbove_cons.2 ⟨⟨h, hb⟩, hc.2⟩
      · next h1 h2 =>
        have hr := cellsAbove_putCell (b := b) hc.2 (a := a) (by omega)
        exact cellsAbove_cons.2 ⟨hc.1, hr⟩

theorem cellAt_putCell : ∀ {cs : List Host.Cell} {lo : Nat} (a : Nat) (b : Byte) (x : Nat), cellsAbove lo cs = true →
    cellAt (putCell cs a b) x = if x = a then b else cellAt cs x
  | [], lo, a, b, x, _ => by
    unfold putCell
    split
    · next h => simp [cellAt, h]
    · by_cases hx : x = a
      · simp [cellAt, hx]
      · have : a ≠ x := fun e => hx e.symm
        simp [cellAt, hx, this]
  | (k, v) :: r, lo, a, b, x, hc => by
    have hc' := hc
    simp only [cellsAbove, Bool.and_eq_true, decide_eq_true_eq] at hc
    unfold putCell
    split
    · next hk =>
      split
      · next hb =>
        split
        · next hx =>
          subst hx
          rw [hb]
          exact cellAt_below (lo := k) (cellsAbove_cons.2 ⟨⟨Nat.le_refl k, hc.1.2⟩, hc.2⟩) hk
        · rfl
      · by_cases hx : x = a
        · simp [cellAt, hx]
        · have : a ≠ x := fun e => hx e.symm
          simp [cellAt, hx, this]
    · split
      · next h1 h2 =>
        subst h2
        split
        · next hb =>
          split
          · next hx =>
            subst hx
            rw [hb]
            exact cellAt_below hc.2 (by omega)
          · next hx =>
            have : a ≠ x := fun e => hx e.symm
            simp [cellAt, this]
        · by_cases hx : x = a
          · simp [cellAt, hx]
          · have : a ≠ x := fun e => hx e.symm
            simp [cellAt, hx, this]
      · next h1 h2 =>
        by_cases hk : k = x
        · have hx : x ≠ a := by omega
          simp [cellAt, hk, hx]
        · simp only [cellAt, hk, if_false]
          exact cellAt_putCell a b x hc.2

theorem cellsAbove_putBytes : ∀ (bs : List Byte) {cs : List Host.Cell} {a : Nat}, cellsAbove 0 cs = true →
    cellsAbove 0 (putBytes cs a bs) = true
  | [], _, _, h => h
  | _ :: r, _, _, h => cellsAbove_putBytes r (cellsAbove_putCell h (Nat.zero_le _))

theorem cellAt_putBytes : ∀ (bs : List Byte) {cs : List Host.Cell} (a x : Nat), cellsAbove 0 cs = true →
    cellAt (putBytes cs a bs) x = if a ≤ x ∧ x < a + bs.length then bs.getD (x - a) 0 else cellAt cs x
  | [], cs, a, x, _ => by
    have : ¬ (a ≤ x ∧ x < a + ([] : List Byte).length) := by simp
    simp only [putBytes, this, if_false]
  | b :: r, cs, a, x, h => by
    have hp : cellsAbove 0 (putCell cs a b) = true := cellsAbove_putCell h (Nat.zero_le _)
    rw [putBytes, cellAt_putBytes r (a + 1) x hp]
    by_cases hx : x = a
    · subst hx
      have h1 : ¬ (x + 1 ≤ x ∧ x < x + 1 + r.length) := by omega
      have h2 : x ≤ x ∧ x < x + (b :: r).length := by simp
      rw [if_neg h1, if_pos h2, cellAt_putCell x b x h]
      simp
    · by_cases hin : a + 1 ≤ x ∧ x < a + 1 + r.length
      · have h2 : a ≤ x ∧ x < a + (b :: r).length := by simp only [List.length_cons]; omega
        rw [if_pos hin, if_pos h2]
        have : x - a = (x - (a + 1)) + 1 := by omega
        rw [this]
        simp
      · have h2 : ¬ (a ≤ x ∧ x < a + (b :: r).length) := by simp only [List.length_cons]; omega
        rw [if_neg hin, if_neg h2, cellAt_putCell a b x h, if_neg hx]

/-- Filtering keeps the canonical form. -/
theorem cellsAbove_filter (p : Host.Cell → Bool) : ∀ {cs : List Host.Cell} {lo : Nat}, cellsAbove lo cs = true →
    cellsAbove lo (cs.filter p) = true
  | [], _, _ => rfl
  | (k, v) :: r, lo, hc => by
    simp only [cellsAbove, Bool.and_eq_true, decide_eq_true_eq] at hc
    have hr := cellsAbove_filter p hc.2
    rw [List.filter_cons]
    split
    · exact cellsAbove_cons.2 ⟨hc.1, hr⟩
    · exact cellsAbove_mono (by omega) hr

/-! ### The operations of Mem -/

@[simp] theorem Mem.countWrites_cells (m : Mem) (xs : List Nat) : (m.countWrites xs).cells = m.cells := rfl

@[simp] theorem Mem.clearLines_cells (m : Mem) (ls : List Nat) : (m.clearLines ls).cells = m.cells := rfl

/-- R379: what a write makes of the cells. -/
theorem Mem.write_cells (m : Mem) (a : Nat) (bs : List Byte) : (m.write a bs).cells = putBytes m.cells a bs := rfl

theorem Mem.write_wf {m : Mem} (h : m.wf = true) (a : Nat) (bs : List Byte) : (m.write a bs).wf = true := by
  unfold Mem.wf
  rw [Mem.write_cells]
  exact cellsAbove_putBytes bs h

/-- A byte read after a write: the byte written within it, the old byte elsewhere. -/
theorem Mem.write_byte {m : Mem} (h : m.wf = true) (a : Nat) (bs : List Byte) (x : Nat) :
    (m.write a bs).byte x = if a ≤ x ∧ x < a + bs.length then bs.getD (x - a) 0 else m.byte x := by
  unfold Mem.byte
  rw [Mem.write_cells]
  exact cellAt_putBytes bs a x h

@[simp] theorem Mem.poisonLine_cells (m : Mem) (l : Nat) : (m.poisonLine l).cells = m.cells := rfl

theorem Mem.poisonLine_wf {m : Mem} (h : m.wf = true) (l : Nat) : (m.poisonLine l).wf = true := h

end Machine
end Sys2Proof
end

