-- ==== Sys2Proof/Machine/Tables.lean ====
section
/-! DEFINITION. The bytes of the tables that the part keeps in the Hearth reserve (R78-R82, R99, R101, R407) and of a frame that it
sends (R306-R309, R330), as their layouts give them. No command reads these bytes; the fields behind them are State's. -/

namespace Sys2Proof
namespace Machine

/-- R1: a number of n bytes, lowest first, by its fields with their lowest bits. -/
def packed (n : Nat) (fs : List (Nat × Nat)) : List Byte := leBytes n (fs.foldl (fun v f => v ||| f.2 <<< f.1) 0)

/-! ### Sequences and their page tables (R78, R80, R81) -/

/-- R78: the code of STATE. -/
def SeqState.code : SeqState → Nat
  | .free => 0
  | .live => 1
  | .destroying => 2
  | .truncating => 3

/-- R54, R78: the four hints. -/
def Hints.code (h : Hints) : Nat := b2n h.pin + 2 * b2n h.preferHot + 4 * b2n h.evictOk + 8 * b2n h.noDemote

/-- R80: LPAGES: page references held at a layer. -/
def Layer.lpages (l : Layer) : Nat := (l.ptes.vals.filter (·.v)).length

/-- R80: MISSING: entries marked DROPPED or LOST. -/
def Layer.missing (l : Layer) : Nat := (l.ptes.vals.filter (fun e => e.dropped || e.lost)).length

/-- R78: PAGES: page references held over all layers. -/
def Seq.pages (q : Seq) : Nat := q.layers.foldl (fun n l => n + l.lpages) 0

/-- R80: the number of a page-table block of a sequence: its layer, its level (0 the leaf) and its index at that level; 0 is the
layer directory. -/
def blockNo (layer level i : Nat) : Nat := 1 + i + 2 ^ 18 * (level + 4 * layer)

/-- R78, R80, R245: where block n of a sequence's tables stands: a 4 KiB aligned address, or, with DIRCOLD, the key of its table record. -/
def Seq.tableRef (q : Seq) (k n : Nat) : Nat :=
  match q.dirCold, q.tableRec with
  | true, some r => recordKey (seqHome k) r.1
  | _, _ => Config.tableAddr k n / 4096 * 4096

/-- R78: the 64 bytes of a sequence table entry. -/
def State.seqEntry (s : State) (k : Nat) : List Byte :=
  let q := s.seq k
  packed 8 [(0, q.state.code), (4, q.hints.code), (8, b2n q.dirCold), (16, q.ctx), (28, q.pslot), (36, q.gen.toNat)]
    ++ leBytes 8 (q.tableRef k 0) ++ leBytes 8 q.tokSrc ++ leBytes 4 q.tokCnt ++ leBytes 4 (s.minLen k)
    ++ leBytes 4 (s.maxLen k) ++ leBytes 4 q.pages ++ leBytes 4 q.inflight ++ leBytes 4 0 ++ leBytes 8 q.created.toNat
    ++ leBytes 8 0

/-- R81: a page-table entry as 64 bits. -/
def Pte.word (e : Pte) : Nat := e.handle % 2 ^ 38 + 2 ^ 38 * b2n e.v + 2 ^ 39 * b2n e.dropped + 2 ^ 40 * b2n e.lost

/-- R80, R245: an interior entry, or the ROOT's V, COLD and address, of a block: V once the block holds an entry; the key of a table
record stands from bit 12 on. -/
def Seq.blockRef (q : Seq) (k layer level i : Nat) (used : Bool) (shift : Nat) : Nat :=
  let r := q.tableRef k (blockNo layer level i)
  if used then 1 + 2 * b2n q.dirCold + shift + (if q.dirCold && q.tableRec.isSome then 4096 * r else r) else 0

/-- R80: the 512 entries of a block: at the leaf page-table entries, above it entries for the blocks below. -/
def Seq.block (q : Seq) (k layer level i : Nat) : List Byte :=
  let l := q.layers.getD layer {}
  (List.range 512).flatMap (fun j =>
    let n := 512 * i + j
    leBytes 8 (match level with
      | 0 => (l.ptes.lookD n {}).word
      | v + 1 => q.blockRef k layer v n (l.ptes.keys.any (fun p => p / 512 ^ (v + 1) == n)) 0))

/-- R80: the 64 bytes of a layer's descriptor of the sequence with key k; OPEN names a page only while it is
open and its entry still holds it. -/
def State.descriptor (s : State) (k layer : Nat) : List Byte :=
  let q := s.seq k
  let l := q.layers.getD layer {}
  let e := s.pte k layer ((l.length - 1) / 16)
  let isOpen := l.length != 0 && e.v && e.handle == l.openH && (s.page l.openH).life == .opened
  leBytes 4 l.length ++ leBytes 4 l.basePg
    ++ leBytes 8 (q.blockRef k layer (l.depth - 1) 0 (!l.ptes.isEmpty) (4 * l.depth))
    ++ leBytes 8 (if isOpen then l.openH else 0) ++ leBytes 4 l.lpages ++ leBytes 4 l.missing ++ leBytes 32 0

/-! ### Pages and rows (R82, R99, R101) -/

/-- R82: the code of LIFE. -/
def Life.code : Life → Nat
  | .free => 0
  | .opened => 1
  | .sealed => 2
  | .dropped => 3
  | .lost => 4

/-- R199: the code of RES. -/
def Res.code : Res → Nat
  | .absent => 0
  | .hot => 1
  | .clean => 2
  | .cold => 3
  | .demoting => 4
  | .promoting => 5

/-- R82: the code of SCOPE. -/
def scopeCode : Option Scope → Nat
  | none => 0
  | some .context => 1
  | some .domain => 2
  | some .global => 3

/-- R82: a frame number. -/
def frameNo (d : Side) : Option FrameAt → Nat
  | none => 0xFFFFFFFF
  | some f => Config.regionBase d.num f.stack f.region + f.slot * f.kib

/-- R82: the 32 bytes of a handle table entry; PRIMARY of a resident page, MIRROR of an open one. -/
def Page.bytes (p : Page) (d : Side) : List Byte :=
  packed 8 [(0, p.life.code), (3, p.res.code), (6, b2n p.promotePending), (7, b2n p.persistent), (8, p.epoch.toNat),
      (10, scopeCode p.scope), (12, p.ctx % 4096), (24, p.refcnt), (48, p.pslot)]
    ++ packed 8 [(0, p.layer), (16, p.fill)] ++ leBytes 4 (frameNo d (if p.resident then p.primary else none))
    ++ leBytes 4 (frameNo d (if p.life == .opened then p.mirror else none))
    ++ leBytes 8 p.chain.toNat

/-- R99: a row record. -/
def RowRec.bytes (r : RowRec) : List Byte :=
  leBytes 8 r.chain0.toNat ++ leBytes 2 r.pubCtx ++ leBytes 2 r.layers ++ leBytes 4 r.profile ++ leBytes 4 r.lpage ++ leBytes 4 0
    ++ leBytes 8 r.published.toNat ++ r.tokens.flatMap (fun t => leBytes 4 t.toNat) ++ r.handles.flatMap (leBytes 8)

/-- R101: SCOPE of a prefix table entry, one-hot. -/
def scopeHot : Scope → Nat
  | .context => 1
  | .domain => 2
  | .global => 4

/-- R101: the 32 bytes of the prefix table entry of an index: ROW is the address of its row record's frame. Of a slot that holds no entry
ROOT is set and every other field but GEN is zero, the model's choice (log 136). -/
def State.pfxBytes (s : State) (i : Nat) : List Byte :=
  let e := s.pfx i
  leBytes 8 e.chain.toNat
    ++ packed 8 [(0, e.vctx % 4096), (12, e.vdom), (24, scopeHot e.scope), (27, b2n e.nopub), (32, e.prio.toNat), (40, b2n e.v),
      (41, b2n e.withdrawing), (42, b2n e.inDomino), (43, b2n e.persistent), (44, e.hits.toNat), (48, e.gen.toNat)]
    ++ leBytes 8 (match e.row.frame with
      | some (d, f) => 1024 * frameNo d (some f)
      | none => 0)
    ++ (match e.parent with
      | none => leBytes 8 (2 ^ 63)
      | some (p, g) => packed 8 [(0, p), (28, g.toNat)])

/-! ### The journal (R407) -/

/-- R407: the code of STATE. -/
def JState.code : JState → Nat
  | .accepted => 1
  | .issued => 2
  | .done => 3

/-- R407: the 64 bytes of a journal record. -/
def JRec.bytes (r : JRec) : List Byte :=
  leBytes 32 r.desc.toNat ++ leBytes 4 r.index.toNat ++ leBytes 2 r.ring ++ packed 2 [(0, r.ctx), (12, r.state.code)]
    ++ leBytes 1 r.status.toNat ++ leBytes 1 r.cflags.toNat ++ leBytes 2 0 ++ leBytes 4 r.detail.toNat
    ++ leBytes 8 r.result.toNat ++ leBytes 8 r.time.toNat

/-- R407: the 64 bytes of each of the 524,288 slots of a journal copy; a FREE slot is zero. -/
def Journal.copy (j : Journal) : List Byte :=
  (List.range 524288).flatMap (fun i => match j.recs.find? (fun r => r.slot == i) with
    | some r => r.bytes
    | none => leBytes 64 0)

/-- R416: the 64-byte seal that follows a flushed copy: the slot count, a CRC-32C over the copy, the time base (log 129). -/
def State.journalSeal (s : State) : List Byte :=
  leBytes 4 524288 ++ leBytes 4 (crc32c s.jrn.copy).toNat ++ leBytes 8 s.now.toNat ++ leBytes 48 0

/-! ### Frames (R306-R309, R330) -/

/-- R306: bytes as the Ethernet, IP and UDP standards order them: highest first. -/
def beBytes (n v : Nat) : List Byte := (leBytes n v).reverse

/-- R308: the 32 bytes of the Flue header. -/
def packetHeader (k : Packet) : List Byte :=
  packed 1 [(0, k.version.toNat), (4, k.type.toNat)] ++ [k.flags] ++ leBytes 2 k.conn.toNat ++ leBytes 4 k.msgSeq.toNat
    ++ leBytes 2 k.pktIdx.toNat ++ leBytes 2 k.pktCnt.toNat ++ leBytes 4 k.rkey.toNat ++ leBytes 8 k.raddr.toNat
    ++ [k.alive, k.cls] ++ leBytes 2 k.plen.toNat ++ leBytes 2 k.path.toNat ++ leBytes 2 k.rsv.toNat

/-- R306: the message trailer is present: the last packet of a DATA message. -/
def packetLast (k : Packet) : Bool := k.type == 1 && k.pktIdx.toNat + 1 == k.pktCnt.toNat

/-- R306, R330: the Flue header and everything after it but the ICV and the FCS; on a SEALED connection the payload and the trailer
are encrypted under the part-to-peer key and salt of R397, with the header, the time stamp and the seal prefix authenticated, and the 16-byte tag follows. -/
def packetBytes (k : Packet) (keys : BitVec 576) : List Byte :=
  let isSealed := k.flags.getLsbD 3
  let front := packetHeader k ++ (if k.flags.getLsbD 2 then leBytes 8 k.ts.toNat else [])
    ++ (if isSealed then leBytes 8 k.ctr.toNat else [])
  let plain := k.payload ++ (if packetLast k then leBytes 4 k.trailer.toNat else [])
  if isSealed then
    let n := plain.length + 16
    front ++ (Config.aead (keys.setWidth 256) (leBytes 4 (bits keys.toNat 512 32) ++ leBytes 8 k.ctr.toNat ++ front ++ plain)
      ++ List.replicate n 0).take n
  else front ++ plain

/-- R307: the one's complement sum of 16-bit words, which the IP checksums complement. -/
def sum16 : List Byte → Nat
  | a :: b :: r =>
    let n := 256 * a.toNat + b.toNat + sum16 r
    n % 65536 + n / 65536
  | [a] => 256 * a.toNat
  | [] => 0

/-- R307: a checksum over bytes. -/
def checksum (bs : List Byte) : Nat := 65535 - sum16 bs

/-- R307: the DSCP and ECN of a frame: its class, and ECT(0). -/
def tosOf (cls : Nat) : Nat := 4 * (cls % 64) + 2

/-- R307: the UDP header and its payload, with the checksum given. -/
def State.udp (s : State) (k : Packet) (sum : Nat) (body : List Byte) : List Byte :=
  let f := s.flu.encap.toNat
  beBytes 2 ((bits f 32 16 + k.path.toNat) % 65536) ++ beBytes 2 (bits f 16 16) ++ beBytes 2 (8 + body.length) ++ beBytes 2 sum ++ body

/-- R307: IPv4 over UDP: TTL 64, a header checksum, a UDP checksum of 0. -/
def State.ip4 (s : State) (k : Packet) (cls : Nat) (dst : BitVec 128) (body : List Byte) : List Byte :=
  let u := s.udp k 0 body
  let head (sum : Nat) : List Byte := beBytes 2 (0x4500 + tosOf cls) ++ beBytes 2 (20 + u.length) ++ beBytes 4 0
    ++ beBytes 2 0x4011 ++ beBytes 2 sum ++ beBytes 4 s.flu.ip4.toNat ++ beBytes 4 (dst.toNat % 2 ^ 32)
  head (checksum (head 0)) ++ u

/-- R307: IPv6 over UDP: hop limit 64, a UDP checksum over the pseudo-header. -/
def State.ip6 (s : State) (k : Packet) (cls : Nat) (dst : BitVec 128) (body : List Byte) : List Byte :=
  let addrs := beBytes 16 s.flu.ip6.toNat ++ beBytes 16 dst.toNat
  let n := 8 + body.length
  let sum := checksum (addrs ++ beBytes 4 n ++ beBytes 4 17 ++ s.udp k 0 body)
  beBytes 4 (0x60000000 + tosOf cls * 2 ^ 20) ++ beBytes 2 n ++ beBytes 2 0x1140 ++ addrs
    ++ s.udp k (if sum = 0 then 65535 else sum) body

/-- R331: the 16-byte SecTAG: EtherType, TCI with the SCI present and the frame encrypted, the short length, the low half of the packet
number, the SCI (the port's station address and port identifier 1); IEEE 802.1AE gives them (log 129). -/
def secTagBytes (x : PortState) (pn : BitVec 64) (n : Nat) : List Byte :=
  beBytes 2 0x88E5 ++ [0x2C, BitVec.ofNat 8 (if n < 48 then n else 0)] ++ beBytes 4 (pn.toNat % 2 ^ 32) ++ beBytes 6 x.mac.toNat ++ beBytes 2 1

/-- R331: the SecTAG, and what follows it encrypted from its first byte, with the 16-byte ICV. -/
def macsecPart (x : PortState) (p : Side) (sa : Nat × BitVec 64) (addrs net : List Byte) : List Byte :=
  let tag := secTagBytes x sa.2 net.length
  tag ++ (List.range (net.length + 16)).map (Config.macsec p.num sa.1 sa.2 (addrs ++ tag) net)

/-- R306: a frame padded to Ethernet's least, with its 4-byte FCS. -/
def withFcs (frame : List Byte) : List Byte :=
  let f := frame ++ List.replicate (60 - frame.length) 0
  f ++ (List.range 4).map (Config.fcs f)

/-- R306: the bytes of a Flue frame that a port sends: Ethernet, 802.1Q, MACsec, IP and UDP, Flue, in the table's order. -/
def State.frameOf (s : State) (p : Side) (f : TxFrame) (k : Packet) : List Byte :=
  let x := s.flu.port.get p
  let body := packetBytes k f.keys
  let net := if k.encap = 1 then beBytes 2 0x0800 ++ s.ip4 k f.cls f.dstIp body
    else if k.encap = 2 then beBytes 2 0x86DD ++ s.ip6 k f.cls f.dstIp body
    else beBytes 2 (bits s.flu.encap.toNat 0 16) ++ body
  let tag := match k.vid with
    | none => []
    | some v => beBytes 2 0x8100 ++ beBytes 2 (s.prioOf f.cls * 2 ^ 13 + v.toNat)
  let addrs := beBytes 6 f.dstMac.toNat ++ beBytes 6 x.mac.toNat ++ tag
  withFcs (addrs ++ (match f.sa with
    | some sa => macsecPart x p sa addrs net
    | none => net))

/-- R331, R348: the bytes of a MACsec key agreement frame that a port sends. -/
def State.mkaBytes (s : State) (p : Side) (f : TxFrame) : List Byte :=
  withFcs (beBytes 6 f.dstMac.toNat ++ beBytes 6 (s.flu.port.get p).mac.toNat ++ beBytes 2 0x888E ++ f.mka.getD [])

end Machine
end Sys2Proof
end

