-- ==== Sys2Proof/Machine/Crypt.lean ====
section
/-! DEFINITION. What lies in the Hearth tier and in the Coal store under encryption (R379, R380, R383, R384, R393): owner keys,
counter blocks, ciphertext and MAC of a line, the record keys, ciphertext and tag of a Coal record. State holds the plaintext; no
command reads these bytes (R374). -/

namespace Sys2Proof
namespace Machine

/-! ### Owner keys (R372, R380) -/

/-- R372: which key of a key set. -/
inductive KeyUse where
  | hearth | hash | coal
deriving DecidableEq, Repr

/-- R372: the place of a key in its set. -/
def KeyUse.num : KeyUse → Nat
  | .hearth => 0
  | .hash => 1
  | .coal => 2

/-- R372, R386: a key of a context at an epoch; none once it is destroyed. -/
def State.ctxKey (s : State) (c : Nat) (e : BitVec 2) (u : KeyUse) : Option (BitVec 256) :=
  ((s.ctx c).keySet.look e.toNat).map (fun n => Config.setKey n u.num)

/-- R380: the persistent page key, under the label "pages" (5), while the persistent root is held. -/
def State.persistKey (s : State) (u : KeyUse) : Option (BitVec 256) :=
  s.sec.persistRoot.map (fun r => (Config.kmac 5 (r.setWidth 512) (BitVec.ofNat 512 u.num)).setWidth 256)

/-- R380: the weight Hearth key of an object, under the label "hearth" (6), over its handle. -/
def WObj.hearthKey (w : WObj) (k : Nat) (u : KeyUse) : Option (BitVec 256) :=
  w.key.map (fun m => (Config.kmac 6 (m.setWidth 512) (BitVec.ofNat 512 (objHandle k w.gen + 2 ^ 40 * u.num))).setWidth 256)

/-- R379, R380: what a line of the object range belongs to. -/
inductive Owner where
  /-- R380: context space or a session-class frame: a context at an epoch. -/
  | ctx (c : Nat) (e : BitVec 2)
  /-- R380: a persistent-class frame of a context. -/
  | persist (c : Nat)
  /-- R380: a resident weight chunk of an object. -/
  | weight (k : Nat)
  /-- R380: a free frame, or the reserve. -/
  | reserve
deriving DecidableEq, Repr

/-- R380: the owner of a line. -/
def State.lineOwner (s : State) (l : Nat) : Owner :=
  if 64 * l < ctxSpaceEnd then
    match s.granuleCtx (64 * l / granule) with
    | some c => .ctx c (s.mem.blkEpoch.lookD (l / 1024) 0)
    | none => .reserve
  else
    match s.lineHolder l with
    | none => .reserve
    | some h =>
      let p := s.page h
      match p.chunk with
      | some (k, _) => .weight k
      | none => if p.persistent then .persist p.ctx else .ctx p.ctx p.epoch

/-- R380: an owner's key. -/
def State.ownerKey (s : State) (o : Owner) (u : KeyUse) : Option (BitVec 256) :=
  match o with
  | .ctx c e => s.ctxKey c e u
  | .persist _ => s.persistKey u
  | .weight k => (s.wobj k).hearthKey k u
  | .reserve => some (Config.setKey s.sec.reserveKey u.num)

/-- R379: the context and the epoch that an owner's MAC covers. -/
def Owner.stamp : Owner → Nat × Nat
  | .ctx c e => (c, e.toNat)
  | .persist c => (c, 0)
  | .weight _ => (0, 0)
  | .reserve => (0, 0)

/-- R378, R380: the owner of the lines of a Firebox's overflow area: the context that wrote them last, at its present epoch. -/
def State.overflowOwner (s : State) (d : Side) (fbx : Nat) : Owner :=
  match (s.eng.get d).overflow.look fbx with
  | some c => .ctx c (s.ctx c).present
  | none => .reserve

/-- R384: the owner's memory uses the AK-410-compatible mode: its XTS key, the imported one at epoch 0, else one of the epoch's key set (log
132). -/
def State.xtsKey (s : State) (o : Owner) : Option (BitVec 512) :=
  match o with
  | .ctx c e =>
    let drawn := ((s.ctx c).keySet.look e.toNat).map (fun n => Config.setKey n 0 ++ Config.setKey n 1)
    if !((s.ctx c).rights.getLsbD 5) then none
    else if e = 0 && (s.ctx c).compatKey.isSome then (s.ctx c).compatKey
    else drawn
  | _ => none

/-! ### A line of the Hearth tier (R379, R384) -/

/-- R379: a line in a stack: the stack (W0 to W9 as 0 to 9, E0 to E9 as 10 to 19), its number there, and the place under which its counters
are kept. -/
structure LineAt where
  /-- R379: stack. -/
  stack : Nat
  /-- R379: line number within its stack. -/
  line : Nat
  /-- R194, R381: its place (FrameAt.place). -/
  place : Nat
deriving DecidableEq, Repr

/-- R194: the line at an offset in bytes of a frame. -/
def lineIn (d : Side) (f : FrameAt) (off : Nat) : LineAt :=
  { stack := 10 * d.num + f.stack, line := (frameNo d (some f) * 1024 + off) / 64, place := f.place d off }

/-- R189, R191, R196: where a line of the object range lies: its granule, its page's primary frame, or its mirror; none where no frame
holds it. -/
def State.lineAt (s : State) (l : Nat) (mirror : Bool := false) : Option LineAt :=
  let a := 64 * l
  if a < ctxSpaceEnd then
    if mirror then none else (s.mem.granules.look (a / granule)).map (fun g => lineIn g.2.1 g.2.2 (a % granule))
  else (s.lineHolder l).bind (fun h =>
    (if mirror then (s.page h).mirror else (s.page h).primary).map (fun f => lineIn (pageDie h) f (a - viewBase h)))

/-- R379: the counter block of block i of a line. -/
def counterBlock (i : Nat) (x : LineAt) (minor major : Nat) : BitVec 128 :=
  BitVec.ofNat 128 (i + 4 * x.line + 2 ^ 32 * x.stack + 2 ^ 37 * minor + 2 ^ 45 * (major % 2 ^ 62))

/-- R379: MINOR of a line. -/
def Mem.minorOf (m : Mem) (x : LineAt) : Nat := m.minor.lookD x.place 0

/-- R379: MAJOR of the 64 KiB block of a line. -/
def Mem.majorOf (m : Mem) (x : LineAt) : Nat := m.major.lookD (x.place / 1024) 0

/-- R379: the 8 bytes of the counter-table entry of a line's block: MAJOR, and for a block of context space its epoch. -/
def State.counterEntry (s : State) (l : Nat) (x : LineAt) : BitVec 64 :=
  BitVec.ofNat 64 (s.mem.majorOf x % 2 ^ 62 + 2 ^ 62 * (if 64 * l < ctxSpaceEnd then (s.mem.blkEpoch.lookD (l / 1024) 0).toNat else 0))

/-- R379: the 64 bytes of keystream of a line. -/
def keystream (key : BitVec 256) (x : LineAt) (minor major : Nat) : List Byte :=
  (List.range 4).flatMap (fun i => leBytes 16 (Config.aesBlock key (counterBlock i x minor major)).toNat)

/-- R384: the tweak of a line in the compatible mode: bits [36:2] of its counter block. -/
def lineTweak (x : LineAt) : Nat := x.line % 2 ^ 30 + 2 ^ 30 * x.stack

/-- R379, R384: 64 bytes as they lie at a line of a stack under an owner's key: of an object, of a Firebox's overflow area or of the
reserve; none where the key is destroyed. -/
def State.lineSealed (s : State) (o : Owner) (x : LineAt) (plain : List Byte) : Option (List Byte) :=
  match s.xtsKey o, s.ownerKey o .hearth with
  | some k, _ => some (Config.xts k (lineTweak x) plain)
  | none, some k => some (xorBytes plain (keystream k x (s.mem.minorOf x) (s.mem.majorOf x)))
  | none, none => none

/-- R379, R384: a line of the object range as it lies in its stack, or as its mirror does; none where no frame holds it. -/
def State.lineStored (s : State) (l : Nat) (mirror : Bool := false) : Option (List Byte) :=
  (s.lineAt l mirror).bind (fun x => s.lineSealed (s.lineOwner l) x (s.peek (64 * l) 64))

/-- R379 step 1: the 16-byte block that the MAC covers beside the ciphertext (its packing is the model's, log 132). -/
def macBlock (x : LineAt) (minor major : Nat) (stamp : Nat × Nat) : List Byte :=
  leBytes 16 (x.line + 2 ^ 30 * x.stack + 2 ^ 35 * (major % 2 ^ 62) + 2 ^ 97 * minor + 2 ^ 105 * stamp.1 + 2 ^ 117 * stamp.2)

/-- R379: the 56-bit MAC of the 64 stored bytes of a line under an owner's keys. -/
def State.macOf (s : State) (o : Owner) (x : LineAt) (stored : List Byte) : Option (BitVec 56) :=
  match s.ownerKey o .hearth, s.ownerKey o .hash with
  | some k, some g =>
    let mi := s.mem.minorOf x
    let ma := s.mem.majorOf x
    let h := Config.ghash (g.setWidth 128) (stored ++ macBlock x mi ma o.stamp)
    some ((h ^^^ Config.aesBlock k (counterBlock 0 x mi ma ||| 1 <<< 127)).setWidth 56)
  | _, _ => none

/-- R379, R384: the MAC of a line of the object range; none for a line of the compatible mode, which carries none. -/
def State.lineMac (s : State) (l : Nat) (mirror : Bool := false) : Option (BitVec 56) :=
  match s.lineAt l mirror, s.xtsKey (s.lineOwner l), s.lineStored l mirror with
  | some x, none, some c => s.macOf (s.lineOwner l) x c
  | _, _, _ => none

/-- R380: the MAC of a line of the counter table, which is stored without encryption: under the reserve key. -/
def State.counterMac (s : State) (x : LineAt) (entries : List (BitVec 64)) : Option (BitVec 56) :=
  s.macOf .reserve x (entries.flatMap (fun e => leBytes 8 e.toNat))

/-! ### A record of the Coal store (R383, R384, R393) -/

/-- R383: the 12-byte salt of a DRBG output. -/
def saltBytes (n : Nat) : List Byte := leBytes 12 (Config.drbg n).toNat

/-- R383: the additional authenticated data of a record: its salt, and KEY, LEN, RFLAGS and CONTEXT of its row-table entry. -/
def RowEnt.aad (e : RowEnt) : List Byte :=
  saltBytes e.salt ++ leBytes 5 e.key ++ leBytes 1 (e.kib - 1) ++ leBytes 1 (b2n e.persist + 2 * e.epoch.toNat)
    ++ leBytes 2 (e.ctx % 4096)

/-- R383: the owner key of a record. -/
def State.recordOwner (s : State) (e : RowEnt) : Option (BitVec 256) :=
  if e.persist then s.persistKey .coal else s.ctxKey e.ctx e.epoch .coal

/-- R383: the record key, under the label "rec" (7), of the owner key and the salt. -/
def recordCipherKey (owner : BitVec 256) (salt : Nat) : BitVec 256 :=
  (Config.kmac 7 (owner.setWidth 512) (BitVec.ofNat 512 (ofBytes (saltBytes salt)))).setWidth 256

/-- R383: where the salt lies in a record: in a page's frame, or in a table record. -/
def RowEnt.saltAt (e : RowEnt) : Nat := if e.key < 2 ^ 38 then 100 else 32

/-- R383: a record as it is stored, with its tag: all but the salt's place encrypted, the salt in plaintext (log 132). -/
def RowEnt.sealed (e : RowEnt) (owner : BitVec 256) (plain : List Byte) : List Byte × List Byte :=
  let key := recordCipherKey owner e.salt
  let body := Config.gcm key e.aad (plain.take e.saltAt ++ plain.drop (e.saltAt + 12))
  let n := plain.length - 12
  ((body.take n).take e.saltAt ++ saltBytes e.salt ++ (body.take n).drop e.saltAt, body.drop n)

/-- R384: a record of the compatible mode: each 1 KiB a data unit, the tweak its handle and the unit's index; TAG is zero. -/
def RowEnt.compat (e : RowEnt) (key : BitVec 512) (plain : List Byte) : List Byte × List Byte :=
  ((List.range e.kib).flatMap (fun i => Config.xts key (e.key + 2 ^ 64 * i) ((plain.drop (1024 * i)).take 1024)), leBytes 16 0)

/-- R202, R245: the bytes of the tables of a sequence as one record: the layer directory, the blocks of each layer from the leaves up, the handle
entries that leave with them (their order is the model's, log 132). -/
def State.tableBytes (s : State) (k : Nat) : List Byte :=
  let q := s.seq k
  let padded (bs : List Byte) : List Byte := bs ++ List.replicate (4096 * ceilDiv bs.length 4096 - bs.length) 0
  padded ((List.range q.layers.length).flatMap (s.descriptor k))
    ++ (List.range q.layers.length).flatMap (fun n =>
      let l := q.layers.getD n {}
      (List.range l.depth).flatMap (fun v =>
        ((l.ptes.keys.map (fun p => p / 512 ^ (v + 1))).foldl insNat []).flatMap (fun i => q.block k n v i)))
    ++ (s.awayPages { q with dirCold := true }).flatMap (fun h => (s.page h).bytes (pageDie h))

/-- R120: the bytes of a record of the persistent catalogue: the row record, PRIO, and CHAIN0 and LPAGE of the parent or the ROOT mark (their
order is the model's, log 132). -/
def CatRec.bytes (c : CatRec) : List Byte :=
  c.row.bytes ++ leBytes 1 c.prio.toNat ++ (match c.parent with
    | some (x, n) => leBytes 8 x.toNat ++ leBytes 8 n
    | none => leBytes 8 0 ++ leBytes 8 (2 ^ 64 - 1))

/-- R245: the plaintext of a table record's chunk by its key. -/
def State.tablePlain (s : State) (e : RowEnt) : List Byte :=
  let bytes := match s.seqs.find? (fun q => match q.2.tableRec with
      | some (n, c) => decide (recordKey (seqHome q.1) n ≤ e.key) && decide (e.key < recordKey (seqHome q.1) (n + c))
      | none => false) with
    | some (k, q) => (s.tableBytes k).drop (65536 * (e.key - recordKey (seqHome k) (q.tableRec.getD (0, 0)).1))
    | none => match s.dom.catalogue.find? (fun c => c.key == e.key) with
      | some c => c.bytes
      | none => []
  (bytes ++ List.replicate (1024 * e.kib) 0).take (1024 * e.kib)

/-- R383, R384, R393: a record and its tag as a row holds them: a chunk's as its owner sealed it, a page's or a table's sealed here;
none where its key is destroyed. -/
def State.recordStored (s : State) (e : RowEnt) : Option (List Byte × List Byte) :=
  let plain := if e.key < 2 ^ 38 then s.peek (viewBase e.key) (1024 * e.kib) else s.tablePlain e
  match (s.page e.key).chunk, s.recordOwner e with
  | some (k, i), _ =>
    some ((s.wobj k).cipher.lookD i [], leBytes 16 (chunkTag (s.wobj k) (s.page e.key).layer (s.chunkNo e.key)).toNat)
  | none, owner =>
    match s.xtsKey (.ctx e.ctx e.epoch), owner with
    | some k, _ => some (e.compat k plain)
    | none, some o => some (e.sealed o plain)
    | none, none => none

/-- R236 to R239, R383: the data of a row of superblock k that holds these records. -/
def State.rowStored (s : State) (d : Side) (k : Nat) (es : List RowEnt) : List Byte :=
  rowBytes ((s.coal.half.get d).sb k).dataKib (es.map (fun e =>
    let r := (s.recordStored e).getD ([], [])
    (e, r.1, r.2)))

end Machine
end Sys2Proof
end

