-- ==== Sys2Proof/Machine/View.lean ====
section
/-! DEFINITION. What a read of a register returns (R496-R518 and the register tables of every block), by block, and to which LD
(R502, R453). The table of commands has no plain register read; TEL_UTIL_BUSY_READ is the one read that changes the state. -/

namespace Sys2Proof
namespace Machine

/-- A register made of its fields, each with its lowest bit. -/
def fields (fs : List (Nat × Nat)) : Nat := (fs.foldl (fun n f => n ||| f.2 <<< f.1) 0) % 2 ^ 64

/-- A flag's field. -/
def flagAt (lo : Nat) (b : Bool) : Nat × Nat := (lo, b2n b)

/-- Two 32-bit fields, West below East. -/
def halves (f : Side → Nat) : Nat := fields [(0, f .west % 2 ^ 32), (32, f .east % 2 ^ 32)]

/-- R496: bytes of BAR0, BAR2 and BAR4 of each LD function. -/
def barBytes : Nat → Nat
  | 0 => 67108864
  | 2 => 524288
  | 4 => 4194304
  | _ => 0

/-! ### GBL (R504-R508) -/

/-- R506: GBL_STATUS as an LD reads it. -/
def State.gblStatus (s : State) (ld : Ld) : Nat :=
  let g := s.gbl
  fields [flagAt 0 g.fwReady, flagAt 1 g.held, flagAt 2 g.journalFail, flagAt 3 g.stackFail, flagAt 4 g.overbooked,
    flagAt 5 g.powerHold, flagAt 6 (!g.windows.isEmpty), flagAt 7 (!g.rlog.isEmpty), flagAt 8 (s.manager ld)]

/-- R504: failed stacks of a die, one bit each. -/
def State.stackBits (s : State) (d : Side) : Nat := (s.drt.failed.get d).foldl (fun n k => n ||| 2 ^ k) 0

/-- R422, R504: journal slots in service. -/
def State.slotsInService (s : State) : Nat := 16384 * (32 - s.jrn.lostBanks.length)

/-- R504-R508: the GBL registers. -/
def State.readGbl (s : State) (ld : Ld) (off : Nat) : Nat :=
  let g := s.gbl
  match off with
  | 0x00 => fields [(0, 0x0960), (16, g.stepping.toNat)]
  | 0x08 => fields [(4, g.perstHead.num)]
  | 0x10 => s.gblStatus ld
  | 0x18 => fields [(0, g.fault.toNat), (32, g.faultCount.toNat)]
  | 0x20 => g.faultVec.toNat
  | 0x28 => fields [(0, s.stackBits .west), (16, s.stackBits .east)]
  | 0x30 => fields [(0, s.jrn.recs.length), (32, s.slotsInService)]
  | _ =>
    if 0x100 ≤ off && off < 0x300 then
      let c := (off - 0x100) / 8
      fields [(0, s.weight c), (8, g.bounds.lookD c 0)]
    else 0

/-! ### SEC (R405, R406) -/

/-- R406: the SEC registers. -/
def State.readSec (s : State) (off : Nat) : Nat :=
  let x := s.sec
  match off with
  | 0x00 => fields [(0, lcsCode x.lcs), flagAt 3 x.confidential, flagAt 4 x.debugOpen, flagAt 5 x.debugOpened,
      flagAt 6 x.persistRoot.isSome, flagAt 7 x.entropyFail, flagAt 8 (s.ctxs.vals.any (·.sweeping))]
  | 0x08 => fields [(0, x.svn), (8, x.fuseSvn), flagAt 15 x.fwPending]
  | _ => 0

/-! ### RING (R509-R514) -/

/-- R514: the code of REASON. -/
def Reason.code : Reason → Nat
  | .none => 0
  | .disabled => 1
  | .halted => 2
  | .ctxNotActive => 3
  | .cfgErr => 4
  | .notAdmitted => 5

/-- R514: RING_STATUS. -/
def Ring.status (g : Ring) : Nat :=
  fields [(0, g.reason.code), flagAt 4 g.dbErr, flagAt 5 g.cqLost, flagAt 6 g.draining, flagAt 7 g.waiting,
    flagAt 8 g.irqUnbound]

/-- R509: RING_DEADLINE: 0 without a booking. -/
def Ring.deadline (g : Ring) : Nat :=
  match g.booking with
  | none => 0
  | some b => fields [(0, b.demand.period), (32, b.demand.issue)]

/-- R509: the 64 bits of a ring window at a multiple of 8; `hide`: R502 keeps the indices from this reader. -/
def Ring.window64 (g : Ring) (hide : Bool) (off : Nat) : Nat :=
  let idx (x : BitVec 32) : Nat := if hide then 0 else x.toNat
  match off with
  | 0x00 => fields [flagAt 0 g.en, flagAt 1 g.irqEn, (2, g.home.num), (32, g.ctx.toNat)]
  | 0x08 => g.base.toNat
  | 0x10 => g.cqBase.toNat
  | 0x18 => fields [(0, g.size.toNat), (32, g.cqSize.toNat)]
  | 0x20 => fields [(0, g.cls.toNat), (32, g.status)]
  | 0x28 => g.deadline
  | 0x30 => fields [(0, idx g.aidx), (32, idx g.cidx)]
  | 0x38 => fields [(0, idx g.cqPi), (32, g.msix.toNat)]
  | _ => 0

/-- R502: the RING window of ring n, at a multiple of 8. -/
def State.readRing (s : State) (ld : Ld) (n off : Nat) : Nat :=
  let g := s.ring n
  let mine := s.bound ld g.ctx.toNat
  if s.manager ld || mine then g.window64 (s.sec.confidential && !mine) off else 0

/-- R517, R518: a read of the doorbell of ring n. -/
def State.readDoorbell (s : State) (ld : Ld) (n : Nat) : BitVec 64 :=
  let g := s.ring n
  if (g.en || g.draining) && (s.manager ld || s.bound ld g.ctx.toNat) then
    BitVec.ofNat 64 (fields [(0, g.pi.toNat), (32, g.cqCi.toNat)])
  else 0

/-! ### CTX (R516) -/

/-- R516: the code of STATE. -/
def CtxState.code : CtxState → Nat
  | .free => 0
  | .active => 1
  | .retiring => 2

/-- R516: the CTX window of context c; each field is 0 while the context is FREE. Live sequences are those whose entry is not
FREE (log 128). -/
def State.readCtx (s : State) (c off : Nat) : Nat :=
  let x := s.ctx c
  let space (d : Side) : Nat := (s.mem.granules.vals.filter (fun g => g.1 == c && g.2.1 == d)).length
  let rings := s.rings.vals.filter (fun g => g.ctx.toNat == c)
  if x.state == .free then 0
  else
    match off with
    | 0x00 => x.state.code
    | 0x08 => fields [(0, x.present.toNat), flagAt 2 x.oldLive, (3, x.old.toNat), flagAt 5 x.sweeping,
        flagAt 6 (x.rights.getLsbD 5), (32, x.rotations.toNat)]
    | 0x10 => fields [(0, x.rights.toNat), (16, x.domain.toNat)]
    | 0x18 => x.quota.toNat
    | 0x20 => x.charged
    | 0x28 => x.chkMask.toNat
    | 0x30 => halves space
    | 0x38 => fields [(0, (rings.filter (·.en)).length), (32, (rings.filter (·.booking.isSome)).length)]
    | 0x40 => fields [(0, (s.seqs.vals.filter (fun q => q.state != .free && q.ctx == c)).length),
        (32, (s.wobjs.vals.filter (fun w => w.live && w.ctx == c)).length),
        (48, (s.flu.conns.vals.filter (fun k => k.state == .opened && k.ctx.toNat == c)).length)]
    | 0x48 => x.created.toNat
    | _ => 0

/-! ### FBX (R164-R166) -/

/-- R164: Fireboxes in service, one bit each. -/
def State.fbxBits (s : State) (d : Side) : Nat := (s.eng.get d).fireboxes.foldl (fun n k => n ||| 2 ^ k) 0

/-- R166: a die has fewer than 64 Fireboxes in service, once self-test has ended. -/
def State.fbxDegraded (s : State) : Bool :=
  s.gbl.fwReady && (decide (s.active .west < 64) || decide (s.active .east < 64))

/-- R164-R166: the FBX registers. -/
def State.readFbx (s : State) (off : Nat) : Nat :=
  match off with
  | 0x00 => s.fbxCtl.toNat
  | 0x08 => fields [(0, s.active .west), (8, s.active .east), (16, s.eng.w.spares.length), (20, s.eng.e.spares.length),
      flagAt 24 s.fbxDegraded]
  | 0x10 => s.fbxBits .west % 2 ^ 64
  | 0x18 => bits (s.fbxBits .west) 64 4
  | 0x20 => s.fbxBits .east % 2 ^ 64
  | 0x28 => bits (s.fbxBits .east) 64 4
  | _ => 0

/-! ### DOM (R129-R134) -/

/-- R132: WIDTH of a bank. -/
def State.bankWidth (s : State) (b : Nat) : Nat :=
  match bankGroup b with
  | .directory => 1
  | .keys => 2
  | .classifier => s.dom.width.lookD b 0

/-- R132: DOM_BANK_CFG of a bank. -/
def State.readBank (s : State) (b : Nat) : Nat :=
  fields [(0, s.bankWidth b), flagAt 2 (s.bankOn b), flagAt 3 (s.dom.shifts.has b),
    (16, (s.dom.entries.keys.filter (fun a => a / 8192 == b)).length)]

/-- R129: valid entries of a die's prefix table. -/
def State.tableUsed (s : State) (d : Side) : Nat :=
  (s.dom.table.filter (fun p => p.2.v && p.1 / 2 ^ 27 == d.num)).length

/-- R131: bit b: bank b shifts. -/
def State.shifting (s : State) : Nat := s.dom.shifts.keys.foldl (fun n b => n ||| 2 ^ b) 0

/-- R129-R134: the DOM registers; DOM_ACC_CMD reads 0. -/
def State.readDom (s : State) (off : Nat) : Nat :=
  let d := s.dom
  let word (x : BitVec 256) (i : Nat) : Nat := bits x.toNat (64 * i) 64
  match off with
  | 0x00 => fields [flagAt 0 d.dirEn, flagAt 1 d.sweepEn, (8, d.promoteHits.toNat)]
  | 0x08 => fields [flagAt 0 d.persistLoaded, flagAt 1 d.bucketFull.w, flagAt 2 d.bucketFull.e, (32, s.shifting)]
  | 0x10 => halves s.tableUsed
  | 0x208 => d.accStatus.toNat
  | 0x250 => d.accResult.toNat
  | _ =>
    if 0x100 ≤ off && off < 0x200 then s.readBank ((off - 0x100) / 8)
    else if 0x210 ≤ off && off < 0x230 then word d.accKey ((off - 0x210) / 8)
    else if 0x230 ≤ off && off < 0x250 then word d.accMask ((off - 0x230) / 8)
    else 0

/-! ### DRT (R228-R231) -/

/-- R228-R231: the DRT registers. -/
def State.readDrt (s : State) (off : Nat) : Nat :=
  let d := s.drt
  match off with
  | 0x00 => fields [flagAt 0 d.demoteEn, flagAt 1 d.stageEn, flagAt 2 d.compactEn, flagAt 3 d.tableDemoteEn,
      (8, d.stageDepth.toNat), (16, d.pinLimit.toNat)]
  | 0x08 => fields [flagAt 0 d.coalRo, flagAt 1 d.pinOver.w, flagAt 2 d.pinOver.e, flagAt 3 d.urgent.w, flagAt 4 d.urgent.e,
      flagAt 5 (s.low .west), flagAt 6 (s.low .east)]
  | 0x10 => d.boundUs
  | 0x18 => fields [(0, d.lowFree), (8, d.highFree)]
  | 0x20 => d.holdUs
  | 0x28 => halves s.freeMib
  | 0x30 => halves (fun k => s.pinnedKib k / 1024)
  | 0x38 => d.nrAddr.toNat
  | 0x40 => d.nrTime.toNat
  | _ => 0

/-! ### COAL (R267-R270) -/

/-- R267: COAL_GEOM: 0 until channel 0 is identified. -/
def Coal.geom (c : Coal) : Nat :=
  match c.nand with
  | none => 0
  | some n => fields [(0, c.luns - 1), (4, Nat.log2 ((nandTb n).getD 1)), (8, c.rows - 1)]

/-- R267: COAL_CAP of a half: record capacity and valid bytes, in GiB. -/
def State.coalCap (s : State) (d : Side) : Nat :=
  let h := s.coal.half.get d
  fields [(0, s.coal.capacity h / 1048576), (32, h.validKib / 1048576)]

/-- R269: COAL_STATUS. -/
def State.coalStatus (s : State) : Nat :=
  let c := s.coal
  fields [flagAt 0 c.ready, flagAt 1 c.formatted, flagAt 2 (c.half.w.replaying || c.half.e.replaying),
    flagAt 3 c.half.w.full, flagAt 4 c.half.e.full, flagAt 5 c.readOnly, flagAt 6 c.half.w.degraded, flagAt 7 c.half.e.degraded,
    flagAt 8 (s.throttled .west), flagAt 9 (s.throttled .east), flagAt 10 c.formatErr, flagAt 11 c.formatting]

/-- R267-R270: the COAL registers. -/
def State.readCoal (s : State) (off : Nat) : Nat :=
  let c := s.coal
  match off with
  | 0x00 => fields [flagAt 0 c.en, flagAt 1 c.gcEn, flagAt 2 c.wlEn, flagAt 3 c.patrolEn]
  | 0x08 => s.coalStatus
  | 0x10 => c.chEn.toNat
  | 0x18 => c.chFault.toNat
  | 0x20 => c.geom
  | 0x28 => s.coalCap .west
  | 0x30 => s.coalCap .east
  | 0x38 => halves (fun d => c.freeSbs (c.half.get d))
  | 0x40 => c.gc.toNat
  | 0x48 => c.wear.toNat
  | 0x50 => c.ckptMs
  | 0x58 => fields [(0, c.tlimit), (8, c.sensors.toNat)]
  | _ => 0

/-! ### CXP (R299-R302) -/

/-- R283, R301: a snoop of the head awaits its response. -/
def HeadState.biPending (h : HeadState) : Bool := h.sf.any (fun e => e.snoopAt.isSome)

/-- R273, R301: CXP_LINK of a head. -/
def HeadState.link (h : HeadState) : Nat :=
  fields [flagAt 0 h.up, (1, h.mode), (8, h.width), flagAt 16 h.ideIo, flagAt 17 h.ideMem,
    flagAt 18 (h.up && decide (h.width < 16)), (32, h.downCount.toNat)]

/-- R299-R302: the CXP registers. -/
def State.readCxp (s : State) (off : Nat) : Nat :=
  let c := s.cxp
  match off with
  | 0x00 => fields [flagAt 0 c.head.w.hdmEn, flagAt 1 c.head.e.hdmEn, flagAt 2 c.poolEn, flagAt 3 c.biEn,
      flagAt 4 (c.ideReq || s.sec.confidential)]
  | 0x08 => fields [flagAt 0 c.head.w.biPending, flagAt 1 c.head.e.biPending, flagAt 2 c.head.w.biTimeout,
      flagAt 3 c.head.e.biTimeout, flagAt 4 c.lateBirsp]
  | 0x10 => c.head.w.link
  | 0x18 => c.head.e.link
  | 0x20 => c.biTimeoutUs
  | 0x28 => halves (fun d => (c.head.get d).sf.length)
  | 0x30 => c.poisoned.toNat
  | _ =>
    if 0x4000 ≤ off && off < 0x8000 then
      let k := (off - 0x4000) / 4
      fields [(0, (s.ctx k).bind.toNat), (32, (s.ctx (k + 1)).bind.toNat)]
    else 0

/-! ### FLU (R333-R337) -/

/-- R335: FLU_PORT of a port. -/
def PortState.word (p : PortState) : Nat :=
  fields [flagAt 0 p.up, (1, p.phy), flagAt 3 p.macsecUp, (16, p.fecUncorr.toNat), (32, p.downCount.toNat)]

/-- R333-R337: the FLU registers; FLU_CONN_CMD reads 0. -/
def State.readFlu (s : State) (off : Nat) : Nat :=
  let f := s.flu
  let w := f.port.w
  let e := f.port.e
  match off with
  | 0x00 => fields [flagAt 0 w.en, flagAt 1 e.en, flagAt 2 f.flueEn, flagAt 3 f.readEn, flagAt 4 w.macsecEn, flagAt 5 e.macsecEn,
      flagAt 6 f.macsecReq, (8, f.paths.toNat)]
  | 0x08 => fields [(0, f.msgTimeoutUs), (20, f.closeAfter), (24, f.ackDelayUs)]
  | 0x10 => w.word
  | 0x18 => e.word
  | 0x20 => f.encap.toNat
  | 0x28 => w.mac.toNat
  | 0x30 => e.mac.toNat
  | 0x38 => w.gw.toNat
  | 0x40 => e.gw.toNat
  | 0x48 => f.ip4.toNat
  | 0x50 => bits f.ip6.toNat 0 64
  | 0x58 => bits f.ip6.toNat 64 64
  | 0x60 => fields [(0, f.pfcEn.toNat), (8, f.wpcp.toNat)]
  | 0x88 => f.connStatus.toNat
  | _ => if 0x100 ≤ off && off < 0x140 then bits f.connData.toNat (64 * ((off - 0x100) / 8)) 64 else 0

/-! ### DMP and CHK (R353-R356, R365) -/

/-- R352-R356: the DMP registers, the schedules as the time base has left them; the command registers read 0. -/
def State.readDmp (s : State) (off : Nat) : Nat :=
  let d := s.dmp
  let p := ((s.gateDue .west).gateDue .east).flu.port
  match off with
  | 0x000 => fields [flagAt 0 d.ingressEn, flagAt 1 d.clsInEn, flagAt 2 d.clsEgEn, (8, d.overhead), (16, d.ftdKib)]
  | 0x008 => fields [flagAt 0 p.w.gate.isSome, flagAt 1 p.e.gate.isSome, flagAt 2 p.w.pendingGate.isSome,
      flagAt 3 p.e.pendingGate.isSome]
  | 0x048 => d.polStatus.toNat
  | 0x050 => d.cir.toNat
  | 0x058 => d.pir.toNat
  | 0x060 => d.cbs.toNat
  | 0x068 => d.pbs.toNat
  | 0x088 => d.gateStatus.toNat
  | 0x090 => d.gateBase.toNat
  | 0x098 => d.gateMask.toNat
  | 0x0A0 => d.gateDur.toNat
  | 0x0A8 => d.gateOpen.toNat
  | _ => if 0x100 ≤ off && off < 0x300 then d.maxFrame.lookD ((off - 0x100) / 8) 0x10BE else 0

/-- R365: CHK_INUSE: the units that contexts hold. -/
def State.readChk (s : State) (off : Nat) : Nat :=
  if off = 0 then (s.ctxs.vals.foldl (fun (m : BitVec 64) x => m ||| x.chkMask) 0).toNat else 0

/-! ### TEL (R454, R469-R473) -/

/-- R472: a beat monitor. -/
def BeatMon.word (b : BeatMon) : Nat :=
  fields [(0, b.rate.toNat), (16, b.rateMin.toNat), (32, b.vcore.toNat), (48, (BitVec.ofInt 8 b.tj).toNat),
    flagAt 56 b.belowFloor]

/-- R470: TEL_UTIL of an engine class: BUSY as it stands, and the three values latched by the latest read of BUSY. -/
def Tap.reg (t : Tap) : Nat → Nat
  | 0 => t.busy.toNat
  | 1 => t.latStall.toNat
  | 2 => t.latIdle.toNat
  | _ => t.latPaused.toNat

/-- R469: the registers of the TEL block that are always-on. -/
def State.readTelAo (s : State) (off : Nat) : Nat :=
  match off with
  | 0x18 => s.tel.beat.w.word
  | 0x20 => s.tel.beat.e.word
  | 0x28 => s.now.toNat
  | _ =>
    if 0x1000 ≤ off && off < 0x1400 then
      (s.tap (sideOf ((off - 0x1000) / 0x200)) (off % 0x200 / 0x20)).reg (off % 0x20 / 8)
    else 0

/-- R469-R473: the other registers of the TEL block; TEL_RING_LATE is privileged. -/
def State.readTel (s : State) (off : Nat) : Nat :=
  let t := s.tel
  match off with
  | 0x00 => fields [flagAt 0 t.globalEn]
  | 0x08 => fields [flagAt 0 s.sec.confidential, flagAt 1 t.trace.w.en, flagAt 2 t.trace.e.en, flagAt 3 t.trace.w.full,
      flagAt 4 t.trace.e.full, flagAt 5 t.refused]
  | 0x10 => t.partId.toNat
  | 0x40 => fields [flagAt 0 t.trace.w.en, flagAt 1 t.trace.e.en, flagAt 2 t.wrap, flagAt 3 t.lossless, flagAt 4 t.allCtx,
      (16, t.ctx.toNat), (32, t.types.toNat)]
  | 0x48 => fields [(0, t.trace.w.wp), (32, t.trace.w.wraps.toNat)]
  | 0x50 => fields [(0, t.trace.e.wp), (32, t.trace.e.wraps.toNat)]
  | 0x58 => fields [(0, t.trace.w.lost.toNat), (32, t.trace.e.lost.toNat)]
  | _ =>
    if 0x80000 ≤ off && !s.sec.confidential then
      let g := s.ring ((off - 0x80000) / 8)
      fields [(0, g.late.toNat), (32, g.measured.toNat)]
    else 0

/-! ### The read -/

/-- R453, R469: a counter register; a privileged one reads 0 in confidential mode. Offsets without a counter read 0. -/
def State.readCounter (s : State) (off : Nat) : Nat :=
  if s.sec.confidential && !(alwaysOn off) then 0 else (s.tel.cnt.lookD off 0).toNat

/-- R502: what only MANAGER LDs read. -/
def State.readBlock (s : State) (ld : Ld) (off : Nat) : Nat :=
  let r := off % 0x100000
  s.readCounter off ||| (match off / 0x100000 with
    | 0x00 => s.readGbl ld r
    | 0x01 => s.readSec r
    | 0x30 => s.readFbx r
    | 0x31 => s.readDom r
    | 0x32 => s.readDrt r
    | 0x33 => s.readCoal r
    | 0x34 => s.readCxp r
    | 0x35 => s.readFlu r
    | 0x36 => s.readDmp r
    | 0x37 => s.readChk r
    | 0x38 => s.readTel r
    | _ => 0)

/-- R452, R502: what every LD reads: GBL_ID, GBL_STATUS, GBL_JOURNAL and the always-on registers of the TEL block. -/
def State.readOpen (s : State) (ld : Ld) (off : Nat) : Option Nat :=
  if off = 0x00 || off = 0x10 || off = 0x30 then some (s.readGbl ld off)
  else if alwaysOn off then some (s.readCounter off)
  else if off = 0x3800018 || off = 0x3800020 || off = 0x3800028 || (0x3801000 ≤ off && off < 0x3801400) then
    some (s.readTelAo (off % 0x100000))
  else none

/-- R497, R498, R502: the 64 bits of BAR0 at a multiple of 8, as an LD reads them: one snapshot. -/
def State.read64 (s : State) (ld : Ld) (off : Nat) : Nat :=
  match s.readOpen ld off with
  | some v => v
  | none =>
    if 0x1000000 ≤ off && off < 0x1400000 then s.readRing ld ((off - 0x1000000) / 64) (off % 64)
    else if 0x2000000 ≤ off && off < 0x2100000 then
      let c := (off - 0x2000000) / 256
      if s.manager ld || s.bound ld c then s.readCtx c (off % 256) else 0
    else if s.manager ld then s.readBlock ld off
    else 0

/-- R498, R499: a read of BAR0 of 8 bytes, or of 4 bytes from either aligned half; any other read returns 0 (log 128). -/
def State.regRead (s : State) (ld : Ld) (off width : Nat) : BitVec 64 :=
  if 16 ≤ ld.id then 0
  else if width = 8 && off % 8 = 0 then BitVec.ofNat 64 (s.read64 ld off)
  else if width = 4 && off % 4 = 0 then BitVec.ofNat 64 (bits (s.read64 ld (off - off % 8)) (8 * (off % 8)) 32)
  else 0

/-! ### The test access port (R369, R371, R495) -/

/-- R369, R495: the instructions of the IEEE 1149.1 test access port: BYPASS, IDCODE, boundary scan of the low-speed pins and the NAND
channel signals, the AC-coupled test of the SerDes lanes (IEEE 1149.6), and Faltion's private ones with the Mantel debug port. -/
inductive TapInst where
  | bypass | idcode | boundaryScan | acTest | privateDebug
deriving DecidableEq, Repr

/-- R369, R371, R495: what the test access port offers now; what an instruction shifts is not given. -/
def State.tapOffers (s : State) : List TapInst :=
  if s.sec.confidential then [.bypass]
  else if s.sec.debugOpen then [.bypass, .idcode, .boundaryScan, .privateDebug]
  else [.bypass, .idcode, .boundaryScan, .acTest]

end Machine
end Sys2Proof
end

