-- ==== Sys2Proof/WellFormed.lean ====
section
/-! DEFINITION. Which terms of Instr are commands that something outside the part, or the part itself, can form: every
number lies in the range of what it numbers. -/

namespace Sys2Proof

/-- R274: an LD-ID is one of sixteen. -/
def isLdId (n : Nat) : Bool := decide (n < 16)

/-- R274: a logical device. -/
def Ld.wf (l : Ld) : Bool := isLdId l.id

/-- R509: one of 65,536 rings. -/
def isRing (n : Nat) : Bool := decide (n < 65536)

/-- R26: an accepted instruction of a ring that exists. -/
def At.wf (a : At) : Bool := isRing a.ring

/-- R311: one of 32,768 connections. -/
def isConn (n : Nat) : Bool := decide (n < 32768)

/-- R233: one of 32 NAND channels. -/
def isChannel (n : Nat) : Bool := decide (n < 32)

/-- R233: one of at most 16 LUNs of a channel. -/
def isLun (n : Nat) : Bool := decide (n < 16)

/-- R322: one of eight PFC priorities. -/
def isPriority (n : Nat) : Bool := decide (n < 8)

/-- R270, R493: one of eight board sensors. -/
def isSensor (n : Nat) : Bool := decide (n < 8)

/-- R504: one of ten stacks of a die. -/
def isStack (n : Nat) : Bool := decide (n < 10)

/-- R129: one of 32 Domino banks. -/
def isDomBank (n : Nat) : Bool := decide (n < 32)

/-- R422, R433: one of the journal banks that a die has, spares among them. -/
def isJournalBank (n : Nat) : Bool := decide (n < 34)

/-- R44: one of eight Stokers of a die. -/
def isStoker (n : Nat) : Bool := decide (n < 8)

/-- R166: one of the Fireboxes of a die, spares among them. -/
def isFirebox (n : Nat) : Bool := decide (n < 68)

/-- R276: one of an LD's decoders. -/
def isDecoder (n : Nat) : Bool := decide (n < 4)

/-- R1, R2: any other number fits a 64-bit field. -/
def isNumber (n : Nat) : Bool := decide (n < 18446744073709551616)

/-- R308: a Flue packet's payload is at most what PLEN can say. -/
def Packet.wf (p : Packet) : Bool := decide (p.payload.length < 65536)

/-- R217: a waiter that exists. -/
def Waiter.wf : Waiter → Bool
  | .instr a => a.wf
  | .load ld dpa => ld.wf && isNumber dpa

/-- R451: stall reason codes are one byte each. -/
def Beat.wf : Beat → Bool
  | .stalled l => l.all (fun r => decide (r < 256))
  | .busy => true
  | .idle => true

/-- The command's numbers are in range. -/
def Instr.wf (i : Instr) : Bool :=
  match i with
  | .doorbellWrite ld off size _ => ld.wf && isNumber off && isNumber size
  | .packetAccept ring => isRing ring
  | .completionPost ring => isRing ring
  | .bookingWindowStart ring => isRing ring
  | .badOpcode a => a.wf
  | .ctlNop a => a.wf
  | .ctlFence a => a.wf
  | .ctlWait a => a.wf
  | .ctlWaitTimeout a => a.wf
  | .ctlSignal a => a.wf
  | .ctlSkipif a => a.wf
  | .ctlLoop a => a.wf
  | .ctlCall a => a.wf
  | .ctlRet a => a.wf
  | .ctlAdd a => a.wf
  | .seqCreate a => a.wf
  | .seqDestroy a => a.wf
  | .seqDestroyRelease a => a.wf
  | .seqTrunc a => a.wf
  | .seqTruncProceed a => a.wf
  | .seqHint a => a.wf
  | .seqQuery a => a.wf
  | .pageStage a => a.wf
  | .pageSeal a => a.wf
  | .pageFetch a => a.wf
  | .kvAppend a => a.wf
  | .pfxMatch a => a.wf
  | .pfxPublish a => a.wf
  | .pfxFork a => a.wf
  | .pfxWithdraw a => a.wf
  | .attDecode a => a.wf
  | .attPrefill a => a.wf
  | .attMerge a => a.wf
  | .attBwd a => a.wf
  | .winOpen a => a.wf
  | .winAdvance a => a.wf
  | .winClose a => a.wf
  | .winLayerSend win => isNumber win
  | .poolFill a => a.wf
  | .poolCopy a => a.wf
  | .poolCompare a => a.wf
  | .poolReduce a => a.wf
  | .flueSend a => a.wf
  | .flueWait a => a.wf
  | .flueWaitTimeout a => a.wf
  | .chkSetup a => a.wf
  | .chkFeed a => a.wf
  | .chkSave a => a.wf
  | .chkRestore a => a.wf
  | .ctrStart a => a.wf
  | .ctrStop a => a.wf
  | .ctrSample a => a.wf
  | .keyRegister a => a.wf
  | .keyRevoke a => a.wf
  | .keyRevokeDone a => a.wf
  | .identifyMemoryDevice ld => ld.wf
  | .getSupportedLogs ld => ld.wf
  | .getLog ld off len => ld.wf && isNumber off && isNumber len
  | .getEventRecords ld _ => ld.wf
  | .clearEventRecords ld _ _ => ld.wf
  | .getEventInterruptPolicy ld => ld.wf
  | .setEventInterruptPolicy ld _ => ld.wf
  | .getTimestamp ld => ld.wf
  | .setTimestamp ld _ => ld.wf
  | .getPoisonList ld base len => ld.wf && isNumber base && isNumber len
  | .clearPoison ld dpa _ => ld.wf && isNumber dpa
  | .injectPoison ld dpa => ld.wf && isNumber dpa
  | .getDcConfiguration ld => ld.wf
  | .getDcExtentList ld start count => ld.wf && isNumber start && isNumber count
  | .addDcResponse ld _ => ld.wf
  | .releaseDynamicCapacity ld base len => ld.wf && isNumber base && isNumber len
  | .backgroundOperationStatus ld => ld.wf
  | .requestAbortBackgroundOp ld => ld.wf
  | .getFwInfo ld => ld.wf
  | .transferFw ld _ => ld.wf
  | .activateFw ld _ => ld.wf
  | .getVendorLog ld logId off len => ld.wf && isNumber logId && isNumber off && isNumber len
  | .registerProfile ld _ => ld.wf
  | .deregisterProfile ld profileId => ld.wf && isNumber profileId
  | .registerImage ld ctx steps src => ld.wf && isNumber ctx && isNumber steps && isNumber src
  | .deregisterImage ld image => ld.wf && isNumber image
  | .allocateContextSpace ld ctx die granules addr => ld.wf && isNumber ctx && isNumber die && isNumber granules && isNumber addr
  | .releaseContextSpace ld ctx granules addr => ld.wf && isNumber ctx && isNumber granules && isNumber addr
  | .setEvent ld ctx event op _ => ld.wf && isNumber ctx && isNumber event && isNumber op
  | .poolFillCommand ld ctx _ _ _ => ld.wf && isNumber ctx
  | .poolCopyCommand ld ctx _ _ _ => ld.wf && isNumber ctx
  | .poolCompareCommand ld ctx _ _ _ => ld.wf && isNumber ctx
  | .poolReduceCommand ld ctx _ _ _ => ld.wf && isNumber ctx
  | .advanceLifeCycle ld target present _ _ => ld.wf && isNumber target && isNumber present
  | .setMode ld confidential => ld.wf && isNumber confidential
  | .createContext ld ctx _ domain _ _ => ld.wf && isNumber ctx && isNumber domain
  | .setContext ld ctx _ domain _ _ => ld.wf && isNumber ctx && isNumber domain
  | .rotateContextKey ld ctx => ld.wf && isNumber ctx
  | .retireContext ld ctx => ld.wf && isNumber ctx
  | .retireComplete ctx => isNumber ctx
  | .createWeightObject ld ctx home profileId _ _ _ => ld.wf && isNumber ctx && isNumber home && isNumber profileId
  | .loadWeightLayer ld _ layer src => ld.wf && isNumber layer && isNumber src
  | .deleteWeightObject ld _ => ld.wf
  | .getConfigurationBlock ld off len => ld.wf && isNumber off && isNumber len
  | .setMacsecCak ld port _ _ => ld.wf && isNumber port
  | .getNonce ld => ld.wf
  | .openDebug ld _ => ld.wf
  | .beginConnectionKey ld conn => ld.wf && isConn conn
  | .completeConnectionKey ld conn _ => ld.wf && isConn conn
  | .releasePersistentRoot _ _ => true
  | .releaseModelKey _ _ _ => true
  | .importCompatKey _ ctx _ => isNumber ctx
  | .getStartUpReport ld => ld.wf
  | .setClass ld cls weight bound => ld.wf && isNumber cls && isNumber weight && isNumber bound
  | .setAdmission ld admitCap blockUs => ld.wf && isNumber admitCap && isNumber blockUs
  | .admitRing ld ring _ => ld.wf && isRing ring
  | .releaseBooking ld ring => ld.wf && isRing ring
  | .getAdmission ld die => ld.wf && isNumber die
  | .readTrace ld die first count => ld.wf && isNumber die && isNumber first && isNumber count
  | .readContextCounters ld ctx first count => ld.wf && isNumber ctx && isNumber first && isNumber count
  | .readStallHistogram ld die cls => ld.wf && isNumber die && isNumber cls
  | .getLdInfo _ => true
  | .getLdAllocations _ => true
  | .qosCommands _ _ => true
  | .getMultiHeadedInfo _ => true
  | .getDcdInfo _ => true
  | .getHostDcRegionConfig _ host => isLdId host
  | .setDcRegionConfiguration _ region blockSize => isNumber region && isNumber blockSize
  | .getDcRegionExtentLists _ host => isLdId host
  | .initiateDcAdd _ ld base len => isLdId ld && isNumber base && isNumber len
  | .initiateDcRelease _ ld base len _ => isLdId ld && isNumber base && isNumber len
  | .extentRemovalDone ld base => ld.wf && isNumber base
  | .bindContext _ ctx _ => isNumber ctx
  | .hostDown _ _ => true
  | .defineSharedRegion _ base granules => isNumber base && isNumber granules
  | .deleteSharedRegion _ index => isNumber index
  | .setLdPrivilege _ ld _ => isLdId ld
  | .spdmGetVersion _ => true
  | .spdmGetCapabilities _ => true
  | .spdmNegotiateAlgorithms _ _ => true
  | .spdmGetDigests _ => true
  | .spdmGetCertificate _ off len => isNumber off && isNumber len
  | .spdmChallenge _ _ => true
  | .spdmGetMeasurements _ _ => true
  | .spdmKeyExchange _ _ => true
  | .spdmFinish _ _ => true
  | .spdmEndSession _ => true
  | .ideKmKeyProgram _ _ _ => true
  | .hostMemRead ld dpa len _ => ld.wf && isNumber dpa && isNumber len
  | .hostMemWrite ld dpa _ _ => ld.wf && isNumber dpa
  | .viewLoad ld dpa len => ld.wf && isNumber dpa && isNumber len
  | .viewWrite ld dpa len => ld.wf && isNumber dpa && isNumber len
  | .hdmDecoderCommit ld decoder base size ways _ => ld.wf && isDecoder decoder && isNumber base && isNumber size.size && isNumber size.skip && isNumber ways
  | .biResponse ld line _ => ld.wf && isNumber line
  | .biTimeout _ line => isNumber line
  | .cxlLinkDown _ => true
  | .cxlLinkUp _ mode => isNumber mode
  | .cxlLaneFail _ width lane => isNumber width && isNumber lane
  | .frameReceive _ _ => true
  | .flueDataReceive _ pkt => pkt.wf
  | .flueAckReceive _ pkt => pkt.wf
  | .flueCloseReceive _ pkt => pkt.wf
  | .flueReadReceive _ pkt => pkt.wf
  | .pfcReceive _ prio pauseNs => isPriority prio && isNumber pauseNs
  | .mkaFrameReceive _ _ _ => true
  | .ackDelayExpiry conn _ => isConn conn
  | .linkReplay conn _ pktIdx => isConn conn && isNumber pktIdx
  | .messageTimeout conn _ => isConn conn
  | .egressFrameSend _ => true
  | .policerRefill => true
  | .gateScheduleSwitch _ => true
  | .gateEntryBoundary _ => true
  | .fluePortUp _ phy => isNumber phy
  | .fluePortDown _ lane => isNumber lane
  | .promotionIssue _ => true
  | .promotionComplete handle _ _ => isNumber handle
  | .residencyBoundExpiry waiter handle => waiter.wf && isNumber handle
  | .stageHoldExpiry handle => isNumber handle
  | .backgroundReclaim _ => true
  | .demotionComplete handle => isNumber handle
  | .tableDemote seq => isNumber seq
  | .orphanSweepTick => true
  | .persistReinsert => true
  | .keySweepStep ctx => isNumber ctx
  | .stackSweepStep _ => true
  | .coalRowProgrammed _ _ channel => isChannel channel
  | .gcReclaim _ => true
  | .coalEraseDone _ sb _ => isNumber sb
  | .coalCheckpoint _ => true
  | .patrolRead _ sb _ _ => isNumber sb
  | .nandLunFail channel lun => isChannel channel && isLun lun
  | .coalReplayDone _ => true
  | .coalFormatDone _ => true
  | .coalChannelIdentify channel _ => isChannel channel
  | .gblWarmReset ld _ => ld.wf
  | .warmDone => true
  | .gblRestore ld _ => ld.wf
  | .gblColdReset ld _ => ld.wf
  | .gblRlogClear ld _ => ld.wf
  | .gblFaultClear ld _ => ld.wf
  | .ringEnable ld ring _ => ld.wf && isRing ring
  | .ringDisable ld ring _ => ld.wf && isRing ring
  | .ringCqBaseMove ld ring _ => ld.wf && isRing ring
  | .domLookup ld _ => ld.wf
  | .domRead ld _ => ld.wf
  | .domInsertAny ld _ => ld.wf
  | .domInsertAt ld _ => ld.wf
  | .domDelete ld _ => ld.wf
  | .domShiftMove bank => isDomBank bank
  | .coalEnSet ld _ => ld.wf
  | .coalEnClear ld _ => ld.wf
  | .coalFormat ld _ => ld.wf
  | .coalChEnWrite ld _ => ld.wf
  | .fluConnRead ld _ => ld.wf
  | .fluConnWrite ld _ => ld.wf
  | .fluConnOpen ld _ => ld.wf
  | .fluConnClose ld _ => ld.wf
  | .fluCtlWrite ld _ => ld.wf
  | .dmpPolRead ld _ => ld.wf
  | .dmpPolWrite ld _ => ld.wf
  | .dmpPolRefill ld _ => ld.wf
  | .dmpGateWriteEntry ld _ => ld.wf
  | .dmpGateReadEntry ld _ => ld.wf
  | .dmpGateCommit ld _ => ld.wf
  | .dmpGateDisable ld _ => ld.wf
  | .cxpCtlWrite ld _ => ld.wf
  | .telClear ld _ => ld.wf
  | .telClearAo ld _ => ld.wf
  | .telTraceCtlWrite ld _ => ld.wf
  | .telUtilBusyRead ld _ cls => ld.wf && isNumber cls
  | .registerWrite ld off width _ => ld.wf && isNumber off && isNumber width
  | .tapSnapshot _ cls beat n ctx => isNumber cls && beat.wf && isNumber n && isNumber ctx
  | .powerWarnAssert lowNs => isNumber lowNs
  | .flushComplete => true
  | .powerHoldExit => true
  | .resetNAssert => true
  | .coldReset _ => true
  | .fwReady _ => true
  | .perstAssert _ lowNs => isNumber lowNs
  | .fundamentalReset _ => true
  | .thermtrip _ _ => true
  | .supplyControlTick _ _ rate => isNumber rate
  | .thermalPauseSlot _ _ => true
  | .regulatorPoll _ _ => true
  | .regulatorTimeout _ => true
  | .sensorPoll sensor _ => isSensor sensor
  | .sensorTimeout sensor => isSensor sensor
  | .tempHistoryHour => true
  | .trefLoss => true
  | .trefReturn => true
  | .refclkLoss _ => true
  | .watchdogExpiry => true
  | .fireboxFault _ unit => isFirebox unit
  | .stokerFault _ unit => isStoker unit
  | .journalBankFault _ bank => isJournalBank bank
  | .hbmStackFault _ stack => isStack stack
  | .bridgeLaneFault _ lane => isNumber lane
  | .secondFaultStop _ _ unit => isNumber unit
  | .recoveryWindowEnd _ _ unit => isNumber unit
  | .engineReset _ _ unit => isNumber unit
  | .powerLoss => true
  | .pfcPauseExpiry _ prio => isPriority prio
  | .secureAssociationLoss _ => true

end Sys2Proof
end

