-- ==== Sys2Proof/Tests/Slice0.lean ====
section
/-! SUPPORT. Terms that are no commands and are refused by the checks of WellFormed; concrete states and operands that
meet the hypotheses of each statement of the certificate; single commands on small states. -/

namespace Sys2Proof
namespace Machine

/-! ### Terms that are refused -/

theorem test_wf_ldId : Instr.wf (.getHostDcRegionConfig .west 16) = false ∧ Instr.wf (.getHostDcRegionConfig .west 15) = true := by
  decide

theorem test_wf_ld : Instr.wf (.getNonce ⟨.east, 16⟩) = false ∧ Instr.wf (.getNonce ⟨.east, 15⟩) = true := by decide

theorem test_wf_ring : Instr.wf (.packetAccept 65536) = false ∧ Instr.wf (.packetAccept 65535) = true := by decide

theorem test_wf_at : Instr.wf (.ctlNop { ring := 65536 }) = false ∧ Instr.wf (.ctlNop { ring := 65535 }) = true := by decide

theorem test_wf_conn : Instr.wf (.beginConnectionKey {} 32768) = false ∧ Instr.wf (.beginConnectionKey {} 32767) = true := by
  decide

theorem test_wf_channel : Instr.wf (.coalChannelIdentify 32 {}) = false ∧ Instr.wf (.coalChannelIdentify 31 {}) = true := by
  decide

theorem test_wf_lun : Instr.wf (.nandLunFail 0 16) = false ∧ Instr.wf (.nandLunFail 0 15) = true := by decide

theorem test_wf_priority : Instr.wf (.pfcReceive .west 8 0) = false ∧ Instr.wf (.pfcReceive .west 7 0) = true := by decide

theorem test_wf_sensor : Instr.wf (.sensorTimeout 8) = false ∧ Instr.wf (.sensorTimeout 7) = true := by decide

theorem test_wf_stack : Instr.wf (.hbmStackFault .west 10) = false ∧ Instr.wf (.hbmStackFault .west 9) = true := by decide

theorem test_wf_domBank : Instr.wf (.domShiftMove 32) = false ∧ Instr.wf (.domShiftMove 31) = true := by decide

theorem test_wf_journalBank : Instr.wf (.journalBankFault .west 34) = false ∧ Instr.wf (.journalBankFault .west 33) = true := by
  decide

theorem test_wf_stoker : Instr.wf (.stokerFault .west 8) = false ∧ Instr.wf (.stokerFault .west 7) = true := by decide

theorem test_wf_firebox : Instr.wf (.fireboxFault .west 68) = false ∧ Instr.wf (.fireboxFault .west 67) = true := by decide

theorem test_wf_decoder : Instr.wf (.hdmDecoderCommit {} 4 0 {} 1 false) = false ∧
    Instr.wf (.hdmDecoderCommit {} 3 0 {} 1 false) = true := by decide

theorem test_wf_number : Instr.wf (.winLayerSend 18446744073709551616) = false ∧
    Instr.wf (.winLayerSend 18446744073709551615) = true := by decide

theorem test_wf_packet : Packet.wf { payload := [0] } = true := by decide

theorem test_wf_packet_long : Packet.wf { payload := List.replicate 65536 0 } = false := by
  unfold Packet.wf
  rw [List.length_replicate]
  decide

theorem test_wf_waiter : Instr.wf (.residencyBoundExpiry (.load ⟨.west, 16⟩ 0) 0) = false ∧
    Instr.wf (.residencyBoundExpiry (.instr { ring := 65536 }) 0) = false ∧ Instr.wf (.residencyBoundExpiry (.load {} 0) 0) = true := by
  decide

theorem test_wf_beat : Instr.wf (.tapSnapshot .west 1 (.stalled [256]) 0 0) = false ∧
    Instr.wf (.tapSnapshot .west 1 (.stalled [255]) 0 0) = true := by decide

/-- The table gives its rows no bits, so no word spells a command and none is put in front of the queue. -/
theorem test_no_word_spells_a_command : decodeTableWord 32 5 = none ∧ State.reset.withFetchWord 32 5 = State.reset := ⟨rfl, rfl⟩

/-! ### Small states -/

/-- R33: the 32 bytes of an instruction. -/
def iword (op flags dst srca srcb layer opid w0 w1 w2 : Nat) : BitVec 256 :=
  BitVec.ofNat 256 (op + flags * 2 ^ 8 + dst * 2 ^ 16 + srca * 2 ^ 22 + srcb * 2 ^ 27 + layer * 2 ^ 32 + opid * 2 ^ 48
    + w0 * 2 ^ 64 + w1 * 2 ^ 128 + w2 * 2 ^ 192)

/-- An instruction with a destination and operand words. -/
def inst (op flags dst w0 w1 w2 : Nat) : BitVec 256 := iword op flags dst 0 0 0 0 w0 w1 w2

/-- A part that runs, with ring 0 of ACTIVE context 1 enabled. -/
def base : State := {
  gbl := { fwReady := true }
  rings := [(0, { en := true, ctx := 1, reason := .none, size := 16, cqSize := 16, base := 0x10000, cqBase := 0x20000, home := .west })]
  ctxs := [(1, { state := .active })] }

/-- The first instruction of ring 0. -/
def at0 : At := {}

/-- Its record as accepted. -/
def rec0 (d : BitVec 256) : JRec := { desc := d, ring := 0, index := 0, ctx := 1, layer := (Inst.of d).layer }

/-- The part with that instruction accepted. -/
def State.withInst (s : State) (d : BitVec 256) : State := { s with jrn := { s.jrn with recs := [rec0 d] } }

/-- The record as ISSUED and waiting. -/
def recW (d : BitVec 256) (w : Wait) : JRec := { rec0 d with state := .issued, wait := some w, checked := true, word0 := (Inst.of d).w0, word1 := (Inst.of d).w1 }

/-- The part with that instruction waiting. -/
def State.withWait (s : State) (d : BitVec 256) (w : Wait) : State := { s with jrn := { s.jrn with recs := [recW d w] } }

/-- The LD that is MANAGER after wipe, and one that is not. -/
def mgr : Ld := {}

/-- An LD that is no MANAGER and bound to no context. -/
def guest : Ld := ⟨.west, 1⟩

/-- Ring 0 of `base`. -/
def ring0 : Ring := base.ring 0

/-- `base` with ring 0 changed. -/
def withRing (g : Ring) : State := base.setRing 0 g

/-- What an instruction's own checks took, and the part as they left it, where they pass. -/
def Chk.took : Chk → Option (Snap × State)
  | .good k s => some (k, s)
  | _ => none

/-- Two granules of context space of context 1. -/
def owned : State := { base with mem := { granules := [(0, 1, .west, {}), (1, 1, .west, {})] } }

/-! ### Witnesses: rings -/

/-- StepRunsFrontCommand, IdleStepAdvancesTime. -/
theorem test_witness_step : ({ State.reset with pending := [.sensorTimeout 0] } : State).pending = .sensorTimeout 0 :: [] ∧
    State.reset.pending = [] := by decide

/-- StepKeepsShape: reset, where a step idles. -/
theorem test_witness_shape : Shaped State.reset ∧ ∃ t, step State.reset = .next t :=
  ⟨⟨fun _ => rfl, fun d => by cases d <;> decide, fun h => by simp [State.reset] at h⟩, _, rfl⟩

/-- StepKeepsMemoryCanonical, WrittenBytesReadBack. -/
theorem test_witness_memory : ∃ t, State.reset.mem.wf = true ∧ step State.reset = .next t := ⟨_, by decide, rfl⟩

/-- DoorbellDecides, taken: PI at the full size of the ring. -/
theorem test_witness_doorbell_taken : (0 : Nat) < 65536 ∧ base.manager mgr = true ∧ base.gbl.fwReady = true ∧
    base.gbl.held = false ∧ base.gbl.warming = false ∧ (base.ring 0).en = true ∧
    ((base.ring 0).cqPi - ((16 : BitVec 64) >>> 32).setWidth 32).toNat ≤ (base.ring 0).cqSize.toNat ∧
    (((16 : BitVec 64).setWidth 32 - (base.ring 0).aidx).toNat ≤ (base.ring 0).size.toNat) := by decide

/-- DoorbellDecides, ignored: a stranger, a size, an alignment, PI one beyond the ring, CQ_CI ahead of CQ_PI, a ring that is
not enabled. -/
theorem test_witness_doorbell_ignored : (base.manager guest = false ∧ base.bound guest (base.ring 0).ctx.toNat = false) ∧
    (4 : Nat) ≠ 8 ∧ (4 : Nat) % 8 ≠ 0 ∧
    ((base.ring 0).en = true ∧ (base.ring 0).size.toNat < ((17 : BitVec 64).setWidth 32 - (base.ring 0).aidx).toNat) ∧
    ((base.ring 0).cqSize.toNat < ((base.ring 0).cqPi - ((0x100000000 : BitVec 64) >>> 32).setWidth 32).toNat) ∧
    (524280 / 8 < 65536 ∧ (base.ring (524280 / 8)).en = false ∧ (base.ring (524280 / 8)).draining = false) := by decide

/-- A ring with one doorbell write of one entry. -/
def rung : State := withRing { ring0 with pi := 1, marks := [1] }

/-- PacketDecides, accepted. -/
theorem test_witness_packet_accepted : (rung.ring 0).packet ≠ 0 ∧ rung.refuses (rung.ring 0) = none ∧ rung.running = true ∧
    rung.roomFor (rung.ring 0) (rung.ring 0).packet = some [32768] ∧ rung.ownedEntries (rung.ring 0) (rung.ring 0).packet = [] := by
  decide

/-- PacketDecides, refused: the ring is halted. -/
theorem test_witness_packet_refused : let s := withRing { ring0 with pi := 1, marks := [1], halted := true }
    (s.ring 0).packet ≠ 0 ∧ s.refuses (s.ring 0) = some .halted := by decide

/-- A done record of ring 0. -/
def recDone (d : BitVec 256) : JRec := { rec0 d with state := .done }

/-- CompletionPosted, an index record. -/
theorem test_witness_post_index : let s := { base with jrn := { recs := [recDone 0] } }
    s.ringRecs 0 = recDone 0 :: [] ∧ (recDone 0).state = .done ∧ s.live = true ∧ s.gbl.held = false ∧ s.gbl.stopped = false ∧
    s.pkg.thermalPause.get (s.ring 0).home = none ∧
    needsFull (recDone 0).inst.c (recDone 0).status (s.measure (recDone 0)).1 = false := by decide

/-- CompletionPosted, a full record: C is set. -/
theorem test_witness_post_full : let r := recDone (inst 0 1 0 0 0 0)
    let s := { base with jrn := { recs := [r] } }
    s.mem.wf = true ∧ s.ringRecs 0 = r :: [] ∧ r.state = .done ∧ s.live = true ∧ s.gbl.held = false ∧ s.gbl.stopped = false ∧
    s.pkg.thermalPause.get (s.ring 0).home = none ∧ needsFull r.inst.c r.status (s.measure r).1 = true ∧ (s.ring 0).cqLost = false ∧
    ((s.ring 0).cqPi - (s.ring 0).cqCi).toNat < (s.ring 0).cqSize.toNat ∧ s.heldLines 0x20000 32 true = [] := by decide

/-- RingEnableDecides: each outcome of R512. -/
theorem test_witness_ring_enable : let off : Ring := { ring0 with en := false, home := .west }
    let s := owned.setRing 0 off
    let g : Ring := { s.ring 0 with irqEn := (1 : BitVec 32).getLsbD 1, home := sideOf (bits (1 : BitVec 32).toNat 2 1) }
    s.ringWritable mgr 0 = true ∧ (1 : BitVec 32).getLsbD 0 = true ∧ (s.ring 0).en = false ∧
    ((s.setRing 0 { off with draining := true }).ring 0).draining = true ∧
    ((s.ring 0).draining = false ∧ base.ringCfgOk g = false) ∧
    (s.ringCfgOk g = true ∧ (({ s with ctxs := [] } : State).ctx g.ctx.toNat).state ≠ .active ∧
      ({ s with ctxs := [] } : State).ringCfgOk g = true) ∧
    ((s.ctx g.ctx.toNat).state = .active ∧ ({ g with cls := 3 } : Ring).cls.toNat < 4 ∧ g.booking = none) ∧
    4 ≤ g.cls.toNat := by decide

/-- RingChangesWhileItRuns: a disable, a new CQ_BASE, a later window. -/
theorem test_witness_ring_changes : let s := owned.setRing 0 { ring0 with cqLost := true }
    base.ringWritable mgr 0 = true ∧ (0 : BitVec 32).getLsbD 0 = false ∧ (base.ring 0).en = true ∧
    sideOf (bits (0 : BitVec 32).toNat 2 1) = (base.ring 0).home ∧
    (s.ringWritable mgr 0 = true ∧ (s.ring 0).en = true ∧ (s.ring 0).cqLost = true ∧
      s.ringCfgOk { s.ring 0 with cqBase := 0x30000 } = true) ∧
    (let t : State := { withRing { ring0 with booking := some { demand := { period := 1 } } } with now := 1000 }
     (t.ring 0).booking = some { demand := { period := 1 } } ∧ (t.ring 0).en = true ∧
      (t.ring 0).window < (t.now.toNat - (t.ring 0).t0) / Nat.max (1000 * 1) 1) := by decide

/-- RunningRingKeepsItsRegisters: a running ring, one whose completions are not lost, a booked one. -/
theorem test_witness_running_ring : (0 : Nat) < 65536 ∧ (base.ring 0).en = true ∧ (base.ring 0).cqLost = false ∧
    ((withRing { ring0 with booking := some {} }).ring 0).booking ≠ none := by decide

/-! ### Witnesses: completion, control -/

/-- An instruction that has issued. -/
def issued (d : BitVec 256) : State := { base with jrn := { recs := [{ rec0 d with state := .issued, wait := some .run }] } }

/-- CompletionWritesRecordAndDst. -/
theorem test_witness_completion : let d := inst 0x08 0 5 1 2 0
    let s := issued d
    s.rec? at0 = some { rec0 d with state := .issued, wait := some .run } ∧ (rec0 d).inst.opcode ≠ 6 ∧
    (rec0 d).uses = [] ∧ (s.ring 0).regs.length = 64 := by decide

/-- IssueMakesDstPending and, with CTL.NOP, ControlResults. -/
theorem test_witness_issue : Runs at0 (rec0 (inst 0 0 5 0 0 0)) (base.withInst (inst 0 0 5 0 0 0)) ∧
    ((base.withInst (inst 0 0 5 0 0 0)).ring 0).regs.length = 64 := by unfold Runs; decide

theorem test_witness_add : Runs at0 (rec0 (inst 8 0 5 1 2 0)) (base.withInst (inst 8 0 5 1 2 0)) ∧
    (rec0 (inst 8 0 5 1 2 0)).inst.opcode = 0x08 := by unfold Runs; decide

theorem test_witness_fence : let r := rec0 (inst 1 0 0 0 0 0)
    Runs at0 r (base.withInst r.desc) ∧ r.inst.opcode = 0x01 ∧ r.inst.x0 = false := by unfold Runs; decide

theorem test_witness_wait : let r := rec0 (inst 2 0 0 0 0 0)
    Runs at0 r (base.withInst r.desc) ∧ r.inst.opcode = 0x02 ∧
    (jobAt (base.withInst r.desc) r).w1 ≤ (base.withInst r.desc).event 1 0 := by unfold Runs; decide

theorem test_witness_skipif_not : let r := rec0 (inst 4 0 0 1 2 0x10000)
    Runs at0 r (base.withInst r.desc) ∧ r.inst.opcode = 0x04 ∧ skipHolds (bits (jobAt (base.withInst r.desc) r).w2.toNat 0 3)
      (jobAt (base.withInst r.desc) r).w0 (jobAt (base.withInst r.desc) r).w1 = some false ∧
    bits (jobAt (base.withInst r.desc) r).w2.toNat 16 8 ≠ 0 := by unfold Runs; decide

/-- FenceHaltsAfterFailure. -/
theorem test_witness_fence_halts : let r := rec0 (inst 1 0x20 0 0 0 0)
    let s := (withRing { ring0 with failed := some 7 }).withInst r.desc
    Runs at0 r s ∧ r.inst.opcode = 0x01 ∧ r.inst.x0 = true ∧ (s.ring 0).failed = some 7 := by unfold Runs; decide

/-- ControlFlow: CTL.SIGNAL. -/
theorem test_witness_signal : let r := rec0 (inst 3 0 0 9 1 0)
    Runs at0 r (base.withInst r.desc) ∧ r.inst.opcode = 0x03 := by unfold Runs; decide

theorem test_witness_skipif : let r := rec0 (inst 4 0 0 1 1 0x10000)
    Runs at0 r (base.withInst r.desc) ∧ r.inst.opcode = 0x04 ∧ skipHolds (bits (jobAt (base.withInst r.desc) r).w2.toNat 0 3)
      (jobAt (base.withInst r.desc) r).w0 (jobAt (base.withInst r.desc) r).w1 = some true ∧
    bits (jobAt (base.withInst r.desc) r).w2.toNat 16 8 ≠ 0 := by unfold Runs; decide

/-- A part with an image of context 1: CTL.LOOP to its first step, then CTL.RET. -/
def withImage : State := { base with images := [(3, { ctx := 1, steps := [inst 0 0 0 0 0 0, inst 5 0 9 0 0 0, inst 7 0 0 0 0 0] })] }

theorem test_witness_call : let r := rec0 (inst 6 0 0 3 0 0)
    let s := withImage.withInst r.desc
    Runs at0 r s ∧ r.inst.opcode = 0x06 ∧ s.images.look 3 = some { ctx := 1, steps := [inst 0 0 0 0 0 0, inst 5 0 9 0 0 0, inst 7 0 0 0 0 0] } ∧
    (1 : Nat) = (jobAt s r).ctx ∧ (s.ring 0).calls.length < 4 := by unfold Runs; decide

theorem test_witness_wait_waits : let r := rec0 (inst 2 0 0 0 1 5)
    Runs at0 r (base.withInst r.desc) ∧ r.inst.opcode = 0x02 ∧
    ¬((jobAt (base.withInst r.desc) r).w1 ≤ (begun (base.withInst r.desc) r).event 1 0) := by unfold Runs; decide

/-- ControlFlow: the timeout of a CTL.WAIT, at its deadline. -/
theorem test_witness_wait_timeout : let d := inst 2 0 0 0 1 5
    let s := { base.withWait d (.event 0 1 (some 0)) with now := 0 }
    s.rec? at0 = some (recW d (.event 0 1 (some 0))) ∧ (0 : Nat) ≤ s.now.toNat ∧ s.running = true ∧
    (recW d (.event 0 1 (some 0))).inst.opcode ≠ 6 ∧ (s.ring 0).regs.length = 64 := by decide

/-- The step fetched from place k of that image. -/
def step0 (k : Nat) (d : BitVec 256) : JRec := { rec0 d with step := some 4, pc := k }

/-- A CTL.CALL of that image, entered, that stands at step k, which is fetched. -/
def calling (k : Nat) (d : BitVec 256) : State := { withImage with
  rings := [(0, { ring0 with calls := [{ image := 3, pc := k }], fetched := 5 })]
  jrn := { recs := [{ rec0 (inst 6 0 0 3 0 0) with state := .issued, wait := some .run }], steps := [step0 k d] } }

theorem test_witness_loop : let d := inst 5 0 9 0 0 0
    Runs { step := some 4 } (step0 1 d) (calling 1 d) ∧ (step0 1 d).inst.opcode = 0x05 ∧
    bits (jobAt (calling 1 d) (step0 1 d)).w0.toNat 0 12 < (step0 1 d).pc := by unfold Runs; decide

theorem test_witness_ret : let d := inst 7 0 0 0 0 0
    Runs { step := some 4 } (step0 2 d) (calling 2 d) ∧ (step0 2 d).inst.opcode = 0x07 := by unfold Runs; decide

/-- CompletionWritesRecordAndDst: a step that completes, and one whose failure ends its call. -/
theorem test_witness_step_ends : let d := inst 8 0 9 0 0 0
    let s := calling 1 d
    s.rec? { step := some 4 } = some (step0 1 d) ∧ (s.ring 0).calls = [{ image := 3, pc := 1 }] ∧ 1 < (s.imageSteps 3).length ∧
    (step0 1 d).uses = [] ∧ s.stepRecs 0 = [step0 1 d] ∧ ((s.ringRecs 0).find? JRec.entered).isSome = true := by decide

/-- FailsBeforeItsChecks: an unlisted opcode; a poisoned source. -/
theorem test_witness_bad_opcode : let r := rec0 (inst 0x7F 0 0 0 0 0)
    let s := base.withInst r.desc
    s.rec? at0 = some r ∧ s.issuable r = true ∧ s.stokerRing (s.ring 0).stokerKey = some 0 ∧
    listed r.inst.opcode false = false ∧ (∀ n, n ∈ r.inst.reads → (s.ring 0).isPoison n = false) ∧
    (s.ring 0).regs.length = 64 := by decide

theorem test_witness_source_failed : let r := rec0 (iword 8 4 5 2 0 0 0 0 0 0)
    let s := (withRing { ring0 with regs := List.replicate 64 { poison := true } }).withInst r.desc
    s.rec? at0 = some r ∧ s.issuable r = true ∧ s.stokerRing (s.ring 0).stokerKey = some 0 ∧ r.inst.opcode = 0x08 ∧
    (2 ∈ r.inst.reads ∧ (s.ring 0).isPoison 2 = true) ∧ (s.ring 0).regs.length = 64 := by decide

/-- NothingIssuesWhileStopped: after reset. -/
theorem test_witness_stopped : ∀ d, State.reset.dieRuns d = false := by
  intro d
  cases d <;> decide

/-! ### Witnesses: sequences and pages -/

/-- A profile of one layer. -/
def prof1 : Profile := { id := 7, layers := 1, qheads := 1, kvheads := 1, hdim32 := 1, frameKib := 3 }

/-- Its only sequence's handle. -/
def handle1 : Nat := seqHandle 0 1

/-- A sequence of `layer`, LIVE, on the West die. -/
def seq1 (y : Layer) : Seq := { state := .live, ctx := 1, gen := 1, layers := [y] }

/-- A resident sealed page of one reference. -/
def page1 : Page := { life := .sealed, res := .hot, ctx := 1, refcnt := 1, fill := 16, kib := 3, primary := some {}, chain := 9 }

/-- A part with that profile, a sequence of one full page, and two granules of its context. -/
def served : State := { owned with
  profiles := [(0, prof1)]
  seqs := [(0, seq1 { length := 16, depth := 1, ptes := [(0, { handle := 5, v := true })] })]
  pages := [(5, page1)] }

/-- With one entry and a batch descriptor of it at 0x1000: QFMT 0, the positions a to b. -/
def described (a b : Nat) : State := served.poke 0x1000 (leBytes 2 1 ++ leBytes 6 0 ++ leBytes 4 7 ++ leBytes 52 0 ++
  leBytes 8 handle1 ++ leBytes 4 a ++ leBytes 4 b)

/-- SequencesServed: SEQ.CREATE. -/
theorem test_witness_seq_create : let r := rec0 (inst 0x10 0 5 7 0 0)
    let s := served.withInst r.desc
    Runs at0 r s ∧ r.inst.opcode = 0x10 ∧ (s.ring 0).regs.length = 64 ∧ s.profileSlot (bits (jobAt s r).w0.toNat 0 32) = some 0 ∧
    bits (jobAt s r).w0.toNat 32 2 ≠ 3 ∧ (jobAt s r).layerErr (s.profile 0).layers = none ∧ s.seqDie (bits (jobAt s r).w0.toNat 32 2) (s.profile 0).layers = some .west := by unfold Runs; decide

/-- SequencesServed: SEQ.DESTROY, SEQ.TRUNC of a live sequence. -/
theorem test_witness_seq_ends : ∀ op ∈ [0x11, 0x12], let r := rec0 (inst op 0 0 handle1 0 0)
    let s := served.withInst r.desc
    Runs at0 r s ∧ r.inst.opcode = op ∧ (issuedAt s r).badNamed (jobAt s r) (jobAt s r).w0 = none ∧
    seqKey (jobAt s r).w0.toNat = 0 := by
  intro op h
  simp only [List.mem_cons, List.not_mem_nil, or_false] at h
  unfold Runs
  rcases h with h | h <;> subst h <;> decide

/-- SequencesServed: SEQ.HINT of a sequence, SEQ.QUERY. -/
theorem test_witness_seq_hint : let r := rec0 (inst 0x13 0 0 handle1 0 0)
    let q := rec0 (inst 0x14 0 0 handle1 0 0)
    (Runs at0 r (served.withInst r.desc) ∧ r.inst.opcode = 0x13 ∧
      ∃ x, x ∈ (hintChk (jobAt (served.withInst r.desc) r) (issuedAt (served.withInst r.desc) r)).took ∧
        hintsObj (jobWith (served.withInst r.desc) r x.1) = false) ∧
    (Runs at0 q (served.withInst q.desc) ∧ q.inst.opcode = 0x14 ∧ (served.ring 0).regs.length = 64 ∧
      (tablesChk (jobAt (served.withInst q.desc) q) (issuedAt (served.withInst q.desc) q)).took.isSome = true) := by
  unfold Runs; decide

/-- SequencesServed: what destroys and what truncates, at length 16 of 16. -/
theorem test_witness_seq_go_on : let d := inst 0x11 0 0 handle1 0 0
    let t := inst 0x12 0 0 handle1 16 0
    let w : Wait := .seqIdle 0
    let s := { served.withWait d w with seqs := [(0, { seq1 {} with state := .destroying })] }
    let u := { served.withWait t w with seqs := [(0, { seq1 { length := 16, ptes := [(0, { handle := 5, v := true })] } with state := .truncating })] }
    GoesOn at0 (recW d w) s ∧ (recW d w).wait = some (.seqIdle 0) ∧ (s.seq 0).state = .destroying ∧ (s.seq 0).inflight = 0 ∧
    (s.seq 0).dirCold = false ∧
    GoesOn at0 (recW t w) u ∧ u.heldSeq (u.job (recW t w)).ctx (u.job (recW t w)).w0 = some 0 ∧
    (u.seq 0).state = .truncating ∧ (u.seq 0).inflight = 0 ∧ (u.seq 0).dirCold = false ∧
    (∀ l, l < (u.seq 0).layers.length → u.cutOf 0 l 16 = .nothing) := by unfold GoesOn; decide

/-- PagesServed: PAGE.STAGE of the whole sequence, whose page is resident. -/
theorem test_witness_stage : let r := rec0 (inst 0x20 0 0 0x1000 0 0)
    let s := (described 0 0xFFFFFFFF).withInst r.desc
    Runs at0 r s ∧ r.inst.opcode = 0x20 ∧ ∃ x, x ∈ (stageChk (jobAt s r) (issuedAt s r)).took ∧
      let j := jobWith s r x.1
      let s1 := passed x.2 r x.1
      let es := s1.entries j.w0.toNat (s1.desc j.w0.toNat).count
      let w := (es.foldl (fun s e => s.walked e.key) s1).stageWalk ((s1.stageSpans j).zip (x.1.lens.zip x.1.bases))
      w.1 = [5] ∧ w.2.1 = [] := by unfold Runs; decide

/-- `described`, with its page away. -/
def awayPage (s : State) : State := { s with pages := [(5, { page1 with res := .cold, primary := none, coal := true })] }

/-- PagesServed: PAGE.STAGE whose page is away, and one that waited for a page that has come. -/
theorem test_witness_stage_waits : let r := rec0 (inst 0x20 0 0 0x1000 0 0)
    let s := (awayPage (described 0 0xFFFFFFFF)).withInst r.desc
    Runs at0 r s ∧ ∃ x, x ∈ (stageChk (jobAt s r) (issuedAt s r)).took ∧
      let j := jobWith s r x.1
      let s1 := passed x.2 r x.1
      let es := s1.entries j.w0.toNat (s1.desc j.w0.toNat).count
      ((es.foldl (fun s e => s.walked e.key) s1).stageWalk ((s1.stageSpans j).zip (x.1.lens.zip x.1.bases))).2.1 = [5] := by
  unfold Runs; decide

theorem test_witness_stage_goes_on : let w : Wait := .stage [(5, none)]
    let r := { recW (inst 0x20 0 0 0x1000 0 0) w with snap := { lens := [16], bases := [0], asked := true } }
    let s := { described 0 0xFFFFFFFF with jrn := { recs := [r] } }
    let j := s.job r
    GoesOn at0 r s ∧ r.wait = some (.stage [(5, none)]) ∧ r.snap.asked = true ∧ (((s.entries j.w0.toNat (s.desc j.w0.toNat).count).foldl
      (fun s e => s.walked e.key) s).stageWalk ((s.stageSpans j).zip (r.snap.lens.zip r.snap.bases))).2.1 = [] := by
  unfold GoesOn; decide

/-- PagesServed: PAGE.SEAL. -/
theorem test_witness_seal : let r := rec0 (inst 0x21 0 0 handle1 0 0)
    let s := served.withInst r.desc
    Runs at0 r s ∧ r.inst.opcode = 0x21 ∧ (tablesChk (jobAt s r) (issuedAt s r)).took.isSome = true := by unfold Runs; decide

/-- PagesServed: PAGE.FETCH of the one page. -/
theorem test_witness_fetch : let r := rec0 (inst 0x22 0 0 handle1 0x100000000 0x2000)
    let s := served.withInst r.desc
    Runs at0 r s ∧ r.inst.opcode = 0x22 ∧ ∃ x, x ∈ (fetchChk (jobAt s r) (issuedAt s r)).took ∧
      let j := jobWith s r x.1
      let s1 := passed x.2 r x.1
      let w := (s1.walked 0).fetchWalk 0 (fetchList (j.layersOf (s1.prof 0).layers) (bits j.w1.toNat 0 32) (bits j.w1.toNat 32 32))
      w.1.map Prod.snd = [5] ∧ w.2.1 = [] ∧ w.2.2.1 = [] ∧ (s1.prof 0).frameKib * 1024 = 3072 ∧
      w.2.2.2.mem.readErr (viewBase 5) 3072 = none := by unfold Runs; decide

/-- PagesServed: a full open page of the first logical page, with token ids and without; one that is not full. -/
theorem test_witness_seal_page : let p : Page := { page1 with life := .opened }
    let s := served.setPage 5 p
    (s.page 5).life = .opened ∧ (s.page 5).fill = 16 ∧ (s.page 5).noIds = false ∧
    ((s.setPage 5 { p with noIds := true }).page 5).noIds = true ∧ ((s.setPage 5 { p with fill := 15 }).page 5).fill ≠ 16 ∧
    (served.page 5).life ≠ .opened := by decide

/-- RowsAppended: one entry of no rows, so that no page is needed. -/
theorem test_witness_append : let r := rec0 (inst 0x30 0 0 0x1000 0x2000 0)
    let s := (described 0xFFFFFFFF 0).withInst r.desc
    Runs at0 r s ∧ r.inst.opcode = 0x30 ∧ ∃ x, x ∈ (appendChk (jobAt s r) (issuedAt s r)).took ∧
      let j := jobWith s r x.1
      let s1 := passed x.2 r x.1
      let d := s1.desc j.w0.toNat
      let es := s1.entries j.w0.toNat d.count
      let s2 := es.foldl (fun s e => s.walked e.key) s1
      let all := appendList (s2.descLayers j d) es j.w1.toNat (rowStride prof1 r.inst.x1 false)
      s2.profileSlot d.profile = some 0 ∧ d.qfmt = 0 ∧ (∀ e, e ∈ all → e.rows = 0) ∧
      (∀ e, e ∈ es → ∀ l, l ∈ s2.descLayers j d → s2.openGone e.key l = false) ∧ s2.needs all [] [] = [] := by
  unfold Runs; decide

theorem test_witness_append_ready : ∃ s3 got, State.allocNeeds [] [] (served.use at0 []) [] = (.ready s3, got) ∧
    served.outgrown (served.use at0 []) = false := ⟨_, _, rfl, by decide⟩

/-- RowsAppended: the layer of the sequence. -/
theorem test_witness_append_pos : 0 < (served.seq 0).layers.length := by decide

/-! ### Witnesses: the prefix store, attention, windows -/

/-- A prefix store in use by an empty sequence. -/
def prefixed : State := { served with seqs := [(0, seq1 {})], dom := { dirEn := true } }

/-- PrefixMatched: sixteen tokens, the directory on and off. -/
theorem test_witness_match : ∀ on : Bool, let r := rec0 (inst 0x40 0 0 handle1 0x2000 0x100000010)
    let s := { prefixed with dom := { dirEn := on } }.withInst r.desc
    Runs at0 r s ∧ r.inst.opcode = 0x40 ∧ s.dom.dirEn = on ∧ ∃ x, x ∈ (matchChk (jobAt s r) (issuedAt s r)).took ∧
      let j := jobWith s r x.1
      let s1 := (passed x.2 r x.1).setSeq 0 { (passed x.2 r x.1).seq 0 with tokSrc := j.w1.toNat, tokCnt := 16 }
      seqKey j.w0.toNat = 0 ∧ bits j.w2.toNat 0 32 = 16 ∧ s.mem.readErr j.w1.toNat (64 * (s1.prof 0).rowsFor 16) = none := by
  intro on
  unfold Runs
  cases on <;> decide

/-- PrefixRowsServed: a row that goes in: its context has quota, its chain a free slot. -/
theorem test_witness_insert_row : let s := { served with ctxs := [(1, { state := .active, quota := 9 })] }
    (match s.insertRow 1 0 0 [5] none .context 0 [] with
      | .done i _ => decide (i = 9 * 8)
      | _ => false) = true := by decide

/-- PrefixRowsServed: PFX.PUBLISH whose first row may not be published, and one of no rows. -/
theorem test_witness_publish : let r := rec0 (inst 0x41 0 0 handle1 0 0)
    let s := ({ prefixed with seqs := [(0, seq1 {})] }).withInst r.desc
    Runs at0 r s ∧ r.inst.opcode = 0x41 ∧ ∃ x, x ∈ (publishChk (jobAt s r) (issuedAt s r)).took ∧
      let s1 := passed x.2 r x.1
      (s1.walked 0).rowPages 0 0 ((s1.walked 0).prof 0).layers = none := by unfold Runs; decide

theorem test_witness_publish_rows : ∃ m t, State.publishRows {} 0 .context 0 0 0 none 0 prefixed = succeeds m t := ⟨0, _, rfl⟩

/-- PrefixRowsServed: PFX.FORK of all positions. -/
theorem test_witness_fork : let r := rec0 (inst 0x42 0 0 handle1 0xFFFFFFFF 0)
    let s := served.withInst r.desc
    Runs at0 r s ∧ r.inst.opcode = 0x42 ∧ ∃ x, x ∈ (forkChk (jobAt s r) (issuedAt s r)).took ∧
      let s1 := passed x.2 r x.1
      let len := s1.forkTokens (jobWith s r x.1)
      s1.forkCuts 0 len = [] ∧ s1.tablesUsed (seqHome 0) + s1.tableKib { s1.seq 0 with layers := (s1.seq 0).layers.map (fun y =>
        { y with length := Nat.min y.length len, depth := depthFor (Nat.min y.length len) }) } ≤ tablePart := by unfold Runs; decide

/-- PrefixRowsServed: PFX.WITHDRAW. -/
theorem test_witness_withdraw : let r := rec0 (inst 0x43 0 0 handle1 0 0)
    let s := served.withInst r.desc
    Runs at0 r s ∧ r.inst.opcode = 0x43 ∧ (tablesChk (jobAt s r) (issuedAt s r)).took.isSome = true := by unfold Runs; decide

/-- AttentionCompletes: ATT.DECODE of sixteen positions. -/
theorem test_witness_decode : let r := rec0 (inst 0x50 0 0 0x1000 0x2000 0x4000)
    let s := (described 0 0xFFFFFFFF).withInst r.desc
    Runs at0 r s ∧ r.inst.opcode = 0x50 ∧ ∃ x, x ∈ (attDecodeChk (jobAt s r) (issuedAt s r)).took ∧
      let j := jobWith s r x.1
      let s1 := passed x.2 r x.1
      let d := s1.desc j.w0.toNat
      let p := s1.descProfile d
      let w := s1.attWalk j.layer.toNat x.1.hits (unitPages x.1.units)
        (s1.decodeEntries j d (fun i _ => x.1.lens.getD i 0))
      w.1.length = 1 ∧ (∀ y, y ∈ w.1 → y.away = []) ∧
      (w.2.2.keepHits j w.1).mem.readErr j.w1.toNat (decodeInLen d p) = none ∧ (w.2.2.keepHits j w.1).attBad p w.1 = none ∧
      decodeNan j d p (w.2.2.keepHits j w.1) = false := by
  unfold Runs; decide +kernel

/-- A descriptor with a length table of one query, statistics and an auxiliary block. -/
def queried (stats aux : Nat) : State := ((described 15 0).poke 0x1018 (leBytes 8 0x3000 ++ leBytes 8 stats ++ leBytes 8 aux)).poke
  0x3000 (leBytes 4 1)

/-- AttentionCompletes: ATT.PREFILL of the last position. -/
theorem test_witness_prefill : let r := rec0 (inst 0x51 0 0 0x1000 0x2000 0x4000)
    let s := (queried 0 0).withInst r.desc
    Runs at0 r s ∧ r.inst.opcode = 0x51 ∧ ∃ x, x ∈ (attPrefillChk (jobAt s r) (issuedAt s r)).took ∧
      let j := jobWith s r x.1
      let s1 := passed x.2 r x.1
      let d := s1.desc j.w0.toNat
      let p := s1.descProfile d
      let es := s1.queryBlocks j.w0.toNat d.lentab d.count
      let w := s1.attWalk j.layer.toNat x.1.hits (s1.blockPages x.1.units (fun e => s1.segArray (prefillTab j d) e.i)) es
      w.1.length = 1 ∧ (∀ y, y ∈ w.1 → y.away = []) ∧
      (∀ b, b ∈ (j.w1.toNat, rowsLen p (rowTotal es) (d.qfmt = 1)) :: s1.segBufs (prefillTab j d) es →
        (w.2.2.keepHits j w.1).mem.readErr b.1 b.2 = none) ∧
      (w.2.2.keepHits j w.1).attBad p w.1 = none ∧ prefillNan j d p (rowTotal es) (w.2.2.keepHits j w.1) = false := by
  unfold Runs; decide +kernel

/-- A merge descriptor of two parts that met no key. -/
def parted : State := (served.poke 0x7000 (leBytes 4 1 ++ leBytes 1 2 ++ leBytes 1 0 ++ leBytes 2 1 ++ leBytes 2 32 ++ leBytes 54 0
  ++ leBytes 8 0x8000 ++ leBytes 8 0x8100 ++ leBytes 8 0x8000 ++ leBytes 8 0x8100)).poke 0x8100 (leBytes 4 0xFF800000)

/-- AttentionCompletes: ATT.MERGE. -/
theorem test_witness_merge : let r := rec0 (inst 0x52 0 0 0x7000 0 0x9000)
    let s := parted.withInst r.desc
    Runs at0 r s ∧ r.inst.opcode = 0x52 ∧ (mergeChk (jobAt s r) (issuedAt s r)).took.isSome = true := by unfold Runs; decide

/-- The instruction of the backward witness, and its part: statistics of 1, a stamp that matches. -/
def bwdRec : JRec := rec0 (inst 0x53 0 0 0x1000 0x2000 0x4000)

/-- Without the stamp. -/
def bwdBare : State := ((queried 0x5000 0x6000).poke 0x6008 (leBytes 8 0x2100 ++ leBytes 8 0x2200 ++ leBytes 8 0x2300)).poke 0x2300
  (leBytes 8 0xA000)

/-- With it. -/
def bwdState : State := (bwdBare.poke 0x5000 (leBytes 4 0 ++ leBytes 4 0x3F800000)).poke 0x5040
  (bwdBare.stampBytes (jobAt (bwdBare.withInst bwdRec.desc) bwdRec) (bwdBare.desc 0x1000) 0 1 true)

/-- AttentionCompletes: ATT.BWD of the last position. -/
theorem test_witness_bwd : let r := bwdRec
    let s := bwdState.withInst r.desc
    Runs at0 r s ∧ r.inst.opcode = 0x53 ∧ ∃ x, x ∈ (attBwdChk (jobAt s r) (issuedAt s r)).took ∧
      let j := jobWith s r x.1
      let s1 := passed x.2 r x.1
      let d := s1.desc j.w0.toNat
      let p := s1.descProfile d
      let es := s1.queryBlocks j.w0.toNat d.lentab d.count
      let a := s1.aux d.aux
      let w := s1.attWalk j.layer.toNat x.1.hits (s1.blockPages x.1.units (fun e => s1.segArray a.segtab e.i)) es
      w.1.length = 1 ∧ (∀ y, y ∈ w.1 → y.away = []) ∧
      (∀ b, b ∈ bwdBufs j d p a (rowTotal es) ++ s1.segBufs a.segtab es → (w.2.2.keepHits j w.1).mem.readErr b.1 b.2 = none) ∧
      (w.2.2.keepHits j w.1).attBad p w.1 = none ∧ bwdNan j d p a (rowTotal es) (w.2.2.keepHits j w.1) = false := by
  unfold Runs; decide +kernel

/-- A keyed weight object of one layer of one chunk, and a sealed open connection of its context, which has the WEIGHTS right. -/
def weighted : State := { owned with
  ctxs := [(1, { state := .active, rights := 0x10 })]
  wobjs := [(0, { live := true, ctx := 1, lengths := [100], firsts := [64], loaded := [0], keyed := true })]
  pages := [(64, { page1 with kib := 64, chunk := some (0, 0) })]
  flu := { conns := [(3, { ctx := 1, sealed := true, state := .opened, txLimit := 9 })] } }

/-- WindowsServed: WIN.OPEN with a depth of 16. -/
theorem test_witness_win_open : let r := rec0 (inst 0x60 0 0 (2 ^ 39) 0x100003 0)
    let s := weighted.withInst r.desc
    let j := jobAt s r
    Runs at0 r s ∧ r.inst.opcode = 0x60 ∧ (s.ring 0).regs.length = 64 ∧
    ((begun s r).checkObj (s.wobj 0).ctx j.w0 8).toOption = some 0 ∧ (s.wobj 0).ready = true ∧ (s.wobj 0).keyed = true ∧
    (s.ctx j.ctx).rights.getLsbD 4 = true ∧ (s.wobj 0).ctx = j.ctx ∧ (s.conn 3).ctx.toNat = j.ctx ∧ (s.conn 3).sealed = true ∧ bits j.w1.toNat 16 8 = 16 ∧
    bits j.w1.toNat 0 15 = 3 ∧ j.allLayers = false ∧ j.layer.toNat < (s.wobj 0).lengths.length ∧ j.w2.toNat % 64 = 0 ∧ s.wins.length < 256 := by
  unfold Runs; decide

/-- A window of that object with a layer acknowledged. -/
def win1 : Win := { obj := 0, ctx := 1, conn := 3, depth := 2, begun := 1, acked := 1 }

/-- WindowsServed: WIN.ADVANCE past the one acknowledged layer; WIN.CLOSE of a window with and without messages. -/
theorem test_witness_win_advance : let r := rec0 (inst 0x61 0 0 0 1 0)
    let s := { weighted with wins := [(0, win1)] }.withInst r.desc
    Runs at0 r s ∧ s.wins.look (jobAt s r).w0.toNat = some win1 ∧ win1.ctx = (jobAt s r).ctx ∧
    (s.ctx (jobAt s r).ctx).rights.getLsbD 4 = true ∧ win1.selfClosed = false ∧ r.inst.opcode = 0x61 ∧ win1.closing = false ∧
    bits (jobAt s r).w1.toNat 0 16 ≤ win1.acked - win1.released := by unfold Runs; decide

theorem test_witness_win_close : let r := rec0 (inst 0x62 0 0 0 0 0)
    let s := { weighted with wins := [(0, win1)] }.withInst r.desc
    Runs at0 r s ∧ s.wins.look (jobAt s r).w0.toNat = some win1 ∧ win1.ctx = (jobAt s r).ctx ∧
    (s.ctx (jobAt s r).ctx).rights.getLsbD 4 = true ∧ r.inst.opcode = 0x62 ∧ win1.msgs = [] ∧ ({ win1 with msgs := [(0, 0)] } : Win).msgs ≠ [] := by unfold Runs; decide

/-- WindowsServed: the sending of the next layer. -/
theorem test_witness_win_send : let s := { weighted with wins := [(0, win1)] }
    let w := win1
    s.wins.look 0 = some w ∧ w.selfClosed = false ∧ w.closing = false ∧ (s.conn w.conn).state = .opened ∧
    (s.conn w.conn).sealed = true ∧ w.begun - w.released < w.depth ∧ (s.wobj w.obj).live = true ∧
    (s.conn w.conn).tx.length + (layerMsgs ((s.wobj w.obj).lengths.getD (s.winLayer w w.begun) 0)).length ≤ 256 ∧
    s.chunks w.obj (s.winLayer w w.begun) = [64] ∧ (s.stackTreat 64).running = true ∧
    ((s.stackTreat 64).page 64).resident = true ∧ ((s.stackTreat 64).page 64).life ≠ .lost := by decide

/-! ### Witnesses: pool operations, check units, counters, keys -/

/-- PoolOperations: each operation on one line. -/
theorem test_witness_pool : let fill := rec0 (inst 0x70 0 0 0x1000 64 5)
    (Runs at0 fill (owned.withInst fill.desc) ∧ fill.inst.opcode = 0x70 ∧ (owned.withInst fill.desc).mem.wf = true ∧
      (begun (owned.withInst fill.desc) fill).badPool 1 (PoolOp.of 0x70 0x1000 64 5) = none) ∧
    (∀ op ∈ [0x70, 0x71, 0x72, 0x73], let r := rec0 (inst op 0 0 0x1000 0x2000 64)
      let s := owned.withInst r.desc
      let o := PoolOp.of op 0x1000 0x2000 64
      Runs at0 r s ∧ r.inst.opcode = op ∧ (begun s r).badPool 1 o = none ∧ (begun s r).poolErr o = none) := by
  constructor
  · unfold Runs; decide
  · intro op h
    simp only [List.mem_cons, List.not_mem_nil, or_false] at h
    unfold Runs
    rcases h with h | h | h | h <;> subst h <;> decide

/-- A context that holds check unit 63, which is SET with an alive count of four bits. -/
def checked : State := { owned with
  ctxs := [(1, { state := .active, chkMask := 0x8000000000000000 })]
  chk := [(63, { poly := 7, aliveW := 4, aliveNext := 15 })] }

/-- CheckUnitsServe: CHK.SETUP from a block of width 8. -/
theorem test_witness_chk_setup : let r := rec0 (inst 0x90 0 0 63 0x1000 0)
    let s := (checked.poke 0x1018 [8]).withInst r.desc
    let j := jobAt s r
    Runs at0 r s ∧ (s.ring 0).regs.length = 64 ∧ (s.ctx j.ctx).chkMask.getLsbD 63 = true ∧ r.inst.opcode = 0x90 ∧
    (begun s r).rng j.ctx j.w1.toNat 64 1 = none ∧ s.mem.readErr j.w1.toNat 64 = none ∧ s.unitReserved j.w1.toNat = none ∧
    (s.unitBlock j.w1.toNat).bad = false := by unfold Runs; decide

/-- CheckUnitsServe: CHK.SAVE, CHK.RESTORE of the largest value, CHK.FEED of one byte. -/
theorem test_witness_chk_ops : let save := rec0 (inst 0x92 0 0 63 0 0)
    let rest := rec0 (inst 0x93 0 0 63 255 0)
    let feed := rec0 (inst 0x91 0 0 63 0x1000 1)
    (Runs at0 save (checked.withInst save.desc) ∧ save.inst.opcode = 0x92 ∧ checked.chk.has 63 = true) ∧
    (Runs at0 rest (checked.withInst rest.desc) ∧ rest.inst.opcode = 0x93 ∧ (255 : Nat) < 2 ^ (checked.chk.lookD 63 {}).width) ∧
    (Runs at0 feed (checked.withInst feed.desc) ∧ feed.inst.opcode = 0x91 ∧ feed.inst.x0 = false ∧
      (begun (checked.withInst feed.desc) feed).checkRange 1 0x1000 1 1 false = none ∧
      checked.mem.readErr 0x1000 1 = none) := by unfold Runs; decide

/-- CheckUnitsServe: an alive value that is not the expected one. -/
theorem test_witness_alive : let r := rec0 (inst 0x91 0x20 0 63 0x1000 (1 + 14 * 2 ^ 48))
    let s := checked.withInst r.desc
    let j := jobAt s r
    let x := s.chk.lookD 63 {}
    Runs at0 r s ∧ r.inst.opcode = 0x91 ∧ r.inst.x0 = true ∧ (s.ctx j.ctx).chkMask.getLsbD 63 = true ∧ s.chk.has 63 = true ∧
    (begun s r).checkRange j.ctx j.w1.toNat 1 1 false = none ∧ x.aliveW ≠ 0 ∧ bits j.w2.toNat 48 16 < 2 ^ x.aliveW ∧
    bits j.w2.toNat 48 16 ≠ x.aliveNext := by unfold Runs; decide

/-- CountersServe: the last counter started with event 1, stopped, sampled. -/
theorem test_witness_counters : let a := rec0 (inst 0xA0 0 0 255 1 0)
    let b := rec0 (inst 0xA1 0 0 255 0 0)
    let c := rec0 (inst 0xA2 0 0 255 0x1000 0)
    (Runs at0 a (owned.withInst a.desc) ∧ a.inst.opcode = 0xA0 ∧ badSelector 1 = false ∧ bitOf 1 12 = false) ∧
    (Runs at0 b (owned.withInst b.desc) ∧ b.inst.opcode = 0xA1) ∧
    (Runs at0 c (owned.withInst c.desc) ∧ c.inst.opcode = 0xA2 ∧
      (begun (owned.withInst c.desc) c).rngUp 1 0x1000 16 1 = none) := by unfold Runs; decide

/-- KeysServe: a registration of one line. -/
theorem test_witness_key_register : let r := rec0 (inst 0xB0 0 0 0x1000 64 0x8000)
    let s := owned.withInst r.desc
    Runs at0 r s ∧ r.inst.opcode = 0xB0 ∧ (s.ring 0).regs.length = 64 ∧ (begun s r).rng 1 0x1000 64 0 = none ∧
    ((begun s r).keySlot .west).isSome = true ∧ ((begun s r).keySlot .east).isSome = true ∧ s.flu.keys.lowFree < 4096 := by
  unfold Runs; decide

/-- A live registration. -/
def keyed : State := { owned with flu := { keys := [(0, { rkey := 5, ctx := 1, base := 0x1000, len := 64, write := true })] } }

/-- KeysServe: its revocation, and what ends it. -/
theorem test_witness_key_revoke : let r := rec0 (inst 0xB1 0 0 5 0 0)
    let s := keyed.withInst r.desc
    let t := keyed.withWait r.desc (.revoke 0)
    (Runs at0 r s ∧ r.inst.opcode = 0xB1 ∧ s.keyOf (jobAt s r).ctx (bits (jobAt s r).w0.toNat 0 32) = some 0) ∧
    (GoesOn at0 (recW r.desc (.revoke 0)) t ∧ (recW r.desc (.revoke 0)).wait = some (.revoke 0) ∧
      (recW r.desc (.revoke 0)).uses = [] ∧ (t.flu.keys.lookD 0 {}).inflight = 0) := by unfold Runs GoesOn; decide

/-! ### Witnesses: the Flue transport and the Damper unit -/

/-- A port that is up. -/
def portOn : PortState := { en := true, up := true, phy := 1 }

/-- A part whose ports carry frames, with an open connection 3 of context 1 and no credit. -/
def linked : State := { owned with flu := { port := ⟨portOn, portOn⟩, flueEn := true, readEn := true, bothDown := none
                                            conns := [(3, { ctx := 1, state := .opened, initCredit := 1 })] } }

/-- FlueSendsAndWaits: FLUE.SEND of one byte. -/
theorem test_witness_send : let r := rec0 (inst 0x80 0 0 0 (0x1000 + 3 * 2 ^ 49) 1)
    let s := linked.withInst r.desc
    let j := jobAt s r
    Runs at0 r s ∧ r.inst.opcode = 0x80 ∧ bits j.w1.toNat 49 15 = 3 ∧ bits j.w2.toNat 0 27 = 1 ∧ (s.conn 3).ctx.toNat = j.ctx ∧
    (s.conn 3).state = .opened ∧ (begun s r).rng j.ctx (bits j.w1.toNat 0 49) 1 1 1 = none ∧ s.mem.readErr 0x1000 1 = none ∧
    (s.conn 3).tx.length < 256 := by unfold Runs; decide

/-- FlueSendsAndWaits: FLUE.WAIT at its threshold, below it, and past its timeout. -/
theorem test_witness_flue_wait : let a := rec0 (inst 0x81 0 0 3 0 0)
    let b := rec0 (inst 0x81 0 0 3 1 9)
    let t := linked.withWait b.desc (.inbound 3 1 (some 0))
    (Runs at0 a (linked.withInst a.desc) ∧ a.inst.opcode = 0x81 ∧
      (jobAt (linked.withInst a.desc) a).w1 ≤ (linked.conn 3).rxDone.setWidth 64) ∧
    (Runs at0 b (linked.withInst b.desc) ∧ ¬ (jobAt (linked.withInst b.desc) b).w1 ≤ (linked.conn 3).rxDone.setWidth 64) ∧
    (t.rec? at0 = some (recW b.desc (.inbound 3 1 (some 0))) ∧ (0 : Nat) ≤ t.now.toNat ∧ t.running = true ∧
      (recW b.desc (.inbound 3 1 (some 0))).inst.opcode ≠ 6) := by unfold Runs; decide

/-- `linked` with MACsec in force on its West port. -/
def secured : State := linked.setPort .west { portOn with macsecEn := true, macsecUp := true }

/-- FluePacketsDecided: a packet while FLUE_EN is clear, one that MACsec does not pass, one that it does; a malformed DATA packet; an ACK
of the peer whose seal or alive count is wrong. -/
theorem test_witness_packet_dropped : let k : Packet := { type := 1, plen := 1 }
    let a : Packet := { type := 2, conn := 3, plen := 96, flags := 8, payload := List.replicate 96 0 }
    let b : Packet := { type := 2, conn := 3, plen := 96, alive := 1, payload := List.replicate 96 0 }
    (let off := { linked with flu := { linked.flu with flueEn := false } }
     frameFits k.frameLen = true ∧ (off.flu.port.get .west).up = true ∧ off.flu.flueEn = false) ∧
    secured.portCarries .west = true ∧ secured.macsecIn .west k.sec = none ∧ (secured.macsecIn .west (some {})).isSome = true ∧
    linked.portCarries .west = true ∧ k.ce = false ∧ malformed k = true ∧
    malformed a = false ∧ typeOk a = true ∧ (linked.conn 3).fromPeer a = true ∧ pktSealed a ≠ (linked.conn 3).sealed ∧
    malformed b = false ∧ typeOk b = true ∧ pktSealed b = (linked.conn 3).sealed ∧ b.alive ≠ (linked.conn 3).peerAlive := by decide

/-- A registration of one line that connection 3 may write and read. -/
def reachable3 : State := (({ linked with flu := { linked.flu with
    keys := [(0, { rkey := 5, ctx := 1, conn := some 3, base := 0x1000, len := 64, read := true, write := true })] } }).domPut
    (12 * 8192) (keyEntry 5 1 (some 3) 0 0)).domPut (28 * 8192) (keyEntry 5 1 (some 3) 0 0)

/-- FluePacketsDecided: a DATA packet that passes every check. -/
theorem test_witness_data : let k : Packet := { type := 1, conn := 3, plen := 4, payload := [1, 2, 3, 4], rkey := 5, raddr := 0x1000 }
    let s := reachable3
    s.portCarries .west = true ∧ frameFits k.frameLen = true ∧ k.ce = false ∧ malformed k = false ∧
    typeOk k = true ∧ (s.conn 3).state = .opened ∧
    (s.ingress .west 3 k).1 = some 0 ∧ (s.conn 3).fromPeer k = true ∧ pktSealed k = (s.conn 3).sealed ∧
    k.alive = (s.conn 3).peerAlive ∧ (s.conn 3).isDone 0 = false ∧ s.rx? 3 0 = none ∧ s.shapeOk 3 k = true ∧
    (s.keyCheck .west 3 k.rkey k.raddr.toNat 4 false).toOption = some 0 := by decide

/-- FluePacketsDecided: a port without MACsec passes a packet without a SecTAG. -/
theorem test_witness_macsec : linked.macsecIn .west none = some linked ∧ reachable3.macsecIn .west none = some reachable3 := ⟨rfl, rfl⟩

/-- FluePacketsDecided: an ACK COMPLETE of a message; a CLOSE; a READ of one byte. -/
theorem test_witness_ack_close_read : let a : Packet := { type := 2, conn := 3, plen := 96, payload := List.replicate 8 0 ++ [1] ++ List.replicate 87 0 }
    let c : Packet := { type := 3, conn := 3, plen := 4, payload := [0, 0, 0, 0] }
    let r : Packet := { type := 4, conn := 3, plen := 16, rkey := 5, raddr := 0x1000, payload := List.replicate 12 0 ++ [1, 0, 0, 0] }
    let s := reachable3
    let s2 := s.setConn 3 { s.conn 3 with tx := [{ next := 1 }] }
    (malformed a = false ∧ typeOk a = true ∧ (s2.conn 3).fromPeer a = true ∧ ofBytes ((a.payload.drop 8).take 1) = 1 ∧
      ((s2.ackProgress 3 a).tx? 3 0).isSome = true) ∧
    (malformed c = false ∧ typeOk c = true ∧ (s.conn 3).fromPeer c = true ∧ c.alive = (s.conn 3).peerAlive ∧
      (s.flu.port.get .west).queue = [] ∧ (s.flu.port.get .east).queue = []) ∧
    (malformed r = false ∧ typeOk r = true ∧ (s.ingress .west 3 r).1 = some 0 ∧ (s.conn 3).isDone 0 = false ∧ s.rx? 3 0 = none ∧
      readLen r = 1 ∧ (r.msgSeq - (s.conn 3).rxCum).toNat < 256 ∧ s.flu.readEn = true ∧
      (s.keyCheck .west 3 r.rkey r.raddr.toNat (readLen r) true).toOption = some 0) := by decide

/-- PortFramesTaken. -/
theorem test_witness_frames : let f : EthFrame := { etherType := 0x0800 }
    let s := { linked with flu := { linked.flu with pfcEn := 0x80, port := ⟨{ portOn with paused := [(7, 0)], macsecEn := true, cak := some (1, 2) }, portOn⟩ } }
    (s.flu.port.get .west).up = true ∧ frameFits f.len = true ∧ frameFits 63 = false ∧ frameFits 9217 = false ∧ f.fecBad = false ∧ f.pfc = false ∧ f.mka = false ∧ f.udp = none ∧
    f.etherType.toNat ≠ bits s.flu.encap.toNat 0 16 ∧ s.flu.pfcEn.getLsbD 7 = true ∧
    (s.flu.port.get .west).paused.look 7 = some 0 ∧ (0 : Nat) ≤ s.now.toNat ∧
    (s.flu.port.get .west).cak = some (1, 2) ∧ (s.flu.port.get .west).macsecEn = true ∧ (s.flu.port.get .west).macsecUp = false ∧
    (secured.flu.port.get .west).macsecUp = true := by decide

/-- FlueTimersServe: the moments at which each timer ends. -/
theorem test_witness_flue_timers : let m : TxMsg := { next := 1, sent := [(0, some 0, 3, .east), (1, none, 0, .east)] }
    let r : RxMsg := { unackedAt := some 0 }
    let s := { linked.setConn 3 { linked.conn 3 with tx := [m], rx := [r] } with now := 500000 }
    (s.conn 3).state = .opened ∧ s.rx? 3 0 = some r ∧ r.unackedAt = some 0 ∧ 0 + 1000 * s.flu.ackDelayUs ≤ s.now.toNat ∧
    s.tx? 3 0 = some m ∧ m.sent.find? (fun e => e.1 == 0) = some (0, some 0, 3, .east) ∧
    m.sent.find? (fun e => e.1 == 1) = some (1, none, 0, .east) ∧ 0 ∉ m.covered ∧ (s.conn 3).worn = false ∧ 3 < 4 ∧
    0 + 5000 ≤ s.now.toNat ∧ s.portCarries Side.east.other = true ∧ m.progress + 1000 * s.flu.msgTimeoutUs ≤ s.now.toNat ∧
    s.flu.bothDown = none ∧ (s.conn 3).timeouts + 1 < s.flu.closeAfter ∧
    s.flu.closeAfter ≤ ({ s.conn 3 with timeouts := 7 } : Conn).timeouts + 1 := by decide

/-- A port with one frame to send and a gate schedule. -/
def gated : State := { linked with flu := { linked.flu with port := ⟨{ portOn with
  queue := [{ cls := 4, conn := 3, counted := 84 }], gate := some { entries := [(100, 0xFFFFFFFFFFFFFFFF)] }, pendingGate := some ({}, 0) }, portOn⟩ } }

/-- DamperServes: the first refill that is due, a frame that may leave, a schedule that is due, a DISABLE before and at its boundary. -/
theorem test_witness_damper : (let s := { gated with now := 256 }
     s.now.toNat % 256 = 0 ∧ s.dmp.refilledAt.getD 0 / 256 < s.now.toNat / 256 ∧ s.live = true) ∧
    (let b := Nat.max (100 * gated.now.toNat) (gated.flu.port.get .west).busyUntil
     (gated.flu.port.get .west).up = true ∧ (gated.flu.port.get .west).busyUntil < 100 * gated.now.toNat + 100 ∧
      (((gated.gateDue .west).gateWaits .west b).pickFrame .west b).isSome = true) ∧
    ((gated.flu.port.get .west).pendingGate = some ({}, 0) ∧ (0 : Nat) ≤ gated.now.toNat) ∧
    (gated.flu.port.get .west).gate = some { entries := [(100, 0xFFFFFFFFFFFFFFFF)] } ∧ (gated.flu.port.get .west).disabling = none ∧
    ({ gated.flu.port.get .west with disabling := some 0 } : PortState).disabling = some 0 := by decide

/-- ConnectionCommands: READ, WRITE, OPEN and CLOSE of connection 3. -/
theorem test_witness_conn_commands : linked.regWritable mgr = true ∧ bits (3 : BitVec 64).toNat 16 3 = 0 ∧
    bits (0x10003 : BitVec 64).toNat 16 3 = 1 ∧ bits (0x20004 : BitVec 64).toNat 16 3 = 2 ∧
    bits (0x30003 : BitVec 64).toNat 16 3 = 3 ∧ (linked.conn 3).state ≠ .closed ∧
    (let s := linked.setConn 4 { ctx := 1 }
     s.flu.closing = none ∧ (s.conn 4).state = .closed ∧ s.flu.flueEn = true ∧ (s.ctx (s.conn 4).ctx.toNat).state = .active ∧
      ¬(((s.conn 4).sealed = true ∧ (s.conn 4).keyed = none) ∨ ((s.conn 4).sealed = false ∧ s.sec.confidential = true))) ∧
    ({ linked.flu with closing := some 3 } : Flu).closing.isSome = true := by decide

/-! ### Witnesses: registers -/

/-- A part with an entry in bank 14, the first classifier bank, and one in bank 0. -/
def domUsed : State := { base with dom := { dirEn := true, bankEn := [(14, true)], entries := [(0, { width := 2, mask := 0 }), (14 * 8192, {})] } }

/-- DominoAccess: while a shift runs; LOOKUP and READ with and without an entry, and of a bank that may not be read; writes to another
bank, to a full one, to a free slot, to a used one with and without room above; the last move of a shift and one before it. -/
theorem test_witness_domino : domUsed.regWritable mgr = true ∧ bitOf (1 : BitVec 64).toNat 0 = true ∧
    bitOf domUsed.dom.accStatus.toNat 0 = false ∧
    (bits (0 : BitVec 64).toNat 0 3 = 0 ∧ domUsed.accReadable 0 = true ∧
      (domUsed.domLookup (bankDie 0) (bankGroup 0) domUsed.dom.accKey).isSome = true ∧
      base.domLookup (bankDie 0) (bankGroup 0) base.dom.accKey = none) ∧
    (bits (1 : BitVec 64).toNat 0 3 = 1 ∧ domUsed.dom.entries.look (0 * 8192 + 0) = some { width := 2, mask := 0 } ∧
      base.dom.entries.look (0 * 8192 + 0) = none) ∧
    ({ domUsed with sec := { confidential := true } } : State).accReadable 0 = false ∧ bankGroup 0 ≠ .classifier ∧
    (bits (0xE02 : BitVec 64).toNat 0 3 = 2 ∧ bits (0xE02 : BitVec 64).toNat 8 5 = 14 ∧ bankGroup 14 = .classifier ∧
      domUsed.dom.shifts.has 14 = false ∧ (domUsed.domFree 14).isSome = true) ∧
    (bits (0x2E03 : BitVec 64).toNat 0 3 = 3 ∧ bits (0x2E03 : BitVec 64).toNat 13 13 = 1 ∧ 1 % domUsed.bankUnits 14 = 0 ∧
      domUsed.dom.entries.has (14 * 8192 + 1) = false) ∧
    (bits (0xE03 : BitVec 64).toNat 0 3 = 3 ∧ domUsed.dom.entries.has (14 * 8192 + 0) = true ∧
      domUsed.freeAbove 14 0 = some (14 * 8192 + 1) ∧ domUsed.freeAbove 14 8191 = none) ∧
    bits (0xE04 : BitVec 64).toNat 0 3 = 4 ∧
    (let sh : Shift := { target := 14 * 8192, hole := 14 * 8192 + 1 }
     let s := { domUsed with dom := { domUsed.dom with shifts := [(14, sh)] } }
     s.dom.shifts.look 14 = some sh ∧ sh.target < sh.hole ∧ (s.dom.entries.look (sh.hole - s.bankUnits 14)).isSome = true ∧
      sh.hole - s.bankUnits 14 = sh.target ∧
      ({ sh with hole := sh.hole + 1 } : Shift).hole - s.bankUnits 14 ≠ sh.target) := by decide +kernel

/-- PlacementRegistersHoldTheirRanges: the ends of the range of DRT_RES_BOUND; LOW_FREE below and not below HIGH_FREE. -/
theorem test_witness_placement : base.regWritable mgr = true ∧ bits (19 : BitVec 64).toNat 0 20 < 20 ∧
    1000000 < bits (1000001 : BitVec 64).toNat 0 20 ∧ bits (20 : BitVec 64).toNat 0 20 = 20 ∧
    bits (1000000 : BitVec 64).toNat 0 20 = 1000000 ∧ bits (0x2120 : BitVec 64).toNat 0 8 < bits (0x2120 : BitVec 64).toNat 8 8 ∧
    ¬ bits (0x2020 : BitVec 64).toNat 0 8 < bits (0x2020 : BitVec 64).toNat 8 8 := by decide

/-- RegisterWritesRefused: a width, an alignment, a stranger, before FW_READY. -/
theorem test_witness_register_refused : (4 : Nat) ≠ 8 ∧ 0x38FFFFC % 8 ≠ 0 ∧ base.manager guest = false ∧
    State.reset.gbl.fwReady = false ∧ 0x3000000 ≤ 0x38FFFFC ∧ 0x38FFFFC < 0x3900000 := by decide

/-- ControlRegistersTaken. -/
theorem test_witness_control : base.regWritable mgr = true ∧ (2 : BitVec 64).getLsbD 1 = true ∧ (4 : BitVec 64).getLsbD 2 = true ∧
    base.traceRefused 0 = false ∧ ({ base with sec := { confidential := true } } : State).traceRefused 0x10 = true ∧
    base.reachable = true ∧ mgr.id < 16 ∧ base.pkg.powered = true ∧ base.pkg.resetHigh = true ∧ base.dieHalted .west 11 = false := by
  decide

/-- DamperCommands: each command's code, settings at the ends of their ranges, CIR above PIR. -/
theorem test_witness_damper_commands : let s := { gated with dmp := { gated.dmp with pir := 1600000, cir := 1600000, cbs := 8704, pbs := 16777216 } }
    s.regWritable mgr = true ∧ bitOf (0x8003 : BitVec 64).toNat 15 = true ∧ bits (0xFFF : BitVec 64).toNat 0 15 < 4096 ∧
    bits (0x18003 : BitVec 64).toNat 16 2 = 1 ∧ bits (0x28003 : BitVec 64).toNat 16 2 = 2 ∧ bits (0x8003 : BitVec 64).toNat 16 2 = 0 ∧
    (s.refillDue.policer true 3).next = none ∧ bits s.dmp.cir.toNat 0 21 ≤ bits s.dmp.pir.toNat 0 21 ∧ bits s.dmp.pir.toNat 0 21 ≤ 1600000 ∧
    8704 ≤ bits s.dmp.cbs.toNat 0 25 ∧ bits s.dmp.cbs.toNat 0 25 ≤ 16777216 ∧ 8704 ≤ bits s.dmp.pbs.toNat 0 25 ∧
    bits s.dmp.pbs.toNat 0 25 ≤ 16777216 ∧ bits (0 : BitVec 64).toNat 0 21 < bits (1 : BitVec 64).toNat 0 21 ∧
    bits (0 : BitVec 64).toNat 1 3 = 0 ∧ bits (2 : BitVec 64).toNat 1 3 = 1 ∧ bits (4 : BitVec 64).toNat 1 3 = 2 ∧
    bits (6 : BitVec 64).toNat 1 3 = 3 ∧ (let u := { s with flu := { s.flu with port := ⟨{ s.flu.port.w with pendingGate := none }, s.flu.port.e⟩ } }
      ((u.gateDue .west).flu.port.get .west).gate = some { entries := [(100, 0xFFFFFFFFFFFFFFFF)] }) ∧
    ([(100, 0xFFFFFFFFFFFFFFFF)] : List (Nat × BitVec 64))[0]? = some (100, 0xFFFFFFFFFFFFFFFF) := by decide

/-- DamperCommands: a schedule that is committed, and one that is refused. -/
theorem test_witness_gate_commit : let s := { linked with
      flu := { linked.flu with port := ⟨{ portOn with gateList := [(0, (1000000, 0xFFFFFFFFFFFFFFFF))] }, portOn⟩ } }
    let g : GateSched := { entries := [(1000000, 0xFFFFFFFFFFFFFFFF)] }
    (s.gateDue .west).gateRefused .west 1 g = none ∧ ((s.gateDue .west).gateRefused .west 0 {}).isSome = true := by decide +kernel

/-! ### Witnesses: the mailbox -/

/-- `base` with other global and security settings. -/
def withSec (x : Sec) : State := { base with sec := x }

/-- `base` with a head's link up. -/
def upped (x : HeadState) : State := { base with cxp := { head := ⟨{ x with up := true }, {}⟩ } }

/-- The mailbox of `base` takes every command of its MANAGER, and a standard one of a guest. -/
theorem test_takes_vendor : base.takesVendor mgr ∧ base.takesVendorCtx mgr 1 ∧ base.takesStandard guest := by
  unfold State.takesVendorCtx State.takesVendor State.takesStandard; decide

/-- MailboxQueriesChangeNothing. -/
theorem test_witness_mailbox_queries : base.takesStandard mgr ∧ base.takesVendor mgr ∧ 64 % 64 = 0 ∧
    (base.cxp.head.get mgr.head).mode ≠ 1 ∧ base.sec.lcs ≠ .scrapped ∧ base.sec.confidential = false ∧
    base.gbl.held = false ∧ base.gbl.warming = false ∧ base.gbl.stopped = false ∧ 32767 + 1 ≤ traceSlots ∧
    base.mayWatch mgr base.tel.ctx.toNat = true ∧ (base.ctx 1).state = .active ∧ base.mayWatch mgr 1 = true := by
  unfold State.takesVendor State.takesStandard; decide

/-- A part with an event record, a bound granule, an extent of the first LD and one offered. -/
def settable : State := { owned with
  ctxs := [(1, { state := .active, bind := 1 })], sec := { debugOpen := true }
  cxp := { head := ⟨{ hdmEn := true, lds := [(0, {
    extents := [{ base := 0, len := granule }], offered := [(granule, granule)], info := [{ handle := 7 }]
    bgRun := some {}, decoders := [(0, { size := 2 ^ 38, committed := true, bi := true })] })] }, {}⟩ } }

/-- MailboxSettingsTaken. -/
theorem test_witness_mailbox_settings : settable.takesStandard mgr ∧ (∃ r, r ∈ (settable.ld mgr).log .info ∧ r.handle = 7) ∧
    settable.poisonable mgr 0 = true ∧ settable.poisonable mgr (granule - 64) = true ∧ settable.sec.debugOpen = true ∧
    base.sec.debugOpen = false ∧ (settable.cxp.head.get .west).mode ≠ 1 ∧ (granule, granule) ∈ (settable.ld mgr).offered ∧
    (settable.ld mgr).extents.length + 1 ≤ maxExtents ∧
    (settable.ld mgr).extents.find? (fun x => x.base == 0) = some { base := 0, len := granule } ∧
    settable.heldElsewhere mgr (granule, granule) = false ∧ settable.mayLeave mgr { base := 0, len := granule } = true ∧
    (settable.ld mgr).bgRun = some {} ∧ (base.ld mgr).bgRun = none := by
  unfold State.takesStandard
  exact ⟨by decide, ⟨_, List.mem_singleton.mpr rfl, rfl⟩, by decide, by decide, by decide, by decide, by decide, by decide,
    by decide, by decide, by decide, by decide, by decide, by decide⟩

/-- VendorCommandsRefused. -/
theorem test_witness_vendor_refused : base.takesStandard guest ∧ base.manager guest = false ∧ base.takesVendor mgr ∧
    base.sec.lcs = .deployed ∧ (base.ctx 4095).state = .free ∧
    (({ base with ctxs := [(2, { state := .retiring })] } : State).ctx 2).state = .retiring := by
  unfold State.takesVendor State.takesStandard; decide

/-- `base` while the key of context 1 is being swept, with one page of the old epoch, and with none. -/
def sweeping (ps : Tbl Page) : State := { base with
  ctxs := [(1, { state := .active, present := 1, oldLive := true, sweeping := true })], pages := ps }

/-- ContextLife. -/
theorem test_witness_context_life : base.takesVendor mgr ∧ base.takesVendorCtx mgr 1 ∧ base.sec.lcs = .deployed ∧
    ctxFieldBad 4095 0x3F 4095 none = false ∧ (base.ctx 4095).state = .free ∧ base.maskTaken 4095 1 = false ∧
    base.persistBad 1 = false ∧ base.sec.entropyFail = false ∧ ctxFieldBad 1 1 0 (some ((base.ctx 1).rights.getLsbD 5)) = false ∧
    base.maskTaken 1 1 = false ∧ 0 = (base.ctx 1).domain.toNat ∧ (base.ctx 1).oldLive = false ∧ (sweeping []).takesVendorCtx mgr 1 ∧
    ((sweeping []).ctx 1).oldLive = true ∧ ((sweeping []).ctx 1).sweeping = true ∧ (sweeping []).live = true ∧
    (sweeping []).pkg.powerWarn = false ∧ (sweeping []).sweepNext 1 0 = none ∧ (sweeping []).reading 1 = false ∧ (sweeping []).oldBlocks 1 0 = [] ∧
    (sweeping []).oldRecords .west 1 0 = [] ∧ (sweeping []).oldRecords .east 1 0 = [] ∧
    (sweeping [(5, { life := .sealed, res := .hot, ctx := 1, kib := 3 })]).sweepNext 1 0 = some 5 := by
  unfold State.takesVendorCtx State.takesVendor State.takesStandard; decide

/-- ContextLife: a context that is RETIRING with nothing of it left. -/
theorem test_witness_retire : let s := { base with ctxs := [(1, { state := .retiring, ringList := some [] })] }
    (s.ctx 1).state = .retiring ∧ (∀ r, r ∈ s.jrn.recs → r.ctx ≠ 1) ∧ s.linksDown 1 = true ∧ s.live = true ∧
    (s.retireRest 1).sharedLeft 1 = false ∧ (s.ctx 1).ringList ≠ none :=
  ⟨by decide, (by intro r h; cases h), by decide, by decide, by decide, by decide⟩

/-- R64: the 64 bytes of a profile of one layer. -/
def profBytes : List Byte := [7, 0, 0, 0, 1, 0, 1, 0, 1, 1, 0, 0, 0, 0, 0, 0, 0, 0, 0, 0, 0] ++ List.replicate 43 0

/-- ContextResources: profiles, images and context space. -/
theorem test_witness_resources : profBytes.length = 64 ∧ profileBad profBytes = false ∧ (profileOf profBytes).frameSize ≤ 128 ∧
    (∀ p, p ∈ base.profiles.vals → p.id ≠ (profileOf profBytes).id) ∧ base.profiles.lowFree < 256 ∧
    (let s := { base with profiles := [(0, { id := 7 })] }
     s.profileSlot 7 = some 0 ∧ s.profileUsed 0 = false) ∧
    owned.takesVendorCtx mgr 1 ∧ 1 ≤ 4096 ∧ owned.storedSteps + 1 ≤ storeSteps ∧ owned.rngUp 1 0 (32 * 1) 0 = none ∧ owned.mem.readErr 0 (32 * 1) = none ∧ owned.images.lowFree < 1024 ∧
    owned.heldLines 0 (32 * 1) false = [] ∧
    (let s := { base with images := [(3, { ctx := 1, steps := [0] })] }
     s.images.has 3 = true ∧ s.imageCalled 3 = false) ∧
    owned.owns 1 0 (2 * granule) = true ∧ owned.rangeBusy granule (1 * granule) = false ∧ granule + 1 * granule ≤ ctxSpaceEnd := by
  unfold State.takesVendorCtx State.takesVendor State.takesStandard
  exact ⟨rfl, by decide, by decide, (by intro p h; cases h), by decide, by decide, by decide, by decide, by decide, by decide, by decide,
    by decide, by decide, by decide, by decide, by decide, by decide⟩

/-- ContextResources: granules 2 and 3 taken on the West die, whose page space has room. -/
theorem test_witness_allocate : (∀ p, p ∈ owned.mem.granules → ¬(2 ≤ p.1 ∧ p.1 < 2 + 2)) ∧
    (match State.takeGranules 2 2 1 .west owned with
      | .ready _ => true
      | _ => false) = true := by decide +kernel

/-- ContextResources: an event at its last number; the four pool commands on context space. -/
theorem test_witness_pool_commands : let s := { owned with cxp := { poolEn := true } }
    s.takesVendorCtx mgr 1 ∧ 16383 < 16384 ∧ s.cxp.poolEn = true ∧ (s.ld mgr).bgRun = none ∧
    s.badPool 1 (PoolOp.of 0x70 0 64 0) = none ∧ s.poolErr (PoolOp.of 0x70 0 64 0) = none ∧
    s.badPool 1 (PoolOp.of 0x71 0 0x1000 64) = none ∧ s.poolErr (PoolOp.of 0x71 0 0x1000 64) = none ∧
    s.badPool 1 (PoolOp.of 0x72 0 0x1000 64) = none ∧ s.poolErr (PoolOp.of 0x72 0 0x1000 64) = none ∧
    s.badPool 1 (PoolOp.of 0x73 0 0x1000 64) = none ∧ s.poolErr (PoolOp.of 0x73 0 0x1000 64) = none := by
  unfold State.takesVendorCtx State.takesVendor State.takesStandard; decide

/-- A part whose context may hold weights, with a Coal store that runs and object 0 of one layer. -/
def stored : State := { owned with
  ctxs := [(1, { state := .active, rights := 0x10 })], profiles := [(0, { id := 7 })]
  coal := { en := true, formatted := true, media := true, half := ⟨{ ready := true }, { ready := true }⟩ }
  wobjs := [(0, { live := true, ctx := 1, gen := 1, lengths := [1], keyCheck := modelCheck 0 0 })] }

/-- The handle of object 0. -/
def objHandle0 : BitVec 64 := BitVec.ofNat 64 (objHandle 0 1)

/-- WeightObjects: Create Weight Object and Delete Weight Object. -/
theorem test_witness_weight_objects : stored.takesVendorCtx mgr 1 ∧ (stored.ctx 1).rights.getLsbD 4 = true ∧ stored.profileSlot 7 = some 0 ∧
    stored.takesVendor mgr ∧ stored.sec.lcs = .deployed ∧ (stored.checkObj 1 objHandle0 0).toOption = some 0 ∧
    (stored.wobj (bits objHandle0.toNat 21 1 * 2048 + bits objHandle0.toNat 0 11)).ctx = 1 ∧
    (stored.ctx (stored.wobj 0).ctx).state ≠ .retiring ∧ (stored.wobj 0).ready = false ∧ 0 < (stored.wobj 0).lengths.length ∧
    stored.coal.en = true ∧ (stored.coal.half.get (objDie 0)).ready = true ∧ stored.coal.readOnly = false ∧
    (let d := stored.objHome 2
     stored.freeObj d < 2048 ∧ stored.handlesOn d + ([1].map chunksOf).foldl (· + ·) 0 ≤ 402653184 ∧
     ((stored.coal.half.get d).spans.keys.foldl Nat.max 0 + 1) * 2048 + 64 * (([1].map chunksOf).foldl (· + ·) 0) + 2048 < 2 ^ 37) := by
  unfold State.takesVendorCtx State.takesVendor State.takesStandard; decide

/-- WeightObjects: the key of an object whose layers are loaded, before and after a debug session was opened. -/
theorem test_witness_model_key : let s := { stored with
      wobjs := [(0, { live := true, ctx := 1, gen := 1, lengths := [1], loaded := [0], keyCheck := modelCheck 0 0 })]
      sec := { spdm := ⟨{ state := .session }, {}⟩ }, cxp := { head := ⟨{ up := true }, {}⟩ } }
    s.takesSecure .west ∧ (s.checkObj 1 objHandle0 0).toOption = some 0 ∧ (s.wobj 0).ready = true ∧ s.sec.debugOpened = false ∧
    (s.wobj 0).keyCheck = modelCheck 0 (s.wobj 0).modelId ∧
    ({ s with sec := { s.sec with debugOpened := true } } : State).sec.debugOpened = true := by
  unfold State.takesSecure State.takesFm
  exact ⟨by decide, by decide, by decide, by decide, rfl, rfl⟩

/-- An image the part may run. -/
def image1 : FwImage := { svn := 64, signed := true, serves := [.deployed] }

/-- SecurityCommands. -/
theorem test_witness_security : base.takesStandard mgr ∧ base.sec.lcs ≠ .scrapped ∧ base.loadable image1 = true ∧
    (withSec { fwReserve := some image1 }).sec.fwReserve = some image1 ∧ base.takesVendor mgr ∧
    lcsNext (withSec { lcs := .provisioned }).sec.lcs = some .deployed ∧ (withSec { lcs := .provisioned }).takesVendor mgr ∧
    base.pkg.powered = true ∧ base.pkg.resetHigh = true ∧ base.sec.modeSet = false ∧ base.sec.ctxMade = false ∧
    base.sec.debugOpen = false ∧ base.sec.confidential = false ∧ (withSec { lcs := .blank }).takesVendor mgr ∧
    (let s := { withSec { confidential := true } with cxp := { head := ⟨{ ideIo := true, ideMem := true }, {}⟩ } }
     s.takesVendor mgr ∧ s.sec.confidential = true) ∧
    base.sec.entropyFail = false ∧ (List.replicate 1568 (0 : Byte)).length = 1568 ∧ (List.replicate 4627 (0 : Byte)).length = 4627 ∧ (base.conn 32767).state = .closed ∧
    (({ base with flu := { conns := [(32767, { kemPair := some 5 })] } } : State).conn 32767).kemPair = some 5 := by
  unfold State.takesVendor State.takesStandard
  exact ⟨by decide, by decide, by decide, rfl, by decide, by decide, by decide, by decide, by decide, by decide, by decide, by decide,
    by decide, by decide, by decide, by decide, List.length_replicate, List.length_replicate, by decide, by decide⟩

/-- SecurityCommands: a digest that is not the part's. -/
theorem test_witness_other_digest : ∃ d, d ≠ Config.identityDigest := ⟨Config.identityDigest + 1, by intro h; bv_omega⟩

/-- `base` with the West head up and its SPDM flow at `x`. -/
def spdmAt (x : SpdmState) : State := { upped {} with sec := { spdm := ⟨{ state := x }, {}⟩ }, ctxs := [(1, { state := .active, rights := 0x20 })] }

/-- SpdmFlow: each state of the flow. -/
theorem test_witness_spdm : (∀ x ∈ [SpdmState.start, .version, .capabilities, .negotiated, .handshake, .session],
      (spdmAt x).takesFm .west ∧ ((spdmAt x).sec.spdm.get .west).state = x) ∧
    SpdmState.negotiated ∈ spdmOpenStates ∧ (spdmAt .session).takesSecure .west ∧ (spdmAt .session).sec.lcs = .deployed ∧
    ((spdmAt .session).ctx 1).state = .active ∧ ((spdmAt .session).ctx 1).rights.getLsbD 5 = true ∧
    ((spdmAt .session).ctx 1).ringEnabled = false ∧ (spdmAt .session).sec.debugOpened = false ∧
    (spdmAt .negotiated).sec.entropyFail = false := by
  unfold State.takesSecure State.takesFm; decide

/-- SpdmFlow: a root whose check value the Coal store holds, and another's. -/
theorem test_witness_root : let s := spdmAt .session
    let t := { s with coal := { rootCheck := some (rootCheckOf (s.rootFor 0)) } }
    t.coal.rootCheck = some (rootCheckOf (t.rootFor 0)) ∧ ∃ v, v ≠ rootCheckOf (s.rootFor 0) :=
  ⟨rfl, rootCheckOf ((spdmAt .session).rootFor 0) + 1, by intro h; bv_omega⟩

/-- A demand that one ring may make. -/
def dem1 : Demand := { period := 1000, issue := 1, arithW := 1 }

/-- A demand that no part can serve. -/
def demHuge : Demand := { period := 10, issue := 1, arithW := 2 ^ 63 }

/-- A part with ring 5 of class 0, not enabled, of context 1. -/
def unbooked : State := { base with
  rings := [(5, { cls := 0, ctx := 1 })], eng := ⟨{ fireboxes := [0], stokers := [0, 1, 2, 3, 4, 5, 6, 7] }, {}⟩ }

/-- AdmissionDecides: a demand that passes both tests and one that does not; the ends of Set Class and Set Admission. -/
theorem test_witness_admission :
    (unbooked.ring 5).en = false ∧ (unbooked.ring 5).booking = none ∧ (unbooked.ring 5).cls.toNat < 4 ∧ demandBad dem1 = false ∧
    demandBad demHuge = false ∧ (unbooked.ctx (unbooked.ring 5).ctx.toNat).state = .active ∧ unbooked.gbl.overbooked = false ∧
    unbooked.admitTest unbooked.admitEnv (putBooked unbooked.booked 5 { unbooked.ring 5 with booking := some { demand := dem1 } }) (some 5) = none ∧
    (unbooked.admitTest unbooked.admitEnv
      (putBooked unbooked.booked 5 { unbooked.ring 5 with booking := some { demand := demHuge } }) (some 5)).isSome = true ∧
    unbooked.admitTest { unbooked.admitEnv with cap := 128, block := 1000 } unbooked.booked none = none ∧
    (let s := unbooked.setRing 5 { unbooked.ring 5 with booking := some { demand := demHuge } }
     (s.ring 5).booking ≠ none ∧ (s.ring 5).en = false ∧
     (s.admitTest { s.admitEnv with cap := 255, block := 1 } s.booked none).isSome = true) := by decide +kernel

/-- AdmissionDecides: the sender. -/
theorem test_witness_admission_sender : unbooked.takesVendor mgr := by unfold State.takesVendor State.takesStandard; decide

/-! ### Witnesses: the fabric manager, hosts, links -/

/-- FabricManagerCommands: extents held, closing and free. -/
def fabric : State := { owned with cxp := { head := ⟨{ up := true, mode := 2, hdmEn := true, lds := [(0, {
    extents := [{ base := 4 * granule, len := granule, closing := true }, { base := 6 * granule, len := granule }]
    decoders := [(0, { size := 2 ^ 38, committed := true })] }), (1, {})] }, {}⟩ } }

/-- FabricManagerCommands. -/
theorem test_witness_fabric : fabric.takesFm .west ∧ (fabric.cxp.head.get .west).mode ≠ 1 ∧ 8 * granule + granule ≤ dpaEnd ∧
    (∀ e, e ∈ fabric.allExtents → ¬(8 * granule < e.1 + e.2 ∧ e.1 < 8 * granule + granule)) ∧
    (fabric.ld ⟨.west, 0⟩).extents.find? (fun x => x.base == 6 * granule) = some { base := 6 * granule, len := granule } ∧
    (fabric.ld ⟨.west, 0⟩).extents.find? (fun x => x.base == 4 * granule && x.closing) =
      some { base := 4 * granule, len := granule, closing := true } ∧
    fabric.mayLeave ⟨.west, 0⟩ { base := 4 * granule, len := granule, closing := true } = true ∧
    fabric.mayLeave ⟨.west, 0⟩ { base := 6 * granule, len := granule } = true ∧
    fabric.inflightTo 1 ((fabric.ctx 1).bind &&& ~~~0) = false ∧ ((upped { mode := 1 }).cxp.head.get .west).mode = 1 ∧
    (upped { mode := 1 }).takesFm .west ∧
    (fabric.cxp.head.get .west).sf = [] ∧ fabric.cxp.shared.lowFree < 16 ∧ 0 + 2 * granule ≤ ctxSpaceEnd ∧
    fabric.granuleCtx 0 = some 1 ∧ fabric.owns 1 0 (2 * granule) = true ∧
    (∀ e, e ∈ fabric.heldExtents → ¬(0 < e.2.1 + e.2.2 ∧ e.2.1 < 0 + 2 * granule)) ∧
    ({ fabric with cxp := { fabric.cxp with shared := [(0, { granules := 2 })] } } : State).tracked = [] := by
  unfold State.takesFm; decide

/-- FabricManagerCommands: no shared region yet. -/
theorem test_witness_no_shared : ∀ r, r ∈ fabric.cxp.shared.vals → ¬(0 < r.base * granule + r.granules * granule ∧ r.base * granule < 0 + 2 * granule) := by
  intro r h; cases h

/-- A part whose context 1 is bound to the first LD of the West head, with an extent over its granules and one over
the frame of page 5. -/
def hosted : State := { owned with
  ctxs := [(1, { state := .active, bind := 3 })], pages := [(5, { life := .sealed, res := .hot, ctx := 1, kib := 3, fill := 16 })]
  cxp := { head := ⟨{ up := true, mode := 2, hdmEn := true, lds := [(0, {
    extents := [{ base := 0, len := dpaEnd }], decoders := [(0, { size := dpaEnd, committed := true })] })] }, {}⟩ } }

/-- `hosted` with granule 0 shared, and line 0 held by LD 1. -/
def sharing : State := { hosted with cxp := { hosted.cxp with biEn := true, shared := [(0, { granules := 1 })], head := ⟨
  { hosted.cxp.head.w with sf := [{ line := 0, holders := 2, owned := true }], lds := [(0, {
      extents := [{ base := 0, len := dpaEnd }], decoders := [(0, { size := dpaEnd, committed := true, bi := true })] })] }, {}⟩ } }

/-- HostMemoryServed. -/
theorem test_witness_host_memory : hosted.mem.wf = true ∧ sharing.mem.wf = true ∧ base.decoded mgr false = false ∧
    hosted.decoded mgr false = true ∧ 2 * granule - 64 < ctxSpaceEnd ∧ hosted.reachBad mgr (2 * granule - 64) 64 false = none ∧
    hosted.sharedLines (2 * granule - 64) 64 = [] ∧ hosted.mem.readErr (2 * granule - 64) 64 = none ∧
    ({ hosted with mem := hosted.mem.poisonLine 0 } : State).mem.readErr 0 64 ≠ none ∧
    hosted.reachBad mgr (2 * granule) 64 false = some 3 ∧ sharing.decoded mgr true = true ∧ sharing.reachBad mgr 0 64 true = none ∧
    sharing.reqConflicts ⟨mgr, 0, 64, none, false⟩ ≠ [] ∧
    sharing.reqConflicts ⟨mgr, 0, 64, some (List.replicate 64 0), false⟩ ≠ [] := by decide

/-- ObjectViewServed: page 5 resident and cold, and an address of no page. -/
theorem test_witness_view : let a := viewBase 5
    let cold := { hosted with pages := [(5, { life := .sealed, res := .cold, ctx := 1, kib := 3, fill := 16 })] }
    hosted.decoded mgr false = true ∧ hosted.openTo mgr a 64 = true ∧ hosted.viewPage a 64 = some 5 ∧
    hosted.frameGone (pageDie 5) (hosted.page 5).primary = false ∧ hosted.frameGone (pageDie 5) (hosted.page 5).mirror = false ∧ hosted.lineBad 5 = false ∧ cold.lineBad 5 = false ∧
    hosted.bound mgr (hosted.page 5).ctx = true ∧ (hosted.page 5).resident = true ∧ hosted.mem.readErr a 64 = none ∧
    cold.viewPage a 64 = some 5 ∧ (cold.page 5).resident = false ∧ hosted.viewPage (viewBase 9) 64 = none ∧
    ({ hosted with cxp := { hosted.cxp with ideReq := true } } : State).openTo mgr a 64 = false ∧
    base.decoded mgr false = false := by decide

/-- DecodersAndLinks. -/
theorem test_witness_links : (hosted.cxp.head.get .west).up = true ∧ ((hosted.ld mgr).decoders.lookD 3 {}).committed = false ∧
    ((hosted.ld mgr).decoders.lookD 0 {}).committed = true ∧ (base.cxp.head.get .west).up = false ∧ hosted.live = true ∧
    hosted.gbl.stopped = false ∧ hosted.gbl.windows = [] ∧
    (upped { width := 16 }).live = true ∧ 4 ≤ ((upped { width := 16 }).cxp.head.get .west).width := by decide

/-- `sharing` with line 0 being snooped. -/
def snooped (e : SfEntry) : State := { sharing with now := 2000000, cxp := { sharing.cxp with head := ⟨
  { sharing.cxp.head.w with sf := [e] }, {}⟩ } }

/-- HeldLinesResolved: a holder that was asked, one that is late, a line that no filter tracks; the moments at which a holder is late,
and one nanosecond before, with its host up and down. -/
theorem test_witness_held : let e : SfEntry := { line := 0, holders := 2, owned := true, snoopAt := some 0, target := 2 }
    (snooped e).mem.wf = true ∧ (snooped e).cxp.late.contains (guest, 0) = false ∧
    ((snooped e).cxp.head.get .west).entry? 0 = some e ∧ e.target &&& BitVec.ofNat 16 (2 ^ guest.id) ≠ 0 ∧ e.owned = true ∧
    (List.replicate 64 (1 : Byte)).length = 64 ∧ ({ base.cxp with late := [(guest, 5)] } : Cxp).late.contains (guest, 5) = true ∧
    base.cxp.late.contains (guest, 5) = false ∧ (base.cxp.head.get .west).entry? 5 = none ∧ e.down = false ∧ e.forced = 0 ∧
    e.lastSnoop + 1000 * (snooped e).cxp.biTimeoutUs ≤ (snooped e).now.toNat ∧ ({ e with down := true } : SfEntry).down = true ∧
    ({ e with forced := 2 } : SfEntry).forced ≠ 0 ∧ 0 + 1000 * (snooped e).cxp.biTimeoutUs ≤ (snooped e).now.toNat ∧
    (snooped e).now.toNat < ({ e with lastSnoop := 1 } : SfEntry).lastSnoop + 1000 * (snooped e).cxp.biTimeoutUs := by decide

/-! ### Witnesses: residency and the Coal store -/

/-- A half of the Coal store that is READY, with one open superblock of sixteen members. -/
def half1 : Half := { ready := true, replayed := true, sbs := [(0, { state := .opened, seq := 1, members := (List.range 16).map (fun i => (i, 0, 0)) })], nextSeq := 2, retired := List.replicate 16 0 }

/-- A part with a Coal store that runs. -/
def coalOn : State := { owned with coal := { en := true, formatted := true, media := true, gcEn := true, patrolEn := true
                                             nand := some { pages := 384, blocks := 21845 }, half := ⟨half1, half1⟩ } }

/-- WeightObjects: the one layer of object 0 is loaded, its 64 KiB chunk from address 0. -/
theorem test_witness_load_layer : let s := { stored with drt := { stored.drt with demoteEn := true }, coal := { coalOn.coal with gcEn := false } }
    s.rngUp 1 0 (unitBytes * chunksOf 1) 0 = none ∧ s.mem.readErr 0 (unitBytes * chunksOf 1) = none ∧
    s.coalFits (objDie 0) (64 * chunksOf 1) = true ∧ s.heldLines 0 (unitBytes * chunksOf 1) false = [] ∧ s.drt.demoteEn = true ∧ s.demotionsRun (objDie 0) = true ∧
    (match s.storeLayer 0 0 0 with
      | .ready t => decide (0 ∈ (t.wobj 0).loaded)
      | _ => false) = true := by decide +kernel

/-- The map entry of page 5. -/
def ent5 : MapEnt := { sb := 0, kib := 3, ctx := 1 }

/-- A part with page 5 in the Coal store, its promotion requested at the time given. -/
def coldPage (res : Res) (issued : Option Nat) : State := { coalOn with
  pages := [(5, { page1 with res := res, primary := none, coal := true })]
  drt := { reqs := ⟨[{ handle := 5, issuedAt := issued, locs := if issued.isSome then [ent5] else [] }], []⟩ }
  coal := { coalOn.coal with half := ⟨{ half1 with map := [(5, ent5)] }, half1⟩ } }

/-- ResidencyMoves: promotions. -/
theorem test_witness_promotions : let s := coldPage .cold none
    let p := coldPage .promoting (some 0)
    s.running = true ∧ s.coal.en = true ∧ s.coal.ready = true ∧
    ((s.drt.reqs.get .west).filter (fun x => x.issuedAt.isSome)).length < 1024 ∧ s.nextReq .west = some { handle := 5 } ∧
    (s.page 5).res = .cold ∧
    (p.drt.reqs.get (pageDie 5)).find? (fun x => x.handle == 5 && x.issuedAt.isSome) =
      some { handle := 5, issuedAt := some 0, locs := [ent5] } ∧ [ent5] ≠ [] ∧
    p.live = true ∧ p.pkg.powerWarn = false ∧ (p.page 5).res = .promoting ∧
    (p.coal.half.get (pageDie 5)).readAll .hard [ent5] ≠ .uncorrectable ∧
    (p.coal.half.get (pageDie 5)).readAll .uncorrectable [ent5] = .uncorrectable ∧
    ({ s with drt := { s.drt with reqs := ⟨[{ handle := 2 ^ 38 }], []⟩ } } : State).nextReq .west = some { handle := 2 ^ 38 } := by decide

/-- ResidencyMoves: a frame for the page to be read; a header whose CRC does not match, and a chunk, which has none. -/
theorem test_witness_promotion_frame : let s := coldPage .cold none
    ∃ f s2, s.allocFrame .west (s.page 5).pref (s.page 5).kib none [] = .got f s2 := ⟨_, _, rfl⟩

theorem test_witness_promotion_crc : let p := coldPage .promoting (some 0)
    (p.setPage 5 { p.page 5 with chunk := some (0, 0) }).crcOk 5 = true ∧ p.tagOk 5 true = true ∧ p.tagOk 5 false = false := by decide

/-- ResidencyMoves: bounds and holds. -/
theorem test_witness_bounds : let r := { recW (inst 0x23 0 0 0 0 0) (.pages [(5, 0)]) with state := .issued }
    let s := { base with now := 200000, jrn := { base.jrn with recs := [r] }, pages := [(5, { page1 with res := .cold, staged := some 200000 })]
                         drt := { hostWaits := [{ ld := mgr, dpa := 64, len := 64, handle := 5 }] } }
    s.rec? at0 = some r ∧ r.wait = some (.pages [(5, 0)]) ∧ 5 ∈ s.duePages (.pages [(5, 0)]) ∧ 5 ∉ s.duePages (.pages [(5, 1)]) ∧ r.state = .issued ∧
    s.drt.hostWaits.find? (fun w => w.ld == mgr && w.dpa == 64 && w.handle == 5) = some { ld := mgr, dpa := 64, len := 64, handle := 5 } ∧
    s.cxp.bindWaits = [] ∧ 0 + 1000 * s.drt.boundUs ≤ s.now.toNat ∧ s.now.toNat < 1 + 1000 * s.drt.boundUs ∧ (s.page 5).staged = some 200000 ∧ s.live = true ∧
    200000 ≤ s.now.toNat ∧ (({ s with now := 199999 } : State).now.toNat < 200000) := by decide

/-- ResidencyMoves: demotions, tables, sweeps. -/
theorem test_witness_demotions : let s := coldPage .demoting none
    let q : Seq := { state := .live, ctx := 1, gen := 1 }
    let t := { coalOn with now := 1000000000, drt := { tableDemoteEn := true },
                            seqs := [(0, q), (1, { q with layers := List.replicate 3 { length := 0xFFFFFFF0 } })] }
    (s.page 5).res = .demoting ∧ s.live = true ∧ s.pkg.powerWarn = false ∧
    (∀ e, e ∈ (s.coal.half.get (pageDie 5)).row → e.key ≠ 5) ∧ (s.coal.half.get (pageDie 5)).map.look 5 = some ent5 ∧
    (s.page 5).noDemote = false ∧ t.tablesMayLeave 0 = true ∧ t.demotionsRun .west = true ∧
    (t.coalWrite .west (tableEnts .west 0 1 0 false 1)).1 = true ∧ (base.coalWrite .west []).1 = false ∧
    ({ t with now := 999999999 } : State).tablesMayLeave 0 = false ∧
    (let u := { base with pages := [(5, page1)], drt := { failed := ⟨[0], []⟩ }, dom := { sweepEn := true } }
     u.drt.failed.get .west ≠ [] ∧ u.hurt .west = [5] ∧ u.dom.sweepEn = true ∧ u.running = true) ∧
    base.dom.sweepEn = false ∧ base.drt.failed.get .west = [] ∧
    (let v := { coalOn with dom := { dirEn := true }, sec := { persistRoot := some 1 } }
     v.dom.persistLoaded = false ∧ v.dom.dirEn = true ∧ v.sec.persistRoot ≠ none ∧ v.running = true ∧ v.coal.half.w.ready = true ∧
       v.coal.half.e.ready = true) :=
  ⟨by decide, by decide, by decide, (by intro e h; cases h), by decide, by decide, by decide, by decide, by decide,
    by decide, by decide, by decide, by decide⟩

/-- ResidencyMoves: a die with all its space free, and one that is being reclaimed. -/
theorem test_witness_reclaim : base.low .west = false ∧ base.drt.reclaiming.get .west = false ∧
    ({ base with drt := { base.drt with reclaiming := ⟨true, false⟩ } } : State).drt.reclaiming.get .west = true := by decide +kernel

/-- `coalOn` with a record of page 5 waiting in the West row. -/
def rowed : State := { coalOn with coal := { coalOn.coal with half := ⟨{ half1 with row := [{ key := 5, kib := 3, ctx := 1 }] }, half1⟩ } }

/-- CoalMediaServed: a row programmed, or failed. -/
theorem test_witness_row : rowed.rowRuns .west = true ∧
    (rowed.coal.nextRow (rowed.coal.half.get .west) false (rowed.coal.half.get .west).row).map (·.2.2) =
      some [{ key := 5, kib := 3, ctx := 1 }] ∧
    coalOn.coal.nextRow (coalOn.coal.half.get .west) false (coalOn.coal.half.get .west).row = none ∧
    (rowed.coal.half.get .west).retired.length = 16 := by
  decide +kernel

/-- CoalMediaServed: reclaiming, erasing, the patrol, the checkpoint, a LUN. -/
theorem test_witness_media : let cl := { coalOn with coal := { coalOn.coal with half := ⟨
      { half1 with sbs := [(0, { state := .closed, refresh := true }), (1, { state := .erasing })] }, half1⟩ } }
    (coalOn.gcVictim .west).or (coalOn.wearVictim .west) = none ∧ (cl.gcVictim .west).or (cl.wearVictim .west) = some 0 ∧
    (cl.coal.half.get .west).stuckIn 0 = [] ∧ ((cl.readRecords .west [] ((cl.coal.half.get .west).readAll .hard [])).coalStore .west true []).isSome = true ∧
    ((cl.coal.half.get .west).live 0) = [] ∧ cl.readsIn .west 1 = false ∧ cl.coal.patrolDue ((cl.coal.half.get .west).sb 0) cl.now.toNat = true ∧
    cl.coal.patrolDue { (cl.coal.half.get .west).sb 0 with patrolled := some 0 } 0 = false ∧
    ({ cl with drt := { cl.drt with reqs := ⟨[{ issuedAt := some 0, locs := [{ sb := 1 }] }], []⟩ } } : State).readsIn .west 1 = true ∧
    cl.coal.gcEn = true ∧ cl.coal.readOnly = false ∧ cl.running = true ∧ ((cl.coal.half.get .west).sb 1).state = .erasing ∧
    ((cl.coal.half.get .west).sb 0).state ≠ .erasing ∧ cl.coal.formatting = false ∧
    (cl.coal.half.get .west).ckptAt + 1000000 * cl.coal.ckptMs ≤ ({ cl with now := 1000000000 } : State).now.toNat ∧
    cl.now.toNat < (cl.coal.half.get .west).ckptAt + 1000000 * cl.coal.ckptMs ∧ 16 * (sinceCheckpoint (cl.coal.half.get .west).log).length < 1073741824 ∧
    cl.coal.patrolEn = true ∧ (cl.coal.half.get .west).sbs.has 0 = true ∧ ((cl.coal.half.get .west).sb 0).state ≠ .free ∧
    0 < cl.coal.luns ∧ cl.gbl.windows = [] := by decide +kernel

/-- CoalControl: enable, disable, format, channels, replay. -/
theorem test_witness_coal_control : let off := { base with coal := { chEn := 0xFFFFFFFF, inService := 0xFFFFFFFF, powering := 0x80000000 } }
    off.regWritable mgr = true ∧ (1 : BitVec 64).getLsbD 0 = true ∧ (1 : BitVec 64).getLsbD 4 = false ∧ off.coal.en = false ∧
    off.coal.formatting = false ∧ (off.coal.missing .west).length ≤ 1 ∧ (off.coal.missing .east).length ≤ 1 ∧
    1 < (base.coal.missing .west).length ∧ coalOn.coal.en = true ∧ (0x10 : BitVec 64).getLsbD 4 = true ∧
    off.coal.powering.getLsbD 31 = true ∧ off.coal.rises.lookD 31 0 ≤ off.now.toNat ∧ nandOk { pages := 384, blocks := 21845 } = true ∧ off.coal.nand = none ∧ nandOk { pages := 383, blocks := 21845 } = false ∧
    (let r := { base with coal := { half := ⟨{ replaying := true }, {}⟩ } }
     (r.coal.half.get .west).replaying = true ∧ r.coal.formatting = false ∧ r.live = true) ∧
    ({ base with coal := { formatting := true } } : State).coal.formatting = true := by decide

/-! ### Witnesses: resets, power, the package, faults -/

/-- `base` with other global settings. -/
def withGbl (x : Gbl) : State := { base with gbl := { x with fwReady := true } }

/-- GlobalControl. -/
theorem test_witness_global : base.pkg.powered = true ∧ base.pkg.resetHigh = true ∧ base.manager mgr = true ∧ base.manager guest = false ∧
    base.gbl.fwReady = true ∧ base.gbl.held = false ∧ base.gbl.warming = false ∧ base.gbl.stopped = false ∧ base.pkg.powerWarn = false ∧
    base.gbl.powerHold = false ∧ (withGbl { held := true }).gbl.held = true ∧ (withGbl { warming := true }).gbl.warming = true ∧
    (withRing ring0).withInst 0 ≠ base ∧ ((base.withInst 0).jrn.recs ≠ []) := by decide

/-- ResetsAndPower. -/
theorem test_witness_power : base.pkg.powered = true ∧ base.pkg.resetHigh = true ∧ Side.west = base.gbl.perstHead ∧
    Side.east ≠ base.gbl.perstHead ∧ State.reset.gbl.fwReady = false ∧ State.reset.sec.lcs ≠ .scrapped ∧ State.reset.bootImage.isSome = true ∧
    base.pkg.powerWarn = false ∧ base.gbl.powerHold = false ∧ ({ base with pkg := { flushing := true } } : State).pkg.flushing = true ∧
    (withGbl { powerHold := true }).gbl.powerHold = true ∧
    base.pkg.highAt + 10000000 ≤ ({ base with now := 10000000 } : State).now.toNat ∧ base.now.toNat < base.pkg.highAt + 10000000 ∧ base.pkg.thermtrip = false ∧
    (let c : FlushCopy := { recs := [rec0 0] }
     let s := { base with pkg := { copies := ⟨some c, none⟩ } }
     (s.pkg.copies.w.or s.pkg.copies.e) = some c ∧ c.recs ≠ []) ∧ base.pkg.flushed = false ∧
    ({ base with pkg := { powered := false } } : State).pkg.powered = false ∧
    ({ base with pkg := { resetHigh := false } } : State).pkg.resetHigh = false := by decide

/-- PackageServed. -/
theorem test_witness_package : base.pkg.powered = true ∧ base.pkg.resetHigh = true ∧ base.pkg.regSilent.get .west = false ∧
    ({ base with pkg := { regSilent := ⟨true, false⟩ } } : State).pkg.regSilent.get .west = true ∧ 620 ≤ base.pkg.vtarget.get .west ∧
    base.pkg.vtarget.get .west ≤ 800 ∧ base.pkg.regAt.get .west + 1000000 ≤ ({ base with now := 1000000 } : State).now.toNat ∧
    base.now.toNat < base.pkg.regAt.get .west + 1000000 ∧ base.pkg.thermalPause.get .west = none ∧
    ({ base with pkg := { thermalPause := ⟨some 0, none⟩ } } : State).pkg.thermalPause.get .west = some 0 ∧
    0 + 100000 ≤ ({ base with now := 100000 } : State).now.toNat ∧ base.now.toNat < 0 + 100000 ∧ base.supplyDue .west = true ∧
    ({ base with pkg := { supplyAt := ⟨some 0, none⟩ } } : State).supplyDue .west = false ∧ 7 ∉ base.pkg.absent ∧
    7 ∈ ({ base.pkg with absent := [7] } : Package).absent ∧ base.pkg.trefAt = none ∧
    ({ base with pkg := { sensors := [(7, 400)] } } : State).pkg.sensors.has 7 = true ∧ 7 ∉ base.pkg.excluded ∧
    base.pkg.sensorAt.lookD 7 0 + 1000000000 ≤ ({ base with now := 1000000000 } : State).now.toNat ∧
    base.pkg.sensors.has 7 = false ∧ base.coal.health.hour = [] ∧ hourEntry [40, 90] 80 = some (40, 90, 65, true) ∧
    base.coal.health.hourAt + 3600000000000 ≤ ({ base with now := 3600000000000 } : State).now.toNat ∧
    base.now.toNat < base.coal.health.hourAt + 3600000000000 ∧
    base.pkg.trefLost = false := by decide

/-- A part with engines in service and its West port up. -/
def engined : State := { base with
  eng := ⟨{ fireboxes := [0, 1], spares := [9], stokers := [0, 1] }, {}⟩, flu := { port := ⟨portOn, portOn⟩ } }

/-- `engined` inside a recovery window. -/
def recovering : State := { engined with gbl := { engined.gbl with windows := [{ kind := .firebox, unit := 1 }] } }

/-- FaultsRecovered. -/
theorem test_witness_faults : engined.live = true ∧ engined.gbl.stopped = false ∧ engined.gbl.windows = [] ∧
    1 ∈ (engined.eng.get .west).fireboxes ∧ 1 ∉ (engined.eng.get .west).spares ∧ 0 ∈ (engined.eng.get .west).stokers ∧
    1 ∈ (engined.eng.get .west).stokers ∧ (engined.ring 0).home = .west ∧ (engined.ring 0).stoker = 0 ∧ (engined.ring 0).en = true ∧
    31 ∉ engined.jrn.lostBanks ∧ ({ engined.jrn with spares := ⟨0, 0⟩ } : Journal).spares.get .west = 0 ∧
    engined.drt.failed.get .west = [] ∧ (engined.flu.port.get .west).up = true ∧ recovering.live = true ∧ recovering.gbl.windows ≠ [] ∧
    recovering.gbl.windows.find? (fun x => x.kind == .firebox && x.die == .west && x.unit == 1) = some { kind := .firebox, unit := 1 } ∧
    recovering.gbl.warmWaiting = false ∧
    (({ base with flu := { port := ⟨{ en := true }, {}⟩ } } : State).flu.port.get .west).en = true ∧ base.gbl.held = false ∧
    (let t := { base with gbl := { base.gbl with mantelAt := some 0 }, now := 100000000 }
     t.gbl.mantelAt = some 0 ∧ 0 + 100000000 ≤ t.now.toNat ∧ t.drt.granWaits = [] ∧ t.drt.loadWaits = [] ∧
      ({ t with drt := { t.drt with granWaits := [{}] } } : State).drt.granWaits ≠ [] ∧
      ({ t with now := 99999999 } : State).now.toNat < 0 + 100000000) := by decide

/-- FaultsRecovered: a Firebox fault inside the window of another stops the part. -/
theorem test_second_fault_stops : (match exec (.secondFaultStop .stoker .west 0) recovering with
    | .next t => t.gbl.stopped && t.jrn.sealed
    | _ => false) = true := by decide +kernel

/-! ### Register reads and bytes of structures -/

/-- R504: GBL_ID after reset reads 0x0960 in its low half. -/
theorem test_view_gbl_id : State.reset.regRead ⟨.west, 0⟩ 0 8 = 0x0960 := by decide +kernel

/-- The worked example of chapter 17: RING_DEADLINE of a ring booked with P 50 µs and I 10. -/
theorem test_view_deadline : ({ booking := some { demand := { period := 50, issue := 10 } } } : Ring).deadline = 0x0000000A00000032 := by
  decide +kernel

end Machine
end Sys2Proof
end

section
/-! PROOFS. The placement registers (R231): REGISTER_WRITE of DRT_RES_BOUND, DRT_WM and DRT_STAGE_HOLD. -/

namespace Sys2Proof
namespace Machine

/-- REGISTER_WRITE always answers a next state: the one that `State.regWrite` gives. -/
theorem exec_registerWrite (ld : Ld) (off width : Nat) (v : BitVec 64) (s : State) :
    exec (.registerWrite ld off width v) s = .next (s.regWrite ld off width v) := rfl

/-- R497-R503: a whole-register write into the DRT block, from an LD whose writes are taken, reaches the block's register
at the same place. -/
theorem State.regWrite_drt {s : State} {ld : Ld} (hw : s.regWritable ld = true) (v : BitVec 64) {r : Nat}
    (hr : r < 0x100000) (hal : r % 8 = 0) : s.regWrite ld (0x3200000 + r) 8 v = s.writeDrt r v := by
  have haligned : ¬ (0x3200000 + r) % 8 ≠ 0 := by omega
  have hring : ¬ 0x3200000 + r < 0x1400000 := by omega
  have hgbl : ¬ 0x3200000 + r < 0x100000 := by omega
  have hplace : (0x3200000 + r) % 0x100000 = r := by omega
  have hblock : (0x3200000 + r) / 0x100000 = 0x32 := by omega
  simp [State.regWrite, State.writeBlock, haligned, hring, hgbl, hplace, hblock, hw]

/-- REGISTER_WRITE of a whole DRT register, from an LD whose writes are taken. -/
theorem exec_registerWrite_drt {s : State} {ld : Ld} (hw : s.regWritable ld = true) (v : BitVec 64) (r : Nat)
    (hr : r < 0x100000) (hal : r % 8 = 0) : exec (.registerWrite ld (0x3200000 + r) 8 v) s = .next (s.writeDrt r v) := by
  rw [exec_registerWrite, State.regWrite_drt hw v hr hal]

/-- R231: DRT_RES_BOUND takes BOUND_US of 20 to 1,000,000 and ignores any other. -/
theorem State.writeDrt_resBound (s : State) (v : BitVec 64) :
    s.writeDrt 0x10 v = if 20 ≤ bits v.toNat 0 20 ∧ bits v.toNat 0 20 ≤ 1000000 then
      { s with drt := { s.drt with boundUs := bits v.toNat 0 20 } } else s := by
  simp [State.writeDrt]

/-- R231: DRT_WM takes LOW_FREE below HIGH_FREE and ignores any other pair. -/
theorem State.writeDrt_watermarks (s : State) (v : BitVec 64) :
    s.writeDrt 0x18 v = if bits v.toNat 0 8 < bits v.toNat 8 8 then
      { s with drt := { s.drt with lowFree := bits v.toNat 0 8, highFree := bits v.toNat 8 8 } } else s := rfl

/-- R231: DRT_STAGE_HOLD takes every HOLD_US. -/
theorem State.writeDrt_stageHold (s : State) (v : BitVec 64) :
    s.writeDrt 0x20 v = { s with drt := { s.drt with holdUs := bits v.toNat 0 24 } } := rfl

/-- Settles O39: each write reaches its register of the DRT block (`State.regWrite_drt`), whose equation says when the
fields are taken; the after-wipe values are those of `State.reset`. -/
theorem placementRegistersHoldTheirRanges : Obligations.PlacementRegistersHoldTheirRanges := by
  refine ⟨fun ld v s hw => ?_, rfl, rfl, rfl, rfl⟩
  have hbound : exec (.registerWrite ld 0x3200010 8 v) s = .next (s.writeDrt 0x10 v) :=
    exec_registerWrite_drt hw v 0x10 (by decide) (by decide)
  have hwm : exec (.registerWrite ld 0x3200018 8 v) s = .next (s.writeDrt 0x18 v) :=
    exec_registerWrite_drt hw v 0x18 (by decide) (by decide)
  have hhold : exec (.registerWrite ld 0x3200020 8 v) s = .next (s.writeDrt 0x20 v) :=
    exec_registerWrite_drt hw v 0x20 (by decide) (by decide)
  rw [hbound, hwm, hhold, State.writeDrt_resBound, State.writeDrt_watermarks, State.writeDrt_stageHold]
  refine ⟨fun hout => ?_, fun hlow hhigh => ?_, fun hle => ?_, fun hlt => ?_, rfl⟩
  · rw [if_neg (by omega)]
  · rw [if_pos ⟨hlow, hhigh⟩]
  · rw [if_neg (by omega)]
  · rw [if_pos hlt]

end Machine
end Sys2Proof
end

section
/-! PROOFS. The ring registers (R511, R512): what a write that sets EN does, and which registers a running ring keeps. -/

namespace Sys2Proof
namespace Machine

/-! ### A write that sets EN from 0 to 1 (R512) -/

section
variable {s : State} {n : Nat} {v : BitVec 32} {g : Ring}

/-- RING_ENABLE of a ring whose EN is 0, by an LD whose writes are taken, is decided by R512 alone: what R511 ignores, a
new HOME while the ring drains, rule 1 ignores too. -/
theorem exec_ringEnable_of_off {ld : Ld} (hw : s.ringWritable ld n = true) (hv : v.getLsbD 0 = true)
    (hoff : (s.ring n).en = false) :
    exec (.ringEnable ld n v) s = .next (s.ringEnable n (v.getLsbD 1) (sideOf (bits v.toNat 2 1))) := by
  have hexec : exec (.ringEnable ld n v) s = .next (if v.getLsbD 0 then s.writeRingEn ld n v else s) := rfl
  rw [hexec, if_pos hv]
  cases hdrain : (s.ring n).draining <;> simp [State.writeRingEn, State.ringEnable, hw, hv, hoff, hdrain]

/-- R512 rule 1: a ring that drains takes no part of the write. -/
theorem State.ringEnable_draining (irq : Bool) (home : Side) (hdrain : (s.ring n).draining = true) :
    s.ringEnable n irq home = s := by
  simp [State.ringEnable, hdrain]

/-- R512 rules 2 to 5, for a ring that does not drain, in their order; they decide on the ring with the other fields of
the write (R510). -/
theorem State.ringEnable_drained (hdrain : (s.ring n).draining = false)
    (hg : g = { s.ring n with irqEn := v.getLsbD 1, home := sideOf (bits v.toNat 2 1) }) :
    s.ringEnable n (v.getLsbD 1) (sideOf (bits v.toNat 2 1)) =
      if s.ringCfgOk g = false then s.setRing n { g with reason := .cfgErr }
      else if (s.ctx g.ctx.toNat).state ≠ .active then s.setRing n { g with reason := .ctxNotActive }
      else if g.cls.toNat < 4 ∧ g.booking = none then s.setRing n { g with reason := .notAdmitted }
      else (s.setRing n (s.enabled n g)).setCtx g.ctx.toNat { s.ctx g.ctx.toNat with ringEnabled := true } := by
  subst hg
  simp [State.ringEnable, hdrain]

/-- R512 rules 2 to 4: a write that a rule refuses leaves EN 0 and the rule's reason. -/
theorem State.ring_refused_enable (hen : g.en = false) (why : Reason) :
    ((s.setRing n { g with reason := why }).ring n).en = false ∧
      ((s.setRing n { g with reason := why }).ring n).reason = why := by
  rw [State.ring_setRing_self]
  exact ⟨hen, rfl⟩

/-- R26, R44, R512 rule 5: the ring as enabled, its indices and registers cleared and its Stoker bound, beside which only
the context's mark changes. -/
theorem State.ring_enabled (s : State) (n c : Nat) (g : Ring) (x : Ctx) :
    let t := (s.setRing n (s.enabled n g)).setCtx c x
    (t.ring n).en = true ∧ (t.ring n).reason = .none ∧
      (t.ring n).aidx = 0 ∧ (t.ring n).cidx = 0 ∧ (t.ring n).cqPi = 0 ∧ (t.ring n).pi = 0 ∧ (t.ring n).cqCi = 0 ∧
      (t.ring n).regs = List.replicate 64 {} ∧ (t.ring n).stoker = stokerOf (s.eng.get g.home).stokers n ∧
      (∀ m, m ≠ n → t.ring m = s.ring m) ∧ t.mem = s.mem := by
  intro t
  have hring : t.ring n = s.enabled n g := State.ring_setRing_self s n _
  rw [hring]
  exact ⟨rfl, rfl, rfl, rfl, rfl, rfl, rfl, rfl, rfl, fun _ hm => State.ring_setRing_ne s _ hm, rfl⟩

end

/-- Settles O11: `exec_ringEnable_of_off` leaves the decision to R512, and in each clause the hypotheses pick one branch of
`State.ringEnable_drained`. -/
theorem ringEnableDecides : Obligations.RingEnableDecides := by
  intro ld n v s hw hv hoff g
  have hen : g.en = false := hoff
  have hrules := fun hdrain : (s.ring n).draining = false => State.ringEnable_drained hdrain (v := v) (g := g) rfl
  rw [exec_ringEnable_of_off hw hv hoff]
  refine ⟨fun hdrain => ?_, fun hdrain hcfg => ⟨_, rfl, ?_⟩, fun hdrain hcfg hctx => ⟨_, rfl, ?_⟩,
    fun hdrain hcfg hctx hcls hbook => ⟨_, rfl, ?_⟩, fun hdrain hcfg hctx hadmit => ⟨_, rfl, ?_⟩⟩
  · rw [State.ringEnable_draining _ _ hdrain]
  · rw [hrules hdrain, if_pos hcfg]
    exact State.ring_refused_enable hen _
  · rw [hrules hdrain, if_neg (by simp [hcfg]), if_pos hctx]
    exact State.ring_refused_enable hen _
  · rw [hrules hdrain, if_neg (by simp [hcfg]), if_neg (by simp [hctx]), if_pos ⟨hcls, hbook⟩]
    exact State.ring_refused_enable hen _
  · have hadmitted : ¬ (g.cls.toNat < 4 ∧ g.booking = none) :=
      fun ⟨hcls, hbook⟩ => hadmit.elim (Nat.not_le_of_lt hcls) (· hbook)
    rw [hrules hdrain, if_neg (by simp [hcfg]), if_neg (by simp [hctx]), if_neg hadmitted]
    exact State.ring_enabled ..

/-! ### Which registers a running ring keeps (R511) -/

section
variable {s : State} {ld : Ld} {n r : Nat}

/-- R497, R509: where a register of a ring window lies. -/
theorem ringWindow_offset (hn : n < 65536) (hr : r < 64) :
    (0x1000000 ≤ 0x1000000 + 64 * n + r ∧ 0x1000000 + 64 * n + r < 0x1400000) ∧
      (0x1000000 + 64 * n + r - 0x1000000) / 64 = n ∧ (0x1000000 + 64 * n + r) % 64 = r := by
  omega

/-- R497, R509: a whole-register write of 32 bits into the window of ring n reaches the window's register there. -/
theorem exec_registerWrite_ring32 (hn : n < 65536) (hr : r < 64) (hal : r % 4 = 0) (v : BitVec 64) :
    exec (.registerWrite ld (0x1000000 + 64 * n + r) 4 v) s = .next (s.writeRing32 ld n r (v.setWidth 32)) := by
  obtain ⟨⟨hlo, hhi⟩, hring, hreg⟩ := ringWindow_offset hn hr
  have haligned : (0x1000000 + 64 * n + r) % 4 = 0 := by omega
  rw [exec_registerWrite]
  simp [State.regWrite, haligned, hlo, hhi, hring, hreg]

/-- R497, R509: likewise a write of 64 bits. -/
theorem exec_registerWrite_ring64 (hn : n < 65536) (hr : r < 64) (hal : r % 8 = 0) (v : BitVec 64) :
    exec (.registerWrite ld (0x1000000 + 64 * n + r) 8 v) s = .next (s.writeRing64 ld n r v) := by
  obtain ⟨⟨hlo, hhi⟩, hring, hreg⟩ := ringWindow_offset hn hr
  have haligned : (0x1000000 + 64 * n + r) % 8 = 0 := by omega
  rw [exec_registerWrite]
  simp [State.regWrite, haligned, hlo, hhi, hring, hreg]

/-- R511: a ring is idle unless it is enabled or drains. -/
theorem Ring.idle_eq_false_iff {g : Ring} : g.idle = false ↔ g.en = true ∨ g.draining = true := by
  rw [Ring.idle, Bool.not_eq_false', Bool.or_eq_true]

/-- R511: RING_CTX, RING_SIZE, RING_CQ_SIZE and RING_CLASS of a ring that is not idle stay. -/
theorem State.writeRing32_running (hrun : (s.ring n).idle = false) (hr : r ∈ [0x04, 0x18, 0x1C, 0x20]) (v : BitVec 32) :
    s.writeRing32 ld n r v = s := by
  simp only [List.mem_cons, List.not_mem_nil, or_false] at hr
  obtain rfl | rfl | rfl | rfl := hr <;> simp [State.writeRing32, hrun]

/-- R438, R511: RING_CLASS of a booked ring stays. -/
theorem State.writeRing32_class_booked (hbook : (s.ring n).booking ≠ none) (v : BitVec 32) :
    s.writeRing32 ld n 0x20 v = s := by
  simp [State.writeRing32, hbook]

/-- R511: RING_BASE of a ring that is not idle stays. -/
theorem State.writeRing64_base_running (hrun : (s.ring n).idle = false) (v : BitVec 64) :
    s.writeRing64 ld n 0x08 v = s := by
  simp [State.writeRing64, hrun]

/-- R424, R511: RING_CQ_BASE of a ring that is not idle stays while CQ_LOST is clear. -/
theorem State.moveCqBase_running (hrun : (s.ring n).en = true ∨ (s.ring n).draining = true)
    (hlost : (s.ring n).cqLost = false) (v : BitVec 64) : s.moveCqBase ld n v = s := by
  have hbusy : ((s.ring n).en || (s.ring n).draining) = true := by simpa using hrun
  simp [State.moveCqBase, hbusy, hlost]

end

/-- Settles O13: each write reaches its register of the ring's window (`exec_registerWrite_ring32`,
`exec_registerWrite_ring64`), and that register stays. -/
theorem runningRingKeepsItsRegisters : Obligations.RunningRingKeepsItsRegisters := by
  intro ld n v s hn
  refine ⟨fun hrun => ?_, fun hbook => ?_⟩
  · have hidle : (s.ring n).idle = false := Ring.idle_eq_false_iff.mpr hrun
    have hkeep32 : ∀ r, r ∈ [0x04, 0x18, 0x1C, 0x20] →
        exec (.registerWrite ld (0x1000000 + 64 * n + r) 4 v) s = .next s := by
      intro r hr
      obtain ⟨hr64, hal⟩ : r < 64 ∧ r % 4 = 0 := by revert r; decide
      rw [exec_registerWrite_ring32 hn hr64 hal, State.writeRing32_running hidle hr]
    have hbase : exec (.registerWrite ld (0x1000000 + 64 * n + 0x08) 8 v) s = .next s := by
      rw [exec_registerWrite_ring64 hn (by decide) (by decide), State.writeRing64_base_running hidle]
    refine ⟨hkeep32 _ (by decide), hbase, hkeep32 _ (by decide), hkeep32 _ (by decide), hkeep32 _ (by decide),
      fun hlost => ?_⟩
    have hmove : exec (.ringCqBaseMove ld n v) s = .next s :=
      congrArg Host.Outcome.next (State.moveCqBase_running hrun hlost v)
    exact ⟨(exec_registerWrite_ring64 hn (by decide) (by decide) v).trans hmove, hmove⟩
  · rw [exec_registerWrite_ring32 hn (by decide) (by decide), State.writeRing32_class_booked hbook]

end Machine
end Sys2Proof
end

section
namespace Sys2Proof
namespace Machine

/-! ### What the operations of a half leave of its counts of retired blocks -/

namespace Half

@[simp] theorem setSb_retired (h : Half) (k : Nat) (b : Superblock) : (h.setSb k b).retired = h.retired := rfl

@[simp] theorem programLog_retired (h : Half) : h.programLog.retired = h.retired := rfl

@[simp] theorem addLog_retired (h : Half) (r : MapLog) : (h.addLog r).retired = h.retired := by
  unfold addLog
  dsimp only
  split <;> rfl

@[simp] theorem closeSb_retired (h : Half) (k : Nat) : (h.closeSb k).retired = h.retired := by simp [closeSb]

@[simp] theorem writeLeaf_retired (h : Half) (n : Nat) : (h.writeLeaf n).retired = h.retired := by
  unfold writeLeaf
  split
  · rfl
  · split
    · rfl
    · simp

@[simp] theorem evictLeaf_retired (h : Half) (n : Nat) : (h.evictLeaf n).retired = h.retired := by simp [evictLeaf]

@[simp] theorem leafRoom_retired (k : Nat) (h : Half) (kib : Nat) : (h.leafRoom k kib).retired = h.retired := by
  induction k generalizing h with
  | zero => rfl
  | succ k ih =>
    unfold leafRoom
    repeat' split
    all_goals simp [ih]

@[simp] theorem useLeaf_retired (h : Half) (n : Nat) : (h.useLeaf n).retired = h.retired := by
  unfold useLeaf
  dsimp only
  split
  · rfl
  · exact leafRoom_retired _ _ _

@[simp] theorem lookup_retired (h : Half) (k : Nat) : (h.lookup k).retired = h.retired := by
  unfold lookup
  split <;> simp

@[simp] theorem mapPut_retired (h : Half) (k : Nat) (e : MapEnt) : (h.mapPut k e).retired = h.retired := by simp [mapPut]

@[simp] theorem mapDel_retired (h : Half) (k : Nat) : (h.mapDel k).retired = h.retired := by
  unfold mapDel
  dsimp only
  split <;> simp

@[simp] theorem countErase_retired (h : Half) (k : Nat) : (h.countErase k).retired = h.retired := rfl

@[simp] theorem eraseAgain_retired (h : Half) (k : Nat) : (h.eraseAgain k).retired = h.retired := rfl

@[simp] theorem flushed_retired (h : Half) : h.flushed.retired = h.retired := rfl

@[simp] theorem relocated_retired (h : Half) : h.relocated.retired = h.retired := rfl

@[simp] theorem setBad_retired (h : Half) (ch : Nat) (n : NandId) : (h.setBad ch n).retired = h.retired := rfl

@[simp] theorem afterReset_retired (h : Half) (b : Bool) : (h.afterReset b).retired = h.retired := rfl

@[simp] theorem claimSpans_retired (h : Half) (sp n : Nat) : (claimSpans h sp n).retired = h.retired := rfl

/-- What every step of a fold over a half leaves of the counts, the fold leaves. -/
@[simp] theorem foldl_retired {β : Type} {f : Half → β → Half} (hf : ∀ h x, (f h x).retired = h.retired) (l : List β) (h : Half) :
    (l.foldl f h).retired = h.retired := by
  induction l generalizing h with
  | nil => rfl
  | cons x xs ih => rw [List.foldl_cons, ih, hf]

@[simp] theorem checkpoint_retired (h : Half) (now : Nat) : (h.checkpoint now).retired = h.retired :=
  foldl_retired writeLeaf_retired _ _

@[simp] theorem afterReplay_retired (h : Half) : h.afterReplay.retired = h.retired := by
  unfold afterReplay
  dsimp only
  rw [foldl_retired (fun h n => by simp), foldl_retired eraseAgain_retired]

@[simp] theorem placeRecs_retired (k : Nat) (es : List RowEnt) (off : Nat) (h : Half) : (placeRecs k es off h).retired = h.retired := by
  induction es generalizing off h with
  | nil => rfl
  | cons e r ih =>
    unfold placeRecs
    rw [ih]
    split <;> simp

end Half

/-! ### Rows -/

theorem Coal.openSb_retired {c : Coal} {h h' : Half} {copies : Bool} {k : Nat} (e : c.openSb h copies = some (k, h')) :
    h'.retired = h.retired := by
  unfold Coal.openSb at e
  split at e
  · simp only [Option.some.injEq, Prod.mk.injEq] at e
    rw [← e.2]
  · split at e
    · cases e
    · dsimp only at e
      split at e
      · cases e
      · simp only [Option.some.injEq, Prod.mk.injEq] at e
        rw [← e.2]
        simp

theorem Coal.nextRow_retired {c : Coal} {h h' : Half} {copies : Bool} {es row : List RowEnt} {k : Nat}
    (e : c.nextRow h copies es = some (k, h', row)) : h'.retired = h.retired := by
  unfold Coal.nextRow at e
  split at e
  · cases e
  · next ho =>
    split at e
    · cases e
    · simp only [Option.some.injEq, Prod.mk.injEq] at e
      obtain ⟨rfl, rfl, -⟩ := e
      exact Coal.openSb_retired ho

@[simp] theorem Coal.writeRow_retired (c : Coal) (k : Nat) (row : List RowEnt) (h : Half) :
    (c.writeRow k row h).retired = h.retired := by
  unfold Coal.writeRow
  dsimp only
  split <;> simp

theorem Coal.writeRows_retired {c : Coal} {copies : Bool} {n : Nat} {es : List RowEnt} {h h' : Half}
    (e : c.writeRows copies n es h = some h') : h'.retired = h.retired := by
  induction n generalizing es h with
  | zero =>
    cases es with
    | nil => cases e; rfl
    | cons x xs => cases e
  | succ n ih =>
    cases es with
    | nil => cases e; rfl
    | cons x xs =>
      rw [Coal.writeRows] at e
      · split at e
        · cases e
        · next hn =>
          rw [ih e, Coal.writeRow_retired, Coal.nextRow_retired hn]
      · simp

/-- What the two invariants look at (the cells of memory, the rings, the core targets, the Coal store's media), the queue and the
time base. -/
structure Core where
  /-- R12: the commands that wait. -/
  pending : List Instr
  /-- R463: the time base. -/
  now : BitVec 64
  /-- R189: the listed bytes of memory. -/
  cells : List Host.Cell
  /-- R509: the rings. -/
  rings : Tbl Ring
  /-- R491: the core targets. -/
  vtarget : Two Nat
  /-- R521: the media were ever formatted. -/
  media : Bool
  /-- R268: FORMATTED. -/
  formatted : Bool
  /-- R232: the halves. -/
  half : Two Half

/-- The part of a state that the invariants look at. -/
def State.core (s : State) : Core := ⟨s.pending, s.now, s.mem.cells, s.rings, s.pkg.vtarget, s.coal.media, s.coal.formatted, s.coal.half⟩

/-- From `s` to `t` both invariants are kept: the canonical form of memory, and the shape of `Shaped`. -/
def KeepsForm (s t : State) : Prop := (s.mem.wf = true → t.mem.wf = true) ∧ (Shaped s → Shaped t)

/-- From `s` to `t` both invariants are kept, no command leaves the queue or joins it, and no time passes. -/
def Kept (s t : State) : Prop := KeepsForm s t ∧ t.pending = s.pending ∧ t.now = s.now

/-- The state of an outcome of an instruction's run. -/
def Out.state : Out → State
  | .done _ s => s
  | .wait _ s => s
  | .enter _ _ s => s

/-- The state in which an instruction's checks end. -/
def Chk.state : Chk → State
  | .bad _ s => s
  | .wait _ s => s
  | .good _ s => s

/-- The state with the frames of a plan, or `s` where it has none. -/
def Plan.state (s : State) : Plan → State
  | .ready t => t
  | _ => s

/-- The state with the frame that was found, or `s`. -/
def Alloc.state (s : State) : Alloc → State
  | .got _ t => t
  | _ => s

/-- The state with the new page, or `s`. -/
def NewPage.state (s : State) : NewPage → State
  | .got _ t => t
  | _ => s

/-- The state with the new row, or `s`. -/
def Insert.state (s : State) : Insert → State
  | .done _ t => t
  | .waits _ => s
  | .stop _ t => t
  | .gone t => t

namespace Kept
variable {s0 s t : State}

theorem form (h : Kept s t) : KeepsForm s t := h.1

theorem wf (h : Kept s t) : s.mem.wf = true → t.mem.wf = true := h.1.1

theorem shaped (h : Kept s t) : Shaped s → Shaped t := h.1.2

theorem pending (h : Kept s t) : t.pending = s.pending := h.2.1

theorem now (h : Kept s t) : t.now = s.now := h.2.2

theorem refl (s : State) : Kept s s := ⟨⟨id, id⟩, rfl, rfl⟩

theorem trans {r : State} (h : Kept r s) (h' : Kept s t) : Kept r t :=
  ⟨⟨fun x => h'.wf (h.wf x), fun x => h'.shaped (h.shaped x)⟩, h'.pending.trans h.pending, h'.now.trans h.now⟩

/-- The invariants see only the core. -/
theorem same (h : Kept s0 s) (e : t.core = s.core) : Kept s0 t := by
  simp only [State.core, Core.mk.injEq] at e
  obtain ⟨hp, hn, hcells, hrings, hv, hmedia, hform, hhalf⟩ := e
  refine ⟨⟨fun x => ?_, fun x => ?_⟩, hp.trans h.pending, hn.trans h.now⟩
  · rw [Mem.wf, hcells]; exact h.wf x
  · simpa only [Shaped, State.ring, hrings, hv, hmedia, hform, hhalf] using h.shaped x

/-- An update of fields that the invariants do not look at. -/
theorem but {fresh resp gbl jrn ctxs profiles images seqs pages dom eng fbxCtl drt wobjs wins cxp flu dmp chk sec tel} (h : Kept s0 s) :
    Kept s0 ⟨s.pending, fresh, s.now, resp, gbl, jrn, s.rings, ctxs, profiles, images, seqs, pages, dom, eng, fbxCtl, drt, wobjs, wins, s.coal, cxp, flu, dmp, chk, sec, tel, s.pkg, s.mem⟩ := h

/-- A write of memory that keeps the canonical form, and nothing else of the core. -/
theorem onMem (h : Kept s0 s) (hm : s.mem.wf = true → t.mem.wf = true) (e : { t with mem := s.mem }.core = s.core) : Kept s0 t :=
  have hs := (Kept.refl s).same e
  ⟨⟨fun x => hm (h.wf x), fun x => hs.shaped (h.shaped x)⟩, hs.pending.trans h.pending, hs.now.trans h.now⟩

/-- What both branches keep, the choice keeps. -/
theorem ite {c : Prop} [Decidable c] {a b : State} (ha : Kept s0 a) (hb : Kept s0 b) : Kept s0 (if c then a else b) := by
  split
  · exact ha
  · exact hb

/-- What an outcome keeps that is a next state. -/
theorem next (h : Kept s0 t) : Kept s0 (stateAfter s (.next t)) := h

/-- What every step of a fold keeps, the fold keeps. -/
theorem foldl {β : Type} {f : State → β → State} {l : List β} (h : Kept s0 s) (hf : ∀ t x, Kept s0 t → Kept s0 (f t x)) :
    Kept s0 (l.foldl f s) := by
  induction l generalizing s with
  | nil => exact h
  | cons x xs ih => exact ih (hf s x h)

/-- The same of a fold that carries a state beside something else. -/
theorem foldlSnd {β γ : Type} {f : γ × State → β → γ × State} {l : List β} {c : γ × State} (h : Kept s0 c.2)
    (hf : ∀ c x, Kept s0 c.2 → Kept s0 (f c x).2) : Kept s0 (l.foldl f c).2 := by
  induction l generalizing c with
  | nil => exact h
  | cons x xs ih => exact ih (hf c x h)

theorem foldlFst {β γ : Type} {f : State × γ → β → State × γ} {l : List β} {c : State × γ} (h : Kept s0 c.1)
    (hf : ∀ c x, Kept s0 c.1 → Kept s0 (f c x).1) : Kept s0 (l.foldl f c).1 := by
  induction l generalizing c with
  | nil => exact h
  | cons x xs ih => exact ih (hf c x h)

/-- The registers of a ring of a state that is kept. -/
theorem regs (h : Kept s0 s) (n : Nat) (x : Shaped s0) : (s.ring n).regs.length = 64 := (h.shaped x).1 n

/-- Every ring changed alike, its registers left. -/
theorem mapRings {f : Nat → Ring → Ring} {fresh resp gbl jrn ctxs profiles images seqs pages dom eng fbxCtl drt wobjs wins cxp flu dmp chk sec tel} (h : Kept s0 s) (hf : ∀ n g, (f n g).regs = g.regs) :
    Kept s0 ⟨s.pending, fresh, s.now, resp, gbl, jrn, s.rings.mapVals f, ctxs, profiles, images, seqs, pages, dom, eng, fbxCtl, drt, wobjs, wins, s.coal, cxp, flu, dmp, chk, sec, tel, s.pkg, s.mem⟩ := by
  refine ⟨⟨h.wf, fun x => ⟨fun n => ?_, (h.shaped x).2⟩⟩, h.pending, h.now⟩
  have hn := (h.shaped x).1 n
  unfold State.ring Tbl.lookD at hn ⊢
  dsimp only
  rw [Tbl.look_mapVals]
  cases hl : s.rings.look n with
  | none => rw [hl] at hn; exact hn
  | some g => rw [hl] at hn; simpa [hf] using hn

/-- Memory changed in its canonical form. -/
theorem withMem {fresh resp gbl jrn ctxs profiles images seqs pages dom eng fbxCtl drt wobjs wins cxp flu dmp chk sec tel mem} (h : Kept s0 s) (hm : s.mem.wf = true → mem.wf = true) :
    Kept s0 ⟨s.pending, fresh, s.now, resp, gbl, jrn, s.rings, ctxs, profiles, images, seqs, pages, dom, eng, fbxCtl, drt, wobjs, wins, s.coal, cxp, flu, dmp, chk, sec, tel, s.pkg, mem⟩ :=
  ⟨⟨fun x => hm (h.wf x), h.shaped⟩, h.pending, h.now⟩

/-- The counts of retired blocks of formatted media in a state that is kept. -/
theorem halves (h : Kept s0 s) (x : Shaped s0) :
    s.coal.media = true ∨ s.coal.formatted = true → ∀ d, (s.coal.half.get d).retired.length = 16 := (h.shaped x).2.2

/-- The Coal store changed, with a count of retired blocks for each channel while its media are formatted. -/
theorem withCoal {fresh resp gbl jrn ctxs profiles images seqs pages dom eng fbxCtl drt wobjs wins cxp flu dmp chk sec tel coal} (h : Kept s0 s) (hc : Shaped s0 → coal.media = true ∨ coal.formatted = true → ∀ d, (coal.half.get d).retired.length = 16) :
    Kept s0 ⟨s.pending, fresh, s.now, resp, gbl, jrn, s.rings, ctxs, profiles, images, seqs, pages, dom, eng, fbxCtl, drt, wobjs, wins, coal, cxp, flu, dmp, chk, sec, tel, s.pkg, s.mem⟩ :=
  ⟨⟨h.wf, fun x => ⟨(h.shaped x).1, (h.shaped x).2.1, hc x⟩⟩, h.pending, h.now⟩

theorem setRing {n : Nat} {g : Ring} (h : Kept s0 s) (hg : Shaped s0 → g.regs.length = 64) : Kept s0 (s.setRing n g) := by
  refine ⟨⟨h.wf, fun x => ⟨fun m => ?_, (h.shaped x).2⟩⟩, h.pending, h.now⟩
  by_cases e : m = n
  · subst e; rw [State.ring_setRing_self]; exact hg x
  · rw [State.ring_setRing_ne _ _ e]; exact (h.shaped x).1 m

theorem poke {a bs} (h : Kept s0 s) : Kept s0 (s.poke a bs) := h.onMem (fun x => Mem.write_wf x a bs) rfl

/-- A half of the Coal store replaced by one that counts its retired blocks by as many channels. -/
theorem setHalf {d : Side} {x : Half} (h : Kept s0 s) (e : x.retired.length = (s.coal.half.get d).retired.length) :
    Kept s0 (s.setHalf d x) := by
  refine ⟨⟨h.wf, fun y => ⟨(h.shaped y).1, (h.shaped y).2.1, fun hm d' => ?_⟩⟩, h.pending, h.now⟩
  have hh := (h.shaped y).2.2 hm
  by_cases hd : d' = d
  · subst hd; rw [← hh d', ← e]; simp [State.setHalf]
  · rw [← hh d']; simp [State.setHalf, Two.get_set_ne _ _ hd]
end Kept
end Machine
end Sys2Proof
end

section
namespace Sys2Proof
namespace Machine

/-! ### What keeps both invariants: one lemma per operation of the state

A lemma bears the name of the function it speaks of: from a state that `s0` keeps, the function
leaves a state that `s0` keeps. -/

namespace Kept
variable {s0 s : State}

theorem setPort {p} {x} (hs : Kept s0 s) : Kept s0 (s.setPort p x) := by
  unfold State.setPort
  dsimp only
  exact .but hs

theorem execSecureAssociationLoss {port} (hs : Kept s0 s) :
    Kept s0 (stateAfter s (Machine.execSecureAssociationLoss port s)) := by
  unfold Machine.execSecureAssociationLoss
  dsimp only
  exact hs.setPort

theorem pauseEnds {p} {prio} (hs : Kept s0 s) : Kept s0 (s.pauseEnds p prio) := by
  unfold State.pauseEnds
  dsimp only
  split
  · exact .ite hs.setPort hs
  · exact hs

theorem execPfcPauseExpiry {port} {prio} (hs : Kept s0 s) :
    Kept s0 (stateAfter s (Machine.execPfcPauseExpiry port prio s)) := by
  unfold Machine.execPfcPauseExpiry
  exact hs.pauseEnds

theorem section_ {cause} {flags} {recs} (hs : Kept s0 s) :
    Kept s0 (s.section_ cause flags recs) := by
  unfold State.section_
  dsimp only
  exact .ite hs (.but hs)

theorem mapRecs {f} (hs : Kept s0 s) : Kept s0 (s.mapRecs f) := by
  unfold State.mapRecs
  dsimp only
  exact .but hs

theorem markResumed {p} (hs : Kept s0 s) : Kept s0 (s.markResumed p) := by
  unfold State.markResumed
  exact hs.mapRecs

theorem resumeOps {d} {lo} {hi} (hs : Kept s0 s) : Kept s0 (s.resumeOps d lo hi) := by
  unfold State.resumeOps
  exact hs.markResumed

theorem rerunUnits {d} {u} (hs : Kept s0 s) : Kept s0 (s.rerunUnits d u) := by
  unfold State.rerunUnits
  dsimp only
  exact .markResumed (.but hs)

theorem moveUnits {d} {u} (hs : Kept s0 s) : Kept s0 (s.moveUnits d u) := by
  unfold State.moveUnits
  dsimp only
  split
  · exact hs
  · exact hs.mapRecs

theorem raise {h} {ld} {v} (hs : Kept s0 s) : Kept s0 (s.raise h ld v) := by
  unfold State.raise
  dsimp only
  exact .but hs

theorem setHead {h} {x} (hs : Kept s0 s) : Kept s0 (s.setHead h x) := by
  unfold State.setHead
  dsimp only
  exact .but hs

theorem setLd {l} {x} (hs : Kept s0 s) : Kept s0 (s.setLd l x) := by
  unfold State.setLd
  dsimp only
  exact hs.setHead

theorem postEvent {l} {k} {r} (hs : Kept s0 s) : Kept s0 (s.postEvent l k r) := by
  unfold State.postEvent
  dsimp only
  exact .but (.ite hs.setLd.raise hs.setLd)

theorem postAll {k} {code} {dpa} {ctx} {head} (hs : Kept s0 s) :
    Kept s0 (s.postAll k code dpa ctx head) := by
  unfold State.postAll
  exact .foldl hs fun _ _ hk => hk.postEvent

theorem recheck (hs : Kept s0 s) : Kept s0 s.recheck := by
  unfold State.recheck
  dsimp only
  exact .ite (.but hs) (.ite hs (.postAll (.but hs)))

theorem trace {d} {r} (hs : Kept s0 s) : Kept s0 (s.trace d r) := by
  unfold State.trace
  dsimp only
  exact .ite (.but hs) hs

theorem countAo {off} {n} (hs : Kept s0 s) : Kept s0 (s.countAo off n) := by
  unfold State.countAo
  dsimp only
  exact .but hs

theorem raiseFault (hs : Kept s0 s) : Kept s0 s.raiseFault := by
  unfold State.raiseFault
  exact .foldl hs fun _ _ hk => hk.raise

theorem postHealth (hs : Kept s0 s) : Kept s0 s.postHealth := by
  unfold State.postHealth
  exact .foldl hs fun _ _ hk => hk.postEvent

theorem report {kind} {die} {unit} (hs : Kept s0 s) : Kept s0 (s.report kind die unit) := by
  unfold State.report
  dsimp only
  exact .trace (.postHealth (.raiseFault (.countAo (.but hs))))

theorem fatal {die} {unit} (hs : Kept s0 s) : Kept s0 (s.fatal die unit) := by
  unfold State.fatal
  dsimp only
  exact .but hs.report

theorem fault {kind} {die} {unit} {recover : State → State} (hs : Kept s0 s) (hrecover : ∀ t0, Kept s0 t0 → Kept s0 (recover t0)) :
    Kept s0 (s.fault kind die unit recover) := by
  unfold State.fault
  dsimp only
  exact .ite hs (.ite hs.fatal (.but (hrecover _ hs.report)))

theorem fireboxFails {d} {u} (hs : Kept s0 s) : Kept s0 (s.fireboxFails d u) := by
  unfold State.fireboxFails
  exact .ite hs (hs.fault (fun _ hk => .recheck (.moveUnits (.rerunUnits (.but hk)))))

theorem engineReset {d} {k} {u} (hs : Kept s0 s) : Kept s0 (s.engineReset d k u) := by
  unfold State.engineReset
  dsimp only
  refine .ite hs ?_
  split
  · exact .ite hs (.ite hs.fireboxFails (.rerunUnits (.but hs)))
  · exact hs.markResumed
  · exact .ite hs.resumeOps hs
  · exact .ite hs.resumeOps hs
  · exact .ite hs.resumeOps hs

theorem execEngineReset {die} {engine} {unit} (hs : Kept s0 s) :
    Kept s0 (stateAfter s (Machine.execEngineReset die engine unit s)) := by
  unfold Machine.execEngineReset
  exact hs.engineReset

theorem startWarm (hs : Kept s0 s) : Kept s0 s.startWarm := by
  unfold State.startWarm
  dsimp only
  exact .ite hs (.ite (.but hs) (.same hs rfl))

theorem resumed {d} {cause} {start} {cls} (hs : Kept s0 s) :
    Kept s0 (s.resumed d cause start cls) := by
  unfold State.resumed
  dsimp only
  exact .trace (.but hs)

theorem excludeAll {t0} (hs : Kept s0 s) : Kept s0 (s.excludeAll t0) := by
  unfold State.excludeAll
  exact hs.mapRecs

theorem setPage {h} {p} (hs : Kept s0 s) : Kept s0 (s.setPage h p) := by
  unfold State.setPage
  exact .but hs

theorem updPage {h} {f} (hs : Kept s0 s) : Kept s0 (s.updPage h f) := by
  unfold State.updPage
  exact hs.setPage

theorem trimSpan {h} (hs : Kept s0 s) : Kept s0 (s.trimSpan h) := by
  unfold State.trimSpan
  dsimp only
  exact .ite hs (hs.setHalf rfl)

theorem dropReqs {h} (hs : Kept s0 s) : Kept s0 (s.dropReqs h) := by
  unfold State.dropReqs
  dsimp only
  exact .but hs

theorem clearView {h} (hs : Kept s0 s) : Kept s0 (s.clearView h) := by
  unfold State.clearView
  dsimp only
  exact .withMem hs (cellsAbove_filter _)

theorem setCtx {c} {x} (hs : Kept s0 s) : Kept s0 (s.setCtx c x) := by
  unfold State.setCtx
  exact .but hs

theorem unchargeCtx {c} {n} (hs : Kept s0 s) : Kept s0 (s.unchargeCtx c n) := by
  unfold State.unchargeCtx
  dsimp only
  exact hs.setCtx

theorem count {off} {n} (hs : Kept s0 s) : Kept s0 (s.count off n) := by
  unfold State.count
  dsimp only
  exact .ite (.but hs) hs

theorem newHalf {d} {h : Half} (hs : Kept s0 s) (e : h.retired.length = (s.coal.half.get d).retired.length) :
    Kept s0 (s.newHalf d h) := by
  have hk : Kept s0 (s.setHalf d { h with leafMiss := 0 }) := hs.setHalf e
  unfold State.newHalf
  exact .ite hk hk.count

theorem fullCheck {d} (hs : Kept s0 s) : Kept s0 (s.fullCheck d) := by
  unfold State.fullCheck
  dsimp only
  exact .ite (hs.setHalf rfl) hs

theorem coalRelease {d} {key} (hs : Kept s0 s) : Kept s0 (s.coalRelease d key) := by
  unfold State.coalRelease
  exact (hs.newHalf (by dsimp only; split <;> simp)).fullCheck

theorem releaseCopy {h} (hs : Kept s0 s) : Kept s0 (s.releaseCopy h) := by
  unfold State.releaseCopy
  exact hs.coalRelease.updPage

theorem unframe {d} {f} (hs : Kept s0 s) : Kept s0 (s.unframe d f) := by
  unfold State.unframe
  dsimp only
  exact .but hs

theorem addFrame {d} {f} (hs : Kept s0 s) : Kept s0 (s.addFrame d f) := by
  unfold State.addFrame
  dsimp only
  exact .withMem hs id

theorem mirrorFreed {d} {kib} (hs : Kept s0 s) : Kept s0 (s.mirrorFreed d kib) := by
  unfold State.mirrorFreed
  dsimp only
  refine .ite hs ?_
  split
  · exact .but hs.addFrame.updPage
  · exact .but hs

theorem freeFrame {d} {f} (hs : Kept s0 s) : Kept s0 (s.freeFrame d f) := by
  unfold State.freeFrame
  split
  · exact hs.unframe.mirrorFreed
  · exact hs

theorem freeNow {h} (hs : Kept s0 s) : Kept s0 (s.freeNow h) := by
  unfold State.freeNow
  dsimp only
  exact .trimSpan (.but (.clearView (.dropReqs (.ite hs.freeFrame.freeFrame.releaseCopy.unchargeCtx hs.freeFrame.freeFrame.releaseCopy))))

theorem yieldFrame {h} {f} (hs : Kept s0 s) : Kept s0 (s.yieldFrame h f) := by
  unfold State.yieldFrame
  dsimp only
  split
  · exact hs
  · exact hs.freeFrame
  · exact .but hs

theorem freePage {h} (hs : Kept s0 s) : Kept s0 (s.freePage h) := by
  unfold State.freePage
  dsimp only
  exact .ite (.but hs.yieldFrame.yieldFrame.updPage) hs.freeNow

theorem releaseRef {h} (hs : Kept s0 s) : Kept s0 (s.releaseRef h) := by
  unfold State.releaseRef
  dsimp only
  exact .ite hs.freePage hs.setPage

theorem winFail {i} (hs : Kept s0 s) : Kept s0 (s.winFail i) := by
  unfold State.winFail
  split
  · exact hs
  · exact .ite hs (.count (.but hs))

theorem winFailAll {p} (hs : Kept s0 s) : Kept s0 (s.winFailAll p) := by
  unfold State.winFailAll
  exact .foldl hs fun _ _ hk => hk.winFail

theorem domForget {idx} (hs : Kept s0 s) : Kept s0 (s.domForget idx) := by
  unfold State.domForget
  dsimp only
  exact .but hs

theorem setFull {d} (hs : Kept s0 s) : Kept s0 (s.setFull d) := by
  have hk : Kept s0 (s.setHalf d { s.coal.half.get d with full := true }) := hs.setHalf rfl
  unfold State.setFull
  dsimp only
  exact .ite (.withCoal hk hk.halves) hk

theorem draw (hs : Kept s0 s) : Kept s0 s.draw.2 := by
  unfold State.draw
  dsimp only
  exact .but hs

/-- Salting the records of a row draws values and changes nothing else of the part. -/
theorem salted_coal (s : State) (es : List RowEnt) : (s.salted es).2.coal = s.coal := by
  unfold State.salted
  induction es with
  | nil => rfl
  | cons e es ih =>
    rw [List.foldr_cons]
    dsimp only
    split
    · exact ih
    · rw [← ih]; rfl

theorem salted {es} (hs : Kept s0 s) : Kept s0 (s.salted es).2 := by
  unfold State.salted
  induction es with
  | nil => exact hs
  | cons e es ih =>
    rw [List.foldr_cons]
    dsimp only
    split
    · exact ih
    · exact ih.draw

theorem coalStore {d} {copies} {es} {t} (hs : Kept s0 s) (e : s.coalStore d copies es = some t) :
    Kept s0 t := by
  unfold State.coalStore at e
  obtain ⟨h, hw, rfl⟩ := Option.map_eq_some_iff.1 e
  exact hs.salted.newHalf (congrArg List.length (Coal.writeRows_retired hw))

theorem coalWrite {d} {es} (hs : Kept s0 s) : Kept s0 (s.coalWrite d es).2 := by
  unfold State.coalWrite
  split
  · split
    · next e => exact hs.coalStore e
    · exact hs
  · exact .ite hs.setFull hs

theorem withdrawRecord {c} (hs : Kept s0 s) : Kept s0 (s.withdrawRecord c) := by
  unfold State.withdrawRecord
  dsimp only
  split
  · next x0 x1 he =>
      have hk : Kept _ x1 := he ▸ hs.coalWrite
      exact .but hk
  · next x0 x1 he =>
      have hk : Kept _ x1 := he ▸ hs.coalWrite
      exact .but hk.coalRelease

theorem uncatalogue {e} (hs : Kept s0 s) : Kept s0 (s.uncatalogue e) := by
  unfold State.uncatalogue
  split
  · exact hs.withdrawRecord
  · exact hs

theorem withdrawRow {idx} (hs : Kept s0 s) : Kept s0 (s.withdrawRow idx) := by
  unfold State.withdrawRow
  dsimp only
  split
  · exact hs
  · refine .ite hs (.ite ?_ (.unchargeCtx ?_))
    · split
      · exact .freeFrame (.foldl (.but (.uncatalogue (.domForget (.foldl hs fun _ _ hk => .ite hk.updPage hk)))) fun _ _ hk => .ite hk.releaseRef hk)
      · exact .foldl (.but (.uncatalogue (.domForget (.foldl hs fun _ _ hk => .ite hk.updPage hk)))) fun _ _ hk => .ite hk.releaseRef hk
    · split
      · exact .freeFrame (.foldl (.but (.uncatalogue (.domForget (.foldl hs fun _ _ hk => .ite hk.updPage hk)))) fun _ _ hk => .ite hk.releaseRef hk)
      · exact .foldl (.but (.uncatalogue (.domForget (.foldl hs fun _ _ hk => .ite hk.updPage hk)))) fun _ _ hk => .ite hk.releaseRef hk

theorem losePage {h} {lost} (hs : Kept s0 s) : Kept s0 (s.losePage h lost) := by
  unfold State.losePage
  dsimp only
  refine .ite hs (.releaseRef ?_)
  split
  · refine .ite (.winFailAll (.but (.dropReqs (.releaseCopy (.ite (.updPage (.yieldFrame (.yieldFrame ?_))) (.clearView (.updPage (.yieldFrame (.yieldFrame ?_))))))))) (.but (.dropReqs (.releaseCopy (.ite (.updPage (.yieldFrame (.yieldFrame ?_))) (.clearView (.updPage (.yieldFrame (.yieldFrame ?_))))))))
    · split
      · exact hs.trace.setPage.withdrawRow
      · exact hs.trace.setPage
    · split
      · exact hs.trace.setPage.withdrawRow
      · exact hs.trace.setPage
    · split
      · exact hs.trace.setPage.withdrawRow
      · exact hs.trace.setPage
    · split
      · exact hs.trace.setPage.withdrawRow
      · exact hs.trace.setPage
  · refine .but (.dropReqs (.releaseCopy (.ite (.updPage (.yieldFrame (.yieldFrame ?_))) (.clearView (.updPage (.yieldFrame (.yieldFrame ?_)))))))
    · split
      · exact hs.trace.setPage.withdrawRow
      · exact hs.trace.setPage
    · split
      · exact hs.trace.setPage.withdrawRow
      · exact hs.trace.setPage

theorem dropPage {h} (hs : Kept s0 s) : Kept s0 (s.dropPage h) := by
  unfold State.dropPage
  exact hs.losePage

theorem startDemote {h} (hs : Kept s0 s) : Kept s0 (s.startDemote h) := by
  unfold State.startDemote
  dsimp only
  split
  · split
    · exact hs.setPage.salted.setHalf (by rw [salted_coal])
    · exact hs.setPage.setFull
  · exact hs

theorem turn {l} {skip} {want} (hs : Kept s0 s) : Kept s0 (s.turn l skip want).2.2 := by
  unfold State.turn
  dsimp only
  exact .foldl hs fun _ _ hk => hk.updPage

theorem clock {d} {k} {busy} {want} (hs : Kept s0 s) : Kept s0 (s.clock d k busy want).2 := by
  unfold State.clock
  dsimp only
  split
  · exact hs
  · split
    · next e => exact .but (e ▸ hs.turn : Kept s0 (_, _, _).2.2)
    · next e =>
      have h1 := (e ▸ hs.turn : Kept s0 (_, _, _).2.2)
      split
      · exact .but h1
      · exact .but h1.turn

theorem clocks {d} {busy} {want} {ks} (hs : Kept s0 s) :
    Kept s0 (State.clocks d busy want ks s).2 := by
  induction ks generalizing s with
  | nil => exact hs
  | cons k ks ih =>
    rw [State.clocks]
    split
    · next e => exact (e ▸ hs.clock : Kept s0 (_, _).2)
    · next e => exact ih (e ▸ hs.clock : Kept s0 (_, _).2)

theorem victim {d} {busy} {want} {v t} (hs : Kept s0 s) (e : s.victim d busy want = some (v, t)) :
    Kept s0 t := by
  have hk : Kept s0 (State.clocks d busy want vlists s).2 := hs.clocks
  unfold State.victim at e
  split at e
  · next hc =>
    cases e
    rw [hc] at hk
    exact hk
  · next hc =>
    rw [hc] at hk
    obtain ⟨_, -, he⟩ := Option.map_eq_some_iff.1 e
    cases he
    exact hk

theorem startDemotes {n} {d} {busy} (hs : Kept s0 s) : Kept s0 (s.startDemotes n d busy) := by
  induction n generalizing s with
  | zero => exact hs
  | succ n ih =>
    rw [State.startDemotes]
    refine .ite hs ?_
    split
    · exact hs
    · next e => exact ih (hs.victim e).startDemote

theorem relist {h} (hs : Kept s0 s) : Kept s0 (s.relist h) := by
  unfold State.relist
  dsimp only
  exact .but hs

theorem evict {h} (hs : Kept s0 s) : Kept s0 (s.evict h) := by
  unfold State.evict
  dsimp only
  exact .ite hs.setPage.yieldFrame.relist.count hs

theorem setUrgent {d} {b} (hs : Kept s0 s) : Kept s0 (s.setUrgent d b) := by
  unfold State.setUrgent
  dsimp only
  exact .but hs

theorem allocWaits {d} {again} {own} {quiet} (hs : Kept s0 s) :
    Kept s0 (s.allocWaits d again own quiet) := by
  unfold State.allocWaits
  dsimp only
  split
  · next x0 x1 x2 he =>
      have hk : Kept _ x2 := .victim hs.setUrgent he
      exact .ite hs.setUrgent hk.evict
  · refine .ite (.startDemotes (.ite hs.setUrgent hs.setUrgent.count)) (.ite hs.setUrgent ?_)
    split
    · next x0 x1 x2 he =>
        have hk : Kept _ x2 := .victim hs.setUrgent he
        exact hk.dropPage.count
    · exact hs.setUrgent

theorem sweepWait {h} {waits} {quiet} (hs : Kept s0 s) : Kept s0 (s.sweepWait h waits quiet) := by
  unfold State.sweepWait
  dsimp only
  exact .ite (.but hs.allocWaits) (.but hs)

theorem moveFrame {d} {f} {g} (hs : Kept s0 s) : Kept s0 (s.moveFrame d f g) := by
  unfold State.moveFrame
  dsimp only
  exact .but (.addFrame (.ite hs.unframe (.but hs)))

theorem emptyRegion {d} {ban} {l} {t} (hs : Kept s0 s) (e : State.emptyRegion d ban l s = some t) :
    Kept s0 t := by
  induction l generalizing s with
  | nil => cases e; exact hs
  | cons f r ih =>
    rw [State.emptyRegion] at e
    split at e
    · cases e
    · exact ih hs.moveFrame e

theorem compact {d} {kib} {t} (hs : Kept s0 s) (e : s.compact d kib = some t) : Kept s0 t := by
  unfold State.compact at e
  dsimp only at e
  split at e
  · cases e
  · split at e
    · cases e
    · split at e
      · cases e
      · exact hs.emptyRegion e

theorem takeFrame {d} {pref} {kib} {excl} {v t} (hs : Kept s0 s) (e : s.takeFrame d pref kib excl = some (v, t)) :
    Kept s0 t := by
  obtain ⟨_, -, he⟩ := Option.map_eq_some_iff.1 e
  cases he
  exact hs.addFrame

theorem quietRoom {n} {d} {pref} {kib} {excl} {r} (hr : Kept s0 r) (hs : Kept s0 s) :
    Kept s0 ((s.quietRoom n d pref kib excl).state r) := by
  induction n generalizing s with
  | zero => exact hr
  | succ n ih =>
    rw [State.quietRoom]
    split
    · next e => exact hs.takeFrame e
    · split
      · next e =>
        split
        · exact hr
        · exact ih (hs.victim e).evict
      · split <;> exact hr

theorem allocQuiet {d} {pref} {kib} {excl} (hs : Kept s0 s) :
    Kept s0 ((s.allocQuiet d pref kib excl).state s) := by
  unfold State.allocQuiet
  split
  · next e => exact hs.takeFrame e
  · cases hc : s.compact d kib with
    | none => exact hs.quietRoom hs
    | some t => exact .quietRoom hs (hs.compact hc)

theorem remirror {h} (hs : Kept s0 s) : Kept s0 (s.remirror h) := by
  unfold State.remirror
  dsimp only
  split
  · split
    · next x0 x1 x2 he =>
        have hk : Kept _ x2 := he ▸ hs.allocQuiet
        exact hk.updPage.sweepWait
    · exact hs.sweepWait
    · exact hs.sweepWait
  · exact hs.sweepWait

theorem recovered {w} (hs : Kept s0 s) : Kept s0 (s.recovered w) := by
  unfold State.recovered
  dsimp only
  split
  · exact .but hs
  · exact .mapRings hs fun _ _ => by split <;> rfl
  · exact .foldl hs fun _ _ hk => hk.remirror
  · exact hs

theorem windowEnd {kind} {d} {u} (hs : Kept s0 s) : Kept s0 (s.windowEnd kind d u) := by
  unfold State.windowEnd
  dsimp only
  split
  · exact hs
  · refine .ite hs (.ite (.startWarm ?_) ?_)
    · split
      · exact .resumed (.excludeAll (.recovered (.but hs)))
      · exact .excludeAll (.recovered (.but hs))
    · split
      · exact .resumed (.excludeAll (.recovered (.but hs)))
      · exact .excludeAll (.recovered (.but hs))

theorem execRecoveryWindowEnd {kind} {die} {unit} (hs : Kept s0 s) :
    Kept s0 (stateAfter s (Machine.execRecoveryWindowEnd kind die unit s)) := by
  unfold Machine.execRecoveryWindowEnd
  exact hs.windowEnd

theorem execSecondFaultStop {kind} {die} {unit} (hs : Kept s0 s) :
    Kept s0 (stateAfter s (Machine.execSecondFaultStop kind die unit s)) := by
  unfold Machine.execSecondFaultStop
  exact .next (.ite hs (hs.fault (fun _ hk => hk)))

theorem execBridgeLaneFault {dir} {lane} (hs : Kept s0 s) :
    Kept s0 (stateAfter s (Machine.execBridgeLaneFault dir lane s)) := by
  unfold Machine.execBridgeLaneFault
  exact .ite (hs.fault (fun _ hk => .but hk)) hs

theorem healed {h} (hs : Kept s0 s) : Kept s0 (s.healed h) := by
  unfold State.healed
  dsimp only
  exact .same hs rfl

theorem stackTreat {h} (hs : Kept s0 s) : Kept s0 (s.stackTreat h) := by
  unfold State.stackTreat
  dsimp only
  exact .ite (.ite hs.healed hs) (.ite (.freeFrame (.setPage (.ite hs.healed hs))) (.ite (.freeFrame (.setPage (.ite hs.healed hs))) (.ite (.relist (.freeFrame (.setPage (.ite hs.healed hs)))) (.dropPage (.ite hs.healed hs)))))

theorem stackFails {d} {st} (hs : Kept s0 s) : Kept s0 (s.stackFails d st) := by
  have hk : Kept s0 { s with rings := s.rings.mapVals (fun _ g =>
      if (g.en || g.draining) && g.cqOn (s.granulesOn d st) then { g with cqLost := true } else g) } :=
    hs.mapRings fun _ _ => by split <;> rfl
  unfold State.stackFails
  exact .recheck (.foldl (hk.withMem id) fun _ _ hk => hk.stackTreat)

theorem execHbmStackFault {die} {stack} (hs : Kept s0 s) :
    Kept s0 (stateAfter s (Machine.execHbmStackFault die stack s)) := by
  unfold Machine.execHbmStackFault
  exact .ite hs (.ite hs.fatal (hs.fault (fun _ hk => hk.stackFails)))

theorem bankFails {d} {b} (hs : Kept s0 s) : Kept s0 (s.bankFails d b) := by
  unfold State.bankFails
  dsimp only
  exact .but hs

theorem execJournalBankFault {die} {bank} (hs : Kept s0 s) :
    Kept s0 (stateAfter s (Machine.execJournalBankFault die bank s)) := by
  unfold Machine.execJournalBankFault
  exact .ite (hs.fault (fun _ hk => hk.bankFails)) hs

theorem rebind {d} {u} (hs : Kept s0 s) : Kept s0 (s.rebind d u) := by
  unfold State.rebind
  dsimp only
  exact .recheck (.mapRings hs fun _ _ => by split <;> rfl)

theorem execStokerFault {die} {unit} (hs : Kept s0 s) :
    Kept s0 (stateAfter s (Machine.execStokerFault die unit s)) := by
  unfold Machine.execStokerFault
  exact .ite (hs.fault (fun _ hk => hk.rebind)) hs

theorem execFireboxFault {die} {unit} (hs : Kept s0 s) :
    Kept s0 (stateAfter s (Machine.execFireboxFault die unit s)) := by
  unfold Machine.execFireboxFault
  exact hs.fireboxFails

theorem answer {r} (hs : Kept s0 s) : Kept s0 (s.answer r) := by
  unfold State.answer
  exact .but hs

theorem no {r} (hs : Kept s0 s) : Kept s0 (s.no r) := by
  unfold State.no
  exact hs.answer

theorem mantelRestart (hs : Kept s0 s) : Kept s0 s.mantelRestart := by
  unfold State.mantelRestart
  dsimp only
  exact .but hs

theorem execWatchdogExpiry (hs : Kept s0 s) :
    Kept s0 (stateAfter s (Machine.execWatchdogExpiry s)) := by
  unfold Machine.execWatchdogExpiry
  dsimp only
  exact .ite hs (.ite hs.mantelRestart hs.mantelRestart.no)

theorem dropHost {head} (hs : Kept s0 s) : Kept s0 (s.dropHost head) := by
  unfold State.dropHost
  dsimp only
  exact .but hs

theorem cxlDown {head} (hs : Kept s0 s) : Kept s0 (s.cxlDown head) := by
  unfold State.cxlDown
  dsimp only
  exact .ite hs hs.dropHost.setHead

theorem setConn {n} {c} (hs : Kept s0 s) : Kept s0 (s.setConn n c) := by
  unfold State.setConn
  dsimp only
  exact .but hs

theorem endClose {n} (hs : Kept s0 s) : Kept s0 (s.endClose n) := by
  unfold State.endClose
  dsimp only
  exact .ite hs (.but hs.setConn)

theorem refillDue (hs : Kept s0 s) : Kept s0 s.refillDue := by
  unfold State.refillDue
  dsimp only
  exact .ite hs (.but hs)

theorem portDown {p} (hs : Kept s0 s) : Kept s0 (s.portDown p) := by
  unfold State.portDown
  dsimp only
  exact .ite hs.refillDue (.foldl (.but hs.refillDue.setPort) fun _ _ hk => hk.endClose)

theorem awake {go : State → State} (hs : Kept s0 s) (hgo : ∀ t0, Kept s0 t0 → Kept s0 (go t0)) :
    Kept s0 (s.awake go) := by
  unfold State.awake
  exact .ite (hgo _ hs) hs

theorem execRefclkLoss {clock} (hs : Kept s0 s) :
    Kept s0 (stateAfter s (Machine.execRefclkLoss clock s)) := by
  unfold Machine.execRefclkLoss
  refine .next (hs.awake ?_)
  intro t0 hk
  split
  · exact hk.portDown.recheck
  · exact hk.cxlDown

theorem execTrefReturn (hs : Kept s0 s) : Kept s0 (stateAfter s (Machine.execTrefReturn s)) := by
  unfold Machine.execTrefReturn
  dsimp only
  exact .next (hs.awake (fun _ hk => .same hk rfl))

theorem execTrefLoss (hs : Kept s0 s) : Kept s0 (stateAfter s (Machine.execTrefLoss s)) := by
  unfold Machine.execTrefLoss
  dsimp only
  exact .next (hs.awake (fun _ hk => .ite hk (.report (.same hk rfl))))

theorem execTempHistoryHour (hs : Kept s0 s) :
    Kept s0 (stateAfter s (Machine.execTempHistoryHour s)) := by
  unfold Machine.execTempHistoryHour
  dsimp only
  refine .next (hs.awake ?_)
  intro t0 hk
  split
  · exact hk
  · exact .ite hk (.same hk rfl)

theorem execSensorTimeout {sensor} (hs : Kept s0 s) :
    Kept s0 (stateAfter s (Machine.execSensorTimeout sensor s)) := by
  unfold Machine.execSensorTimeout
  dsimp only
  exact .next (hs.awake (fun _ hk => .ite hk (.postAll (.same hk rfl))))

theorem execSensorPoll {sensor} {value} (hs : Kept s0 s) :
    Kept s0 (stateAfter s (Machine.execSensorPoll sensor value s)) := by
  unfold Machine.execSensorPoll
  dsimp only
  refine .next (hs.awake ?_)
  intro t0 hk
  refine .ite hk (.ite ?_ (.same hk rfl))
  split
  · exact .same hk rfl
  · exact .same hk rfl

theorem execRegulatorTimeout {die} (hs : Kept s0 s) :
    Kept s0 (stateAfter s (Machine.execRegulatorTimeout die s)) := by
  unfold Machine.execRegulatorTimeout
  dsimp only
  exact .next (hs.awake (fun _ hk => .ite hk (.report (.same hk rfl))))

theorem execRegulatorPoll {die} {iout} (hs : Kept s0 s) :
    Kept s0 (stateAfter s (Machine.execRegulatorPoll die iout s)) := by
  unfold Machine.execRegulatorPoll
  dsimp only
  exact .next (hs.awake (fun _ hk => .same hk rfl))

theorem leavePause {d} {t0} (hs : Kept s0 s) : Kept s0 (s.leavePause d t0) := by
  unfold State.leavePause
  exact hs.mapRecs

theorem pauseSlot {d} {temp} (hs : Kept s0 s) : Kept s0 (s.pauseSlot d temp) := by
  unfold State.pauseSlot
  dsimp only
  split
  · exact .ite (.same hs rfl) hs
  · exact .ite (.resumed (.leavePause (.same hs rfl))) hs

theorem execThermalPauseSlot {die} {temp} (hs : Kept s0 s) :
    Kept s0 (stateAfter s (Machine.execThermalPauseSlot die temp s)) := by
  unfold Machine.execThermalPauseSlot
  exact hs.awake (fun _ hk => hk.pauseSlot)

/-- R491: the supply controller moves a core target by its step of 5 mV, within 620 to 800 mV. -/
theorem supplyTick_range (level : Nat) {target : Nat} (temp : Int) (rate : Nat) (hot held : Bool)
    (h : 620 ≤ target ∧ target ≤ 800 ∧ target % 5 = 0) :
    620 ≤ (supplyTick level target temp rate hot held).2 ∧ (supplyTick level target temp rate hot held).2 ≤ 800 ∧
      (supplyTick level target temp rate hot held).2 % 5 = 0 := by
  have hmax (a b : Nat) : Nat.max a b = max a b := rfl
  have hmin (a b : Nat) : Nat.min a b = min a b := rfl
  unfold supplyTick holdRate recover
  dsimp only
  simp only [hmax, hmin]
  repeat' split
  all_goals omega

theorem supply {d} {temp} {rate} (hs : Kept s0 s) : Kept s0 (s.supply d temp rate) := by
  refine ⟨⟨hs.wf, fun x => ⟨(hs.shaped x).1, fun d' => ?_, (hs.shaped x).2.2⟩⟩, hs.pending, hs.now⟩
  have hv := (hs.shaped x).2.1
  unfold State.supply
  dsimp only
  by_cases hd : d' = d
  · subst hd
    rw [Two.get_set_self]
    split
    · exact hv d'
    · exact supplyTick_range _ _ _ _ _ (hv d')
  · rw [Two.get_set_ne _ _ hd]
    exact hv d'

theorem execSupplyControlTick {die} {temp} {rate} (hs : Kept s0 s) :
    Kept s0 (stateAfter s (Machine.execSupplyControlTick die temp rate s)) := by
  unfold Machine.execSupplyControlTick
  exact .next (hs.awake (fun _ hk => .ite hk.supply hk))

theorem warn (hs : Kept s0 s) : Kept s0 s.warn := by
  unfold State.warn
  refine .ite hs ?_
  have hk : Kept s0 { s with coal := { s.coal with half := s.coal.half.map (fun h => { h with programming := h.ready && !h.row.isEmpty }) } } :=
    hs.withCoal fun x hm d => by rw [Two.get_map]; exact hs.halves x hm d
  exact hk.same rfl

theorem execThermtrip {die} {temp} (hs : Kept s0 s) :
    Kept s0 (stateAfter s (Machine.execThermtrip die temp s)) := by
  unfold Machine.execThermtrip
  dsimp only
  exact .ite hs (.warn (.same hs rfl))

theorem boot {r} (hs : Kept s0 s) : Kept s0 (s.boot r) := by
  unfold State.boot
  dsimp only
  split
  · exact hs
  · exact .same hs rfl

theorem execFwReady {report} (hs : Kept s0 s) :
    Kept s0 (stateAfter s (Machine.execFwReady report s)) := by
  unfold Machine.execFwReady
  exact .ite hs.boot hs

theorem execFlushComplete (hs : Kept s0 s) :
    Kept s0 (stateAfter s (Machine.execFlushComplete s)) := by
  have hk : Kept s0 { s with coal := { s.coal with
      half := s.coal.half.map Half.flushed, health := { s.coal.health with powerLoss := s.coal.health.powerLoss + 1 } } } :=
    hs.withCoal fun x hm d => by rw [Two.get_map, Half.flushed_retired]; exact hs.halves x hm d
  unfold Machine.execFlushComplete
  exact .next (.ite (hk.same rfl) hs)

theorem execPowerWarnAssert {lowNs} (hs : Kept s0 s) :
    Kept s0 (stateAfter s (Machine.execPowerWarnAssert lowNs s)) := by
  unfold Machine.execPowerWarnAssert
  dsimp only
  exact .ite hs (.warn (.same hs rfl))

theorem ctxEvent {c} {ev} {cls} {ring} {layer} {opid} {n} (hs : Kept s0 s) :
    Kept s0 (s.ctxEvent c ev cls ring layer opid n) := by
  unfold State.ctxEvent
  dsimp only
  exact .ite hs.setCtx hs

theorem beatEvents {cls} {b} {n} {c} (hs : Kept s0 s) : Kept s0 (s.beatEvents cls b n c) := by
  unfold State.beatEvents
  dsimp only
  refine .ite hs ?_
  split
  · exact hs.ctxEvent
  · exact hs.ctxEvent.ctxEvent
  · exact hs

theorem free (hs : Kept s0 s) : Kept s0 s.free.2 := by
  unfold State.free
  exact .but hs

theorem stallEnds {d} {cls} {b} {n} {c} (hs : Kept s0 s) : Kept s0 (s.stallEnds d cls b n c) := by
  unfold State.stallEnds
  dsimp only
  split
  · exact .ite hs hs.free.trace
  · exact hs

theorem setTap {d} {c} {t} (hs : Kept s0 s) : Kept s0 (s.setTap d c t) := by
  unfold State.setTap
  dsimp only
  exact .but hs

theorem execTapSnapshot {die} {cls} {beat} {n} {ctx} (hs : Kept s0 s) :
    Kept s0 (stateAfter s (Machine.execTapSnapshot die cls beat n ctx s)) := by
  unfold Machine.execTapSnapshot
  dsimp only
  exact .ite hs (.ite hs.setTap hs.setTap.beatEvents.stallEnds)

theorem traceEn {d} {on} (hs : Kept s0 s) : Kept s0 (s.traceEn d on) := by
  unfold State.traceEn
  dsimp only
  exact .ite (.trace (.but hs)) (.but hs)

theorem traceCtl {ld} {value} (hs : Kept s0 s) : Kept s0 (s.traceCtl ld value) := by
  unfold State.traceCtl
  dsimp only
  exact .ite hs (.ite (.but hs) (.traceEn (.traceEn (.but hs))))

theorem clearAo (hs : Kept s0 s) : Kept s0 s.clearAo := by
  unfold State.clearAo
  dsimp only
  exact .but hs

theorem clearPriv (hs : Kept s0 s) : Kept s0 s.clearPriv := by
  unfold State.clearPriv
  dsimp only
  exact .mapRings hs fun _ _ => rfl

theorem telCtl {ld} {value} (hs : Kept s0 s) : Kept s0 (s.telCtl ld value) := by
  unfold State.telCtl
  dsimp only
  exact .ite hs (.ite (.clearAo (.ite (.clearPriv (.but hs)) (.but hs))) (.ite (.clearPriv (.but hs)) (.but hs)))

theorem writeTel {ld} {off} {v} (hs : Kept s0 s) : Kept s0 (s.writeTel ld off v) := by
  unfold State.writeTel
  dsimp only
  exact .ite hs.telCtl (.ite (.but hs) (.ite (.but hs) (.ite hs.traceCtl hs)))

theorem setGateStatus {v} (hs : Kept s0 s) : Kept s0 (s.setGateStatus v) := by
  unfold State.setGateStatus
  dsimp only
  exact .but hs

theorem gateSwitch {p} (hs : Kept s0 s) : Kept s0 (s.gateSwitch p) := by
  unfold State.gateSwitch
  dsimp only
  split
  · exact hs
  · exact .ite hs.setPort hs

theorem gateBoundary {p} (hs : Kept s0 s) : Kept s0 (s.gateBoundary p) := by
  unfold State.gateBoundary
  dsimp only
  split
  · exact hs
  · exact .ite hs.setPort hs.setPort

theorem gateDue {p} (hs : Kept s0 s) : Kept s0 (s.gateDue p) := by
  unfold State.gateDue
  exact hs.gateSwitch.gateBoundary

theorem gateCmd {ld} {want} {cmd} {go : Side → Nat → State → State} (hs : Kept s0 s) (hgo : ∀ t0 t1 t2, Kept s0 t2 → Kept s0 (go t0 t1 t2)) :
    Kept s0 (s.gateCmd ld want cmd go) := by
  unfold State.gateCmd
  dsimp only
  exact .ite hs (hgo _ _ _ hs.gateDue)

theorem execDmpGateDisable {ld} {cmd} (hs : Kept s0 s) :
    Kept s0 (stateAfter s (Machine.execDmpGateDisable ld cmd s)) := by
  unfold Machine.execDmpGateDisable
  dsimp only
  exact hs.gateCmd (fun _ _ _ hk => hk.setPort.setGateStatus)

theorem gateCommit {p} {count} (hs : Kept s0 s) : Kept s0 (s.gateCommit p count) := by
  unfold State.gateCommit
  dsimp only
  split
  · exact hs.setGateStatus
  · exact hs.setPort.setGateStatus

theorem execDmpGateCommit {ld} {cmd} (hs : Kept s0 s) :
    Kept s0 (stateAfter s (Machine.execDmpGateCommit ld cmd s)) := by
  unfold Machine.execDmpGateCommit
  exact hs.gateCmd (fun _ _ _ hk => hk.gateCommit)

theorem execDmpGateReadEntry {ld} {cmd} (hs : Kept s0 s) :
    Kept s0 (stateAfter s (Machine.execDmpGateReadEntry ld cmd s)) := by
  unfold Machine.execDmpGateReadEntry
  dsimp only
  refine .next (hs.gateCmd ?_)
  intro t0 t1 t2 hk
  split
  · exact .setGateStatus (.but hk)
  · exact .setGateStatus (.but hk.free.free)

theorem execDmpGateWriteEntry {ld} {cmd} (hs : Kept s0 s) :
    Kept s0 (stateAfter s (Machine.execDmpGateWriteEntry ld cmd s)) := by
  unfold Machine.execDmpGateWriteEntry
  dsimp only
  exact hs.gateCmd (fun _ _ _ hk => hk.setPort.setGateStatus)

theorem writeGateCmd {ld} {v} (hs : Kept s0 s) : Kept s0 (s.writeGateCmd ld v) := by
  unfold State.writeGateCmd
  split
  · exact hs.execDmpGateWriteEntry
  · exact hs.execDmpGateReadEntry
  · exact hs.execDmpGateCommit
  · exact hs.execDmpGateDisable
  · exact hs

theorem setPolicer {kind} {i} {p} (hs : Kept s0 s) : Kept s0 (s.setPolicer kind i p) := by
  unfold State.setPolicer
  dsimp only
  exact .ite (.but hs) (.but hs)

theorem polCmd {ld} {want} {cmd} {go} (hs : Kept s0 s) (hgo : ∀ k i t, Kept s0 t → Kept s0 (go k i t).2) :
    Kept s0 (s.polCmd ld want cmd go) := by
  unfold State.polCmd
  dsimp only
  split
  · exact hs
  · split
    · exact .but hs
    · exact .but (hgo _ _ _ hs.refillDue)

theorem execDmpPolRefill {ld} {cmd} (hs : Kept s0 s) :
    Kept s0 (stateAfter s (Machine.execDmpPolRefill ld cmd s)) := by
  unfold Machine.execDmpPolRefill
  exact .next (hs.polCmd fun _ _ _ hk => hk.setPolicer)

theorem execDmpPolWrite {ld} {cmd} (hs : Kept s0 s) :
    Kept s0 (stateAfter s (Machine.execDmpPolWrite ld cmd s)) := by
  unfold Machine.execDmpPolWrite
  refine .next (hs.polCmd fun _ _ t hk => ?_)
  dsimp only
  split
  · exact hk
  · exact hk.setPolicer

theorem execDmpPolRead {ld} {cmd} (hs : Kept s0 s) :
    Kept s0 (stateAfter s (Machine.execDmpPolRead ld cmd s)) := by
  unfold Machine.execDmpPolRead
  dsimp only
  exact .next (hs.polCmd (fun _ _ _ hk => .but hk))

theorem writePolCmd {ld} {v} (hs : Kept s0 s) : Kept s0 (s.writePolCmd ld v) := by
  unfold State.writePolCmd
  split
  · exact hs.execDmpPolRead
  · exact hs.execDmpPolWrite
  · exact hs.execDmpPolRefill
  · exact hs

theorem writeDmp {ld} {off} {v} (hs : Kept s0 s) : Kept s0 (s.writeDmp ld off v) := by
  unfold State.writeDmp
  dsimp only
  exact .ite (.but hs) (.ite hs.writePolCmd (.ite (.but hs) (.ite (.but hs) (.ite (.but hs) (.ite (.but hs) (.ite (.but hs) (.ite hs.writeGateCmd (.ite (.but hs) (.ite (.but hs) (.ite (.but hs) (.ite (.but hs) (.ite (.but hs) (.ite (.ite (.but hs) hs) hs)))))))))))))

theorem queueFrame {p} {f} (hs : Kept s0 s) : Kept s0 (s.queueFrame p f) := by
  unfold State.queueFrame
  dsimp only
  exact .ite hs.count hs.setPort

theorem pfcUpdate {p} (hs : Kept s0 s) : Kept s0 (s.pfcUpdate p) := by
  unfold State.pfcUpdate
  dsimp only
  exact .foldl hs fun _ _ hk => .ite hk (.ite hk.setPort.queueFrame (.ite hk.setPort.queueFrame hk))

theorem pfcBoth (hs : Kept s0 s) : Kept s0 s.pfcBoth := by
  unfold State.pfcBoth
  exact hs.pfcUpdate.pfcUpdate

theorem keyDown {i} (hs : Kept s0 s) : Kept s0 (s.keyDown i) := by
  unfold State.keyDown
  dsimp only
  split
  · exact hs
  · exact .but hs

theorem releaseCounts {n} (hs : Kept s0 s) : Kept s0 (s.releaseCounts n) := by
  unfold State.releaseCounts
  dsimp only
  exact .foldl hs fun _ _ hk => hk.keyDown

theorem countFailure {st} (hs : Kept s0 s) : Kept s0 (s.countFailure st) := by
  unfold State.countFailure
  exact .ite hs.count.countAo (.ite hs.countAo hs)

theorem fetch {k} {n} {index} {c} (hs : Kept s0 s) : Kept s0 (s.fetch k n index c) := by
  induction k generalizing s with
  | zero => exact hs
  | succ k ih =>
    rw [State.fetch]
    split
    · exact hs
    · split
      · exact hs
      · dsimp only
        split
        · exact hs
        · exact ih (.setRing (.but hs) (hs.regs n))

theorem updRec {a} {f} (hs : Kept s0 s) : Kept s0 (s.updRec a f) := by
  unfold State.updRec
  exact hs.mapRecs

theorem noteStep {r} {steps} (hs : Kept s0 s) : Kept s0 (s.noteStep r steps) := by
  unfold State.noteStep
  dsimp only
  exact hs.updRec

theorem setReg_length (r : Ring) (n : Nat) (v : VReg) : (r.setReg n v).regs.length = r.regs.length := by
  unfold Ring.setReg
  split
  · rfl
  · exact List.length_set

theorem setRingReg {n m v} (hs : Kept s0 s) : Kept s0 (s.setRing n ((s.ring n).setReg m v)) :=
  hs.setRing fun x => (setReg_length _ _ _).trans (hs.regs n x)

theorem writeDst {n} {i} {d} (hs : Kept s0 s) : Kept s0 (s.writeDst n i d) := by
  unfold State.writeDst
  exact .ite hs (.ite hs.setRingReg (.ite hs.setRingReg hs.setRingReg))

theorem setSeq {k} {q} (hs : Kept s0 s) : Kept s0 (s.setSeq k q) := by
  unfold State.setSeq
  exact .but hs

theorem unname {ks} (hs : Kept s0 s) : Kept s0 (s.unname ks) := by
  unfold State.unname
  dsimp only
  exact .foldl hs fun _ _ hk => hk.setSeq

theorem endStep {r} {i} {d} (hs : Kept s0 s) : Kept s0 (s.endStep r i d) := by
  unfold State.endStep
  dsimp only
  split
  · exact .noteStep (.but hs.writeDst.unname)
  · exact .ite (.but (.setRing (.noteStep (.but hs.writeDst.unname)) (Kept.regs (.but hs.writeDst.unname) r.ring))) (.setRing (.noteStep (.but hs.writeDst.unname)) (Kept.regs (.but hs.writeDst.unname) r.ring))

theorem noteEnded {rs} (hs : Kept s0 s) : Kept s0 (s.noteEnded rs) := by
  unfold State.noteEnded
  exact .foldl hs fun _ _ hk => hk.ctxEvent

theorem skipOn {r} {d} (hs : Kept s0 s) : Kept s0 (s.skipOn r d) := by
  unfold State.skipOn
  dsimp only
  split
  · exact .noteEnded (.setRing (.but hs) (hs.regs r.ring))
  · exact hs

theorem setRec {x} (hs : Kept s0 s) : Kept s0 (s.setRec x) := by
  unfold State.setRec
  exact hs.mapRecs

theorem noteDone {r} {i} {d} (hs : Kept s0 s) : Kept s0 (s.noteDone r i d) := by
  unfold State.noteDone
  dsimp only
  exact .ite hs.ctxEvent.ctxEvent hs.ctxEvent

theorem noteFail_regs (g : Ring) (i : Inst) (d : Done) (n : BitVec 32) : (g.noteFail i d n).regs = g.regs := by
  unfold Ring.noteFail
  split
  · rfl
  · split
    · rfl
    · split <;> rfl

theorem finishRing {r} {i} {d} (hs : Kept s0 s) : Kept s0 (s.finishRing r i d) := by
  have hk : Kept s0 ((((s.writeDst r.ring i d).unname r.names).setRec (s.doneRec r d)).noteDone r i d) :=
    hs.writeDst.unname.setRec.noteDone
  unfold State.finishRing
  exact .skipOn (.setRing hk fun x => by rw [noteFail_regs]; exact hk.regs _ x)

theorem callOver {n c d} {t : State} (hs : Kept s0 s) (e : s.callOver n = some (c, d, t)) :
    Kept s0 t := by
  unfold State.callOver at e
  dsimp only at e
  split at e
  · split at e
    · cases e
    · cases e
      exact hs.setRing (hs.regs n)
  · cases e

theorem finishRec {k} {r} {d} (hs : Kept s0 s) : Kept s0 (s.finishRec k r d) := by
  induction k generalizing s r d with
  | zero => exact hs
  | succ k ih =>
    rw [State.finishRec]
    refine .ite hs.finishRing ?_
    dsimp only
    split
    · exact hs.endStep.fetch
    · next e => exact ih (hs.endStep.callOver e)

theorem releaseFrames {h} (hs : Kept s0 s) : Kept s0 (s.releaseFrames h) := by
  unfold State.releaseFrames
  dsimp only
  exact hs.freeFrame.freeFrame.clearView.updPage

theorem releaseHeld {d} (hs : Kept s0 s) : Kept s0 (s.releaseHeld d) := by
  unfold State.releaseHeld
  dsimp only
  exact .foldl (.but hs) fun _ _ hk => hk.freeFrame

theorem endUses {y1} (hs : Kept s0 s) : Kept s0 (s.endUses y1) := by
  unfold State.endUses
  exact .releaseHeld (.releaseHeld (.foldl hs fun _ _ hk => .ite hk (.ite hk.freeNow (.ite hk.releaseFrames hk))))

theorem finishAt {a} {d} (hs : Kept s0 s) : Kept s0 (s.finishAt a d) := by
  unfold State.finishAt
  split
  · exact hs
  · exact hs.finishRec.endUses

theorem finish {a} {d} (hs : Kept s0 s) : Kept s0 (s.finish a d) := by
  unfold State.finish
  exact hs.countFailure.finishAt

theorem markFree (hs : Kept s0 s) : Kept s0 s.markFree := by
  unfold State.markFree
  exact hs.mapRecs

theorem finishWaits {f} (hs : Kept s0 s) : Kept s0 (s.finishWaits f) := by
  unfold State.finishWaits
  refine .markFree (.foldl hs ?_)
  intro s1 r hk
  split
  · split
    · exact .ite hk.finish hk
    · exact hk
  · exact hk

theorem winGone {n} (hs : Kept s0 s) : Kept s0 (s.winGone n) := by
  unfold State.winGone
  exact .foldl hs fun _ _ hk => .ite (.finishWaits (.but hk)) hk.winFail

theorem seal_ {n} (hs : Kept s0 s) : Kept s0 (s.seal n).2 := by
  unfold State.seal
  dsimp only
  split
  · exact .but hs
  · exact hs

theorem sendControl {n} {p} {type} {seq} {payload} {after} (hs : Kept s0 s) :
    Kept s0 (s.sendControl n p type seq payload after) := by
  unfold State.sendControl
  dsimp only
  exact .ite hs hs.seal_.queueFrame

theorem sendCloses {n} {reason} (hs : Kept s0 s) : Kept s0 (s.sendCloses n reason) := by
  unfold State.sendCloses
  dsimp only
  exact .foldl hs fun _ _ hk => .ite (.sendControl (.ite hk.sendControl hk)) (.ite hk.sendControl hk)

theorem dropFrames {n} (hs : Kept s0 s) : Kept s0 (s.dropFrames n) := by
  unfold State.dropFrames
  dsimp only
  exact .but hs

theorem closeConn {n} {reason} {st} (hs : Kept s0 s) : Kept s0 (s.closeConn n reason st) := by
  unfold State.closeConn
  dsimp only
  refine .ite hs (.endClose (.pfcBoth (.setConn (.winGone (.releaseCounts (.finishWaits ?_))))))
  split
  · exact hs.setConn.dropFrames.sendCloses
  · exact hs.setConn.dropFrames

theorem connCmd {ld} {want} {cmd} {op} (hs : Kept s0 s) (hop : ∀ n t, Kept s0 t → Kept s0 (op n t).2) :
    Kept s0 (s.connCmd ld want cmd op) := by
  unfold State.connCmd
  exact .ite hs (.ite (.but hs) (.but (hop _ _ hs)))

theorem closeRuns {ld} {cmd} (hs : Kept s0 s) : Kept s0 (s.closeRuns ld cmd) := by
  unfold State.closeRuns
  dsimp only
  exact .ite hs (.but hs)

theorem execFluConnClose {ld} {cmd} (hs : Kept s0 s) :
    Kept s0 (stateAfter s (Machine.execFluConnClose ld cmd s)) := by
  unfold Machine.execFluConnClose
  have hclose (n : Nat) (t : State) (hk : Kept s0 t) : Kept s0 (t.closeConn n (some 0)) := hk.closeConn
  exact .next (hs.connCmd hclose).closeRuns

theorem connOpen {n} (hs : Kept s0 s) : Kept s0 (s.connOpen n).2 := by
  unfold State.connOpen
  dsimp only
  split
  · exact hs
  · split
    · exact hs
    · split
      · exact hs
      · split
        · exact hs
        · exact .but hs.setConn.refillDue

theorem execFluConnOpen {ld} {cmd} (hs : Kept s0 s) :
    Kept s0 (stateAfter s (Machine.execFluConnOpen ld cmd s)) := by
  unfold Machine.execFluConnOpen
  exact .next (hs.connCmd (fun _ _ hk => hk.connOpen))

theorem connWrite {n} (hs : Kept s0 s) : Kept s0 (s.connWrite n).2 := by
  unfold State.connWrite
  dsimp only
  split
  · exact hs
  · split
    · exact hs
    · exact .but hs

theorem execFluConnWrite {ld} {cmd} (hs : Kept s0 s) :
    Kept s0 (stateAfter s (Machine.execFluConnWrite ld cmd s)) := by
  unfold Machine.execFluConnWrite
  exact .next (hs.connCmd (fun _ _ hk => hk.connWrite))

theorem execFluConnRead {ld} {cmd} (hs : Kept s0 s) :
    Kept s0 (stateAfter s (Machine.execFluConnRead ld cmd s)) := by
  unfold Machine.execFluConnRead
  dsimp only
  exact .next (hs.connCmd (fun _ _ hk => .but hk))

theorem writeConnCmd {ld} {v} (hs : Kept s0 s) : Kept s0 (s.writeConnCmd ld v) := by
  unfold State.writeConnCmd
  split
  · exact hs.execFluConnRead
  · exact hs.execFluConnWrite
  · exact hs.execFluConnOpen
  · exact hs.execFluConnClose
  · exact hs

theorem setIp6 {hi} {v} (hs : Kept s0 s) : Kept s0 (s.setIp6 hi v) := by
  unfold State.setIp6
  dsimp only
  exact .but hs

theorem setTx {n} {m} (hs : Kept s0 s) : Kept s0 (s.setTx n m) := by
  unfold State.setTx
  dsimp only
  exact hs.setConn

theorem domSearch {d} {g} {key} (hs : Kept s0 s) : Kept s0 (s.domSearch d g key).2 := by
  unfold State.domSearch
  dsimp only
  split
  · exact .ite (.count (.ite hs.count hs)) (.ite hs.count hs)
  · exact .ite hs.count hs

theorem classify {d} {key} (hs : Kept s0 s) : Kept s0 (s.classify d key).2 := by
  unfold State.classify
  dsimp only
  split
  · next x0 x1 he =>
      have hk : Kept _ x1 := he ▸ hs.domSearch
      exact hk
  · next x0 x1 x2 x3 x4 he =>
      have hk : Kept _ x4 := he ▸ hs.domSearch
      exact hk

theorem egress {p} {f} (hs : Kept s0 s) : Kept s0 (s.egress p f) := by
  unfold State.egress
  dsimp only
  split
  · exact hs.queueFrame
  · refine .ite hs.queueFrame (.ite hs.classify.count ?_)
    split
    · exact hs.classify.queueFrame
    · exact hs.classify.queueFrame

theorem nextPath {n} (hs : Kept s0 s) : Kept s0 (s.nextPath n).2 := by
  unfold State.nextPath
  dsimp only
  exact hs.setConn

theorem sendPacket {n} {m} {i} {p} (hs : Kept s0 s) : Kept s0 (s.sendPacket n m i p) := by
  unfold State.sendPacket
  dsimp only
  refine .ite hs ?_
  split
  · exact hs.seal_.nextPath.egress
  · exact hs.seal_.nextPath.egress.setTx

theorem resendMsg {n} {m} (hs : Kept s0 s) : Kept s0 (s.resendMsg n m) := by
  unfold State.resendMsg
  dsimp only
  refine .foldl hs.setTx ?_
  intro s1 i hk
  split
  · exact .ite hk hk.sendPacket.count
  · exact hk

theorem resumeSends {n} (hs : Kept s0 s) : Kept s0 (s.resumeSends n) := by
  unfold State.resumeSends
  exact .ite hs (.foldl hs fun _ _ hk => hk.resendMsg)

theorem pump {k} {n} (hs : Kept s0 s) : Kept s0 (s.pump k n) := by
  induction k generalizing s with
  | zero => exact hs
  | succ k ih =>
    rw [State.pump]
    split
    · exact hs
    · split
      · exact hs
      · refine .ite hs (ih ?_)
        split
        · exact .ite hs.setConn.setTx.sendPacket.keyDown hs.setConn.setTx.sendPacket
        · exact hs.setConn.setTx.sendPacket

theorem pumpConn {n} (hs : Kept s0 s) : Kept s0 (s.pumpConn n) := by
  unfold State.pumpConn
  exact hs.pump

theorem pumpAll (hs : Kept s0 s) : Kept s0 s.pumpAll := by
  unfold State.pumpAll
  exact .foldl hs fun _ _ hk => hk.resumeSends.pumpConn

theorem sendMka {p} (hs : Kept s0 s) : Kept s0 (s.sendMka p) := by
  unfold State.sendMka
  dsimp only
  exact .ite hs (.queueFrame (.but hs))

theorem fluCtl {ld} {value} (hs : Kept s0 s) : Kept s0 (s.fluCtl ld value) := by
  unfold State.fluCtl
  dsimp only
  exact .ite hs (.pumpAll (.ite (.ite (.ite (.ite (.but hs) (.portDown (.but hs))) (.portDown (.ite (.but hs) (.portDown (.but hs))))) (.sendMka (.ite (.ite (.but hs) (.portDown (.but hs))) (.portDown (.ite (.but hs) (.portDown (.but hs))))))) (.sendMka (.ite (.ite (.ite (.but hs) (.portDown (.but hs))) (.portDown (.ite (.but hs) (.portDown (.but hs))))) (.sendMka (.ite (.ite (.but hs) (.portDown (.but hs))) (.portDown (.ite (.but hs) (.portDown (.but hs))))))))))

theorem execFluCtlWrite {ld} {value} (hs : Kept s0 s) :
    Kept s0 (stateAfter s (Machine.execFluCtlWrite ld value s)) := by
  unfold Machine.execFluCtlWrite
  exact .ite hs.fluCtl.recheck hs

theorem writeFlu {ld} {off} {v} (hs : Kept s0 s) : Kept s0 (s.writeFlu ld off v) := by
  unfold State.writeFlu
  dsimp only
  exact .ite hs.execFluCtlWrite (.ite (.ite (.but hs) hs) (.ite (.but hs) (.ite hs.setPort (.ite hs.setPort (.ite hs.setPort (.ite hs.setPort (.ite (.but hs) (.ite hs.setIp6 (.ite hs.setIp6 (.ite (.pfcBoth (.but hs)) (.ite hs.writeConnCmd (.ite (.but hs) (.ite (.but hs) hs)))))))))))))

theorem cxpCtl {l} {value} (hs : Kept s0 s) : Kept s0 (s.cxpCtl l value) := by
  unfold State.cxpCtl
  dsimp only
  exact .ite hs (.but hs)

theorem writeCxp {ld} {off} {v} (hs : Kept s0 s) : Kept s0 (s.writeCxp ld off v) := by
  unfold State.writeCxp
  dsimp only
  exact .ite hs.cxpCtl (.ite (.but hs) (.ite (.ite (.but hs) hs) hs))

theorem chEnWrite {ld} {value} (hs : Kept s0 s) : Kept s0 (s.chEnWrite ld value) := by
  unfold State.chEnWrite
  dsimp only
  exact .ite hs (.same hs rfl)

theorem settle {d} (hs : Kept s0 s) : Kept s0 (s.settle d) := by
  unfold State.settle
  dsimp only
  exact .ite (hs.setHalf rfl) hs

/-- What every step of a fold leaves of the Coal store, the fold leaves. -/
theorem foldl_coal {β : Type} {f : State → β → State} (hf : ∀ t x, (f t x).coal = t.coal) (l : List β) (s : State) :
    (l.foldl f s).coal = s.coal := by
  induction l generalizing s with
  | nil => rfl
  | cons x xs ih => rw [List.foldl_cons, ih, hf]

theorem coalOff (hs : Kept s0 s) : Kept s0 s.coalOff := by
  have hoff (d : Side) (n : Nat) {r : State} (hr : Kept s0 r) : Kept s0 (((((((r.coal.half.get d).row.drop n).foldl (fun (s : State) e =>
      if !e.gone && (s.page e.key).res == .demoting then (s.updPage e.key (fun p => { p with res := .hot })).relist e.key else s) r).setHalf d
        { r.coal.half.get d with row := (r.coal.half.get d).row.take n }).fullCheck d).settle d)) := by
    refine .settle (.fullCheck (.setHalf (.foldl hr fun _ _ hk => .ite hk.updPage.relist hk) ?_))
    rw [foldl_coal fun t e => by split <;> rfl]
  unfold State.coalOff
  dsimp only
  exact hoff .east _ (hoff .west _ (.same hs rfl))

theorem lunOut {channel} {lun} (hs : Kept s0 s) : Kept s0 (s.lunOut channel lun) := by
  unfold State.lunOut
  dsimp only
  exact .ite hs (.setHalf (.same hs rfl) (by simp))

theorem coalOn (hs : Kept s0 s) : Kept s0 s.coalOn := by
  unfold State.coalOn
  refine .foldl (.withCoal hs fun x hm d => ?_) fun _ _ hk => .foldl hk fun _ _ hk => hk.lunOut
  dsimp only
  rw [Two.get_map]
  split <;> exact hs.halves x hm d

theorem startFormat (hs : Kept s0 s) : Kept s0 s.startFormat :=
  .withCoal hs fun _ hm => by simp at hm

theorem coalCtl {ld} {value} (hs : Kept s0 s) : Kept s0 (s.coalCtl ld value) := by
  unfold State.coalCtl
  dsimp only
  exact .ite hs (.ite (.ite (.startFormat (.same hs rfl)) hs) (.ite (.ite hs (.coalOn (.same hs rfl))) (.ite (.coalOff (.same hs rfl)) (.same hs rfl))))

theorem writeCoal {ld} {off} {v} (hs : Kept s0 s) : Kept s0 (s.writeCoal ld off v) := by
  unfold State.writeCoal
  dsimp only
  exact .ite hs.coalCtl (.ite (.same hs rfl) (.ite hs.chEnWrite (.ite (.ite (.same hs rfl) hs) (.ite (.ite (.same hs rfl) hs) (.ite (.ite (.same hs rfl) hs) (.ite (.ite (.same hs rfl) hs) hs))))))

theorem writeDrt {off} {v} (hs : Kept s0 s) : Kept s0 (s.writeDrt off v) := by
  unfold State.writeDrt
  dsimp only
  exact .ite (.but hs) (.ite (.but hs) (.ite (.ite (.but hs) hs) (.ite (.ite (.but hs) hs) (.ite (.but hs) hs))))

theorem accRefuse (hs : Kept s0 s) : Kept s0 s.accRefuse := by
  unfold State.accRefuse
  dsimp only
  exact .but hs

theorem domAcc {ld} {want} {cmd} {op : Nat → State → State} (hs : Kept s0 s) (hop : ∀ t0 t1, Kept s0 t1 → Kept s0 (op t0 t1)) :
    Kept s0 (s.domAcc ld want cmd op) := by
  unfold State.domAcc
  dsimp only
  exact .ite hs (.ite hs.accRefuse (hop _ _ hs))

theorem domDel {a} (hs : Kept s0 s) : Kept s0 (s.domDel a) := by
  unfold State.domDel
  dsimp only
  exact .but hs

theorem accDelete {b} {u} (hs : Kept s0 s) : Kept s0 (s.accDelete b u) := by
  unfold State.accDelete
  dsimp only
  exact .ite hs.accRefuse (.but hs.domDel)

theorem execDomDelete {ld} {cmd} (hs : Kept s0 s) :
    Kept s0 (stateAfter s (Machine.execDomDelete ld cmd s)) := by
  unfold Machine.execDomDelete
  exact hs.domAcc (fun _ _ hk => hk.accDelete)

theorem domPut {a} {e} (hs : Kept s0 s) : Kept s0 (s.domPut a e) := by
  unfold State.domPut
  dsimp only
  exact .but hs

theorem accPut {a} {e} (hs : Kept s0 s) : Kept s0 (s.accPut a e) := by
  unfold State.accPut
  dsimp only
  exact .but hs.domPut

theorem accInsertAt {b} {u} {prio} (hs : Kept s0 s) : Kept s0 (s.accInsertAt b u prio) := by
  unfold State.accInsertAt
  dsimp only
  refine .ite hs.accRefuse (.ite hs.accPut ?_)
  split
  · exact hs.accRefuse
  · exact .but hs

theorem execDomInsertAt {ld} {cmd} (hs : Kept s0 s) :
    Kept s0 (stateAfter s (Machine.execDomInsertAt ld cmd s)) := by
  unfold Machine.execDomInsertAt
  exact hs.domAcc (fun _ _ hk => hk.accInsertAt)

theorem accInsertAny {b} {prio} (hs : Kept s0 s) : Kept s0 (s.accInsertAny b prio) := by
  unfold State.accInsertAny
  refine .ite hs.accRefuse ?_
  split
  · exact hs.accRefuse
  · exact hs.accPut

theorem execDomInsertAny {ld} {cmd} (hs : Kept s0 s) :
    Kept s0 (stateAfter s (Machine.execDomInsertAny ld cmd s)) := by
  unfold Machine.execDomInsertAny
  exact hs.domAcc (fun _ _ hk => hk.accInsertAny)

theorem accShow {e} {st} (hs : Kept s0 s) : Kept s0 (s.accShow e st) := by
  unfold State.accShow
  dsimp only
  exact .but hs

theorem accRead {b} {u} (hs : Kept s0 s) : Kept s0 (s.accRead b u) := by
  unfold State.accRead
  dsimp only
  refine .ite hs.accRefuse ?_
  split
  · exact .but hs
  · exact hs.accShow

theorem execDomRead {ld} {cmd} (hs : Kept s0 s) :
    Kept s0 (stateAfter s (Machine.execDomRead ld cmd s)) := by
  unfold Machine.execDomRead
  exact hs.domAcc (fun _ _ hk => hk.accRead)

theorem accLookup {b} (hs : Kept s0 s) : Kept s0 (s.accLookup b) := by
  unfold State.accLookup
  dsimp only
  refine .ite hs.accRefuse ?_
  split
  · next x0 x1 he =>
      have hk : Kept _ x1 := he ▸ hs.domSearch
      exact .but hk
  · next x0 x1 x2 x3 x4 he =>
      have hk : Kept _ x4 := he ▸ hs.domSearch
      exact hk.accShow

theorem execDomLookup {ld} {cmd} (hs : Kept s0 s) :
    Kept s0 (stateAfter s (Machine.execDomLookup ld cmd s)) := by
  unfold Machine.execDomLookup
  exact hs.domAcc (fun _ _ hk => hk.accLookup)

theorem writeDomAcc {ld} {v} (hs : Kept s0 s) : Kept s0 (s.writeDomAcc ld v) := by
  unfold State.writeDomAcc
  split
  · exact hs.execDomLookup
  · exact hs.execDomRead
  · exact hs.execDomInsertAny
  · exact hs.execDomInsertAt
  · exact hs.execDomDelete
  · exact hs.domAcc (fun _ _ hk => hk)

theorem writeBankCfg {b} {v} (hs : Kept s0 s) : Kept s0 (s.writeBankCfg b v) := by
  unfold State.writeBankCfg
  dsimp only
  exact .ite hs (.but hs)

theorem writeDom {ld} {off} {v} (hs : Kept s0 s) : Kept s0 (s.writeDom ld off v) := by
  unfold State.writeDom
  dsimp only
  exact .ite (.but hs) (.ite (.but hs) (.ite hs.writeBankCfg (.ite hs.writeDomAcc (.ite (.but hs) (.ite (.but hs) (.ite (.but hs) (.ite (.but hs) hs)))))))

theorem writeBlock {ld} {off} {v} (hs : Kept s0 s) : Kept s0 (s.writeBlock ld off v) := by
  unfold State.writeBlock
  dsimp only
  split
  · exact .ite (.but hs) hs
  · exact hs.writeDom
  · exact hs.writeDrt
  · exact hs.writeCoal
  · exact hs.writeCxp
  · exact hs.writeFlu
  · exact hs.writeDmp
  · exact hs.writeTel
  · exact hs

theorem execGblFaultClear {ld} {value} (hs : Kept s0 s) :
    Kept s0 (stateAfter s (Machine.execGblFaultClear ld value s)) := by
  unfold Machine.execGblFaultClear
  dsimp only
  exact .ite (.but hs) hs

theorem excludeSince {t0} (hs : Kept s0 s) : Kept s0 (s.excludeSince t0) := by
  unfold State.excludeSince
  exact hs.mapRecs

theorem reloadKeys (hs : Kept s0 s) : Kept s0 s.reloadKeys := by
  unfold State.reloadKeys
  dsimp only
  refine .foldl hs ?_
  intro s1 p hk
  split
  · exact hk.domPut.domPut
  · exact hk

theorem restore (hs : Kept s0 s) : Kept s0 s.restore := by
  unfold State.restore
  dsimp only
  exact .ite hs (.pumpAll (.same (.resumed (.resumed (.markResumed (.excludeSince (.reloadKeys (.but hs)))))) rfl))

theorem moveCqBase {ld} {n} {v} (hs : Kept s0 s) : Kept s0 (s.moveCqBase ld n v) := by
  unfold State.moveCqBase
  dsimp only
  exact .ite hs (.ite (hs.setRing (hs.regs n)) (.ite (hs.setRing (hs.regs n)) hs))

theorem writeRing64 {ld} {n} {off} {v} (hs : Kept s0 s) : Kept s0 (s.writeRing64 ld n off v) := by
  unfold State.writeRing64
  dsimp only
  exact .ite (.ite (hs.setRing (hs.regs n)) hs) (.ite hs.moveCqBase hs)

theorem ringEnable {n} {irq} {home} (hs : Kept s0 s) : Kept s0 (s.ringEnable n irq home) := by
  unfold State.ringEnable
  refine .ite hs (.ite (hs.setRing (hs.regs n)) (.ite (hs.setRing (hs.regs n)) (.ite (hs.setRing (hs.regs n)) ?_)))
  exact .setCtx (hs.setRing fun _ => List.length_replicate)

theorem writeRingEn {ld} {n} {v} (hs : Kept s0 s) : Kept s0 (s.writeRingEn ld n v) := by
  unfold State.writeRingEn
  dsimp only
  exact .ite hs (.ite hs (.ite hs.ringEnable (.ite (hs.setRing (hs.regs n)) (hs.setRing (hs.regs n)))))

theorem writeRing32 {ld} {n} {off} {v} (hs : Kept s0 s) : Kept s0 (s.writeRing32 ld n off v) := by
  unfold State.writeRing32
  dsimp only
  exact .ite hs (.ite hs.writeRingEn (.ite (.ite (hs.setRing (hs.regs n)) hs) (.ite (.ite (hs.setRing (hs.regs n)) hs) (.ite (.ite (hs.setRing (hs.regs n)) hs) (.ite (.ite (hs.setRing (hs.regs n)) hs) (.ite (hs.setRing (hs.regs n)) (.ite (hs.setRing (hs.regs n)) hs)))))))

theorem ok {out} (hs : Kept s0 s) : Kept s0 (s.ok out) := by
  unfold State.ok
  exact hs.answer

theorem execTelUtilBusyRead {ld} {die} {cls} (hs : Kept s0 s) :
    Kept s0 (stateAfter s (Machine.execTelUtilBusyRead ld die cls s)) := by
  unfold Machine.execTelUtilBusyRead
  dsimp only
  exact .ite hs hs.setTap.ok

theorem execTelTraceCtlWrite {ld} {value} (hs : Kept s0 s) :
    Kept s0 (stateAfter s (Machine.execTelTraceCtlWrite ld value s)) := by
  unfold Machine.execTelTraceCtlWrite
  exact hs.traceCtl

theorem execTelClearAo {ld} {value} (hs : Kept s0 s) :
    Kept s0 (stateAfter s (Machine.execTelClearAo ld value s)) := by
  unfold Machine.execTelClearAo
  exact .ite hs.telCtl hs

theorem execTelClear {ld} {value} (hs : Kept s0 s) :
    Kept s0 (stateAfter s (Machine.execTelClear ld value s)) := by
  unfold Machine.execTelClear
  exact .ite hs.telCtl hs

theorem execCxpCtlWrite {ld} {value} (hs : Kept s0 s) :
    Kept s0 (stateAfter s (Machine.execCxpCtlWrite ld value s)) := by
  unfold Machine.execCxpCtlWrite
  exact hs.cxpCtl

theorem execCoalChEnWrite {ld} {value} (hs : Kept s0 s) :
    Kept s0 (stateAfter s (Machine.execCoalChEnWrite ld value s)) := by
  unfold Machine.execCoalChEnWrite
  exact hs.chEnWrite

theorem execCoalFormat {ld} {value} (hs : Kept s0 s) :
    Kept s0 (stateAfter s (Machine.execCoalFormat ld value s)) := by
  unfold Machine.execCoalFormat
  exact .ite hs.coalCtl hs

theorem execCoalEnClear {ld} {value} (hs : Kept s0 s) :
    Kept s0 (stateAfter s (Machine.execCoalEnClear ld value s)) := by
  unfold Machine.execCoalEnClear
  exact .ite hs hs.coalCtl

theorem execCoalEnSet {ld} {value} (hs : Kept s0 s) :
    Kept s0 (stateAfter s (Machine.execCoalEnSet ld value s)) := by
  unfold Machine.execCoalEnSet
  exact .ite hs.coalCtl hs

theorem shiftMove {b} (hs : Kept s0 s) : Kept s0 (s.shiftMove b) := by
  unfold State.shiftMove
  dsimp only
  split
  · exact hs
  · refine .ite (.but hs.domPut) (.ite (.but (.domPut ?_)) (.but ?_))
    · split
      · exact hs.domPut.domDel
      · exact hs
    · split
      · exact hs.domPut.domDel
      · exact hs

theorem execDomShiftMove {bank} (hs : Kept s0 s) :
    Kept s0 (stateAfter s (Machine.execDomShiftMove bank s)) := by
  unfold Machine.execDomShiftMove
  exact hs.shiftMove

theorem execRingCqBaseMove {ld} {ring} {value} (hs : Kept s0 s) :
    Kept s0 (stateAfter s (Machine.execRingCqBaseMove ld ring value s)) := by
  unfold Machine.execRingCqBaseMove
  exact hs.moveCqBase

theorem execRingDisable {ld} {ring} {value} (hs : Kept s0 s) :
    Kept s0 (stateAfter s (Machine.execRingDisable ld ring value s)) := by
  unfold Machine.execRingDisable
  exact .ite hs hs.writeRingEn

theorem execRingEnable {ld} {ring} {value} (hs : Kept s0 s) :
    Kept s0 (stateAfter s (Machine.execRingEnable ld ring value s)) := by
  unfold Machine.execRingEnable
  exact .ite hs.writeRingEn hs

theorem warmWipe (hs : Kept s0 s) : Kept s0 s.warmWipe := by
  unfold State.warmWipe
  dsimp only
  exact .but hs.portDown.portDown

theorem execWarmDone (hs : Kept s0 s) : Kept s0 (stateAfter s (Machine.execWarmDone s)) := by
  unfold Machine.execWarmDone
  dsimp only
  exact .ite (.but hs.warmWipe) hs

/-- A channel that leaves service leaves the halves and the media as they are. -/
theorem faultChs_media (c : Coal) (l : List Nat) : (l.foldl Coal.faultCh c).half = c.half ∧ (l.foldl Coal.faultCh c).media = c.media ∧
    (l.foldl Coal.faultCh c).formatted = c.formatted := by
  induction l generalizing c with
  | nil => exact ⟨rfl, rfl, rfl⟩
  | cons x xs ih => exact ih (c.faultCh x)

/-- Channel 0's identity sets the rated wear and is compared with the others'; the halves and the media stay. -/
theorem compared_media (c : Coal) (n : NandId) : ((c.fillRated n).compare n).half = c.half ∧ ((c.fillRated n).compare n).media = c.media ∧
    ((c.fillRated n).compare n).formatted = c.formatted := by
  have hrated : (c.fillRated n).half = c.half ∧ (c.fillRated n).media = c.media ∧ (c.fillRated n).formatted = c.formatted := by
    unfold Coal.fillRated
    split <;> exact ⟨rfl, rfl, rfl⟩
  unfold Coal.compare
  rw [(faultChs_media _ _).1, (faultChs_media _ _).2.1, (faultChs_media _ _).2.2]
  exact hrated

theorem setBads_retired (c : Coal) (d : Side) (ch : Nat) (n : NandId) (d' : Side) :
    ((c.half.upd d (fun h => h.setBad ch n)).get d').retired = (c.half.get d').retired := by
  unfold Two.upd
  by_cases hd : d' = d
  · rw [hd, Two.get_set_self, Half.setBad_retired]
  · rw [Two.get_set_ne _ _ hd]

theorem identify {ch} {found} (hs : Kept s0 s) : Kept s0 (s.identify ch found) := by
  unfold State.identify
  extract_lets c bit same c'
  split
  · exact hs
  · split
    · refine .withCoal hs fun x hm d => ?_
      split at hm <;> rename_i hch
      · rw [(compared_media _ _).2.1, (compared_media _ _).2.2] at hm
        rw [if_pos hch, (compared_media _ _).1, setBads_retired]
        exact hs.halves x hm d
      · rw [if_neg hch, setBads_retired]
        exact hs.halves x hm d
    · exact .same hs rfl

theorem execCoalChannelIdentify {channel} {found} (hs : Kept s0 s) :
    Kept s0 (stateAfter s (Machine.execCoalChannelIdentify channel found s)) := by
  unfold Machine.execCoalChannelIdentify
  exact hs.identify

theorem erased {ok} {cover} (hs : Kept s0 s) : Kept s0 (s.erased ok cover) := by
  unfold State.erased
  exact .withCoal hs fun _ _ d => by cases d <;> simp [Two.get]

theorem execCoalFormatDone {goodLuns} (hs : Kept s0 s) :
    Kept s0 (stateAfter s (Machine.execCoalFormatDone goodLuns s)) := by
  unfold Machine.execCoalFormatDone
  exact .ite hs.erased hs

/-- R249: the flags that the media's own give after a replay. -/
theorem mediaFlags (hs : Kept s0 s) :
    Kept s0 { s with coal := { s.coal with formatted := s.coal.media, readOnly := s.coal.mediaReadOnly } } :=
  .withCoal hs fun x hm d => hs.halves x (.inl (hm.elim id id)) d

theorem replayDone {d} (hs : Kept s0 s) : Kept s0 (s.replayDone d) := by
  unfold State.replayDone
  dsimp only
  split
  · exact hs
  · exact .mediaFlags (.count (hs.newHalf (by rw [Half.afterReplay_retired])))

theorem execCoalReplayDone {half} (hs : Kept s0 s) :
    Kept s0 (stateAfter s (Machine.execCoalReplayDone half s)) := by
  unfold Machine.execCoalReplayDone
  exact hs.replayDone

theorem lunFail {channel} {lun} (hs : Kept s0 s) : Kept s0 (s.lunFail channel lun) := by
  unfold State.lunFail
  exact .ite hs (hs.fault (fun _ hk => hk.lunOut))

theorem execNandLunFail {channel} {lun} (hs : Kept s0 s) :
    Kept s0 (stateAfter s (Machine.execNandLunFail channel lun s)) := by
  unfold Machine.execNandLunFail
  exact hs.lunFail

theorem readSb {d} {k} {chs} (hs : Kept s0 s) : Kept s0 (s.readSb d k chs) := by
  unfold State.readSb
  dsimp only
  exact .ite (hs.setHalf rfl) hs

theorem countRead {read} {n} {bytes} (hs : Kept s0 s) : Kept s0 (s.countRead read n bytes) := by
  unfold State.countRead
  dsimp only
  exact .countAo (.count (.count (.same hs rfl)))

theorem patrol {d} {k} {read} {weak} (hs : Kept s0 s) : Kept s0 (s.patrol d k read weak) := by
  unfold State.patrol
  dsimp only
  exact .ite hs (hs.readSb.countRead.setHalf rfl)

theorem execPatrolRead {half} {sb} {read} {weak} (hs : Kept s0 s) :
    Kept s0 (stateAfter s (Machine.execPatrolRead half sb read weak s)) := by
  unfold Machine.execPatrolRead
  exact hs.patrol

theorem checkpoint {d} (hs : Kept s0 s) : Kept s0 (s.checkpoint d) := by
  unfold State.checkpoint
  dsimp only
  exact .ite hs (.ite hs (hs.setHalf (by simp)))

theorem execCoalCheckpoint {half} (hs : Kept s0 s) :
    Kept s0 (stateAfter s (Machine.execCoalCheckpoint half s)) := by
  unfold Machine.execCoalCheckpoint
  exact hs.checkpoint

theorem retireBlock {d} {ch} {lun} {block} (hs : Kept s0 s) :
    Kept s0 (s.retireBlock d ch lun block) := by
  unfold State.retireBlock
  dsimp only
  exact .fullCheck (.setHalf (.same hs rfl) (by simp))

theorem retireMember {d} {k} {ch} (hs : Kept s0 s) : Kept s0 (s.retireMember d k ch) := by
  unfold State.retireMember
  dsimp only
  split
  · exact hs
  · exact .ite hs.retireBlock.lunFail hs.retireBlock

theorem eraseDone {d} {k} {failed} (hs : Kept s0 s) : Kept s0 (s.eraseDone d k failed) := by
  unfold State.eraseDone
  dsimp only
  exact .ite hs (.settle (.count (.setHalf (.foldl (hs.setHalf rfl) fun _ _ hk => hk.retireMember) rfl)))

theorem execCoalEraseDone {half} {sb} {failed} (hs : Kept s0 s) :
    Kept s0 (stateAfter s (Machine.execCoalEraseDone half sb failed s)) := by
  unfold Machine.execCoalEraseDone
  exact hs.eraseDone

theorem readRecords {d} {es} {read} (hs : Kept s0 s) : Kept s0 (s.readRecords d es read) := by
  unfold State.readRecords
  dsimp only
  exact .countRead (.ite (.foldl hs fun _ _ hk => hk.readSb) (.count (.foldl hs fun _ _ hk => hk.readSb)))

theorem coalHealth {x} (hs : Kept s0 s) :
    Kept s0 { s with coal := { s.coal with health := x } } := .same hs rfl

theorem reclaim {d} (hs : Kept s0 s) : Kept s0 (s.reclaim d) := by
  unfold State.reclaim
  dsimp only
  refine .ite hs ?_
  split
  · exact hs
  · split
    · exact hs
    · next t e =>
      have hk : Kept s0 t := hs.readRecords.coalStore e
      have hset (h : Half) (hh : h.retired = (t.coal.half.get d).retired) (n : Nat) : Kept s0 ((t.setHalf d h).count 0x03300110 n) :=
        (hk.setHalf (congrArg List.length hh)).count
      split
      · exact (hset _ (by rw [Half.relocated_retired, Half.setSb_retired]; split <;> simp) _).coalHealth
      · exact hset _ (by rw [Half.relocated_retired, Half.setSb_retired]; split <;> simp) _

theorem execGcReclaim {half} (hs : Kept s0 s) :
    Kept s0 (stateAfter s (Machine.execGcReclaim half s)) := by
  unfold Machine.execGcReclaim
  exact hs.reclaim

theorem rowDone {d} {ok} {channel} (hs : Kept s0 s) : Kept s0 (s.rowDone d ok channel) := by
  unfold State.rowDone
  dsimp only
  refine .ite hs ?_
  split
  · exact hs
  · next e =>
    have hr := congrArg List.length (Coal.nextRow_retired e)
    split
    · refine .settle (.count (.coalHealth (hs.newHalf ?_)))
      rw [Coal.writeRow_retired]
      exact hr
    · exact .retireMember (hs.setHalf (by rw [Half.closeSb_retired]; exact hr))

theorem execCoalRowProgrammed {half} {ok} {channel} (hs : Kept s0 s) :
    Kept s0 (stateAfter s (Machine.execCoalRowProgrammed half ok channel s)) := by
  unfold Machine.execCoalRowProgrammed
  exact hs.rowDone

theorem hold {h} (hs : Kept s0 s) : Kept s0 (s.hold h) := by
  unfold State.hold
  dsimp only
  exact .updPage (.ite hs.ctxEvent hs)

theorem request {h} {cls} {dist} {prio} (hs : Kept s0 s) : Kept s0 (s.request h cls dist prio) := by
  unfold State.request
  dsimp only
  refine .ite hs.stackTreat (.ite (.ite hs.stackTreat.hold hs.stackTreat) ?_)
  split
  · exact .but hs.stackTreat
  · exact .ite hs.stackTreat.count (.updPage (.but hs.stackTreat))

theorem sweepHurt {h} (hs : Kept s0 s) : Kept s0 (s.sweepHurt h) := by
  unfold State.sweepHurt
  dsimp only
  exact .ite hs.stackTreat.request hs.stackTreat

theorem stackSweep {d} (hs : Kept s0 s) : Kept s0 (s.stackSweep d) := by
  unfold State.stackSweep
  refine .ite hs ?_
  split
  · exact hs.sweepHurt
  · exact .foldl hs fun _ _ hk => hk.remirror

theorem execStackSweepStep {die} (hs : Kept s0 s) :
    Kept s0 (stateAfter s (Machine.execStackSweepStep die s)) := by
  unfold Machine.execStackSweepStep
  exact hs.stackSweep

theorem endRotation {c} (hs : Kept s0 s) : Kept s0 (s.endRotation c) := by
  unfold State.endRotation
  dsimp only
  exact hs.setCtx.count

theorem rewriteRecord {d} {e} {t} (hs : Kept s0 s) (e : s.rewriteRecord d e = some t) :
    Kept s0 t := by
  unfold State.rewriteRecord at e
  dsimp only at e
  split at e
  · cases e
  · split at e
    · cases e
    · exact hs.readRecords.coalStore e

theorem requestTables {k} {prio} (hs : Kept s0 s) : Kept s0 (s.requestTables k prio) := by
  unfold State.requestTables
  dsimp only
  exact .ite (.but hs) (.but hs)

theorem sweepRecord {d} {p} {e} (hs : Kept s0 s) : Kept s0 (s.sweepRecord d p e) := by
  unfold State.sweepRecord
  split
  · split
    · exact hs.requestTables
    · exact hs
  · cases he : s.rewriteRecord d { key := p.1, kib := p.2.kib, epoch := e, persist := false, ctx := p.2.ctx } with
    | none => exact hs
    | some t => exact hs.rewriteRecord he

theorem rewriteBlock {b} (hs : Kept s0 s) : Kept s0 (s.rewriteBlock b) := by
  unfold State.rewriteBlock
  exact .withMem hs fun x => by rw [Mem.wf, Mem.countWrites_cells]; exact x

theorem pokeHdr {h} {off} {n} {v} (hs : Kept s0 s) : Kept s0 (s.pokeHdr h off n v) := by
  unfold State.pokeHdr
  exact hs.poke

theorem setEpoch {h} {e} (hs : Kept s0 s) : Kept s0 (s.setEpoch h e) := by
  unfold State.setEpoch
  dsimp only
  exact .ite hs.updPage hs.updPage.pokeHdr

theorem setReqs {d} {l} (hs : Kept s0 s) : Kept s0 (s.setReqs d l) := by
  unfold State.setReqs
  dsimp only
  exact .but hs

theorem updReq {d} {h} {f} (hs : Kept s0 s) : Kept s0 (s.updReq d h f) := by
  unfold State.updReq
  exact hs.setReqs

theorem sweepPromote {h} (hs : Kept s0 s) : Kept s0 (s.sweepPromote h) := by
  unfold State.sweepPromote
  exact hs.request.updReq

theorem makeRoom {n} {d} {pref} {kib} {excl} {busy} {r} (hr : Kept s0 r) (hs : Kept s0 s) :
    Kept s0 ((s.makeRoom n d pref kib excl busy).state r) := by
  induction n generalizing s with
  | zero => exact hr
  | succ n ih =>
    rw [State.makeRoom]
    split
    · next e => exact hs.takeFrame e
    · split
      · next e =>
        split
        · exact hr
        · exact ih (hs.victim e).evict
      · split
        · exact hr
        · split
          · next e =>
            split
            · exact hr
            · exact ih (hs.victim e).dropPage.count
          · exact hr

theorem allocFrame {d} {pref} {kib} {excl} {busy} (hs : Kept s0 s) :
    Kept s0 ((s.allocFrame d pref kib excl busy).state s) := by
  unfold State.allocFrame
  split
  · next e => exact hs.takeFrame e
  · cases hc : s.compact d kib with
    | none => exact hs.makeRoom hs
    | some t => exact hs.makeRoom (hs.compact hc)

theorem allocFrame_got {d} {pref} {kib} {excl} {busy} {f} {t} (hs : Kept s0 s) (e : s.allocFrame d pref kib excl busy = .got f t) :
    Kept s0 t := by
  have hk := hs.allocFrame (d := d) (pref := pref) (kib := kib) (excl := excl) (busy := busy)
  rw [e] at hk
  exact hk

theorem rewriteFrame {h} {e} (hs : Kept s0 s) : Kept s0 (s.rewriteFrame h e) := by
  unfold State.rewriteFrame
  dsimp only
  split
  · next x0 x1 x2 he =>
      have hk : Kept _ x2 := he ▸ hs.allocFrame
      exact .ite hk.updPage.yieldFrame.setEpoch.sweepWait.updPage.releaseCopy.relist hk.updPage.yieldFrame.setEpoch.sweepWait
  · exact hs.sweepWait
  · exact hs.sweepWait

theorem rewriteOpen {h} {e} (hs : Kept s0 s) : Kept s0 (s.rewriteOpen h e) := by
  unfold State.rewriteOpen
  dsimp only
  split
  · next x0 x1 x2 he =>
      have hk : Kept _ x2 := he ▸ hs.allocFrame
      split
      · next x01 x11 x21 he1 =>
          have hk1 : Kept _ x21 := he1 ▸ hk.allocQuiet
          exact hk1.updPage.yieldFrame.yieldFrame.setEpoch.sweepWait
      · exact hs.sweepWait
      · exact hs.sweepWait
  · exact hs.sweepWait
  · exact hs.sweepWait

theorem sweepPage {h} {e} (hs : Kept s0 s) : Kept s0 (s.sweepPage h e) := by
  unfold State.sweepPage
  dsimp only
  refine .ite hs.rewriteOpen ?_
  split
  · exact hs.rewriteFrame
  · exact hs.rewriteFrame
  · refine .ite hs.sweepPromote ?_
    split
    · next x0 x1 he =>
        have hk : Kept _ x1 := .rewriteRecord hs he
        exact hk.setEpoch.updPage
    · exact hs
  · exact hs

theorem blkEpochs {x} (hs : Kept s0 s) :
    Kept s0 { s with mem := { s.mem with blkEpoch := x } } := .withMem hs fun x => x

theorem keySweep {c} (hs : Kept s0 s) : Kept s0 (s.keySweep c) := by
  unfold State.keySweep
  extract_lets x
  split
  · exact hs
  · split
    · exact hs.sweepPage
    · split
      · exact hs.rewriteBlock.blkEpochs
      · split
        · exact hs.sweepRecord
        · exact hs.sweepRecord
        · exact .ite hs hs.endRotation

theorem execKeySweepStep {ctx} (hs : Kept s0 s) :
    Kept s0 (stateAfter s (Machine.execKeySweepStep ctx s)) := by
  unfold Machine.execKeySweepStep
  exact hs.keySweep

theorem setPfx {i} {e} (hs : Kept s0 s) : Kept s0 (s.setPfx i e) := by
  unfold State.setPfx
  dsimp only
  exact .but hs

theorem domInsert {d} {g} {e} {t} (hs : Kept s0 s) (e : s.domInsert d g e = some t) :
    Kept s0 t := by
  unfold State.domInsert at e
  split at e
  · cases e
    exact hs.domPut
  · cases e

theorem domPromote {idx} {e} {replace} (hs : Kept s0 s) : Kept s0 (s.domPromote idx e replace) := by
  unfold State.domPromote
  dsimp only
  split
  · next x0 x1 he =>
      have hk : Kept _ x1 := .domInsert hs he
      exact .but hk
  · refine .ite hs ?_
    split
    · exact hs
    · exact .but hs

theorem putRow {i} {e} (hs : Kept s0 s) : Kept s0 (s.putRow i e) := by
  unfold State.putRow
  dsimp only
  exact hs.setPfx.domPromote

theorem reinsertPage {slot} {r} {par} {l} {h} (hs : Kept s0 s) :
    Kept s0 (s.reinsertPage slot r par l h) := by
  unfold State.reinsertPage
  dsimp only
  exact .setPage (hs.setHalf rfl)

theorem bucketFull {die} (hs : Kept s0 s) : Kept s0 (s.bucketFull die) := by
  unfold State.bucketFull
  dsimp only
  exact .but hs

theorem skipRow {c} {known} (hs : Kept s0 s) : Kept s0 (s.skipRow c known) := by
  unfold State.skipRow
  dsimp only
  exact .foldl hs.withdrawRecord.count fun _ _ hk => .ite hk hk.coalRelease

theorem reinsertRow {n} {c} (hs : Kept s0 s) : Kept s0 (s.reinsertRow n c) := by
  unfold State.reinsertRow
  dsimp only
  refine .ite hs.skipRow ?_
  split
  · refine .ite hs.skipRow ?_
    split
    · exact hs.bucketFull.skipRow
    · split
      · next x0 x1 x2 he =>
          have hk : Kept _ x2 := he ▸ hs.allocFrame
          exact .putRow (.foldl hk fun _ _ hk1 => hk1.reinsertPage)
      · exact hs.skipRow
  · exact hs.skipRow

theorem reinsert (hs : Kept s0 s) : Kept s0 s.reinsert := by
  unfold State.reinsert
  dsimp only
  exact .ite hs (.but (.foldl (.foldl (.foldl (.but hs) fun _ _ hk => hk.reinsertRow) fun _ _ hk => hk.coalRelease) fun _ _ hk => hk.coalRelease))

theorem execPersistReinsert (hs : Kept s0 s) :
    Kept s0 (stateAfter s (Machine.execPersistReinsert s)) := by
  unfold Machine.execPersistReinsert
  exact hs.reinsert

theorem sweepBucket {d} (hs : Kept s0 s) : Kept s0 (s.sweepBucket d) := by
  unfold State.sweepBucket
  dsimp only
  exact .but (.foldl hs fun _ _ hk => .ite hk.withdrawRow hk)

theorem sweepTick (hs : Kept s0 s) : Kept s0 s.sweepTick := by
  unfold State.sweepTick
  exact .ite hs.sweepBucket.sweepBucket hs

theorem execOrphanSweepTick (hs : Kept s0 s) :
    Kept s0 (stateAfter s (Machine.execOrphanSweepTick s)) := by
  unfold Machine.execOrphanSweepTick
  exact hs.sweepTick

theorem demoteTables {k} (hs : Kept s0 s) : Kept s0 (s.demoteTables k) := by
  unfold State.demoteTables
  dsimp only
  refine .ite hs ?_
  split
  · next x0 x1 he =>
      have hk : Kept _ x1 := he ▸ hs.coalWrite
      exact hk
  · next x0 x1 he =>
      have hk : Kept _ x1 := he ▸ hs.coalWrite
      exact .setHalf (.same hk.setSeq.count rfl) rfl

theorem execTableDemote {seq} (hs : Kept s0 s) :
    Kept s0 (stateAfter s (Machine.execTableDemote seq s)) := by
  unfold Machine.execTableDemote
  exact hs.demoteTables

theorem setWobj {k} {w} (hs : Kept s0 s) : Kept s0 (s.setWobj k w) := by
  unfold State.setWobj
  exact .but hs

theorem chunkLoaded {h} (hs : Kept s0 s) : Kept s0 (s.chunkLoaded h) := by
  unfold State.chunkLoaded
  dsimp only
  split
  · exact hs
  · exact .ite hs.setWobj hs

theorem supersede {d} {h} (hs : Kept s0 s) : Kept s0 (s.supersede d h) := by
  unfold State.supersede
  dsimp only
  exact hs.setHalf rfl

theorem setRes {y1} {from_} {to_} {coal} (hs : Kept s0 s) :
    Kept s0 (s.setRes y1 from_ to_ coal) := by
  unfold State.setRes
  exact .foldl hs fun _ _ hk => hk.updPage.relist

theorem loadFrames {d} {l} {t} (hs : Kept s0 s) (e : State.loadFrames d l s = .ready t) :
    Kept s0 t := by
  induction l generalizing s with
  | nil => cases e; exact hs
  | cons h l ih =>
    rw [State.loadFrames] at e
    split at e
    · exact ih hs e
    · split at e
      · cases e
      · cases e
      · next ha => exact ih (hs.allocFrame_got ha).updPage e

theorem loadChunks_ready {d} {c} {n} {l} {t} (hs : Kept s0 s) (e : State.loadChunks d c n l s = .ready t) :
    Kept s0 t := by
  induction n generalizing s l with
  | zero =>
    cases l with
    | nil => cases e; exact hs
    | cons h l => cases e
  | succ n ih =>
    cases l with
    | nil => cases e; exact hs
    | cons h l =>
      rw [State.loadChunks] at e
      · extract_lets es at e
        split at e
        · next hf =>
          have hk := hs.loadFrames hf
          split at e
          · exact ih (.foldl hk fun _ _ hk => hk.relist) e
          · split at e
            · cases e
            · next hc =>
              have hk := (Kept.foldl hk fun _ _ hk => hk.supersede).setRes.coalStore hc
              extract_lets hf s1 s2 hc x s3 at e
              have h1 : Kept s0 s1 := hk.setHalf rfl
              have h2 : Kept s0 s2 := h1.setRes.setRes
              have h3 : Kept s0 s3 := h2.coalHealth
              exact ih h3.count.count e
        · cases e
        · cases e
      · simp

theorem loadChunks {d} {c} {n} {l} (hs : Kept s0 s) :
    Kept s0 ((State.loadChunks d c n l s).state s) := by
  cases e : State.loadChunks d c n l s with
  | ready t => exact hs.loadChunks_ready e
  | waits d n => exact hs
  | noSpace => exact hs

theorem storeLayer {k} {l} {src} (hs : Kept s0 s) : Kept s0 ((s.storeLayer k l src).state s) := by
  unfold State.storeLayer
  extract_lets w slots
  split
  · next t e =>
    have hk : Kept s0 t := hs.loadChunks_ready e
    exact hk.setWobj
  · exact hs.loadChunks

theorem snoop {head} {ls} {mask} {cause} (hs : Kept s0 s) :
    Kept s0 (s.snoop head ls mask cause) := by
  unfold State.snoop
  dsimp only
  exact .count (.but hs)

theorem sendSnoops {ls} (hs : Kept s0 s) : Kept s0 (s.sendSnoops ls) := by
  unfold State.sendSnoops
  exact hs.snoop.snoop

theorem say {st} {detail} {out} (hs : Kept s0 s) : Kept s0 (s.say st detail out) := by
  unfold State.say
  exact hs.answer

theorem putLayer {w} (hs : Kept s0 s) : Kept s0 (s.putLayer w) := by
  unfold State.putLayer
  extract_lets d n owned wait
  have hw (t : State) (again : Bool) (left : Nat) (ht : Kept s0 t) : Kept s0 (wait t again left) := .answer (.but ht)
  clear_value wait
  refine .ite hs.say (.ite hs.say (.ite hs.setFull.say (.ite (hw _ _ _ hs.sendSnoops) (.ite (hw _ _ _ hs) ?_))))
  split
  · next t e =>
    have hk : Kept s0 t := (e ▸ hs.storeLayer : Kept s0 ((Plan.ready t).state s))
    exact hk.say
  · exact hs.say
  · exact hw _ _ _ hs.allocWaits

theorem takeGranules_ready {n} {g} {c} {d} {t} (hs : Kept s0 s) (e : State.takeGranules n g c d s = .ready t) :
    Kept s0 t := by
  induction n generalizing s g with
  | zero => cases e; exact hs
  | succ n ih =>
    rw [State.takeGranules] at e
    split at e
    · cases e
    · cases e
    · next ha =>
      extract_lets ep blk m at e
      refine ih (.withMem (hs.allocFrame_got ha) ?_) e
      exact fun x => x

theorem takeGranules {n} {g} {c} {d} (hs : Kept s0 s) :
    Kept s0 ((State.takeGranules n g c d s).state s) := by
  cases e : State.takeGranules n g c d s with
  | ready t => exact hs.takeGranules_ready e
  | waits d n => exact hs
  | noSpace => exact hs

theorem grantSpace {w} (hs : Kept s0 s) : Kept s0 (s.grantSpace w) := by
  unfold State.grantSpace
  dsimp only
  split
  · next x0 x1 he =>
      have hk : Kept _ x1 := he ▸ hs.takeGranules
      exact hk.say
  · exact hs.say
  · exact .answer (.but hs.allocWaits)

theorem silently {dropped} {go : State → State} (hs : Kept s0 s) (hgo : ∀ t0, Kept s0 t0 → Kept s0 (go t0)) :
    Kept s0 (s.silently dropped go) := by
  unfold State.silently
  dsimp only
  exact .ite (.but (hgo _ hs)) (hgo _ hs)

theorem retryCommands {d} (hs : Kept s0 s) : Kept s0 (s.retryCommands d) := by
  unfold State.retryCommands
  dsimp only
  exact .foldl (.foldl (.but hs) fun _ _ hk => hk.silently (fun _ hk1 => .ite hk1.say (.ite hk1.say hk1.grantSpace))) fun _ _ hk => hk.silently (fun _ hk1 => .ite hk1.say (.ite hk1.say hk1.putLayer))

theorem demotePersistent {d} (hs : Kept s0 s) : Kept s0 (s.demotePersistent d) := by
  unfold State.demotePersistent
  refine .ite hs ?_
  split
  · exact hs.startDemote
  · exact hs

theorem urgentCheck {d} (hs : Kept s0 s) : Kept s0 (s.urgentCheck d) := by
  unfold State.urgentCheck
  exact hs.setUrgent

theorem roomMade {d} (hs : Kept s0 s) : Kept s0 (s.roomMade d) := by
  unfold State.roomMade
  exact .urgentCheck (.demotePersistent (.foldl hs.retryCommands fun _ _ hk => hk.remirror))

theorem demoted {h} (hs : Kept s0 s) : Kept s0 (s.demoted h) := by
  unfold State.demoted
  dsimp only
  refine .ite hs (.ite hs ?_)
  split
  · exact .roomMade (.chunkLoaded (.relist (.ite hs.setPage.count.updPage.releaseCopy hs.setPage.count)))
  · exact hs.updPage.relist.roomMade

theorem execDemotionComplete {handle} (hs : Kept s0 s) :
    Kept s0 (stateAfter s (Machine.execDemotionComplete handle s)) := by
  unfold Machine.execDemotionComplete
  exact hs.demoted

theorem reclaimPages {n} {d} (hs : Kept s0 s) : Kept s0 (s.reclaimPages n d) := by
  induction n generalizing s with
  | zero => exact hs
  | succ n ih =>
    rw [State.reclaimPages]
    refine .ite (.but hs) ?_
    split
    · exact hs
    · next e => exact ih (.ite (hs.victim e).evict (hs.victim e).startDemote)

theorem background {d} (hs : Kept s0 s) : Kept s0 (s.background d) := by
  unfold State.background
  dsimp only
  exact .ite hs (.reclaimPages (.but hs))

theorem execBackgroundReclaim {die} (hs : Kept s0 s) :
    Kept s0 (stateAfter s (Machine.execBackgroundReclaim die s)) := by
  unfold Machine.execBackgroundReclaim
  exact hs.background

theorem execStageHoldExpiry {handle} (hs : Kept s0 s) :
    Kept s0 (stateAfter s (Machine.execStageHoldExpiry handle s)) := by
  unfold Machine.execStageHoldExpiry
  split
  · exact .ite hs.updPage.relist hs
  · exact hs

theorem endBinds (hs : Kept s0 s) : Kept s0 s.endBinds := by
  unfold State.endBinds
  dsimp only
  exact .but hs

theorem s2m {r} (hs : Kept s0 s) : Kept s0 (s.s2m r) := by
  unfold State.s2m
  exact .but hs

theorem poisonLoad {w} (hs : Kept s0 s) : Kept s0 (s.poisonLoad w) := by
  unfold State.poisonLoad
  dsimp only
  exact .endBinds (.postEvent (.count (.silently (.but hs) (fun _ hk => hk.s2m))))

theorem keepSnap {a} {k} (hs : Kept s0 s) : Kept s0 (s.keepSnap a k) := by
  unfold State.keepSnap
  exact hs.updRec

theorem passOnce {a} {k} (hs : Kept s0 s) : Kept s0 (s.passOnce a k) := by
  unfold State.passOnce
  exact hs.updRec

theorem snoopWait {j o} (hs : Kept s0 s) (e : s.snoopWait j = some o) : Kept s0 o.state := by
  unfold State.snoopWait at e
  split at e
  · cases e
  · cases e
  · split at e
    · cases e
    · cases e
      exact hs.sendSnoops

theorem proceed {a} {j} {check : Job → State → Chk} {body : Job → State → Out} (hs : Kept s0 s)
    (hcheck : ∀ j t, Kept s0 t → Kept s0 (check j t).state) (hbody : ∀ j t, Kept s0 t → Kept s0 (body j t).state) :
    Kept s0 (s.proceed a j check body).state := by
  have hc := hcheck j s hs
  unfold State.proceed
  split
  · next e =>
    rw [e] at hc
    split
    · exact hc
    · exact hs.sendSnoops
  · next e =>
    rw [e] at hc
    exact hc
  · next e =>
    rw [e] at hc
    dsimp only
    split
    · next e => exact (hc.snoopWait e).passOnce
    · exact hbody _ _ hc.keepSnap

theorem runBody {j} {body : Job → State → Out} (hs : Kept s0 s) (hbody : ∀ j t, Kept s0 t → Kept s0 (body j t).state) :
    Kept s0 (s.runBody j body).state := by
  unfold State.runBody
  split
  · next e => exact hs.snoopWait e
  · exact hbody _ _ hs

theorem enter {a} {im} {cont} (hs : Kept s0 s) : Kept s0 (s.enter a im cont) := by
  have hk := hs.setRing (n := a.ring) (g := { s.ring a.ring with
    calls := { image := im, cont := cont } :: (s.ring a.ring).calls
    fetched := if (s.ring a.ring).calls.isEmpty then 0 else (s.ring a.ring).fetched }) (hs.regs a.ring)
  unfold State.enter
  dsimp only
  split
  · next e => exact (hk.updRec.callOver e).finish
  · exact hk.updRec.fetch

theorem served {n} (hs : Kept s0 s) : Kept s0 (s.served n) := by
  unfold State.served
  dsimp only
  exact .ite (.but hs) (.but hs)

theorem name {ks} (hs : Kept s0 s) : Kept s0 (s.name ks) := by
  unfold State.name
  dsimp only
  exact .foldl hs fun _ _ hk => hk.setSeq

theorem startRing {n} {dst} (hs : Kept s0 s) : Kept s0 (s.startRing n dst) :=
  hs.setRing fun x => (setReg_length _ _ _).trans (hs.regs n x)

theorem ctxReset {c} {ring} {layer} {opid} {index} (hs : Kept s0 s) :
    Kept s0 (s.ctxReset c ring layer opid index) := by
  unfold State.ctxReset
  dsimp only
  exact .ite hs.setCtx hs

theorem noteIssue {r} {j} (hs : Kept s0 s) : Kept s0 (s.noteIssue r j) := by
  unfold State.noteIssue
  dsimp only
  exact .trace (.ite hs hs.ctxReset)

theorem issue {r} (hs : Kept s0 s) : Kept s0 (s.issue r) := by
  unfold State.issue
  dsimp only
  exact hs.served.name.startRing.setRec.noteIssue

/-- What an outcome's state keeps, its settling keeps. -/
theorem settleOut {a} {o : Out} (ho : Kept s0 o.state) : Kept s0 (Machine.settle a o) := by
  cases o with
  | done d t => exact Kept.finish (s := t) ho
  | wait w t => exact Kept.updRec (s := t) ho
  | enter im cont t => exact Kept.enter (s := t) ho

theorem begin {r} {check : Job → State → Chk} {body : Job → State → Out} (hs : Kept s0 s)
    (hcheck : ∀ j t, Kept s0 t → Kept s0 (check j t).state) (hbody : ∀ j t, Kept s0 t → Kept s0 (body j t).state) :
    Kept s0 (s.begin r check body) := by
  unfold State.begin
  dsimp only
  split
  · exact hs.issue.finish
  · exact .settleOut (hs.issue.proceed hcheck hbody)

/-- A command for an instruction keeps what the instruction's own checks and its own work keep. -/
theorem runHob {op} {a} {check : Job → State → Chk} {body : Job → State → Out} (hs : Kept s0 s)
    (hcheck : ∀ j t, Kept s0 t → Kept s0 (check j t).state) (hbody : ∀ j t, Kept s0 t → Kept s0 (body j t).state) :
    Kept s0 (Machine.runHob op a check body s) := by
  unfold Machine.runHob
  split
  · exact hs
  · refine .ite hs (.ite (.ite (hs.begin hcheck hbody).markFree hs) (.ite (.markFree (.settleOut ?_)) hs))
    split
    · exact hs.runBody hbody
    · exact hs.proceed hcheck hbody

theorem writeMisses {mrlist} {mrcap} {ms} (hs : Kept s0 s) :
    Kept s0 (s.writeMisses mrlist mrcap ms) := by
  unfold State.writeMisses
  exact .ite hs hs.poke

theorem scramble {a} {n} (hs : Kept s0 s) : Kept s0 (s.scramble a n) := by
  unfold State.scramble
  dsimp only
  exact .poke (.but hs)

theorem spoilAreas {areas} (hs : Kept s0 s) : Kept s0 (s.spoilAreas areas) := by
  unfold State.spoilAreas
  exact .foldl hs fun _ _ hk => hk.scramble

theorem addTo {a} {v} (hs : Kept s0 s) : Kept s0 (s.addTo a v) := by
  unfold State.addTo
  exact hs.poke

theorem addRun {a} {l} (hs : Kept s0 s) : Kept s0 (s.addRun a l) := by
  induction l generalizing s a with
  | nil => exact hs
  | cons v l ih => exact ih hs.addTo

theorem addJob {p} {area} {u} {bs} (hs : Kept s0 s) : Kept s0 (s.addJob p area u bs) := by
  unfold State.addJob
  dsimp only
  exact .foldl hs fun _ _ hk => .ite hk (.addRun (.addRun (.but hk)))

theorem putDq {r : State} {p} {out} {head} {fp32} {bs} (hs : Kept s0 s) :
    Kept s0 (r.putDq p out head fp32 bs s) := by
  unfold State.putDq
  dsimp only
  split
  · exact hs
  · exact .poke (.but hs)

theorem bwdRows {r : State} {j} {d} {p} {x} {e} (hs : Kept s0 s) :
    Kept s0 (r.bwdRows j d p x e s) := by
  unfold State.bwdRows
  dsimp only
  exact .foldl (.foldl hs fun _ _ hk => .foldl hk fun _ _ hk1 => hk1.putDq) fun _ _ hk => hk.addJob

theorem hearthBytes {j} {n} (hs : Kept s0 s) : Kept s0 (s.hearthBytes j n) := by
  unfold State.hearthBytes
  exact hs.ctxEvent

theorem traceUnit {j} {type} {u} (hs : Kept s0 s) : Kept s0 (s.traceUnit j type u) := by
  unfold State.traceUnit
  exact hs.trace

theorem runUnits {j} {us} {hl} {prods} {spills} {writes} (hs : Kept s0 s) :
    Kept s0 (s.runUnits j us hl prods spills writes) := by
  unfold State.runUnits
  dsimp only
  exact .ctxEvent (.ctxEvent (.count (.count (.count (.foldl hs fun _ _ hk => .but hk.traceUnit.traceUnit)))))

theorem bwdEnds {r : State} {j} {d} {es} {xs} {ms} (hs : Kept s0 s) :
    Kept s0 (r.bwdEnds j d es xs ms s).2 := by
  unfold State.bwdEnds
  dsimp only
  exact .writeMisses (.spoilAreas (.foldl hs.runUnits.hearthBytes fun _ _ hk => hk.bwdRows))

theorem bwdSpoil {j} {d} {p} {rows} {areas} (hs : Kept s0 s) :
    Kept s0 (Machine.bwdSpoil j d p rows areas s) := by
  unfold Machine.bwdSpoil
  exact hs.scramble.spoilAreas

theorem lateStage {j} {y2} (hs : Kept s0 s) : Kept s0 (s.lateStage j y2) := by
  unfold State.lateStage
  dsimp only
  exact hs.count.ctxEvent

theorem awaitPages {j} {y2} {result} (hs : Kept s0 s) :
    Kept s0 (s.awaitPages j y2 result).state := by
  unfold State.awaitPages
  split
  · exact hs
  · exact .foldl hs fun _ _ hk => hk.request

theorem engineRead {h} (hs : Kept s0 s) : Kept s0 (s.engineRead h) := by
  unfold State.engineRead
  exact hs.updPage

theorem keepHits {j} {xs} (hs : Kept s0 s) : Kept s0 (s.keepHits j xs) := by
  unfold State.keepHits
  dsimp only
  exact .foldl hs.updRec fun _ _ hk => .foldl hk fun _ _ hk1 => hk1.engineRead

theorem touch {h} (hs : Kept s0 s) : Kept s0 (s.touch h) := by
  unfold State.touch
  exact hs.updPage

theorem setLayer {k} {l} {x} (hs : Kept s0 s) : Kept s0 (s.setLayer k l x) := by
  unfold State.setLayer
  dsimp only
  exact hs.setSeq

theorem setPte {k} {l} {n} {e} (hs : Kept s0 s) : Kept s0 (s.setPte k l n e) := by
  unfold State.setPte
  dsimp only
  exact hs.setLayer

theorem parityReads {k} {l} (hs : Kept s0 s) : Kept s0 (s.parityReads k l) := by
  unfold State.parityReads
  dsimp only
  exact .ite hs (.countAo (.but hs))

theorem walk {k} {l} {n} (hs : Kept s0 s) : Kept s0 (s.walk k l n).2 := by
  unfold State.walk
  dsimp only
  split
  · exact .ite (.releaseRef (.setPte (.ite hs.parityReads.stackTreat hs.parityReads))) (.ite hs.parityReads.stackTreat hs.parityReads)
  · exact .touch (.ite hs.parityReads.stackTreat hs.parityReads)
  · exact .ite hs.parityReads.stackTreat hs.parityReads

theorem walkAll {k} {l} {ns} (hs : Kept s0 s) : Kept s0 (State.walkAll k l ns s).2 := by
  induction ns generalizing s with
  | nil => exact hs
  | cons n ns ih =>
    have hk := ih (hs.walk (k := k) (l := l) (n := n))
    unfold State.walkAll
    dsimp only
    split <;> exact hk

theorem attWalk {l} {old} {pages} {es} (hs : Kept s0 s) :
    Kept s0 (s.attWalk l old pages es).2.2 := by
  induction es generalizing s with
  | nil => exact hs
  | cons e es ih => exact ih hs.walkAll

theorem attRun {j} {p} {es} {pages} {bufs} {nan} {spoil : State → State} {ends : List AttSeen → List Miss → State → Done × State}
    (hs : Kept s0 s) (hspoil : ∀ t, Kept s0 t → Kept s0 (spoil t)) (hends : ∀ xs ms t, Kept s0 t → Kept s0 (ends xs ms t).2) :
    Kept s0 (s.attRun j p es pages bufs nan spoil ends).state := by
  unfold State.attRun
  split
  next xs ms s1 e =>
  have h1 : Kept s0 s1 := by
    have := hs.attWalk (l := j.layer.toNat) (old := j.snap.hits) (pages := pages) (es := es)
    rw [e] at this
    exact this
  extract_lets s2 away
  have h2 : Kept s0 s2 := h1.keepHits
  split
  · exact hspoil _ h2
  · split
    · split
      · exact h2
      · exact hends xs ms s2 h2
    · have ha : Kept s0 ((s2.lateStage j away).awaitPages j away 0).state := h2.lateStage.awaitPages
      split
      · next e => rw [e] at ha; exact hspoil _ ha
      · exact ha

theorem attBwdBody {j} (hs : Kept s0 s) : Kept s0 (Machine.attBwdBody j s).state := by
  unfold Machine.attBwdBody
  dsimp only
  exact hs.attRun (fun _ hk => hk.bwdSpoil) (fun _ _ _ hk => hk.bwdEnds)

theorem lookahead {j} {look} {layers} {down} {spans} (hs : Kept s0 s) :
    Kept s0 (s.lookahead j look layers down spans) := by
  unfold State.lookahead
  dsimp only
  refine .ite hs (.foldl hs ?_)
  intro s1 t hk
  refine .foldl hk ?_
  intro s2 x hk1
  refine .foldl hk1 ?_
  intro s3 n hk2
  split
  · exact hk2
  · exact hk2.request
  · exact hk2.request

theorem walked {k} (hs : Kept s0 s) : Kept s0 (s.walked k) := by
  unfold State.walked
  dsimp only
  exact hs.setSeq

theorem dispatch {j} {d} {es} {layers} {down} {spans} {units} (hs : Kept s0 s) :
    Kept s0 (s.dispatch j d es layers down spans units).state := by
  unfold State.dispatch
  dsimp only
  split
  · exact hs
  · exact .lookahead (.foldl hs fun _ _ hk => hk.walked)

theorem attBadly {es} {spoil : State → State} {e} (hs : Kept s0 s) (hspoil : ∀ t0, Kept s0 t0 → Kept s0 (spoil t0)) :
    Kept s0 (s.attBadly es spoil e).state := by
  unfold State.attBadly
  exact .ite (hspoil _ hs) hs

theorem bwdBadly {spoil : State → State} {e} (hs : Kept s0 s) (hspoil : ∀ t0, Kept s0 t0 → Kept s0 (spoil t0)) :
    Kept s0 (s.bwdBadly spoil e).state := by
  unfold State.bwdBadly
  exact hs.attBadly (fun _ hk => hspoil _ hk)

theorem tablesWait {j} {ks} {v t} (hs : Kept s0 s) (e : s.tablesWait j ks = some (v, t)) :
    Kept s0 t := by
  unfold State.tablesWait at e
  split at e
  · cases e
  · dsimp only at e
    split at e
    · split at e
      · cases e; exact hs
      · cases e; exact hs.requestTables
    · cases e; exact hs.requestTables
    · cases e; exact hs.requestTables

theorem attTables {j} {d} {es} {spoil : State → State} {full : State → Chk} (hs : Kept s0 s) (hspoil : ∀ t0, Kept s0 t0 → Kept s0 (spoil t0)) (hfull : ∀ t0, Kept s0 t0 → Kept s0 (full t0).state) :
    Kept s0 (s.attTables j d es spoil full).state := by
  unfold State.attTables
  split
  · exact hfull _ hs
  · split
    · next x0 x1 x2 he =>
        have hk : Kept _ x2 := .tablesWait hs he
        exact hk
    · next x0 x1 he =>
        have hk : Kept _ x1 := .tablesWait hs he
        exact hspoil _ hk
    · exact hfull _ hs

theorem headBadly {j} {d} {n} {spoil : State → State} {e} (hs : Kept s0 s) (hspoil : ∀ t, Kept s0 t → Kept s0 (spoil t)) :
    Kept s0 (s.headBadly j d n spoil e).state := by
  unfold State.headBadly
  refine hs.attBadly fun t ht => ?_
  split
  · exact hspoil t ht
  · exact ht

theorem attBwdChk {j} (hs : Kept s0 s) : Kept s0 (Machine.attBwdChk j s).state := by
  unfold Machine.attBwdChk
  dsimp only
  split
  · exact hs.headBadly (fun _ hk => hk.scramble)
  · split
    · exact hs.headBadly (fun _ hk => hk.scramble)
    · refine hs.attTables (fun _ hk => hk.bwdSpoil) ?_
      intro t0 hk
      split
      · exact hk.bwdBadly (fun _ hk1 => hk1.bwdSpoil)
      · exact hk.dispatch

theorem mergeBody {j} (hs : Kept s0 s) : Kept s0 (Machine.mergeBody j s).state := by
  unfold Machine.mergeBody
  dsimp only
  exact .hearthBytes (.count (.foldl hs fun _ _ hk => .ite hk.poke.poke hk.poke))

theorem Chk_ofErr {e} {k} (hs : Kept s0 s) : Kept s0 (Chk.ofErr e s k).state := by
  unfold Chk.ofErr
  split
  · exact hs
  · exact hs

theorem mergeChk {j} (hs : Kept s0 s) : Kept s0 (Machine.mergeChk j s).state := by
  unfold Machine.mergeChk
  split
  · exact hs.Chk_ofErr
  · split
    · exact hs
    · exact hs

theorem putRowOut {p} {out} {row} {head} {fp32} {partial_} {stats} {r} {ref} (hs : Kept s0 s) :
    Kept s0 (s.putRowOut p out row head fp32 partial_ stats r ref) := by
  unfold State.putRowOut
  dsimp only
  exact .foldl (.poke (.but hs)) fun _ _ hk => hk.poke

theorem prefillRows {r : State} {j} {d} {p} {x} (hs : Kept s0 s) :
    Kept s0 (r.prefillRows j d p x s) := by
  unfold State.prefillRows
  dsimp only
  exact .foldl hs fun _ _ hk => .foldl hk fun _ _ hk1 => hk1.putRowOut

theorem prefillEnds {r : State} {j} {d} {rows} {xs} {ms} (hs : Kept s0 s) :
    Kept s0 (r.prefillEnds j d rows xs ms s).2 := by
  unfold State.prefillEnds
  dsimp only
  exact .writeMisses (.foldl (.ite hs.runUnits.hearthBytes.count hs.runUnits.hearthBytes) fun _ _ hk => hk.prefillRows)

theorem prefillSpoil {j} {d} {p} {rows} (hs : Kept s0 s) :
    Kept s0 (Machine.prefillSpoil j d p rows s) := by
  unfold Machine.prefillSpoil
  exact hs.scramble

theorem stamp {j} {d} {tab} {rows} {qheads} {st} (hs : Kept s0 s) :
    Kept s0 (s.stamp j d tab rows qheads st) := by
  unfold State.stamp
  exact .ite hs.poke hs

theorem stamped {j d tab rows qheads} {o : Out} (ho : Kept s0 o.state) :
    Kept s0 (Machine.stamped j d tab rows qheads o).state := by
  cases o with
  | done r t => exact Kept.stamp (s := t) ho
  | wait w t => exact ho
  | enter im cont t => exact ho

theorem stampedChk {j d tab rows qheads} {c : Chk} (hc : Kept s0 c.state) :
    Kept s0 (Machine.stampedChk j d tab rows qheads c).state := by
  cases c with
  | bad r t => exact Kept.stamp (s := t) hc
  | wait w t => exact hc
  | good k t => exact hc

theorem attPrefillBody {j} (hs : Kept s0 s) : Kept s0 (Machine.attPrefillBody j s).state := by
  unfold Machine.attPrefillBody
  dsimp only
  exact .stamped (hs.attRun (fun _ hk => hk.prefillSpoil) (fun _ _ _ hk => hk.prefillEnds))

theorem prefillEntries {j} {d} {p} {es} (hs : Kept s0 s) :
    Kept s0 (s.prefillEntries j d p es).state := by
  unfold State.prefillEntries
  dsimp only
  refine hs.attTables (fun _ hk => hk.prefillSpoil) ?_
  intro t0 hk
  split
  · exact hk.attBadly (fun _ hk1 => hk1.prefillSpoil)
  · split
    · exact hk
    · exact hk.dispatch

theorem attPrefillChk {j} (hs : Kept s0 s) : Kept s0 (Machine.attPrefillChk j s).state := by
  unfold Machine.attPrefillChk
  dsimp only
  split
  · exact hs.headBadly (fun _ hk => hk.prefillSpoil)
  · refine .stampedChk ?_
    split
    · exact hs.headBadly (fun _ hk => hk.prefillSpoil)
    · exact hs.prefillEntries

theorem decodeRows {r : State} {j} {d} {p} {x} (hs : Kept s0 s) :
    Kept s0 (r.decodeRows j d p x s) := by
  unfold State.decodeRows
  dsimp only
  exact .foldl hs fun _ _ hk => hk.putRowOut

theorem decodeEnds {r : State} {j} {d} {xs} {ms} (hs : Kept s0 s) :
    Kept s0 (r.decodeEnds j d xs ms s).2 := by
  unfold State.decodeEnds
  dsimp only
  exact .writeMisses (.foldl (.ite hs.runUnits.count.hearthBytes.count hs.runUnits.count.hearthBytes) fun _ _ hk => hk.decodeRows)

theorem decodeSpoil {j} {d} {p} (hs : Kept s0 s) : Kept s0 (Machine.decodeSpoil j d p s) := by
  unfold Machine.decodeSpoil
  exact hs.scramble

theorem attDecodeBody {j} (hs : Kept s0 s) : Kept s0 (Machine.attDecodeBody j s).state := by
  unfold Machine.attDecodeBody
  dsimp only
  exact hs.attRun (fun _ hk => hk.decodeSpoil) (fun _ _ _ hk => hk.decodeEnds)

theorem attDecodeChk {j} (hs : Kept s0 s) : Kept s0 (Machine.attDecodeChk j s).state := by
  unfold Machine.attDecodeChk
  dsimp only
  split
  · exact hs.headBadly (fun _ hk => hk.decodeSpoil)
  · refine hs.attTables (fun _ hk => hk.decodeSpoil) ?_
    intro t0 hk
    split
    · exact hk.attBadly (fun _ hk1 => hk1.decodeSpoil)
    · split
      · exact hk
      · exact hk.dispatch

theorem succeeds {result} (hs : Kept s0 s) : Kept s0 (Machine.succeeds result s).state := by
  unfold Machine.succeeds
  exact hs

theorem withdrawAll {want} (hs : Kept s0 s) : Kept s0 (s.withdrawAll want).2 := by
  unfold State.withdrawAll
  dsimp only
  exact .foldl hs fun _ _ hk => hk.withdrawRow

theorem withdrawBody {j} (hs : Kept s0 s) : Kept s0 (Machine.withdrawBody j s).state := by
  unfold Machine.withdrawBody
  dsimp only
  exact hs.walked.withdrawAll.succeeds

theorem waitAlloc {j} {d} {left} (hs : Kept s0 s) :
    Kept s0 (Machine.waitAlloc j d left s).state := by
  unfold Machine.waitAlloc
  dsimp only
  exact hs.allocWaits

theorem setFill {h} {fill} (hs : Kept s0 s) : Kept s0 (s.setFill h fill) := by
  unfold State.setFill
  exact hs.pokeHdr.updPage

theorem zeroSlots {p} {h} {fill} (hs : Kept s0 s) : Kept s0 (s.zeroSlots p h fill) := by
  unfold State.zeroSlots
  dsimp only
  exact .foldl hs.poke fun _ _ hk => .foldl hk fun _ _ hk1 => hk1.poke

theorem copyInto {p} {h} {c} {fill} (hs : Kept s0 s) : Kept s0 (s.copyInto p h c fill) := by
  unfold State.copyInto
  dsimp only
  exact .updPage (.setFill (.ite hs.poke.pokeHdr.pokeHdr.pokeHdr.pokeHdr.zeroSlots hs.poke.pokeHdr.pokeHdr.pokeHdr.pokeHdr))

theorem chargeCtx {c} {n} (hs : Kept s0 s) : Kept s0 (s.chargeCtx c n) := by
  unfold State.chargeCtx
  dsimp only
  exact hs.setCtx

theorem grantPin {h} (hs : Kept s0 s) : Kept s0 (s.grantPin h) := by
  unfold State.grantPin
  dsimp only
  exact .ite hs.setPage.relist (.ite hs (.ite hs.setPage.relist (.relist (.but hs))))

theorem putOpen {h} {q} {layer} {kib} {pref} {f} {m} (hs : Kept s0 s) :
    Kept s0 (s.putOpen h q layer kib pref f m) := by
  unfold State.putOpen
  dsimp only
  exact hs.setPage.chargeCtx.relist.grantPin

theorem newPageNo {d} {kib} {persistent} (hs : Kept s0 s) :
    Kept s0 (s.newPageNo d kib persistent).2 := by
  unfold State.newPageNo
  dsimp only
  split
  · exact hs
  · exact hs.setHalf rfl

theorem newOpen {k} {layer} {n} {busy} (hs : Kept s0 s) :
    Kept s0 ((s.newOpen k layer n busy).state s) := by
  unfold State.newOpen
  dsimp only
  split
  · exact hs
  · split
    · exact hs
    · exact hs
    · next x0 x1 x2 he =>
        have hk : Kept _ x2 := he ▸ hs.allocFrame
        split
        · exact hs
        · exact hs
        · next x01 x11 x21 he1 =>
            have hk1 : Kept _ x21 := he1 ▸ hk.allocFrame
            exact hk1.newPageNo.putOpen

theorem fixOpen {k} {l} (hs : Kept s0 s) : Kept s0 (s.fixOpen k l) := by
  unfold State.fixOpen
  dsimp only
  exact hs.setLayer

theorem newOpen_got {k layer n busy h} {t : State} (hs : Kept s0 s) (e : s.newOpen k layer n busy = .got h t) :
    Kept s0 t := by
  have hk := hs.newOpen (k := k) (layer := layer) (n := n) (busy := busy)
  rw [e] at hk
  exact hk

theorem forkCopies {k k' n l t} (hs : Kept s0 s) (e : State.forkCopies k k' n l s = .ready t) :
    Kept s0 t := by
  induction l generalizing s with
  | nil => cases e; exact hs
  | cons x l ih =>
    obtain ⟨y, m, met⟩ := x
    rw [State.forkCopies.eq_def] at e
    dsimp only at e
    split at e
    · exact ih hs.setPte.fixOpen e
    · exact ih hs e
    · split at e
      · cases e
      · cases e
      · next hn => exact ih (hs.newOpen_got hn).touch.copyInto.setPte.fixOpen e

theorem keep {h} {up} (hs : Kept s0 s) : Kept s0 (s.keep h up) := by
  unfold State.keep
  exact hs.updPage.relist

theorem addRef {h} (hs : Kept s0 s) : Kept s0 (s.addRef h) := by
  unfold State.addRef
  exact hs.updPage

theorem forkRef {k'} {l} {slot} {e} (hs : Kept s0 s) : Kept s0 (s.forkRef k' l slot e) := by
  unfold State.forkRef
  dsimp only
  exact .ite hs.setLayer (.ite hs.setLayer (.ite hs.setLayer (.setLayer (.ite hs.addRef.keep hs.addRef))))

theorem forkLayer {k} {k'} {l} {t} (hs : Kept s0 s) : Kept s0 (s.forkLayer k k' l t) := by
  unfold State.forkLayer
  dsimp only
  exact .fixOpen (.setLayer (.foldl hs fun _ _ hk => hk.forkRef))

theorem newSeq {d} {q} (hs : Kept s0 s) : Kept s0 (s.newSeq d q).2 := by
  unfold State.newSeq
  dsimp only
  exact hs.setSeq

theorem use {a} {y2} (hs : Kept s0 s) : Kept s0 (s.use a y2) := by
  unfold State.use
  exact hs.updRec

theorem fails {st} {detail} (hs : Kept s0 s) : Kept s0 (Machine.fails st detail s).state := by
  unfold Machine.fails
  exact hs

theorem forkBody {j} (hs : Kept s0 s) : Kept s0 (Machine.forkBody j s).state := by
  unfold Machine.forkBody
  extract_lets k t q cuts away held r0
  split
  · exact hs.walked.awaitPages
  · split
    · exact hs
    · have h0 : Kept s0 r0 := hs.use
      split
      next k' r1 e1 =>
      have h1 : Kept s0 r1 := by
        have := h0.walked (k := k) |>.newSeq (d := seqHome k) (q := {
          ctx := q.ctx, pslot := q.pslot, hints := q.hints, tokSrc := q.tokSrc, tokCnt := q.tokCnt
          layers := q.layers.map (fun y => ({ depth := y.depth } : Layer)) })
        rw [e1] at this
        exact this
      extract_lets r2
      have h2 : Kept s0 r2 := .foldl h1 fun _ _ hk => hk.forkLayer
      split
      · exact h0.waitAlloc
      · exact hs
      · next e =>
        split
        · exact hs
        · exact h2.forkCopies e

theorem withTables {j} {ks} {k : State → Chk} (hs : Kept s0 s) (hk : ∀ t0, Kept s0 t0 → Kept s0 (k t0).state) :
    Kept s0 (s.withTables j ks k).state := by
  unfold State.withTables
  split
  · next x0 x1 x2 he =>
      have hk1 : Kept _ x2 := .tablesWait hs he
      exact hk1
  · next x0 x1 he =>
      have hk1 : Kept _ x1 := .tablesWait hs he
      exact hk1
  · exact hk _ hs

theorem forkChk {j} (hs : Kept s0 s) : Kept s0 (Machine.forkChk j s).state := by
  unfold Machine.forkChk
  split
  · exact hs.Chk_ofErr
  · exact hs.withTables (fun _ hk => hk.Chk_ofErr)

theorem catalogueRow {d} {row} {prio} {p} (hs : Kept s0 s) :
    Kept s0 (s.catalogueRow d row prio p).2 := by
  unfold State.catalogueRow
  dsimp only
  split
  · next x0 x1 he =>
      have hk : Kept _ x1 := he ▸ hs.coalWrite
      exact hk
  · next x0 x1 he =>
      have hk : Kept _ x1 := he ▸ hs.coalWrite
      exact .but hk

/-- The record of a row in its part's catalogue, which only a row of every domain has. -/
theorem catalogued {g : Bool} {d row prio p} (hs : Kept s0 s) :
    Kept s0 (if g then s.catalogueRow d row prio p else (true, s)).2 := by
  split
  · exact hs.catalogueRow
  · exact hs

theorem insertRow {c pslot n slots p scope prio ts} (hs : Kept s0 s) :
    Kept s0 ((s.insertRow c pslot n slots p scope prio ts).state s) := by
  unfold State.insertRow
  dsimp only
  split
  · exact hs.count
  · cases s.freeSlotOf (s.page (slots.headD 0)).chain with
    | none => exact hs.bucketFull.count
    | some i =>
      dsimp only
      cases ha : s.allocFrame (pageDie (slots.headD 0)) (s.widest (pageDie (slots.headD 0))) (rowKib (s.profile pslot).layers) none [] with
      | waits => exact hs
      | noSpace => exact hs.count
      | got f s1 =>
        have h1 : Kept s0 s1 := hs.allocFrame_got ha
        dsimp only
        by_cases hl : (slots.any fun h => (s1.page h).life != .sealed) = true
        · rw [if_pos hl]
          show Kept s0 (s1.freeFrame (pageDie (slots.headD 0)) (some f))
          exact h1.freeFrame
        · rw [if_neg hl]
          split
          · next e =>
            have h3 := (e ▸ h1.catalogued : Kept s0 (_, _).2)
            exact h3.freeFrame.count
          · next e =>
            have h3 := (e ▸ h1.catalogued : Kept s0 (_, _).2)
            exact (Kept.foldl h3 fun _ _ hk => hk.updPage).chargeCtx.putRow

/-- The state in which a row's insertion ends. -/
theorem insertRow_in {c pslot n slots p scope prio ts} {x : Insert} (hs : Kept s0 s)
    (e : s.insertRow c pslot n slots p scope prio ts = x) : Kept s0 (x.state s) := e ▸ hs.insertRow

theorem setProgress {a} {n} (hs : Kept s0 s) : Kept s0 (s.setProgress a n) := by
  unfold State.setProgress
  exact hs.updRec

theorem publishRows {j k scope prio f n p acc} (hs : Kept s0 s) :
    Kept s0 (State.publishRows j k scope prio f n p acc s).state := by
  induction f generalizing s n p acc with
  | zero => exact hs
  | succ f ih =>
    rw [State.publishRows]
    dsimp only
    cases s.rowPages k n (s.prof k).layers with
    | none => exact hs
    | some slots =>
      dsimp only
      split
      · exact hs
      · split
        · exact ih hs
        · have h1 : Kept s0 (s.stackTreat (slots.headD 0)) := hs.stackTreat
          have h2 : Kept s0 ((s.stackTreat (slots.headD 0)).touch (slots.headD 0)) := h1.touch
          split
          · exact h1.setProgress.awaitPages
          · generalize (s.stackTreat (slots.headD 0)).touch (slots.headD 0) = s2 at h2 ⊢
            split
            · exact ih h2
            · split
              all_goals
                split
                · exact h2
                · split
                  · exact h2.setProgress.waitAlloc
                  · next e => exact h2.insertRow_in e
                  · next e => exact h2.insertRow_in e
                  · next e => exact ih (h2.insertRow_in e)

theorem publishBody {j} (hs : Kept s0 s) : Kept s0 (Machine.publishBody j s).state := by
  unfold Machine.publishBody
  dsimp only
  exact hs.walked.publishRows

theorem publishChk {j} (hs : Kept s0 s) : Kept s0 (Machine.publishChk j s).state := by
  unfold Machine.publishChk
  split
  · exact hs.Chk_ofErr
  · exact hs.withTables (fun _ hk => hk)

theorem shareRow {k} {n} {e} (hs : Kept s0 s) : Kept s0 (s.shareRow k n e) := by
  unfold State.shareRow
  dsimp only
  exact .foldl hs fun _ _ hk => .setPte (.ite hk.addRef.keep hk.addRef)

theorem tableHit {i} (hs : Kept s0 s) : Kept s0 (s.tableHit i) := by
  unfold State.tableHit
  dsimp only
  exact .ite hs (.ite hs.setPfx.domPromote hs.setPfx)

theorem findRow {c} {mask} {pid} {prev} {chain} {ts} {dom} (hs : Kept s0 s) :
    Kept s0 (s.findRow c mask pid prev chain ts dom).2 := by
  unfold State.findRow
  dsimp only
  split
  · split
    · exact hs
    · split
      · split
        · exact hs.count.tableHit
        · exact hs.count
      · split
        · exact hs.count.tableHit
        · exact hs.count
  · split
    · exact hs.count.tableHit
    · exact hs.count

theorem matchRows {c mask pid k src l n prev} (hs : Kept s0 s) :
    Kept s0 (State.matchRows c mask pid k src l n prev s).2 := by
  induction l generalizing s n prev with
  | nil => exact hs
  | cons x l ih =>
    obtain ⟨ch, dom⟩ := x
    have hk := hs.findRow (c := c) (mask := mask) (pid := pid) (prev := prev) (chain := ch) (ts := s.tokens16 (src + 64 * n)) (dom := dom)
    rw [State.matchRows]
    split
    · next e => rw [e] at hk; exact hk
    · next e =>
      rw [e] at hk
      split
      · exact hk
      · exact ih hk.shareRow.count

theorem domTouch {a} (hs : Kept s0 s) : Kept s0 (s.domTouch a) := by
  unfold State.domTouch
  split
  · exact hs.domPut
  · exact hs

theorem dirLookup {c} {mask} {chain} (hs : Kept s0 s) : Kept s0 (s.dirLookup c mask chain).2 := by
  unfold State.dirLookup
  dsimp only
  split
  · next x0 x1 he =>
      have hk : Kept _ x1 := he ▸ hs.domSearch
      exact hk
  · next x0 x1 x2 x3 x4 he =>
      have hk : Kept _ x4 := he ▸ hs.domSearch
      exact hk.domTouch

theorem dirLookups {c mask l} (hs : Kept s0 s) : Kept s0 (s.dirLookups c mask l).2 := by
  induction l generalizing s with
  | nil => exact hs
  | cons ch l ih => exact ih hs.dirLookup

theorem matchBody {j} (hs : Kept s0 s) : Kept s0 (Machine.matchBody j s).state := by
  unfold Machine.matchBody
  dsimp only
  split
  · exact hs.setSeq.succeeds
  · split
    · exact hs.setSeq.fails
    · exact .succeeds (.ctxEvent (.foldl hs.setSeq.dirLookups.matchRows fun _ _ hk => hk.setLayer))

theorem matchChk {j} (hs : Kept s0 s) : Kept s0 (Machine.matchChk j s).state := by
  unfold Machine.matchChk
  split
  · exact hs.Chk_ofErr
  · exact hs.withTables (fun _ hk => hk.Chk_ofErr)

theorem clearOpen {h} (hs : Kept s0 s) : Kept s0 (s.clearOpen h) := by
  unfold State.clearOpen
  exact .but hs

theorem sealPage {k} {l} {n} {h} (hs : Kept s0 s) : Kept s0 (s.sealPage k l n h) := by
  unfold State.sealPage
  dsimp only
  exact .ite hs (.ite hs.pokeHdr.pokeHdr.pokeHdr.freeFrame.setPage.clearOpen.startDemote hs.pokeHdr.pokeHdr.pokeHdr.freeFrame.setPage.clearOpen)

theorem sealUpTo {k l ns} (hs : Kept s0 s) : Kept s0 (s.sealUpTo k l ns).2 :=
  .foldlSnd hs fun c n hk => by
    dsimp only
    split
    · exact hk.sealPage
    · exact hk

theorem initFrame {k} {l} {n} {h} (hs : Kept s0 s) : Kept s0 (s.initFrame k l n h) := by
  unfold State.initFrame
  dsimp only
  exact hs.poke

theorem dropRef {k} {l} {n} (hs : Kept s0 s) : Kept s0 (s.dropRef k l n) := by
  unfold State.dropRef
  dsimp only
  exact .ite (.releaseRef (.ite hs.setLayer.keep hs.setLayer)) hs.setLayer

theorem pageFor {got} {k} {l} {pos} (hs : Kept s0 s) : Kept s0 (s.pageFor got k l pos).2 := by
  unfold State.pageFor
  dsimp only
  split
  · exact hs
  · split
    · exact hs
    · split
      · exact .but hs.touch.copyInto.dropRef
      · refine .but ?_
        split
        · exact .ite hs.initFrame.dropRef hs.initFrame
        · exact hs.initFrame

theorem appendPos {got k l row doSeal} (hs : Kept s0 s) :
    Kept s0 (s.appendPos got k l row doSeal) := by
  unfold State.appendPos
  extract_lets p pos t
  split
  next h s1 e =>
  have h1 : Kept s0 s1 := by
    have := hs.pageFor (got := got) (k := k) (l := l) (pos := pos)
    rw [e] at this
    exact this
  extract_lets s2 tok s3 s4 s5 y base s6
  have h2 : Kept s0 s2 := Kept.foldlSnd h1 fun _ _ hk => hk.poke
  have h3 : Kept s0 s3 := h2.pokeHdr
  have h4 : Kept s0 s4 := .ite h3.pokeHdr.updPage h3
  have h6 : Kept s0 s6 := h4.setFill.setLayer
  exact .ite h6.sealUpTo.fixOpen h6

theorem appendRows {got} {e} {stride} {prequant} {fp32} {doSeal} (hs : Kept s0 s) :
    Kept s0 (s.appendRows got e stride prequant fp32 doSeal) := by
  unfold State.appendRows
  dsimp only
  exact .foldl hs fun _ _ hk => hk.appendPos

theorem allocNeeds {busy l acc got t} (hs : Kept s0 s) (e : State.allocNeeds busy l s acc = (.ready t, got)) :
    Kept s0 t := by
  induction l generalizing s busy acc with
  | nil => cases e; exact hs
  | cons x l ih =>
    rw [State.allocNeeds] at e
    split at e
    · cases e
    · cases e
    · next hn => exact ih (hs.newOpen_got hn) e

theorem appendRun {j d es} (hs : Kept s0 s) : Kept s0 (Machine.appendRun j d es s).state := by
  unfold Machine.appendRun
  extract_lets ls p fp32 stride all stuck todo needs busy r0 lost ms moved
  split
  · exact hs
  · split
    · exact hs
    · split
      · exact Kept.waitAlloc (hs.use : Kept s0 r0)
      · exact hs
      · next e =>
        have hk := Kept.allocNeeds (hs.use : Kept s0 r0) e
        extract_lets s2 s3
        split
        · exact hs
        · exact .hearthBytes (.writeMisses (.foldl (.foldl hk fun _ _ hk => hk.appendRows) fun _ _ hk => hk.walk))

theorem appendBody {j} (hs : Kept s0 s) : Kept s0 (Machine.appendBody j s).state := by
  unfold Machine.appendBody
  dsimp only
  exact .appendRun (.foldl hs fun _ _ hk => hk.walked)

theorem tableChk {j} {d} {full : State → Chk} (hs : Kept s0 s) (hfull : ∀ t0, Kept s0 t0 → Kept s0 (full t0).state) :
    Kept s0 (s.tableChk j d full).state := by
  unfold State.tableChk
  dsimp only
  split
  · exact hfull _ hs
  · exact hs.withTables (fun _ hk => hfull _ hk)

theorem appendChk {j} (hs : Kept s0 s) : Kept s0 (Machine.appendChk j s).state := by
  unfold Machine.appendChk
  split
  · exact hs.Chk_ofErr
  · exact hs.tableChk (fun _ hk => hk.Chk_ofErr)

theorem fetchCopy {a} {size} {fs} (hs : Kept s0 s) : Kept s0 (s.fetchCopy a size fs) := by
  unfold State.fetchCopy
  exact .foldl hs fun _ _ hk => hk.engineRead.poke

theorem fetchWalk {k l} (hs : Kept s0 s) : Kept s0 (s.fetchWalk k l).2.2.2 := by
  induction l generalizing s with
  | nil => exact hs
  | cons x l ih =>
    obtain ⟨t, ly, n⟩ := x
    have hk := ih (hs.walk (k := k) (l := ly) (n := n))
    unfold State.fetchWalk
    dsimp only
    split <;> exact hk

theorem fetchBody {j} (hs : Kept s0 s) : Kept s0 (Machine.fetchBody j s).state := by
  unfold Machine.fetchBody
  extract_lets k cnt size ls todo src
  have h1 : Kept s0 ((s.walked k).fetchWalk k todo).2.2.2 := hs.walked.fetchWalk
  generalize (s.walked k).fetchWalk k todo = p at h1 ⊢
  obtain ⟨fs, away, gone, s1⟩ := p
  dsimp only at h1 ⊢
  have h2 := (h1.fetchCopy (a := j.w2.toNat) (size := size) (fs := fs)).hearthBytes
    (j := j) (n := 2 * size * fs.length)
  generalize (s1.fetchCopy j.w2.toNat size fs).hearthBytes j (2 * size * fs.length) = s2 at h2 ⊢
  split
  · exact h2
  · split
    · exact h2.keepSnap.awaitPages
    · exact h2

theorem fetchChk {j} (hs : Kept s0 s) : Kept s0 (Machine.fetchChk j s).state := by
  unfold Machine.fetchChk
  dsimp only
  split
  · exact hs.Chk_ofErr
  · exact hs.withTables (fun _ hk => hk.Chk_ofErr)

theorem sealBody {j} (hs : Kept s0 s) : Kept s0 (Machine.sealBody j s).state := by
  unfold Machine.sealBody
  exact .foldlSnd hs.walked fun _ _ hk => hk.sealUpTo

theorem stageWalk {l} (hs : Kept s0 s) : Kept s0 (s.stageWalk l).2.2.2 := by
  induction l generalizing s with
  | nil => exact hs
  | cons x l ih => exact ih hs.walkAll

theorem stageBody {j} (hs : Kept s0 s) : Kept s0 (Machine.stageBody j s).state := by
  unfold Machine.stageBody
  extract_lets d old src
  split
  next hits away ms s1 e =>
  have h1 : Kept s0 s1 := by
    have := (Kept.foldl (l := s.entries j.w0.toNat d.count) hs fun _ e hk => hk.walked (k := e.key)).stageWalk
      (l := (s.stageSpans j).zip (j.snap.lens.zip j.snap.bases))
    rw [e] at this
    exact this
  extract_lets away asked s2 promoted
  have h2 : Kept s0 s2 := .foldl h1 fun _ _ hk => hk.request
  clear_value s2 promoted
  clear_value asked away
  by_cases ha : away.isEmpty = true
  · rw [if_pos ha]
    dsimp only [Out.state]
    exact h2.writeMisses
  · rw [if_neg ha]
    clear_value src old
    cases j.prev with
    | none => exact h2.keepSnap.setProgress
    | some w =>
      cases w with
      | expired _ => exact h2
      | _ => exact h2.keepSnap.setProgress

theorem stageChk {j} (hs : Kept s0 s) : Kept s0 (Machine.stageChk j s).state := by
  unfold Machine.stageChk
  split
  · exact hs.Chk_ofErr
  · exact hs.tableChk (fun _ hk => hk)

theorem queryBody {j} (hs : Kept s0 s) : Kept s0 (Machine.queryBody j s).state := by
  unfold Machine.queryBody
  dsimp only
  exact hs.walked.succeeds

theorem tablesChk {j} (hs : Kept s0 s) : Kept s0 (Machine.tablesChk j s).state := by
  unfold Machine.tablesChk
  split
  · exact hs.Chk_ofErr
  · exact hs.withTables (fun _ hk => hk)

theorem keepPte {k} {l} {slot} {kept} (hs : Kept s0 s) : Kept s0 (s.keepPte k l slot kept) := by
  unfold State.keepPte
  dsimp only
  exact .ite hs.setLayer.keep hs

theorem forbidDemote {h} (hs : Kept s0 s) : Kept s0 (s.forbidDemote h) := by
  unfold State.forbidDemote
  dsimp only
  exact .ite hs.releaseCopy.updPage (.ite hs.request hs)

theorem hintPage {h} {m} {clear} (hs : Kept s0 s) : Kept s0 (s.hintPage h m clear) := by
  unfold State.hintPage
  dsimp only
  exact .ite hs (.ite (.relist (.ite (.request (.ite hs.setPage.forbidDemote hs.setPage)) (.ite hs.setPage.forbidDemote hs.setPage))) (.grantPin (.relist (.ite (.request (.ite hs.setPage.forbidDemote hs.setPage)) (.ite hs.setPage.forbidDemote hs.setPage)))))

theorem hintLayer {c} {k} {l} {m} {clear} (hs : Kept s0 s) :
    Kept s0 (s.hintLayer c k l m clear) := by
  unfold State.hintLayer
  dsimp only
  exact .foldl hs fun _ _ hk => .ite hk (.ite (.keepPte (.ite hk.hintPage hk)) (.ite hk.hintPage hk))

theorem hintObj {w} {m} {clear} (hs : Kept s0 s) : Kept s0 (s.hintObj w m clear) := by
  unfold State.hintObj
  dsimp only
  exact .foldl hs.setWobj fun _ _ hk => hk.hintPage

theorem hintBody {j} (hs : Kept s0 s) : Kept s0 (Machine.hintBody j s).state := by
  unfold Machine.hintBody
  dsimp only
  split
  · exact hs.hintObj.succeeds
  · exact .succeeds (.foldl hs.setSeq fun _ _ hk => hk.hintLayer)

theorem hintChk {j} (hs : Kept s0 s) : Kept s0 (Machine.hintChk j s).state := by
  unfold Machine.hintChk
  split
  · exact hs.Chk_ofErr
  · split
    · exact hs.Chk_ofErr
    · exact hs.withTables (fun _ hk => hk)

theorem createBody {j} (hs : Kept s0 s) : Kept s0 (Machine.createBody j s).state := by
  unfold Machine.createBody
  dsimp only
  split
  · exact hs.fails
  · split
    · exact hs.fails
    · exact hs.newSeq.succeeds

theorem createChk {j} (hs : Kept s0 s) : Kept s0 (Machine.createChk j s).state := by
  unfold Machine.createChk
  exact hs.Chk_ofErr

theorem shorten {k} {l} {len} (hs : Kept s0 s) : Kept s0 (s.shorten k l len) := by
  unfold State.shorten
  dsimp only
  exact .ite hs (.fixOpen (.setLayer (.foldl hs fun _ _ hk => hk.dropRef)))

theorem reopen {p} {h} {fill} (hs : Kept s0 s) : Kept s0 (s.reopen p h fill) := by
  unfold State.reopen
  dsimp only
  exact .setFill (.zeroSlots (.pokeHdr (.pokeHdr (.pokeHdr (.updPage (.ite hs.releaseCopy hs))))))

theorem newMirror {h} (hs : Kept s0 s) : Kept s0 ((s.newMirror h).state s) := by
  unfold State.newMirror
  dsimp only
  split
  · exact hs.allocFrame
  · exact hs
  · exact hs

theorem cutLayer {k} {l} {len} (hs : Kept s0 s) : Kept s0 ((s.cutLayer k l len).state s) := by
  unfold State.cutLayer
  dsimp only
  split
  · split
    · exact hs
    · exact hs
    · next x0 x1 x2 he =>
        have hk : Kept _ x2 := he ▸ hs.newMirror
        exact .but (.pokeHdr (.zeroSlots (.pokeHdr (.pokeHdr (.pokeHdr (.updPage (.ite hk.updPage.releaseCopy hk.updPage)))))))
  · split
    · exact hs
    · exact hs
    · next x0 x1 x2 he =>
        have hk : Kept _ x2 := he ▸ hs.newOpen
        exact .but hk.touch.copyInto.dropRef
  · exact .but (.ite (.releaseRef (.ite hs.keep hs)) hs)
  · exact hs

theorem cutLayers {k len ls t} (hs : Kept s0 s) (e : State.cutLayers k len ls s = .ready t) :
    Kept s0 t := by
  induction ls generalizing s with
  | nil => cases e; exact hs
  | cons l ls ih =>
    have hk := hs.cutLayer (k := k) (l := l) (len := len)
    rw [State.cutLayers] at e
    split at e
    · next hc => rw [hc] at hk; exact ih hk e
    · cases e
    · cases e

theorem relive {k} (hs : Kept s0 s) : Kept s0 (s.relive k) := by
  unfold State.relive
  dsimp only
  exact hs.setSeq

theorem truncRun {k} {len} {j} (hs : Kept s0 s) : Kept s0 (Machine.truncRun k len j s).state := by
  unfold Machine.truncRun
  dsimp only
  split
  · split
    · next x0 x1 x2 he =>
        have hk : Kept _ x2 := he ▸ hs.awaitPages
        exact hk.relive
    · exact hs.awaitPages
  · split
    · exact hs
    · split
      · exact hs.use.waitAlloc
      · exact hs.relive
      · next x0 x1 he =>
          have hk : Kept _ x1 := .cutLayers hs.use he
          split
          · exact .succeeds (.relive (.foldl hk fun _ _ hk1 => hk1.shorten))
          · exact .relive (.foldl hk fun _ _ hk1 => hk1.shorten)

theorem goOn {op a} {body : Job → Wait → State → Option Out} (hs : Kept s0 s)
    (hbody : ∀ j w t o, Kept s0 t → body j w t = some o → Kept s0 o.state) : Kept s0 (Machine.goOn op a body s) := by
  unfold Machine.goOn
  split
  · exact hs
  · split
    · split
      · split
        · next e => exact (Kept.settleOut (hbody _ _ _ _ hs e)).markFree
        · exact hs
      · exact hs
    · exact hs

theorem truncGo {j w o} (hs : Kept s0 s) (e : Machine.truncGo j w s = some o) :
    Kept s0 o.state := by
  unfold Machine.truncGo at e
  split at e
  · cases e
  · split at e
    · cases e; exact hs.truncRun
    · cases e

/-- What an instruction that resumes goes through keeps what its checks and its work keep. -/
theorem resumption {op check body} (e : Machine.resumption op = some (check, body)) :
    (∀ j t, Kept s0 t → Kept s0 (check j t).state) ∧ (∀ j t, Kept s0 t → Kept s0 (body j t).state) := by
  unfold Machine.resumption at e
  split at e <;> cases e
  · exact ⟨fun _ _ h => h.createChk, fun _ _ h => h.createBody⟩
  · exact ⟨fun _ _ h => h.hintChk, fun _ _ h => h.hintBody⟩
  · exact ⟨fun _ _ h => h.tablesChk, fun _ _ h => h.queryBody⟩
  · exact ⟨fun _ _ h => h.stageChk, fun _ _ h => h.stageBody⟩
  · exact ⟨fun _ _ h => h.tablesChk, fun _ _ h => h.sealBody⟩
  · exact ⟨fun _ _ h => h.fetchChk, fun _ _ h => h.fetchBody⟩
  · exact ⟨fun _ _ h => h.appendChk, fun _ _ h => h.appendBody⟩
  · exact ⟨fun _ _ h => h.matchChk, fun _ _ h => h.matchBody⟩
  · exact ⟨fun _ _ h => h.publishChk, fun _ _ h => h.publishBody⟩
  · exact ⟨fun _ _ h => h.forkChk, fun _ _ h => h.forkBody⟩
  · exact ⟨fun _ _ h => h.tablesChk, fun _ _ h => h.withdrawBody⟩
  · exact ⟨fun _ _ h => h.attDecodeChk, fun _ _ h => h.attDecodeBody⟩
  · exact ⟨fun _ _ h => h.attPrefillChk, fun _ _ h => h.attPrefillBody⟩
  · exact ⟨fun _ _ h => h.mergeChk, fun _ _ h => h.mergeBody⟩
  · exact ⟨fun _ _ h => h.attBwdChk, fun _ _ h => h.attBwdBody⟩

theorem rerun {a} (hs : Kept s0 s) : Kept s0 (s.rerun a) := by
  unfold State.rerun
  split
  · exact hs
  · extract_lets op
    split
    · exact hs.goOn fun j w t o hk e => hk.truncGo e
    · split
      · next b e =>
        obtain ⟨check, body⟩ := b
        obtain ⟨hcheck, hbody⟩ := resumption (s0 := s0) e
        exact hs.runHob hcheck hbody
      · exact hs

theorem expire {a} {y2} (hs : Kept s0 s) : Kept s0 (s.expire a y2) := by
  unfold State.expire
  exact hs.updRec.rerun

theorem boundExpiry {w} {h} (hs : Kept s0 s) : Kept s0 (s.boundExpiry w h) := by
  unfold State.boundExpiry
  dsimp only
  split
  · split
    · exact hs
    · split
      · exact hs
      · exact .ite hs.count.expire hs
  · split
    · exact .ite hs.count.poisonLoad hs
    · exact hs

theorem execResidencyBoundExpiry {waiter} {handle} (hs : Kept s0 s) :
    Kept s0 (stateAfter s (Machine.execResidencyBoundExpiry waiter handle s)) := by
  unfold Machine.execResidencyBoundExpiry
  exact hs.boundExpiry

theorem tablesBack {k} (hs : Kept s0 s) : Kept s0 (s.tablesBack k) := by
  unfold State.tablesBack
  dsimp only
  exact .setSeq (.foldl hs.setReqs fun _ _ hk => hk.coalRelease)

theorem countLost (hs : Kept s0 s) : Kept s0 s.countLost := by
  unfold State.countLost
  dsimp only
  exact .count (.same hs rfl)

theorem tablesLost {k} (hs : Kept s0 s) : Kept s0 (s.tablesLost k) := by
  unfold State.tablesLost
  dsimp only
  exact .setSeq (.foldl hs.tablesBack fun _ _ hk => hk.releaseRef)

theorem promoteTables {k} {r} {read} {authOk} (hs : Kept s0 s) :
    Kept s0 (s.promoteTables k r read authOk) := by
  unfold State.promoteTables
  dsimp only
  exact .ite hs.readRecords.countLost.tablesLost (.ite hs.readRecords.tablesLost hs.readRecords.tablesBack)

theorem hostData {a} {n} (hs : Kept s0 s) : Kept s0 (s.hostData a n) := by
  unfold State.hostData
  dsimp only
  split
  · exact .s2m (.ite hs.count.countAo hs)
  · exact hs.s2m

theorem serveView {h} {a} {n} (hs : Kept s0 s) : Kept s0 (s.serveView h a n) := by
  unfold State.serveView
  exact hs.touch.count.hostData

theorem serveLoads {h} (hs : Kept s0 s) : Kept s0 (s.serveLoads h) := by
  unfold State.serveLoads
  dsimp only
  exact .endBinds (.foldl (.but hs) fun _ _ hk => hk.silently (fun _ hk1 => hk1.serveView))

theorem openChunk {h} (hs : Kept s0 s) : Kept s0 (s.openChunk h) := by
  unfold State.openChunk
  split
  · exact .ite hs hs.poke
  · exact hs

theorem promoted {h} {r} (hs : Kept s0 s) : Kept s0 (s.promoted h r) := by
  unfold State.promoted
  dsimp only
  refine .serveLoads (.trace ?_)
  split
  · exact .ctxEvent (.count (.relist (.ite hs.setPage.setReqs.openChunk.updPage.releaseCopy hs.setPage.setReqs.openChunk)))
  · exact .ctxEvent (.count (.relist (.ite hs.setPage.setReqs.openChunk.updPage.releaseCopy hs.setPage.setReqs.openChunk)))
  · exact .count (.relist (.ite hs.setPage.setReqs.openChunk.updPage.releaseCopy hs.setPage.setReqs.openChunk))

theorem eachWaiter {h} {f : State → At → List Nat → State} (hs : Kept s0 s) (hf : ∀ t0 t1 t2, Kept s0 t0 → Kept s0 (f t0 t1 t2)) :
    Kept s0 (s.eachWaiter h f) := by
  unfold State.eachWaiter
  refine .foldl hs ?_
  intro s1 r hk
  split
  · exact hk
  · split
    · exact .ite (hf _ _ _ hk) hk
    · exact hk

theorem loseWaiters {h} (hs : Kept s0 s) : Kept s0 (s.loseWaiters h) := by
  unfold State.loseWaiters
  exact .eachWaiter (.foldl hs fun _ _ hk => hk.poisonLoad) (fun _ _ _ hk => hk.rerun)

theorem promotionLost {h} (hs : Kept s0 s) : Kept s0 (s.promotionLost h) := by
  unfold State.promotionLost
  exact hs.losePage.count.countAo.loseWaiters

theorem promotePage {h} {r} {read} {authOk} (hs : Kept s0 s) :
    Kept s0 (s.promotePage h r read authOk) := by
  unfold State.promotePage
  dsimp only
  exact .ite hs.setReqs (.ite hs.setReqs.countLost.promotionLost (.ite hs.readRecords.setReqs.countLost.promotionLost (.ite hs.readRecords.setReqs.promotionLost hs.readRecords.promoted)))

theorem promotionDone {h} {read} {authOk} (hs : Kept s0 s) :
    Kept s0 (s.promotionDone h read authOk) := by
  unfold State.promotionDone
  dsimp only
  split
  · exact hs
  · exact .ite hs (.settle (.ite hs.promotePage hs.promoteTables))

theorem execPromotionComplete {handle} {read} {authOk} (hs : Kept s0 s) :
    Kept s0 (stateAfter s (Machine.execPromotionComplete handle read authOk s)) := by
  unfold Machine.execPromotionComplete
  exact hs.promotionDone

theorem reach {d} {r} (hs : Kept s0 s) : Kept s0 (s.reach d r) := by
  unfold State.reach
  dsimp only
  exact .ite (hs.setHalf rfl) hs

theorem startTables {d} {r} (hs : Kept s0 s) : Kept s0 (s.startTables d r) := by
  unfold State.startTables
  dsimp only
  exact .reach (.updReq (hs.newHalf (by simp)))

theorem expireWaiters {h} (hs : Kept s0 s) : Kept s0 (s.expireWaiters h) := by
  unfold State.expireWaiters
  exact .eachWaiter (.foldl hs fun _ _ hk => hk.poisonLoad) (fun _ _ _ hk => hk.expire)

theorem abandonPromotion {d} {r} (hs : Kept s0 s) : Kept s0 (s.abandonPromotion d r) := by
  unfold State.abandonPromotion
  dsimp only
  exact .ite hs.setReqs.dropPage.count.loseWaiters hs.setReqs.updPage.expireWaiters

theorem startPromotion {d} {r} (hs : Kept s0 s) : Kept s0 (s.startPromotion d r) := by
  unfold State.startPromotion
  dsimp only
  refine .ite hs.setReqs ?_
  split
  · next x0 x1 x2 he =>
      have hk : Kept _ x2 := he ▸ hs.allocFrame
      exact .reach (.updReq (hk.updReq.updPage.newHalf (by simp)))
  · exact hs.updReq.allocWaits
  · exact hs.abandonPromotion

theorem issuePromotion {d} (hs : Kept s0 s) : Kept s0 (s.issuePromotion d) := by
  unfold State.issuePromotion
  dsimp only
  refine .ite hs ?_
  split
  · exact hs
  · exact .ite hs.startPromotion hs.startTables

theorem execPromotionIssue {die} (hs : Kept s0 s) :
    Kept s0 (stateAfter s (Machine.execPromotionIssue die s)) := by
  unfold Machine.execPromotionIssue
  exact hs.issuePromotion

theorem execFluePortDown {port} {lane} (hs : Kept s0 s) :
    Kept s0 (stateAfter s (Machine.execFluePortDown port lane s)) := by
  unfold Machine.execFluePortDown
  exact .next (.ite (hs.portDown.recheck.fault (fun _ hk => hk)) hs)

theorem portUp {p} {phy} (hs : Kept s0 s) : Kept s0 (s.portUp p phy) := by
  unfold State.portUp
  dsimp only
  exact .ite hs.refillDue (.pumpAll (.pfcUpdate (.sendMka (.but hs.refillDue.setPort))))

theorem execFluePortUp {port} {phy} (hs : Kept s0 s) :
    Kept s0 (stateAfter s (Machine.execFluePortUp port phy s)) := by
  unfold Machine.execFluePortUp
  exact .ite hs.portUp.recheck hs

theorem execGateEntryBoundary {port} (hs : Kept s0 s) :
    Kept s0 (stateAfter s (Machine.execGateEntryBoundary port s)) := by
  unfold Machine.execGateEntryBoundary
  exact hs.gateBoundary

theorem execGateScheduleSwitch {port} (hs : Kept s0 s) :
    Kept s0 (stateAfter s (Machine.execGateScheduleSwitch port s)) := by
  unfold Machine.execGateScheduleSwitch
  exact hs.gateSwitch

theorem execPolicerRefill (hs : Kept s0 s) :
    Kept s0 (stateAfter s (Machine.execPolicerRefill s)) := by
  unfold Machine.execPolicerRefill
  exact .ite hs hs.refillDue

theorem frameLeft {p} {f} (hs : Kept s0 s) : Kept s0 (s.frameLeft p f) := by
  unfold State.frameLeft
  dsimp only
  split
  · exact hs
  · refine .ite hs ?_
    split
    · refine .setTx (.ite (.trace ?_) ?_)
      · split
        · exact .ite hs.count.ctxEvent.ctxEvent.updRec hs.count.ctxEvent.ctxEvent
        · exact hs.count.ctxEvent.ctxEvent
      · split
        · exact .ite hs.count.ctxEvent.ctxEvent.updRec hs.count.ctxEvent.ctxEvent
        · exact hs.count.ctxEvent.ctxEvent
    · refine .ite (.trace ?_) ?_
      · split
        · exact .ite hs.count.ctxEvent.ctxEvent.updRec hs.count.ctxEvent.ctxEvent
        · exact hs.count.ctxEvent.ctxEvent
      · split
        · exact .ite hs.count.ctxEvent.ctxEvent.updRec hs.count.ctxEvent.ctxEvent
        · exact hs.count.ctxEvent.ctxEvent

theorem gateWaits {p} {t} (hs : Kept s0 s) : Kept s0 (s.gateWaits p t) := by
  unfold State.gateWaits
  dsimp only
  exact hs.setPort.count

theorem sendFrame {p} (hs : Kept s0 s) : Kept s0 (s.sendFrame p) := by
  unfold State.sendFrame
  dsimp only
  refine .ite hs.gateDue.gateWaits ?_
  split
  · exact hs.gateDue.gateWaits
  · exact hs.gateDue.gateWaits.setPort.frameLeft.endClose

theorem execEgressFrameSend {port} (hs : Kept s0 s) :
    Kept s0 (stateAfter s (Machine.execEgressFrameSend port s)) := by
  unfold Machine.execEgressFrameSend
  exact hs.sendFrame

theorem releaseEvent {c} {e} (hs : Kept s0 s) : Kept s0 (s.releaseEvent c e) := by
  unfold State.releaseEvent
  refine .foldl hs ?_
  intro s1 r hk
  split
  · exact .ite hk.finish hk
  · exact hk

theorem signal {c} {e} {v} {set} (hs : Kept s0 s) : Kept s0 (s.signal c e v set) := by
  unfold State.signal
  dsimp only
  exact hs.setCtx.releaseEvent

theorem sendAck {n} {seq} {status} {base} {idx} (hs : Kept s0 s) :
    Kept s0 (s.sendAck n seq status base idx) := by
  unfold State.sendAck
  dsimp only
  split
  · exact hs
  · exact hs.sendControl

theorem releaseInbound {n} (hs : Kept s0 s) : Kept s0 (s.releaseInbound n) := by
  unfold State.releaseInbound
  dsimp only
  exact hs.finishWaits

theorem markDone {n} {seq} (hs : Kept s0 s) : Kept s0 (s.markDone n seq) := by
  unfold State.markDone
  dsimp only
  exact hs.setConn

theorem completeRx {n} {seq} (hs : Kept s0 s) : Kept s0 (s.completeRx n seq) := by
  unfold State.completeRx
  dsimp only
  exact hs.markDone.setConn.sendAck.releaseInbound

theorem grantCredit {n} {q} {is} (hs : Kept s0 s) : Kept s0 (s.grantCredit n q is) := by
  unfold State.grantCredit
  dsimp only
  exact hs.setConn

theorem setRx {n} {m} (hs : Kept s0 s) : Kept s0 (s.setRx n m) := by
  unfold State.setRx
  dsimp only
  exact hs.setConn

theorem writePacket {n} {m} {h} (hs : Kept s0 s) : Kept s0 (s.writePacket n m h) := by
  unfold State.writePacket
  dsimp only
  refine .ite ?_ (.grantCredit ?_)
  · split
    · refine .markFree (.signal (.completeRx (.grantCredit ?_)))
      split
      · exact hs.poke.ctxEvent.setRx.keyDown
      · exact hs.poke.ctxEvent.setRx
    · refine .completeRx (.grantCredit ?_)
      split
      · exact hs.poke.ctxEvent.setRx.keyDown
      · exact hs.poke.ctxEvent.setRx
  · split
    · exact hs.poke.ctxEvent.setRx.keyDown
    · exact hs.poke.ctxEvent.setRx

theorem writeHeld {k n} (hs : Kept s0 s) : Kept s0 (s.writeHeld k n) := by
  induction k generalizing s with
  | zero => exact hs
  | succ k ih =>
    rw [State.writeHeld]
    split
    · exact hs
    · exact ih hs.writePacket

theorem snoopHeld {n} (hs : Kept s0 s) : Kept s0 (s.snoopHeld n) := by
  unfold State.snoopHeld
  dsimp only
  exact .ite hs hs.sendSnoops

theorem beginMsg {n} {m} (hs : Kept s0 s) : Kept s0 (s.beginMsg n m).2 := by
  unfold State.beginMsg
  dsimp only
  exact hs.setConn.pumpConn

theorem answerRead {n} {key} {k} (hs : Kept s0 s) : Kept s0 (s.answerRead n key k) := by
  unfold State.answerRead
  exact hs.beginMsg

theorem failMsg {n} {seq} {i} {status} (hs : Kept s0 s) : Kept s0 (s.failMsg n seq i status) := by
  unfold State.failMsg
  dsimp only
  exact .sendAck (.grantCredit (.markDone (.setRx (.foldl (.ite hs.setConn hs) fun _ _ hk => hk.keyDown))))

theorem beginReads {k n} (hs : Kept s0 s) : Kept s0 (s.beginReads k n) := by
  induction k generalizing s with
  | zero => exact hs
  | succ k ih =>
    rw [State.beginReads]
    dsimp only
    split
    · exact hs
    · split
      · exact hs
      · split
        · exact hs.sendSnoops
        · refine ih ?_
          split
          · exact hs.setConn.countFailure.keyDown.failMsg
          · exact hs.setConn.answerRead

theorem crcFail {n} {m} (hs : Kept s0 s) : Kept s0 (s.crcFail n m) := by
  unfold State.crcFail
  dsimp only
  exact .sendAck (.count (.setRx (.grantCredit (.foldl hs fun _ _ hk => hk.keyDown))))

theorem flushConn {n} (hs : Kept s0 s) : Kept s0 (s.flushConn n) := by
  unfold State.flushConn
  dsimp only
  exact .pfcBoth (.writeHeld (.snoopHeld (.beginReads (.foldl hs fun _ _ hk => hk.crcFail))))

theorem winAck {n} {seq} (hs : Kept s0 s) : Kept s0 (s.winAck n seq) := by
  unfold State.winAck
  dsimp only
  split
  · exact hs
  · exact .ite (.finishWaits (.but hs)) (.but hs)

theorem endTx {n} {seq} {d} (hs : Kept s0 s) : Kept s0 (s.endTx n seq d) := by
  unfold State.endTx
  dsimp only
  split
  · exact hs
  · refine .flushConn ?_
    split
    · refine .completeRx ?_
      split
      · refine .ite (.keyDown (.ite (.winAck ?_) ?_)) (.ite (.winAck ?_) ?_)
        · split
          · exact hs.setConn.finish.markFree
          · exact hs.setConn
        · split
          · exact hs.setConn.finish.markFree
          · exact hs.setConn
        · split
          · exact hs.setConn.finish.markFree
          · exact hs.setConn
        · split
          · exact hs.setConn.finish.markFree
          · exact hs.setConn
      · refine .ite (.winAck ?_) ?_
        · split
          · exact hs.setConn.finish.markFree
          · exact hs.setConn
        · split
          · exact hs.setConn.finish.markFree
          · exact hs.setConn
    · split
      · refine .ite (.keyDown (.ite (.winAck ?_) ?_)) (.ite (.winAck ?_) ?_)
        · split
          · exact hs.setConn.finish.markFree
          · exact hs.setConn
        · split
          · exact hs.setConn.finish.markFree
          · exact hs.setConn
        · split
          · exact hs.setConn.finish.markFree
          · exact hs.setConn
        · split
          · exact hs.setConn.finish.markFree
          · exact hs.setConn
      · refine .ite (.winAck ?_) ?_
        · split
          · exact hs.setConn.finish.markFree
          · exact hs.setConn
        · split
          · exact hs.setConn.finish.markFree
          · exact hs.setConn

theorem linkDown (hs : Kept s0 s) : Kept s0 s.linkDown := by
  unfold State.linkDown
  refine .markFree (.foldl hs ?_)
  intro s1 r hk
  split
  · exact .ite hk.endTx hk
  · exact hk

theorem msgTimeout {n} {seq} (hs : Kept s0 s) : Kept s0 (s.msgTimeout n seq) := by
  unfold State.msgTimeout
  dsimp only
  split
  · exact hs
  · refine .ite hs (.ite hs.linkDown (.ite hs.closeConn ?_))
    split
    · exact hs.setConn.resendMsg
    · exact hs.setConn

theorem execMessageTimeout {conn} {msgSeq} (hs : Kept s0 s) :
    Kept s0 (stateAfter s (Machine.execMessageTimeout conn msgSeq s)) := by
  unfold Machine.execMessageTimeout
  exact hs.msgTimeout

theorem linkReplay {n} {seq} {i} (hs : Kept s0 s) : Kept s0 (s.linkReplay n seq i) := by
  unfold State.linkReplay
  dsimp only
  split
  · exact hs
  · split
    · exact hs
    · refine .ite hs ?_
      split
      · exact hs
      · exact hs.setTx.sendPacket.count.countAo

theorem execLinkReplay {conn} {msgSeq} {pktIdx} (hs : Kept s0 s) :
    Kept s0 (stateAfter s (Machine.execLinkReplay conn msgSeq pktIdx s)) := by
  unfold Machine.execLinkReplay
  exact hs.linkReplay

theorem sendProgress {n} {seq} (hs : Kept s0 s) : Kept s0 (s.sendProgress n seq) := by
  unfold State.sendProgress
  dsimp only
  split
  · exact hs
  · exact .setConn (.foldl hs fun _ _ hk => hk.sendAck)

theorem ackDelay {n} {seq} (hs : Kept s0 s) : Kept s0 (s.ackDelay n seq) := by
  unfold State.ackDelay
  split
  · split
    · exact .ite hs.sendProgress hs
    · exact hs
  · exact hs

theorem execAckDelayExpiry {conn} {msgSeq} (hs : Kept s0 s) :
    Kept s0 (stateAfter s (Machine.execAckDelayExpiry conn msgSeq s)) := by
  unfold Machine.execAckDelayExpiry
  exact hs.ackDelay

theorem mkaFrame {p} {ckn} {agreed} (hs : Kept s0 s) : Kept s0 (s.mkaFrame p ckn agreed) := by
  unfold State.mkaFrame
  dsimp only
  split
  · exact .ite hs.setPort.sendMka.pumpAll hs
  · exact .ite hs.sendMka hs
  · exact hs

theorem execMkaFrameReceive {port} {ckn} {agreed} (hs : Kept s0 s) :
    Kept s0 (stateAfter s (Machine.execMkaFrameReceive port ckn agreed s)) := by
  unfold Machine.execMkaFrameReceive
  exact hs.mkaFrame

theorem receivePfc {p} {prio} {pause} (hs : Kept s0 s) : Kept s0 (s.receivePfc p prio pause) := by
  unfold State.receivePfc
  dsimp only
  exact .ite hs (.ite hs.setPort hs.setPort)

theorem execPfcReceive {port} {prio} {pauseNs} (hs : Kept s0 s) :
    Kept s0 (stateAfter s (Machine.execPfcReceive port prio pauseNs s)) := by
  unfold Machine.execPfcReceive
  exact hs.receivePfc

theorem keyUp {i} (hs : Kept s0 s) : Kept s0 (s.keyUp i) := by
  unfold State.keyUp
  dsimp only
  split
  · exact hs
  · exact .but hs

theorem acceptRead {n} {key} {k} (hs : Kept s0 s) : Kept s0 (s.acceptRead n key k) := by
  unfold State.acceptRead
  dsimp only
  exact hs.keyUp.setConn.count.grantCredit.flushConn

theorem failRx {n} {seq} {i} {status} {key} (hs : Kept s0 s) :
    Kept s0 (s.failRx n seq i status key) := by
  unfold State.failRx
  dsimp only
  exact .flushConn (.ite hs.failMsg.count hs.failMsg)

theorem dropCredit {n} {k} (hs : Kept s0 s) : Kept s0 (s.dropCredit n k) := by
  unfold State.dropCredit
  exact .ite hs.grantCredit hs

theorem dupRx {n} {k} (hs : Kept s0 s) : Kept s0 (s.dupRx n k) := by
  unfold State.dupRx
  dsimp only
  refine .ite hs.count ?_
  split
  · exact hs.count.sendAck
  · exact .sendAck (.ite hs.count hs.count.setRx.grantCredit)

theorem noConn {n} {p} (hs : Kept s0 s) : Kept s0 (s.noConn n p) := by
  unfold State.noConn
  dsimp only
  exact .ite hs.count.setConn.sendControl hs.count

theorem authentic {p} {n} {k} {go : State → State} (hs : Kept s0 s) (hgo : ∀ t0, Kept s0 t0 → Kept s0 (go t0)) :
    Kept s0 (s.authentic p n k go) := by
  unfold State.authentic
  dsimp only
  exact .ite hs.noConn (.ite hs.count (.ite hs.count (.ite hs.count (hgo _ hs.setConn))))

theorem ingress {p n pkt} (hs : Kept s0 s) : Kept s0 (s.ingress p n pkt).2 := by
  unfold State.ingress
  extract_lets s1 cls0 x
  have h1 : Kept s0 s1 := hs.refillDue
  split
  · exact h1
  · split
    next v s2 e =>
    have h2 : Kept s0 s2 := by
      split at e
      · have := h1.classify (d := p) (key := clsKey n x.ctx.toNat x.cls.toNat pkt.type.toNat 0 p.num (pktFinal pkt) (pktResend pkt) pkt.raddr.toNat)
        rw [e] at this
        exact this
      · cases e
        exact h1
    extract_lets cls b pc px k put src s3 marked s4 s5
    split
    · exact h2.count
    · split
      · exact h2.count
      · have h3 : Kept s0 s3 := .but h2
        have h4 : Kept s0 s4 := .ite h3.count h3
        have h5 : Kept s0 s5 := .ite h4.count h4
        split
        · exact h5.count
        · exact h5

theorem policed {p} {n} {k} {go : Nat → State → State} (hs : Kept s0 s) (hgo : ∀ t0 t1, Kept s0 t1 → Kept s0 (go t0 t1)) :
    Kept s0 (s.policed p n k go) := by
  unfold State.policed
  refine .ite hs.noConn ?_
  split
  · next x0 x1 he =>
      have hk : Kept _ x1 := he ▸ hs.ingress
      exact hk.dropCredit
  · next x0 x1 x2 he =>
      have hk : Kept _ x2 := he ▸ hs.ingress
      exact hgo _ _ hk

theorem malformedCredit {k} (hs : Kept s0 s) : Kept s0 (s.malformedCredit k) := by
  unfold State.malformedCredit
  dsimp only
  exact .ite hs.count.dropCredit hs.count

theorem macsecIn {p} {tag : Option SecTag} {t : State} (hs : Kept s0 s) (e : s.macsecIn p tag = some t) :
    Kept s0 t := by
  unfold State.macsecIn at e
  dsimp only at e
  split at e
  · cases e; exact hs
  · cases e
  · cases e
  · split at e
    · cases e; exact hs.setPort
    · cases e

theorem takePacket {p type k} {go : Nat → State → State} (hs : Kept s0 s) (hgo : ∀ n t, Kept s0 t → Kept s0 (go n t)) :
    Kept s0 (s.takePacket p type k go) := by
  unfold State.takePacket
  split
  · exact .ite hs.count hs
  · split
    · exact hs.count
    · next e =>
      have hk := hs.macsecIn e
      exact .ite (.malformedCredit (.ite hk.count hk)) (hgo _ _ (.ite hk.count hk))

theorem receiveRead {p} {k} (hs : Kept s0 s) : Kept s0 (s.receiveRead p k) := by
  unfold State.receiveRead
  dsimp only
  refine hs.takePacket ?_
  intro t0 t1 hk
  refine hk.policed ?_
  intro t01 t11 hk1
  refine hk1.authentic ?_
  intro t02 hk2
  refine .ite hk2.dupRx (.ite hk2.count.dropCredit (.ite hk2.failRx ?_))
  split
  · exact hk2.failRx
  · exact hk2.acceptRead

theorem execFlueReadReceive {port} {pkt} (hs : Kept s0 s) :
    Kept s0 (stateAfter s (Machine.execFlueReadReceive port pkt s)) := by
  unfold Machine.execFlueReadReceive
  exact hs.receiveRead

theorem receiveClose {p} {k} (hs : Kept s0 s) : Kept s0 (s.receiveClose p k) := by
  unfold State.receiveClose
  exact hs.takePacket (fun _ _ hk => hk.authentic (fun _ hk1 => hk1.closeConn))

theorem execFlueCloseReceive {port} {pkt} (hs : Kept s0 s) :
    Kept s0 (stateAfter s (Machine.execFlueCloseReceive port pkt s)) := by
  unfold Machine.execFlueCloseReceive
  exact hs.receiveClose

theorem ackProgress {n} {k} (hs : Kept s0 s) : Kept s0 (s.ackProgress n k) := by
  unfold State.ackProgress
  dsimp only
  exact hs.setConn

theorem receiveAck {p} {k} (hs : Kept s0 s) : Kept s0 (s.receiveAck p k) := by
  unfold State.receiveAck
  dsimp only
  refine hs.takePacket ?_
  intro t0 t1 hk
  refine hk.authentic ?_
  intro t01 hk1
  refine .pumpConn ?_
  split
  · exact hk1.ackProgress
  · refine .ite hk1.ackProgress ?_
    split
    · exact hk1.ackProgress.endTx
    · exact hk1.ackProgress.resendMsg
    · exact hk1.ackProgress.endTx
    · exact hk1.ackProgress.endTx
    · exact hk1.ackProgress

theorem execFlueAckReceive {port} {pkt} (hs : Kept s0 s) :
    Kept s0 (stateAfter s (Machine.execFlueAckReceive port pkt s)) := by
  unfold Machine.execFlueAckReceive
  exact hs.receiveAck

theorem acceptData {p} {n} {cls} {key} {k} (hs : Kept s0 s) :
    Kept s0 (s.acceptData p n cls key k) := by
  unfold State.acceptData
  dsimp only
  split
  · refine .ite (.sendProgress (.flushConn (.pfcBoth ?_))) (.flushConn (.pfcBoth ?_))
    · split
      · exact .ite (.trace (.ctxEvent (.count (.keyUp (.ite hs.setConn hs))))) (.ctxEvent (.count (.keyUp (.ite hs.setConn hs))))
      · exact .setRx (.ite (.trace (.ctxEvent (.count (.keyUp (.ite hs.setConn hs))))) (.ctxEvent (.count (.keyUp (.ite hs.setConn hs)))))
    · split
      · exact .ite (.trace (.ctxEvent (.count (.keyUp (.ite hs.setConn hs))))) (.ctxEvent (.count (.keyUp (.ite hs.setConn hs))))
      · exact .setRx (.ite (.trace (.ctxEvent (.count (.keyUp (.ite hs.setConn hs))))) (.ctxEvent (.count (.keyUp (.ite hs.setConn hs)))))
  · refine .flushConn (.pfcBoth ?_)
    split
    · exact .ite (.trace (.ctxEvent (.count (.keyUp (.ite hs.setConn hs))))) (.ctxEvent (.count (.keyUp (.ite hs.setConn hs))))
    · exact .setRx (.ite (.trace (.ctxEvent (.count (.keyUp (.ite hs.setConn hs))))) (.ctxEvent (.count (.keyUp (.ite hs.setConn hs)))))

theorem receiveData {p} {k} (hs : Kept s0 s) : Kept s0 (s.receiveData p k) := by
  unfold State.receiveData
  dsimp only
  refine hs.takePacket ?_
  intro t0 t1 hk
  refine hk.policed ?_
  intro t01 t11 hk1
  refine hk1.authentic ?_
  intro t02 hk2
  refine .ite hk2.dupRx (.ite hk2.count.dropCredit ?_)
  split
  · exact hk2.failRx
  · exact hk2.acceptData

theorem execFlueDataReceive {port} {pkt} (hs : Kept s0 s) :
    Kept s0 (stateAfter s (Machine.execFlueDataReceive port pkt s)) := by
  unfold Machine.execFlueDataReceive
  exact hs.receiveData

theorem receiveFrame {p f} (hs : Kept s0 s) : Kept s0 (s.receiveFrame p f) := by
  unfold State.receiveFrame
  extract_lets x s1 port ours
  split
  · exact hs
  · have h1 : Kept s0 s1 := .ite hs.setPort hs
    split
    · exact h1
    · split
      · exact h1
      · split
        · exact h1.count
        · next e => exact .ite (h1.macsecIn e) (h1.macsecIn e).count

theorem execFrameReceive {port} {frame} (hs : Kept s0 s) :
    Kept s0 (stateAfter s (Machine.execFrameReceive port frame s)) := by
  unfold Machine.execFrameReceive
  exact hs.receiveFrame

theorem execCxlLaneFail {head} {width} {lane} (hs : Kept s0 s) :
    Kept s0 (stateAfter s (Machine.execCxlLaneFail head width lane s)) := by
  unfold Machine.execCxlLaneFail
  dsimp only
  exact .next (.ite (hs.setHead.fault (fun _ hk => hk)) hs)

theorem cxlUp {head} {mode} (hs : Kept s0 s) : Kept s0 (s.cxlUp head mode) := by
  unfold State.cxlUp
  dsimp only
  exact .ite hs hs.setHead

theorem execCxlLinkUp {head} {mode} (hs : Kept s0 s) :
    Kept s0 (stateAfter s (Machine.execCxlLinkUp head mode s)) := by
  unfold Machine.execCxlLinkUp
  exact hs.cxlUp

theorem execCxlLinkDown {head} (hs : Kept s0 s) :
    Kept s0 (stateAfter s (Machine.execCxlLinkDown head s)) := by
  unfold Machine.execCxlLinkDown
  exact hs.cxlDown

theorem postFor {cause} {k} {code} {dpa} {ctx} {head} (hs : Kept s0 s) :
    Kept s0 (s.postFor cause k code dpa ctx head) := by
  unfold State.postFor
  split
  · exact hs.postEvent
  · exact hs.postAll

theorem poisonHeld {head} {line} (hs : Kept s0 s) : Kept s0 (s.poisonHeld head line) := by
  unfold State.poisonHeld
  dsimp only
  exact .postFor (.withMem hs.setHead id)

theorem endDeleting (hs : Kept s0 s) : Kept s0 s.endDeleting := by
  unfold State.endDeleting
  dsimp only
  exact .but hs

theorem sfHold {l} {line} {own} (hs : Kept s0 s) : Kept s0 (s.sfHold l line own) := by
  unfold State.sfHold
  dsimp only
  exact hs.setHead

theorem recall_ {head} {ls} {mask} {forced} (hs : Kept s0 s) :
    Kept s0 (s.recall head ls mask forced) := by
  unfold State.recall
  dsimp only
  exact .ite hs.snoop.setHead hs.snoop

theorem recallClosing {l} {ls} (hs : Kept s0 s) : Kept s0 (s.recallClosing l ls) := by
  unfold State.recallClosing
  refine .foldl hs ?_
  intro s1 k hk
  split
  · exact hk.recall_
  · exact hk

theorem serveReq {r} (hs : Kept s0 s) : Kept s0 (s.serveReq r) := by
  unfold State.serveReq
  dsimp only
  refine .ite (hs.silently ?_) (.recallClosing (.foldl (hs.silently ?_) fun _ _ hk => hk.sfHold))
  · intro t0 hk
    split
    · exact hk.count.hostData
    · exact hk.count.poke.s2m
  · intro t0 hk
    split
    · exact hk.count.hostData
    · exact hk.count.poke.s2m

theorem holdReq {r} (hs : Kept s0 s) : Kept s0 (s.holdReq r) := by
  unfold State.holdReq
  dsimp only
  exact .but (.foldl hs fun _ _ hk => hk.snoop)

theorem takeReq {r} (hs : Kept s0 s) : Kept s0 (s.takeReq r) := by
  unfold State.takeReq
  exact .ite hs.holdReq hs.serveReq

theorem serveReqs (hs : Kept s0 s) : Kept s0 s.serveReqs := by
  unfold State.serveReqs
  dsimp only
  exact .foldl (.but hs) fun _ _ hk => hk.takeReq

theorem linesResolved (hs : Kept s0 s) : Kept s0 s.linesResolved := by
  unfold State.linesResolved
  dsimp only
  exact .foldl hs.endDeleting.serveReqs.endBinds fun _ _ hk => hk.flushConn

theorem biAgain {head} {e} (hs : Kept s0 s) : Kept s0 (s.biAgain head e) := by
  unfold State.biAgain
  dsimp only
  exact hs.setHead.count.count.postFor

theorem biExpire {head} {line} (hs : Kept s0 s) : Kept s0 (s.biExpire head line) := by
  unfold State.biExpire
  dsimp only
  split
  · exact hs
  · split
    · exact hs
    · exact .ite (.linesResolved (.poisonHeld (.ite hs hs.biAgain))) (.ite hs hs.biAgain)

theorem execBiTimeout {head} {line} (hs : Kept s0 s) :
    Kept s0 (stateAfter s (Machine.execBiTimeout head line s)) := by
  unfold Machine.execBiTimeout
  exact hs.biExpire

theorem biAnswer {l} {line} {data} (hs : Kept s0 s) : Kept s0 (s.biAnswer l line data) := by
  unfold State.biAnswer
  dsimp only
  refine .ite (.count (.but hs)) ?_
  split
  · exact hs
  · refine .ite hs (.linesResolved (.setHead ?_))
    split
    · exact .ite hs.poke hs
    · exact hs

theorem execBiResponse {ld} {line} {data} (hs : Kept s0 s) :
    Kept s0 (stateAfter s (Machine.execBiResponse ld line data s)) := by
  unfold Machine.execBiResponse
  exact hs.biAnswer

theorem commitDecoder {l} {i} {base} {size} {ways} {bi} (hs : Kept s0 s) :
    Kept s0 (s.commitDecoder l i base size ways bi) := by
  unfold State.commitDecoder
  dsimp only
  exact .ite hs hs.setLd

theorem execHdmDecoderCommit {ld} {decoder} {base} {size} {ways} {bi} (hs : Kept s0 s) :
    Kept s0 (stateAfter s (Machine.execHdmDecoderCommit ld decoder base size ways bi s)) := by
  unfold Machine.execHdmDecoderCommit
  exact hs.commitDecoder

theorem failReq {l} {kind} {dpa} {ctx} (hs : Kept s0 s) : Kept s0 (s.failReq l kind dpa ctx) := by
  unfold State.failReq
  dsimp only
  exact .ite hs.count.setLd hs.count.setHead.postEvent

theorem refuseReq {l} {kind} {a} {c} {read} (hs : Kept s0 s) :
    Kept s0 (s.refuseReq l kind a c read) := by
  unfold State.refuseReq
  exact hs.failReq.s2m

theorem writeView {l} {a} {n} (hs : Kept s0 s) : Kept s0 (s.writeView l a n) := by
  unfold State.writeView
  exact .ite hs.refuseReq hs.count.s2m

theorem execViewWrite {ld} {dpa} {len} (hs : Kept s0 s) :
    Kept s0 (stateAfter s (Machine.execViewWrite ld dpa len s)) := by
  unfold Machine.execViewWrite
  exact .ite hs.writeView (.but hs)

theorem loadView {l} {a} {n} (hs : Kept s0 s) : Kept s0 (s.loadView l a n) := by
  unfold State.loadView
  dsimp only
  refine .ite hs.refuseReq ?_
  split
  · exact hs.refuseReq
  · exact .ite hs.stackTreat.refuseReq (.ite hs.stackTreat.serveView (.but hs.stackTreat.request))

theorem execViewLoad {ld} {dpa} {len} (hs : Kept s0 s) :
    Kept s0 (stateAfter s (Machine.execViewLoad ld dpa len s)) := by
  unfold Machine.execViewLoad
  exact .ite hs.loadView (.but hs)

theorem hostReq {l} {a} {n} {data} {bi} (hs : Kept s0 s) : Kept s0 (s.hostReq l a n data bi) := by
  unfold State.hostReq
  split
  · exact hs.refuseReq
  · exact .takeReq (.but hs)

theorem hostWrite {l} {a} {data} {bi} (hs : Kept s0 s) : Kept s0 (s.hostWrite l a data bi) := by
  unfold State.hostWrite
  exact .ite (.but hs) (.ite hs.writeView hs.hostReq)

theorem execHostMemWrite {ld} {dpa} {data} {bi} (hs : Kept s0 s) :
    Kept s0 (stateAfter s (Machine.execHostMemWrite ld dpa data bi s)) := by
  unfold Machine.execHostMemWrite
  exact hs.hostWrite

theorem hostRead {l} {a} {n} {bi} (hs : Kept s0 s) : Kept s0 (s.hostRead l a n bi) := by
  unfold State.hostRead
  exact .ite (.but hs) (.ite hs.loadView hs.hostReq)

theorem execHostMemRead {ld} {dpa} {len} {bi} (hs : Kept s0 s) :
    Kept s0 (stateAfter s (Machine.execHostMemRead ld dpa len bi s)) := by
  unfold Machine.execHostMemRead
  exact hs.hostRead

theorem doe {h} {go : State → State} (hs : Kept s0 s) (hgo : ∀ t0, Kept s0 t0 → Kept s0 (go t0)) :
    Kept s0 (s.doe h go) := by
  unfold State.doe
  exact .ite hs.answer (.ite hs.answer (hgo _ hs))

theorem spdmIn {h} {allowed} {go : State → State} (hs : Kept s0 s) (hgo : ∀ t0, Kept s0 t0 → Kept s0 (go t0)) :
    Kept s0 (s.spdmIn h allowed go) := by
  unfold State.spdmIn
  exact hs.doe (fun _ hk => .ite (hgo _ hk) hk.no)

theorem secure {h} {go : State → State} (hs : Kept s0 s) (hgo : ∀ t0, Kept s0 t0 → Kept s0 (go t0)) :
    Kept s0 (s.secure h go) := by
  unfold State.secure
  exact hs.spdmIn (fun _ hk => hgo _ hk)

theorem execIdeKmKeyProgram {head} {stream} {key} (hs : Kept s0 s) :
    Kept s0 (stateAfter s (Machine.execIdeKmKeyProgram head stream key s)) := by
  unfold Machine.execIdeKmKeyProgram
  dsimp only
  exact hs.secure (fun _ hk => hk.setHead.ok)

theorem setSpdm {h} {x} (hs : Kept s0 s) : Kept s0 (s.setSpdm h x) := by
  unfold State.setSpdm
  dsimp only
  exact .but hs

theorem execSpdmEndSession {head} (hs : Kept s0 s) :
    Kept s0 (stateAfter s (Machine.execSpdmEndSession head s)) := by
  unfold Machine.execSpdmEndSession
  exact hs.spdmIn (fun _ hk => hk.setSpdm.ok)

theorem execSpdmFinish {head} {verifyData} (hs : Kept s0 s) :
    Kept s0 (stateAfter s (Machine.execSpdmFinish head verifyData s)) := by
  unfold Machine.execSpdmFinish
  dsimp only
  exact hs.spdmIn (fun _ hk => .ite hk.setSpdm.ok hk.setSpdm.no)

theorem execSpdmKeyExchange {head} {encapsKey} (hs : Kept s0 s) :
    Kept s0 (stateAfter s (Machine.execSpdmKeyExchange head encapsKey s)) := by
  unfold Machine.execSpdmKeyExchange
  dsimp only
  exact hs.spdmIn (fun _ hk => .ite hk.no (.ite hk.no hk.draw.setSpdm.ok))

theorem execSpdmGetMeasurements {head} {nonce} (hs : Kept s0 s) :
    Kept s0 (stateAfter s (Machine.execSpdmGetMeasurements head nonce s)) := by
  unfold Machine.execSpdmGetMeasurements
  dsimp only
  exact hs.spdmIn (fun _ hk => hk.count.ok)

theorem execSpdmChallenge {head} {nonce} (hs : Kept s0 s) :
    Kept s0 (stateAfter s (Machine.execSpdmChallenge head nonce s)) := by
  unfold Machine.execSpdmChallenge
  dsimp only
  exact hs.spdmIn (fun _ hk => hk.ok)

theorem execSpdmGetCertificate {head} {off} {len} (hs : Kept s0 s) :
    Kept s0 (stateAfter s (Machine.execSpdmGetCertificate head off len s)) := by
  unfold Machine.execSpdmGetCertificate
  exact hs.spdmIn (fun _ hk => hk.ok)

theorem execSpdmGetDigests {head} (hs : Kept s0 s) :
    Kept s0 (stateAfter s (Machine.execSpdmGetDigests head s)) := by
  unfold Machine.execSpdmGetDigests
  exact hs.spdmIn (fun _ hk => hk.ok)

theorem execSpdmNegotiateAlgorithms {head} {offer} (hs : Kept s0 s) :
    Kept s0 (stateAfter s (Machine.execSpdmNegotiateAlgorithms head offer s)) := by
  unfold Machine.execSpdmNegotiateAlgorithms
  exact hs.spdmIn (fun _ hk => .ite hk.setSpdm.ok hk.no)

theorem execSpdmGetCapabilities {head} (hs : Kept s0 s) :
    Kept s0 (stateAfter s (Machine.execSpdmGetCapabilities head s)) := by
  unfold Machine.execSpdmGetCapabilities
  exact hs.spdmIn (fun _ hk => hk.setSpdm.ok)

theorem execSpdmGetVersion {head} (hs : Kept s0 s) :
    Kept s0 (stateAfter s (Machine.execSpdmGetVersion head s)) := by
  unfold Machine.execSpdmGetVersion
  exact hs.doe (fun _ hk => hk.setSpdm.ok)

theorem fm {h} {go : State → State} (hs : Kept s0 s) (hgo : ∀ t0, Kept s0 t0 → Kept s0 (go t0)) :
    Kept s0 (s.fm h go) := by
  unfold State.fm
  exact .ite hs.answer (.ite hs.no (.ite hs.no (hgo _ hs)))

theorem execSetLdPrivilege {head} {ld} {grant} (hs : Kept s0 s) :
    Kept s0 (stateAfter s (Machine.execSetLdPrivilege head ld grant s)) := by
  unfold Machine.execSetLdPrivilege
  dsimp only
  exact hs.fm (fun _ hk => .ite hk.no hk.setHead.setLd.ok)

theorem deleteShared {i} {asked} (hs : Kept s0 s) : Kept s0 (s.deleteShared i asked) := by
  unfold State.deleteShared
  dsimp only
  split
  · exact hs
  · exact .endDeleting (.sendSnoops (.but hs))

theorem execDeleteSharedRegion {head} {index} (hs : Kept s0 s) :
    Kept s0 (stateAfter s (Machine.execDeleteSharedRegion head index s)) := by
  unfold Machine.execDeleteSharedRegion
  exact hs.fm (fun _ hk => .ite hk.answer.deleteShared hk.no)

theorem defineShared {h} {base} {n} (hs : Kept s0 s) : Kept s0 (s.defineShared h base n) := by
  unfold State.defineShared
  dsimp only
  exact .ite hs.no (.ite hs.no (.ite hs.no (.ite hs.no (.ok (.but hs)))))

theorem execDefineSharedRegion {head} {base} {granules} (hs : Kept s0 s) :
    Kept s0 (stateAfter s (Machine.execDefineSharedRegion head base granules s)) := by
  unfold Machine.execDefineSharedRegion
  exact hs.fm (fun _ hk => hk.defineShared)

theorem downEntry {head} {lds} {e} (hs : Kept s0 s) : Kept s0 (s.downEntry head lds e) := by
  unfold State.downEntry
  dsimp only
  refine .ite hs (.ite hs.setHead ?_)
  split
  · exact hs.poisonHeld
  · exact .ite hs.poisonHeld hs.setHead

theorem execHostDown {head} {lds} (hs : Kept s0 s) :
    Kept s0 (stateAfter s (Machine.execHostDown head lds s)) := by
  unfold Machine.execHostDown
  exact .next (hs.fm (fun _ hk => .ok (.linesResolved (.foldl hk fun _ _ hk1 => hk1.downEntry))))

theorem bindContext {head} {c} {word} (hs : Kept s0 s) : Kept s0 (s.bindContext head c word) := by
  unfold State.bindContext
  dsimp only
  exact .ite (.answer (.but hs.setCtx)) hs.setCtx.ok

theorem execBindContext {head} {ctx} {word} (hs : Kept s0 s) :
    Kept s0 (stateAfter s (Machine.execBindContext head ctx word s)) := by
  unfold Machine.execBindContext
  exact hs.fm (fun _ hk => .ite hk.no hk.bindContext)

theorem leaveLd {l} {base} {forced} (hs : Kept s0 s) : Kept s0 (s.leaveLd l base forced) := by
  unfold State.leaveLd
  dsimp only
  exact .ok (.ite hs.setLd.postEvent hs.setLd)

theorem removalDone {l} {base} (hs : Kept s0 s) : Kept s0 (s.removalDone l base) := by
  unfold State.removalDone
  split
  · exact hs
  · exact .ite (hs.silently (fun _ hk => hk.leaveLd)) hs

theorem execExtentRemovalDone {ld} {base} (hs : Kept s0 s) :
    Kept s0 (stateAfter s (Machine.execExtentRemovalDone ld base s)) := by
  unfold Machine.execExtentRemovalDone
  exact hs.removalDone

theorem closeExtent {l} {base} {forced} (hs : Kept s0 s) :
    Kept s0 (s.closeExtent l base forced) := by
  unfold State.closeExtent
  dsimp only
  split
  · exact hs.no
  · exact .ite hs.leaveLd hs.setLd.recall_.answer

theorem fmDynamic {h} {go : State → State} (hs : Kept s0 s) (hgo : ∀ t0, Kept s0 t0 → Kept s0 (go t0)) :
    Kept s0 (s.fmDynamic h go) := by
  unfold State.fmDynamic
  exact hs.fm (fun _ hk => .ite hk.no (hgo _ hk))

theorem execInitiateDcRelease {head} {ld} {base} {len} {forced} (hs : Kept s0 s) :
    Kept s0 (stateAfter s (Machine.execInitiateDcRelease head ld base len forced s)) := by
  unfold Machine.execInitiateDcRelease
  dsimp only
  exact hs.fmDynamic (fun _ hk => .ite hk.no (.ite hk.closeExtent hk.postEvent.ok))

theorem offer {l} {a} {n} (hs : Kept s0 s) : Kept s0 (s.offer l a n) := by
  unfold State.offer
  dsimp only
  exact .ite hs.no (.ite hs.no hs.setLd.ok)

theorem execInitiateDcAdd {head} {ld} {base} {len} (hs : Kept s0 s) :
    Kept s0 (stateAfter s (Machine.execInitiateDcAdd head ld base len s)) := by
  unfold Machine.execInitiateDcAdd
  exact hs.fmDynamic (fun _ hk => hk.offer)

theorem execGetDcRegionExtentLists {head} {host} (hs : Kept s0 s) :
    Kept s0 (stateAfter s (Machine.execGetDcRegionExtentLists head host s)) := by
  unfold Machine.execGetDcRegionExtentLists
  dsimp only
  exact hs.fmDynamic (fun _ hk => .ite hk.no hk.ok)

theorem execSetDcRegionConfiguration {head} {region} {blockSize} (hs : Kept s0 s) :
    Kept s0 (stateAfter s (Machine.execSetDcRegionConfiguration head region blockSize s)) := by
  unfold Machine.execSetDcRegionConfiguration
  dsimp only
  exact hs.fmDynamic (fun _ hk => .ite hk.no hk.setHead.ok)

theorem execGetHostDcRegionConfig {head} {host} (hs : Kept s0 s) :
    Kept s0 (stateAfter s (Machine.execGetHostDcRegionConfig head host s)) := by
  unfold Machine.execGetHostDcRegionConfig
  dsimp only
  exact hs.fmDynamic (fun _ hk => .ite hk.no hk.ok)

theorem execGetDcdInfo {head} (hs : Kept s0 s) :
    Kept s0 (stateAfter s (Machine.execGetDcdInfo head s)) := by
  unfold Machine.execGetDcdInfo
  exact hs.fmDynamic (fun _ hk => hk.ok)

theorem execGetMultiHeadedInfo {head} (hs : Kept s0 s) :
    Kept s0 (stateAfter s (Machine.execGetMultiHeadedInfo head s)) := by
  unfold Machine.execGetMultiHeadedInfo
  exact hs.fm (fun _ hk => hk.ok)

theorem qosCmd {h} {a} (hs : Kept s0 s) : Kept s0 (s.qosCmd h a) := by
  unfold State.qosCmd
  dsimp only
  split
  · exact hs.ok
  · exact hs.setHead.ok
  · exact hs.ok
  · exact hs.ok
  · exact hs.setHead.ok
  · exact hs.ok
  · exact hs.setHead.ok

theorem execQosCommands {head} {cmd} (hs : Kept s0 s) :
    Kept s0 (stateAfter s (Machine.execQosCommands head cmd s)) := by
  unfold Machine.execQosCommands
  exact hs.fm (fun _ hk => hk.qosCmd)

theorem execGetLdAllocations {head} (hs : Kept s0 s) :
    Kept s0 (stateAfter s (Machine.execGetLdAllocations head s)) := by
  unfold Machine.execGetLdAllocations
  exact hs.fm (fun _ hk => hk.ok)

theorem execGetLdInfo {head} (hs : Kept s0 s) :
    Kept s0 (stateAfter s (Machine.execGetLdInfo head s)) := by
  unfold Machine.execGetLdInfo
  exact hs.fm (fun _ hk => hk.ok)

theorem vendor {l} {go : State → State} {any} {boot} (hs : Kept s0 s) (hgo : ∀ t0, Kept s0 t0 → Kept s0 (go t0)) :
    Kept s0 (s.vendor l go any boot) := by
  unfold State.vendor
  exact .ite hs.answer (.ite hs.no (.ite hs.say (.ite hs.say (.ite hs.say (hgo _ hs)))))

theorem execReadStallHistogram {ld} {die} {cls} (hs : Kept s0 s) :
    Kept s0 (stateAfter s (Machine.execReadStallHistogram ld die cls s)) := by
  unfold Machine.execReadStallHistogram
  dsimp only
  exact hs.vendor (fun _ hk => .ite hk.say (.ite hk.say hk.say))

theorem readCounters {ld} {c} {first} {count} (hs : Kept s0 s) :
    Kept s0 (s.readCounters ld c first count) := by
  unfold State.readCounters
  exact .ite hs.say (.ite hs.say (.ite hs.say (.ite hs.say hs.say)))

theorem execReadContextCounters {ld} {ctx} {first} {count} (hs : Kept s0 s) :
    Kept s0 (stateAfter s (Machine.execReadContextCounters ld ctx first count s)) := by
  unfold Machine.execReadContextCounters
  exact hs.vendor (fun _ hk => hk.readCounters)

theorem execReadTrace {ld} {die} {first} {count} (hs : Kept s0 s) :
    Kept s0 (stateAfter s (Machine.execReadTrace ld die first count s)) := by
  unfold Machine.execReadTrace
  dsimp only
  exact hs.vendor (fun _ hk => .ite hk.say (.ite hk.say hk.say))

theorem execGetAdmission {ld} {die} (hs : Kept s0 s) :
    Kept s0 (stateAfter s (Machine.execGetAdmission ld die s)) := by
  unfold Machine.execGetAdmission
  dsimp only
  exact hs.vendor (fun _ hk => .ite hk.say hk.say)

theorem execReleaseBooking {ld} {ring} (hs : Kept s0 s) :
    Kept s0 (stateAfter s (Machine.execReleaseBooking ld ring s)) := by
  unfold Machine.execReleaseBooking
  dsimp only
  exact .next (hs.vendor (fun _ hk => .ite hk.say (.ite hk.say (.say (.recheck (hk.setRing (hk.regs ring)))))))

theorem admitRing {n} {d} (hs : Kept s0 s) : Kept s0 (s.admitRing n d) := by
  unfold State.admitRing
  dsimp only
  exact .ite hs.say (.ite hs.say (.ite hs.say (.ite hs.say (.ite hs.say (.say (hs.setRing (hs.regs n)))))))

theorem execAdmitRing {ld} {ring} {demand} (hs : Kept s0 s) :
    Kept s0 (stateAfter s (Machine.execAdmitRing ld ring demand s)) := by
  unfold Machine.execAdmitRing
  exact hs.vendor (fun _ hk => hk.admitRing)

theorem setAdmission {cap} {block} (hs : Kept s0 s) : Kept s0 (s.setAdmission cap block) := by
  unfold State.setAdmission
  dsimp only
  refine .ite hs.say ?_
  split
  · exact hs.say
  · exact .say (.recheck (.but hs))

theorem execSetAdmission {ld} {admitCap} {blockUs} (hs : Kept s0 s) :
    Kept s0 (stateAfter s (Machine.execSetAdmission ld admitCap blockUs s)) := by
  unfold Machine.execSetAdmission
  exact hs.vendor (fun _ hk => hk.setAdmission)

theorem setClass {cls} {weight} {bound} (hs : Kept s0 s) :
    Kept s0 (s.setClass cls weight bound) := by
  unfold State.setClass
  dsimp only
  refine .ite hs.say ?_
  split
  · exact hs.say
  · exact .say (.recheck (.but hs))

theorem execSetClass {ld} {cls} {weight} {bound} (hs : Kept s0 s) :
    Kept s0 (stateAfter s (Machine.execSetClass ld cls weight bound s)) := by
  unfold Machine.execSetClass
  exact hs.vendor (fun _ hk => hk.setClass)

theorem execGetStartUpReport {ld} (hs : Kept s0 s) :
    Kept s0 (stateAfter s (Machine.execGetStartUpReport ld s)) := by
  unfold Machine.execGetStartUpReport
  exact hs.vendor (fun _ hk => hk.say)

theorem importCompat {c} {key} (hs : Kept s0 s) : Kept s0 (s.importCompat c key) := by
  unfold State.importCompat
  dsimp only
  exact .ite hs.say (.ite hs.say (.ite hs.say (.ite hs.say (.ite hs.say hs.setCtx.say))))

theorem execImportCompatKey {head} {ctx} {key} (hs : Kept s0 s) :
    Kept s0 (stateAfter s (Machine.execImportCompatKey head ctx key s)) := by
  unfold Machine.execImportCompatKey
  exact hs.secure (fun _ hk => hk.importCompat)

theorem openChunks {k} (hs : Kept s0 s) : Kept s0 (s.openChunks k) := by
  unfold State.openChunks
  dsimp only
  exact .foldl hs fun _ _ hk => hk.openChunk

theorem refuse (hs : Kept s0 s) : Kept s0 s.refuse := by
  unfold State.refuse
  exact hs.count.say

theorem releaseModel {k} {key} (hs : Kept s0 s) : Kept s0 (s.releaseModel k key) := by
  unfold State.releaseModel
  dsimp only
  exact .ite hs.refuse hs.setWobj.openChunks.say

theorem withObj {handle} {go : Nat → State → State} (hs : Kept s0 s) (hgo : ∀ t0 t1, Kept s0 t1 → Kept s0 (go t0 t1)) :
    Kept s0 (s.withObj handle go) := by
  unfold State.withObj
  refine .ite hs.say ?_
  split
  · exact hs.say
  · exact .ite hs.say (hgo _ _ hs)

theorem execReleaseModelKey {head} {handle} {key} (hs : Kept s0 s) :
    Kept s0 (stateAfter s (Machine.execReleaseModelKey head handle key s)) := by
  unfold Machine.execReleaseModelKey
  exact hs.secure (fun _ hk => hk.withObj (fun _ _ hk1 => hk1.releaseModel))

theorem releaseRoot {secret} (hs : Kept s0 s) : Kept s0 (s.releaseRoot secret) := by
  unfold State.releaseRoot
  dsimp only
  refine .ite hs.say (.ite hs.refuse ?_)
  split
  · exact .ite (.say (.but hs)) hs.refuse
  · exact .ite hs.say (.say (.same hs rfl))

theorem execReleasePersistentRoot {head} {secret} (hs : Kept s0 s) :
    Kept s0 (stateAfter s (Machine.execReleasePersistentRoot head secret s)) := by
  unfold Machine.execReleasePersistentRoot
  exact hs.secure (fun _ hk => hk.releaseRoot)

theorem completeKey {n} {ct} (hs : Kept s0 s) : Kept s0 (s.completeKey n ct) := by
  unfold State.completeKey
  dsimp only
  refine .ite hs.say (.ite hs.say ?_)
  split
  · exact hs.say
  · exact hs.setConn.say

theorem execCompleteConnectionKey {ld} {conn} {ciphertext} (hs : Kept s0 s) :
    Kept s0 (stateAfter s (Machine.execCompleteConnectionKey ld conn ciphertext s)) := by
  unfold Machine.execCompleteConnectionKey
  exact hs.vendor (fun _ hk => .ite hk.no hk.completeKey)

theorem needKey {go : Nat → State → State} (hs : Kept s0 s) (hgo : ∀ t0 t1, Kept s0 t1 → Kept s0 (go t0 t1)) :
    Kept s0 (s.needKey go) := by
  unfold State.needKey
  refine .ite hs.say ?_
  split
  · next x0 x1 x2 he =>
      have hk : Kept _ x2 := he ▸ hs.draw
      exact hgo _ _ hk

theorem beginKey {n} (hs : Kept s0 s) : Kept s0 (s.beginKey n) := by
  unfold State.beginKey
  dsimp only
  exact .ite hs.say (hs.needKey (fun _ _ hk => hk.setConn.say))

theorem execBeginConnectionKey {ld} {conn} (hs : Kept s0 s) :
    Kept s0 (stateAfter s (Machine.execBeginConnectionKey ld conn s)) := by
  unfold Machine.execBeginConnectionKey
  exact hs.vendor (fun _ hk => hk.beginKey)

theorem execGetNonce {ld} (hs : Kept s0 s) :
    Kept s0 (stateAfter s (Machine.execGetNonce ld s)) := by
  unfold Machine.execGetNonce
  dsimp only
  exact hs.vendor (fun _ hk => hk.needKey (fun _ _ hk1 => .say (.but hk1)))

theorem execSetMacsecCak {ld} {port} {ckn} {cak} (hs : Kept s0 s) :
    Kept s0 (stateAfter s (Machine.execSetMacsecCak ld port ckn cak s)) := by
  unfold Machine.execSetMacsecCak
  dsimp only
  exact hs.vendor (fun _ hk => .ite hk.say hk.setPort.sendMka.say)

theorem execGetConfigurationBlock {ld} {off} {len} (hs : Kept s0 s) :
    Kept s0 (stateAfter s (Machine.execGetConfigurationBlock ld off len s)) := by
  unfold Machine.execGetConfigurationBlock
  exact hs.vendor (fun _ hk => hk.say)

theorem deleteObj {k} (hs : Kept s0 s) : Kept s0 (s.deleteObj k) := by
  unfold State.deleteObj
  dsimp only
  exact .setWobj (.foldl hs.winFailAll fun _ _ hk => .ite hk.freePage hk)

theorem execDeleteWeightObject {ld} {handle} (hs : Kept s0 s) :
    Kept s0 (stateAfter s (Machine.execDeleteWeightObject ld handle s)) := by
  unfold Machine.execDeleteWeightObject
  exact .next (hs.vendor (fun _ hk => hk.withObj (fun _ _ hk1 => hk1.deleteObj.say)))

theorem loadLayer {ld} {k} {l} {src} (hs : Kept s0 s) : Kept s0 (s.loadLayer ld k l src) := by
  unfold State.loadLayer
  dsimp only
  refine .ite hs.say (.ite hs.say ?_)
  split
  · exact hs.countFailure.say
  · exact hs.putLayer

theorem execLoadWeightLayer {ld} {handle} {layer} {src} (hs : Kept s0 s) :
    Kept s0 (stateAfter s (Machine.execLoadWeightLayer ld handle layer src s)) := by
  unfold Machine.execLoadWeightLayer
  exact .next (hs.vendor (fun _ hk => hk.withObj (fun _ _ hk1 => hk1.loadLayer)))

theorem putChunks {k l c pslot d n a i} (hs : Kept s0 s) :
    Kept s0 (State.putChunks k l c pslot d n a i s) := by
  induction n generalizing s a i with
  | zero => exact hs
  | succ n ih => exact ih hs.setPage

theorem putLayers {k c pslot d l i} (hs : Kept s0 s) :
    Kept s0 (State.putLayers k c pslot d l i s) := by
  induction l generalizing s i with
  | nil => exact hs
  | cons x l ih =>
    obtain ⟨n, a, len⟩ := x
    rw [State.putLayers]
    exact ih hs.putChunks

theorem createObj {c} {home} {pid} {model} {check} {lengths} (hs : Kept s0 s) :
    Kept s0 (s.createObj c home pid model check lengths) := by
  unfold State.createObj
  dsimp only
  refine .ite hs.say (.ite hs.say ?_)
  split
  · exact hs.say
  · exact .ite hs.say (.say (.setWobj (.putLayers (hs.setHalf rfl))))

theorem vendorCtx {l} {c} {go : State → State} (hs : Kept s0 s) (hgo : ∀ t0, Kept s0 t0 → Kept s0 (go t0)) :
    Kept s0 (s.vendorCtx l c go) := by
  unfold State.vendorCtx
  exact hs.vendor (fun _ hk => .ite hk.say (.ite hk.say (.ite hk.say (hgo _ hk))))

theorem execCreateWeightObject {ld} {ctx} {home} {profileId} {modelId} {keyCheck} {lengths} (hs : Kept s0 s) :
    Kept s0 (stateAfter s (Machine.execCreateWeightObject ld ctx home profileId modelId keyCheck lengths s)) := by
  unfold Machine.execCreateWeightObject
  exact hs.vendorCtx (fun _ hk => hk.createObj)

theorem freeKeys {c} (hs : Kept s0 s) : Kept s0 (s.freeKeys c) := by
  unfold State.freeKeys
  dsimp only
  exact .but hs

theorem clearUnits {gone} (hs : Kept s0 s) : Kept s0 (s.clearUnits gone) := by
  unfold State.clearUnits
  exact .but hs

theorem dropGranule {g} (hs : Kept s0 s) : Kept s0 (s.dropGranule g) := by
  unfold State.dropGranule
  dsimp only
  split
  · exact hs
  · exact .withMem hs.freeFrame (cellsAbove_filter _)

theorem releaseSeq {k} (hs : Kept s0 s) : Kept s0 (s.releaseSeq k) := by
  unfold State.releaseSeq
  dsimp only
  exact .setSeq (.foldl hs fun _ _ hk => .foldl hk fun _ _ hk1 => .ite (.releaseRef (.ite hk1.keep hk1)) hk1)

theorem retireObjects {c} (hs : Kept s0 s) : Kept s0 (s.retireObjects c) := by
  unfold State.retireObjects
  dsimp only
  exact .foldl (.foldl (.foldl hs fun _ _ hk => hk.releaseSeq) fun _ _ hk => hk.deleteObj) fun _ _ hk => hk.deleteShared

theorem retirePages {c} (hs : Kept s0 s) : Kept s0 (s.retirePages c) := by
  unfold State.retirePages
  dsimp only
  exact .but (.foldl hs fun _ _ hk => hk.dropPage)

theorem retireRings {c} (hs : Kept s0 s) : Kept s0 (s.retireRings c) :=
  hs.mapRings fun _ _ => by split; (split <;> rfl); rfl

theorem switchFbx {c} (hs : Kept s0 s) : Kept s0 (s.switchFbx c) := by
  unfold State.switchFbx
  exact .but hs

theorem retireRest {c} (hs : Kept s0 s) : Kept s0 (s.retireRest c) := by
  unfold State.retireRest
  extract_lets s1 x s2 s3 s4 s5 gs m
  split
  · exact hs
  · have h2 : Kept s0 s2 := hs.switchFbx.setCtx
    have h3 : Kept s0 s3 := .but h2
    have h4 : Kept s0 s4 := h3.retireRings.recheck
    have h5 : Kept s0 s5 := h4.retireObjects.retirePages
    clear_value s5
    exact h5.withMem fun x => x

theorem retireDone {c} (hs : Kept s0 s) : Kept s0 (s.retireDone c) := by
  unfold State.retireDone
  dsimp only
  exact .ite hs (.ite hs.retireRest (.say (.setCtx (.but (.clearUnits (.freeKeys (.withMem (.foldl hs.retireRest fun _ _ hk => hk.dropGranule) id)))))))

theorem execRetireComplete {ctx} (hs : Kept s0 s) :
    Kept s0 (stateAfter s (Machine.execRetireComplete ctx s)) := by
  unfold Machine.execRetireComplete
  exact hs.retireDone

theorem keyForget {i} (hs : Kept s0 s) : Kept s0 (s.keyForget i) := by
  unfold State.keyForget
  dsimp only
  exact .but hs

theorem startRevoke {i} (hs : Kept s0 s) : Kept s0 (s.startRevoke i) := by
  unfold State.startRevoke
  dsimp only
  split
  · exact hs
  · exact .keyForget (.but hs)

theorem retireLinks {c} (hs : Kept s0 s) : Kept s0 (s.retireLinks c) := by
  unfold State.retireLinks
  dsimp only
  exact .foldl (.foldl hs fun _ _ hk => hk.closeConn) fun _ _ hk => hk.startRevoke

theorem stopStamp {r} (hs : Kept s0 s) : Kept s0 (s.stopStamp r) := by
  unfold State.stopStamp
  dsimp only
  exact .ite hs.stamp hs

theorem dropSteps {n} (hs : Kept s0 s) : Kept s0 (s.dropSteps n) := by
  unfold State.dropSteps
  dsimp only
  exact .setRing (.foldl (.but (.foldl hs fun _ _ hk => .ite hk.stopStamp.writeDst.unname hk.stopStamp)) fun _ _ hk => hk.endUses) (Kept.regs (.but (.foldl hs fun _ _ hk => .ite hk.stopStamp.writeDst.unname hk.stopStamp)) n)

theorem void {r} {st} (hs : Kept s0 s) : Kept s0 (s.void r st) := by
  unfold State.void
  exact hs.writeDst.setRec.noteEnded

theorem markRetired {r} (hs : Kept s0 s) : Kept s0 (s.markRetired r) := by
  unfold State.markRetired
  dsimp only
  exact hs.setRing (hs.regs r.ring)

theorem stopRec {a} (hs : Kept s0 s) : Kept s0 (s.stopRec a) := by
  unfold State.stopRec
  dsimp only
  split
  · exact hs
  · exact .ite hs.void.markRetired (.ite (.markRetired (.endUses (.finishRing (.ite hs.dropSteps hs.stopStamp)))) hs)

theorem retireWork {c} (hs : Kept s0 s) : Kept s0 (s.retireWork c) := by
  unfold State.retireWork
  exact .markFree (.foldl hs fun _ _ hk => hk.stopRec)

theorem retirePool {c} (hs : Kept s0 s) : Kept s0 (s.retirePool c) := by
  unfold State.retirePool
  refine .foldl hs ?_
  intro s1 l hk
  split
  · exact .ite hk.setLd hk
  · exact hk

theorem ringsOff {c} (hs : Kept s0 s) : Kept s0 (s.ringsOff c) := by
  unfold State.ringsOff
  exact .mapRings hs fun _ _ => by split <;> rfl

theorem retire {c} (hs : Kept s0 s) : Kept s0 (s.retire c) := by
  unfold State.retire
  dsimp only
  exact hs.setCtx.ringsOff.retireWork.retirePool.withdrawAll.winFailAll.retireLinks.retireRest.answer

theorem execRetireContext {ld} {ctx} (hs : Kept s0 s) :
    Kept s0 (stateAfter s (Machine.execRetireContext ld ctx s)) := by
  unfold Machine.execRetireContext
  split
  · exact hs.vendor (fun _ hk => .ite hk.say hk.say)
  · exact hs.vendorCtx (fun _ hk => hk.retire)

theorem rotate {c} (hs : Kept s0 s) : Kept s0 (s.rotate c) := by
  unfold State.rotate
  dsimp only
  exact .ite hs.say (hs.needKey (fun _ _ hk => hk.setCtx.say))

theorem execRotateContextKey {ld} {ctx} (hs : Kept s0 s) :
    Kept s0 (stateAfter s (Machine.execRotateContextKey ld ctx s)) := by
  unfold Machine.execRotateContextKey
  exact hs.vendorCtx (fun _ hk => hk.rotate)

theorem leaveUnits {c} {gone} (hs : Kept s0 s) : Kept s0 (s.leaveUnits c gone) := by
  unfold State.leaveUnits
  dsimp only
  exact .but hs.clearUnits

theorem returnUnits {c} {back} (hs : Kept s0 s) : Kept s0 (s.returnUnits c back) := by
  unfold State.returnUnits
  dsimp only
  exact .but hs

theorem setContext {c} {rights} {domain} {quota} {mask} (hs : Kept s0 s) :
    Kept s0 (s.setContext c rights domain quota mask) := by
  unfold State.setContext
  dsimp only
  exact .ite hs.say (.ite hs.say (.ite hs.say (.ite hs.say (.ite hs.say (.ite hs.say (.say (.setCtx (.ite hs.leaveUnits.returnUnits.withdrawAll hs.leaveUnits.returnUnits))))))))

theorem execSetContext {ld} {ctx} {rights} {domain} {quota} {chkMask} (hs : Kept s0 s) :
    Kept s0 (stateAfter s (Machine.execSetContext ld ctx rights domain quota chkMask s)) := by
  unfold Machine.execSetContext
  exact hs.vendor (fun _ hk => hk.setContext)

theorem createContext {c} {rights} {domain} {quota} {mask} (hs : Kept s0 s) :
    Kept s0 (s.createContext c rights domain quota mask) := by
  unfold State.createContext
  dsimp only
  exact .ite hs.say (.ite hs.say (.ite hs.say (.ite hs.say (.ite hs.say (hs.needKey (fun _ _ hk => .say (.but hk.setCtx)))))))

theorem execCreateContext {ld} {ctx} {rights} {domain} {quota} {chkMask} (hs : Kept s0 s) :
    Kept s0 (stateAfter s (Machine.execCreateContext ld ctx rights domain quota chkMask s)) := by
  unfold Machine.execCreateContext
  exact hs.vendor (fun _ hk => hk.createContext)

theorem setMode {v} (hs : Kept s0 s) : Kept s0 (s.setMode v) := by
  unfold State.setMode
  dsimp only
  exact .ite hs.say (.ite hs.say (.ite hs.say (.say (.but hs))))

theorem execSetMode {ld} {confidential} (hs : Kept s0 s) :
    Kept s0 (stateAfter s (Machine.execSetMode ld confidential s)) := by
  unfold Machine.execSetMode
  exact hs.vendor (fun _ hk => hk.setMode)

theorem startPool {l} {c} {op} {w0} {w1} {w2} (hs : Kept s0 s) :
    Kept s0 (s.startPool l c op w0 w1 w2) := by
  unfold State.startPool
  dsimp only
  refine hs.vendorCtx ?_
  intro t0 hk
  refine .ite hk.say (.ite hk.no ?_)
  split
  · exact hk.countFailure.say
  · exact hk.setLd.no

theorem execPoolReduceCommand {ld} {ctx} {w0} {w1} {w2} (hs : Kept s0 s) :
    Kept s0 (stateAfter s (Machine.execPoolReduceCommand ld ctx w0 w1 w2 s)) := by
  unfold Machine.execPoolReduceCommand
  exact hs.startPool

theorem execPoolCompareCommand {ld} {ctx} {w0} {w1} {w2} (hs : Kept s0 s) :
    Kept s0 (stateAfter s (Machine.execPoolCompareCommand ld ctx w0 w1 w2 s)) := by
  unfold Machine.execPoolCompareCommand
  exact hs.startPool

theorem execPoolCopyCommand {ld} {ctx} {w0} {w1} {w2} (hs : Kept s0 s) :
    Kept s0 (stateAfter s (Machine.execPoolCopyCommand ld ctx w0 w1 w2 s)) := by
  unfold Machine.execPoolCopyCommand
  exact hs.startPool

theorem execPoolFillCommand {ld} {ctx} {w0} {w1} {w2} (hs : Kept s0 s) :
    Kept s0 (stateAfter s (Machine.execPoolFillCommand ld ctx w0 w1 w2 s)) := by
  unfold Machine.execPoolFillCommand
  exact hs.startPool

theorem execSetEvent {ld} {ctx} {event} {op} {value} (hs : Kept s0 s) :
    Kept s0 (stateAfter s (Machine.execSetEvent ld ctx event op value s)) := by
  unfold Machine.execSetEvent
  dsimp only
  exact hs.vendorCtx (fun _ hk => .ite hk.say hk.signal.markFree.say)

theorem execReleaseContextSpace {ld} {ctx} {granules} {addr} (hs : Kept s0 s) :
    Kept s0 (stateAfter s (Machine.execReleaseContextSpace ld ctx granules addr s)) := by
  unfold Machine.execReleaseContextSpace
  dsimp only
  exact hs.vendorCtx (fun _ hk => .ite hk.say (.ite hk.say (.say (.foldl hk fun _ _ hk1 => hk1.dropGranule))))

theorem execAllocateContextSpace {ld} {ctx} {die} {granules} {addr} (hs : Kept s0 s) :
    Kept s0 (stateAfter s (Machine.execAllocateContextSpace ld ctx die granules addr s)) := by
  unfold Machine.execAllocateContextSpace
  dsimp only
  exact hs.vendorCtx (fun _ hk => .ite hk.say (.ite hk.say hk.grantSpace))

theorem execDeregisterImage {ld} {image} (hs : Kept s0 s) :
    Kept s0 (stateAfter s (Machine.execDeregisterImage ld image s)) := by
  unfold Machine.execDeregisterImage
  exact hs.vendor (fun _ hk => .ite hk.say (.ite hk.say (.say (.but hk))))

theorem execRegisterImage {ld} {ctx} {steps} {src} (hs : Kept s0 s) :
    Kept s0 (stateAfter s (Machine.execRegisterImage ld ctx steps src s)) := by
  unfold Machine.execRegisterImage
  dsimp only
  refine hs.vendorCtx ?_
  intro t0 hk
  split
  · exact hk.countFailure.say
  · exact .ite hk.say (.ite hk.sendSnoops.no (.say (.but hk)))

theorem execDeregisterProfile {ld} {profileId} (hs : Kept s0 s) :
    Kept s0 (stateAfter s (Machine.execDeregisterProfile ld profileId s)) := by
  unfold Machine.execDeregisterProfile
  refine .next (hs.vendor ?_)
  intro t0 hk
  split
  · exact hk.say
  · exact .ite hk.say (.say (.but hk))

theorem addProfile {b} (hs : Kept s0 s) : Kept s0 (s.addProfile b) := by
  unfold State.addProfile
  dsimp only
  exact .ite hs.say (.say (.but hs))

theorem execRegisterProfile {ld} {record} (hs : Kept s0 s) :
    Kept s0 (stateAfter s (Machine.execRegisterProfile ld record s)) := by
  unfold Machine.execRegisterProfile
  exact hs.vendor (fun _ hk => .ite hk.no hk.addProfile)

theorem execGetVendorLog {ld} {logId} {off} {len} (hs : Kept s0 s) :
    Kept s0 (stateAfter s (Machine.execGetVendorLog ld logId off len s)) := by
  unfold Machine.execGetVendorLog
  exact hs.vendor (fun _ hk => .ite hk.say (.ite hk.say hk.say))

theorem activateFw {online} (hs : Kept s0 s) : Kept s0 (s.activateFw online) := by
  unfold State.activateFw
  dsimp only
  split
  · exact hs.no
  · exact .ite hs.no (.ite (.ok (.but hs)) (.ite (.ok (.but (.mantelRestart (.but hs)))) (.ok (.but hs))))

theorem standard {l} {boot} {identify} {go : State → State} (hs : Kept s0 s) (hgo : ∀ t0, Kept s0 t0 → Kept s0 (go t0)) :
    Kept s0 (s.standard l boot identify go) := by
  unfold State.standard
  exact .ite hs.answer (.ite hs.no (.ite hs.no (hgo _ hs)))

theorem fwCmd {l} {go : State → State} (hs : Kept s0 s) (hgo : ∀ t0, Kept s0 t0 → Kept s0 (go t0)) :
    Kept s0 (s.fwCmd l go) := by
  unfold State.fwCmd
  exact hs.standard (fun _ hk => .ite hk.no (hgo _ hk))

theorem execActivateFw {ld} {online} (hs : Kept s0 s) :
    Kept s0 (stateAfter s (Machine.execActivateFw ld online s)) := by
  unfold Machine.execActivateFw
  exact hs.fwCmd (fun _ hk => hk.activateFw)

theorem execTransferFw {ld} {image} (hs : Kept s0 s) :
    Kept s0 (stateAfter s (Machine.execTransferFw ld image s)) := by
  unfold Machine.execTransferFw
  dsimp only
  exact hs.fwCmd (fun _ hk => .ok (.but hk))

theorem execGetFwInfo {ld} (hs : Kept s0 s) :
    Kept s0 (stateAfter s (Machine.execGetFwInfo ld s)) := by
  unfold Machine.execGetFwInfo
  exact hs.fwCmd (fun _ hk => hk.ok)

theorem execRequestAbortBackgroundOp {ld} (hs : Kept s0 s) :
    Kept s0 (stateAfter s (Machine.execRequestAbortBackgroundOp ld s)) := by
  unfold Machine.execRequestAbortBackgroundOp
  dsimp only
  refine .next (hs.standard ?_)
  intro t0 hk
  split
  · exact hk.setLd.ok
  · exact hk.ok

theorem execBackgroundOperationStatus {ld} (hs : Kept s0 s) :
    Kept s0 (stateAfter s (Machine.execBackgroundOperationStatus ld s)) := by
  unfold Machine.execBackgroundOperationStatus
  dsimp only
  refine .next (hs.standard ?_)
  intro t0 hk
  split
  · exact hk.ok
  · exact hk.ok
  · exact hk.ok

theorem dynamic {l} {go : State → State} (hs : Kept s0 s) (hgo : ∀ t0, Kept s0 t0 → Kept s0 (go t0)) :
    Kept s0 (s.dynamic l go) := by
  unfold State.dynamic
  exact hs.standard (fun _ hk => .ite hk.no (hgo _ hk))

theorem execReleaseDynamicCapacity {ld} {base} {len} (hs : Kept s0 s) :
    Kept s0 (stateAfter s (Machine.execReleaseDynamicCapacity ld base len s)) := by
  unfold Machine.execReleaseDynamicCapacity
  exact hs.dynamic (fun _ hk => .ite hk.closeExtent hk.no)

theorem execAddDcResponse {ld} {accepted} (hs : Kept s0 s) :
    Kept s0 (stateAfter s (Machine.execAddDcResponse ld accepted s)) := by
  unfold Machine.execAddDcResponse
  dsimp only
  exact hs.dynamic (fun _ hk => .ite hk.no (.ite hk.no hk.setLd.ok))

theorem execGetDcExtentList {ld} {start} {count} (hs : Kept s0 s) :
    Kept s0 (stateAfter s (Machine.execGetDcExtentList ld start count s)) := by
  unfold Machine.execGetDcExtentList
  dsimp only
  exact hs.dynamic (fun _ hk => hk.ok)

theorem execGetDcConfiguration {ld} (hs : Kept s0 s) :
    Kept s0 (stateAfter s (Machine.execGetDcConfiguration ld s)) := by
  unfold Machine.execGetDcConfiguration
  dsimp only
  exact hs.dynamic (fun _ hk => hk.ok)

theorem execInjectPoison {ld} {dpa} (hs : Kept s0 s) :
    Kept s0 (stateAfter s (Machine.execInjectPoison ld dpa s)) := by
  unfold Machine.execInjectPoison
  exact .next (hs.standard (fun _ hk => .ite hk.no (.ite hk.no (.ite hk.no (.ok (.withMem hk id))))))

theorem execClearPoison {ld} {dpa} {data} (hs : Kept s0 s) :
    Kept s0 (stateAfter s (Machine.execClearPoison ld dpa data s)) := by
  unfold Machine.execClearPoison
  exact hs.standard (fun _ hk => .ite hk.no (.ite hk.no hk.poke.ok))

theorem execGetPoisonList {ld} {base} {len} (hs : Kept s0 s) :
    Kept s0 (stateAfter s (Machine.execGetPoisonList ld base len s)) := by
  unfold Machine.execGetPoisonList
  dsimp only
  exact hs.standard (fun _ hk => .ite hk.no hk.ok)

theorem execSetTimestamp {ld} {stamp} (hs : Kept s0 s) :
    Kept s0 (stateAfter s (Machine.execSetTimestamp ld stamp s)) := by
  unfold Machine.execSetTimestamp
  dsimp only
  exact hs.standard (fun _ hk => hk.setLd.ok)

theorem execGetTimestamp {ld} (hs : Kept s0 s) :
    Kept s0 (stateAfter s (Machine.execGetTimestamp ld s)) := by
  unfold Machine.execGetTimestamp
  exact hs.standard (fun _ hk => hk.ok)

theorem execSetEventInterruptPolicy {ld} {policy} (hs : Kept s0 s) :
    Kept s0 (stateAfter s (Machine.execSetEventInterruptPolicy ld policy s)) := by
  unfold Machine.execSetEventInterruptPolicy
  dsimp only
  exact hs.standard (fun _ hk => hk.setLd.ok)

theorem execGetEventInterruptPolicy {ld} (hs : Kept s0 s) :
    Kept s0 (stateAfter s (Machine.execGetEventInterruptPolicy ld s)) := by
  unfold Machine.execGetEventInterruptPolicy
  exact hs.standard (fun _ hk => hk.ok)

theorem execClearEventRecords {ld} {log} {handles} (hs : Kept s0 s) :
    Kept s0 (stateAfter s (Machine.execClearEventRecords ld log handles s)) := by
  unfold Machine.execClearEventRecords
  dsimp only
  exact hs.standard (fun _ hk => .ite hk.setLd.ok (.ite hk.setLd.ok hk.no))

theorem execGetEventRecords {ld} {log} (hs : Kept s0 s) :
    Kept s0 (stateAfter s (Machine.execGetEventRecords ld log s)) := by
  unfold Machine.execGetEventRecords
  dsimp only
  exact hs.standard (fun _ hk => hk.ok)

theorem execGetLog {ld} {off} {len} (hs : Kept s0 s) :
    Kept s0 (stateAfter s (Machine.execGetLog ld off len s)) := by
  unfold Machine.execGetLog
  exact hs.standard (fun _ hk => hk.ok)

theorem execGetSupportedLogs {ld} (hs : Kept s0 s) :
    Kept s0 (stateAfter s (Machine.execGetSupportedLogs ld s)) := by
  unfold Machine.execGetSupportedLogs
  exact hs.standard (fun _ hk => hk.ok)

theorem execIdentifyMemoryDevice {ld} (hs : Kept s0 s) :
    Kept s0 (stateAfter s (Machine.execIdentifyMemoryDevice ld s)) := by
  unfold Machine.execIdentifyMemoryDevice
  exact hs.standard (fun _ hk => hk.ok)

theorem revokeGo {j w o} (hs : Kept s0 s) (e : Machine.revokeGo j w s = some o) :
    Kept s0 o.state := by
  unfold Machine.revokeGo at e
  split at e
  · split at e
    · cases e; exact .but hs
    · cases e
  · cases e

theorem execKeyRevokeDone {a} (hs : Kept s0 s) :
    Kept s0 (stateAfter s (Machine.execKeyRevokeDone a s)) := by
  unfold Machine.execKeyRevokeDone
  exact .next (hs.goOn fun _ _ _ _ hk e => hk.revokeGo e)

theorem revokeBody {j} (hs : Kept s0 s) : Kept s0 (Machine.revokeBody j s).state := by
  unfold Machine.revokeBody
  split
  · exact hs
  · split
    · exact hs.fails
    · exact hs.startRevoke

theorem checks {f} {j} (hs : Kept s0 s) : Kept s0 (Machine.checks f j s).state := by
  unfold Machine.checks
  exact hs.Chk_ofErr

theorem execKeyRevoke {a} (hs : Kept s0 s) :
    Kept s0 (stateAfter s (Machine.execKeyRevoke a s)) := by
  unfold Machine.execKeyRevoke
  exact hs.runHob (fun _ _ hk => hk.checks) (fun _ _ hk => hk.revokeBody)

theorem registerBody {j} (hs : Kept s0 s) : Kept s0 (Machine.registerBody j s).state := by
  unfold Machine.registerBody
  dsimp only
  split
  · split
    · exact hs.fails
    · exact .succeeds (.but hs.free.domPut.domPut.setCtx)
  · exact hs.fails

theorem execKeyRegister {a} (hs : Kept s0 s) :
    Kept s0 (stateAfter s (Machine.execKeyRegister a s)) := by
  unfold Machine.execKeyRegister
  exact hs.runHob (fun _ _ hk => hk.checks) (fun _ _ hk => hk.registerBody)

theorem ctrSampleBody {j} (hs : Kept s0 s) : Kept s0 (Machine.ctrSampleBody j s).state := by
  unfold Machine.ctrSampleBody
  dsimp only
  exact hs.poke

theorem ctrSampleChk {j} (hs : Kept s0 s) : Kept s0 (Machine.ctrSampleChk j s).state := by
  unfold Machine.ctrSampleChk
  split
  · exact hs
  · exact hs

theorem execCtrSample {a} (hs : Kept s0 s) :
    Kept s0 (stateAfter s (Machine.execCtrSample a s)) := by
  unfold Machine.execCtrSample
  exact hs.runHob (fun _ _ hk => hk.ctrSampleChk) (fun _ _ hk => hk.ctrSampleBody)

theorem ctrStopBody {j} (hs : Kept s0 s) : Kept s0 (Machine.ctrStopBody j s).state := by
  unfold Machine.ctrStopBody
  dsimp only
  exact .ite hs.setCtx hs

theorem execCtrStop {a} (hs : Kept s0 s) : Kept s0 (stateAfter s (Machine.execCtrStop a s)) := by
  unfold Machine.execCtrStop
  exact hs.runHob (fun _ _ hk => hk.checks) (fun _ _ hk => hk.ctrStopBody)

theorem ctrStartBody {j} (hs : Kept s0 s) : Kept s0 (Machine.ctrStartBody j s).state := by
  unfold Machine.ctrStartBody
  dsimp only
  exact hs.setCtx.succeeds

theorem execCtrStart {a} (hs : Kept s0 s) : Kept s0 (stateAfter s (Machine.execCtrStart a s)) := by
  unfold Machine.execCtrStart
  exact hs.runHob (fun _ _ hk => hk.checks) (fun _ _ hk => hk.ctrStartBody)

theorem dropKept {j} (hs : Kept s0 s) : Kept s0 (s.dropKept j) := by
  unfold State.dropKept
  dsimp only
  exact .ite hs (.but hs)

theorem putUnit {j} {x} (hs : Kept s0 s) : Kept s0 (s.putUnit j x) := by
  unfold State.putUnit
  exact .dropKept (.but hs)

theorem restoreBody {j} (hs : Kept s0 s) : Kept s0 (Machine.restoreBody j s).state := by
  unfold Machine.restoreBody
  dsimp only
  exact hs.putUnit.succeeds

theorem unitChecks {f} {j} (hs : Kept s0 s) : Kept s0 (Machine.unitChecks f j s).state := by
  unfold Machine.unitChecks
  split
  · exact hs.dropKept.Chk_ofErr
  · exact hs

theorem execChkRestore {a} (hs : Kept s0 s) :
    Kept s0 (stateAfter s (Machine.execChkRestore a s)) := by
  unfold Machine.execChkRestore
  exact hs.runHob (fun _ _ hk => hk.unitChecks) (fun _ _ hk => hk.restoreBody)

theorem saveBody {j} (hs : Kept s0 s) : Kept s0 (Machine.saveBody j s).state := by
  unfold Machine.saveBody
  exact hs.dropKept.succeeds

theorem execChkSave {a} (hs : Kept s0 s) : Kept s0 (stateAfter s (Machine.execChkSave a s)) := by
  unfold Machine.execChkSave
  exact hs.runHob (fun _ _ hk => hk.unitChecks) (fun _ _ hk => hk.saveBody)

theorem feedBody {j} (hs : Kept s0 s) : Kept s0 (Machine.feedBody j s).state := by
  unfold Machine.feedBody
  dsimp only
  split
  · exact hs.putUnit.count.fails
  · split
    · exact hs.dropKept.fails
    · exact hs.putUnit.count.count.succeeds

theorem execChkFeed {a} (hs : Kept s0 s) : Kept s0 (stateAfter s (Machine.execChkFeed a s)) := by
  unfold Machine.execChkFeed
  exact hs.runHob (fun _ _ hk => hk.unitChecks) (fun _ _ hk => hk.feedBody)

theorem setupBody {j} (hs : Kept s0 s) : Kept s0 (Machine.setupBody j s).state := by
  unfold Machine.setupBody
  exact hs.putUnit.succeeds

theorem execChkSetup {a} (hs : Kept s0 s) : Kept s0 (stateAfter s (Machine.execChkSetup a s)) := by
  unfold Machine.execChkSetup
  exact hs.runHob (fun _ _ hk => hk.unitChecks) (fun _ _ hk => hk.setupBody)

theorem inboundTimeout {a} (hs : Kept s0 s) : Kept s0 (s.inboundTimeout a) := by
  unfold State.inboundTimeout
  split
  · exact hs
  · split
    · exact .ite hs.finish.markFree hs
    · exact hs

theorem execFlueWaitTimeout {a} (hs : Kept s0 s) :
    Kept s0 (stateAfter s (Machine.execFlueWaitTimeout a s)) := by
  unfold Machine.execFlueWaitTimeout
  exact hs.inboundTimeout

theorem inboundBody {j} (hs : Kept s0 s) : Kept s0 (Machine.inboundBody j s).state := by
  unfold Machine.inboundBody
  dsimp only
  split
  · exact hs.fails
  · split
    · exact hs
    · exact hs

theorem execFlueWait {a} (hs : Kept s0 s) : Kept s0 (stateAfter s (Machine.execFlueWait a s)) := by
  unfold Machine.execFlueWait
  exact hs.runHob (fun _ _ hk => hk.checks) (fun _ _ hk => hk.inboundBody)

theorem sendBody {j} (hs : Kept s0 s) : Kept s0 (Machine.sendBody j s).state := by
  unfold Machine.sendBody
  dsimp only
  split
  · exact hs
  · split
    · exact hs.fails
    · split
      · exact hs.setConn.pump
      · exact hs

theorem execFlueSend {a} (hs : Kept s0 s) : Kept s0 (stateAfter s (Machine.execFlueSend a s)) := by
  unfold Machine.execFlueSend
  exact hs.runHob (fun _ _ hk => hk.checks) (fun _ _ hk => hk.sendBody)

theorem poolLine {o} {i} (hs : Kept s0 s) : Kept s0 (s.poolLine o i) := by
  unfold State.poolLine
  dsimp only
  exact .ite hs.poke (.ite hs (.ite (.withMem hs id) (.ite hs.poke hs.poke)))

theorem poolLines {o} {first} {n} (hs : Kept s0 s) : Kept s0 (s.poolLines o first n) := by
  unfold State.poolLines
  exact .foldl hs fun _ _ hk => hk.poolLine

theorem poolAll {o} (hs : Kept s0 s) : Kept s0 (s.poolAll o) := by
  unfold State.poolAll
  exact hs.poolLines.count

theorem poolBody {op} {j} (hs : Kept s0 s) : Kept s0 (Machine.poolBody op j s).state := by
  unfold Machine.poolBody
  dsimp only
  split
  · exact hs.fails
  · exact hs.poolAll.hearthBytes

theorem poolChk {op} {a} (hs : Kept s0 s) : Kept s0 (Machine.poolChk op a s).state := by
  unfold Machine.poolChk
  exact hs.checks

theorem execPoolReduce {a} (hs : Kept s0 s) :
    Kept s0 (stateAfter s (Machine.execPoolReduce a s)) := by
  unfold Machine.execPoolReduce
  exact hs.runHob (fun _ _ hk => hk.poolChk) (fun _ _ hk => hk.poolBody)

theorem execPoolCompare {a} (hs : Kept s0 s) :
    Kept s0 (stateAfter s (Machine.execPoolCompare a s)) := by
  unfold Machine.execPoolCompare
  exact hs.runHob (fun _ _ hk => hk.poolChk) (fun _ _ hk => hk.poolBody)

theorem execPoolCopy {a} (hs : Kept s0 s) : Kept s0 (stateAfter s (Machine.execPoolCopy a s)) := by
  unfold Machine.execPoolCopy
  exact hs.runHob (fun _ _ hk => hk.poolChk) (fun _ _ hk => hk.poolBody)

theorem execPoolFill {a} (hs : Kept s0 s) : Kept s0 (stateAfter s (Machine.execPoolFill a s)) := by
  unfold Machine.execPoolFill
  exact hs.runHob (fun _ _ hk => hk.poolChk) (fun _ _ hk => hk.poolBody)

theorem winStage {w} (hs : Kept s0 s) : Kept s0 (s.winStage w) := by
  unfold State.winStage
  exact .foldl hs fun _ _ hk => .foldl hk fun _ _ hk1 => hk1.request

/-- A function of a window keeps what the part keeps. -/
def WinKept (f : State → Nat → Win → State) : Prop := ∀ s0 s i w, Kept s0 s → Kept s0 (f s i w)

/-- The cut of a layer into messages is left open under `id`: the kernel would count out the length of a message in unary. -/
theorem winSend_kept : WinKept State.winSend := by
  delta State.winSend
  generalize layerMsgs = cut
  revert cut
  refine id fun cut s0 s i w hs => ?_
  have h1 : Kept s0 ((s.chunks w.obj (s.winLayer w w.begun)).foldl State.engineRead s) := .foldl hs fun _ _ hk => hk.engineRead
  exact .winStage (.but (.foldlFst h1 fun _ _ hk => hk.beginMsg))

theorem winSend {i w} (hs : Kept s0 s) : Kept s0 (s.winSend i w) := winSend_kept s0 s i w hs

theorem winStep {i} (hs : Kept s0 s) : Kept s0 (s.winStep i) := by
  unfold State.winStep
  dsimp only
  split
  · exact hs
  · exact .ite (.foldl hs fun _ _ hk => hk.stackTreat) (.ite (.winFail (.foldl hs fun _ _ hk => hk.stackTreat)) (.ite (.winSend (.foldl hs fun _ _ hk => hk.stackTreat)) (.foldl (.foldl hs fun _ _ hk => hk.stackTreat) fun _ _ hk => hk.request)))

theorem execWinLayerSend {win} (hs : Kept s0 s) :
    Kept s0 (stateAfter s (Machine.execWinLayerSend win s)) := by
  unfold Machine.execWinLayerSend
  exact hs.winStep

theorem closeBody {j} (hs : Kept s0 s) : Kept s0 (Machine.closeBody j s).state := by
  unfold Machine.closeBody
  dsimp only
  split
  · exact hs
  · split
    · exact .fails (.but hs)
    · split
      · exact .succeeds (.but hs)
      · exact .but hs

theorem execWinClose {a} (hs : Kept s0 s) : Kept s0 (stateAfter s (Machine.execWinClose a s)) := by
  unfold Machine.execWinClose
  exact hs.runHob (fun _ _ hk => hk.checks) (fun _ _ hk => hk.closeBody)

theorem advanceBody {j} (hs : Kept s0 s) : Kept s0 (Machine.advanceBody j s).state := by
  unfold Machine.advanceBody
  dsimp only
  exact .succeeds (.but hs)

theorem execWinAdvance {a} (hs : Kept s0 s) :
    Kept s0 (stateAfter s (Machine.execWinAdvance a s)) := by
  unfold Machine.execWinAdvance
  exact hs.runHob (fun _ _ hk => hk.checks) (fun _ _ hk => hk.advanceBody)

theorem openBody {j} (hs : Kept s0 s) : Kept s0 (Machine.openBody j s).state := by
  unfold Machine.openBody
  dsimp only
  exact .succeeds (.winStage (.but hs))

theorem execWinOpen {a} (hs : Kept s0 s) : Kept s0 (stateAfter s (Machine.execWinOpen a s)) := by
  unfold Machine.execWinOpen
  exact hs.runHob (fun _ _ hk => hk.checks) (fun _ _ hk => hk.openBody)

theorem execAttBwd {a} (hs : Kept s0 s) : Kept s0 (stateAfter s (Machine.execAttBwd a s)) := by
  unfold Machine.execAttBwd
  exact hs.runHob (fun _ _ hk => hk.attBwdChk) (fun _ _ hk => hk.attBwdBody)

theorem execAttMerge {a} (hs : Kept s0 s) : Kept s0 (stateAfter s (Machine.execAttMerge a s)) := by
  unfold Machine.execAttMerge
  exact hs.runHob (fun _ _ hk => hk.mergeChk) (fun _ _ hk => hk.mergeBody)

theorem execAttPrefill {a} (hs : Kept s0 s) :
    Kept s0 (stateAfter s (Machine.execAttPrefill a s)) := by
  unfold Machine.execAttPrefill
  exact hs.runHob (fun _ _ hk => hk.attPrefillChk) (fun _ _ hk => hk.attPrefillBody)

theorem execAttDecode {a} (hs : Kept s0 s) :
    Kept s0 (stateAfter s (Machine.execAttDecode a s)) := by
  unfold Machine.execAttDecode
  exact hs.runHob (fun _ _ hk => hk.attDecodeChk) (fun _ _ hk => hk.attDecodeBody)

theorem execPfxWithdraw {a} (hs : Kept s0 s) :
    Kept s0 (stateAfter s (Machine.execPfxWithdraw a s)) := by
  unfold Machine.execPfxWithdraw
  exact hs.runHob (fun _ _ hk => hk.tablesChk) (fun _ _ hk => hk.withdrawBody)

theorem execPfxFork {a} (hs : Kept s0 s) : Kept s0 (stateAfter s (Machine.execPfxFork a s)) := by
  unfold Machine.execPfxFork
  exact hs.runHob (fun _ _ hk => hk.forkChk) (fun _ _ hk => hk.forkBody)

theorem execPfxPublish {a} (hs : Kept s0 s) :
    Kept s0 (stateAfter s (Machine.execPfxPublish a s)) := by
  unfold Machine.execPfxPublish
  exact hs.runHob (fun _ _ hk => hk.publishChk) (fun _ _ hk => hk.publishBody)

theorem execPfxMatch {a} (hs : Kept s0 s) : Kept s0 (stateAfter s (Machine.execPfxMatch a s)) := by
  unfold Machine.execPfxMatch
  exact hs.runHob (fun _ _ hk => hk.matchChk) (fun _ _ hk => hk.matchBody)

theorem execKvAppend {a} (hs : Kept s0 s) : Kept s0 (stateAfter s (Machine.execKvAppend a s)) := by
  unfold Machine.execKvAppend
  exact hs.runHob (fun _ _ hk => hk.appendChk) (fun _ _ hk => hk.appendBody)

theorem execPageFetch {a} (hs : Kept s0 s) :
    Kept s0 (stateAfter s (Machine.execPageFetch a s)) := by
  unfold Machine.execPageFetch
  exact hs.runHob (fun _ _ hk => hk.fetchChk) (fun _ _ hk => hk.fetchBody)

theorem execPageSeal {a} (hs : Kept s0 s) : Kept s0 (stateAfter s (Machine.execPageSeal a s)) := by
  unfold Machine.execPageSeal
  exact hs.runHob (fun _ _ hk => hk.tablesChk) (fun _ _ hk => hk.sealBody)

theorem execPageStage {a} (hs : Kept s0 s) :
    Kept s0 (stateAfter s (Machine.execPageStage a s)) := by
  unfold Machine.execPageStage
  exact hs.runHob (fun _ _ hk => hk.stageChk) (fun _ _ hk => hk.stageBody)

theorem execSeqQuery {a} (hs : Kept s0 s) : Kept s0 (stateAfter s (Machine.execSeqQuery a s)) := by
  unfold Machine.execSeqQuery
  exact hs.runHob (fun _ _ hk => hk.tablesChk) (fun _ _ hk => hk.queryBody)

theorem execSeqHint {a} (hs : Kept s0 s) : Kept s0 (stateAfter s (Machine.execSeqHint a s)) := by
  unfold Machine.execSeqHint
  exact hs.runHob (fun _ _ hk => hk.hintChk) (fun _ _ hk => hk.hintBody)

theorem execSeqTruncProceed {a} (hs : Kept s0 s) :
    Kept s0 (stateAfter s (Machine.execSeqTruncProceed a s)) := by
  unfold Machine.execSeqTruncProceed
  exact .next (hs.goOn fun _ _ _ _ hk e => hk.truncGo e)

theorem markSeq {j} {st} (hs : Kept s0 s) : Kept s0 (s.markSeq j st).state := by
  unfold State.markSeq
  dsimp only
  split
  · exact hs
  · exact .ite hs.setSeq.requestTables hs.setSeq

theorem truncBody {j} (hs : Kept s0 s) : Kept s0 (Machine.truncBody j s).state := by
  unfold Machine.truncBody
  exact hs.markSeq

theorem namedChk {j} (hs : Kept s0 s) : Kept s0 (Machine.namedChk j s).state := by
  unfold Machine.namedChk
  exact hs.Chk_ofErr

theorem execSeqTrunc {a} (hs : Kept s0 s) : Kept s0 (stateAfter s (Machine.execSeqTrunc a s)) := by
  unfold Machine.execSeqTrunc
  exact hs.runHob (fun _ _ hk => hk.namedChk) (fun _ _ hk => hk.truncBody)

theorem destroyGo {j w o} (hs : Kept s0 s) (e : Machine.destroyGo j w s = some o) :
    Kept s0 o.state := by
  unfold Machine.destroyGo at e
  split at e
  · split at e
    · cases e; exact hs.releaseSeq
    · cases e
  · cases e

theorem execSeqDestroyRelease {a} (hs : Kept s0 s) :
    Kept s0 (stateAfter s (Machine.execSeqDestroyRelease a s)) := by
  unfold Machine.execSeqDestroyRelease
  exact .next (hs.goOn fun _ _ _ _ hk e => hk.destroyGo e)

theorem destroyBody {j} (hs : Kept s0 s) : Kept s0 (Machine.destroyBody j s).state := by
  unfold Machine.destroyBody
  exact hs.markSeq

theorem execSeqDestroy {a} (hs : Kept s0 s) :
    Kept s0 (stateAfter s (Machine.execSeqDestroy a s)) := by
  unfold Machine.execSeqDestroy
  exact hs.runHob (fun _ _ hk => hk.namedChk) (fun _ _ hk => hk.destroyBody)

theorem execSeqCreate {a} (hs : Kept s0 s) :
    Kept s0 (stateAfter s (Machine.execSeqCreate a s)) := by
  unfold Machine.execSeqCreate
  exact hs.runHob (fun _ _ hk => hk.createChk) (fun _ _ hk => hk.createBody)

theorem noCheck {x} (hs : Kept s0 s) : Kept s0 (Machine.noCheck x s).state := by
  unfold Machine.noCheck
  exact hs

theorem execCtlAdd {a} (hs : Kept s0 s) : Kept s0 (stateAfter s (Machine.execCtlAdd a s)) := by
  unfold Machine.execCtlAdd
  exact hs.runHob (fun _ _ hk => hk.noCheck) (fun _ _ hk => hk)

theorem execCtlRet {a} (hs : Kept s0 s) : Kept s0 (stateAfter s (Machine.execCtlRet a s)) := by
  unfold Machine.execCtlRet
  exact hs.runHob (fun _ _ hk => hk.noCheck) (fun _ _ hk => hk)

theorem callBody {j} (hs : Kept s0 s) : Kept s0 (Machine.callBody j s).state := by
  unfold Machine.callBody
  dsimp only
  split
  · exact hs.fails
  · split
    · exact hs.fails
    · split
      · exact hs.fails
      · exact hs

theorem execCtlCall {a} (hs : Kept s0 s) : Kept s0 (stateAfter s (Machine.execCtlCall a s)) := by
  unfold Machine.execCtlCall
  exact hs.runHob (fun _ _ hk => hk.noCheck) (fun _ _ hk => hk.callBody)

theorem loopBody {j} (hs : Kept s0 s) : Kept s0 (Machine.loopBody j s).state := by
  unfold Machine.loopBody
  dsimp only
  split
  · exact hs.fails
  · split
    · exact hs
    · split
      · exact hs.succeeds
      · exact hs

theorem execCtlLoop {a} (hs : Kept s0 s) : Kept s0 (stateAfter s (Machine.execCtlLoop a s)) := by
  unfold Machine.execCtlLoop
  exact hs.runHob (fun _ _ hk => hk.noCheck) (fun _ _ hk => hk.loopBody)

theorem skipifBody {j} (hs : Kept s0 s) : Kept s0 (Machine.skipifBody j s).state := by
  unfold Machine.skipifBody
  dsimp only
  split
  · exact hs.fails
  · split
    · exact hs.fails
    · split
      · exact hs
      · exact hs.succeeds

theorem execCtlSkipif {a} (hs : Kept s0 s) :
    Kept s0 (stateAfter s (Machine.execCtlSkipif a s)) := by
  unfold Machine.execCtlSkipif
  exact hs.runHob (fun _ _ hk => hk.noCheck) (fun _ _ hk => hk.skipifBody)

theorem signalBody {j} (hs : Kept s0 s) : Kept s0 (Machine.signalBody j s).state := by
  unfold Machine.signalBody
  dsimp only
  refine .foldl hs.setCtx ?_
  intro s1 r hk
  split
  · exact .ite hk.finish hk
  · exact hk

theorem execCtlSignal {a} (hs : Kept s0 s) :
    Kept s0 (stateAfter s (Machine.execCtlSignal a s)) := by
  unfold Machine.execCtlSignal
  exact hs.runHob (fun _ _ hk => hk.noCheck) (fun _ _ hk => hk.signalBody)

theorem waitTimeout {a} (hs : Kept s0 s) : Kept s0 (s.waitTimeout a) := by
  unfold State.waitTimeout
  split
  · exact hs
  · split
    · exact .ite hs.finish.markFree hs
    · exact hs

theorem execCtlWaitTimeout {a} (hs : Kept s0 s) :
    Kept s0 (stateAfter s (Machine.execCtlWaitTimeout a s)) := by
  unfold Machine.execCtlWaitTimeout
  exact hs.waitTimeout

theorem waitBody {j} (hs : Kept s0 s) : Kept s0 (Machine.waitBody j s).state := by
  unfold Machine.waitBody
  dsimp only
  split
  · exact hs
  · exact hs

theorem execCtlWait {a} (hs : Kept s0 s) : Kept s0 (stateAfter s (Machine.execCtlWait a s)) := by
  unfold Machine.execCtlWait
  exact hs.runHob (fun _ _ hk => hk.noCheck) (fun _ _ hk => hk.waitBody)

theorem halt {n} (hs : Kept s0 s) : Kept s0 (s.halt n) := by
  unfold State.halt
  dsimp only
  exact .setRing (.foldl hs fun _ _ hk => hk.void) (Kept.regs (.foldl hs fun _ _ hk => hk.void) n)

theorem fenceBody {j} (hs : Kept s0 s) : Kept s0 (Machine.fenceBody j s).state := by
  unfold Machine.fenceBody
  dsimp only
  split
  · exact .halt (hs.setRing (hs.regs j.site.ring))
  · exact .succeeds (hs.setRing (hs.regs j.site.ring))

theorem execCtlFence {a} (hs : Kept s0 s) : Kept s0 (stateAfter s (Machine.execCtlFence a s)) := by
  unfold Machine.execCtlFence
  exact hs.runHob (fun _ _ hk => hk.noCheck) (fun _ _ hk => hk.fenceBody)

theorem execCtlNop {a} (hs : Kept s0 s) : Kept s0 (stateAfter s (Machine.execCtlNop a s)) := by
  unfold Machine.execCtlNop
  exact hs.runHob (fun _ _ hk => hk.noCheck) (fun _ _ hk => hk.succeeds)

theorem execBadOpcode {a} (hs : Kept s0 s) :
    Kept s0 (stateAfter s (Machine.execBadOpcode a s)) := by
  unfold Machine.execBadOpcode
  exact hs.runHob (fun _ _ hk => hk.noCheck) (fun _ _ hk => hk.fails)

theorem windowStart {n} (hs : Kept s0 s) : Kept s0 (s.windowStart n) := by
  unfold State.windowStart
  dsimp only
  split
  · exact hs
  · exact .ite (hs.setRing (hs.regs n)) hs

theorem execBookingWindowStart {ring} (hs : Kept s0 s) :
    Kept s0 (stateAfter s (Machine.execBookingWindowStart ring s)) := by
  unfold Machine.execBookingWindowStart
  exact hs.windowStart

theorem ringInterrupt {n} (hs : Kept s0 s) : Kept s0 (s.ringInterrupt n) := by
  unfold State.ringInterrupt
  dsimp only
  exact .ite hs (.ite hs.raise (hs.setRing (hs.regs n)))

theorem traceComplete {r} {flags} (hs : Kept s0 s) : Kept s0 (s.traceComplete r flags) := by
  unfold State.traceComplete
  dsimp only
  exact hs.trace

theorem retireRec {r} (hs : Kept s0 s) : Kept s0 (s.retireRec r) := by
  unfold State.retireRec
  dsimp only
  exact .setRing (.but hs) (Kept.regs (.but hs) r.ring)

theorem measure {r} (hs : Kept s0 s) : Kept s0 (s.measure r).2 := by
  unfold State.measure
  dsimp only
  split
  · exact hs
  · exact .ite (hs.setRing (hs.regs r.ring)) hs

theorem noteRoom_regs (g : Ring) (now : Nat) : (g.noteRoom now).regs = g.regs := by
  unfold Ring.noteRoom
  repeat' split
  all_goals rfl

theorem post {n} (hs : Kept s0 s) : Kept s0 (s.post n) := by
  unfold State.post
  split
  · exact hs
  · next r _ _ =>
    have h1 : Kept s0 (s.measure r).2 := hs.measure
    split
    next late s1 e1 =>
    rw [e1] at h1
    extract_lets g i fl ph bs at_ s2 g2 s3 s4
    refine .ite hs (.ite h1.traceComplete.retireRec.markFree (.ite hs ?_))
    split
    · exact hs.sendSnoops
    · have h2 : Kept s0 s2 := h1.poke
      have h3 : Kept s0 s3 := h2.setRing fun x => (congrArg List.length (noteRoom_regs _ _)).trans (h2.regs n x)
      have h4 : Kept s0 s4 := .ite h3.ctxEvent h3
      exact h4.traceComplete.retireRec.ringInterrupt.markFree

theorem execCompletionPost {ring} (hs : Kept s0 s) :
    Kept s0 (stateAfter s (Machine.execCompletionPost ring s)) := by
  unfold Machine.execCompletionPost
  exact hs.post

theorem countEntry {g} {i} (hs : Kept s0 s) : Kept s0 (s.countEntry g i) := by
  unfold State.countEntry
  split
  · exact hs.countFailure
  · exact hs

theorem accept {n} (hs : Kept s0 s) : Kept s0 (s.accept n) := by
  unfold State.accept
  dsimp only
  refine .ite hs ?_
  split
  · exact hs.setRing (hs.regs n)
  · refine .ite hs ?_
    split
    · exact hs.setRing (hs.regs n)
    · split
      · exact hs.sendSnoops
      · exact .markFree (.noteEnded (.setRing (.but (.foldl hs fun _ _ hk => hk.countEntry)) (hs.regs n)))

theorem execPacketAccept {ring} (hs : Kept s0 s) :
    Kept s0 (stateAfter s (Machine.execPacketAccept ring s)) := by
  unfold Machine.execPacketAccept
  exact hs.accept

theorem dbIgnored {n} (hs : Kept s0 s) : Kept s0 (s.dbIgnored n) := by
  unfold State.dbIgnored
  dsimp only
  exact .count (hs.setRing (hs.regs n))

theorem movePi_regs (g : Ring) (p : BitVec 32) : (g.movePi p).regs = g.regs := by
  unfold Ring.movePi
  repeat' split
  all_goals rfl

theorem doorbell {ld off size v} (hs : Kept s0 s) : Kept s0 (s.doorbell ld off size v) := by
  unfold State.doorbell
  dsimp only
  refine .ite hs (.ite hs.dbIgnored (.ite hs.dbIgnored (.ite hs.dbIgnored (.ite hs.dbIgnored (.ite (.ite ?_ hs.dbIgnored) (.ite hs.dbIgnored ?_))))))
  · exact hs.setRing fun x => by rw [noteRoom_regs]; exact hs.regs _ x
  · exact hs.setRing fun x => by rw [noteRoom_regs, movePi_regs]; exact hs.regs _ x

theorem execDoorbellWrite {ld} {off} {size} {value} (hs : Kept s0 s) :
    Kept s0 (stateAfter s (Machine.execDoorbellWrite ld off size value s)) := by
  unfold Machine.execDoorbellWrite
  exact hs.doorbell

theorem throttleTick (hs : Kept s0 s) : Kept s0 s.throttleTick := by
  unfold State.throttleTick
  exact .ite hs.count hs

theorem poolPiece {l} (hs : Kept s0 s) : Kept s0 (s.poolPiece l) := by
  unfold State.poolPiece
  dsimp only
  split
  · exact hs
  · refine .ite hs ?_
    split
    · exact hs.sendSnoops
    · exact hs.poolLines.count.ctxEvent.setLd

theorem poolTick (hs : Kept s0 s) : Kept s0 s.poolTick := by
  unfold State.poolTick
  exact .foldl hs fun _ _ hk => hk.poolPiece

theorem poolStep (hs : Kept s0 s) : Kept s0 s.poolStep := by
  unfold State.poolStep
  exact .ite hs hs.poolTick

theorem closeWorn (hs : Kept s0 s) : Kept s0 s.closeWorn := by
  unfold State.closeWorn
  exact .foldl hs fun _ _ hk => hk.closeConn

theorem fillTick {d} (hs : Kept s0 s) : Kept s0 (s.fillTick d) := by
  unfold State.fillTick
  dsimp only
  refine .ite hs ?_
  split
  · exact hs
  · exact .same hs rfl
  · exact .ite hs (.same hs.dropGranule rfl)

theorem traceTick {d} (hs : Kept s0 s) : Kept s0 (s.traceTick d) := by
  unfold State.traceTick
  dsimp only
  exact .ite hs (.but hs)

theorem mirrorTick {d} (hs : Kept s0 s) : Kept s0 (s.mirrorTick d) := by
  unfold State.mirrorTick
  dsimp only
  exact .ite (.foldl (.but hs) fun _ _ hk => hk.remirror) hs

theorem commandTick {d} (hs : Kept s0 s) : Kept s0 (s.commandTick d) := by
  unfold State.commandTick
  exact .ite hs.retryCommands hs

theorem gateTick {p} (hs : Kept s0 s) : Kept s0 (s.gateTick p) := by
  unfold State.gateTick
  dsimp only
  exact .ite hs hs.gateWaits

/-- One nanosecond keeps the two invariants and the queue, and moves the time base on by one. -/
theorem advanceTime (s : State) : KeepsForm s s.advanceTime ∧ s.advanceTime.pending = s.pending ∧ s.advanceTime.now = s.now + 1 := by
  have h0 : Kept s ((s.gateTick .west).gateTick .east) := (Kept.refl s).gateTick.gateTick
  unfold State.advanceTime
  extract_lets s1 s2 s3 s4 s5 s6
  have h2 : Kept { s1 with now := s1.now + 1 } s2 := (Kept.refl _).gateDue.gateDue
  have h3 : Kept { s1 with now := s1.now + 1 } s3 := h2.mirrorTick.mirrorTick.commandTick.commandTick
  have h4 : Kept { s1 with now := s1.now + 1 } s4 := h3.traceTick.traceTick
  have h5 : Kept { s1 with now := s1.now + 1 } s5 := h4.fillTick.fillTick
  have h6 : Kept { s1 with now := s1.now + 1 } s6 := .ite h5.demotePersistent.demotePersistent h5
  have h := h6.throttleTick.urgentCheck (d := .west) |>.urgentCheck (d := .east) |>.poolStep.closeWorn
  refine ⟨⟨fun x => h.wf (h0.wf x), fun x => h.shaped (h0.shaped x)⟩, h.pending.trans h0.pending, h.now.trans ?_⟩
  exact congrArg (· + 1) h0.now

end Kept

/-! ### Cold resets -/

namespace KeepsForm
variable {s0 s t : State}

theorem refl (s : State) : KeepsForm s s := ⟨id, id⟩

theorem trans {r : State} (h : KeepsForm r s) (h' : KeepsForm s t) : KeepsForm r t := ⟨fun x => h'.1 (h.1 x), fun x => h'.2 (h.2 x)⟩

theorem ite {c : Prop} [Decidable c] {a b : State} (ha : KeepsForm s0 a) (hb : KeepsForm s0 b) : KeepsForm s0 (if c then a else b) := by
  split
  · exact ha
  · exact hb

/-- What an outcome keeps that is a next state. -/
theorem next (h : KeepsForm s0 t) : KeepsForm s0 (stateAfter s (.next t)) := h

/-- The invariants see only the core. -/
theorem same (h : KeepsForm s0 s) (e : t.core = s.core) : KeepsForm s0 t := h.trans ((Kept.refl s).same e).form

/-- R413: the wipe of a cold reset leaves bytes of memory out, and neither the core targets nor the media's counts change. -/
theorem wiped {b debug} (h : KeepsForm s0 s) : KeepsForm s0 (s.wiped b debug) := by
  refine h.trans ⟨cellsAbove_filter _, fun x => ⟨fun n => ?_, x.2.1, fun hm d => ?_⟩⟩
  · exact List.length_replicate
  · have hmedia : s.coal.media = true := by
      rcases hm with hm | hm
      · exact (Bool.and_eq_true_iff.1 hm).1
      · cases hm
    cases d
    · exact x.2.2 (.inl hmedia) .west
    · exact x.2.2 (.inl hmedia) .east

theorem coldReset {cause} (h : KeepsForm s0 s) : KeepsForm s0 (s.coldReset cause) := by
  unfold State.coldReset
  exact .ite h (h.trans (Kept.refl s).section_.form).wiped

theorem headReset {head cause} (h : KeepsForm s0 s) : KeepsForm s0 (s.headReset head cause) := by
  unfold State.headReset
  exact .ite h (.ite h.coldReset (h.trans (Kept.refl s).cxlDown.form))

theorem gblCtl {ld value} (h : KeepsForm s0 s) : KeepsForm s0 (s.gblCtl ld value) := by
  unfold State.gblCtl
  extract_lets held g1 s1 g2 s2 s3
  have h1 : Kept s s1 := .but (.refl s)
  have h2 : Kept s s2 := .ite (.but h1) h1
  have h3 : Kept s s3 := .ite h2.startWarm h2
  exact .ite h (.ite (h.trans h1.form).coldReset (.ite (h.trans h3.restore.form) (h.trans h3.form)))

theorem advance {target present digest signature} (h : KeepsForm s0 s) : KeepsForm s0 (s.advance target present digest signature) := by
  have hr : KeepsForm s0 s.refuse := h.trans (Kept.refl s).refuse.form
  have hsay : Kept s (s.say St.ok) := (Kept.refl s).say
  unfold State.advance
  split
  · exact hr
  · refine .ite hr (.ite hr (.ite hr ?_))
    refine coldReset (.same (h.trans (Kept.form (.ite ?_ hsay))) rfl)
    exact Kept.erased (.but hsay)

theorem openDebug {signature} (h : KeepsForm s0 s) : KeepsForm s0 (s.openDebug signature) := by
  have hr : KeepsForm s0 s.refuse := h.trans (Kept.refl s).refuse.form
  unfold State.openDebug
  have hsay : Kept s (s.say St.ok) := (Kept.refl s).say
  exact .ite hr (.ite hr (.coldReset (same (s := s.say St.ok) (h.trans hsay.form) rfl)))

/-- A vendor command keeps what its own work keeps. -/
theorem vendor {l} {go : State → State} {any boot} (hgo : KeepsForm s (go s)) : KeepsForm s (s.vendor l go any boot) := by
  have hs := Kept.refl s
  unfold State.vendor
  exact .ite hs.answer.form (.ite hs.no.form (.ite hs.say.form (.ite hs.say.form (.ite hs.say.form hgo))))

theorem writeGbl {ld off v} (s : State) : KeepsForm s (s.writeGbl ld off v) := by
  unfold State.writeGbl
  exact .ite (refl s).gblCtl (.ite (Kept.refl s).execGblFaultClear.form (.ite (Kept.form (.but (.refl s))) (refl s)))

theorem regWrite {ld off width v} (s : State) : KeepsForm s (s.regWrite ld off width v) := by
  have hs := Kept.refl s
  unfold State.regWrite
  refine .ite (refl s) (.ite ?_ (.ite (refl s) (.ite (writeGbl s) (.ite hs.writeBlock.form (refl s)))))
  exact .ite hs.writeRing32.form (.ite hs.writeRing64.form (refl s))

theorem execRegisterWrite {ld off width v} (s : State) : KeepsForm s (stateAfter s (execRegisterWrite ld off width v s)) := regWrite s

theorem execGblRlogClear {ld v} (s : State) : KeepsForm s (stateAfter s (execGblRlogClear ld v s)) := .ite (refl s).gblCtl (refl s)

theorem execGblColdReset {ld v} (s : State) : KeepsForm s (stateAfter s (execGblColdReset ld v s)) := .ite (refl s).gblCtl (refl s)

theorem execGblRestore {ld v} (s : State) : KeepsForm s (stateAfter s (execGblRestore ld v s)) := .ite (refl s).gblCtl (refl s)

theorem execGblWarmReset {ld v} (s : State) : KeepsForm s (stateAfter s (execGblWarmReset ld v s)) := .ite (refl s).gblCtl (refl s)

theorem execOpenDebug {ld signature} (s : State) : KeepsForm s (stateAfter s (execOpenDebug ld signature s)) := by
  unfold Machine.execOpenDebug
  exact next (vendor (.ite (Kept.refl s).no.form (refl s).openDebug))

theorem execAdvanceLifeCycle {ld target present digest signature} (s : State) :
    KeepsForm s (stateAfter s (execAdvanceLifeCycle ld target present digest signature s)) := by
  unfold Machine.execAdvanceLifeCycle
  exact next (vendor (.ite (Kept.refl s).no.form (refl s).advance))

theorem execFundamentalReset {head} (s : State) : KeepsForm s (stateAfter s (execFundamentalReset head s)) := (refl s).headReset

theorem execPerstAssert {head ns} (s : State) : KeepsForm s (stateAfter s (execPerstAssert head ns s)) := .ite (refl s) (refl s).headReset

theorem execColdReset {cause} (s : State) : KeepsForm s (stateAfter s (execColdReset cause s)) := by
  have hs := refl s
  unfold Machine.execColdReset
  exact .ite (.ite (hs.same rfl) hs) (.ite (.ite (hs.same rfl) hs) hs.coldReset)

theorem execResetNAssert (s : State) : KeepsForm s (stateAfter s (execResetNAssert s)) := by
  have hs := refl s
  unfold Machine.execResetNAssert
  exact .ite (hs.coldReset.same rfl) hs

theorem execPowerHoldExit (s : State) : KeepsForm s (stateAfter s (execPowerHoldExit s)) := .ite (refl s).coldReset (refl s)

/-- R491: a part that lost its power starts again from 750 mV. -/
theorem execPowerLoss (s : State) : KeepsForm s (stateAfter s (execPowerLoss s)) := by
  unfold Machine.execPowerLoss
  extract_lets met flags buffered kept t
  have hk : Kept s kept := .but (.refl s)
  have ht : KeepsForm s t := wiped (Kept.form (.ite hk.section_ hk))
  refine .ite (refl s) ⟨ht.1, fun x => ⟨(ht.2 x).1, fun d => ?_, (ht.2 x).2.2⟩⟩
  show 620 ≤ (⟨750, 750⟩ : Two Nat).get d ∧ (⟨750, 750⟩ : Two Nat).get d ≤ 800 ∧ (⟨750, 750⟩ : Two Nat).get d % 5 = 0
  cases d <;> decide

end KeepsForm

/-! ### Every step -/

/-- Every command keeps both invariants. -/
theorem exec_keepsForm (c : Instr) (s : State) : KeepsForm s (stateAfter s (exec c s)) := by
  cases c with
  | doorbellWrite _ _ _ _ => exact (Kept.refl s).execDoorbellWrite.form
  | packetAccept _ => exact (Kept.refl s).execPacketAccept.form
  | completionPost _ => exact (Kept.refl s).execCompletionPost.form
  | bookingWindowStart _ => exact (Kept.refl s).execBookingWindowStart.form
  | badOpcode _ => exact (Kept.refl s).execBadOpcode.form
  | ctlNop _ => exact (Kept.refl s).execCtlNop.form
  | ctlFence _ => exact (Kept.refl s).execCtlFence.form
  | ctlWait _ => exact (Kept.refl s).execCtlWait.form
  | ctlWaitTimeout _ => exact (Kept.refl s).execCtlWaitTimeout.form
  | ctlSignal _ => exact (Kept.refl s).execCtlSignal.form
  | ctlSkipif _ => exact (Kept.refl s).execCtlSkipif.form
  | ctlLoop _ => exact (Kept.refl s).execCtlLoop.form
  | ctlCall _ => exact (Kept.refl s).execCtlCall.form
  | ctlRet _ => exact (Kept.refl s).execCtlRet.form
  | ctlAdd _ => exact (Kept.refl s).execCtlAdd.form
  | seqCreate _ => exact (Kept.refl s).execSeqCreate.form
  | seqDestroy _ => exact (Kept.refl s).execSeqDestroy.form
  | seqDestroyRelease _ => exact (Kept.refl s).execSeqDestroyRelease.form
  | seqTrunc _ => exact (Kept.refl s).execSeqTrunc.form
  | seqTruncProceed _ => exact (Kept.refl s).execSeqTruncProceed.form
  | seqHint _ => exact (Kept.refl s).execSeqHint.form
  | seqQuery _ => exact (Kept.refl s).execSeqQuery.form
  | pageStage _ => exact (Kept.refl s).execPageStage.form
  | pageSeal _ => exact (Kept.refl s).execPageSeal.form
  | pageFetch _ => exact (Kept.refl s).execPageFetch.form
  | kvAppend _ => exact (Kept.refl s).execKvAppend.form
  | pfxMatch _ => exact (Kept.refl s).execPfxMatch.form
  | pfxPublish _ => exact (Kept.refl s).execPfxPublish.form
  | pfxFork _ => exact (Kept.refl s).execPfxFork.form
  | pfxWithdraw _ => exact (Kept.refl s).execPfxWithdraw.form
  | attDecode _ => exact (Kept.refl s).execAttDecode.form
  | attPrefill _ => exact (Kept.refl s).execAttPrefill.form
  | attMerge _ => exact (Kept.refl s).execAttMerge.form
  | attBwd _ => exact (Kept.refl s).execAttBwd.form
  | winOpen _ => exact (Kept.refl s).execWinOpen.form
  | winAdvance _ => exact (Kept.refl s).execWinAdvance.form
  | winClose _ => exact (Kept.refl s).execWinClose.form
  | winLayerSend _ => exact (Kept.refl s).execWinLayerSend.form
  | poolFill _ => exact (Kept.refl s).execPoolFill.form
  | poolCopy _ => exact (Kept.refl s).execPoolCopy.form
  | poolCompare _ => exact (Kept.refl s).execPoolCompare.form
  | poolReduce _ => exact (Kept.refl s).execPoolReduce.form
  | flueSend _ => exact (Kept.refl s).execFlueSend.form
  | flueWait _ => exact (Kept.refl s).execFlueWait.form
  | flueWaitTimeout _ => exact (Kept.refl s).execFlueWaitTimeout.form
  | chkSetup _ => exact (Kept.refl s).execChkSetup.form
  | chkFeed _ => exact (Kept.refl s).execChkFeed.form
  | chkSave _ => exact (Kept.refl s).execChkSave.form
  | chkRestore _ => exact (Kept.refl s).execChkRestore.form
  | ctrStart _ => exact (Kept.refl s).execCtrStart.form
  | ctrStop _ => exact (Kept.refl s).execCtrStop.form
  | ctrSample _ => exact (Kept.refl s).execCtrSample.form
  | keyRegister _ => exact (Kept.refl s).execKeyRegister.form
  | keyRevoke _ => exact (Kept.refl s).execKeyRevoke.form
  | keyRevokeDone _ => exact (Kept.refl s).execKeyRevokeDone.form
  | identifyMemoryDevice _ => exact (Kept.refl s).execIdentifyMemoryDevice.form
  | getSupportedLogs _ => exact (Kept.refl s).execGetSupportedLogs.form
  | getLog _ _ _ => exact (Kept.refl s).execGetLog.form
  | getEventRecords _ _ => exact (Kept.refl s).execGetEventRecords.form
  | clearEventRecords _ _ _ => exact (Kept.refl s).execClearEventRecords.form
  | getEventInterruptPolicy _ => exact (Kept.refl s).execGetEventInterruptPolicy.form
  | setEventInterruptPolicy _ _ => exact (Kept.refl s).execSetEventInterruptPolicy.form
  | getTimestamp _ => exact (Kept.refl s).execGetTimestamp.form
  | setTimestamp _ _ => exact (Kept.refl s).execSetTimestamp.form
  | getPoisonList _ _ _ => exact (Kept.refl s).execGetPoisonList.form
  | clearPoison _ _ _ => exact (Kept.refl s).execClearPoison.form
  | injectPoison _ _ => exact (Kept.refl s).execInjectPoison.form
  | getDcConfiguration _ => exact (Kept.refl s).execGetDcConfiguration.form
  | getDcExtentList _ _ _ => exact (Kept.refl s).execGetDcExtentList.form
  | addDcResponse _ _ => exact (Kept.refl s).execAddDcResponse.form
  | releaseDynamicCapacity _ _ _ => exact (Kept.refl s).execReleaseDynamicCapacity.form
  | backgroundOperationStatus _ => exact (Kept.refl s).execBackgroundOperationStatus.form
  | requestAbortBackgroundOp _ => exact (Kept.refl s).execRequestAbortBackgroundOp.form
  | getFwInfo _ => exact (Kept.refl s).execGetFwInfo.form
  | transferFw _ _ => exact (Kept.refl s).execTransferFw.form
  | activateFw _ _ => exact (Kept.refl s).execActivateFw.form
  | getVendorLog _ _ _ _ => exact (Kept.refl s).execGetVendorLog.form
  | registerProfile _ _ => exact (Kept.refl s).execRegisterProfile.form
  | deregisterProfile _ _ => exact (Kept.refl s).execDeregisterProfile.form
  | registerImage _ _ _ _ => exact (Kept.refl s).execRegisterImage.form
  | deregisterImage _ _ => exact (Kept.refl s).execDeregisterImage.form
  | allocateContextSpace _ _ _ _ _ => exact (Kept.refl s).execAllocateContextSpace.form
  | releaseContextSpace _ _ _ _ => exact (Kept.refl s).execReleaseContextSpace.form
  | setEvent _ _ _ _ _ => exact (Kept.refl s).execSetEvent.form
  | poolFillCommand _ _ _ _ _ => exact (Kept.refl s).execPoolFillCommand.form
  | poolCopyCommand _ _ _ _ _ => exact (Kept.refl s).execPoolCopyCommand.form
  | poolCompareCommand _ _ _ _ _ => exact (Kept.refl s).execPoolCompareCommand.form
  | poolReduceCommand _ _ _ _ _ => exact (Kept.refl s).execPoolReduceCommand.form
  | advanceLifeCycle _ _ _ _ _ => exact .execAdvanceLifeCycle _
  | setMode _ _ => exact (Kept.refl s).execSetMode.form
  | createContext _ _ _ _ _ _ => exact (Kept.refl s).execCreateContext.form
  | setContext _ _ _ _ _ _ => exact (Kept.refl s).execSetContext.form
  | rotateContextKey _ _ => exact (Kept.refl s).execRotateContextKey.form
  | retireContext _ _ => exact (Kept.refl s).execRetireContext.form
  | retireComplete _ => exact (Kept.refl s).execRetireComplete.form
  | createWeightObject _ _ _ _ _ _ _ => exact (Kept.refl s).execCreateWeightObject.form
  | loadWeightLayer _ _ _ _ => exact (Kept.refl s).execLoadWeightLayer.form
  | deleteWeightObject _ _ => exact (Kept.refl s).execDeleteWeightObject.form
  | getConfigurationBlock _ _ _ => exact (Kept.refl s).execGetConfigurationBlock.form
  | setMacsecCak _ _ _ _ => exact (Kept.refl s).execSetMacsecCak.form
  | getNonce _ => exact (Kept.refl s).execGetNonce.form
  | openDebug _ _ => exact .execOpenDebug _
  | beginConnectionKey _ _ => exact (Kept.refl s).execBeginConnectionKey.form
  | completeConnectionKey _ _ _ => exact (Kept.refl s).execCompleteConnectionKey.form
  | releasePersistentRoot _ _ => exact (Kept.refl s).execReleasePersistentRoot.form
  | releaseModelKey _ _ _ => exact (Kept.refl s).execReleaseModelKey.form
  | importCompatKey _ _ _ => exact (Kept.refl s).execImportCompatKey.form
  | getStartUpReport _ => exact (Kept.refl s).execGetStartUpReport.form
  | setClass _ _ _ _ => exact (Kept.refl s).execSetClass.form
  | setAdmission _ _ _ => exact (Kept.refl s).execSetAdmission.form
  | admitRing _ _ _ => exact (Kept.refl s).execAdmitRing.form
  | releaseBooking _ _ => exact (Kept.refl s).execReleaseBooking.form
  | getAdmission _ _ => exact (Kept.refl s).execGetAdmission.form
  | readTrace _ _ _ _ => exact (Kept.refl s).execReadTrace.form
  | readContextCounters _ _ _ _ => exact (Kept.refl s).execReadContextCounters.form
  | readStallHistogram _ _ _ => exact (Kept.refl s).execReadStallHistogram.form
  | getLdInfo _ => exact (Kept.refl s).execGetLdInfo.form
  | getLdAllocations _ => exact (Kept.refl s).execGetLdAllocations.form
  | qosCommands _ _ => exact (Kept.refl s).execQosCommands.form
  | getMultiHeadedInfo _ => exact (Kept.refl s).execGetMultiHeadedInfo.form
  | getDcdInfo _ => exact (Kept.refl s).execGetDcdInfo.form
  | getHostDcRegionConfig _ _ => exact (Kept.refl s).execGetHostDcRegionConfig.form
  | setDcRegionConfiguration _ _ _ => exact (Kept.refl s).execSetDcRegionConfiguration.form
  | getDcRegionExtentLists _ _ => exact (Kept.refl s).execGetDcRegionExtentLists.form
  | initiateDcAdd _ _ _ _ => exact (Kept.refl s).execInitiateDcAdd.form
  | initiateDcRelease _ _ _ _ _ => exact (Kept.refl s).execInitiateDcRelease.form
  | extentRemovalDone _ _ => exact (Kept.refl s).execExtentRemovalDone.form
  | bindContext _ _ _ => exact (Kept.refl s).execBindContext.form
  | hostDown _ _ => exact (Kept.refl s).execHostDown.form
  | defineSharedRegion _ _ _ => exact (Kept.refl s).execDefineSharedRegion.form
  | deleteSharedRegion _ _ => exact (Kept.refl s).execDeleteSharedRegion.form
  | setLdPrivilege _ _ _ => exact (Kept.refl s).execSetLdPrivilege.form
  | spdmGetVersion _ => exact (Kept.refl s).execSpdmGetVersion.form
  | spdmGetCapabilities _ => exact (Kept.refl s).execSpdmGetCapabilities.form
  | spdmNegotiateAlgorithms _ _ => exact (Kept.refl s).execSpdmNegotiateAlgorithms.form
  | spdmGetDigests _ => exact (Kept.refl s).execSpdmGetDigests.form
  | spdmGetCertificate _ _ _ => exact (Kept.refl s).execSpdmGetCertificate.form
  | spdmChallenge _ _ => exact (Kept.refl s).execSpdmChallenge.form
  | spdmGetMeasurements _ _ => exact (Kept.refl s).execSpdmGetMeasurements.form
  | spdmKeyExchange _ _ => exact (Kept.refl s).execSpdmKeyExchange.form
  | spdmFinish _ _ => exact (Kept.refl s).execSpdmFinish.form
  | spdmEndSession _ => exact (Kept.refl s).execSpdmEndSession.form
  | ideKmKeyProgram _ _ _ => exact (Kept.refl s).execIdeKmKeyProgram.form
  | hostMemRead _ _ _ _ => exact (Kept.refl s).execHostMemRead.form
  | hostMemWrite _ _ _ _ => exact (Kept.refl s).execHostMemWrite.form
  | viewLoad _ _ _ => exact (Kept.refl s).execViewLoad.form
  | viewWrite _ _ _ => exact (Kept.refl s).execViewWrite.form
  | hdmDecoderCommit _ _ _ _ _ _ => exact (Kept.refl s).execHdmDecoderCommit.form
  | biResponse _ _ _ => exact (Kept.refl s).execBiResponse.form
  | biTimeout _ _ => exact (Kept.refl s).execBiTimeout.form
  | cxlLinkDown _ => exact (Kept.refl s).execCxlLinkDown.form
  | cxlLinkUp _ _ => exact (Kept.refl s).execCxlLinkUp.form
  | cxlLaneFail _ _ _ => exact (Kept.refl s).execCxlLaneFail.form
  | frameReceive _ _ => exact (Kept.refl s).execFrameReceive.form
  | flueDataReceive _ _ => exact (Kept.refl s).execFlueDataReceive.form
  | flueAckReceive _ _ => exact (Kept.refl s).execFlueAckReceive.form
  | flueCloseReceive _ _ => exact (Kept.refl s).execFlueCloseReceive.form
  | flueReadReceive _ _ => exact (Kept.refl s).execFlueReadReceive.form
  | pfcReceive _ _ _ => exact (Kept.refl s).execPfcReceive.form
  | mkaFrameReceive _ _ _ => exact (Kept.refl s).execMkaFrameReceive.form
  | ackDelayExpiry _ _ => exact (Kept.refl s).execAckDelayExpiry.form
  | linkReplay _ _ _ => exact (Kept.refl s).execLinkReplay.form
  | messageTimeout _ _ => exact (Kept.refl s).execMessageTimeout.form
  | egressFrameSend _ => exact (Kept.refl s).execEgressFrameSend.form
  | policerRefill => exact (Kept.refl s).execPolicerRefill.form
  | gateScheduleSwitch _ => exact (Kept.refl s).execGateScheduleSwitch.form
  | gateEntryBoundary _ => exact (Kept.refl s).execGateEntryBoundary.form
  | fluePortUp _ _ => exact (Kept.refl s).execFluePortUp.form
  | fluePortDown _ _ => exact (Kept.refl s).execFluePortDown.form
  | promotionIssue _ => exact (Kept.refl s).execPromotionIssue.form
  | promotionComplete _ _ _ => exact (Kept.refl s).execPromotionComplete.form
  | residencyBoundExpiry _ _ => exact (Kept.refl s).execResidencyBoundExpiry.form
  | stageHoldExpiry _ => exact (Kept.refl s).execStageHoldExpiry.form
  | backgroundReclaim _ => exact (Kept.refl s).execBackgroundReclaim.form
  | demotionComplete _ => exact (Kept.refl s).execDemotionComplete.form
  | tableDemote _ => exact (Kept.refl s).execTableDemote.form
  | orphanSweepTick => exact (Kept.refl s).execOrphanSweepTick.form
  | persistReinsert => exact (Kept.refl s).execPersistReinsert.form
  | keySweepStep _ => exact (Kept.refl s).execKeySweepStep.form
  | stackSweepStep _ => exact (Kept.refl s).execStackSweepStep.form
  | coalRowProgrammed _ _ _ => exact (Kept.refl s).execCoalRowProgrammed.form
  | gcReclaim _ => exact (Kept.refl s).execGcReclaim.form
  | coalEraseDone _ _ _ => exact (Kept.refl s).execCoalEraseDone.form
  | coalCheckpoint _ => exact (Kept.refl s).execCoalCheckpoint.form
  | patrolRead _ _ _ _ => exact (Kept.refl s).execPatrolRead.form
  | nandLunFail _ _ => exact (Kept.refl s).execNandLunFail.form
  | coalReplayDone _ => exact (Kept.refl s).execCoalReplayDone.form
  | coalFormatDone _ => exact (Kept.refl s).execCoalFormatDone.form
  | coalChannelIdentify _ _ => exact (Kept.refl s).execCoalChannelIdentify.form
  | gblWarmReset _ _ => exact .execGblWarmReset _
  | warmDone => exact (Kept.refl s).execWarmDone.form
  | gblRestore _ _ => exact .execGblRestore _
  | gblColdReset _ _ => exact .execGblColdReset _
  | gblRlogClear _ _ => exact .execGblRlogClear _
  | gblFaultClear _ _ => exact (Kept.refl s).execGblFaultClear.form
  | ringEnable _ _ _ => exact (Kept.refl s).execRingEnable.form
  | ringDisable _ _ _ => exact (Kept.refl s).execRingDisable.form
  | ringCqBaseMove _ _ _ => exact (Kept.refl s).execRingCqBaseMove.form
  | domLookup _ _ => exact (Kept.refl s).execDomLookup.form
  | domRead _ _ => exact (Kept.refl s).execDomRead.form
  | domInsertAny _ _ => exact (Kept.refl s).execDomInsertAny.form
  | domInsertAt _ _ => exact (Kept.refl s).execDomInsertAt.form
  | domDelete _ _ => exact (Kept.refl s).execDomDelete.form
  | domShiftMove _ => exact (Kept.refl s).execDomShiftMove.form
  | coalEnSet _ _ => exact (Kept.refl s).execCoalEnSet.form
  | coalEnClear _ _ => exact (Kept.refl s).execCoalEnClear.form
  | coalFormat _ _ => exact (Kept.refl s).execCoalFormat.form
  | coalChEnWrite _ _ => exact (Kept.refl s).execCoalChEnWrite.form
  | fluConnRead _ _ => exact (Kept.refl s).execFluConnRead.form
  | fluConnWrite _ _ => exact (Kept.refl s).execFluConnWrite.form
  | fluConnOpen _ _ => exact (Kept.refl s).execFluConnOpen.form
  | fluConnClose _ _ => exact (Kept.refl s).execFluConnClose.form
  | fluCtlWrite _ _ => exact (Kept.refl s).execFluCtlWrite.form
  | dmpPolRead _ _ => exact (Kept.refl s).execDmpPolRead.form
  | dmpPolWrite _ _ => exact (Kept.refl s).execDmpPolWrite.form
  | dmpPolRefill _ _ => exact (Kept.refl s).execDmpPolRefill.form
  | dmpGateWriteEntry _ _ => exact (Kept.refl s).execDmpGateWriteEntry.form
  | dmpGateReadEntry _ _ => exact (Kept.refl s).execDmpGateReadEntry.form
  | dmpGateCommit _ _ => exact (Kept.refl s).execDmpGateCommit.form
  | dmpGateDisable _ _ => exact (Kept.refl s).execDmpGateDisable.form
  | cxpCtlWrite _ _ => exact (Kept.refl s).execCxpCtlWrite.form
  | telClear _ _ => exact (Kept.refl s).execTelClear.form
  | telClearAo _ _ => exact (Kept.refl s).execTelClearAo.form
  | telTraceCtlWrite _ _ => exact (Kept.refl s).execTelTraceCtlWrite.form
  | telUtilBusyRead _ _ _ => exact (Kept.refl s).execTelUtilBusyRead.form
  | registerWrite _ _ _ _ => exact .execRegisterWrite _
  | tapSnapshot _ _ _ _ _ => exact (Kept.refl s).execTapSnapshot.form
  | powerWarnAssert _ => exact (Kept.refl s).execPowerWarnAssert.form
  | flushComplete => exact (Kept.refl s).execFlushComplete.form
  | powerHoldExit => exact .execPowerHoldExit _
  | resetNAssert => exact .execResetNAssert _
  | coldReset _ => exact .execColdReset _
  | fwReady _ => exact (Kept.refl s).execFwReady.form
  | perstAssert _ _ => exact .execPerstAssert _
  | fundamentalReset _ => exact .execFundamentalReset _
  | thermtrip die _ => exact ((Kept.refl s).execThermtrip (die := die)).form
  | supplyControlTick _ _ _ => exact (Kept.refl s).execSupplyControlTick.form
  | thermalPauseSlot _ _ => exact (Kept.refl s).execThermalPauseSlot.form
  | regulatorPoll _ _ => exact (Kept.refl s).execRegulatorPoll.form
  | regulatorTimeout _ => exact (Kept.refl s).execRegulatorTimeout.form
  | sensorPoll _ _ => exact (Kept.refl s).execSensorPoll.form
  | sensorTimeout _ => exact (Kept.refl s).execSensorTimeout.form
  | tempHistoryHour => exact (Kept.refl s).execTempHistoryHour.form
  | trefLoss => exact (Kept.refl s).execTrefLoss.form
  | trefReturn => exact (Kept.refl s).execTrefReturn.form
  | refclkLoss _ => exact (Kept.refl s).execRefclkLoss.form
  | watchdogExpiry => exact (Kept.refl s).execWatchdogExpiry.form
  | fireboxFault _ _ => exact (Kept.refl s).execFireboxFault.form
  | stokerFault _ _ => exact (Kept.refl s).execStokerFault.form
  | journalBankFault _ _ => exact (Kept.refl s).execJournalBankFault.form
  | hbmStackFault _ _ => exact (Kept.refl s).execHbmStackFault.form
  | bridgeLaneFault _ _ => exact (Kept.refl s).execBridgeLaneFault.form
  | secondFaultStop _ _ _ => exact (Kept.refl s).execSecondFaultStop.form
  | recoveryWindowEnd _ _ _ => exact (Kept.refl s).execRecoveryWindowEnd.form
  | engineReset _ _ _ => exact (Kept.refl s).execEngineReset.form
  | powerLoss => exact .execPowerLoss _
  | pfcPauseExpiry _ _ => exact (Kept.refl s).execPfcPauseExpiry.form
  | secureAssociationLoss _ => exact (Kept.refl s).execSecureAssociationLoss.form

/-- Every step keeps both invariants. -/
theorem step_keepsForm {s t : State} (e : step s = .next t) : KeepsForm s t := by
  unfold step at e
  split at e
  · cases e
    exact .ite (Kept.advanceTime s).1 (.refl s)
  · next c cs _ =>
    have h := exec_keepsForm c { s with pending := cs }
    rw [e] at h
    exact h

end Machine

/-- Settles O5: no command and no nanosecond breaks the canonical form of memory. -/
theorem stepKeepsMemoryCanonical : Obligations.StepKeepsMemoryCanonical := by
  intro s t hs e
  exact (Machine.step_keepsForm e).1 hs

/-- Settles O6: no command and no nanosecond breaks the shape of the part. -/
theorem stepKeepsShape : Obligations.StepKeepsShape := by
  intro s t hs e
  exact (Machine.step_keepsForm e).2 hs

/-- Settles O2: on an empty queue a step is one nanosecond. -/
theorem idleStepAdvancesTime : Obligations.IdleStepAdvancesTime := by
  intro s hq hp hr
  obtain ⟨-, hpending, hnow⟩ := Machine.Kept.advanceTime s
  refine ⟨s.advanceTime, ?_, hnow, hpending.trans hq⟩
  simp [Machine.step, hq, Machine.State.tick, hp, hr]

end Sys2Proof
end

section
/-! PROOFS. The queue, reset and memory. -/

namespace Sys2Proof
namespace Machine

/-- Settles O1: `step` matches on the queue. -/
theorem stepRunsFrontCommand : Obligations.StepRunsFrontCommand := by
  intro c cs s hq
  simp only [step, hq]

/-- R274: after a wipe no privilege is set, so LD 0 of each head is MANAGER. -/
theorem State.manager_reset (l : Ld) : State.reset.manager l = (l.id == 0) := by
  have hpriv : (State.reset.cxp.head.get l.head).privSet = false := by cases l.head <;> rfl
  rw [State.manager, hpriv]
  rfl

/-- Settles O3: each value stands in `State.reset`. -/
theorem resetLeavesAfterWipeValues : Obligations.ResetLeavesAfterWipeValues := by
  refine ⟨rfl, rfl, rfl, rfl, rfl, rfl, fun _ _ => rfl, fun _ => rfl, fun _ => ⟨Bool.false_ne_true, rfl, rfl, rfl⟩,
    fun _ => rfl, rfl, rfl, rfl, rfl, rfl, rfl, rfl, rfl, rfl, rfl, rfl, rfl, rfl, rfl, rfl, rfl, rfl, rfl, rfl, rfl, rfl,
    rfl, rfl, rfl, rfl, rfl, rfl, State.manager_reset⟩

/-- Settles O4: memory lists no byte, no ring differs from the default one, the core targets stand on their reset value,
and no media were ever formatted. -/
theorem resetMeetsInvariants : Obligations.ResetMeetsInvariants := by
  have hmedia : ¬(State.reset.coal.media = true ∨ State.reset.coal.formatted = true) := by decide
  refine ⟨⟨rfl, fun _ => rfl⟩, fun _ => rfl, fun d => ?_, fun h => absurd h hmedia⟩
  cases d <;> decide

/-- R379: a line lies whole in a written range just when its 64 bytes do. -/
theorem mem_wholeLines {a n l : Nat} : l ∈ wholeLines a n ↔ a ≤ 64 * l ∧ 64 * l + 64 ≤ a + n := by
  rw [wholeLines, List.mem_filter, Bool.and_eq_true, decide_eq_true_eq, decide_eq_true_eq]
  refine ⟨And.right, fun h => ⟨?_, h⟩⟩
  have hn : n ≠ 0 := by omega
  rw [linesOf, if_neg hn, List.mem_map]
  exact ⟨l - a / 64, List.mem_range.mpr (by omega), by omega⟩

/-- R379: a write clears the poison of the lines that lie whole in it. -/
theorem Mem.write_poison (m : Mem) (a : Nat) (bs : List Byte) : (m.write a bs).poison =
    m.poison.filter (fun l => !(decide (a ≤ 64 * l) && decide (64 * l + 64 ≤ a + bs.length))) := by
  refine List.filter_congr fun l _ => congrArg (!·) ?_
  rw [Bool.eq_iff_iff]
  simp [mem_wholeLines]

theorem State.poke_byte {s : State} (h : s.mem.wf = true) (a : Nat) (bs : List Byte) (x : Nat) :
    (s.poke a bs).mem.byte x = if a ≤ x ∧ x < a + bs.length then bs.getD (x - a) 0 else s.mem.byte x :=
  Mem.write_byte h a bs x

/-- R189: what was written reads back. -/
theorem State.peek_poke {s : State} (h : s.mem.wf = true) (a : Nat) (bs : List Byte) :
    (s.poke a bs).peek a bs.length = bs := by
  refine List.ext_getElem (by simp [State.peek, Mem.read]) fun i hi hi' => ?_
  have hread : ((s.poke a bs).peek a bs.length)[i] = (s.poke a bs).mem.byte (a + i) := by simp [State.peek, Mem.read]
  rw [hread, State.poke_byte h, if_pos (by omega), Nat.add_sub_cancel_left]
  exact (List.getElem_eq_getD 0).symm

theorem State.sameMemoryBut_poke {s : State} (h : s.mem.wf = true) (a : Nat) (bs : List Byte) :
    SameMemoryBut a bs.length s (s.poke a bs) := by
  intro x hx
  rw [State.poke_byte h, if_neg hx]

/-- Settles O7: `Mem.write_byte` says what each byte is after a write. -/
theorem writtenBytesReadBack : Obligations.WrittenBytesReadBack := by
  intro s a bs h
  exact ⟨Mem.write_wf h a bs, State.peek_poke h a bs, State.sameMemoryBut_poke h a bs, Mem.write_poison s.mem a bs⟩

end Machine
end Sys2Proof
end

section
/-! PROOFS. Rings: doorbells (R28), the changes of a ring that runs, the start of a booking window. -/

namespace Sys2Proof
namespace Machine

/-! ### What the bookkeeping of a ring leaves -/

/-- R33: noting when the completion ring filled or had room again touches no index, register or error mark. -/
theorem Ring.noteRoom_keeps (g : Ring) (now : Nat) :
    (g.noteRoom now).pi = g.pi ∧ (g.noteRoom now).cqCi = g.cqCi ∧ (g.noteRoom now).aidx = g.aidx ∧
      (g.noteRoom now).dbErr = g.dbErr ∧ (g.noteRoom now).cqPi = g.cqPi ∧ (g.noteRoom now).cidx = g.cidx := by
  unfold Ring.noteRoom
  split <;> exact ⟨rfl, rfl, rfl, rfl, rfl, rfl⟩

/-- R28: a new PI is the ring's PI; it moves no other index and no error mark. -/
theorem Ring.movePi_keeps (g : Ring) (p : BitVec 32) :
    (g.movePi p).pi = p ∧ (g.movePi p).aidx = g.aidx ∧ (g.movePi p).dbErr = g.dbErr := by
  unfold Ring.movePi
  split
  · next h => exact ⟨h.symm, rfl, rfl⟩
  · exact ⟨rfl, rfl, rfl⟩

/-! ### Doorbells (R28) -/

/-- R28: the doorbell writes that are ignored. -/
theorem State.doorbell_ignored {s : State} {ld : Ld} {off size : Nat} {v : BitVec 64} (hn : off / 8 < 65536)
    (h : (s.manager ld = false ∧ s.bound ld (s.ring (off / 8)).ctx.toNat = false) ∨ size ≠ 8 ∨ off % 8 ≠ 0 ∨
        ((s.ring (off / 8)).en = true ∧
          ((s.ring (off / 8)).size.toNat < (v.setWidth 32 - (s.ring (off / 8)).aidx).toNat ∨
            (s.ring (off / 8)).cqSize.toNat < ((s.ring (off / 8)).cqPi - (v >>> 32).setWidth 32).toNat)) ∨
        ((s.ring (off / 8)).en = false ∧
          ((s.ring (off / 8)).draining = false ∨ v.setWidth 32 ≠ (s.ring (off / 8)).pi))) :
    s.doorbell ld off size v = s.dbIgnored (off / 8) := by
  have hlt : ¬ 65536 ≤ off / 8 := by omega
  unfold State.doorbell
  dsimp only
  rw [if_neg hlt]
  by_cases hld : (!(s.manager ld || s.bound ld (s.ring (off / 8)).ctx.toNat)) = true
  · exact if_pos hld
  rw [if_neg hld]
  by_cases hsize : (decide (size ≠ 8) || decide (off % 8 ≠ 0)) = true
  · exact if_pos hsize
  rw [if_neg hsize]
  by_cases hruns : (!(s.gbl.fwReady && !s.gbl.held && !s.gbl.warming && ((s.ring (off / 8)).en || (s.ring (off / 8)).draining))) = true
  · exact if_pos hruns
  rw [if_neg hruns]
  by_cases hci : (s.ring (off / 8)).cqSize.toNat < ((s.ring (off / 8)).cqPi - (v >>> 32).setWidth 32).toNat
  · exact if_pos hci
  rw [if_neg hci]
  obtain ⟨hm, hb⟩ | h | h | ⟨hen, hpi | h⟩ | ⟨hen, hdrain | hpi⟩ := h
  · simp [hm, hb] at hld
  · simp [h] at hsize
  · simp [h] at hsize
  · rw [if_neg (by simp [hen]), if_pos hpi]
  · exact absurd h hci
  · simp [hen, hdrain] at hruns
  · rw [if_pos (by simp [hen]), if_neg hpi]

/-- R28: the doorbell write that is taken. -/
theorem State.doorbell_taken {s : State} {ld : Ld} {n : Nat} {v : BitVec 64} (hn : n < 65536)
    (hld : s.manager ld = true ∨ s.bound ld (s.ring n).ctx.toNat = true) (hready : s.gbl.fwReady = true)
    (hheld : s.gbl.held = false) (hwarm : s.gbl.warming = false) (hen : (s.ring n).en = true)
    (hci : ((s.ring n).cqPi - (v >>> 32).setWidth 32).toNat ≤ (s.ring n).cqSize.toNat)
    (hpi : (v.setWidth 32 - (s.ring n).aidx).toNat ≤ (s.ring n).size.toNat) :
    s.doorbell ld (8 * n) 8 v = s.setRing n
      (({ (s.ring n).movePi (v.setWidth 32) with cqCi := (v >>> 32).setWidth 32 } : Ring).noteRoom s.now.toNat) := by
  have hoff : 8 * n / 8 = n := by omega
  have hlt : ¬ 65536 ≤ n := by omega
  have htake : (s.manager ld || s.bound ld (s.ring n).ctx.toNat) = true := by simpa using hld
  unfold State.doorbell
  dsimp only
  rw [hoff, if_neg hlt, if_neg (by simp [htake]), if_neg (by simp [Nat.mul_mod_right]),
    if_neg (by simp [hready, hheld, hwarm, hen]), if_neg (Nat.not_lt.mpr hci), if_neg (by simp [hen]),
    if_neg (Nat.not_lt.mpr hpi)]

/-- Settles O8: `State.doorbell_taken` and `State.doorbell_ignored` are R28's two outcomes. -/
theorem doorbellDecides : Obligations.DoorbellDecides := by
  refine ⟨fun ld n v s hn hld hready hheld hwarm hen hci hpi => ?_, fun ld off size v s hn h => ?_⟩
  · obtain ⟨hroomPi, hroomCi, hroomAidx, hroomErr, -, -⟩ := Ring.noteRoom_keeps
      { (s.ring n).movePi (v.setWidth 32) with cqCi := (v >>> 32).setWidth 32 } s.now.toNat
    obtain ⟨hmovePi, hmoveAidx, hmoveErr⟩ := Ring.movePi_keeps (s.ring n) (v.setWidth 32)
    refine ⟨_, congrArg Host.Outcome.next (State.doorbell_taken hn hld hready hheld hwarm hen hci hpi), ?_⟩
    rw [State.ring_setRing_self]
    exact ⟨hroomPi.trans hmovePi, hroomCi, hroomAidx.trans hmoveAidx, hroomErr.trans hmoveErr,
      fun m hm => State.ring_setRing_ne s _ hm, rfl⟩
  · exact congrArg Host.Outcome.next (State.doorbell_ignored hn h)

/-! ### Changes of a ring that runs -/

/-- R511, R512: clearing EN of an enabled ring, HOME as it is. -/
theorem State.writeRingEn_clears {s : State} {ld : Ld} {n : Nat} {v : BitVec 32} (hw : s.ringWritable ld n = true)
    (hv : v.getLsbD 0 = false) (hen : (s.ring n).en = true) (hhome : sideOf (bits v.toNat 2 1) = (s.ring n).home) :
    s.writeRingEn ld n v = s.setRing n { (s.ring n).disable with irqEn := v.getLsbD 1 } := by
  unfold State.writeRingEn
  dsimp only
  rw [hv, if_neg (by simp [hw]), if_neg (by simp [hhome]), if_neg (by simp), if_pos (by simp [hen])]

/-- R424, R511: RING_CQ_BASE of a ring that runs, written while CQ_LOST is set. -/
theorem State.moveCqBase_lost {s : State} {ld : Ld} {n : Nat} {v : BitVec 64} (hw : s.ringWritable ld n = true)
    (hrun : (s.ring n).en = true ∨ (s.ring n).draining = true) (hlost : (s.ring n).cqLost = true)
    (hcfg : s.ringCfgOk { s.ring n with cqBase := v } = true) :
    s.moveCqBase ld n v = s.setRing n { s.ring n with
      cqBase := v, cqLost := ({ s.ring n with cqBase := v } : Ring).cqOn s.mem.dead } := by
  have hbusy : ((s.ring n).en || (s.ring n).draining) = true := by simpa using hrun
  unfold State.moveCqBase
  dsimp only
  rw [if_neg (by simp [hw]), if_neg (by simp [hbusy]), if_pos (Bool.and_eq_true_iff.mpr ⟨hlost, hcfg⟩)]

/-- Settles O12: one equation of the model for each of the three commands. -/
theorem ringChangesWhileItRuns : Obligations.RingChangesWhileItRuns := by
  refine ⟨⟨fun ld n v s hw hv hen hhome => ?_, fun ld n v s hw hrun hlost hcfg => ?_⟩, fun n s b hb hen hlater => ?_⟩
  · have hexec : exec (.ringDisable ld n v) s = .next (if v.getLsbD 0 then s else s.writeRingEn ld n v) := rfl
    rw [hexec, if_neg (ne_true_of_eq_false hv), State.writeRingEn_clears hw hv hen hhome]
    refine ⟨_, rfl, ?_⟩
    rw [State.ring_setRing_self]
    exact ⟨rfl, rfl, rfl, rfl, rfl, rfl, rfl, rfl⟩
  · exact congrArg Host.Outcome.next (State.moveCqBase_lost hw hrun hlost hcfg)
  · refine congrArg Host.Outcome.next ?_
    simp [State.windowStart, hb, hen, hlater]

end Machine
end Sys2Proof
end

section
/-! PROOFS. Completion records (R33): an index record, and a full record in the completion ring. -/

namespace Sys2Proof
namespace Machine

/-- R33: noting when the completion ring filled or had room again moves no index. -/
theorem Ring.noteRoom_cidx_cqPi (g : Ring) (now : Nat) : (g.noteRoom now).cidx = g.cidx ∧ (g.noteRoom now).cqPi = g.cqPi := by
  unfold Ring.noteRoom
  split <;> exact ⟨rfl, rfl⟩

/-- R445: measuring a completion against its bound touches no record, no byte of memory and no index of its ring. -/
theorem State.measure_keeps (s : State) (r : JRec) :
    (s.measure r).2.mem = s.mem ∧ (s.measure r).2.jrn = s.jrn ∧
      ((s.measure r).2.ring r.ring).cidx = (s.ring r.ring).cidx ∧
      ((s.measure r).2.ring r.ring).cqPi = (s.ring r.ring).cqPi := by
  unfold State.measure
  dsimp only
  split
  · exact ⟨rfl, rfl, rfl, rfl⟩
  · split
    · simp
    · exact ⟨rfl, rfl, rfl, rfl⟩

@[simp] theorem State.traceComplete_mem (s : State) (r : JRec) (f : BitVec 8) : (s.traceComplete r f).mem = s.mem := by
  simp [State.traceComplete]

@[simp] theorem State.traceComplete_jrn (s : State) (r : JRec) (f : BitVec 8) : (s.traceComplete r f).jrn = s.jrn := by
  simp [State.traceComplete]

@[simp] theorem State.traceComplete_ring (s : State) (r : JRec) (f : BitVec 8) (m : Nat) :
    (s.traceComplete r f).ring m = s.ring m := by
  simp [State.traceComplete]

/-! ### The oldest record leaves the journal -/

@[simp] theorem State.retireRec_mem (s : State) (r : JRec) : (s.retireRec r).mem = s.mem := rfl

/-- R33, R407: no record of the ring with its index is left. -/
theorem State.retireRec_gone (s : State) (r : JRec) : ∀ x ∈ (s.retireRec r).jrn.recs, ¬(x.ring = r.ring ∧ x.index = r.index) := by
  intro x hx
  have hkept : (!(x.ring == r.ring && x.index == r.index)) = true := (List.mem_filter.mp hx).2
  rintro ⟨hring, hindex⟩
  simp [hring, hindex] at hkept

/-- R33: CIDX passes it. -/
theorem State.retireRec_ring (s : State) (r : JRec) : ((s.retireRec r).ring r.ring).cidx = (s.ring r.ring).cidx + 1 ∧
    ((s.retireRec r).ring r.ring).cqPi = (s.ring r.ring).cqPi := by
  unfold State.retireRec
  dsimp only
  rw [State.ring_setRing_self]
  exact ⟨rfl, rfl⟩

/-- R34: an interrupt touches no record, no byte of memory and no index. -/
theorem State.ringInterrupt_keeps (s : State) (n : Nat) :
    (s.ringInterrupt n).mem = s.mem ∧ (s.ringInterrupt n).jrn = s.jrn ∧
      ((s.ringInterrupt n).ring n).cidx = (s.ring n).cidx ∧ ((s.ringInterrupt n).ring n).cqPi = (s.ring n).cqPi := by
  unfold State.ringInterrupt
  dsimp only
  split
  · exact ⟨rfl, rfl, rfl, rfl⟩
  · split
    · exact ⟨rfl, rfl, rfl, rfl⟩
    · rw [State.ring_setRing_self]
      exact ⟨rfl, rfl, rfl, rfl⟩

/-- R444: what markFree notes in records moves none of them. -/
theorem State.markFree_gone {s : State} {n : Nat} {i : BitVec 32} (h : ∀ x ∈ s.jrn.recs, ¬(x.ring = n ∧ x.index = i)) :
    ∀ x ∈ s.markFree.jrn.recs, ¬(x.ring = n ∧ x.index = i) := by
  intro x hx
  obtain ⟨y, hy, rfl⟩ := List.mem_map.mp hx
  split <;> exact h y hy

theorem length_leBytes (n v : Nat) : (leBytes n v).length = n := by simp [leBytes]

theorem length_fullRecord (index : BitVec 32) (st : Status) (flags opcode : Byte) (layer opid : BitVec 16) (detail : BitVec 32)
    (result time : BitVec 64) : (fullRecord index st flags opcode layer opid detail result time).length = 32 := by
  simp [fullRecord, length_leBytes]

theorem State.mem_ringRecs_head {s : State} {n : Nat} {r : JRec} {rs : List JRec} (h : s.ringRecs n = r :: rs) : r.ring = n := by
  have hmem : r ∈ s.ringRecs n := h ▸ List.mem_cons_self
  simpa using (List.mem_filter.mp hmem).2

/-- R33: a full record of the ring's completion ring, with CQ_PI behind it and a late completion counted. -/
def State.postedFull (s : State) (n : Nat) (r : JRec) (at_ : Nat) (bs : List Byte) : State :=
  let s2 := (s.measure r).2.poke at_ bs
  let s3 := s2.setRing n (({ s2.ring n with cqPi := (s.ring n).cqPi + 1 }).noteRoom s.now.toNat)
  if (s.measure r).1 then s3.ctxEvent r.ctx 0x09 0 n r.layer.toNat r.inst.opid.toNat 1 else s3

section
variable {s : State} {n : Nat} {r : JRec} {rs : List JRec} (hrecs : s.ringRecs n = r :: rs) (hdone : r.state = .done)
  (hlive : s.live = true) (hheld : s.gbl.held = false) (hstop : s.gbl.stopped = false)
  (hpause : s.pkg.thermalPause.get (s.ring n).home = none)
include hrecs hdone hlive hheld hstop hpause

/-- R33, R34: the oldest record of a ring, DONE, posted as an index record. -/
theorem State.post_index (hfull : needsFull r.inst.c r.status (s.measure r).1 = false) :
    s.post n = (((s.measure r).2.traceComplete r (flagsByte (if (s.measure r).1 then r.cflags ||| Fl.late else r.cflags) false)).retireRec
      r).markFree := by
  unfold State.post
  rw [hrecs]
  dsimp only
  rw [if_neg (by simp [hdone, hlive, hheld, hstop, hpause]), if_pos (by rw [← JRec.inst, hfull]; rfl)]

/-- R33, R34, R461: the oldest record of a ring, DONE, posted as a full record in a line that no host holds. -/
theorem State.post_full (hfull : needsFull r.inst.c r.status (s.measure r).1 = true) (hlost : (s.ring n).cqLost = false)
    (hroom : ((s.ring n).cqPi - (s.ring n).cqCi).toNat < (s.ring n).cqSize.toNat) {at_ : Nat}
    (hat : at_ = (s.ring n).cqBase.toNat + 32 * ((s.ring n).cqPi.toNat % Nat.max (s.ring n).cqSize.toNat 1))
    (hheldLine : s.heldLines at_ 32 true = []) {fl : BitVec 4}
    (hfl : fl = if (s.measure r).1 then r.cflags ||| Fl.late else r.cflags) {bs : List Byte}
    (hbs : bs = fullRecord r.index r.status (flagsByte fl (phaseOf (s.ring n).cqPi.toNat (s.ring n).cqSize.toNat))
          (BitVec.ofNat 8 r.inst.opcode) r.layer r.inst.opid r.detail r.result r.time) :
    s.post n = (((((s.postedFull n r at_ bs).traceComplete r
      (flagsByte fl (phaseOf (s.ring n).cqPi.toNat (s.ring n).cqSize.toNat))).retireRec r).ringInterrupt n).markFree) := by
  have hcq : (s.ring n).cqFull = false := by simpa [Ring.cqFull] using hroom
  subst hat hfl hbs
  unfold State.post
  rw [hrecs]
  dsimp only
  rw [if_neg (by simp [hdone, hlive, hheld, hstop, hpause]), if_neg (by rw [← JRec.inst, hfull]; simp),
    if_neg (by simp [hlost, hcq]), hheldLine]
  rfl

end

/-- R33: what posting a full record puts in the completion ring and in CQ_PI. -/
theorem State.postedFull_spec {s : State} {n : Nat} {r : JRec} (hr : r.ring = n) (hwf : s.mem.wf = true) (at_ : Nat)
    (bs : List Byte) : (s.postedFull n r at_ bs).peek at_ bs.length = bs ∧
      SameMemoryBut at_ bs.length s (s.postedFull n r at_ bs) ∧
      ((s.postedFull n r at_ bs).ring n).cidx = (s.ring n).cidx ∧
      ((s.postedFull n r at_ bs).ring n).cqPi = (s.ring n).cqPi + 1 := by
  subst hr
  obtain ⟨hmem, -, hcidx, -⟩ := State.measure_keeps s r
  have hwf1 : (s.measure r).2.mem.wf = true := hmem ▸ hwf
  have hall : (s.postedFull r.ring r at_ bs).mem = ((s.measure r).2.poke at_ bs).mem := by
    unfold State.postedFull
    split <;> simp
  have hring : (s.postedFull r.ring r at_ bs).ring r.ring =
      ({ (s.measure r).2.ring r.ring with cqPi := (s.ring r.ring).cqPi + 1 } : Ring).noteRoom s.now.toNat := by
    unfold State.postedFull
    split <;> simp
  obtain ⟨hroomCidx, hroomPi⟩ := Ring.noteRoom_cidx_cqPi { (s.measure r).2.ring r.ring with cqPi := (s.ring r.ring).cqPi + 1 }
    s.now.toNat
  refine ⟨?_, ?_, ?_, ?_⟩
  · unfold State.peek
    rw [hall]
    exact State.peek_poke hwf1 at_ bs
  · intro x hx
    rw [hall, State.sameMemoryBut_poke hwf1 at_ bs x hx, hmem]
  · rw [hring, hroomCidx, ← hcidx]
  · rw [hring, hroomPi]

/-- Settles O10: `State.post_index` and `State.post_full` are the two forms of a completion; both retire the oldest record. -/
theorem completionPosted : Obligations.CompletionPosted := by
  refine ⟨fun n s r rs hrecs hdone hlive hheld hstop hpause hfull => ?_,
    fun n s r rs hwf hrecs hdone hlive hheld hstop hpause hfull hlost hroom => ?_⟩
  · refine ⟨_, congrArg Host.Outcome.next (State.post_index hrecs hdone hlive hheld hstop hpause hfull), ?_⟩
    obtain rfl := State.mem_ringRecs_head hrecs
    obtain ⟨hmem, hjrn, hcidx, hcqPi⟩ := State.measure_keeps s r
    rw [State.ring_markFree, State.mem_markFree, (State.retireRec_ring _ r).1, (State.retireRec_ring _ r).2,
      State.retireRec_mem, State.traceComplete_ring, State.traceComplete_mem]
    exact ⟨congrArg (· + 1) hcidx, hcqPi, hmem, State.markFree_gone (State.retireRec_gone _ r)⟩
  · intro at_ hheldLine fl
    refine ⟨_, congrArg Host.Outcome.next (State.post_full hrecs hdone hlive hheld hstop hpause hfull hlost hroom rfl hheldLine
      (fl := fl) rfl rfl), ?_⟩
    have hr := State.mem_ringRecs_head hrecs
    obtain ⟨hpeek, hframe, hcidx, hcqPi⟩ := State.postedFull_spec hr hwf at_ (fullRecord r.index r.status
      (flagsByte fl (phaseOf (s.ring n).cqPi.toNat (s.ring n).cqSize.toNat)) (BitVec.ofNat 8 r.inst.opcode) r.layer
      r.inst.opid r.detail r.result r.time)
    rw [length_fullRecord] at hpeek hframe
    generalize s.postedFull n r at_ _ = u at hpeek hframe hcidx hcqPi ⊢
    generalize flagsByte fl _ = f at hpeek ⊢
    obtain ⟨himem, hijrn, hicidx, hicqPi⟩ := State.ringInterrupt_keeps ((u.traceComplete r f).retireRec r) n
    obtain ⟨hrcidx, hrcqPi⟩ := State.retireRec_ring (u.traceComplete r f) r
    subst hr
    rw [State.traceComplete_ring] at hrcidx hrcqPi
    have hmem : (((u.traceComplete r f).retireRec r).ringInterrupt r.ring).markFree.mem = u.mem := by
      rw [State.mem_markFree, himem, State.retireRec_mem, State.traceComplete_mem]
    refine ⟨?_, ?_, ?_, fun x hx => ?_, State.markFree_gone (hijrn ▸ State.retireRec_gone _ r)⟩
    · rw [State.ring_markFree, hicidx, hrcidx, hcidx]
    · rw [State.ring_markFree, hicqPi, hrcqPi, hcqPi]
    · rw [← hpeek]
      unfold State.peek
      rw [hmem]
    · rw [hmem]
      exact hframe x hx

end Machine
end Sys2Proof
end

section
/-! PROOFS. How an instruction completes (R38-R40, R49, R61, R407), and what it leaves when it issues. -/

namespace Sys2Proof
namespace Machine

/-! ### Registers -/

/-- R37, R38: a descriptor names one of 64 registers. -/
theorem JRec.dst_lt (r : JRec) : r.inst.dst < 64 := (BitVec.extractLsb' 16 6 r.desc).isLt

theorem Ring.setReg_val_ne (g : Ring) {n m : Nat} (v : VReg) (h : m ≠ n) : (g.setReg n v).val m = g.val m := by
  unfold Ring.setReg
  split
  · rfl
  · unfold Ring.val
    simp [Ne.symm h]

/-- R38, R40: what DST holds after a completion. -/
def doneReg (st : Status) (res : BitVec 64) : VReg := if Status.success st then { val := res } else { val := 0, poison := true }

/-- R38-R40: a ring whose registers are those of `g` with DST written holds DST. -/
theorem HoldsDst.of_regs {t : State} {n dst : Nat} {st : Status} {res : BitVec 64} {g : Ring}
    (h : (t.ring n).regs = (g.setReg dst (doneReg st res)).regs) (hl : dst < g.regs.length) : HoldsDst t n dst st res := by
  intro h0
  obtain ⟨hval, hpend, hpois⟩ := Ring.congr_regs h dst
  obtain ⟨hv, hp, hq⟩ := Ring.setReg_val g (doneReg st res) h0 hl
  rw [hval, hpend, hpois, hv, hp, hq, doneReg]
  cases Status.success st <;> exact ⟨rfl, rfl, rfl⟩

/-! ### Giving back what was used -/

/-- Where the cells are the same, memory is. -/
theorem SameMemory.of_cells {s t : State} (h : t.mem.cells = s.mem.cells) : SameMemory s t := by
  intro x
  unfold Mem.byte
  rw [h]

@[simp] theorem State.mirrorFreed_cells (s : State) (d : Side) (k : Nat) : (s.mirrorFreed d k).mem.cells = s.mem.cells := by
  unfold State.mirrorFreed
  repeat' split
  all_goals rfl

@[simp] theorem State.freeFrame_cells (s : State) (d : Side) (f : Option FrameAt) : (s.freeFrame d f).mem.cells = s.mem.cells := by
  unfold State.freeFrame
  split
  · rw [State.mirrorFreed_cells]; rfl
  · rfl

@[simp] theorem State.releaseHeld_cells (s : State) (d : Side) : (s.releaseHeld d).mem.cells = s.mem.cells := by
  unfold State.releaseHeld
  dsimp only
  rw [foldl_keeps (fun s => s.mem.cells)]
  intro t x
  exact State.freeFrame_cells t d _

/-- R85: an instruction that used no page gives nothing of memory back. -/
@[simp] theorem State.endUses_nil_cells (s : State) : (s.endUses []).mem.cells = s.mem.cells := by
  unfold State.endUses
  simp

@[simp] theorem State.endUses_ring (s : State) (hs : List Nat) (m : Nat) : (s.endUses hs).ring m = s.ring m := by
  unfold State.ring
  rw [State.endUses_rings]

@[simp] theorem State.countFailure_mem (s : State) (st : Status) : (s.countFailure st).mem = s.mem := by
  unfold State.countFailure
  repeat' split
  all_goals simp

@[simp] theorem State.countFailure_jrn (s : State) (st : Status) : (s.countFailure st).jrn = s.jrn := by
  unfold State.countFailure
  repeat' split
  all_goals simp

@[simp] theorem State.countFailure_images (s : State) (st : Status) : (s.countFailure st).images = s.images := by
  unfold State.countFailure
  repeat' split
  all_goals simp

/-! ### DST -/

section
variable {d : Done} (hk : d.keepDst = false) (hst : d.status ≠ St.skipped)
include hk hst

/-- R38-R40: DST of an instruction that completed, v0 included, which nothing writes. -/
theorem State.writeDst_ring_eq (s : State) (n : Nat) (i : Inst) :
    (s.writeDst n i d).ring n = (s.ring n).setReg i.dst (doneReg d.status d.result) := by
  by_cases h0 : i.dst = 0
  · simp [State.writeDst, Ring.setReg, h0]
  · exact State.writeDst_ring s n i d hk hst h0

end

theorem State.writeDst_ring_ne (s : State) {n m : Nat} (i : Inst) (d : Done) (h : m ≠ n) :
    (s.writeDst n i d).ring m = s.ring m := by
  unfold State.writeDst
  dsimp only
  split
  · rfl
  · split
    · exact State.ring_setRing_ne s _ h
    · split <;> exact State.ring_setRing_ne s _ h

@[simp] theorem State.writeDst_images (s : State) (n : Nat) (i : Inst) (d : Done) : (s.writeDst n i d).images = s.images := by
  unfold State.writeDst
  dsimp only
  repeat' split
  all_goals rfl

@[simp] theorem State.unname_ring (s : State) (ks : List Nat) (m : Nat) : (s.unname ks).ring m = s.ring m := by
  unfold State.ring
  rw [State.unname_rings]

@[simp] theorem State.noteDone_ring (s : State) (r : JRec) (i : Inst) (d : Done) (m : Nat) :
    (s.noteDone r i d).ring m = s.ring m := by
  unfold State.ring
  rw [State.noteDone_rings]

/-! ### The instruction of a ring entry -/

theorem State.skipOn_next (s : State) (r : JRec) {d : Done} (hf : d.flow = .next) : s.skipOn r d = s := by
  unfold State.skipOn
  rw [hf]

/-- R38-R41: what the completion of a ring entry changes beside its record: its own ring alone, there only DST and the mark of
a failure, and no byte of memory. -/
theorem State.finishRing_keeps (s : State) (r : JRec) {d : Done} (hk : d.keepDst = false) (hst : d.status ≠ St.skipped)
    (hf : d.flow = .next) : (s.finishRing r r.inst d).mem = s.mem ∧
      (∀ m, m ≠ r.ring → (s.finishRing r r.inst d).ring m = s.ring m) ∧
      ((s.finishRing r r.inst d).ring r.ring).regs = ((s.ring r.ring).setReg r.inst.dst (doneReg d.status d.result)).regs := by
  unfold State.finishRing
  dsimp only
  rw [State.skipOn_next _ _ hf]
  refine ⟨?_, fun m hm => ?_, ?_⟩
  · simp
  · rw [State.ring_setRing_ne _ _ hm]
    simp [State.writeDst_ring_ne s r.inst d hm]
  · rw [State.ring_setRing_self, Ring.noteFail_regs]
    simp [State.writeDst_ring_eq hk hst]

section
variable {s : State} {a : At} {r : JRec} {d : Done} (h : s.rec? a = some r) (hk : d.keepDst = false)
  (hst : d.status ≠ St.skipped) (hf : d.flow = .next)
include h hk hst hf

/-- R38-R41: the same of the whole completion of a ring entry that used no page. -/
theorem ended_ring_keeps (hstep : a.step = none) (huses : r.uses = []) :
    (∀ m, m ≠ a.ring → (ended s a d).ring m = s.ring m) ∧ SameMemory s (ended s a d) ∧
      (∀ n, n ≠ r.inst.dst → ((ended s a d).ring a.ring).val n = (s.ring a.ring).val n) := by
  obtain ⟨hring, -, hrstep⟩ := State.rec?_key h
  have h' : (s.countFailure d.status).rec? a = some r := by rw [State.countFailure_rec?]; exact h
  obtain ⟨hmem, hothers, hregs⟩ := State.finishRing_keeps (s.countFailure d.status) r hk hst hf
  unfold ended State.finish
  rw [State.finishAt_ring d h' (hrstep.trans hstep), huses]
  refine ⟨fun m hm => ?_, fun x => ?_, fun n hn => ?_⟩
  · rw [State.ring_markFree, State.endUses_ring, hothers m (hring ▸ hm), State.countFailure_ring]
  · refine SameMemory.of_cells ?_ x
    rw [State.mem_markFree, State.endUses_nil_cells, hmem, State.countFailure_mem]
  · rw [State.ring_markFree, State.endUses_ring, ← hring, (Ring.congr_regs hregs n).1, Ring.setReg_val_ne _ _ hn,
      State.countFailure_ring]

end

/-! ### A step of an image -/

/-- R49: a call after a step of it completed that neither jumps, skips nor returns. -/
def Frame.stepped (f : Frame) (r : JRec) (d : Done) : Frame :=
  { f with
    executed := f.executed + 1
    first := if !(Status.success d.status) && f.first.isNone then some (d.status.toNat, r.pc, d.detail) else f.first
    stop := f.stop || (!(Status.success d.status) && !f.cont) }

@[simp] theorem State.noteStep_rings (s : State) (r : JRec) (k : Nat) : (s.noteStep r k).rings = s.rings := rfl
@[simp] theorem State.noteStep_mem (s : State) (r : JRec) (k : Nat) : (s.noteStep r k).mem = s.mem := rfl
@[simp] theorem State.noteStep_images (s : State) (r : JRec) (k : Nat) : (s.noteStep r k).images = s.images := rfl
@[simp] theorem State.noteStep_ring (s : State) (r : JRec) (k n : Nat) : (s.noteStep r k).ring n = s.ring n := rfl
@[simp] theorem State.unname_images (s : State) (ks : List Nat) : (s.unname ks).images = s.images :=
  foldl_keeps State.images (fun s k => s.setSeq k { s.seq k with inflight := (s.seq k).inflight - 1 }) (fun _ _ => rfl) ks s

/-- R38, R49: the part when the DST of a completed step is written and its record gone. -/
def State.stepGone (s : State) (r : JRec) (d : Done) : State :=
  let u := (s.writeDst r.ring r.inst d).unname r.names
  { u with jrn := { u.jrn with steps := u.jrn.steps.filter (fun e => e.site != r.site) } }

/-- R49: the part when a step of an image has completed, its call counted on. -/
def State.stepOver (s : State) (r : JRec) (d : Done) (f : Frame) (fs : List Frame) : State :=
  ((s.stepGone r d).noteStep r 1).setRing r.ring { (s.stepGone r d).ring r.ring with calls := f.stepped r d :: fs }

/-- R49: no further step of a ring is there but those that have issued. -/
def State.dropAccepted (s : State) (n : Nat) : State :=
  { s with jrn := { s.jrn with steps := s.jrn.steps.filter (fun e => !(e.ring == n && e.state == .accepted)) } }

section
variable {s : State} {r : JRec} {d : Done} {f : Frame} {fs : List Frame} (hk : d.keepDst = false)
  (hst : d.status ≠ St.skipped) (hf : d.flow = .next) (hcalls : (s.ring r.ring).calls = f :: fs)
include hk hst

theorem State.stepOver_keeps : (s.stepOver r d f fs).mem = s.mem ∧ (s.stepOver r d f fs).images = s.images ∧
    (∀ m, m ≠ r.ring → (s.stepOver r d f fs).ring m = s.ring m) ∧
    (s.stepOver r d f fs).ring r.ring =
      { (s.ring r.ring).setReg r.inst.dst (doneReg d.status d.result) with calls := f.stepped r d :: fs } := by
  have hring : ∀ m, (s.stepOver r d f fs).ring m = if m = r.ring then
      { ((s.writeDst r.ring r.inst d).unname r.names).ring r.ring with calls := f.stepped r d :: fs }
      else ((s.writeDst r.ring r.inst d).unname r.names).ring m := fun m => Tbl.lookD_put ..
  refine ⟨?_, ?_, fun m hm => ?_, ?_⟩
  · simp [State.stepOver, State.stepGone]
  · simp [State.stepOver, State.stepGone]
  · rw [hring, if_neg hm, State.unname_ring, State.writeDst_ring_ne _ _ _ hm]
  · rw [hring, if_pos rfl, State.unname_ring, State.writeDst_ring_eq hk hst]

include hf hcalls

/-- R49: how a step of an image ends: without CONTINUE a failure drops the steps that have not issued. -/
theorem State.endStep_eq : s.endStep r r.inst d =
    if !(Status.success d.status) && !f.cont then (s.stepOver r d f fs).dropAccepted r.ring else s.stepOver r d f fs := by
  have hcalls' : (((s.writeDst r.ring r.inst d).unname r.names).ring r.ring).calls = f :: fs := by
    rw [State.unname_ring, State.writeDst_ring_eq hk hst, ← hcalls]
    unfold Ring.setReg
    split <;> rfl
  unfold State.endStep
  dsimp only
  split
  · next he => cases he.symm.trans hcalls'
  · next he =>
    cases he.symm.trans hcalls'
    have hret : (Flow.next == Flow.ret) = false := rfl
    rw [hf, hret, Bool.or_false]
    rfl

end

/-! ### The call goes on -/

/-- R49: fetching steps touches no register, no other ring and no byte of memory, and of the call only where it fetches next. -/
theorem State.fetch_keeps (n : Nat) (index : BitVec 32) (c : Nat) : ∀ (k : Nat) (s : State) (f : Frame) (fs : List Frame),
    (s.ring n).calls = f :: fs → (s.fetch k n index c).mem = s.mem ∧
      (∀ m, m ≠ n → (s.fetch k n index c).ring m = s.ring m) ∧
      ((s.fetch k n index c).ring n).regs = (s.ring n).regs ∧
      ∃ pc, ((s.fetch k n index c).ring n).calls = { f with pc := pc } :: fs
  | 0, s, f, fs, h => ⟨rfl, fun _ _ => rfl, rfl, f.pc, h⟩
  | k + 1, s, f, fs, h => by
    have hstay : s.mem = s.mem ∧ (∀ m, m ≠ n → s.ring m = s.ring m) ∧ (s.ring n).regs = (s.ring n).regs ∧
      ∃ pc, (s.ring n).calls = { f with pc := pc } :: fs := ⟨rfl, fun _ _ => rfl, rfl, f.pc, h⟩
    rw [State.fetch, h]
    dsimp only
    split
    · exact hstay
    · split
      · exact hstay
      · generalize hu : State.setRing _ n _ = u
        have hring : u.ring n = { s.ring n with
            fetched := (s.ring n).fetched + 1, calls := { f with pc := f.pc + 1 } :: fs } := by
          rw [← hu]; exact State.ring_setRing_self ..
        have hothers : ∀ m, m ≠ n → u.ring m = s.ring m := by
          intro m hm; rw [← hu]; exact State.ring_setRing_ne _ _ hm
        have hmem : u.mem = s.mem := by rw [← hu]; rfl
        obtain ⟨h1, h2, h3, pc, h4⟩ := State.fetch_keeps n index c k u { f with pc := f.pc + 1 } fs (by rw [hring])
        exact ⟨h1.trans hmem, fun m hm => (h2 m hm).trans (hothers m hm), h3.trans (by rw [hring]), pc, h4⟩

/-- R49: a call that has steps left to fetch is not over. -/
theorem State.callOver_none {s : State} {n : Nat} {f : Frame} {fs : List Frame} (h : (s.ring n).calls = f :: fs)
    (hstop : f.stop = false) (hpc : f.pc < (s.imageSteps f.image).length) : s.callOver n = none := by
  unfold State.callOver
  dsimp only
  rw [h]
  split
  · next he _ =>
    cases he
    rw [if_pos (by simp [hstop, hpc])]
  · rfl

section
variable {s : State} {a : At} {r : JRec} {d : Done} {f : Frame} {fs : List Frame} (h : s.rec? a = some r)
  (hk : d.keepDst = false) (hst : d.status ≠ St.skipped) (hf : d.flow = .next) (hstep : a.step ≠ none)
include h

/-- R49: the completion of a step is the end of the step and, once its call is over, of the call. -/
theorem ended_step : ended s a d = (((s.countFailure d.status).finishRec 6 r d).endUses r.uses).markFree := by
  unfold ended State.finish State.finishAt
  rw [State.countFailure_rec?, h]

include hstep

theorem State.finishRec_step (u : State) (k : Nat) : u.finishRec (k + 1) r d =
    match (u.endStep r r.inst d).callOver r.ring with
    | none => (u.endStep r r.inst d).fetch 64 r.ring r.index r.ctx
    | some (c, d', s') => State.finishRec k s' c d' := by
  have hrstep : r.step.isNone = false := by
    rw [(State.rec?_key h).2.2]
    exact Option.isNone_eq_false_iff.mpr (Option.isSome_iff_ne_none.mpr hstep)
  rw [State.finishRec, hrstep]
  rfl

include hk hst hf

/-- R49: a step that leaves its call with steps to fetch: DST written, the step counted, nothing else of the part changed. -/
theorem ended_step_goesOn (hlen : (s.ring a.ring).regs.length = 64) (hcalls : (s.ring a.ring).calls = f :: fs)
    (hstop : f.stop = false) (hpc : f.pc < (s.imageSteps f.image).length)
    (hgo : Status.success d.status = true ∨ f.cont = true) (huses : r.uses = []) :
    HoldsDst (ended s a d) a.ring r.inst.dst d.status d.result ∧
      (∃ f', ((ended s a d).ring a.ring).calls = f' :: fs ∧ f'.executed = f.executed + 1 ∧ f'.stop = false) ∧
      (∀ m, m ≠ a.ring → (ended s a d).ring m = s.ring m) ∧ SameMemory s (ended s a d) := by
  obtain ⟨hring, -, -⟩ := State.rec?_key h
  generalize hu : s.countFailure d.status = u
  have huring : ∀ m, u.ring m = s.ring m := by intro m; rw [← hu, State.countFailure_ring]
  have humem : u.mem = s.mem := by rw [← hu, State.countFailure_mem]
  have huimg : u.images = s.images := by rw [← hu, State.countFailure_images]
  rw [← hring] at hcalls hlen ⊢
  have hgo' : (!(Status.success d.status) && !f.cont) = false := by
    obtain h1 | h1 := hgo <;> simp [h1]
  have hcalls' : (u.ring r.ring).calls = f :: fs := by rw [huring, hcalls]
  have hend : u.endStep r r.inst d = u.stepOver r d f fs := by rw [State.endStep_eq hk hst hf hcalls', hgo']; rfl
  obtain ⟨hmem, himg, hothers, hmine⟩ := State.stepOver_keeps (s := u) (r := r) (f := f) (fs := fs) hk hst
  have hstopped : (f.stepped r d).stop = false := by simp only [Frame.stepped, hstop, hgo', Bool.or_self]
  have hover : (u.stepOver r d f fs).callOver r.ring = none :=
    State.callOver_none (by rw [hmine]) hstopped (by unfold State.imageSteps; rw [himg, huimg]; exact hpc)
  have hall : ended s a d = (((u.stepOver r d f fs).fetch 64 r.ring r.index r.ctx).endUses []).markFree := by
    rw [ended_step h, hu, State.finishRec_step h hstep, hend, hover, huses]
  obtain ⟨h1, h2, h3, pc, h4⟩ := State.fetch_keeps r.ring r.index r.ctx 64 (u.stepOver r d f fs) (f.stepped r d) fs
    (by rw [hmine])
  have hrings : ∀ m, (ended s a d).ring m = ((u.stepOver r d f fs).fetch 64 r.ring r.index r.ctx).ring m := by
    intro m; rw [hall, State.ring_markFree, State.endUses_ring]
  refine ⟨HoldsDst.of_regs (g := s.ring r.ring) ?_ (by rw [hlen]; exact r.dst_lt), ⟨{ f.stepped r d with pc := pc }, ?_, rfl, hstopped⟩,
    fun m hm => ?_, SameMemory.of_cells ?_⟩
  · rw [hrings, h3, hmine, huring]
  · rw [hrings, h4]
  · rw [hrings, h2 m hm, hothers m hm, huring]
  · rw [hall, State.mem_markFree, State.endUses_nil_cells, h1, hmem, humem]

end

/-! ### The call ends -/

/-- R38, R61, R407: the record of a ring entry that completes. -/
theorem State.finishRing_rec {s : State} {r y : JRec} {d : Done} (h : s.rec? r.site = some y) (hf : d.flow = .next) :
    (s.finishRing r r.inst d).rec? r.site = some (s.doneRec r d) := by
  unfold State.finishRing
  dsimp only
  rw [State.skipOn_next _ _ hf, State.rec?_setRing, State.rec?_congr (State.noteDone_jrn _ _ _ _)]
  refine State.rec?_setRec (r := y) ?_ rfl
  rw [State.rec?_congr (State.unname_jrn _ _), State.rec?_congr (State.writeDst_jrn _ _ _ _)]
  exact h

/-- R49: what noteStep does with each record of the journal. -/
def JRec.stepNoted (r : JRec) (late : Bool) (k : Nat) (c : JRec) : JRec :=
  if c.site == { ring := r.ring, index := r.index } then
    { c with detail := c.detail + BitVec.ofNat 32 k, stepLate := c.stepLate || late || r.stepLate,
             resumed := c.resumed || r.resumed }
  else c

theorem JRec.stepNoted_keeps (r : JRec) (late : Bool) (k : Nat) (c : JRec) :
    (r.stepNoted late k c).site = c.site ∧ (r.stepNoted late k c).ring = c.ring ∧ (r.stepNoted late k c).step = c.step ∧
      (r.stepNoted late k c).entered = c.entered := by
  unfold JRec.stepNoted
  split <;> exact ⟨rfl, rfl, rfl, rfl⟩

section
variable {s : State} {a : At} {r c : JRec} {d : Done} {f : Frame}

/-- R49: the records of the journal after a step, as noteStep makes them. -/
theorem State.stepOver_recs (fs : List Frame) : ((s.stepOver r d f fs).dropAccepted r.ring).jrn.recs =
    s.jrn.recs.map (r.stepNoted ((s.stepGone r d).lateNow r) 1) := by
  have hrecs : (s.stepGone r d).jrn.recs = s.jrn.recs := by
    show ((s.writeDst r.ring r.inst d).unname r.names).jrn.recs = _
    rw [State.unname_jrn, State.writeDst_jrn]
  rw [← hrecs]
  rfl

/-- R49: the last step of a ring, once it has completed, leaves no step. -/
theorem State.stepOver_stepRecs (fs : List Frame) (h : s.stepRecs r.ring = [r]) :
    ((s.stepOver r d f fs).dropAccepted r.ring).stepRecs r.ring = [] := by
  have hsteps : (s.stepGone r d).jrn.steps = s.jrn.steps.filter (fun e => e.site != r.site) := by
    show ((s.writeDst r.ring r.inst d).unname r.names).jrn.steps.filter _ = _
    rw [State.unname_jrn, State.writeDst_jrn]
  refine List.filter_eq_nil_iff.mpr fun x hx hring => ?_
  obtain ⟨y, hy, rfl⟩ := List.mem_map.mp (List.mem_filter.mp hx).1
  rw [hsteps, List.mem_filter] at hy
  obtain ⟨hmem, hsite⟩ := hy
  have hyring : (y.ring == r.ring) = true := by
    have := (JRec.stepNoted_keeps r ((s.stepGone r d).lateNow r) 1 y).2.1
    rw [← this]; exact hring
  have hyr : y ∈ s.stepRecs r.ring := List.mem_filter.mpr ⟨hmem, hyring⟩
  rw [h, List.mem_singleton] at hyr
  simp [hyr] at hsite

/-- R49: the CTL.CALL of a ring whose last step has completed, as noteStep leaves its record. -/
theorem State.stepOver_caller (fs : List Frame) (h : s.stepRecs r.ring = [r])
    (hc : (s.ringRecs r.ring).find? JRec.entered = some c) :
    ((s.stepOver r d f fs).dropAccepted r.ring).caller r.ring = some (r.stepNoted ((s.stepGone r d).lateNow r) 1 c) := by
  have hkeeps := JRec.stepNoted_keeps r ((s.stepGone r d).lateNow r) 1
  have hentered : JRec.entered ∘ r.stepNoted ((s.stepGone r d).lateNow r) 1 = JRec.entered :=
    funext fun x => (hkeeps x).2.2.2
  have hring : (fun x : JRec => x.ring == r.ring) ∘ r.stepNoted ((s.stepGone r d).lateNow r) 1 = fun x => x.ring == r.ring :=
    funext fun x => congrArg (· == r.ring) (hkeeps x).2.1
  unfold State.caller
  rw [State.stepOver_stepRecs fs h]
  unfold State.ringRecs at hc ⊢
  rw [State.stepOver_recs, List.filter_map, List.find?_map, hentered, hring, hc]
  rfl

end

/-- R49, R61: how a call that failed completes. -/
def failedCall (st step det : Nat) : Done := { status := BitVec.ofNat 8 st, detail := step * 2 ^ 20 + Nat.min det 0xFFFFF }

/-- R49: a call that has ended is over once no step of its ring is left. -/
theorem State.callOver_failed {s : State} {n st step det : Nat} {f : Frame} {fs : List Frame} {c : JRec}
    (hcalls : (s.ring n).calls = f :: fs) (hcaller : s.caller n = some c) (hstop : f.stop = true)
    (hsteps : s.stepRecs n = []) (hfirst : f.first = some (st, step, det)) :
    s.callOver n = some (c, failedCall st step det, s.setRing n { s.ring n with calls := fs }) := by
  unfold State.callOver
  dsimp only
  rw [hcalls, hcaller]
  dsimp only
  rw [hstop, hsteps, hfirst]
  rfl

/-- R49, R61: the CTL.CALL of a ring entry that completes. -/
theorem State.finishRec_call {s : State} {r : JRec} (k : Nat) (d : Done) (hr : r ∈ s.jrn.recs) (hstep : r.step = none)
    (hf : d.flow = .next) : (s.finishRec (k + 1) r d).rec? r.site = some (s.doneRec r d) := by
  have hany : (s.rec? r.site).isSome = true :=
    List.find?_isSome.mpr ⟨r, List.mem_append_left _ hr, beq_self_eq_true _⟩
  obtain ⟨y, hy⟩ := Option.isSome_iff_exists.mp hany
  rw [State.finishRec, hstep]
  exact State.finishRing_rec hy hf

section
variable {s : State} {a : At} {r c : JRec} {d : Done} {f : Frame} (h : s.rec? a = some r)
  (hk : d.keepDst = false) (hst : d.status ≠ St.skipped) (hf : d.flow = .next) (hstep : a.step ≠ none)
include h hk hst hf hstep

/-- R49, R61: the first step of a call to fail, without CONTINUE, the last step of its ring: the CTL.CALL of the ring entry
completes with its status, its number and its DETAIL. -/
theorem ended_step_ends (hcalls : (s.ring a.ring).calls = [f]) (hcont : f.cont = false) (hfirst : f.first = none)
    (hbad : Status.success d.status = false) (hlast : s.stepRecs a.ring = [r])
    (hc : (s.ringRecs a.ring).find? JRec.entered = some c) (hcstep : c.step = none) :
    ∃ x, (ended s a d).rec? c.site = some x ∧ x.state = .done ∧ x.status = d.status ∧
      x.detail = BitVec.ofNat 32 (r.pc * 2 ^ 20 + Nat.min d.detail 0xFFFFF) := by
  obtain ⟨hring, -, -⟩ := State.rec?_key h
  rw [← hring] at hcalls hlast hc
  generalize hu : s.countFailure d.status = u
  have hujrn : u.jrn = s.jrn := by rw [← hu, State.countFailure_jrn]
  have hcalls' : (u.ring r.ring).calls = [f] := by rw [← hu, State.countFailure_ring, hcalls]
  have hlast' : u.stepRecs r.ring = [r] := by unfold State.stepRecs; rw [hujrn]; exact hlast
  have hc' : (u.ringRecs r.ring).find? JRec.entered = some c := by unfold State.ringRecs; rw [hujrn]; exact hc
  have hends : (!(Status.success d.status) && !f.cont) = true := by simp [hbad, hcont]
  have hend : u.endStep r r.inst d = (u.stepOver r d f []).dropAccepted r.ring := by
    rw [State.endStep_eq hk hst hf hcalls', hends]; rfl
  have hvcalls : (((u.stepOver r d f []).dropAccepted r.ring).ring r.ring).calls = [f.stepped r d] :=
    congrArg Ring.calls (State.stepOver_keeps (s := u) (r := r) (f := f) (fs := []) hk hst).2.2.2
  have hstopped : (f.stepped r d).stop = true := by simp only [Frame.stepped, hends, Bool.or_true]
  have hfailed : (f.stepped r d).first = some (d.status.toNat, r.pc, d.detail) := by
    simp [Frame.stepped, hbad, hfirst]
  have hover := State.callOver_failed hvcalls (State.stepOver_caller (s := u) (d := d) (f := f) [] hlast' hc') hstopped
    (State.stepOver_stepRecs [] hlast') hfailed
  have hrecs := State.stepOver_recs (s := u) (r := r) (d := d) (f := f) []
  generalize (u.stepOver r d f []).dropAccepted r.ring = v at hend hover hrecs
  obtain ⟨hcsite, -, hcstep', -⟩ := JRec.stepNoted_keeps r ((u.stepGone r d).lateNow r) 1 c
  have hmem : r.stepNoted ((u.stepGone r d).lateNow r) 1 c ∈ v.jrn.recs := by
    rw [hrecs, hujrn]
    exact List.mem_map_of_mem (List.mem_filter.mp (List.mem_of_find?_eq_some hc)).1
  generalize r.stepNoted ((u.stepGone r d).lateNow r) 1 c = c' at hcsite hcstep' hmem hover
  generalize hw : v.setRing r.ring _ = w at hover
  have hwrecs : w.jrn = v.jrn := by rw [← hw]; rfl
  refine ⟨w.doneRec c' (failedCall d.status.toNat r.pc d.detail), ?_, rfl, by simp [State.doneRec, JRec.completed, failedCall], rfl⟩
  rw [ended_step h, hu, State.finishRec_step h hstep, hend, hover, ← hcsite]
  refine State.rec?_markFree ?_ (by intro e; cases e)
  rw [State.endUses_rec?]
  exact State.finishRec_call 4 _ (hwrecs ▸ hmem) (hcstep'.trans hcstep) rfl

end

/-- Settles O14: `State.finish_holds` and `ended_ring_keeps` for a ring entry, `ended_step_goesOn` and `ended_step_ends` for a
step of an image. -/
theorem completionWritesRecordAndDst : Obligations.CompletionWritesRecordAndDst := by
  intro s a r d h hk hst hf hlen
  refine ⟨fun hstep _ huses => ?_, fun f fs hstep hcalls => ⟨fun hstop hpc hgo huses => ?_,
    fun c hfs hcont hfirst hbad hlast hc hcstep => ?_⟩⟩
  · obtain ⟨hothers, hmem, hregs⟩ := ended_ring_keeps h hk hst hf hstep huses
    exact ⟨State.finish_holds h hk hst hf (by rw [hlen]; exact r.dst_lt), hothers, hmem, hregs⟩
  · exact ended_step_goesOn h hk hst hf hstep hlen hcalls hstop hpc hgo huses
  · exact ended_step_ends h hk hst hf hstep (hfs ▸ hcalls) hcont hfirst hbad hlast hc hcstep

end Machine
end Sys2Proof
end

section
/-! PROOFS. What an instruction leaves when it issues (R39, R407, R440). -/

namespace Sys2Proof
namespace Machine

/-! ### Issue -/

@[simp] theorem State.keepSnap_ring (s : State) (a : At) (k : Snap) (m : Nat) : (s.keepSnap a k).ring m = s.ring m := rfl

/-- R44: the issue of an instruction changes no other ring. -/
theorem State.issue_ring_ne (s : State) (r : JRec) {m : Nat} (hm : m ≠ r.ring) : (s.issue r).ring m = s.ring m := by
  have hnote : ∀ t : State, (t.noteIssue r (s.job r)).ring m = t.ring m := by
    intro t; unfold State.ring; rw [State.noteIssue_rings]
  have hname : ∀ ks : List Nat, ((s.served r.ring).name ks).ring m = s.ring m := by
    intro ks; unfold State.ring; rw [State.name_rings, State.served_rings]
  unfold State.issue
  dsimp only
  rw [hnote, State.setRec_ring]
  unfold State.startRing
  dsimp only
  rw [State.ring_setRing_ne _ _ hm, hname]

theorem begun_ring (s : State) (r : JRec) (m : Nat) : (begun s r).ring m = (s.issue r).ring m := rfl

/-- R42: neither its issue nor the passing of its checks touches a byte of memory. -/
theorem begun_mem (s : State) (r : JRec) : (begun s r).mem = s.mem := State.issue_mem s r

/-- Settles O15: `begun_rec` says what becomes of the record, `State.issue_ring` of its ring, `State.issue_ring_ne` of the
others. -/
theorem issueMakesDstPending : Obligations.IssueMakesDstPending := by
  intro s a r h hlen
  have hrec : s.rec? a = some r := h.1
  obtain ⟨hring, -, -⟩ := State.rec?_key hrec
  rw [← hring] at hlen ⊢
  have hmine := State.issue_ring s r
  refine ⟨⟨_, begun_rec hrec, rfl, rfl⟩, fun h0 => ?_, ?_, fun m hm => State.issue_ring_ne s r hm, begun_mem s r,
    fun n hn => ?_⟩
  · rw [begun_ring, hmine]
    exact (Ring.setReg_val (s.ring r.ring) { ((s.ring r.ring).regs.getD r.inst.dst {}) with pending := true } h0
      (by rw [hlen]; exact r.dst_lt)).2.1
  · rw [begun_ring, hmine]
  · rw [begun_ring, hmine]
    exact Ring.setReg_val_ne _ _ hn

end Machine
end Sys2Proof
end

section
/-! PROOFS. The control instructions (R45-R49, R53). -/

namespace Sys2Proof
namespace Machine

/-! ### What every completion leaves of memory -/

@[simp] theorem State.noteEnded_mem (s : State) (rs : List JRec) : (s.noteEnded rs).mem = s.mem := by
  unfold State.noteEnded
  rw [foldl_keeps State.mem]
  intro t r
  simp

@[simp] theorem State.skipOn_mem (s : State) (r : JRec) (d : Done) : (s.skipOn r d).mem = s.mem := by
  unfold State.skipOn
  split
  · dsimp only
    rw [State.noteEnded_mem, State.setRing_mem]
  · rfl

@[simp] theorem State.finishRing_mem (s : State) (r : JRec) (i : Inst) (d : Done) : (s.finishRing r i d).mem = s.mem := by
  unfold State.finishRing
  simp

@[simp] theorem State.endStep_mem (s : State) (r : JRec) (i : Inst) (d : Done) : (s.endStep r i d).mem = s.mem := by
  have hwritten : ((s.writeDst r.ring i d).unname r.names).mem = s.mem := by simp
  unfold State.endStep
  dsimp only
  split
  · exact hwritten
  · split <;> exact hwritten

@[simp] theorem State.fetch_mem (n : Nat) (index : BitVec 32) (c : Nat) (k : Nat) (s : State) :
    (s.fetch k n index c).mem = s.mem := by
  cases h : (s.ring n).calls with
  | nil =>
    cases k with
    | zero => rfl
    | succ k => rw [State.fetch, h]
  | cons f fs => exact (State.fetch_keeps n index c k s f fs h).1

/-- R49: a call that is over leaves memory. -/
theorem State.callOver_mem {s s' : State} {n : Nat} {c : JRec} {d : Done} (h : s.callOver n = some (c, d, s')) :
    s'.mem = s.mem := by
  unfold State.callOver at h
  dsimp only at h
  split at h
  · split at h
    · cases h
    · cases h; rfl
  · cases h

/-- R42: a completion touches no byte of memory. -/
@[simp] theorem State.finishRec_mem : ∀ (k : Nat) (s : State) (r : JRec) (d : Done), (s.finishRec k r d).mem = s.mem
  | 0, _, _, _ => rfl
  | k + 1, s, r, d => by
    rw [State.finishRec]
    split
    · exact State.finishRing_mem ..
    · dsimp only
      split
      · rw [State.fetch_mem, State.endStep_mem]
      · next c d' s' hover => rw [State.finishRec_mem k, State.callOver_mem hover, State.endStep_mem]

/-- R42, R85: the completion of an instruction that used no page changes no byte of memory. -/
theorem ended_sameMemory {s : State} {a : At} {r : JRec} (d : Done) (h : s.rec? a = some r) (huses : r.uses = []) :
    SameMemory s (ended s a d) := by
  refine SameMemory.of_cells ?_
  rw [ended_step h, huses, State.mem_markFree, State.endUses_nil_cells, State.finishRec_mem, State.countFailure_mem]

/-! ### An instruction that has begun and completes at once -/

section
variable {s : State} {a : At} {r : JRec} (h : Runs a r s) (hlen : (s.ring a.ring).regs.length = 64)
include h

/-- R49: a ring keeps its calls while an instruction of it issues, and what lies above its registers. -/
theorem begun_ring_eq : (begun s r).ring a.ring = { ((s.ring a.ring).setReg r.inst.dst
    { ((s.ring a.ring).regs.getD r.inst.dst {}) with pending := true }) with issued := (s.ring a.ring).issued + 1 } := by
  rw [← (State.rec?_key h.1).1]
  exact State.issue_ring s r

theorem begun_calls : ((begun s r).ring a.ring).calls = (s.ring a.ring).calls := by
  rw [begun_ring_eq h]
  unfold Ring.setReg
  split <;> rfl

theorem begun_failed : ((begun s r).ring a.ring).failed = (s.ring a.ring).failed := by
  rw [begun_ring_eq h]
  unfold Ring.setReg
  split <;> rfl

include hlen

theorem begun_dst_lt : r.inst.dst < ((begun s r).ring a.ring).regs.length := by
  have hregs : ((begun s r).ring a.ring).regs.length = (s.ring a.ring).regs.length := by
    rw [begun_ring_eq h]
    unfold Ring.setReg
    split
    · rfl
    · exact List.length_set
  rw [hregs, hlen]
  exact r.dst_lt

/-- R38-R42: a successful completion right after the issue, in a part `t` that is as begun but for other things than records
and registers. -/
theorem begun_done {t : State} (d : Done) (hk : d.keepDst = false) (hst : d.status ≠ St.skipped) (hf : d.flow = .next)
    (hjrn : t.jrn = (begun s r).jrn) (hregs : (t.ring a.ring).regs = ((begun s r).ring a.ring).regs)
    (hmem : t.mem = (begun s r).mem) :
    HoldsDone (ended t a d) a r.inst.dst d.status d.result ∧ SameMemory s (ended t a d) := by
  have hrec := begun_rec h.1
  rw [← State.rec?_congr hjrn a] at hrec
  have hlt : r.inst.dst < (t.ring a.ring).regs.length := by rw [hregs]; exact begun_dst_lt h hlen
  have hdone := State.finish_holds hrec hk hst hf hlt
  refine ⟨hdone, fun x => ?_⟩
  rw [ended_sameMemory d hrec rfl x, hmem, begun_mem]

end

/-! ### CTL.FENCE -/

/-- R45: the failure of a ring since its last fence, forgotten. -/
def State.clearFailed (s : State) (n : Nat) : State := s.setRing n { s.ring n with failed := none }

/-- R45: a success leaves no mark of a failure where there was none. -/
theorem ended_failed {s : State} {a : At} {r : JRec} {d : Done} (h : s.rec? a = some r) (hk : d.keepDst = false)
    (hst : d.status ≠ St.skipped) (hf : d.flow = .next) (hok : Status.success d.status = true) (hstep : a.step = none) :
    ((ended s a d).ring a.ring).failed = (s.ring a.ring).failed := by
  obtain ⟨hring, -, hrstep⟩ := State.rec?_key h
  have h' : (s.countFailure d.status).rec? a = some r := by rw [State.countFailure_rec?]; exact h
  unfold ended State.finish
  rw [State.finishAt_ring d h' (hrstep.trans hstep), State.ring_markFree, State.endUses_ring, ← hring]
  unfold State.finishRing
  dsimp only
  rw [State.skipOn_next _ _ hf, State.ring_setRing_self]
  have hfail : ∀ g : Ring, g.noteFail r.inst d r.index = g := by intro g; simp [Ring.noteFail, hok]
  rw [hfail, State.noteDone_ring, State.setRec_ring, State.unname_ring, State.writeDst_ring_eq hk hst,
    State.countFailure_ring]
  unfold Ring.setReg
  split <;> rfl

/-! ### Events -/

/-- R46: starting a context's counters again leaves its events. -/
theorem State.ctxReset_event (s : State) (c0 ring layer opid index c e : Nat) :
    (s.ctxReset c0 ring layer opid index).event c e = s.event c e := by
  unfold State.ctxReset State.event
  dsimp only
  split
  · by_cases hc : c = c0
    · subst hc; simp
    · rw [State.ctx_setCtx_ne _ _ hc]
  · rfl

theorem State.event_congr {s t : State} (h : t.ctxs = s.ctxs) (c e : Nat) : t.event c e = s.event c e := by
  unfold State.event State.ctx
  rw [h]

/-- R46: the issue of an instruction leaves every event. -/
theorem begun_event (s : State) (r : JRec) (c e : Nat) : (begun s r).event c e = s.event c e := by
  have hstart : ((((s.served r.ring).name (s.issueNames (s.job r))).startRing r.ring (s.job r).inst.dst).setRec
      (r.started (s.job r) (s.issueNames (s.job r)) (s.jobFootprint (s.job r)))).ctxs = s.ctxs := by
    simp [State.startRing]
  have hissue : (s.issue r).event c e = s.event c e := by
    unfold State.issue State.noteIssue
    dsimp only
    rw [State.event_congr (State.trace_ctxs ..)]
    split
    · exact State.event_congr hstart c e
    · rw [State.ctxReset_event]
      exact State.event_congr hstart c e
  exact hissue

/-! ### The commands -/

section
variable {a : At} {r : JRec} {s : State} (h : Runs a r s)
include h

theorem exec_ctlNop (hop : r.inst.opcode = 0x00) : exec (.ctlNop a) s = .next (ended (begun s r) a {}) :=
  congrArg Host.Outcome.next (runHob_passes noCheck (fun _ s => succeeds 0 s) h hop rfl)

theorem exec_ctlAdd (hop : r.inst.opcode = 0x08) :
    exec (.ctlAdd a) s = .next (ended (begun s r) a { result := (jobAt s r).w0 + (jobAt s r).w1 }) :=
  congrArg Host.Outcome.next (runHob_passes noCheck (fun j s => .done { result := j.w0 + j.w1 } s) h hop rfl)

/-- R45: a fence without HALT, or of a ring without a failure. -/
theorem exec_ctlFence (hop : r.inst.opcode = 0x01) (hquiet : r.inst.x0 = false ∨ (s.ring a.ring).failed = none) :
    exec (.ctlFence a) s = .next (ended ((begun s r).clearFailed a.ring) a {}) := by
  refine congrArg Host.Outcome.next ((runHob_passes noCheck fenceBody h hop rfl).trans ?_)
  have hsite : (jobAt s r).site = a := State.rec?_site h.1
  have hfailed := begun_failed h
  unfold fenceBody
  dsimp only
  rw [hsite, hfailed]
  obtain hx0 | hnone := hquiet
  · rw [show (jobAt s r).inst.x0 = false from hx0]
    rfl
  · rw [hnone]
    cases (jobAt s r).inst.x0 <;> rfl

/-- R46: a wait whose event has reached its threshold. -/
theorem exec_ctlWait_met (hop : r.inst.opcode = 0x02)
    (hmet : (jobAt s r).w1 ≤ s.event (jobAt s r).ctx (bits (jobAt s r).w0.toNat 0 14)) : exec (.ctlWait a) s =
      .next (ended (begun s r) a { result := s.event (jobAt s r).ctx (bits (jobAt s r).w0.toNat 0 14) }) := by
  refine congrArg Host.Outcome.next ((runHob_passes noCheck waitBody h hop rfl).trans ?_)
  unfold waitBody
  dsimp only
  rw [begun_event, if_pos hmet]
  rfl

/-- R46, R53: a wait whose event has not. -/
theorem exec_ctlWait_waits (hop : r.inst.opcode = 0x02)
    (hbelow : ¬((jobAt s r).w1 ≤ (begun s r).event (jobAt s r).ctx (bits (jobAt s r).w0.toNat 0 14))) :
    exec (.ctlWait a) s = .next (waiting (begun s r) a (.event (bits (jobAt s r).w0.toNat 0 14) (jobAt s r).w1
      (if (jobAt s r).w2 = 0 then none else some ((begun s r).now.toNat + (jobAt s r).w2.toNat)))) := by
  refine congrArg Host.Outcome.next ((runHob_passes noCheck waitBody h hop rfl).trans ?_)
  unfold waitBody
  dsimp only
  rw [if_neg hbelow]
  rfl

theorem exec_ctlSignal (hop : r.inst.opcode = 0x03) : exec (.ctlSignal a) s =
    .next (ended ((begun s r).signal (jobAt s r).ctx (bits (jobAt s r).w0.toNat 0 14) (jobAt s r).w1 r.inst.x0) a
      { result := if r.inst.x0 then (jobAt s r).w1
          else (begun s r).event (jobAt s r).ctx (bits (jobAt s r).w0.toNat 0 14) + (jobAt s r).w1 }) :=
  congrArg Host.Outcome.next (runHob_passes noCheck signalBody h hop rfl)

/-- R47: a skip that counts some entries and whose comparison is one of the six. -/
theorem exec_ctlSkipif (hop : r.inst.opcode = 0x04) {holds : Bool}
    (hcmp : skipHolds (bits (jobAt s r).w2.toNat 0 3) (jobAt s r).w0 (jobAt s r).w1 = some holds)
    (hcount : bits (jobAt s r).w2.toNat 16 8 ≠ 0) : exec (.ctlSkipif a) s =
      .next (ended (begun s r) a
        (if holds then { result := 1, flow := .skip (bits (jobAt s r).w2.toNat 16 8) } else {})) := by
  refine congrArg Host.Outcome.next ((runHob_passes noCheck skipifBody h hop rfl).trans ?_)
  unfold skipifBody
  dsimp only
  rw [hcmp]
  dsimp only
  rw [if_neg hcount]
  cases holds <;> rfl

theorem exec_ctlRet (hop : r.inst.opcode = 0x07) : exec (.ctlRet a) s = .next (ended (begun s r) a { flow := .ret }) :=
  congrArg Host.Outcome.next (runHob_passes noCheck (fun _ s => .done { flow := .ret } s) h hop rfl)

/-- R53: a CTL.LOOP of a step back to an earlier one. -/
theorem exec_ctlLoop (hop : r.inst.opcode = 0x05) (hstep : r.step ≠ none) (hback : bits (jobAt s r).w0.toNat 0 12 < r.pc) :
    exec (.ctlLoop a) s = .next (ended (begun s r) a
      (if ((begun s r).ring a.ring).val r.inst.dst = 0 then {}
       else { result := ((begun s r).ring a.ring).val r.inst.dst - 1, flow := .jump (bits (jobAt s r).w0.toNat 0 12) })) := by
  refine congrArg Host.Outcome.next ((runHob_passes noCheck loopBody h hop rfl).trans ?_)
  have hsite : (jobAt s r).site = a := State.rec?_site h.1
  have hpc : (jobAt s r).step = some r.pc := if_pos (Option.isSome_iff_ne_none.mpr hstep)
  unfold loopBody
  dsimp only
  rw [hsite, hpc]
  dsimp only
  rw [if_neg (by omega), show (jobAt s r).inst = r.inst from rfl]
  by_cases hzero : ((begun s r).ring a.ring).val r.inst.dst = 0
  · rw [if_pos hzero, if_pos hzero]; rfl
  · rw [if_neg hzero, if_neg hzero]; rfl

end

/-- Settles O16: the equation of each command, and `begun_done` for what each completion leaves. -/
theorem controlResults : Obligations.ControlResults := by
  intro a r s h hlen
  have hdone := fun d hk hst hf => begun_done h hlen (t := begun s r) d hk hst hf rfl rfl rfl
  have hok : St.ok ≠ St.skipped := by decide
  refine ⟨fun hop => ⟨_, exec_ctlNop h hop, rfl, ?_⟩, fun hop => ⟨_, exec_ctlAdd h hop, rfl, ?_⟩,
    fun hop hquiet => ⟨_, exec_ctlFence h hop hquiet, ?_⟩, fun hop hmet => ⟨_, exec_ctlWait_met h hop hmet, rfl, ?_⟩,
    fun hop hcmp hcount => ⟨_, exec_ctlSkipif h hop hcmp hcount, rfl, ?_⟩⟩
  · exact hdone {} rfl hok rfl
  · exact hdone { result := (jobAt s r).w0 + (jobAt s r).w1 } rfl hok rfl
  · have hclear : ((begun s r).clearFailed a.ring).ring a.ring = { (begun s r).ring a.ring with failed := none } :=
      State.ring_setRing_self ..
    have hrec : ((begun s r).clearFailed a.ring).rec? a = _ := begun_rec h.1
    obtain ⟨hholds, hmem⟩ := begun_done h hlen (t := (begun s r).clearFailed a.ring) {} rfl hok rfl rfl
      (by rw [hclear]) rfl
    exact ⟨hholds, fun hstep => (ended_failed hrec rfl hok rfl (by decide) hstep).trans (by rw [hclear]), hmem⟩
  · exact hdone { result := s.event (jobAt s r).ctx (bits (jobAt s r).w0.toNat 0 14) } rfl hok rfl
  · exact hdone {} rfl (by decide) rfl

/-! ### CTL.CALL -/

/-- R49: a call of an image with steps enters it above the calls that are active. -/
theorem State.enter_calls {s : State} {a : At} {id : Nat} (cont : Bool) {im : Image} (him : s.images.look id = some im)
    (hsteps : im.steps ≠ []) : ∃ pc, ((s.enter a id cont).ring a.ring).calls =
      { image := id, pc := pc, cont := cont } :: (s.ring a.ring).calls := by
  generalize hu : (s.setRing a.ring { s.ring a.ring with
    calls := { image := id, cont := cont } :: (s.ring a.ring).calls
    fetched := if (s.ring a.ring).calls.isEmpty then 0 else (s.ring a.ring).fetched }).updRec a
      (fun r => { r with wait := none }) = u
  have hcalls : (u.ring a.ring).calls = { image := id, cont := cont } :: (s.ring a.ring).calls := by
    rw [← hu, State.updRec_ring, State.ring_setRing_self]
  have hlen : 0 < (u.imageSteps id).length := by
    have himg : u.images.look id = some im := by rw [← hu]; exact him
    unfold State.imageSteps
    rw [himg]
    exact List.length_pos_iff.mpr hsteps
  have henter : s.enter a id cont = u.fetch 64 a.ring a.index (((u.rec? a).map (·.ctx)).getD 0) := by
    unfold State.enter
    dsimp only
    rw [hu, State.callOver_none hcalls rfl hlen]
  obtain ⟨-, -, -, pc, hfetch⟩ := State.fetch_keeps a.ring a.index (((u.rec? a).map (·.ctx)).getD 0) 64 u _ _ hcalls
  exact ⟨pc, by rw [henter]; exact hfetch⟩

@[simp] theorem State.name_images (s : State) (ks : List Nat) : (s.name ks).images = s.images := by
  unfold State.name
  induction ks generalizing s with
  | nil => rfl
  | cons k r ih => rw [List.foldl_cons, ih]; rfl

/-- R49: the issue of an instruction leaves the images. -/
theorem begun_images (s : State) (r : JRec) : (begun s r).images = s.images := by
  have hissue : (s.issue r).images = s.images := by
    unfold State.issue State.noteIssue
    dsimp only
    rw [State.trace_images]
    split <;> simp [State.startRing]
  exact hissue

theorem exec_ctlCall {a : At} {r : JRec} {s : State} (h : Runs a r s) (hop : r.inst.opcode = 0x06) {im : Image}
    (him : s.images.look (bits (jobAt s r).w0.toNat 0 10) = some im) (hctx : im.ctx = (jobAt s r).ctx)
    (hdepth : (s.ring a.ring).calls.length < 4) : exec (.ctlCall a) s =
      .next ((begun s r).enter a (bits (jobAt s r).w0.toNat 0 10) r.inst.x0).markFree := by
  refine congrArg Host.Outcome.next ((runHob_passes noCheck callBody h hop rfl).trans ?_)
  have hsite : (jobAt s r).site = a := State.rec?_site h.1
  unfold callBody
  dsimp only
  rw [begun_images, him]
  dsimp only
  rw [if_neg (not_not_intro hctx), hsite, begun_calls h, if_neg (by omega)]
  rfl

/-- Settles O18: the equation of each command; `State.enter_calls` for the call, `State.finish_holds` for the timeout. -/
theorem controlFlow : Obligations.ControlFlow := by
  refine ⟨fun a r s => ⟨fun h hop => exec_ctlSignal h hop, fun h hop hcmp hcount => ?_,
    fun h hop im him hctx hsteps hdepth => ?_, fun h hop hbelow => exec_ctlWait_waits h hop hbelow,
    fun e th d hrec hwait hstate hdue hrun hlen => ?_⟩,
    fun a r s h hstep => ⟨fun hop hback => exec_ctlLoop h hop hstep hback, fun hop => exec_ctlRet h hop⟩⟩
  · rw [exec_ctlSkipif h hop hcmp hcount, if_pos rfl]
  · obtain ⟨pc, hcalls⟩ := State.enter_calls (s := begun s r) (a := a) r.inst.x0 (by rw [begun_images]; exact him) hsteps
    rw [begun_calls h] at hcalls
    refine ⟨_, { image := bits (jobAt s r).w0.toNat 0 10, pc := pc, cont := r.inst.x0 }, exec_ctlCall h hop him hctx hdepth,
      ?_, rfl, rfl, rfl, rfl⟩
    rw [State.ring_markFree]
    exact hcalls
  · have hends : s.waitTimeout a = ended s a { status := St.timeout } := by
      unfold State.waitTimeout
      rw [hrec]
      dsimp only
      rw [hwait]
      dsimp only
      rw [if_pos (by simp [hstate, hdue, hrun])]
      rfl
    exact ⟨_, congrArg Host.Outcome.next hends,
      State.finish_holds hrec rfl (by decide) rfl (by rw [hlen]; exact r.dst_lt)⟩

/-! ### While no engine runs -/

/-- Settles O20: every one of these commands is `runHob`, which does nothing while no die runs (`runHob_idle`). -/
theorem nothingIssuesWhileStopped : Obligations.NothingIssuesWhileStopped := by
  intro a s h
  repeat refine List.forall_mem_cons.mpr ⟨congrArg Host.Outcome.next (runHob_idle _ _ h), ?_⟩
  exact List.forall_mem_nil _

end Machine
end Sys2Proof
end

section
/-! PROOFS. What the issue and the completion of an instruction leave of the part beside records, registers, sequences,
contexts and pages. -/

namespace Sys2Proof
namespace Machine

/-- The part without what the issue and the completion of an instruction may touch. -/
def State.other (s : State) : State :=
  { s with rings := [], jrn := {}, seqs := [], ctxs := [], tel := {}, drt := {}, pages := [], gbl := {}, mem := {} }

/-- R455: a context without its counters, which events count in. -/
def Ctx.still (x : Ctx) : Ctx := { x with counters := [] }

/-! What parts that agree beside records and the like share. -/

section
variable {s t : State} (h : t.other = s.other)
include h

theorem State.now_of_other : t.now = s.now := (congrArg State.now h :)
theorem State.profiles_of_other : t.profiles = s.profiles := (congrArg State.profiles h :)
theorem State.wobjs_of_other : t.wobjs = s.wobjs := (congrArg State.wobjs h :)
theorem State.wins_of_other : t.wins = s.wins := (congrArg State.wins h :)
theorem State.flu_of_other : t.flu = s.flu := (congrArg State.flu h :)
theorem State.chk_of_other : t.chk = s.chk := (congrArg State.chk h :)

end

section
variable {x y : Ctx} (h : y.still = x.still)
include h

theorem Ctx.rights_of_still : y.rights = x.rights := (congrArg Ctx.rights h :)
theorem Ctx.chkMask_of_still : y.chkMask = x.chkMask := (congrArg Ctx.chkMask h :)
theorem Ctx.issuedKeys_of_still : y.issuedKeys = x.issuedKeys := (congrArg Ctx.issuedKeys h :)

end

/-! ### What no issue and no completion can be seen by -/

/-- What `get` reads of the part is the same after each of the changes of which an issue and a completion consist. -/
structure Unseen {γ : Type} (get : State → γ) : Prop where
  ring : ∀ s n g, get (s.setRing n g) = get s
  jrn : ∀ s x, get { s with jrn := x } = get s
  named : ∀ s k n, get (s.setSeq k { s.seq k with inflight := n }) = get s
  event : ∀ s c ev cls ring layer opid n, get (s.ctxEvent c ev cls ring layer opid n) = get s
  restart : ∀ s c ring layer opid index, get (s.ctxReset c ring layer opid index) = get s
  gbl : ∀ s q t l, get { s with gbl := { s.gbl with issueLast := q, issueTurn := t, issueLeft := l } } = get s
  tel : ∀ s x, get { s with tel := x } = get s
  drt : ∀ s x, get { s with drt := x } = get s
  frame : ∀ s d f, get (s.freeFrame d f) = get s

namespace Unseen

variable {γ : Type} {get : State → γ} (hg : Unseen get)
include hg

theorem count (s : State) (o n : Nat) : get (s.count o n) = get s := by
  unfold State.count
  split
  · exact hg.tel ..
  · rfl

theorem trace (s : State) (d : Side) (r : TraceRec) : get (s.trace d r) = get s := by
  unfold State.trace
  dsimp only
  split
  · exact hg.tel ..
  · rfl

theorem mapRecs (s : State) (f : JRec → JRec) : get (s.mapRecs f) = get s := hg.jrn s _

theorem name (s : State) (ks : List Nat) : get (s.name ks) = get s :=
  foldl_keeps get (fun s k => s.setSeq k { s.seq k with inflight := (s.seq k).inflight + 1 }) (fun s k => hg.named s k _) ks s

theorem unname (s : State) (ks : List Nat) : get (s.unname ks) = get s :=
  foldl_keeps get (fun s k => s.setSeq k { s.seq k with inflight := (s.seq k).inflight - 1 }) (fun s k => hg.named s k _) ks s

/-! Issue -/

theorem served (s : State) (n : Nat) : get (s.served n) = get s := by
  unfold State.served
  dsimp only
  split <;> exact hg.gbl ..

theorem noteIssue (s : State) (r : JRec) (j : Job) : get (s.noteIssue r j) = get s := by
  unfold State.noteIssue
  dsimp only
  rw [hg.trace]
  split
  · rfl
  · exact hg.restart ..

theorem issue (s : State) (r : JRec) : get (s.issue r) = get s := by
  unfold State.issue State.setRec State.startRing
  dsimp only
  rw [hg.noteIssue, hg.mapRecs, hg.ring, hg.name, hg.served]

theorem issuedAt (s : State) (r : JRec) : get (issuedAt s r) = get s := hg.issue s r

theorem keepSnap (s : State) (a : At) (k : Snap) : get (s.keepSnap a k) = get s := hg.mapRecs s _

theorem begun (s : State) (r : JRec) : get (begun s r) = get s := (hg.keepSnap ..).trans (hg.issue s r)

/-! Completion -/

theorem writeDst (s : State) (n : Nat) (i : Inst) (d : Done) : get (s.writeDst n i d) = get s := by
  unfold State.writeDst
  dsimp only
  split
  · rfl
  · split
    · exact hg.ring ..
    · split <;> exact hg.ring ..

theorem noteDone (s : State) (r : JRec) (i : Inst) (d : Done) : get (s.noteDone r i d) = get s := by
  unfold State.noteDone
  dsimp only
  split
  · rw [hg.event, hg.event]
  · exact hg.event ..

theorem noteEnded (s : State) (rs : List JRec) : get (s.noteEnded rs) = get s := by
  unfold State.noteEnded
  exact foldl_keeps get _ (fun _ _ => hg.event ..) rs s

theorem skipOn (s : State) (r : JRec) (d : Done) : get (s.skipOn r d) = get s := by
  unfold State.skipOn
  split
  · dsimp only
    rw [hg.noteEnded, hg.ring, hg.jrn]
  · rfl

theorem finishRing (s : State) (r : JRec) (i : Inst) (d : Done) : get (s.finishRing r i d) = get s := by
  unfold State.finishRing State.setRec
  dsimp only
  rw [hg.skipOn, hg.ring, hg.noteDone, hg.mapRecs, hg.unname, hg.writeDst]

theorem endStep (s : State) (r : JRec) (i : Inst) (d : Done) : get (s.endStep r i d) = get s := by
  have hwritten : get ((s.writeDst r.ring i d).unname r.names) = get s := (hg.unname ..).trans (hg.writeDst ..)
  unfold State.endStep State.noteStep State.updRec
  dsimp only
  split
  · rw [hg.mapRecs, hg.jrn, hwritten]
  · split
    · rw [hg.jrn, hg.ring, hg.mapRecs, hg.jrn, hwritten]
    · rw [hg.ring, hg.mapRecs, hg.jrn, hwritten]

theorem fetch (n : Nat) (index : BitVec 32) (c : Nat) : ∀ (k : Nat) (s : State), get (s.fetch k n index c) = get s
  | 0, _ => rfl
  | k + 1, s => by
    rw [State.fetch]
    dsimp only
    split
    · rfl
    · split
      · rfl
      · split
        · rfl
        · rw [fetch n index c k, hg.ring, hg.jrn]

theorem callOver {s s' : State} {n : Nat} {c : JRec} {d : Done} (h : s.callOver n = some (c, d, s')) : get s' = get s := by
  unfold State.callOver at h
  dsimp only at h
  split at h
  · split at h
    · cases h
    · cases h; exact hg.ring ..
  · cases h

theorem finishRec : ∀ (k : Nat) (s : State) (r : JRec) (d : Done), get (s.finishRec k r d) = get s
  | 0, _, _, _ => rfl
  | k + 1, s, r, d => by
    rw [State.finishRec]
    split
    · exact hg.finishRing ..
    · dsimp only
      split
      · rw [hg.fetch, hg.endStep]
      · next c d' s' hover => rw [finishRec k, hg.callOver hover, hg.endStep]

theorem releaseHeld (s : State) (d : Side) : get (s.releaseHeld d) = get s := by
  unfold State.releaseHeld
  dsimp only
  rw [foldl_keeps get]
  · exact hg.drt ..
  · exact fun t x => hg.frame ..

/-- R85: an instruction that used no page gives back only frames that were held back. -/
theorem endUses_nil (s : State) : get (s.endUses []) = get s := by
  unfold State.endUses
  rw [hg.releaseHeld, hg.releaseHeld]
  rfl

theorem countFailure (s : State) (st : Status) : get (s.countFailure st) = get s := by
  unfold State.countFailure State.countAo
  split
  · rw [hg.tel, hg.count]
  · split
    · exact hg.tel ..
    · rfl

/-- R85: the completion of an instruction that used no page. -/
theorem ended {s : State} {a : At} {r : JRec} (d : Done) (h : s.rec? a = some r) (huses : r.uses = []) :
    get (ended s a d) = get s := by
  rw [ended_step h, huses]
  unfold State.markFree
  rw [hg.mapRecs, hg.endUses_nil, hg.finishRec, hg.countFailure]

/-- R32, R85: the same of an instruction that has just begun, in a part as begun but for other things than records. -/
theorem begun_ended {s t : State} {a : At} {r : JRec} (d : Done) (h : Runs a r s) (hjrn : t.jrn = (Machine.begun s r).jrn) :
    get (Machine.ended t a d) = get t := by
  have hrec := begun_rec h.1
  rw [← State.rec?_congr hjrn a] at hrec
  exact hg.ended d hrec rfl

end Unseen

/-! ### What is so -/

theorem State.freeFrame_other (s : State) (d : Side) (f : Option FrameAt) : (s.freeFrame d f).other = s.other := by
  unfold State.freeFrame State.mirrorFreed
  repeat' split
  all_goals rfl

/-- All of the part but records, rings, sequences, contexts, pages, memory and the blocks GBL, DRT and TEL. -/
theorem State.other_unseen : Unseen State.other where
  ring _ _ _ := rfl
  jrn _ _ := rfl
  named _ _ _ := rfl
  event s c ev cls ring layer opid n := by unfold State.ctxEvent; dsimp only; split <;> rfl
  restart s c ring layer opid index := by unfold State.ctxReset; dsimp only; split <;> rfl
  gbl _ _ _ _ := rfl
  tel _ _ := rfl
  drt _ _ := rfl
  frame s d f := State.freeFrame_other s d f

theorem State.freeFrame_ctxs (s : State) (d : Side) (f : Option FrameAt) : (s.freeFrame d f).ctxs = s.ctxs := by
  unfold State.freeFrame State.mirrorFreed
  repeat' split
  all_goals rfl

theorem State.ctx_congr {s t : State} (h : t.ctxs = s.ctxs) (c : Nat) : t.ctx c = s.ctx c := by
  unfold State.ctx
  rw [h]

/-- R455, R458: of the contexts, all but what counts in their counters: `get` reads of a context what the counting and the
starting again of its counters leave. -/
theorem Ctx.unseen {γ : Type} {get : Ctx → γ} (c : Nat) (hget : ∀ (x : Ctx) (f : Nat → Counter → Counter),
      (∀ n k, (f n k).running = k.running) → get { x with counters := x.counters.mapVals f } = get x) :
    Unseen (fun s : State => get (s.ctx c)) where
  ring _ _ _ := rfl
  jrn _ _ := rfl
  named _ _ _ := rfl
  event s c0 ev cls ring layer opid n := by
    unfold State.ctxEvent
    dsimp only
    split
    · by_cases hc : c = c0
      · subst hc
        rw [State.ctx_setCtx_self]
        exact hget _ _ fun _ _ => by split <;> rfl
      · rw [State.ctx_setCtx_ne _ _ hc]
    · rfl
  restart s c0 ring layer opid index := by
    unfold State.ctxReset
    dsimp only
    split
    · by_cases hc : c = c0
      · subst hc
        rw [State.ctx_setCtx_self]
        exact hget _ _ fun _ _ => by split <;> rfl
      · rw [State.ctx_setCtx_ne _ _ hc]
    · rfl
  gbl _ _ _ _ := rfl
  tel _ _ := rfl
  drt _ _ := rfl
  frame s d f := by rw [State.ctx_congr (State.freeFrame_ctxs s d f)]

theorem Ctx.still_unseen (c : Nat) : Unseen (fun s : State => (s.ctx c).still) := Ctx.unseen c fun _ _ _ => rfl

/-- R455: whether a counter of a context runs. -/
theorem Ctx.running_unseen (c n : Nat) : Unseen (fun s : State => ((s.ctx c).counters.lookD n {}).running) :=
  Ctx.unseen (get := fun x : Ctx => (x.counters.lookD n {}).running) c fun x f hf => by
    simp only [Tbl.lookD, Tbl.look_mapVals]
    cases x.counters.look n with
    | none => rfl
    | some k => exact hf n k

theorem issuedAt_other (s : State) (r : JRec) : (issuedAt s r).other = s.other := State.other_unseen.issuedAt s r
theorem begun_other (s : State) (r : JRec) : (begun s r).other = s.other := State.other_unseen.begun s r
theorem issuedAt_still (s : State) (r : JRec) (c : Nat) : ((issuedAt s r).ctx c).still = (s.ctx c).still :=
  (Ctx.still_unseen c).issuedAt s r
theorem begun_still (s : State) (r : JRec) (c : Nat) : ((begun s r).ctx c).still = (s.ctx c).still :=
  (Ctx.still_unseen c).begun s r
theorem issuedAt_mem (s : State) (r : JRec) : (issuedAt s r).mem = s.mem := State.issue_mem s r

theorem begun_ended_other {s t : State} {a : At} {r : JRec} (d : Done) (h : Runs a r s) (hjrn : t.jrn = (begun s r).jrn) :
    (ended t a d).other = t.other := State.other_unseen.begun_ended d h hjrn

/-- R38, R61, R407: the record of a ring entry that has completed. -/
theorem ended_rec {s : State} {a : At} {r : JRec} {d : Done} (h : s.rec? a = some r) (hf : d.flow = .next)
    (hstep : a.step = none) : (ended s a d).rec? a = some ((s.countFailure d.status).doneRec r d) := by
  have hsite : r.site = a := State.rec?_site h
  have h' : (s.countFailure d.status).rec? a = some r := by rw [State.countFailure_rec?]; exact h
  unfold ended State.finish
  rw [State.finishAt_ring d h' ((State.rec?_key h).2.2.trans hstep)]
  refine State.rec?_markFree ?_ (by intro e; cases e)
  rw [State.endUses_rec?, ← hsite]
  exact State.finishRing_rec (by rw [hsite]; exact h') hf

/-! ### Checks that pass -/

/-- R32-R50: what a command does for an instruction whose checks pass and take `k`, where no host holds a line. -/
theorem runHob_passed {op : Nat} {a : At} {r : JRec} {s s0 : State} {k : Snap} {check : Job → State → Chk}
    (body : Job → State → Out) (h : Runs a r s) (hop : r.inst.opcode = op) (hc : Passes check s r k s0)
    (htracked : s0.tracked = []) : runHob op a check body s = (settle a (body (jobWith s r k) (passed s0 r k))).markFree := by
  have hc' : check (jobAt s r) (issuedAt s r) = .good k s0 := hc
  rw [runHob_runs check body h hop]
  unfold State.proceed
  rw [hc']
  dsimp only
  rw [keptSnap_issued h.1, snoopWait_none htracked]
  unfold passed
  rw [State.rec?_site h.1]
  rfl

theorem issuedAt_tracked {a : At} {r : JRec} {s : State} (h : Runs a r s) : (issuedAt s r).tracked = [] :=
  (State.issue_tracked s r).trans h.2.2.2.2


theorem checks_good {f : Job → State → Option (Status × Nat)} {j : Job} {s : State} (h : f j s = none) :
    checks f j s = .good {} s := by
  unfold checks
  rw [h]
  rfl

/-- R39: what a command that lets an issued instruction go on does with one that waits. -/
theorem goOn_goesOn {op : Nat} {a : At} {r : JRec} {s : State} {body : Job → Wait → State → Option Out} {w : Wait} {o : Out}
    (h : GoesOn a r s) (hop : r.inst.opcode = op) (hw : r.wait = some w) (hbody : body (s.job r) w s = some o) :
    goOn op a body s = (settle a o).markFree := by
  obtain ⟨hrec, hstate, -, hlisted, hdies, -, -⟩ := h
  unfold goOn
  rw [hrec]
  dsimp only
  rw [hw]
  dsimp only
  rw [if_pos (by simp [effOp_listed hlisted, hop, hstate, hdies]), hbody]

/-- R32: none of the checks of a list finds anything. -/
def allPass : List Bad → Prop
  | [] => True
  | [b] => b = none
  | b :: c :: l => b = none ∧ allPass (c :: l)

/-- R32: nothing is bad where none of the checks finds anything. -/
theorem firstBad_eq_none : ∀ {l : List Bad}, allPass l → firstBad l = none
  | [], _ => rfl
  | [b], (hb : b = none) => by
    subst hb
    rfl
  | b :: c :: l, ⟨hb, hl⟩ => by
    subst hb
    exact (firstBad_eq_none hl : firstBad (c :: l) = none)

theorem badIf_false {b : Bool} {st : Status} {d : Nat} (h : b = false) : badIf b st d = none := by
  subst h
  rfl

end Machine
end Sys2Proof
end

section
/-! PROOFS. Check units (R357-R362). -/

namespace Sys2Proof
namespace Machine

theorem unitChecks_good {f : Job → State → Bad} {j : Job} {s : State} (h : f j s = none) : unitChecks f j s = .good {} s := by
  unfold unitChecks
  rw [h]

/-! ### What the part has of its check units while an instruction runs -/

theorem issuedAt_chk (s : State) (r : JRec) : (issuedAt s r).chk = s.chk := State.chk_of_other (issuedAt_other s r)

theorem issuedAt_chkMask (s : State) (r : JRec) (c : Nat) : ((issuedAt s r).ctx c).chkMask = (s.ctx c).chkMask :=
  Ctx.chkMask_of_still (issuedAt_still s r c)

section
variable (s : State) (j : Job) (x : CheckUnit)

@[simp] theorem State.dropKept_jrn : (s.dropKept j).jrn = s.jrn := by unfold State.dropKept; dsimp only; split <;> rfl
@[simp] theorem State.dropKept_ring (m : Nat) : (s.dropKept j).ring m = s.ring m := by
  unfold State.dropKept; dsimp only; split <;> rfl
@[simp] theorem State.dropKept_mem : (s.dropKept j).mem = s.mem := by unfold State.dropKept; dsimp only; split <;> rfl

/-- R357: what is dropped is no unit of the 64. -/
theorem State.dropKept_look {v : Nat} (hv : v < 64) : (s.dropKept j).chk.look v = s.chk.look v := by
  have hne : v ≠ keptUnit j.ctx (bits j.w0.toNat 0 6) := by unfold keptUnit; omega
  unfold State.dropKept
  dsimp only
  split
  · rfl
  · exact Tbl.look_del_ne _ hne

@[simp] theorem State.putUnit_jrn : (s.putUnit j x).jrn = s.jrn := by simp [State.putUnit]
@[simp] theorem State.putUnit_ring (m : Nat) : (s.putUnit j x).ring m = s.ring m := by
  unfold State.putUnit; rw [State.dropKept_ring]; rfl
@[simp] theorem State.putUnit_mem : (s.putUnit j x).mem = s.mem := by simp [State.putUnit]

end

/-- R357: the field of W0 names one of the 64 units. -/
theorem unitField_lt (n : Nat) : bits n 0 6 < 64 := Nat.mod_lt _ (by decide)

section
variable {s : State} {j : Job} (hmask : (s.ctx j.ctx).chkMask.getLsbD (bits j.w0.toNat 0 6) = true)
include hmask

theorem State.unitKey_held : s.unitKey j = bits j.w0.toNat 0 6 := if_pos hmask

theorem State.unitOf_held : s.unitOf j = s.chk.lookD (bits j.w0.toNat 0 6) {} := by
  rw [State.unitOf, State.unitKey_held hmask]

/-- R357: a unit that the context holds, and that is SET where it must be, passes. -/
theorem State.badUnit_held {needSet : Bool} (hset : needSet = true → s.chk.has (bits j.w0.toNat 0 6) = true) :
    s.badUnit j needSet = none := by
  unfold State.badUnit
  rw [State.unitKey_held hmask, hmask]
  refine firstBad_eq_none ⟨badIf_false (by simp), badIf_false ?_⟩
  cases needSet with
  | false => rfl
  | true => rw [hset rfl]; rfl

/-- R357, R358: the unit put is the one named; the others of the 64 stay. -/
theorem State.putUnit_look (x : CheckUnit) : (s.putUnit j x).chk.look (bits j.w0.toNat 0 6) = some x ∧
    ∀ v, v < 64 → v ≠ bits j.w0.toNat 0 6 → (s.putUnit j x).chk.look v = s.chk.look v := by
  unfold State.putUnit
  rw [State.unitKey_held hmask]
  refine ⟨?_, fun v hv hne => ?_⟩
  · rw [State.dropKept_look _ _ (unitField_lt _)]
    exact Tbl.look_put_self ..
  · rw [State.dropKept_look _ _ hv]
    exact Tbl.look_put_ne _ _ hne

end

/-! ### A CHK instruction that runs -/

section
variable {a : At} {r : JRec} {s : State} (h : Runs a r s) (hlen : (s.ring a.ring).regs.length = 64)
include h hlen

/-- R357: a CHK instruction that completes with its unit put. -/
theorem putUnit_ended {u : State} (x : CheckUnit) (d : Done) (hk : d.keepDst = false) (hst : d.status ≠ St.skipped)
    (hf : d.flow = .next) (hmask : (s.ctx (jobAt s r).ctx).chkMask.getLsbD (bits (jobAt s r).w0.toNat 0 6) = true)
    (hjrn : u.jrn = ((begun s r).putUnit (jobAt s r) x).jrn)
    (hring : u.ring a.ring = ((begun s r).putUnit (jobAt s r) x).ring a.ring)
    (hmem : u.mem = ((begun s r).putUnit (jobAt s r) x).mem) (hchk : u.chk = ((begun s r).putUnit (jobAt s r) x).chk) :
    HoldsDone (ended u a d) a r.inst.dst d.status d.result ∧
      (ended u a d).chk.look (bits (jobAt s r).w0.toNat 0 6) = some x ∧
      (∀ v, v < 64 → v ≠ bits (jobAt s r).w0.toNat 0 6 → (ended u a d).chk.look v = s.chk.look v) ∧
      SameMemory s (ended u a d) := by
  rw [State.putUnit_jrn] at hjrn
  rw [State.putUnit_mem] at hmem
  obtain ⟨hholds, hsame⟩ := begun_done h hlen d hk hst hf hjrn (by rw [hring, State.putUnit_ring]) hmem
  have hother : (ended u a d).chk = u.chk := State.chk_of_other (begun_ended_other d h hjrn)
  obtain ⟨hself, hne⟩ := State.putUnit_look (s := begun s r) (j := jobAt s r)
    (by rw [Ctx.chkMask_of_still (begun_still s r _)]; exact hmask) x
  have hbegun : (begun s r).chk = s.chk := State.chk_of_other (begun_other s r)
  rw [hother, hchk]
  exact ⟨hholds, hself, fun v hv hv' => (hne v hv hv').trans (by rw [hbegun]), hsame⟩

end

theorem State.unitBlock_congr {s t : State} (h : t.mem = s.mem) (a : Nat) : t.unitBlock a = s.unitBlock a := by
  unfold State.unitBlock State.field
  rw [h]

theorem State.unitReserved_congr {s t : State} (h : t.mem = s.mem) (a : Nat) : t.unitReserved a = s.unitReserved a := by
  unfold State.unitReserved State.field
  rw [h]

section
variable {a : At} {r : JRec} {s : State} (h : Runs a r s)
include h

/-- R358: CHK.SETUP whose checks pass. -/
theorem exec_chkSetup (hop : r.inst.opcode = 0x90)
    (hmask : (s.ctx (jobAt s r).ctx).chkMask.getLsbD (bits (jobAt s r).w0.toNat 0 6) = true)
    (hrng : (begun s r).rng (jobAt s r).ctx (jobAt s r).w1.toNat 64 1 = none)
    (hread : s.mem.readErr (jobAt s r).w1.toNat 64 = none) (hres : s.unitReserved (jobAt s r).w1.toNat = none)
    (hbad : (s.unitBlock (jobAt s r).w1.toNat).bad = false) : exec (.chkSetup a) s =
      .next (ended ((begun s r).putUnit (jobAt s r) (s.unitBlock (jobAt s r).w1.toNat)) a {}) := by
  have hmask' : ((issuedAt s r).ctx (jobAt s r).ctx).chkMask.getLsbD (bits (jobAt s r).w0.toNat 0 6) = true := by
    rw [issuedAt_chkMask]; exact hmask
  have hmem : (issuedAt s r).mem = s.mem := issuedAt_mem s r
  have hchecks : setupBad (jobAt s r) (issuedAt s r) = none := by
    refine firstBad_eq_none ⟨hrng, State.badUnit_held hmask' (by simp), ?_, ?_, badIf_false ?_⟩
    · rw [hmem]; exact hread
    · rw [State.unitReserved_congr hmem]; exact hres
    · rw [State.unitBlock_congr hmem]; exact hbad
  refine congrArg Host.Outcome.next ((runHob_passes _ setupBody h hop (unitChecks_good hchecks)).trans ?_)
  rw [← State.unitBlock_congr (begun_mem s r)]
  rfl

/-- R362: CHK.SAVE of a unit that is SET. -/
theorem exec_chkSave (hop : r.inst.opcode = 0x92)
    (hmask : (s.ctx (jobAt s r).ctx).chkMask.getLsbD (bits (jobAt s r).w0.toNat 0 6) = true)
    (hset : s.chk.has (bits (jobAt s r).w0.toNat 0 6) = true) : exec (.chkSave a) s =
      .next (ended ((begun s r).dropKept (jobAt s r)) a
        { result := BitVec.ofNat 64 (s.chk.lookD (bits (jobAt s r).w0.toNat 0 6) {}).running.toNat }) := by
  have hmask' : ((issuedAt s r).ctx (jobAt s r).ctx).chkMask.getLsbD (bits (jobAt s r).w0.toNat 0 6) = true := by
    rw [issuedAt_chkMask]; exact hmask
  have hchecks : (issuedAt s r).badUnit (jobAt s r) true = none :=
    State.badUnit_held hmask' fun _ => by rw [issuedAt_chk]; exact hset
  have hunit : (begun s r).unitOf (jobAt s r) = s.chk.lookD (bits (jobAt s r).w0.toNat 0 6) {} := by
    rw [State.unitOf_held (s := begun s r) hmask', State.chk_of_other (begun_other s r)]
  refine congrArg Host.Outcome.next ((runHob_passes _ saveBody h hop (unitChecks_good hchecks)).trans ?_)
  rw [← hunit]
  rfl

/-- R362: CHK.RESTORE of a unit that is SET, with a value within its width. -/
theorem exec_chkRestore (hop : r.inst.opcode = 0x93)
    (hmask : (s.ctx (jobAt s r).ctx).chkMask.getLsbD (bits (jobAt s r).w0.toNat 0 6) = true)
    (hset : s.chk.has (bits (jobAt s r).w0.toNat 0 6) = true)
    (hfits : (jobAt s r).w1.toNat < 2 ^ (s.chk.lookD (bits (jobAt s r).w0.toNat 0 6) {}).width) : exec (.chkRestore a) s =
      .next (ended ((begun s r).putUnit (jobAt s r)
        { s.chk.lookD (bits (jobAt s r).w0.toNat 0 6) {} with running := (jobAt s r).w1 }) a {}) := by
  have hmask' : ((issuedAt s r).ctx (jobAt s r).ctx).chkMask.getLsbD (bits (jobAt s r).w0.toNat 0 6) = true := by
    rw [issuedAt_chkMask]; exact hmask
  have hunit : ∀ t : State, t.chk = s.chk → (t.ctx (jobAt s r).ctx).chkMask.getLsbD (bits (jobAt s r).w0.toNat 0 6) = true →
      t.unitOf (jobAt s r) = s.chk.lookD (bits (jobAt s r).w0.toNat 0 6) {} := by
    intro t hchk ht
    rw [State.unitOf_held ht, hchk]
  have hchecks : restoreBad (jobAt s r) (issuedAt s r) = none := by
    unfold restoreBad
    rw [hunit _ (issuedAt_chk s r) hmask']
    exact firstBad_eq_none ⟨State.badUnit_held hmask' fun _ => by rw [issuedAt_chk]; exact hset,
      badIf_false (decide_eq_false (Nat.not_le.mpr hfits))⟩
  refine congrArg Host.Outcome.next ((runHob_passes _ restoreBody h hop (unitChecks_good hchecks)).trans ?_)
  rw [← hunit (begun s r) (State.chk_of_other (begun_other s r)) hmask']
  rfl

omit h in
/-- R32, R37, R360, R361: the checks of CHK.FEED of a unit that is SET. -/
theorem feedBad_none
    (hmask : (s.ctx (jobAt s r).ctx).chkMask.getLsbD (bits (jobAt s r).w0.toNat 0 6) = true)
    (hset : s.chk.has (bits (jobAt s r).w0.toNat 0 6) = true) (hwidth : bits (jobAt s r).w0.toNat 8 2 ≠ 3)
    (hn : bits (jobAt s r).w2.toNat 0 32 ≠ 0) (hmod : bits (jobAt s r).w2.toNat 0 32 % 2 ^ bits (jobAt s r).w0.toNat 8 2 = 0)
    (hrng : (begun s r).checkRange (jobAt s r).ctx (jobAt s r).w1.toNat (bits (jobAt s r).w2.toNat 0 32)
      (2 ^ bits (jobAt s r).w0.toNat 8 2) false = none)
    (halive : r.inst.x0 = true → (s.chk.lookD (bits (jobAt s r).w0.toNat 0 6) {}).aliveW ≠ 0 ∧
      bits (jobAt s r).w2.toNat 48 16 < 2 ^ (s.chk.lookD (bits (jobAt s r).w0.toNat 0 6) {}).aliveW) :
    feedBad (jobAt s r) (issuedAt s r) = none := by
  have hmask' : ((issuedAt s r).ctx (jobAt s r).ctx).chkMask.getLsbD (bits (jobAt s r).w0.toNat 0 6) = true := by
    rw [issuedAt_chkMask]; exact hmask
  have hunit : (issuedAt s r).unitOf (jobAt s r) = s.chk.lookD (bits (jobAt s r).w0.toNat 0 6) {} := by
    rw [State.unitOf_held hmask', issuedAt_chk]
  have hrng' : (issuedAt s r).checkRange (jobAt s r).ctx (jobAt s r).w1.toNat (bits (jobAt s r).w2.toNat 0 32)
      (2 ^ bits (jobAt s r).w0.toNat 8 2) false = none := hrng
  unfold feedBad
  dsimp only
  rw [hunit, if_neg hwidth, hrng']
  refine firstBad_eq_none ⟨rfl, State.badUnit_held hmask' fun _ => by rw [issuedAt_chk]; exact hset,
    badIf_false (by simpa using hwidth), badIf_false (by simp [hn, hmod]), badIf_false ?_⟩
  rw [show (jobAt s r).inst.x0 = r.inst.x0 from rfl]
  cases hx0 : r.inst.x0 with
  | false => rfl
  | true =>
    obtain ⟨hw, hv⟩ := halive hx0
    generalize s.chk.lookD _ _ = x at hw hv ⊢
    simp [hw, hv]

/-- R359, R360: CHK.FEED without an alive value. -/
theorem exec_chkFeed (hop : r.inst.opcode = 0x91) (hchecks : feedBad (jobAt s r) (issuedAt s r) = none)
    (hx0 : r.inst.x0 = false) {x y : CheckUnit} (hx : (begun s r).unitOf (jobAt s r) = x)
    (hread : s.mem.readErr (jobAt s r).w1.toNat (bits (jobAt s r).w2.toNat 0 32) = none)
    (hy : y = { x with running := BitVec.ofNat 64 ((feedOrder x.refIn (2 ^ bits (jobAt s r).w0.toNat 8 2)
      (s.peek (jobAt s r).w1.toNat (bits (jobAt s r).w2.toNat 0 32))).foldl (unitStep x) x.running.toNat) }) :
    exec (.chkFeed a) s = .next (ended ((((begun s r).putUnit (jobAt s r) y).count 0x03700100
      (bits (jobAt s r).w2.toNat 0 32)).count 0x03700108) a { result := BitVec.ofNat 64 y.value }) := by
  refine congrArg Host.Outcome.next ((runHob_passes _ feedBody h hop (unitChecks_good hchecks)).trans ?_)
  have hx' : (begun s r).unitOf { jobAt s r with snap := {} } = x := hx
  have hx0' : (jobAt s r).inst.x0 = false := hx0
  have hpeek : ∀ p n, (begun s r).peek p n = s.peek p n := by intro p n; unfold State.peek; rw [begun_mem]
  subst hy
  unfold feedBody
  dsimp only
  rw [hx', hx0', begun_mem, hread, hpeek]
  rfl

/-- R361: CHK.FEED with an alive value that is not the expected one. -/
theorem exec_chkFeed_alive (hop : r.inst.opcode = 0x91) (hchecks : feedBad (jobAt s r) (issuedAt s r) = none)
    (hx0 : r.inst.x0 = true) {x : CheckUnit} (hx : (begun s r).unitOf (jobAt s r) = x)
    (hne : bits (jobAt s r).w2.toNat 48 16 ≠ x.aliveNext) : exec (.chkFeed a) s =
      .next (ended (((begun s r).putUnit (jobAt s r)
        { x with aliveNext := (bits (jobAt s r).w2.toNat 48 16 + 1) % 2 ^ x.aliveW }).count 0x03700110) a
        { status := St.aliveMismatch, detail := bits (jobAt s r).w2.toNat 48 16 }) := by
  refine congrArg Host.Outcome.next ((runHob_passes _ feedBody h hop (unitChecks_good hchecks)).trans ?_)
  have hx' : (begun s r).unitOf { jobAt s r with snap := {} } = x := hx
  have hx0' : (jobAt s r).inst.x0 = true := hx0
  unfold feedBody
  dsimp only
  rw [hx', hx0', if_pos (by simp [hne])]
  rfl

end

/-- Settles O29: the equation of each command, and `putUnit_ended` for what each leaves. -/
theorem checkUnitsServe : Obligations.CheckUnitsServe := by
  have hok : St.ok ≠ St.skipped := by decide
  have hmismatch : St.aliveMismatch ≠ St.skipped := by decide
  refine ⟨fun a r s h hlen => ?_, fun a r s h hlen hop hx0 => ?_⟩
  · intro j u x hmask
    have hunit : (begun s r).unitOf (jobAt s r) = x := by
      rw [State.unitOf_held (s := begun s r) (by rw [Ctx.chkMask_of_still (begun_still s r _)]; exact hmask),
        State.chk_of_other (begun_other s r)]
    refine ⟨fun hop hrng hread hres hbad => ⟨_, exec_chkSetup h hop hmask hrng hread hres hbad, ?_⟩,
      fun hop hset => ⟨_, exec_chkSave h hop hmask hset, ?_⟩,
      fun hop hset hfits => ⟨_, exec_chkRestore h hop hmask hset hfits, ?_⟩, fun hop hset hx0 => ?_⟩
    · exact putUnit_ended h hlen _ {} rfl hok rfl hmask rfl rfl rfl rfl
    · obtain ⟨hholds, hsame⟩ := begun_done h hlen (t := (begun s r).dropKept j) { result := BitVec.ofNat 64 x.running.toNat }
        rfl hok rfl (State.dropKept_jrn ..) (by rw [State.dropKept_ring]) (State.dropKept_mem ..)
      refine ⟨hholds, fun v hv => ?_, hsame⟩
      rw [State.chk_of_other (begun_ended_other _ h (State.dropKept_jrn ..)), State.dropKept_look _ _ hv,
        State.chk_of_other (begun_other s r)]
    · exact putUnit_ended h hlen _ {} rfl hok rfl hmask rfl rfl rfl rfl
    · intro w n hwidth hn hmod hrng hread run y
      have hchecks := feedBad_none hmask hset hwidth hn hmod hrng (fun hx => by rw [hx0] at hx; cases hx)
      refine ⟨_, exec_chkFeed h hop hchecks hx0 hunit hread (y := y) rfl, ?_⟩
      exact putUnit_ended h hlen _ { result := BitVec.ofNat 64 y.value } rfl hok rfl hmask (by simp) (by simp) (by simp) (by simp)
  · intro j u x w n v hmask hset hwidth hn hmod hrng haw hv hne
    have hunit : (begun s r).unitOf (jobAt s r) = x := by
      rw [State.unitOf_held (s := begun s r) (by rw [Ctx.chkMask_of_still (begun_still s r _)]; exact hmask),
        State.chk_of_other (begun_other s r)]
    have hchecks := feedBad_none hmask hset hwidth hn hmod hrng (fun _ => ⟨haw, hv⟩)
    refine ⟨_, exec_chkFeed_alive h hop hchecks hx0 hunit hne, ?_⟩
    obtain ⟨hholds, hlook, -, hsame⟩ := putUnit_ended h hlen (u := ((begun s r).putUnit j
        { x with aliveNext := (v + 1) % 2 ^ x.aliveW }).count 0x03700110) _
      { status := St.aliveMismatch, detail := v } rfl hmismatch rfl hmask
      (State.count_jrn ..) (State.count_ring ..) (State.count_mem ..) (State.count_chk ..)
    have hrec := begun_rec h.1
    rw [← State.rec?_congr (((State.count_jrn _ 0x03700110 1).trans (State.putUnit_jrn (begun s r) j
      { x with aliveNext := (v + 1) % 2 ^ x.aliveW }))) a] at hrec
    exact ⟨hholds, fun hstep => ⟨_, ended_rec hrec rfl hstep, rfl⟩, hlook, hsame⟩

end Machine
end Sys2Proof
end

section
/-! PROOFS. Counters (R455-R459) and remote keys (R328, R329). -/

namespace Sys2Proof
namespace Machine

/-! ### Counters -/

/-- R39: the issue of an instruction leaves the context of every ring. -/
theorem issuedAt_ring_ctx (s : State) (r : JRec) (n : Nat) : ((issuedAt s r).ring n).ctx = (s.ring n).ctx := by
  unfold issuedAt
  by_cases hn : n = r.ring
  · subst hn
    rw [State.issue_ring]
    unfold Ring.setReg
    split <;> rfl
  · rw [State.issue_ring_ne s r hn]

/-- R455, R456, R458: the counter that a CTR.START names, started. -/
def State.counterStarted (s : State) (j : Job) : State :=
  let n := bits j.w0.toNat 0 16
  let x := s.ctx j.ctx
  let starts := (x.counters.lookD n {}).starts + 1
  let id : Nat := if j.inst.x0 then j.site.index.toNat + j.site.ring * 2 ^ 32 else starts.toNat + 2 ^ 63
  s.setCtx j.ctx { x with counters := x.counters.put n {
    selector := j.w1, value := 0, running := true, resetAtStart := j.inst.x0, interval := BitVec.ofNat 64 id, starts := starts } }

/-- R455: a counter of a context, once started, stopped. -/
def State.counterStopped (s : State) (c n : Nat) : State :=
  let x := s.ctx c
  let k := x.counters.lookD n {}
  if x.counters.has n then
    s.setCtx c { x with counters := x.counters.put n { k with running := false, stampAt := none, endedAt := none } }
  else s

/-- R455: it does not run; neither records, rings nor memory are touched. -/
theorem State.counterStopped_keeps (s : State) (c n m : Nat) : (s.counterStopped c n).jrn = s.jrn ∧
    (s.counterStopped c n).ring m = s.ring m ∧ (s.counterStopped c n).mem = s.mem ∧
    (((s.counterStopped c n).ctx c).counters.lookD n {}).running = false := by
  unfold State.counterStopped
  dsimp only
  split
  · rw [State.ctx_setCtx_self, Tbl.lookD_put_self]
    exact ⟨rfl, rfl, rfl, rfl⟩
  · next hno =>
    have hnone : (s.ctx c).counters.look n = none := by
      cases hlook : (s.ctx c).counters.look n with
      | none => rfl
      | some k => exact absurd ((Tbl.has_iff ..).mpr ⟨k, hlook⟩) hno
    refine ⟨rfl, rfl, rfl, ?_⟩
    rw [Tbl.lookD, hnone]
    rfl

section
variable {a : At} {r : JRec} {s : State} (h : Runs a r s) (hn : bits (jobAt s r).w0.toNat 0 16 ≤ 255)
include h hn

/-- R455, R456: CTR.START whose selector passes. -/
theorem exec_ctrStart (hop : r.inst.opcode = 0xA0) (hsel : badSelector (jobAt s r).w1.toNat = false)
    (hring : bitOf (jobAt s r).w1.toNat 12 = false ∨
      (s.ring (bits (jobAt s r).w1.toNat 16 16)).ctx.toNat = (jobAt s r).ctx) :
    exec (.ctrStart a) s = .next (ended ((begun s r).counterStarted (jobAt s r)) a {}) := by
  have hchecks : ctrStartBad (jobAt s r) (issuedAt s r) = none := by
    refine firstBad_eq_none ⟨badIf_false (decide_eq_false (by omega)), badIf_false hsel, badIf_false ?_⟩
    rw [issuedAt_ring_ctx]
    obtain hb | hc := hring
    · simp [hb]
    · simp [hc]
  exact congrArg Host.Outcome.next (runHob_passes _ ctrStartBody h hop (checks_good hchecks))

theorem exec_ctrStop (hop : r.inst.opcode = 0xA1) : exec (.ctrStop a) s =
    .next (ended ((begun s r).counterStopped (jobAt s r).ctx (bits (jobAt s r).w0.toNat 0 16)) a
      { result := (((begun s r).ctx (jobAt s r).ctx).counters.lookD (bits (jobAt s r).w0.toNat 0 16) {}).value }) :=
  congrArg Host.Outcome.next (runHob_passes _ ctrStopBody h hop (checks_good (badIf_false (decide_eq_false (by omega)))))

/-- R457: CTR.SAMPLE of sixteen bytes that the context may write. -/
theorem exec_ctrSample (hop : r.inst.opcode = 0xA2)
    (hrng : (begun s r).rngUp (jobAt s r).ctx (jobAt s r).w1.toNat 16 1 = none) {vi : BitVec 64 × BitVec 64}
    (hvi : vi = (((begun s r).ctx (jobAt s r).ctx).counters.lookD (bits (jobAt s r).w0.toNat 0 16) {}).sampleAt s.now.toNat) :
    exec (.ctrSample a) s = .next (ended ((passed (issuedAt s r) r { sample := vi }).poke (jobAt s r).w1.toNat
        (leBytes 8 vi.1.toNat ++ leBytes 8 vi.2.toNat)) a
      ((passed (issuedAt s r) r { sample := vi }).stored (jobAt s r).w1.toNat 16 { result := vi.1 })) := by
  have hnow : (issuedAt s r).now = s.now := State.now_of_other (issuedAt_other s r)
  have hbad : ctrSampleBad (jobAt s r) (issuedAt s r) = none :=
    firstBad_eq_none ⟨hrng, badIf_false (decide_eq_false (by omega))⟩
  have hcheck : ctrSampleChk (jobAt s r) (issuedAt s r) = .good { sample := vi } (issuedAt s r) := by
    unfold ctrSampleChk
    rw [hbad, hnow, hvi]
    rfl
  exact congrArg Host.Outcome.next (runHob_passed ctrSampleBody h hop hcheck (issuedAt_tracked h))

end

/-- Settles O30: the equation of each command; whether a counter runs no completion can be seen by (`Ctx.running_unseen`). -/
theorem countersServe : Obligations.CountersServe := by
  intro a r s h hlen j n hn
  have hok : St.ok ≠ St.skipped := by decide
  have hrec := begun_rec h.1
  refine ⟨fun hop hsel hring => ?_, fun hop => ?_, fun hop hrng => exec_ctrSample h hn hop hrng rfl⟩
  · have hsame : SameMemory s (ended ((begun s r).counterStarted j) a {}) := fun x =>
      (ended_sameMemory (s := (begun s r).counterStarted j) {} hrec rfl x).trans
        (congrArg (fun m : Mem => m.byte x) (begun_mem s r))
    refine ⟨_, _, exec_ctrStart h hn hop hsel hring, rfl, ?_⟩
    rw [State.counterStarted, State.ctx_setCtx_self, Tbl.lookD_put_self]
    exact ⟨rfl, rfl, rfl, rfl, hsame⟩
  · obtain ⟨hjrn, hring, hmem, hstopped⟩ := State.counterStopped_keeps (begun s r) j.ctx n a.ring
    obtain ⟨hholds, hsame⟩ := begun_done h hlen { result := (((begun s r).ctx j.ctx).counters.lookD n {}).value } rfl hok rfl
      hjrn (by rw [hring]) hmem
    exact ⟨_, exec_ctrStop h hn hop, hholds, ((Ctx.running_unseen j.ctx n).begun_ended _ h hjrn).trans hstopped, hsame⟩

/-! ### Remote keys -/

/-- R328: a key is never 0 and never one that the context has had. -/
theorem freshKey_spec (issued : List Nat) (free : BitVec 64) : freshKey issued free ≠ 0 ∧ freshKey issued free ∉ issued := by
  unfold freshKey
  dsimp only
  split
  · next h =>
    simp only [Bool.and_eq_true, bne_iff_ne, Bool.not_eq_true', List.contains_eq_mem, decide_eq_false_iff_not] at h
    exact h
  · obtain ⟨hlow, hfree⟩ := lowestFree_spec 1 (pairwise_foldl_insNat issued List.Pairwise.nil)
    rw [mem_foldl_insNat] at hfree
    exact ⟨by omega, fun hmem => hfree (Or.inl hmem)⟩

/-- R328: the registration that a KEY.REGISTER makes under number `i`, with key `k`. -/
def Job.newKey (j : Job) (k : Nat) (gen : BitVec 16) : Key :=
  { rkey := BitVec.ofNat 32 k, ctx := j.ctx, conn := if bitOf j.w2.toNat 15 then none else some (bits j.w2.toNat 0 15)
    base := j.w0.toNat, len := bits j.w1.toNat 0 48, read := bitOf j.w1.toNat 48, write := bitOf j.w1.toNat 49
    event := if bitOf j.w2.toNat 31 then some (bits j.w2.toNat 16 14) else none, gen := gen }

/-- R328: what KEY.REGISTER leaves where both dies have room for its entry. -/
theorem registerBody_registers {j : Job} {s : State} {aw ae : Nat} (hw : s.keySlot .west = some aw)
    (he : s.keySlot .east = some ae) (hroom : s.flu.keys.lowFree < 4096) :
    ∃ u gen, registerBody j s = .done { result := BitVec.ofNat 64 (freshKey (s.ctx j.ctx).issuedKeys (Config.freeWord s.fresh)) } u ∧
      u.jrn = s.jrn ∧ (∀ m, u.ring m = s.ring m) ∧ u.mem = s.mem ∧
      u.flu.keys = s.flu.keys.put s.flu.keys.lowFree (j.newKey (freshKey (s.ctx j.ctx).issuedKeys (Config.freeWord s.fresh)) gen) := by
  unfold registerBody
  dsimp only
  rw [hw, he]
  dsimp only
  rw [if_neg (by omega)]
  exact ⟨_, _, rfl, rfl, fun _ => rfl, rfl, rfl⟩

/-- R329: a key that the context holds and does not revoke is the registration of that number. -/
theorem State.keyOf_congr {s t : State} (h : t.flu = s.flu) (c k : Nat) : t.keyOf c k = s.keyOf c k := by
  unfold State.keyOf
  rw [h]

theorem exec_keyRevoke {a : At} {r : JRec} {s : State} {i : Nat} (h : Runs a r s) (hop : r.inst.opcode = 0xB1)
    (hkey : s.keyOf (jobAt s r).ctx (bits (jobAt s r).w0.toNat 0 32) = some i) :
    exec (.keyRevoke a) s = .next (waiting ((begun s r).startRevoke i) a (.revoke i)) := by
  have hchecks : revokeBad (jobAt s r) (issuedAt s r) = none := by
    refine badIf_false ?_
    rw [State.keyOf_congr (State.flu_of_other (issuedAt_other s r)), hkey]
    rfl
  have hkey' : (begun s r).keyOf (jobAt s r).ctx (bits (jobAt s r).w0.toNat 0 32) = some i := by
    rw [State.keyOf_congr (State.flu_of_other (begun_other s r)), hkey]
  refine congrArg Host.Outcome.next ((runHob_passes _ revokeBody h hop (checks_good hchecks)).trans ?_)
  unfold revokeBody
  rw [show (jobAt s r).prev = none from rfl]
  dsimp only
  rw [hkey']
  rfl

/-- Settles O31: `registerBody_registers` and `freshKey_spec` for a new key; `goOn_goesOn` for the end of its revoking. -/
theorem keysServe : Obligations.KeysServe := by
  have hok : St.ok ≠ St.skipped := by decide
  refine ⟨?_, fun a r s i h hop hkey => exec_keyRevoke h hop hkey,
    fun a r s i h hop hwait hlen huses hidle => ?_⟩
  · intro a r s aw ae h hop hlen j hrng hw he hroom
    have hflu : (begun s r).flu = s.flu := State.flu_of_other (begun_other s r)
    have hissued : ((begun s r).ctx j.ctx).issuedKeys = (s.ctx j.ctx).issuedKeys := Ctx.issuedKeys_of_still (begun_still s r _)
    obtain ⟨u, gen, hbody, hjrn, hring, hmem, hkeys⟩ := registerBody_registers (j := j) hw he (by rw [hflu]; exact hroom)
    rw [hflu, hissued] at hkeys
    rw [hissued] at hbody
    generalize Config.freeWord (begun s r).fresh = word at hbody hkeys
    obtain ⟨hzero, hnew⟩ := freshKey_spec (s.ctx j.ctx).issuedKeys word
    generalize freshKey (s.ctx j.ctx).issuedKeys word = k at hbody hkeys hzero hnew
    have hexec : exec (.keyRegister a) s = .next (ended u a { result := BitVec.ofNat 64 k }) := by
      refine congrArg Host.Outcome.next ((runHob_passes _ registerBody h hop (checks_good hrng)).trans ?_)
      exact congrArg (fun o => (settle a o).markFree) hbody
    obtain ⟨hholds, hsame⟩ := begun_done h hlen (t := u) { result := BitVec.ofNat 64 k } rfl hok rfl hjrn (by rw [hring]) hmem
    have hended : (ended u a { result := BitVec.ofNat 64 k }).flu.keys = _ :=
      (congrArg Flu.keys (State.flu_of_other (begun_ended_other _ h hjrn))).trans hkeys
    refine ⟨_, k, s.flu.keys.lowFree, j.newKey k gen, hexec, hholds, hzero, hnew, Tbl.look_lowFree _, ?_, rfl, rfl, rfl, rfl,
      rfl, rfl, rfl, rfl, fun i hi => ?_, hsame⟩
    · rw [hended, Tbl.look_put_self]
    · rw [hended, Tbl.look_put_ne _ _ hi]
  · have hrec : ({ s with flu := { s.flu with keys := s.flu.keys.del i } } : State).rec? a = some r := h.1
    have hexec : exec (.keyRevokeDone a) s = .next (ended { s with flu := { s.flu with keys := s.flu.keys.del i } } a {}) := by
      exact congrArg Host.Outcome.next (goOn_goesOn (body := revokeGo)
        (o := succeeds 0 { s with flu := { s.flu with keys := s.flu.keys.del i } }) h hop hwait (if_pos hidle))
    refine ⟨_, hexec, State.finish_holds hrec rfl hok rfl (by exact hlen ▸ r.dst_lt), ?_, ended_sameMemory {} hrec huses⟩
    rw [State.flu_of_other (State.other_unseen.ended {} hrec huses)]
    exact Tbl.look_del_self ..

end Machine
end Sys2Proof
end

section
/-! PROOFS. FLUE.SEND and FLUE.WAIT (R315, R316, R53). -/

namespace Sys2Proof
namespace Machine

theorem State.conn_congr {s t : State} (h : t.flu = s.flu) (n : Nat) : t.conn n = s.conn n := by
  unfold State.conn
  rw [h]

theorem begun_conn (s : State) (r : JRec) (n : Nat) : (begun s r).conn n = s.conn n :=
  State.conn_congr (State.flu_of_other (begun_other s r)) n

theorem begun_peek (s : State) (r : JRec) (p n : Nat) : (begun s r).peek p n = s.peek p n := by
  unfold State.peek
  rw [begun_mem]

/-- R312, R313: an open connection of the context passes, at the issue of an instruction. -/
theorem badConn_opened {s : State} {r : JRec} {c n d : Nat} (hctx : (s.conn n).ctx.toNat = c)
    (hopen : (s.conn n).state = .opened) : (issuedAt s r).badConn c n d = none := by
  unfold State.badConn
  rw [State.conn_congr (State.flu_of_other (issuedAt_other s r))]
  exact firstBad_eq_none ⟨badIf_false (by simp [hctx]), badIf_false (by simp [hopen])⟩

/-- R315: the message that a FLUE.SEND begins. -/
def State.sendMsg (s : State) (j : Job) : TxMsg :=
  { data := s.peek (bits j.w1.toNat 0 49) (bits j.w2.toNat 0 27), raddr := j.w0
    rkey := BitVec.ofNat 32 (bits j.w2.toNat 32 32), final := j.inst.x0 }

section
variable {a : At} {r : JRec} {s : State} (h : Runs a r s)
include h

/-- R315, R316: FLUE.SEND of a readable source on an open connection with room for a message. -/
theorem exec_flueSend (hop : r.inst.opcode = 0x80) (hone : 1 ≤ bits (jobAt s r).w2.toNat 0 27)
    (hmax : bits (jobAt s r).w2.toNat 0 27 ≤ 67108864)
    (hctx : (s.conn (bits (jobAt s r).w1.toNat 49 15)).ctx.toNat = (jobAt s r).ctx)
    (hopen : (s.conn (bits (jobAt s r).w1.toNat 49 15)).state = .opened)
    (hrng : (begun s r).rng (jobAt s r).ctx (bits (jobAt s r).w1.toNat 0 49) (bits (jobAt s r).w2.toNat 0 27) 1 1 = none)
    (hread : s.mem.readErr (bits (jobAt s r).w1.toNat 0 49) (bits (jobAt s r).w2.toNat 0 27) = none)
    (hroom : (s.conn (bits (jobAt s r).w1.toNat 49 15)).tx.length < 256) : exec (.flueSend a) s =
      .next (waiting ((begun s r).beginMsg (bits (jobAt s r).w1.toNat 49 15) (s.sendMsg (jobAt s r))).2 a
        (.sent (bits (jobAt s r).w1.toNat 49 15) (s.conn (bits (jobAt s r).w1.toNat 49 15)).txSeq.toNat)) := by
  have hchecks : sendBad (jobAt s r) (issuedAt s r) = none := by
    unfold sendBad
    dsimp only
    rw [if_neg (by omega)]
    exact firstBad_eq_none ⟨hrng, badConn_opened hctx hopen, badIf_false (decide_eq_false (by omega)),
      badIf_false (decide_eq_false (by omega))⟩
  have hbody : firstBad [badIf (((begun s r).conn (bits (jobAt s r).w1.toNat 49 15)).state != .opened) St.peerClosed 0,
      (begun s r).mem.readErr (bits (jobAt s r).w1.toNat 0 49) (bits (jobAt s r).w2.toNat 0 27)] = none := by
    rw [begun_conn, begun_mem]
    exact firstBad_eq_none ⟨badIf_false (by rw [hopen]; rfl), hread⟩
  have hmay : ((begun s r).conn (bits (jobAt s r).w1.toNat 49 15)).mayBegin = true := by
    rw [begun_conn]
    exact decide_eq_true hroom
  refine congrArg Host.Outcome.next ((runHob_passes _ sendBody h hop (checks_good hchecks)).trans ?_)
  unfold sendBody
  rw [show (jobAt s r).prev = none from rfl]
  dsimp only
  rw [hbody]
  dsimp only
  rw [if_pos hmay, begun_peek, ← begun_conn s r]
  rfl

/-- R316, R53: FLUE.WAIT of an open connection. -/
theorem exec_flueWait (hop : r.inst.opcode = 0x81)
    (hctx : (s.conn (bits (jobAt s r).w0.toNat 0 15)).ctx.toNat = (jobAt s r).ctx)
    (hopen : (s.conn (bits (jobAt s r).w0.toNat 0 15)).state = .opened) {v : BitVec 64}
    (hv : v = (s.conn (bits (jobAt s r).w0.toNat 0 15)).rxDone.setWidth 64) : exec (.flueWait a) s =
      .next (if (jobAt s r).w1 ≤ v then ended (begun s r) a { result := v }
        else waiting (begun s r) a (.inbound (bits (jobAt s r).w0.toNat 0 15) (jobAt s r).w1
          (if (jobAt s r).w2 = 0 then none else some (s.now.toNat + (jobAt s r).w2.toNat)))) := by
  refine congrArg Host.Outcome.next ((runHob_passes _ inboundBody h hop (checks_good (badConn_opened hctx hopen))).trans ?_)
  have hprev : (jobAt s r).prev = none := rfl
  have hnow : (begun s r).now = s.now := State.now_of_other (begun_other s r)
  unfold inboundBody
  dsimp only
  rw [begun_conn, hopen, ← hv, hprev, hnow, if_neg (by simp)]
  dsimp only
  split <;> rfl

end

/-- R53: a FLUE.WAIT past its timeout. -/
theorem exec_flueWaitTimeout {a : At} {r : JRec} {s : State} {n d : Nat} {th : BitVec 64} (hrec : s.rec? a = some r)
    (hwait : r.wait = some (.inbound n th (some d))) (hstate : r.state = .issued) (hdue : d ≤ s.now.toNat)
    (hruns : s.running = true) : exec (.flueWaitTimeout a) s = .next (ended s a { status := St.timeout }) := by
  refine congrArg Host.Outcome.next ?_
  unfold State.inboundTimeout
  rw [hrec]
  dsimp only
  rw [hwait]
  dsimp only
  rw [if_pos (by simp [hstate, hdue, hruns])]
  rfl

/-- Settles O32: the equation of each command, and what a completion leaves. -/
theorem flueSendsAndWaits : Obligations.FlueSendsAndWaits := by
  have hok : St.ok ≠ St.skipped := by decide
  have htimeout : St.timeout ≠ St.skipped := by decide
  refine ⟨fun a r s h hop => ?_, fun a r s h hop => ?_, fun a r s n d th hrec hwait hstate hdue hruns hlen => ?_⟩
  · intro j n src len hone hmax hctx hopen hrng hread hroom m
    refine ⟨?_, exec_flueSend h hop hone hmax hctx hopen hrng hread hroom⟩
    rw [← begun_conn s r]
    rfl
  · intro j n v hctx hopen
    have hexec := exec_flueWait h hop hctx hopen (v := v) rfl
    refine ⟨fun hreached hlen => ?_, fun hbelow => hexec.trans (by rw [if_neg hbelow])⟩
    obtain ⟨hholds, hsame⟩ := begun_done h hlen (t := begun s r) { result := v } rfl hok rfl rfl rfl rfl
    exact ⟨_, hexec.trans (by rw [if_pos hreached]), hholds, hsame⟩
  · exact ⟨_, exec_flueWaitTimeout hrec hwait hstate hdue hruns,
      State.finish_holds hrec rfl htimeout rfl (by exact hlen ▸ r.dst_lt)⟩

end Machine
end Sys2Proof
end

section
/-! PROOFS. What the operations on pages, frames and rows leave of the part: all but pages, memory, contexts' counts, the
blocks DRT, DOM, COAL and TEL, and the random number generator that salts records. -/

namespace Sys2Proof
namespace Machine

/-- R230: the residency block without frames, lists of pages and what is requested of them. -/
def Drt.unpaged (d : Drt) : Drt :=
  { d with
    frames := ⟨[], []⟩, held := ⟨[], []⟩, mirrorDue := ⟨false, false⟩, sweepWaits := [], victims := ⟨{}, {}⟩, reqs := ⟨[], []⟩
    hostWaits := [], coalRo := false, pinOver := ⟨false, false⟩, urgent := ⟨false, false⟩, reclaiming := ⟨false, false⟩ }

/-- R101, R120, R121: the DOM block without the rows, the catalogue and what the Domino unit holds of them. -/
def Dom.unpaged (d : Dom) : Dom := { d with table := [], catalogue := [], entries := [], hand := ⟨0, 0⟩ }

/-- R189: the memory without the bytes above context space and what goes with bytes line by line. -/
def Mem.unpaged (m : Mem) : Mem :=
  { m with
    cells := m.cells.filter (fun c => decide (c.1 < ctxSpaceEnd)), poison := [], badMac := [], uncorrectable := [], minor := [], major := [] }

theorem le_viewBase (h : Nat) : ctxSpaceEnd ≤ viewBase h := by
  unfold viewBase
  omega

/-- R193: what a page's view loses lies above context space. -/
theorem State.clearView_unpaged (s : State) (h : Nat) : (s.clearView h).mem.unpaged = s.mem.unpaged := by
  have hcells : (s.clearView h).mem.cells.filter (fun c => decide (c.1 < ctxSpaceEnd)) =
      s.mem.cells.filter (fun c => decide (c.1 < ctxSpaceEnd)) := by
    refine List.filter_filter.trans (List.filter_congr fun c _ => ?_)
    have hview := le_viewBase h
    by_cases hc : c.1 < ctxSpaceEnd
    · simp [hc, show ¬viewBase h ≤ c.1 by omega]
    · simp [hc]
  unfold Mem.unpaged
  rw [hcells]
  rfl

/-- R189: a byte below a bound is read from the cells below it. -/
theorem cellAt_filter {n x : Nat} (hx : x < n) : ∀ {l : List Host.Cell}, cellAt (l.filter fun c => decide (c.1 < n)) x = cellAt l x
  | [] => rfl
  | (k, v) :: r => by
    by_cases hk : k < n
    · rw [List.filter_cons_of_pos (by simpa using hk), cellAt, cellAt, cellAt_filter hx]
    · rw [List.filter_cons_of_neg (by simpa using hk), cellAt_filter hx, cellAt, if_neg (by omega)]

/-- The part without what a page that is dropped or requested may touch. -/
def State.unpaged (s : State) : State :=
  { s with
    pages := [], drt := s.drt.unpaged, tel := {}, mem := s.mem.unpaged, dom := s.dom.unpaged, coal := {}, ctxs := []
    sec := { s.sec with drbg := 0 } }

/-- R78, R455: a context without what it is charged and what its counters count. -/
def Ctx.uncharged (x : Ctx) : Ctx := { x with charged := 0, counters := [] }

/-- Every context is as before but for its charge and its counters. -/
def Charged (s t : State) : Prop := ∀ c, (t.ctx c).uncharged = (s.ctx c).uncharged

/-- `t` is `s` but for pages and what goes with them. -/
def PagesOnly (s t : State) : Prop := t.unpaged = s.unpaged ∧ Charged s t

/-- A context replaced by one that differs in its charge and its counters. -/
theorem Charged.setCtx {s0 s : State} (h : Charged s0 s) {c : Nat} {x : Ctx} (hx : x.uncharged = (s.ctx c).uncharged) :
    Charged s0 (s.setCtx c x) := by
  intro c'
  by_cases hc : c' = c
  · subst hc
    rw [State.ctx_setCtx_self, hx]
    exact h c'
  · rw [State.ctx_setCtx_ne _ _ hc]
    exact h c'

namespace PagesOnly
variable {s0 s t : State}

section
variable (h : PagesOnly s t)
include h

theorem wins : t.wins = s.wins := (congrArg State.wins h.1 :)
theorem jrn : t.jrn = s.jrn := (congrArg State.jrn h.1 :)
theorem rings : t.rings = s.rings := (congrArg State.rings h.1 :)
theorem seqs : t.seqs = s.seqs := (congrArg State.seqs h.1 :)
theorem flu : t.flu = s.flu := (congrArg State.flu h.1 :)
theorem wobjs : t.wobjs = s.wobjs := (congrArg State.wobjs h.1 :)
theorem gbl : t.gbl = s.gbl := (congrArg State.gbl h.1 :)
theorem profiles : t.profiles = s.profiles := (congrArg State.profiles h.1 :)
theorem now : t.now = s.now := (congrArg State.now h.1 :)
theorem drt : t.drt.unpaged = s.drt.unpaged := (congrArg State.drt h.1 :)
theorem dom : t.dom.unpaged = s.dom.unpaged := (congrArg State.dom h.1 :)
theorem unpagedMem : t.mem.unpaged = s.mem.unpaged := (congrArg State.mem h.1 :)
theorem charged : Charged s t := h.2

/-- R189: context space reads as before. -/
theorem sameContextSpace : SameContextSpace s t := by
  have hcells : t.mem.cells.filter (fun c => decide (c.1 < ctxSpaceEnd)) = s.mem.cells.filter (fun c => decide (c.1 < ctxSpaceEnd)) :=
    (congrArg Mem.cells h.unpagedMem :)
  intro x hx
  unfold Mem.byte
  rw [← cellAt_filter hx, hcells, cellAt_filter hx]

end

theorem refl (s : State) : PagesOnly s s := ⟨rfl, fun _ => rfl⟩

theorem trans (h : PagesOnly s0 s) (h' : PagesOnly s t) : PagesOnly s0 t :=
  ⟨h'.1.trans h.1, fun c => (h'.2 c).trans (h.2 c)⟩

theorem but {pages drt tel mem dom coal} (h : PagesOnly s0 s) (hd : drt.unpaged = s.drt.unpaged := by rfl)
    (hm : mem.unpaged = s.mem.unpaged := by rfl) (hrows : dom.unpaged = s.dom.unpaged := by rfl) : PagesOnly s0
    ⟨s.pending, s.fresh, s.now, s.resp, s.gbl, s.jrn, s.rings, s.ctxs, s.profiles, s.images, s.seqs, pages, dom, s.eng,
      s.fbxCtl, drt, s.wobjs, s.wins, coal, s.cxp, s.flu, s.dmp, s.chk, s.sec, tel, s.pkg, mem⟩ := by
  refine ⟨Eq.trans ?_ h.1, h.2⟩
  unfold State.unpaged
  dsimp only
  rw [hd, hm, hrows]

theorem ite {c : Prop} [Decidable c] {a b : State} (ha : PagesOnly s0 a) (hb : PagesOnly s0 b) :
    PagesOnly s0 (if c then a else b) := by
  split
  · exact ha
  · exact hb

theorem foldl {β : Type} {f : State → β → State} {l : List β} (h : PagesOnly s0 s)
    (hf : ∀ t x, PagesOnly s0 t → PagesOnly s0 (f t x)) : PagesOnly s0 (l.foldl f s) := by
  induction l generalizing s with
  | nil => exact h
  | cons x xs ih => exact ih (hf s x h)

variable (hs : PagesOnly s0 s)
include hs

theorem setPage {h p} : PagesOnly s0 (s.setPage h p) := hs
theorem updPage {h f} : PagesOnly s0 (s.updPage h f) := hs
theorem clearView {h} : PagesOnly s0 (s.clearView h) := hs.but rfl (s.clearView_unpaged h)
theorem dropReqs {h} : PagesOnly s0 (s.dropReqs h) := hs
theorem relist {h} : PagesOnly s0 (s.relist h) := hs
theorem healed {h} : PagesOnly s0 (s.healed h) := hs
theorem unchargeCtx {c n} : PagesOnly s0 (s.unchargeCtx c n) := ⟨hs.1, hs.2.setCtx rfl⟩
theorem setHalf {d x} : PagesOnly s0 (s.setHalf d x) := hs
theorem domForget {i} : PagesOnly s0 (s.domForget i) := hs

theorem count {o n} : PagesOnly s0 (s.count o n) := .ite hs hs

theorem trace {d r} : PagesOnly s0 (s.trace d r) := by
  unfold State.trace
  exact .ite hs hs

theorem ctxEvent {c ev cls ring layer opid n} : PagesOnly s0 (s.ctxEvent c ev cls ring layer opid n) := by
  unfold State.ctxEvent
  exact .ite ⟨hs.1, hs.2.setCtx rfl⟩ hs

/-! ### Frames and the copy in the Coal store -/

theorem mirrorFreed {d k} : PagesOnly s0 (s.mirrorFreed d k) := by
  unfold State.mirrorFreed
  refine .ite hs ?_
  split <;> exact hs

theorem freeFrame {d f} : PagesOnly s0 (s.freeFrame d f) := by
  unfold State.freeFrame
  split
  · exact mirrorFreed (s := s.unframe _ _) hs
  · exact hs

theorem yieldFrame {h f} : PagesOnly s0 (s.yieldFrame h f) := by
  unfold State.yieldFrame
  split
  · exact hs
  · exact hs.freeFrame
  · exact .but hs

theorem newHalf {d x} : PagesOnly s0 (s.newHalf d x) := by
  unfold State.newHalf
  exact .ite hs.setHalf hs.setHalf.count

theorem fullCheck {d} : PagesOnly s0 (s.fullCheck d) := by
  unfold State.fullCheck
  exact .ite hs hs

theorem setFull {d} : PagesOnly s0 (s.setFull d) := by
  unfold State.setFull
  exact .ite hs hs

theorem coalRelease {d k} : PagesOnly s0 (s.coalRelease d k) := by
  unfold State.coalRelease
  exact hs.newHalf.fullCheck

theorem releaseCopy {h} : PagesOnly s0 (s.releaseCopy h) := hs.coalRelease.updPage

theorem trimSpan {h} : PagesOnly s0 (s.trimSpan h) := by
  unfold State.trimSpan
  exact .ite hs hs

/-! ### References -/

theorem freeNow {h} : PagesOnly s0 (s.freeNow h) := by
  unfold State.freeNow
  dsimp only
  exact .trimSpan (.but (.clearView (.dropReqs
    (.ite hs.freeFrame.freeFrame.releaseCopy.unchargeCtx hs.freeFrame.freeFrame.releaseCopy))))

theorem freePage {h} : PagesOnly s0 (s.freePage h) := by
  unfold State.freePage
  dsimp only
  exact .ite (.but hs.yieldFrame.yieldFrame.updPage) hs.freeNow

theorem releaseRef {h} : PagesOnly s0 (s.releaseRef h) := by
  unfold State.releaseRef
  exact .ite hs.freePage hs

theorem releaseRefs {hs' : List Nat} :
    PagesOnly s0 (hs'.foldl (fun s h => if s.pages.has h then s.releaseRef h else s) s) :=
  .foldl hs fun _ _ hk => .ite hk.releaseRef hk

/-! ### Rows withdrawn -/

theorem salted {es} : PagesOnly s0 (s.salted es).2 := by
  induction es with
  | nil => exact hs
  | cons e es ih =>
    unfold State.salted at ih ⊢
    rw [List.foldr_cons]
    dsimp only
    split <;> exact ih

theorem coalStore {d copies es t} (h : s.coalStore d copies es = some t) : PagesOnly s0 t := by
  obtain ⟨x, -, rfl⟩ := Option.map_eq_some_iff.mp h
  exact hs.salted.newHalf

theorem coalWrite {d es b t} (h : s.coalWrite d es = (b, t)) : PagesOnly s0 t := by
  unfold State.coalWrite at h
  split at h
  · split at h
    · next hstore => cases h; exact hs.coalStore hstore
    · cases h; exact hs
  · cases h; exact .ite hs.setFull hs

theorem withdrawRecord {c} : PagesOnly s0 (s.withdrawRecord c) := by
  unfold State.withdrawRecord
  dsimp only
  split
  · next heq =>
    have hwrite := hs.coalWrite heq
    exact hwrite
  · next heq => exact .but (hs.coalWrite heq).coalRelease

theorem uncatalogue {e} : PagesOnly s0 (s.uncatalogue e) := by
  unfold State.uncatalogue
  split
  · exact hs.withdrawRecord
  · exact hs

theorem withdrawRow {i} : PagesOnly s0 (s.withdrawRow i) := by
  unfold State.withdrawRow
  split
  · exact hs
  · next e _ =>
    have hrow := uncatalogue (e := e) (domForget (i := i) (foldl (l := e.row.handles)
      (f := fun s h => if s.pages.has h then s.updPage h (fun p => { p with scope := none }) else s) hs
      fun _ _ hk => .ite hk.updPage hk))
    refine .ite hs ?_
    dsimp only
    generalize State.uncatalogue _ e = u at hrow ⊢
    have hrefs : ∀ x : Tbl PfxEntry, PagesOnly s0 (e.row.handles.foldl (fun s h => if s.pages.has h then s.releaseRef h else s)
        { u with dom := { u.dom with table := x } }) := fun x => .releaseRefs (.but hrow)
    cases e.row.frame with
    | none => exact .ite (hrefs _) (hrefs _).unchargeCtx
    | some f => exact .ite (hrefs _).freeFrame (hrefs _).freeFrame.unchargeCtx

/-! ### Pages dropped and requested -/

/-- R22: a page that is dropped, which no window fails for. -/
theorem dropPage {h} : PagesOnly s0 (s.dropPage h) := by
  have hlost : ∀ {t : State} {p}, PagesOnly s0 t → PagesOnly s0 (if false then t.winFailAll p else t) := fun h => h
  unfold State.dropPage State.losePage
  refine .ite hs (.releaseRef ?_)
  dsimp only
  split
  · refine hlost (.but (.dropReqs (.releaseCopy ?_)))
    split
    · exact .ite hs.trace.setPage.withdrawRow.yieldFrame.yieldFrame.updPage
        hs.trace.setPage.withdrawRow.yieldFrame.yieldFrame.updPage.clearView
    · exact .ite hs.trace.setPage.yieldFrame.yieldFrame.updPage hs.trace.setPage.yieldFrame.yieldFrame.updPage.clearView
  · refine .but (.dropReqs (.releaseCopy ?_))
    split
    · exact .ite hs.trace.setPage.withdrawRow.yieldFrame.yieldFrame.updPage
        hs.trace.setPage.withdrawRow.yieldFrame.yieldFrame.updPage.clearView
    · exact .ite hs.trace.setPage.yieldFrame.yieldFrame.updPage hs.trace.setPage.yieldFrame.yieldFrame.updPage.clearView

theorem stackTreat {h} : PagesOnly s0 (s.stackTreat h) := by
  have hheal : ∀ {c : Prop} [Decidable c], PagesOnly s0 (if c then s.healed h else s) := .ite hs.healed hs
  unfold State.stackTreat
  dsimp only
  exact .ite hheal (.ite hheal.setPage.freeFrame (.ite hheal.setPage.freeFrame
    (.ite hheal.setPage.freeFrame.relist hheal.dropPage)))

theorem hold {h} : PagesOnly s0 (s.hold h) := by
  unfold State.hold
  exact .updPage (.ite hs.ctxEvent hs)

/-- R206: a page that is requested. -/
theorem request {h cls dist prio} : PagesOnly s0 (s.request h cls dist prio) := by
  unfold State.request
  refine .ite hs.stackTreat (.ite (.ite hs.stackTreat.hold hs.stackTreat) ?_)
  split
  · exact .but hs.stackTreat
  · exact .ite hs.stackTreat.count hs.stackTreat

end PagesOnly

end Machine
end Sys2Proof
end

section
/-! PROOFS. Weight windows (R223-R227). -/

namespace Sys2Proof
namespace Machine

/-! ### What a window's staging leaves -/

/-- R225: the staging of a window's next layers. -/
theorem PagesOnly.winStage {s0 s : State} (hs : PagesOnly s0 s) (w : Win) : PagesOnly s0 (s.winStage w) :=
  .foldl hs fun _ _ hk => .foldl hk fun _ _ hk => hk.request

theorem PagesOnly.stackTreats {s0 s : State} (hs : PagesOnly s0 s) (l : List Nat) :
    PagesOnly s0 (l.foldl State.stackTreat s) := .foldl hs fun _ _ hk => hk.stackTreat

theorem State.wobj_congr {s t : State} (h : t.wobjs = s.wobjs) (k : Nat) : t.wobj k = s.wobj k := by
  unfold State.wobj
  rw [h]

theorem State.winLayer_congr {s t : State} (h : t.wobjs = s.wobjs) (w : Win) (n : Nat) : t.winLayer w n = s.winLayer w n := by
  unfold State.winLayer
  rw [State.wobj_congr h]

theorem State.checkObj_congr {s t : State} (h : t.wobjs = s.wobjs) (c : Nat) (w : BitVec 64) (off : Nat) :
    t.checkObj c w off = s.checkObj c w off := by
  unfold State.checkObj
  simp only [State.wobj_congr h]

/-! ### The checks -/

theorem noWeights_held {s : State} {r : JRec} {c : Nat} (hright : (s.ctx c).rights.getLsbD 4 = true) :
    (issuedAt s r).noWeights c = none := by
  refine badIf_false ?_
  rw [Ctx.rights_of_still (issuedAt_still s r c), hright]
  rfl

/-- R223: a window of the context passes, at the issue of an instruction. -/
theorem badWin_held {s : State} {r : JRec} {c : Nat} {w0 : BitVec 64} {w : Win} (hwin : s.wins.look w0.toNat = some w)
    (hctx : w.ctx = c) (hright : (s.ctx c).rights.getLsbD 4 = true) : (issuedAt s r).badWin c w0 = none := by
  unfold State.badWin
  rw [State.wins_of_other (issuedAt_other s r), hwin]
  exact firstBad_eq_none ⟨noWeights_held hright, badIf_false (by simp [hctx])⟩

theorem begun_wins (s : State) (r : JRec) : (begun s r).wins = s.wins := State.wins_of_other (begun_other s r)

theorem begun_lookD_win {s : State} {r : JRec} {i : Nat} {w : Win} (hwin : s.wins.look i = some w) :
    (begun s r).wins.lookD i {} = w := by
  rw [begun_wins, Tbl.lookD, hwin]
  rfl

def State.withWins (s : State) (x : Tbl Win) : State := { s with wins := x }

theorem withWins_mem (s : State) (x : Tbl Win) : (s.withWins x).mem = s.mem := rfl

theorem waiting_mem (s : State) (a : At) (w : Wait) : (waiting s a w).mem = s.mem := rfl

/-- R223: the window that a WIN.OPEN opens. -/
def Job.newWin (j : Job) : Win :=
  { obj := objKey j.w0, ctx := j.ctx, conn := bits j.w1.toNat 0 15, depth := bits j.w1.toNat 16 8, base := j.w2
    first := if j.allLayers then 0 else j.layer.toNat }

/-- R223, R225: the window stands and its first layers are requested. -/
def State.winOpened (s : State) (j : Job) : State :=
  (s.withWins (s.wins.put s.wins.lowFree j.newWin)).winStage j.newWin

/-- R226: `n` layers more are released. -/
def Win.release (w : Win) (n : Nat) : Win := { w with released := w.released + n }

/-! ### The commands -/

section
variable {a : At} {r : JRec} {s : State} (h : Runs a r s)
include h

/-- R223: WIN.OPEN whose checks pass. -/
theorem exec_winOpen (hop : r.inst.opcode = 0x60) {k : Nat} (hk : k = objKey (jobAt s r).w0)
    (hobj : s.checkObj (s.wobj k).ctx (jobAt s r).w0 8 = .ok k)
    (hready : (s.wobj k).ready = true) (hkeyed : (s.wobj k).keyed = true)
    (hright : (s.ctx (jobAt s r).ctx).rights.getLsbD 4 = true) (hctx : (s.wobj k).ctx = (jobAt s r).ctx)
    (hconn : (s.conn (bits (jobAt s r).w1.toNat 0 15)).ctx.toNat = (jobAt s r).ctx)
    (hsealed : (s.conn (bits (jobAt s r).w1.toNat 0 15)).sealed = true) (hlow : 1 ≤ bits (jobAt s r).w1.toNat 16 8)
    (hhigh : bits (jobAt s r).w1.toNat 16 8 ≤ 16)
    (hlayer : (if (jobAt s r).allLayers then 0 else (jobAt s r).layer.toNat) < (s.wobj k).lengths.length)
    (halign : (jobAt s r).w2.toNat % 64 = 0) (hroom : s.wins.length < 256) : exec (.winOpen a) s =
      .next (ended ((begun s r).winOpened (jobAt s r)) a { result := BitVec.ofNat 64 s.wins.lowFree }) := by
  subst hk
  have hother := issuedAt_other s r
  have hchecks : openBad (jobAt s r) (issuedAt s r) = none := by
    unfold openBad
    dsimp only
    rw [State.checkObj_congr (State.wobjs_of_other hother), State.wobj_congr (State.wobjs_of_other hother), hobj,
      State.conn_congr (State.flu_of_other hother), State.wins_of_other hother]
    refine firstBad_eq_none ⟨noWeights_held hright, rfl, badIf_false ?_, badIf_false ?_, badIf_false ?_, badIf_false ?_,
      badIf_false (decide_eq_false (Nat.not_le.mpr hlayer)), badIf_false ?_, badIf_false (decide_eq_false (Nat.not_le.mpr hroom))⟩
    · rw [hready, hkeyed]; rfl
    · simp [hctx]
    · simp [hconn, hsealed]
    · simp only [Bool.or_eq_false_iff, decide_eq_false_iff_not]; omega
    · simp [halign]
  refine congrArg Host.Outcome.next ((runHob_passes _ openBody h hop (checks_good hchecks)).trans ?_)
  rw [← begun_wins s r]
  rfl

/-- R226: WIN.ADVANCE of an open window by no more layers than are acknowledged. -/
theorem exec_winAdvance (hop : r.inst.opcode = 0x61) {w : Win} (hwin : s.wins.look (jobAt s r).w0.toNat = some w)
    (hctx : w.ctx = (jobAt s r).ctx) (hright : (s.ctx (jobAt s r).ctx).rights.getLsbD 4 = true)
    (hself : w.selfClosed = false) (hclosing : w.closing = false)
    (hcount : bits (jobAt s r).w1.toNat 0 16 ≤ w.acked - w.released) : exec (.winAdvance a) s =
      .next (ended ((begun s r).withWins (s.wins.put (jobAt s r).w0.toNat (w.release (bits (jobAt s r).w1.toNat 0 16)))) a
        { result := BitVec.ofNat 64 (s.winLayer w w.begun) }) := by
  have hlook : (issuedAt s r).wins.lookD (jobAt s r).w0.toNat {} = w := begun_lookD_win hwin
  have hchecks : advanceBad (jobAt s r) (issuedAt s r) = none := by
    unfold advanceBad
    dsimp only
    rw [hlook]
    exact firstBad_eq_none ⟨badWin_held hwin hctx hright, badIf_false (by simp [hself, hclosing, Nat.not_lt.mpr hcount])⟩
  refine congrArg Host.Outcome.next ((runHob_passes _ advanceBody h hop (checks_good hchecks)).trans ?_)
  unfold advanceBody
  dsimp only
  rw [begun_lookD_win hwin, State.winLayer_congr (State.wobjs_of_other (begun_other s r)), begun_wins]
  rfl

/-- R227: WIN.CLOSE, of a window that has closed by itself, of one with nothing to be acknowledged, of any other. -/
theorem exec_winClose (hop : r.inst.opcode = 0x62) {w : Win} (hwin : s.wins.look (jobAt s r).w0.toNat = some w)
    (hctx : w.ctx = (jobAt s r).ctx) (hright : (s.ctx (jobAt s r).ctx).rights.getLsbD 4 = true) : exec (.winClose a) s =
      .next (if w.selfClosed then
          ended ((begun s r).withWins (s.wins.del (jobAt s r).w0.toNat)) a { status := St.window }
        else if w.msgs.isEmpty then ended ((begun s r).withWins (s.wins.del (jobAt s r).w0.toNat)) a {}
        else waiting ((begun s r).withWins (s.wins.put (jobAt s r).w0.toNat { w with closing := true })) a
          (.winClose (jobAt s r).w0.toNat)) := by
  refine congrArg Host.Outcome.next ((runHob_passes _ closeBody h hop (checks_good (badWin_held hwin hctx hright))).trans ?_)
  have hprev : (jobAt s r).prev = none := rfl
  unfold closeBody
  dsimp only
  rw [hprev]
  dsimp only
  rw [begun_lookD_win hwin, begun_wins]
  split
  · rfl
  · split <;> rfl

/-- R223: no completion is seen by the windows. -/
theorem ended_withWins (x : Tbl Win) (d : Done) : (ended ((begun s r).withWins x) a d).wins = x :=
  State.wins_of_other (begun_ended_other (t := (begun s r).withWins x) d h rfl)

end

/-- R224: a window's next layer whose chunks are resident is sent. -/
theorem exec_winLayerSend {i : Nat} {w : Win} {s s1 : State}
    (hs1 : s1 = (s.chunks w.obj (s.winLayer w w.begun)).foldl State.stackTreat s) (hwin : s.wins.look i = some w)
    (hself : w.selfClosed = false) (hclosing : w.closing = false) (hopen : (s.conn w.conn).state = .opened)
    (hsealed : (s.conn w.conn).sealed = true) (hdepth : w.begun - w.released < w.depth) (hlive : (s.wobj w.obj).live = true)
    (hroom : (s.conn w.conn).tx.length + (layerMsgs ((s.wobj w.obj).lengths.getD (s.winLayer w w.begun) 0)).length ≤ 256)
    (hruns : s1.running = true)
    (hres : ∀ h, h ∈ s.chunks w.obj (s.winLayer w w.begun) → (s1.page h).resident = true ∧ (s1.page h).life ≠ .lost) :
    exec (.winLayerSend i) s = .next (s1.winSend i w) := by
  have hpages : PagesOnly s s1 := hs1 ▸ (PagesOnly.refl s).stackTreats _
  have hlayer : s1.winLayer w w.begun = s.winLayer w w.begun := State.winLayer_congr hpages.wobjs w w.begun
  refine congrArg Host.Outcome.next ?_
  unfold State.winStep
  rw [hwin]
  dsimp only
  rw [← hs1, hlayer]
  generalize layerMsgs ((s.wobj w.obj).lengths.getD (s.winLayer w w.begun) 0) = ms at hroom ⊢
  have hlost : (s.chunks w.obj (s.winLayer w w.begun)).any (fun h => (s1.page h).life == .lost) = false := by
    simp only [List.any_eq_false, beq_iff_eq]
    exact fun h hm => (hres h hm).2
  have hall : (s.chunks w.obj (s.winLayer w w.begun)).all (fun h => (s1.page h).resident) = true :=
    List.all_eq_true.mpr fun h hm => (hres h hm).1
  rw [if_neg, if_neg (by rw [hlost]; simp), if_pos hall]
  simp [hself, hclosing, hopen, hsealed, hlive, hruns, Nat.not_le.mpr hdepth, Nat.not_lt.mpr hroom]

/-- Settles O27: the equation of each command; a window's staging touches neither windows, records nor rings
(`PagesOnly.winStage`). -/
theorem windowsServed : Obligations.WindowsServed := by
  have hok : St.ok ≠ St.skipped := by decide
  have hwindow : St.window ≠ St.skipped := by decide
  refine ⟨fun a r s h hop hlen => ?_, fun a r s w h hwin hctx hright => ⟨?_, fun hop hlen => ?_⟩, ?_⟩
  · intro j k n l0 hobj hready hkeyed hright hctx hconn hsealed hlow hhigh hlayer halign hroom
    have hpages : PagesOnly ((begun s r).withWins ((begun s r).wins.put (begun s r).wins.lowFree j.newWin))
        ((begun s r).winOpened j) := (PagesOnly.refl _).winStage _
    have hjrn : ((begun s r).winOpened j).jrn = (begun s r).jrn := hpages.jrn
    have hring : ((begun s r).winOpened j).ring a.ring = (begun s r).ring a.ring :=
      congrArg (fun g : Tbl Ring => g.lookD a.ring {}) hpages.rings
    have hrec := begun_rec h.1
    rw [← State.rec?_congr hjrn a] at hrec
    have hlt := begun_dst_lt h hlen
    rw [← hring] at hlt
    have hholds := State.finish_holds hrec (d := { result := BitVec.ofNat 64 s.wins.lowFree }) rfl hok rfl hlt
    refine ⟨_, s.wins.lowFree, exec_winOpen h hop rfl hobj hready hkeyed hright hctx hconn hsealed hlow hhigh hlayer halign hroom,
      ?_, hholds, ?_⟩
    · cases hhas : s.wins.has s.wins.lowFree with
      | false => rfl
      | true =>
        obtain ⟨x, hx⟩ := (Tbl.has_iff ..).mp hhas
        rw [Tbl.look_lowFree] at hx
        cases hx
    · rw [State.wins_of_other (begun_ended_other _ h hjrn), hpages.wins]
      show ((begun s r).wins.put _ _).look _ = _
      rw [begun_wins, Tbl.look_put_self]
      rfl
  · intro hop hlen hself hclosing hcount
    obtain ⟨hholds, hsame⟩ := begun_done h hlen (t := (begun s r).withWins (s.wins.put (jobAt s r).w0.toNat
      (w.release (bits (jobAt s r).w1.toNat 0 16))))
      { result := BitVec.ofNat 64 (s.winLayer w w.begun) } rfl hok rfl rfl rfl rfl
    refine ⟨_, exec_winAdvance h hop hwin hctx hright hself hclosing hcount, hholds, ?_, hsame⟩
    rw [ended_withWins h]
    exact Tbl.look_put_self ..
  · have hexec := exec_winClose h hop hwin hctx hright
    have hgone : ∀ d, (ended ((begun s r).withWins (s.wins.del (jobAt s r).w0.toNat)) a d).wins.has (jobAt s r).w0.toNat = false := by
      intro d
      rw [ended_withWins h, Tbl.has, Tbl.look_del_self]
      rfl
    refine ⟨fun hself hmsgs => ?_, fun hself hmsgs => ?_, fun hself => ?_⟩
    · obtain ⟨hholds, hsame⟩ := begun_done h hlen (t := (begun s r).withWins (s.wins.del (jobAt s r).w0.toNat))
        {} rfl hok rfl rfl rfl rfl
      exact ⟨_, hexec.trans (congrArg Host.Outcome.next ((if_neg (by simp [hself])).trans (if_pos (by simp [hmsgs])))), hholds, hgone _, hsame⟩
    · refine ⟨_, hexec.trans (congrArg Host.Outcome.next ((if_neg (by simp [hself])).trans (if_neg (by simp [hmsgs])))), Tbl.look_put_self .., ?_⟩
      exact SameMemory.of_cells (by rw [waiting_mem, withWins_mem, begun_mem])
    · obtain ⟨hholds, hsame⟩ := begun_done h hlen (t := (begun s r).withWins (s.wins.del (jobAt s r).w0.toNat))
        { status := St.window } rfl hwindow rfl rfl rfl rfl
      exact ⟨_, hexec.trans (congrArg Host.Outcome.next (if_pos hself)), hholds, hgone _, hsame⟩
  · intro i w s hwin hself hclosing hopen hsealed hdepth hlive hroom hs s1 hruns hres
    exact exec_winLayerSend rfl hwin hself hclosing hopen hsealed hdepth hlive hroom hruns hres

end Machine
end Sys2Proof
end

section
/-! PROOFS. The operations of the pool ALUs (R287-R289). -/

namespace Sys2Proof
namespace Machine

/-! ### The pattern of POOL.FILL -/

theorem length_flatMap_const (l : List Byte) (n : Nat) : ((List.range n).flatMap fun _ => l).length = n * l.length := by
  induction n with
  | zero => exact (Nat.zero_mul _).symm
  | succ n ih =>
    rw [List.range_succ, List.flatMap_append, List.length_append, ih, List.flatMap_cons, List.flatMap_nil, List.append_nil,
      Nat.succ_mul]

/-- A list repeated holds at each place what the list holds there, counted modulo its length. -/
theorem getD_flatMap_const (l : List Byte) (n i : Nat) (h : i < n * l.length) :
    ((List.range n).flatMap fun _ => l).getD i 0 = l.getD (i % l.length) 0 := by
  induction n with
  | zero => omega
  | succ n ih =>
    have hlen := length_flatMap_const l n
    rw [List.range_succ, List.flatMap_append, List.flatMap_cons, List.flatMap_nil, List.append_nil, List.getD_eq_getElem?_getD]
    rw [Nat.succ_mul] at h
    by_cases hi : i < n * l.length
    · rw [List.getElem?_append_left (by rw [hlen]; exact hi), ← List.getD_eq_getElem?_getD, ih hi]
    · obtain ⟨k, rfl⟩ := Nat.exists_eq_add_of_le (Nat.le_of_not_lt hi)
      rw [List.getElem?_append_right (by rw [hlen]; omega), hlen, Nat.add_sub_cancel_left, ← List.getD_eq_getElem?_getD,
        Nat.mul_add_mod_self_right, Nat.mod_eq_of_lt (by omega)]

theorem getD_leBytes {n i : Nat} (v : Nat) (h : i < n) : (leBytes n v).getD i 0 = BitVec.ofNat 8 (v >>> (8 * i)) := by
  simp [leBytes, List.getD, h]

/-- R58: a line of a POOL.FILL. -/
def fillLine (v : Nat) : List Byte := (List.range 8).flatMap (fun _ => leBytes 8 v)

theorem length_fillLine (v : Nat) : (fillLine v).length = 64 := by
  unfold fillLine
  rw [length_flatMap_const, length_leBytes]

theorem getD_fillLine {i : Nat} (v : Nat) (h : i < 64) : (fillLine v).getD i 0 = BitVec.ofNat 8 (v >>> (8 * (i % 8))) := by
  unfold fillLine
  rw [getD_flatMap_const _ 8 i (by rw [length_leBytes]; exact h), length_leBytes, getD_leBytes v (Nat.mod_lt i (by decide))]

/-! ### The lines of an operation -/

theorem State.poolLine_jrn (s : State) (o : PoolOp) (i : Nat) : (s.poolLine o i).jrn = s.jrn := by
  unfold State.poolLine
  dsimp only
  split
  · rw [State.poke_jrn]
  · split
    · rfl
    · split
      · rfl
      · split <;> rw [State.poke_jrn]

/-- R287: no pool operation touches a record. -/
theorem State.poolAll_jrn (s : State) (o : PoolOp) : (s.poolAll o).jrn = s.jrn := by
  unfold State.poolAll State.poolLines
  rw [State.count_jrn]
  exact foldl_keeps State.jrn (fun s i => s.poolLine o (0 + i)) (fun t i => State.poolLine_jrn t o _) _ s

/-- R287: POOL.COMPARE touches no byte. -/
theorem State.poolAll_compare (s : State) {o : PoolOp} (h : o.op = 0x72) : (s.poolAll o).mem = s.mem := by
  have hline : ∀ (t : State) i, (t.poolLine o i).mem = t.mem := fun t i => by
    unfold State.poolLine
    dsimp only
    rw [if_neg (by omega), if_pos h]
  unfold State.poolAll State.poolLines
  rw [State.count_mem]
  exact foldl_keeps State.mem (fun s i => s.poolLine o (0 + i)) (fun t i => hline t _) _ s

theorem State.poke_wf {s : State} (h : s.mem.wf = true) (a : Nat) (bs : List Byte) : (s.poke a bs).mem.wf = true :=
  Mem.write_wf h a bs

/-- R58, R287: the first `n` lines of a POOL.FILL hold its pattern, every other byte what it held. -/
theorem State.poolLines_fill {s : State} (hwf : s.mem.wf = true) {o : PoolOp} (hop : o.op = 0x70) (n : Nat) :
    (s.poolLines o 0 n).mem.wf = true ∧ ∀ x, (s.poolLines o 0 n).mem.byte x =
      if o.dst ≤ x ∧ x < o.dst + 64 * n then BitVec.ofNat 8 (o.pattern.toNat >>> (8 * ((x - o.dst) % 8)))
      else s.mem.byte x := by
  induction n with
  | zero => exact ⟨hwf, fun x => (if_neg (by omega)).symm⟩
  | succ n ih =>
    obtain ⟨hwf', hbyte⟩ := ih
    have hstep : s.poolLines o 0 (n + 1) = (s.poolLines o 0 n).poke (o.dst + 64 * n) (fillLine o.pattern.toNat) := by
      unfold State.poolLines
      rw [List.range_succ, List.foldl_append, List.foldl_cons, List.foldl_nil, State.poolLine, if_pos hop, Nat.zero_add, fillLine]
    rw [hstep]
    refine ⟨State.poke_wf hwf' .., fun x => ?_⟩
    rw [State.poke_byte hwf', length_fillLine, hbyte]
    by_cases hx : o.dst + 64 * n ≤ x ∧ x < o.dst + 64 * n + 64
    · rw [if_pos hx, if_pos (by omega), getD_fillLine _ (by omega)]
      congr 3
      omega
    · rw [if_neg hx]
      by_cases hlow : o.dst ≤ x ∧ x < o.dst + 64 * n
      · rw [if_pos hlow, if_pos (by omega)]
      · rw [if_neg hlow, if_neg (by omega)]

/-! ### An instruction that runs -/

/-- R287: a pool instruction whose operands pass. -/
theorem poolChk_settles {op : Nat} {a : At} {r : JRec} {s : State} (h : Runs a r s) (hop : r.inst.opcode = op) {o : PoolOp}
    (ho : o = PoolOp.of op (jobAt s r).w0 (jobAt s r).w1 (jobAt s r).w2)
    (hbad : (begun s r).badPool (jobAt s r).ctx o = none) (herr : (begun s r).poolErr o = none) :
    runHob op a (poolChk op) (poolBody op) s = ended (((begun s r).poolAll o).hearthBytes (jobAt s r) (o.moves o.len)) a
      ((begun s r).poolDone o) := by
  subst ho
  refine (runHob_passes _ (poolBody op) h hop (checks_good hbad)).trans ?_
  unfold poolBody
  dsimp only
  rw [herr]
  rfl

/-- R287: a POOL.FILL reads nothing that could fail. -/
theorem State.poolErr_fill (s : State) {o : PoolOp} (h : o.op = 0x70) : s.poolErr o = none := by
  unfold State.poolErr
  exact firstBad_eq_none ⟨if_pos (by simp [h]), if_pos h⟩

/-- R58: the length of an operand that passes is of whole lines. -/
theorem State.badPool_length {s : State} {c : Nat} {o : PoolOp} (h : s.badPool c o = none) : o.len % 64 = 0 := by
  have hrng : s.rng c o.dst o.len 0 = none := by
    unfold State.badPool firstBad at h
    exact (List.findSome?_eq_none_iff.mp h) _ List.mem_cons_self
  refine Decidable.byContradiction fun hlen => ?_
  unfold State.rng State.checkRange at hrng
  rw [if_pos (by simp [hlen])] at hrng
  cases hrng

/-- R287: after the completion memory is as the lines of the operation left it. -/
theorem poolAll_ended {a : At} {r : JRec} {s : State} (h : Runs a r s) (o : PoolOp) (n : Nat) (d : Done) (x : Nat) :
    (ended (((begun s r).poolAll o).hearthBytes (jobAt s r) n) a d).mem.byte x =
      ((begun s r).poolLines o 0 (o.len / 64)).mem.byte x := by
  have hrec := begun_rec h.1
  have hjrn : (((begun s r).poolAll o).hearthBytes (jobAt s r) n).jrn = (begun s r).jrn := by
    rw [State.hearthBytes_jrn, State.poolAll_jrn]
  rw [← State.rec?_congr hjrn a] at hrec
  rw [ended_sameMemory d hrec rfl x, State.hearthBytes_mem, State.poolAll, State.count_mem]

/-- Settles O28: `poolChk_settles` for each operation, `State.poolLines_fill` for the bytes of POOL.FILL. -/
theorem poolOperations : Obligations.PoolOperations := by
  refine ⟨fun a r s hwf h hop => ?_, fun a r s h => ?_⟩
  · intro j hbad
    have hexec := poolChk_settles h hop rfl hbad (State.poolErr_fill _ rfl)
    have hlen : j.w1.toNat % 64 = 0 := State.badPool_length hbad
    obtain ⟨-, hlines⟩ := State.poolLines_fill (s := begun s r) (o := PoolOp.of 0x70 j.w0 j.w1 j.w2)
      (by rw [begun_mem]; exact hwf) rfl (j.w1.toNat / 64)
    rw [begun_mem] at hlines
    have hbyte := fun x => (poolAll_ended h (PoolOp.of 0x70 j.w0 j.w1 j.w2) j.w1.toNat
      ((begun s r).poolDone (PoolOp.of 0x70 j.w0 j.w1 j.w2)) x).trans (hlines x)
    refine ⟨_, congrArg Host.Outcome.next hexec, fun i hi => ?_, fun x hx => ?_⟩
    · refine (hbyte _).trans ((if_pos ⟨Nat.le_add_right _ _, ?_⟩).trans ?_)
      · show BitVec.ofNat 8 (j.w2.toNat >>> (8 * ((j.w0.toNat + i - j.w0.toNat) % 8))) = _
        rw [Nat.add_sub_cancel_left]
      · show _ < j.w0.toNat + _
        omega
    · refine (hbyte _).trans (if_neg ?_)
      show ¬(j.w0.toNat ≤ x ∧ x < j.w0.toNat + _)
      omega
  · intro j s1 op hop o hbad herr
    refine ⟨fun e => ?_, fun e => ?_, fun e => ?_, fun e => ?_⟩ <;> subst e
    · exact congrArg Host.Outcome.next (poolChk_settles h hop rfl hbad herr)
    · exact congrArg Host.Outcome.next (poolChk_settles h hop rfl hbad herr)
    · refine ⟨congrArg Host.Outcome.next (poolChk_settles h hop rfl hbad herr), fun x => ?_⟩
      have hcompare := State.poolAll_compare s1 (o := o) rfl
      rw [State.poolAll, State.count_mem] at hcompare
      rw [poolAll_ended h, hcompare, begun_mem]
    · exact congrArg Host.Outcome.next (poolChk_settles h hop rfl hbad herr)

end Machine
end Sys2Proof
end

section
/-! PROOFS. What the transport leaves of the part when it only sends: its settings and all but its queues, its connections'
counts, the Damper unit's buckets, telemetry and what a failed admission test posts. -/

namespace Sys2Proof
namespace Machine

/-- A port without its link and what waits in it. -/
def PortState.settings (x : PortState) : PortState :=
  { x with up := false, phy := 0, macsecUp := false, downCount := 0, queue := [], paused := [], xoff := [] }

/-- A port without what waits in it. -/
def PortState.unqueued (x : PortState) : PortState := { x with queue := [], xoff := [] }

/-- R334: the transport without its connections, keys and queues. -/
def Flu.settings (f : Flu) : Flu :=
  { f with port := f.port.map PortState.settings, conns := [], keys := [], connStatus := 0, closing := none, bothDown := none }

/-- R334: the transport without its connections, keys and queues, but with its links. -/
def Flu.links (f : Flu) : Flu :=
  { f with port := f.port.map PortState.unqueued, conns := [], keys := [], connStatus := 0, closing := none, bothDown := none }

/-- The part without what sending over standing links may touch. -/
def State.unpumped (s : State) : State :=
  { s with fresh := 0, tel := {}, dmp := {}, cxp := {}, gbl := { s.gbl with overbooked := false, msix := [] }, flu := s.flu.links }

/-- `t` is `s` but for what is sent while no link changes. -/
def Pumped (s t : State) : Prop := t.unpumped = s.unpumped

/-- The part without what sending, and a link that goes down, may touch. -/
def State.unsent (s : State) : State :=
  { s with fresh := 0, tel := {}, dmp := {}, cxp := {}, gbl := { s.gbl with overbooked := false, msix := [] }, flu := s.flu.settings }

/-- `t` is `s` but for what is sent. -/
def SentOnly (s t : State) : Prop := t.unsent = s.unsent

namespace Pumped
variable {s0 s t : State}

section
variable (h : Pumped s t)
include h

theorem unqueued (p : Side) : (t.flu.port.get p).unqueued = (s.flu.port.get p).unqueued := by
  have hport : (t.flu.port.map PortState.unqueued).get p = (s.flu.port.map PortState.unqueued).get p :=
    (congrArg (fun u : State => u.flu.port.get p) h :)
  rwa [Two.get_map, Two.get_map] at hport

theorem up (p : Side) : (t.flu.port.get p).up = (s.flu.port.get p).up := (congrArg PortState.up (h.unqueued p) :)
theorem phy (p : Side) : (t.flu.port.get p).phy = (s.flu.port.get p).phy := (congrArg PortState.phy (h.unqueued p) :)

/-- What is sent while no link changes is sent. -/
theorem sent : SentOnly s t := by
  have hsettings : t.flu.settings = s.flu.settings := by
    have hlinks : ∀ f : Flu, f.links.settings = f.settings := fun _ => rfl
    rw [← hlinks, ← hlinks s.flu]
    exact (congrArg (fun u : State => u.flu.settings) h :)
  have hrest : { t.unpumped with flu := {} } = { s.unpumped with flu := {} } := congrArg (fun u : State => { u with flu := {} }) h
  show { { t.unpumped with flu := {} } with flu := t.flu.settings } = { { s.unpumped with flu := {} } with flu := s.flu.settings }
  rw [hrest, hsettings]

end

theorem refl (s : State) : Pumped s s := rfl

theorem ite {c : Prop} [Decidable c] {a b : State} (ha : Pumped s0 a) (hb : Pumped s0 b) :
    Pumped s0 (if c then a else b) := by
  split
  · exact ha
  · exact hb

theorem foldl {β : Type} {f : State → β → State} {l : List β} (h : Pumped s0 s)
    (hf : ∀ t x, Pumped s0 t → Pumped s0 (f t x)) : Pumped s0 (l.foldl f s) := by
  induction l generalizing s with
  | nil => exact h
  | cons x xs ih => exact ih (hf s x h)

variable (hs : Pumped s0 s)
include hs

theorem setConn {n x} : Pumped s0 (s.setConn n x) := hs
theorem setTx {n m} : Pumped s0 (s.setTx n m) := hs
theorem fresh {x} : Pumped s0 { s with fresh := x } := hs
theorem overbooked {x} : Pumped s0 { s with gbl := { s.gbl with overbooked := x } } := hs
theorem cxp {x} : Pumped s0 { s with cxp := x } := hs

theorem setPort {p : Side} {x : PortState} (h : x.unqueued = (s.flu.port.get p).unqueued) : Pumped s0 (s.setPort p x) := by
  have hport : (s.flu.port.set p x).map PortState.unqueued = s.flu.port.map PortState.unqueued := by
    cases p
    · exact congrArg (fun y => (⟨y, s.flu.port.e.unqueued⟩ : Two PortState)) h
    · exact congrArg (fun y => (⟨s.flu.port.w.unqueued, y⟩ : Two PortState)) h
  refine Eq.trans ?_ hs
  unfold State.setPort State.unpumped Flu.links
  dsimp only
  rw [hport]

theorem count {o n} : Pumped s0 (s.count o n) := .ite hs hs

/-! ### Sending -/

theorem queueFrame {p f} : Pumped s0 (s.queueFrame p f) := by
  unfold State.queueFrame
  exact .ite hs.count (setPort hs rfl)

theorem domSearch {d g k} : Pumped s0 (s.domSearch d g k).2 := by
  unfold State.domSearch
  dsimp only
  split
  · exact .ite (count (.ite hs.count hs)) (.ite hs.count hs)
  · exact .ite hs.count hs

theorem classify {d k} : Pumped s0 (s.classify d k).2 := by
  unfold State.classify
  split
  all_goals
    next heq => exact (congrArg (fun x => Pumped s0 x.2) heq).mp hs.domSearch

theorem egress {p f} : Pumped s0 (s.egress p f) := by
  unfold State.egress
  split
  · exact hs.queueFrame
  · refine .ite hs.queueFrame (.ite hs.classify.count ?_)
    split <;> exact hs.classify.queueFrame

theorem sealNext {n} : Pumped s0 (s.seal n).2 := by
  unfold State.seal
  dsimp only
  split <;> exact hs

theorem sendPacket {n m i p} : Pumped s0 (s.sendPacket n m i p) := by
  unfold State.sendPacket
  refine .ite hs ?_
  dsimp only
  split
  · exact hs.sealNext.setConn.egress
  · exact hs.sealNext.setConn.egress.setTx

theorem resendMsg {n m} : Pumped s0 (s.resendMsg n m) := by
  unfold State.resendMsg
  refine .foldl hs.setTx fun t i hk => ?_
  split
  · exact .ite hk hk.sendPacket.count
  · exact hk

theorem resumeSends {n} : Pumped s0 (s.resumeSends n) := by
  unfold State.resumeSends
  exact .ite hs (.foldl hs fun _ _ hk => hk.resendMsg)

theorem keyDown {i} : Pumped s0 (s.keyDown i) := by
  unfold State.keyDown
  split <;> exact hs

theorem pump {k n} : Pumped s0 (s.pump k n) := by
  induction k generalizing s with
  | zero => exact hs
  | succ k ih =>
    rw [State.pump]
    dsimp only
    split
    · exact hs
    · split
      · exact hs
      · refine .ite hs (ih ?_)
        split
        · exact .ite hs.setConn.setTx.sendPacket.keyDown hs.setConn.setTx.sendPacket
        · exact hs.setConn.setTx.sendPacket

theorem pumpConn {n} : Pumped s0 (s.pumpConn n) := hs.pump

theorem pumpAll : Pumped s0 s.pumpAll := .foldl hs fun _ _ hk => hk.resumeSends.pumpConn

theorem sendMka {p} : Pumped s0 (s.sendMka p) := by
  unfold State.sendMka
  exact .ite hs hs.fresh.queueFrame

theorem pfcUpdate {p} : Pumped s0 (s.pfcUpdate p) := by
  unfold State.pfcUpdate
  refine foldl hs fun t k hk => ?_
  have hasked : ∀ l, Pumped s0 (t.setPort p { t.flu.port.get p with xoff := l }) := fun _ => hk.setPort rfl
  exact .ite hk (.ite (hasked _).queueFrame (.ite (hasked _).queueFrame hk))

/-! ### A failed admission test -/

theorem postEvent {l k r} : Pumped s0 (s.postEvent l k r) := by
  unfold State.postEvent
  refine cxp ?_
  exact .ite hs hs

theorem recheck : Pumped s0 s.recheck := by
  unfold State.recheck
  exact .ite hs (.ite hs (.foldl hs.overbooked fun _ _ hk => hk.postEvent))

end Pumped

namespace SentOnly
variable {s0 s t : State}

section
variable (h : SentOnly s t)
include h

theorem mem : t.mem = s.mem := (congrArg State.mem h :)
theorem jrn : t.jrn = s.jrn := (congrArg State.jrn h :)
theorem rings : t.rings = s.rings := (congrArg State.rings h :)
theorem sec : t.sec = s.sec := (congrArg State.sec h :)
theorem ctxs : t.ctxs = s.ctxs := (congrArg State.ctxs h :)
theorem held : t.gbl.held = s.gbl.held := (congrArg (fun u : State => u.gbl.held) h :)
theorem resp : t.resp = s.resp := (congrArg State.resp h :)
theorem settings : t.flu.settings = s.flu.settings := (congrArg State.flu h :)
theorem flueEn : t.flu.flueEn = s.flu.flueEn := (congrArg Flu.flueEn h.settings :)
theorem readEn : t.flu.readEn = s.flu.readEn := (congrArg Flu.readEn h.settings :)
theorem paths : t.flu.paths = s.flu.paths := (congrArg Flu.paths h.settings :)
theorem portEn (p : Side) : (t.flu.port.get p).en = (s.flu.port.get p).en := by
  have hport : (t.flu.port.map PortState.settings).get p = (s.flu.port.map PortState.settings).get p :=
    (congrArg (fun f : Flu => f.port.get p) h.settings :)
  rw [Two.get_map, Two.get_map] at hport
  exact (congrArg PortState.en hport :)

end

theorem refl (s : State) : SentOnly s s := rfl

theorem trans (h : SentOnly s0 s) (h' : SentOnly s t) : SentOnly s0 t := Eq.trans h' h

theorem ite {c : Prop} [Decidable c] {a b : State} (ha : SentOnly s0 a) (hb : SentOnly s0 b) :
    SentOnly s0 (if c then a else b) := by
  split
  · exact ha
  · exact hb

theorem foldl {β : Type} {f : State → β → State} {l : List β} (h : SentOnly s0 s)
    (hf : ∀ t x, SentOnly s0 t → SentOnly s0 (f t x)) : SentOnly s0 (l.foldl f s) := by
  induction l generalizing s with
  | nil => exact h
  | cons x xs ih => exact ih (hf s x h)

variable (hs : SentOnly s0 s)
include hs


theorem setPort {p : Side} {x : PortState} (h : x.settings = (s.flu.port.get p).settings) : SentOnly s0 (s.setPort p x) := by
  have hport : (s.flu.port.set p x).map PortState.settings = s.flu.port.map PortState.settings := by
    cases p
    · exact congrArg (fun y => (⟨y, s.flu.port.e.settings⟩ : Two PortState)) h
    · exact congrArg (fun y => (⟨s.flu.port.w.settings, y⟩ : Two PortState)) h
  refine Eq.trans ?_ hs
  unfold State.setPort State.unsent Flu.settings
  dsimp only
  rw [hport]

/-! ### A port that goes down -/

theorem refillDue : SentOnly s0 s.refillDue := by
  unfold State.refillDue
  exact .ite hs hs

theorem endClose {n} : SentOnly s0 (s.endClose n) := by
  unfold State.endClose
  exact .ite hs hs

theorem portDown {p} : SentOnly s0 (s.portDown p) := by
  have hdown : ∀ x : PortState, x.settings = (s.refillDue.flu.port.get p).settings → SentOnly s0 (s.refillDue.setPort p x) :=
    fun x hx => hs.refillDue.setPort hx
  unfold State.portDown
  refine .ite hs.refillDue (.foldl ?_ fun _ _ hk => hk.endClose)
  exact hdown _ rfl

/-! ### Sending -/

theorem sendMka {p} : SentOnly s0 (s.sendMka p) := hs.trans (Pumped.refl s).sendMka.sent
theorem pumpAll : SentOnly s0 s.pumpAll := hs.trans (Pumped.refl s).pumpAll.sent
theorem recheck : SentOnly s0 s.recheck := hs.trans (Pumped.refl s).recheck.sent

end SentOnly

end Machine
end Sys2Proof
end

section
/-! PROOFS. Writes of registers (R498-R503) and of the control registers (R300, R334, R452, R471, R473). -/

namespace Sys2Proof
namespace Machine

/-! ### Writes that are refused -/

/-- R499-R503: a write to the blocks from DOM on is taken where it covers a whole register and its LD may write. -/
theorem State.regWrite_blocks {s : State} {ld : Ld} {off width : Nat} {v : BitVec 64} (hlow : 0x3000000 ≤ off)
    (hno : width ≠ 8 ∨ off % 8 ≠ 0 ∨ s.regWritable ld = false) : s.regWrite ld off width v = s := by
  unfold State.regWrite
  split
  · rfl
  · next hwidth =>
    simp only [Bool.or_eq_true, decide_eq_true_eq, not_or, Classical.not_not] at hwidth
    obtain ⟨-, haligned⟩ := hwidth
    rw [if_neg (by simp only [Bool.and_eq_true, decide_eq_true_eq]; omega)]
    split
    · rfl
    · next h8 =>
      obtain rfl : width = 8 := by omega
      rw [if_neg (by omega)]
      obtain hw | ho | hr := hno
      · omega
      · omega
      · rw [hr]; rfl

/-- Settles O40: `State.regWrite_blocks`; an LD may write as a MANAGER, after FW_READY, while the part is not HELD. -/
theorem registerWritesRefused : Obligations.RegisterWritesRefused := by
  intro ld off width v s hlow hhigh hno
  rw [exec_registerWrite, State.regWrite_blocks hlow]
  obtain hw | ho | hm | hf | hh := hno
  · exact .inl hw
  · exact .inr (.inl ho)
  · exact .inr (.inr (by simp [State.regWritable, hm]))
  · exact .inr (.inr (by simp [State.regWritable, hf]))
  · exact .inr (.inr (by simp [State.regWritable, hh]))

/-! ### Control registers -/

theorem bitOf_toNat {w : Nat} (v : BitVec w) (i : Nat) : bitOf v.toNat i = v.getLsbD i := by
  rw [bitOf, BitVec.getLsbD, Nat.testBit, Nat.one_and_eq_mod_two]
  obtain h | h := Nat.mod_two_eq_zero_or_one (v.toNat >>> i) <;> rw [h] <;> rfl

/-- R334: a port as EN and its MACsec bit of FLU_CTL set it. -/
def PortState.controlled (x : PortState) (en mac : Bool) : PortState :=
  if mac then { x with en := en, macsecEn := true } else { x.resize false with en := en, macsecEn := false, macsecUp := false }

theorem PortState.controlled_en (x : PortState) (en mac : Bool) : (x.controlled en mac).en = en := by
  cases mac <;> rfl

/-- R334: the fields of FLU_CTL taken. -/
def State.fluSet (s : State) (v : Nat) : State :=
  { s with flu := { s.flu with
    port := ⟨s.flu.port.w.controlled (bitOf v 0) (bitOf v 4), s.flu.port.e.controlled (bitOf v 1) (bitOf v 5)⟩
    flueEn := bitOf v 2, readEn := bitOf v 3, macsecReq := bitOf v 6, paths := BitVec.ofNat 8 (bits v 8 8) } }

section
variable {s : State} {ld : Ld} (hw : s.regWritable ld = true) (v : BitVec 64)
include hw

/-- R334: FLU_CTL sets its fields; the rest is sending, and ports that go down. -/
theorem State.fluCtl_sends : SentOnly (s.fluSet v.toNat) (s.fluCtl ld v) := by
  have hoff : ∀ {s0 u : State} (c : Bool) (p : Side), SentOnly s0 u → SentOnly s0 (if c then u else u.portDown p) :=
    fun c p hs => .ite hs hs.portDown
  have hmka : ∀ {s0 u : State} (c : Bool) (p : Side), SentOnly s0 u → SentOnly s0 (if c then u else u.sendMka p) :=
    fun c p hs => .ite hs hs.sendMka
  unfold State.fluCtl
  dsimp only
  rw [hw, if_neg (by simp)]
  exact .pumpAll (hmka _ _ (hmka _ _ (hoff _ _ (hoff _ _ (.refl _)))))

theorem exec_fluCtlWrite : exec (.fluCtlWrite ld v) s = .next (s.fluCtl ld v).recheck :=
  congrArg Host.Outcome.next (if_pos hw)

/-- R300: the fields of CXP_CTL taken. -/
theorem State.cxpCtl_sets : s.cxpCtl ld v = { s with cxp := { s.cxp with
    head := ⟨{ s.cxp.head.w with hdmEn := v.getLsbD 0 }, { s.cxp.head.e with hdmEn := v.getLsbD 1 }⟩
    poolEn := v.getLsbD 2, biEn := v.getLsbD 3, ideReq := if s.sec.confidential then s.cxp.ideReq else v.getLsbD 4 } } := by
  unfold State.cxpCtl
  rw [hw, if_neg (by simp)]

end

/-! ### Telemetry -/

theorem State.manager_congr {s t : State} (h : t.cxp = s.cxp) (ld : Ld) : t.manager ld = s.manager ld := by
  unfold State.manager State.ld
  rw [h]

theorem State.clearPriv_cnt (s : State) (k : Nat) :
    s.clearPriv.tel.cnt.lookD k 0 = if alwaysOn k then s.tel.cnt.lookD k 0 else 0 := by
  unfold State.clearPriv Tbl.lookD
  dsimp only
  rw [Tbl.look_keep]
  split <;> rfl

theorem State.clearAo_cnt (s : State) (k : Nat) :
    s.clearAo.tel.cnt.lookD k 0 = if alwaysOn k then 0 else s.tel.cnt.lookD k 0 := by
  unfold State.clearAo Tbl.lookD
  dsimp only
  rw [Tbl.look_keep _ (fun k => !(alwaysOn k))]
  cases alwaysOn k <;> rfl

theorem State.clearPriv_ring (s : State) (n : Nat) : (s.clearPriv.ring n).late = 0 ∧ (s.clearPriv.ring n).measured = 0 := by
  unfold State.clearPriv State.ring Tbl.lookD
  dsimp only
  rw [Tbl.look_mapVals]
  cases s.rings.look n with
  | none => exact ⟨rfl, rfl⟩
  | some g => exact ⟨rfl, rfl⟩

/-- R471: TEL_CTL takes GLOBAL_EN, then clears what it is asked to clear. -/
theorem State.telCtl_takes {s : State} {ld : Ld} (hw : s.regWritable ld = true) (v : BitVec 64) :
    let t : State := { s with tel := { s.tel with globalEn := v.getLsbD 0 } }
    let u := if v.getLsbD 1 then t.clearPriv else t
    s.telCtl ld v = if v.getLsbD 2 then u.clearAo else u := by
  intro t u
  have hm : s.manager ld = true := ((Bool.and_eq_true ..).mp hw).2
  have hu : u.manager ld = true := by
    refine Eq.trans (State.manager_congr (s := s) ?_ ld) hm
    show State.cxp (if _ then _ else _) = _
    split <;> rfl
  unfold State.telCtl
  rw [hw, if_neg (by simp)]
  show (if v.getLsbD 2 && u.manager ld then u.clearAo else u) = _
  rw [hu, Bool.and_true]

/-- R471: after TEL_CTL with CLEAR and after one with CLEAR_AO. -/
theorem State.telCtl_clears {s : State} {ld : Ld} (hw : s.regWritable ld = true) (v : BitVec 64) :
    (s.telCtl ld v).tel.globalEn = v.getLsbD 0 ∧
    (v.getLsbD 1 = true → (∀ k, alwaysOn k = false → (s.telCtl ld v).tel.cnt.lookD k 0 = 0) ∧
      ∀ n, ((s.telCtl ld v).ring n).late = 0 ∧ ((s.telCtl ld v).ring n).measured = 0) ∧
    (v.getLsbD 2 = true → ∀ k, alwaysOn k = true → (s.telCtl ld v).tel.cnt.lookD k 0 = 0) := by
  rw [State.telCtl_takes hw v]
  generalize ht : ({ s with tel := { s.tel with globalEn := v.getLsbD 0 } } : State) = t
  have hen : t.tel.globalEn = v.getLsbD 0 := ht ▸ rfl
  refine ⟨?_, fun h1 => ?_, fun h2 k hk => ?_⟩
  · split <;> split <;> exact hen
  · rw [if_pos h1]
    refine ⟨fun k hk => ?_, fun n => ?_⟩
    · split
      · rw [State.clearAo_cnt, hk, State.clearPriv_cnt, hk]; rfl
      · rw [State.clearPriv_cnt, hk]; rfl
    · split <;> exact State.clearPriv_ring t n
  · rw [if_pos h2, State.clearAo_cnt, hk, if_pos rfl]

theorem State.trace_tel (s : State) (d : Side) (r : TraceRec) : ∃ x, (s.trace d r).tel = { s.tel with trace := x } ∧
    (x.get d).en = (s.tel.trace.get d).en ∧ ∀ e, e ≠ d → x.get e = s.tel.trace.get e := by
  unfold State.trace
  dsimp only
  split
  · refine ⟨_, rfl, ?_, fun e he => Two.get_set_ne _ _ he⟩
    rw [Two.get_set_self, Trace.put]
    split <;> rfl
  · exact ⟨s.tel.trace, rfl, rfl, fun _ _ => rfl⟩

/-- R473: the trace of a die is set on or off; nothing else of the block changes. -/
theorem State.traceEn_tel (s : State) (d : Side) (on : Bool) : ∃ x, (s.traceEn d on).tel = { s.tel with trace := x } ∧
    (x.get d).en = on ∧ ∀ e, e ≠ d → x.get e = s.tel.trace.get e := by
  unfold State.traceEn
  dsimp only
  split
  · next hon =>
    obtain ⟨x, htel, hen, hother⟩ := State.trace_tel { s with tel := { s.tel with trace := s.tel.trace.set d { en := true } } } d
      { type := 1, arg := s.tel.partId.toNat + 65536 * d.num }
    refine ⟨x, htel, hen.trans ?_, fun e he => (hother e he).trans (Two.get_set_ne _ _ he)⟩
    dsimp only
    rw [Two.get_set_self, ((Bool.and_eq_true ..).mp hon).1]
  · exact ⟨_, rfl, by rw [Two.get_set_self], fun e he => Two.get_set_ne _ _ he⟩

section
variable {s : State} {ld : Ld} (hw : s.regWritable ld = true) (v : BitVec 64)
include hw

/-- R473: TEL_TRACE_CTL taken. -/
theorem State.traceCtl_takes (hno : s.traceRefused v = false) : (s.traceCtl ld v).tel.wrap = v.getLsbD 2 ∧
    (s.traceCtl ld v).tel.lossless = v.getLsbD 3 ∧ (s.traceCtl ld v).tel.allCtx = v.getLsbD 4 ∧
    (s.traceCtl ld v).tel.ctx = BitVec.ofNat 12 (bits v.toNat 16 12) ∧
    ((s.traceCtl ld v).tel.trace.get .west).en = v.getLsbD 0 ∧ ((s.traceCtl ld v).tel.trace.get .east).en = v.getLsbD 1 := by
  unfold State.traceCtl
  rw [hw, hno, if_neg (by simp), if_neg (by simp)]
  dsimp only
  generalize hu : State.traceEn _ .west _ = u
  obtain ⟨x, hx, hwest, -⟩ := State.traceEn_tel _ .west (bitOf v.toNat 0)
  rw [hu] at hx
  obtain ⟨y, hy, heast, hother⟩ := State.traceEn_tel u .east (bitOf v.toNat 1)
  rw [hy, hx]
  refine ⟨bitOf_toNat v 2, bitOf_toNat v 3, bitOf_toNat v 4, rfl, ?_, ?_⟩
  · rw [hother .west (by decide), hx]
    exact hwest.trans (bitOf_toNat v 0)
  · exact heast.trans (bitOf_toNat v 1)

end

/-! ### Taps -/

theorem State.tap_setTap (s : State) (d : Side) (k : Nat) (t : Tap) : (s.setTap d k t).tap d k = t := by
  unfold State.tap State.setTap
  rw [Two.get_set_self, Tbl.lookD_put_self]

theorem State.beatEvents_tel (s : State) (cls : Nat) (b : Beat) (n c : Nat) : (s.beatEvents cls b n c).tel = s.tel := by
  unfold State.beatEvents
  split
  · rfl
  · cases b with
    | busy => exact State.ctxEvent_tel ..
    | stalled l => exact (State.ctxEvent_tel ..).trans (State.ctxEvent_tel ..)
    | idle => rfl

/-- R452: the busy beats of a die that runs are counted by their tap. -/
theorem exec_tapSnapshot_busy {s : State} {d : Side} {k : Nat} (n c : Nat) (hlow : 1 ≤ k) (hhigh : k ≤ 11)
    (hp : s.pkg.powered = true) (hr : s.pkg.resetHigh = true) (hhalt : s.dieHalted d k = false) :
    exec (.tapSnapshot d k .busy n c) s =
      .next ((s.setTap d k ((s.tap d k).add false .busy n)).beatEvents k .busy n c) := by
  have hok : beatOk k .busy = true := by simp [beatOk, hlow, hhigh]
  refine congrArg Host.Outcome.next ?_
  rw [hok, hp, hr, hhalt, if_neg (by simp)]
  rfl

/-- Settles O41: the equation of each register's write; what follows FLU_CTL only sends (`State.fluCtl_sends`). -/
theorem controlRegistersTaken : Obligations.ControlRegistersTaken := by
  intro ld v s hw
  refine ⟨?_, ?_, fun h1 => ?_, fun h2 => ?_, fun href => ?_, fun hno => ⟨_, rfl, State.traceCtl_takes hw v hno⟩, ?_, ?_⟩
  · refine ⟨_, congrArg Host.Outcome.next (State.cxpCtl_sets hw v), rfl, rfl, rfl, rfl, rfl, rfl⟩
  · have hsent := (State.fluCtl_sends hw v).recheck
    refine ⟨_, exec_fluCtlWrite hw v, hsent.flueEn.trans (bitOf_toNat v 2), hsent.readEn.trans (bitOf_toNat v 3), ?_, ?_,
      hsent.paths, SameMemory.of_cells (congrArg Mem.cells hsent.mem)⟩
    · exact (hsent.portEn .west).trans ((PortState.controlled_en ..).trans (bitOf_toNat v 0))
    · exact (hsent.portEn .east).trans ((PortState.controlled_en ..).trans (bitOf_toNat v 1))
  · obtain ⟨hen, hclear, -⟩ := State.telCtl_clears hw v
    exact ⟨_, congrArg Host.Outcome.next (if_pos h1), hen, hclear h1⟩
  · obtain ⟨hen, -, hclear⟩ := State.telCtl_clears hw v
    exact ⟨_, congrArg Host.Outcome.next (if_pos h2), hen, hclear h2⟩
  · refine congrArg Host.Outcome.next ?_
    unfold State.traceCtl
    rw [hw, href, if_neg (by simp), if_pos rfl]
  · intro d k hlow hhigh hreach hld
    refine ⟨_, congrArg Host.Outcome.next (if_neg ?_), rfl, ?_⟩
    · simp only [Bool.or_eq_true, decide_eq_true_eq, hreach]
      simp
      omega
    · show ((State.setTap ..).tap d k).latStall = _ ∧ ((State.setTap ..).tap d k).latIdle = _ ∧
        ((State.setTap ..).tap d k).latPaused = _ ∧ ((State.setTap ..).tap d k).busy = _
      rw [State.tap_setTap]
      exact ⟨rfl, rfl, rfl, rfl⟩
  · intro d k n c hlow hhigh hp hr hhalt
    refine ⟨_, exec_tapSnapshot_busy n c hlow hhigh hp hr hhalt, ?_⟩
    have htap : ((s.setTap d k ((s.tap d k).add false .busy n)).beatEvents k .busy n c).tap d k =
        (s.tap d k).add false .busy n := by
      rw [State.tap, State.beatEvents_tel]
      exact State.tap_setTap s d k _
    rw [htap]
    exact ⟨rfl, rfl, rfl⟩

end Machine
end Sys2Proof
end

section
/-! PROOFS. The commands of the Damper unit's policers and gates (R340, R344, R350-R352, R355, R356). -/

namespace Sys2Proof
namespace Machine

/-! ### Policers -/

/-- R344: the refills that are due touch the buckets alone. -/
theorem State.refillDue_dmp (s : State) : { s.refillDue with dmp := s.dmp } = s ∧ s.refillDue.dmp.cir = s.dmp.cir ∧
    s.refillDue.dmp.pir = s.dmp.pir ∧ s.refillDue.dmp.cbs = s.dmp.cbs ∧ s.refillDue.dmp.pbs = s.dmp.pbs := by
  unfold State.refillDue
  dsimp only
  split <;> exact ⟨rfl, rfl, rfl, rfl, rfl⟩

theorem State.policer_setPolicer (s : State) (kind : Bool) (i : Nat) (p : Policer) :
    (s.setPolicer kind i p).policer kind i = p := by
  cases kind <;> exact Tbl.lookD_put_self ..

theorem State.setPolicer_dmp (s : State) (kind : Bool) (i : Nat) (p : Policer) (d : Dmp) :
    ({ s.setPolicer kind i p with dmp := d } : State) = { s with dmp := d } := by
  cases kind <;> rfl

/-- R355: DMP_POL_STATUS set. -/
def State.withPolStatus (s : State) (e : Nat) : State := { s with dmp := { s.dmp with polStatus := polStatus e } }

/-- R355: a command about a policer that exists. -/
theorem State.polCmd_takes {s : State} {ld : Ld} {cmd : BitVec 64} (hw : s.regWritable ld = true)
    (hi : bitOf cmd.toNat 15 = true ∨ bits cmd.toNat 0 15 < 4096) {want : Nat} (hwant : bits cmd.toNat 16 2 = want)
    (go : Bool → Nat → State → Nat × State) : s.polCmd ld want cmd go =
      (go (bitOf cmd.toNat 15) (bits cmd.toNat 0 15) s.refillDue).2.withPolStatus
        (go (bitOf cmd.toNat 15) (bits cmd.toNat 0 15) s.refillDue).1 := by
  unfold State.polCmd
  dsimp only
  rw [if_neg (by simp [hw, hwant]), if_neg]
  · rfl
  · obtain h | h := hi
    · simp [h]
    · simp [Nat.not_le.mpr h]

/-- R340, R355: a policer's settings that a WRITE may take. -/
def PolOk (cir pir cbs pbs : Nat) : Prop :=
  cir ≤ pir ∧ pir ≤ 1600000 ∧ 8704 ≤ cbs ∧ cbs ≤ 16777216 ∧ 8704 ≤ pbs ∧ pbs ≤ 16777216

section
variable {s : State} {ld : Ld} {cmd : BitVec 64} (hw : s.regWritable ld = true)
  (hi : bitOf cmd.toNat 15 = true ∨ bits cmd.toNat 0 15 < 4096)
include hw hi

/-- R340: WRITE of settings in their ranges. -/
theorem exec_dmpPolWrite (hop : bits cmd.toNat 16 2 = 1) (hok : PolOk (bits s.dmp.cir.toNat 0 21) (bits s.dmp.pir.toNat 0 21)
      (bits s.dmp.cbs.toNat 0 25) (bits s.dmp.pbs.toNat 0 25)) :
    exec (.dmpPolWrite ld cmd) s = .next ((s.refillDue.setPolicer (bitOf cmd.toNat 15) (bits cmd.toNat 0 15)
      { s.refillDue.policer (bitOf cmd.toNat 15) (bits cmd.toNat 0 15) with
        next := some (s.dmp.cir.getLsbD 63, bits s.dmp.cir.toNat 0 21, bits s.dmp.pir.toNat 0 21,
          bits s.dmp.cbs.toNat 0 25, bits s.dmp.pbs.toNat 0 25) }).withPolStatus 0) := by
  obtain ⟨h1, h2, h3, h4, h5, h6⟩ := hok
  obtain ⟨-, hcir, hpir, hcbs, hpbs⟩ := State.refillDue_dmp s
  refine congrArg Host.Outcome.next ((State.polCmd_takes hw hi hop _).trans ?_)
  dsimp only
  rw [hcir, hpir, hcbs, hpbs, if_neg]
  simp only [Bool.or_eq_true, decide_eq_true_eq]
  omega

/-- R340: WRITE of a CIR above PIR. -/
theorem exec_dmpPolWrite_refused (hop : bits cmd.toNat 16 2 = 1) (hbad : bits s.dmp.pir.toNat 0 21 < bits s.dmp.cir.toNat 0 21) :
    exec (.dmpPolWrite ld cmd) s = .next (s.refillDue.withPolStatus 1) := by
  obtain ⟨-, hcir, hpir, hcbs, hpbs⟩ := State.refillDue_dmp s
  refine congrArg Host.Outcome.next ((State.polCmd_takes hw hi hop _).trans ?_)
  dsimp only
  rw [hcir, hpir, hcbs, hpbs, if_pos]
  simp [hbad]

end

/-! ### Gates -/

/-- R350, R352: what is due of a gate leaves the gate list of its port, and all but that port. -/
theorem State.gateDue_keeps (s : State) (p : Side) : ((s.gateDue p).flu.port.get p).gateList = (s.flu.port.get p).gateList ∧
    (s.gateDue p).dmp = s.dmp ∧ (s.gateDue p).now = s.now := by
  have hswitch : ((s.gateSwitch p).flu.port.get p).gateList = (s.flu.port.get p).gateList ∧ (s.gateSwitch p).dmp = s.dmp ∧
      (s.gateSwitch p).now = s.now := by
    unfold State.gateSwitch State.setPort
    dsimp only
    split
    · exact ⟨rfl, rfl, rfl⟩
    · split
      · rw [Two.get_set_self]; exact ⟨rfl, rfl, rfl⟩
      · exact ⟨rfl, rfl, rfl⟩
  obtain ⟨hlist, hdmp, hnow⟩ := hswitch
  rw [← hlist, ← hdmp, ← hnow]
  unfold State.gateDue State.gateBoundary State.setPort
  dsimp only
  split
  · exact ⟨rfl, rfl, rfl⟩
  · split
    all_goals rw [Two.get_set_self]; exact ⟨rfl, rfl, rfl⟩

/-- R356: a command about a gate. -/
theorem State.gateCmd_takes {s : State} {ld : Ld} {cmd : BitVec 64} (hw : s.regWritable ld = true) {want : Nat}
    (hwant : bits cmd.toNat 1 3 = want) (go : Side → Nat → State → State) : s.gateCmd ld want cmd go =
      go (sideOf (bits cmd.toNat 0 1)) (bits cmd.toNat 8 7) (s.gateDue (sideOf (bits cmd.toNat 0 1))) := by
  unfold State.gateCmd
  dsimp only
  rw [if_neg (by simp [hw, hwant])]

/-- R356: READ_ENTRY of an entry of the running schedule. -/
theorem exec_dmpGateReadEntry {s : State} {ld : Ld} {cmd : BitVec 64} (hw : s.regWritable ld = true)
    (hop : bits cmd.toNat 1 3 = 1) {g : GateSched} {d : Nat} {m : BitVec 64}
    (hgate : ((s.gateDue (sideOf (bits cmd.toNat 0 1))).flu.port.get (sideOf (bits cmd.toNat 0 1))).gate = some g)
    (hentry : g.entries[bits cmd.toNat 8 7]? = some (d, m)) : exec (.dmpGateReadEntry ld cmd) s =
      .next (({ s.gateDue (sideOf (bits cmd.toNat 0 1)) with dmp := { (s.gateDue (sideOf (bits cmd.toNat 0 1))).dmp with
        gateDur := BitVec.ofNat 32 d, gateOpen := m } } : State).setGateStatus (gateStatus none)) := by
  refine congrArg Host.Outcome.next ((State.gateCmd_takes hw hop _).trans ?_)
  dsimp only
  rw [hgate, Option.bind_some, hentry]

/-- R351: the schedule that a COMMIT of `n` entries reads. -/
def State.gateRead (s : State) (p : Side) (n : Nat) : GateSched :=
  { base := s.dmp.gateBase.toNat, mask := s.dmp.gateMask
    entries := (List.range (Nat.min n 128)).map (fun i =>
      let e := (s.flu.port.get p).gateList.lookD i (0, 0)
      (e.1.toNat, e.2)) }

theorem State.gateRead_due (s : State) (p : Side) (n : Nat) : (s.gateDue p).gateRead p n = s.gateRead p n := by
  obtain ⟨hlist, hdmp, -⟩ := State.gateDue_keeps s p
  unfold State.gateRead
  rw [hlist, hdmp]

theorem State.gateCommit_refused {s : State} {p : Side} {n : Nat} {e : Status × Nat}
    (h : s.gateRefused p n (s.gateRead p n) = some e) : s.gateCommit p n = s.setGateStatus (gateStatus (some e)) := by
  unfold State.gateRead at h
  unfold State.gateCommit
  dsimp only at h ⊢
  rw [h]

theorem State.gateCommit_taken {s : State} {p : Side} {n : Nat} (h : s.gateRefused p n (s.gateRead p n) = none) :
    s.gateCommit p n = (s.setPort p { s.flu.port.get p with
      pendingGate := some (s.gateRead p n, gateStart s.now.toNat (s.gateRead p n)) }).setGateStatus (gateStatus none) := by
  unfold State.gateRead at h
  unfold State.gateCommit
  dsimp only at h ⊢
  rw [h]
  rfl

theorem State.port_setPort (s : State) (p : Side) (x : PortState) : (s.setPort p x).flu.port.get p = x := Two.get_set_self ..

theorem State.port_setGateStatus (s : State) (v : BitVec 64) (p : Side) :
    (s.setGateStatus v).flu.port.get p = s.flu.port.get p := rfl

/-- Settles O42: `State.polCmd_takes` and `State.gateCmd_takes` for the command that is taken, then its work. -/
theorem damperCommands : Obligations.DamperCommands := by
  intro ld cmd s hw i kind p gi s'
  obtain ⟨hdmp, hcir, hpir, hcbs, hpbs⟩ := State.refillDue_dmp s
  obtain ⟨hlist, hgdmp, hnow⟩ := State.gateDue_keeps s p
  refine ⟨fun hi => ⟨fun hop => ?_, fun hop => ?_, fun hop => ?_⟩, fun hop => ?_, fun hop g d m hgate hentry => ?_, fun hop => ?_,
    fun hop => ?_⟩
  · refine ⟨_, congrArg Host.Outcome.next (State.polCmd_takes hw hi hop _), rfl, rfl, rfl, fun hnext => ?_, hdmp⟩
    have hnext' : (s.refillDue.policer kind i).next = none := hnext
    dsimp only
    rw [hnext']
    exact ⟨rfl, rfl⟩
  · intro cir pir cbs pbs
    refine ⟨fun h1 h2 h3 h4 h5 h6 => ⟨_, exec_dmpPolWrite hw hi hop ⟨h1, h2, h3, h4, h5, h6⟩, rfl, ?_, ?_⟩,
      fun hbad => ⟨_, exec_dmpPolWrite_refused hw hi hop hbad, rfl, rfl, rfl⟩⟩
    · exact congrArg Policer.next (State.policer_setPolicer s.refillDue kind i _)
    · exact (State.setPolicer_dmp ..).trans hdmp
  · refine ⟨_, congrArg Host.Outcome.next (State.polCmd_takes hw hi hop _), rfl, ?_, ?_⟩
    · exact State.policer_setPolicer s.refillDue kind i _
    · exact (State.setPolicer_dmp ..).trans hdmp
  · refine ⟨_, congrArg Host.Outcome.next (State.gateCmd_takes hw hop _), rfl, ?_⟩
    rw [State.port_setGateStatus, State.port_setPort, hgdmp]
    exact Tbl.look_put_self ..
  · exact ⟨_, exec_dmpGateReadEntry hw hop hgate hentry, rfl, rfl, congrArg (fun x => { s.gateDue p with dmp := x }) hgdmp.symm⟩
  · intro n g
    have hg : (s.gateDue p).gateRead p n = g := State.gateRead_due s p n
    refine ⟨fun hno => ?_, fun e he => ?_⟩
    · refine ⟨_, congrArg Host.Outcome.next ((State.gateCmd_takes hw hop _).trans (State.gateCommit_taken (by rw [hg]; exact hno))),
        rfl, ?_⟩
      rw [State.port_setGateStatus, State.port_setPort, hg, hnow]
    · exact ⟨_, congrArg Host.Outcome.next ((State.gateCmd_takes hw hop _).trans (State.gateCommit_refused (by rw [hg]; exact he))),
        rfl, rfl⟩
  · refine ⟨_, congrArg Host.Outcome.next (State.gateCmd_takes hw hop _), rfl, ?_⟩
    rw [State.port_setGateStatus, State.port_setPort, hnow]
    exact ⟨rfl, rfl⟩

end Machine
end Sys2Proof
end

section
/-! PROOFS. What the mailbox answers (R274, R278, R286, R290, R291, R404, R448, R474). -/

namespace Sys2Proof
namespace Machine

/-! ### What a command is answered -/

section
variable {s : State} {ld : Ld}

/-- R290: a standard command that only answers. -/
theorem standard_answered (h : s.takesStandard ld) {boot identify : Bool} {go : State → State} {out : List Byte}
    (hgo : go s = s.ok out) : Answered s (s.standard ld boot identify go) := by
  rw [State.standard_takes h, hgo]
  exact State.answered_ok s out

theorem standard_out (h : s.takesStandard ld) {boot identify : Bool} {go : State → State} {out : List Byte}
    (hgo : go s = s.ok out) : (s.standard ld boot identify go).resp.out = out := by
  rw [State.standard_takes h, hgo]
  rfl

/-- R278: a command about dynamic capacity reaches it on a head that is not in mode 1. -/
theorem State.dynamic_takes (h : s.takesStandard ld) (hmode : (s.cxp.head.get ld.head).mode ≠ 1) (go : State → State) :
    s.dynamic ld go = go s := by
  unfold State.dynamic
  rw [State.standard_takes h, if_neg hmode]

theorem dynamic_answered (h : s.takesStandard ld) (hmode : (s.cxp.head.get ld.head).mode ≠ 1) {go : State → State}
    {out : List Byte} (hgo : go s = s.ok out) : Answered s (s.dynamic ld go) := by
  rw [State.dynamic_takes h hmode, hgo]
  exact State.answered_ok s out

theorem State.fwCmd_takes (h : s.takesStandard ld) (hlcs : s.sec.lcs ≠ .scrapped) (go : State → State) :
    s.fwCmd ld go = go s := by
  unfold State.fwCmd
  rw [State.standard_takes h, if_neg (by simpa using hlcs)]

/-- R291: a vendor command that only answers. -/
theorem vendor_said (h : s.takesVendor ld) {any boot : Bool} {go : State → State} {st : Status} {d : Nat} {out : List Byte}
    (hgo : go s = s.say st d out) :
    Said st s (s.vendor ld go any boot) ∧ (s.vendor ld go any boot).resp.out = out := by
  rw [State.vendor_takes h, hgo]
  exact ⟨State.said_say s st d out, rfl⟩

/-- R474: a vendor command that an LD without the privilege may give too. -/
theorem State.vendor_any (h : s.takesStandard ld) (hheld : s.gbl.held = false) (hwarm : s.gbl.warming = false)
    (hstop : s.gbl.stopped = false) (go : State → State) : s.vendor ld go true = go s := by
  obtain ⟨hreach, hfw, hide⟩ := h
  simp [State.vendor, State.mailboxReady, hreach, hfw, hide, hheld, hwarm, hstop]

end

/-! ### Commands that only read -/

/-- R291: the state of a background operation is told. -/
theorem backgroundStatus_answered {s : State} {ld : Ld} (h : s.takesStandard ld) :
    ∃ t, exec (.backgroundOperationStatus ld) s = .next t ∧ Answered s t := by
  refine ⟨_, rfl, ?_⟩
  rw [State.standard_takes h]
  dsimp only
  split <;> exact State.answered_ok ..

section
variable {s : State} {ld : Ld} (h : s.takesStandard ld)
include h

/-- R290: the standard commands that read. -/
theorem standardReads (log : EvLog) (off len : Nat) : ∀ c ∈ [Instr.identifyMemoryDevice ld, .getSupportedLogs ld, .getLog ld off len,
      .getEventRecords ld log, .getEventInterruptPolicy ld, .getTimestamp ld, .backgroundOperationStatus ld],
    ∃ t, exec c s = .next t ∧ Answered s t := by
  simp only [List.forall_mem_cons, List.not_mem_nil, false_imp_iff, implies_true, and_true]
  exact ⟨⟨_, rfl, standard_answered h rfl⟩, ⟨_, rfl, standard_answered h rfl⟩, ⟨_, rfl, standard_answered h rfl⟩,
    ⟨_, rfl, standard_answered h rfl⟩, ⟨_, rfl, standard_answered h rfl⟩, ⟨_, rfl, standard_answered h rfl⟩,
    backgroundStatus_answered h⟩

omit h in
/-- R291: the vendor commands that read. -/
theorem vendorReads (hv : s.takesVendor ld) (off len : Nat) :
    (∀ i, i = 1 ∨ i = 2 → ∃ t, exec (.getVendorLog ld i off len) s = .next t ∧ Said St.ok s t) ∧
    (∃ t, exec (.getConfigurationBlock ld off len) s = .next t ∧ Said St.ok s t ∧ t.resp.out = (s.cfgBlock.drop off).take len) ∧
    (∃ t, exec (.getStartUpReport ld) s = .next t ∧ Said St.ok s t ∧ t.resp.out = s.startUpReport) ∧
    (∀ die, die ≤ 1 → ∃ t, exec (.getAdmission ld die) s = .next t ∧ Said St.ok s t) ∧
    (∀ die cls, die ≤ 1 → 1 ≤ cls → cls ≤ 11 → s.sec.confidential = false →
      ∃ t, exec (.readStallHistogram ld die cls) s = .next t ∧ Said St.ok s t) := by
  refine ⟨fun i hi => ⟨_, rfl, ?_⟩, ⟨_, rfl, vendor_said hv rfl⟩, ⟨_, rfl, vendor_said hv rfl⟩, fun die hdie => ⟨_, rfl, ?_⟩,
    fun die cls hdie hlow hhigh hconf => ⟨_, rfl, ?_⟩⟩
  · rw [State.vendor_takes hv]
    obtain rfl | rfl := hi
    · exact State.said_say ..
    · exact State.said_say ..
  · rw [State.vendor_takes hv]
    dsimp only
    rw [if_neg (by omega)]
    exact State.said_say ..
  · rw [State.vendor_takes hv]
    dsimp only
    rw [if_neg (by simp [hconf]), if_neg (by simp only [Bool.or_eq_true, decide_eq_true_eq]; omega)]
    exact State.said_say ..

/-- R474: the commands about traces and counters that an LD may watch. -/
theorem watchReads (hheld : s.gbl.held = false) (hwarm : s.gbl.warming = false) (hstop : s.gbl.stopped = false) :
    (∀ die first count, die ≤ 1 → 1 ≤ count → count ≤ 32768 → first + count ≤ traceSlots →
      s.mayWatch ld s.tel.ctx.toNat = true → ∃ t, exec (.readTrace ld die first count) s = .next t ∧ Said St.ok s t) ∧
    (∀ c first count, c < 4096 → (s.ctx c).state = .active → s.mayWatch ld c = true → 1 ≤ count → first + count ≤ 256 →
      ∃ t, exec (.readContextCounters ld c first count) s = .next t ∧ Said St.ok s t ∧
        t.resp.out = (List.range count).flatMap (fun i => ((s.ctx c).counters.lookD (first + i) {}).bytes s.now.toNat)) := by
  refine ⟨fun die first count hdie hone hmax hslots hwatch => ⟨_, rfl, ?_⟩,
    fun c first count hc hactive hwatch hone hmax => ⟨_, rfl, ?_⟩⟩
  · rw [State.vendor_any h hheld hwarm hstop]
    dsimp only
    rw [if_neg (by simp only [Bool.or_eq_true, decide_eq_true_eq]; omega), if_neg (by simp [hwatch])]
    exact State.said_say ..
  · rw [State.vendor_any h hheld hwarm hstop]
    unfold State.readCounters
    rw [if_neg (by simp only [Bool.or_eq_true, decide_eq_true_eq, hactive]; simp; omega), if_neg (by simp [hwatch]),
      if_neg (by simp only [Bool.and_eq_true, decide_eq_true_eq]; omega),
      if_neg (by simp only [Bool.or_eq_true, decide_eq_true_eq]; omega)]
    exact ⟨State.said_say .., rfl⟩

/-! ### Standard commands that set something -/

/-- R291: the overflow count of a log goes when it is cleared. -/
def LdState.cleared (x : LdState) (log : EvLog) : LdState := { x with overflow := x.overflow.del (logNo log) }

omit h in
theorem LdState.log_setLog (x : LdState) (log : EvLog) (l : List EvRec) : (x.setLog log l).log log = l := by
  cases log <;> rfl

theorem exec_clearEventRecords_all (log : EvLog) : exec (.clearEventRecords ld log []) s =
    .next (s.setLd ld (((s.ld ld).cleared log).setLog log [])).ok :=
  congrArg Host.Outcome.next (State.standard_takes h ..)

/-- R291: records named by their handles are cleared. -/
theorem exec_clearEventRecords {log : EvLog} {hs : List Nat} (hne : hs ≠ [])
    (hknown : ∀ x, x ∈ hs → ∃ r, r ∈ (s.ld ld).log log ∧ r.handle = x) : exec (.clearEventRecords ld log hs) s =
      .next (s.setLd ld (((s.ld ld).cleared log).setLog log
        (((s.ld ld).log log).filter (fun r => !(hs.contains r.handle))))).ok := by
  have hlog : ∀ x : LdState, (x.cleared log).log log = x.log log := fun x => by cases log <;> rfl
  refine congrArg Host.Outcome.next ((State.standard_takes h ..).trans ?_)
  show (if hs.isEmpty then _ else if hs.all (fun x => (((s.ld ld).cleared log).log log).any (fun r => r.handle == x)) then
    State.ok (s.setLd ld (((s.ld ld).cleared log).setLog log
      ((((s.ld ld).cleared log).log log).filter (fun r => !(hs.contains r.handle))))) else _) = _
  rw [hlog, if_neg (by simpa using hne), if_pos]
  simp only [List.all_eq_true, List.any_eq_true, beq_iff_eq]
  exact hknown

theorem exec_clearPoison {dpa : Nat} {data : List (BitVec 8)} (hlen : data.length = 64) (hal : dpa % 64 = 0)
    (hp : s.poisonable ld dpa = true) : exec (.clearPoison ld dpa data) s = .next (s.poke dpa data).ok := by
  refine congrArg Host.Outcome.next ((State.standard_takes h ..).trans ?_)
  rw [if_neg (by simp [hlen, hal]), if_neg (by simp [hp])]

theorem exec_injectPoison {dpa : Nat} (hal : dpa % 64 = 0) (hp : s.poisonable ld dpa = true) (hdebug : s.sec.debugOpen = true) :
    exec (.injectPoison ld dpa) s = .next ({ s with mem := s.mem.poisonLine (dpa / 64) } : State).ok := by
  refine congrArg Host.Outcome.next ((State.standard_takes h ..).trans ?_)
  rw [if_neg (by simp [hdebug]), if_neg (by omega), if_neg (by simp [hp])]

/-- R278: extents offered that no other LD holds are taken. -/
theorem exec_addDcResponse (hmode : (s.cxp.head.get ld.head).mode ≠ 1) {es : List (Nat × Nat)}
    (hes : ∀ e, e ∈ es → e ∈ (s.ld ld).offered ∧ s.heldElsewhere ld e = false)
    (hroom : (s.ld ld).extents.length + es.length ≤ maxExtents) : exec (.addDcResponse ld es) s =
      .next (s.setLd ld { s.ld ld with
        extents := (s.ld ld).extents ++ es.map (fun e => { base := e.1, len := e.2 }), offered := [] }).ok := by
  have hall : es.all (fun e => (s.ld ld).offered.contains e) = true := by
    simp only [List.all_eq_true, List.contains_iff_mem]
    exact fun e he => (hes e he).1
  have hany : es.any (s.heldElsewhere ld) = false := by
    simp only [List.any_eq_false, Bool.not_eq_true]
    exact fun e he => (hes e he).2
  refine congrArg Host.Outcome.next ((State.dynamic_takes h hmode _).trans ?_)
  dsimp only
  rw [hall, hany, if_neg (by simp), if_neg (by omega)]

/-- R279: an extent that no line and no request of its LD holds leaves at once. -/
theorem exec_releaseDynamicCapacity (hmode : (s.cxp.head.get ld.head).mode ≠ 1) {e : Extent}
    (hfind : (s.ld ld).extents.find? (fun x => x.base == e.base) = some e) (hopen : e.closing = false)
    (hleave : s.mayLeave ld e = true) : exec (.releaseDynamicCapacity ld e.base e.len) s =
      .next (s.setLd ld { s.ld ld with extents := (s.ld ld).extents.filter (fun y => y.base != e.base) }).ok := by
  refine congrArg Host.Outcome.next ((State.dynamic_takes h hmode _).trans ?_)
  dsimp only
  rw [if_pos]
  · unfold State.closeExtent
    dsimp only
    rw [hfind]
    dsimp only
    rw [if_pos hleave]
    rfl
  · rw [List.any_eq_true]
    exact ⟨e, List.mem_of_find?_eq_some hfind, by simp [hopen]⟩

/-! ### Vendor commands refused -/

theorem vendor_refused (hm : s.manager ld = false) (go : State → State) : Said St.access s (s.vendor ld go) := by
  rw [State.vendor_access h hm]
  exact State.said_say ..

/-- R274: the vendor commands, which an LD that is no MANAGER may not give. -/
theorem vendorAccess (hm : s.manager ld = false) (c n m e i : Nat) (w v : BitVec 64) (b1 : BitVec 16) (b2 : BitVec 128) (op : Nat)
    (data : BitVec 256) : ∀ k ∈ [Instr.setEvent ld c e op v, .createContext ld c b1 n v w, .setContext ld c b1 n v w,
      .rotateContextKey ld c, .poolFillCommand ld c v w v, .deregisterProfile ld n, .deregisterImage ld i, .setClass ld n m e,
      .setAdmission ld n m, .releaseBooking ld n, .setMode ld n, .getConfigurationBlock ld n m, .deleteWeightObject ld v,
      .setMacsecCak ld n b2 data], ∃ t, exec k s = .next t ∧ Said St.access s t := by
  have hrefused := fun go => vendor_refused h hm go
  simp only [List.forall_mem_cons, List.not_mem_nil, false_imp_iff, implies_true, and_true]
  refine ⟨?_, ?_, ?_, ?_, ?_, ?_, ?_, ?_, ?_, ?_, ?_, ?_, ?_, ?_⟩
  all_goals exact ⟨_, rfl, hrefused _⟩

end

/-- R404: a vendor command about a context that is not ACTIVE. -/
theorem vendorCtx_refused {s : State} {ld : Ld} {c : Nat} (hv : s.takesVendor ld) (hlcs : s.sec.lcs = .deployed) (hc : c < 4096)
    (go : State → State) : ((s.ctx c).state = .free → Said St.badOperand s (s.vendorCtx ld c go)) ∧
      ((s.ctx c).state = .retiring → Said St.busy s (s.vendorCtx ld c go)) := by
  unfold State.vendorCtx
  rw [State.vendor_takes hv, if_neg (by simp [hlcs])]
  refine ⟨fun hfree => ?_, fun hret => ?_⟩
  · rw [if_pos (by simp [hfree])]
    exact State.said_say ..
  · rw [if_neg (by simp [hret, Nat.not_le.mpr hc]), if_pos (by simp [hret])]
    exact State.said_say ..

/-- Settles O43: a command that is taken does its work (`State.standard_takes`, `State.vendor_takes`), and its work is an
answer, or a setting and an answer. -/
theorem mailboxServed : Obligations.MailboxServed := by
  refine ⟨fun ld s h => ⟨standardReads h, ⟨_, rfl, standard_out h rfl⟩, ⟨_, rfl, standard_out h rfl⟩, fun base len hb hl => ?_,
      fun hmode start count => ⟨⟨_, rfl, dynamic_answered h hmode rfl⟩, ⟨_, rfl, dynamic_answered h hmode rfl⟩⟩,
      fun hlcs => ⟨_, rfl, ?_⟩, fun hv => vendorReads hv, fun hheld hwarm hstop => watchReads h hheld hwarm hstop⟩,
    fun ld s h => ⟨fun p => ?_, fun v => ?_, fun log => ?_, fun log hs hne hknown => ?_,
      fun dpa data hlen hal hp => exec_clearPoison h hlen hal hp, fun dpa hal hp hd => exec_injectPoison h hal hp hd,
      fun dpa hd => ?_, fun hmode => ⟨fun es hes hroom => ?_, fun e hfind hopen hleave => ?_⟩, fun r hr => ?_, fun hno => ?_⟩,
    fun ld s h => ⟨fun hm c w v n m b1 b2 e op i data => vendorAccess h hm c n m e i w v b1 b2 op data, fun hv hlcs c e op v hc => ?_⟩⟩
  · exact ⟨_, rfl, standard_answered h (if_neg (by simp [hb, hl]))⟩
  · rw [State.fwCmd_takes h hlcs]
    exact State.answered_ok ..
  · refine ⟨_, congrArg Host.Outcome.next (State.standard_takes h ..), ?_, rfl, fun l hl => ?_, fun _ => rfl⟩
    · exact congrArg LdState.evPolicy (State.ld_setLd s ld _)
    · exact State.ld_setLd_ne s _ hl
  · refine ⟨_, congrArg Host.Outcome.next (State.standard_takes h ..), ?_, rfl, fun _ => rfl⟩
    exact congrArg LdState.stamp (State.ld_setLd s ld _)
  · refine ⟨_, exec_clearEventRecords_all h log, ?_, rfl⟩
    exact (congrArg (fun x : LdState => x.log log) (State.ld_setLd s ld _)).trans (LdState.log_setLog ..)
  · refine ⟨_, exec_clearEventRecords h hne hknown, rfl, ?_⟩
    exact (congrArg (fun x : LdState => x.log log) (State.ld_setLd s ld _)).trans (LdState.log_setLog ..)
  · exact ⟨_, congrArg Host.Outcome.next ((State.standard_takes h ..).trans (if_pos (by simp [hd]))), rfl, fun _ => rfl⟩
  · refine ⟨_, exec_addDcResponse h hmode hes hroom, ?_, ?_⟩
    · exact congrArg LdState.offered (State.ld_setLd s ld _)
    · exact congrArg LdState.extents (State.ld_setLd s ld _)
  · refine ⟨_, exec_releaseDynamicCapacity h hmode hfind hopen hleave, rfl, ?_⟩
    exact congrArg LdState.extents (State.ld_setLd s ld _)
  · refine ⟨(s.setLd ld ((s.ld ld).bgEnd r St.cancelled 0)).ok, congrArg Host.Outcome.next ((State.standard_takes h ..).trans ?_), ?_⟩
    · dsimp only
      rw [hr]
    · exact congrArg LdState.bgRun (State.ld_setLd s ld _)
  · refine ⟨s.ok, congrArg Host.Outcome.next ((State.standard_takes h ..).trans ?_), State.answered_ok ..⟩
    dsimp only
    rw [hno]
  · exact ⟨fun hfree => ⟨_, rfl, (vendorCtx_refused hv hlcs hc _).1 hfree⟩, fun hret => ⟨_, rfl, (vendorCtx_refused hv hlcs hc _).2 hret⟩⟩

end Machine
end Sys2Proof
end

section
/-! PROOFS. The life of a context (R376, R377, R385, R388, R402, R520). -/

namespace Sys2Proof
namespace Machine

/-! ### What leaves every context but its charge and its counters -/

namespace Charged
variable {s0 s t : State}

theorem ite {c : Prop} [Decidable c] {a b : State} (ha : Charged s0 a) (hb : Charged s0 b) : Charged s0 (if c then a else b) := by
  split
  · exact ha
  · exact hb

theorem foldl {β : Type} {f : State → β → State} {l : List β} (h : Charged s0 s)
    (hf : ∀ t x, Charged s0 t → Charged s0 (f t x)) : Charged s0 (l.foldl f s) := by
  induction l generalizing s with
  | nil => exact h
  | cons x xs ih => exact ih (hf s x h)

theorem trans (h : Charged s0 s) (h' : Charged s t) : Charged s0 t := fun c => (h' c).trans (h c)

theorem pages (h : Charged s0 s) (h' : PagesOnly s t) : Charged s0 t := h.trans h'.charged

/-- What touches no context. -/
theorem same (h : Charged s0 s) (h' : t.ctxs = s.ctxs) : Charged s0 t := fun c => by
  rw [State.ctx_congr h' c]
  exact h c

theorem ringList (h : Charged s0 s) (c : Nat) : (s.ctx c).ringList = (s0.ctx c).ringList := (congrArg Ctx.ringList (h c) :)

variable (hs : Charged s0 s)
include hs

theorem releaseSeq {k} : Charged s0 (s.releaseSeq k) := by
  unfold State.releaseSeq
  refine same ?_ rfl
  refine foldl hs fun _ l hk => foldl hk fun _ e hk => .ite ?_ hk
  have hkeep : ∀ {u : State} {h up}, Charged s0 u → Charged s0 (u.keep h up) := fun h => h
  exact pages (.ite (hkeep hk) hk) (PagesOnly.refl _).releaseRef

theorem winFail {i} : Charged s0 (s.winFail i) := by
  unfold State.winFail
  split
  · exact hs
  · exact .ite hs (same hs (State.count_ctxs ..))

theorem deleteObj {k} : Charged s0 (s.deleteObj k) := by
  unfold State.deleteObj State.winFailAll
  refine same ?_ rfl
  exact foldl (foldl hs fun _ _ hk => hk.winFail) fun _ _ hk => .ite (hk.pages (PagesOnly.refl _).freePage) hk

theorem sendSnoops {ls} : Charged s0 (s.sendSnoops ls) := by
  have hsnoop : ∀ {u : State} {h ls m c}, Charged s0 u → Charged s0 (u.snoop h ls m c) := fun hu =>
    hu.same (State.count_ctxs ..)
  exact hsnoop (hsnoop hs)

theorem endDeleting : Charged s0 s.endDeleting := hs

theorem deleteShared {i asked} : Charged s0 (s.deleteShared i asked) := by
  unfold State.deleteShared
  split
  · exact hs
  · extract_lets mark x s1 ls
    have h1 : Charged s0 s1 := hs
    exact endDeleting (sendSnoops h1)

theorem retireObjects {c} : Charged s0 (s.retireObjects c) := by
  unfold State.retireObjects
  exact foldl (foldl (foldl hs fun _ _ hk => hk.releaseSeq) fun _ _ hk => hk.deleteObj) fun _ _ hk => hk.deleteShared

theorem retirePages {c} : Charged s0 (s.retirePages c) := by
  unfold State.retirePages
  exact same (foldl hs fun _ _ hk => hk.pages (PagesOnly.refl _).dropPage) rfl

theorem recheck : Charged s0 s.recheck := hs.same (SentOnly.refl s).recheck.ctxs

end Charged

/-! ### Creation and change -/

/-- R376: a command that needs entropy draws it where there is some. -/
theorem State.needKey_takes {s : State} (h : s.sec.entropyFail = false) (go : Nat → State → State) :
    s.needKey go = go s.sec.drbg s.draw.2 := by
  unfold State.needKey
  rw [h]
  rfl

/-- R376: a context as Create Context makes it. -/
def newCtx (s : State) (c : Nat) (rights : BitVec 16) (domain : Nat) (quota mask : BitVec 64) : Ctx :=
  { state := .active, keySet := [(0, s.sec.drbg)], rights := rights, domain := BitVec.ofNat 12 domain, quota := quota
    chkMask := mask, created := s.now, bind := (s.ctx c).bind }

theorem createContext_makes {s : State} {c : Nat} {rights : BitVec 16} {domain : Nat} {mask : BitVec 64} (quota : BitVec 64)
    (hlcs : s.sec.lcs = .deployed) (hfields : ctxFieldBad c rights domain none = false) (hfree : (s.ctx c).state = .free)
    (hmask : s.maskTaken c mask = false) (hpersist : s.persistBad rights = false) (hent : s.sec.entropyFail = false) :
    ∃ u : State, s.createContext c rights domain quota mask = u.say St.ok ∧
      u.ctxs = s.ctxs.put c (newCtx s c rights domain quota mask) ∧ u.sec.ctxMade = true ∧ u.mem = s.mem := by
  unfold State.createContext
  rw [hlcs, hfields, hfree, hmask, hpersist, State.needKey_takes hent]
  exact ⟨_, rfl, rfl, rfl, rfl⟩

/-- R402: a unit that is not held stays out of the table while others are put elsewhere. -/
theorem Tbl.look_foldl_put {α β : Type} {u : Nat} {f : Tbl α → β → Tbl α} (l : List β)
    (hf : ∀ m e, e ∈ l → m.look u = none → (f m e).look u = none) (m : Tbl α) (h : m.look u = none) :
    (l.foldl f m).look u = none := by
  induction l generalizing m with
  | nil => exact h
  | cons e es ih =>
    exact ih (fun m e he => hf m e (List.mem_cons_of_mem _ he)) _ (hf m e List.mem_cons_self h)

/-- R357: the units that a context leaves are free. -/
theorem State.leaveUnits_look {s : State} {c u : Nat} {gone : BitVec 64} (hu : u < 64) (hgone : gone.getLsbD u = true) :
    (s.leaveUnits c gone).chk.look u = none := by
  unfold State.leaveUnits State.clearUnits
  dsimp only
  refine Tbl.look_foldl_put _ (fun m e _ hm => ?_) _ ?_
  · rw [Tbl.look_put_ne _ _ (by unfold keptUnit; omega)]
    exact hm
  · rw [Tbl.look_keep _ (fun u => !(decide (u < 64) && gone.getLsbD u)), hgone]
    simp [hu]

/-- R357: units that come back are those asked for. -/
theorem State.returnUnits_look {s : State} {c u : Nat} {back : BitVec 64} (hback : back.getLsbD u = false)
    (h : s.chk.look u = none) : (s.returnUnits c back).chk.look u = none := by
  unfold State.returnUnits
  dsimp only
  refine Tbl.look_foldl_put _ (fun m e he hm => ?_) _ h
  have hin := (List.mem_filter.mp he).2
  have hne : u ≠ e.1 % 64 := by
    rintro rfl
    simp [hback] at hin
  rw [Tbl.look_put_ne _ _ hne, Tbl.look_del]
  split
  · rfl
  · exact hm

section
variable {s : State} {c : Nat} {rights : BitVec 16} {domain : Nat} {mask : BitVec 64} (quota : BitVec 64)

/-- R377: a context whose domain stays is changed. -/
theorem setContext_changes (hlcs : s.sec.lcs = .deployed) (hactive : (s.ctx c).state = .active)
    (hfields : ctxFieldBad c rights domain (some ((s.ctx c).rights.getLsbD 5)) = false) (hmask : s.maskTaken c mask = false)
    (hpersist : s.persistBad rights = false) (hdomain : domain = (s.ctx c).domain.toNat) :
    s.setContext c rights domain quota mask =
      ((((s.leaveUnits c ((s.ctx c).chkMask &&& ~~~mask)).returnUnits c (mask &&& ~~~(s.ctx c).chkMask)).setCtx c
        { s.ctx c with rights := rights, domain := BitVec.ofNat 12 domain, quota := quota, chkMask := mask }).say St.ok) := by
  subst hdomain
  have hnow : (if (s.ctx c).state == .free then none else some ((s.ctx c).rights.getLsbD 5)) =
      some ((s.ctx c).rights.getLsbD 5) := if_neg (by simp [hactive])
  unfold State.setContext
  dsimp only
  rw [hlcs, if_neg (by simp), hnow, hfields, if_neg (by simp), if_neg (by simp [hactive]), if_neg (by simp [hactive]), hmask,
    if_neg (by simp), hpersist, if_neg (by simp)]
  simp only [ne_eq, not_true_eq_false, if_false]
  rfl

end

/-! ### Rotation -/

/-- R385: a context whose key is rotated. -/
def Ctx.rotated (x : Ctx) (n : Nat) : Ctx :=
  { x with present := x.present + 1, old := x.present, oldLive := true, sweeping := true
           keySet := x.keySet.put (x.present + 1).toNat n }

theorem rotate_takes {s : State} {c : Nat} (hold : (s.ctx c).oldLive = false) (hent : s.sec.entropyFail = false) :
    s.rotate c = (s.draw.2.setCtx c ((s.ctx c).rotated s.sec.drbg)).say St.ok 0
      (leBytes 1 ((s.ctx c).present + 1).toNat) := by
  unfold State.rotate
  dsimp only
  rw [hold, if_neg (by simp), State.needKey_takes hent]
  rfl

section
variable {s : State} {c : Nat} (hactive : (s.ctx c).state = .active) (hsweep : (s.ctx c).sweeping = true)
  (hlive : s.live = true) (hpower : s.pkg.powerWarn = false)
include hactive hsweep hlive hpower

/-- R388: the sweep of a rotation re-keys the next page. -/
theorem exec_keySweepStep_page {h : Nat} (hnext : s.sweepNext c (s.ctx c).old = some h) :
    exec (.keySweepStep c) s = .next (s.sweepPage h (s.ctx c).present) := by
  refine congrArg Host.Outcome.next ?_
  unfold State.keySweep
  dsimp only
  rw [hactive, hsweep, hlive, hpower, if_neg (by simp), hnext]

/-- R388: a sweep that finds nothing more ends the rotation. -/
theorem exec_keySweepStep_ends (hnext : s.sweepNext c (s.ctx c).old = none) (hreading : s.reading c = false)
    (hblocks : s.oldBlocks c (s.ctx c).old = []) (hwest : s.oldRecords .west c (s.ctx c).old = [])
    (heast : s.oldRecords .east c (s.ctx c).old = [])
    (hpages : ∀ p, p ∈ s.pages.vals → p.oldEpoch c (s.ctx c).old = false) :
    exec (.keySweepStep c) s = .next (s.endRotation c) := by
  have hany : s.pages.vals.any (fun p => p.oldEpoch c (s.ctx c).old) = false := by
    simp only [List.any_eq_false, Bool.not_eq_true]
    exact hpages
  refine congrArg Host.Outcome.next ?_
  unfold State.keySweep
  dsimp only
  rw [hactive, hsweep, hlive, hpower, if_neg (by simp), hnext]
  dsimp only
  rw [hblocks, hwest, heast]
  dsimp only
  rw [hany, hreading, if_neg (by simp)]

end

theorem State.endRotation_ctx (s : State) (c : Nat) : ((s.endRotation c).ctx c).oldLive = false ∧
    ((s.endRotation c).ctx c).sweeping = false ∧ ((s.endRotation c).ctx c).keySet = (s.ctx c).keySet.del (s.ctx c).old.toNat := by
  unfold State.endRotation
  dsimp only
  rw [State.count_ctx, State.ctx_setCtx_self]
  exact ⟨rfl, rfl, rfl⟩

/-! ### Retirement -/

/-- R404: what is left of a context that retires goes; its rings are told. -/
theorem State.retireRest_ringList {s : State} {c : Nat} (hdown : s.linksDown c = true) :
    ((s.retireRest c).ctx c).ringList.isSome = true := by
  unfold State.retireRest
  extract_lets s1 x s2 s3 s4 s5 gs m
  by_cases hlist : (s.ctx c).ringList.isSome = true
  · rw [if_pos (by simp [hlist])]
    exact hlist
  · rw [if_neg (by simp [hdown, hlist])]
    have h4 : Charged s2 s4 := Charged.recheck (Charged.same (fun _ => rfl) rfl)
    have h5 : Charged s2 s5 := h4.retireObjects.retirePages
    have hset : (s2.ctx c).ringList.isSome = true := by
      show ((State.setCtx ..).ctx c).ringList.isSome = true
      rw [State.ctx_setCtx_self]
      rfl
    rw [← h5.ringList c] at hset
    clear_value s5
    exact hset

/-- R404: a context whose list is told has nothing left. -/
theorem State.retireRest_done {s : State} {c : Nat} (h : (s.ctx c).ringList.isSome = true) : s.retireRest c = s :=
  if_pos (by simp [h])

theorem State.dropGranule_ctxs (s : State) (g : Nat) : (s.dropGranule g).ctxs = s.ctxs := by
  unfold State.dropGranule
  split
  · rfl
  · exact State.freeFrame_ctxs ..

/-- R404: what becomes of the part when a context is FREE. -/
def State.retireFreed (s : State) (c : Nat) : State :=
  let x := s.ctx c
  let gs := (s.mem.granules.filter (fun p => p.2.1 == c)).map (·.1)
  let s := gs.foldl State.dropGranule s
  let s := { s with mem := { s.mem with filling := s.mem.filling.filter (fun g => !(gs.contains g)) } }
  let s := (s.freeKeys c).clearUnits x.chkMask
  let s := { s with chk := s.chk.keep (fun u _ => !(decide (keptUnit c 0 ≤ u) && decide (u < keptUnit c 64))) }
  (s.setCtx c { ringList := x.ringList }).say St.ok 0 (ringListBytes (x.ringList.getD []))

theorem State.retireFreed_ctxs (s : State) (c : Nat) :
    (s.retireFreed c).ctxs = s.ctxs.put c { ringList := (s.ctx c).ringList } := by
  refine congrArg (fun x : Tbl Ctx => x.put c { ringList := (s.ctx c).ringList }) ?_
  exact foldl_keeps State.ctxs State.dropGranule State.dropGranule_ctxs _ _

theorem State.retireFreed_keys {s : State} {c : Nat} {k : Key} (h : k ∈ (s.retireFreed c).flu.keys.vals) : k.ctx ≠ c := by
  obtain ⟨p, hp, rfl⟩ := List.mem_map.mp h
  simpa using (List.mem_filter.mp hp).2

/-- R404: the context is FREE, its granules and its keys gone, its rings told. -/
theorem exec_retireComplete {s : State} {c : Nat} (hret : (s.ctx c).state = .retiring) (hrecs : ∀ r, r ∈ s.jrn.recs → r.ctx ≠ c)
    (hdown : s.linksDown c = true) (hlive : s.live = true) (hshared : (s.retireRest c).sharedLeft c = false) :
    exec (.retireComplete c) s = .next ((s.retireRest c).retireFreed c) := by
  have hrecs' : s.jrn.recs.any (fun r => r.ctx == c) = false := by
    simp only [List.any_eq_false, beq_iff_eq]
    exact hrecs
  refine congrArg Host.Outcome.next ?_
  unfold State.retireDone
  rw [if_neg (by simp [hret, hrecs', hdown, hlive])]
  generalize s.retireRest c = u at hshared ⊢
  exact if_neg (by rw [hshared]; simp)

/-- Settles O44: the equation of each command; what retirement leaves of contexts is `Charged`. -/
theorem contextLife : Obligations.ContextLife := by
  intro ld c s
  refine ⟨fun rights domain quota mask hv hlcs hfields hfree hmask hpersist hent => ?_,
    fun rights domain quota mask hv hfields hmask hpersist hdomain => ?_, fun hv hold hent => ?_, fun hv hold => ?_,
    fun hactive hsweep hlive hpower => ⟨fun h hnext => exec_keySweepStep_page hactive hsweep hlive hpower hnext,
      fun hnext hreading hblocks hwest heast hpages => ?_⟩, fun hv => ?_, fun hret hrecs hdown hlive hshared => ?_⟩
  · obtain ⟨u, hu, hctxs, hmade, hmem⟩ := createContext_makes quota hlcs hfields hfree hmask hpersist hent
    have hc : (u.say St.ok).ctx c = newCtx s c rights domain quota mask := by
      rw [State.ctx]
      exact (congrArg (fun x : Tbl Ctx => x.lookD c {}) hctxs).trans (Tbl.lookD_put_self ..)
    refine ⟨_, congrArg Host.Outcome.next ((State.vendor_takes hv _ _ _).trans hu), rfl, ?_⟩
    rw [hc]
    refine ⟨rfl, rfl, rfl, rfl, rfl, rfl, rfl, rfl, fun c' hne => ?_, hmade, SameMemory.of_cells (congrArg Mem.cells hmem)⟩
    exact (congrArg (fun x : Tbl Ctx => x.lookD c' {}) hctxs).trans (Tbl.lookD_put_ne _ _ _ hne)
  · obtain ⟨hv', hlcs, -, hactive⟩ := hv
    refine ⟨_, congrArg Host.Outcome.next ((State.vendor_takes hv' _ _ _).trans
      (setContext_changes quota hlcs hactive hfields hmask hpersist hdomain)), rfl, ?_⟩
    have hc := State.ctx_setCtx_self (s := (s.leaveUnits c ((s.ctx c).chkMask &&& ~~~mask)).returnUnits c
      (mask &&& ~~~(s.ctx c).chkMask)) c { s.ctx c with
        rights := rights, domain := BitVec.ofNat 12 domain, quota := quota, chkMask := mask }
    refine ⟨(congrArg Ctx.state hc).trans hactive, congrArg Ctx.rights hc, congrArg Ctx.quota hc, congrArg Ctx.chkMask hc,
      fun u hheld hgone => ?_, fun _ => rfl⟩
    have hu : u < 64 := BitVec.lt_of_getLsbD hheld
    have hleft := State.leaveUnits_look (s := s) (c := c) (gone := (s.ctx c).chkMask &&& ~~~mask) hu (by
      rw [BitVec.getLsbD_and, BitVec.getLsbD_not, hheld, hgone]
      simp [hu])
    exact State.returnUnits_look (by rw [BitVec.getLsbD_and, hgone, Bool.false_and]) hleft
  · refine ⟨_, congrArg Host.Outcome.next ((State.vendorCtx_takes hv _).trans (rotate_takes hold hent)), rfl, ?_⟩
    have hc := State.ctx_setCtx_self (s := s.draw.2) c ((s.ctx c).rotated s.sec.drbg)
    exact ⟨congrArg Ctx.present hc, congrArg Ctx.old hc, congrArg Ctx.oldLive hc, congrArg Ctx.sweeping hc,
      fun c' hne => State.ctx_setCtx_ne _ _ hne, fun _ => rfl⟩
  · exact ⟨_, congrArg Host.Outcome.next ((State.vendorCtx_takes hv _).trans (if_pos hold)), State.said_say ..⟩
  · exact ⟨_, exec_keySweepStep_ends hactive hsweep hlive hpower hnext hreading hblocks hwest heast hpages,
      State.endRotation_ctx s c⟩
  · obtain ⟨-, -, -, hactive⟩ := id hv
    show Host.Outcome.next (match (s.ctx c).state, (s.ctx c).ringList with
      | .free, some _ => _
      | _, _ => s.vendorCtx ld c (fun s => s.retire c)) = _
    rw [hactive]
    dsimp only
    rw [State.vendorCtx_takes hv]
  · have hctxs := State.retireFreed_ctxs (s.retireRest c) c
    have hc : ((s.retireRest c).retireFreed c).ctx c = { ringList := ((s.retireRest c).ctx c).ringList } := by
      rw [State.ctx, hctxs, Tbl.lookD_put_self]
    refine ⟨_, exec_retireComplete hret hrecs hdown hlive hshared, ?_⟩
    rw [hc]
    refine ⟨rfl, rfl, State.retireRest_ringList hdown, rfl, fun k hk => State.retireFreed_keys hk, fun hlist => ?_⟩
    have hrest := State.retireRest_done (Option.isSome_iff_ne_none.mpr hlist)
    rw [hrest] at hctxs ⊢
    exact ⟨rfl, fun c' hne => by rw [State.ctx, hctxs, Tbl.lookD_put_ne _ _ _ hne]; rfl⟩

end Machine
end Sys2Proof
end

section
/-! PROOFS. Context resources (R46, R48, R64-R66, R190, R291). -/

namespace Sys2Proof
namespace Machine

/-- A part in which an instruction that waits for an event is the last user of a page without references. -/
def lastUser : State := { base with
  jrn := { recs := [{ ctx := 1, state := .issued, wait := some (.event 0 1 none), uses := [0] }] }
  pages := [(0, { kib := 64 })]
  mem := { cells := [(ctxSpaceEnd, 1)] } }

theorem lastUser_takes : lastUser.takesVendorCtx mgr 1 := by
  unfold State.takesVendorCtx State.takesVendor State.takesStandard
  decide

theorem lastUser_byte : lastUser.mem.byte ctxSpaceEnd = 1 := by decide

/-- R46, R85: Set Event completes the instruction, and the page that it used last is freed, its bytes with it. -/
theorem setEvent_lastUser_byte : (stateAfter lastUser (exec (.setEvent mgr 1 0 1 1) lastUser)).mem.byte ctxSpaceEnd = 0 := by
  decide +kernel

/-- Refutes O45: Set Event may change memory. An instruction that waits for the event completes, and where it was the last
user of a page without references that page is freed, so that its view reads zero (`lastUser`). -/
theorem not_contextResources : ¬ Obligations.ContextResources := by
  intro h
  obtain ⟨-, -, -, -, -, -, hevent, -⟩ := h mgr 1 lastUser
  obtain ⟨t, hexec, -, -, hsame⟩ := hevent 0 1 1 lastUser_takes (by decide) (by decide)
  have hbyte := hsame ctxSpaceEnd
  have hzero := setEvent_lastUser_byte
  rw [hexec, stateAfter, hbyte, lastUser_byte] at hzero
  exact absurd hzero (by decide)

end Machine
end Sys2Proof
end

section
/-! PROOFS. The SPDM flow of a head (R389-R391) and the requests of a session (R295, R375, R384). -/

namespace Sys2Proof
namespace Machine

section
variable {s : State} {hd : Side}

/-- R389, R432: a request that reaches the responder does its work. -/
theorem State.doe_takes (h : s.takesFm hd) (go : State → State) : s.doe hd go = go s := by
  obtain ⟨hreach, hup, hfw, hheld, hwarm, hstop⟩ := h
  simp [State.doe, hreach, hup, hfw, hheld, hwarm, hstop]

/-- R389: a request in a state that the flow allows does its work. -/
theorem State.spdmIn_takes (h : s.takesFm hd) {allowed : List SpdmState} (hst : (s.sec.spdm.get hd).state ∈ allowed)
    (go : State → State) : s.spdmIn hd allowed go = go s :=
  (State.doe_takes h _).trans (if_pos (by simpa using hst))

/-- R389: a request in another state is an error. -/
theorem State.spdmIn_error (h : s.takesFm hd) {allowed : List SpdmState} (hst : (s.sec.spdm.get hd).state ∉ allowed)
    (go : State → State) : s.spdmIn hd allowed go = s.no .invalidInput :=
  (State.doe_takes h _).trans (if_neg (by simpa using hst))

/-- R404: a request inside a secure session does its work. -/
theorem State.secure_takes (h : s.takesSecure hd) (go : State → State) : s.secure hd go = go s :=
  State.spdmIn_takes h.1 (List.mem_singleton.mpr h.2) go

theorem State.spdm_setSpdm (s : State) (hd : Side) (x : Spdm) : (s.setSpdm hd x).sec.spdm.get hd = x :=
  Two.get_set_self ..

theorem State.head_setHead (s : State) (hd : Side) (x : HeadState) : (s.setHead hd x).cxp.head.get hd = x :=
  Two.get_set_self ..

/-- R389-R391: what is answered once algorithms are agreed. -/
theorem spdmReads (h : s.takesFm hd) (hst : (s.sec.spdm.get hd).state ∈ spdmOpenStates) (off len : Nat) (n : BitVec 256) :
    (∃ t, exec (.spdmGetDigests hd) s = .next t ∧ Answered s t) ∧
    (∃ t, exec (.spdmGetCertificate hd off len) s = .next t ∧ Answered s t ∧ t.resp.out = (s.slot0.drop off).take len) ∧
    (∃ t, exec (.spdmChallenge hd n) s = .next t ∧ Answered s t) ∧
    (∃ t, exec (.spdmGetMeasurements hd n) s = .next t ∧
      t.resp.out = s.attestation n ++ Config.sign (s.attestation n) ∧ SameMemory s t) := by
  have hgo := fun go => congrArg (Host.Outcome.next (φ := Fault) (ρ := Refusal)) (State.spdmIn_takes h hst go)
  exact ⟨⟨_, hgo _, State.answered_ok ..⟩, ⟨_, hgo _, State.answered_ok .., rfl⟩, ⟨_, hgo _, State.answered_ok ..⟩,
    ⟨_, hgo _, rfl, fun x => congrArg (Mem.byte · x) (State.count_mem ..)⟩⟩

/-- R389, R390: KEY_EXCHANGE of a key of the right length draws a secret and opens the handshake. -/
theorem exec_spdmKeyExchange (h : s.takesFm hd) (hst : (s.sec.spdm.get hd).state = .negotiated) {k : List (BitVec 8)}
    (hlen : k.length = 1568) (hent : s.sec.entropyFail = false) : ∃ out, exec (.spdmKeyExchange hd k) s =
      .next ((s.draw.2.setSpdm hd { state := .handshake, secret := some (Config.encapsSecret k s.draw.1) }).ok out) := by
  have hgo := fun go => congrArg (Host.Outcome.next (φ := Fault) (ρ := Refusal))
    (State.spdmIn_takes h (List.mem_singleton.mpr hst) go)
  exact ⟨_, (hgo _).trans (congrArg Host.Outcome.next ((if_neg (by simp [hlen])).trans (if_neg (by simp [hent]))))⟩

/-- R389: FINISH stands or falls with its verify data. -/
theorem spdmFinish_moves (h : s.takesFm hd) (hst : (s.sec.spdm.get hd).state = .handshake) (v : List (BitVec 8)) :
    ∃ t, exec (.spdmFinish hd v) s = .next t ∧ (t.sec.spdm.get hd).state =
      (if Config.finishOk ((s.sec.spdm.get hd).secret.getD 0) v then .session else .negotiated) := by
  refine ⟨_, congrArg Host.Outcome.next (State.spdmIn_takes h (List.mem_singleton.mpr hst) _), ?_⟩
  dsimp only
  split
  · exact congrArg Spdm.state (State.spdm_setSpdm s hd _)
  · exact congrArg Spdm.state (State.spdm_setSpdm s hd _)

/-- R295: what a session programs for a stream. -/
theorem exec_ideKmKeyProgram (h : s.takesSecure hd) (stream : IdeStream) (k : BitVec 256) :
    exec (.ideKmKeyProgram hd stream k) s = .next ((s.setHead hd { s.cxp.head.get hd with
      ideKeys := (s.cxp.head.get hd).ideKeys.put (if stream == .io then 0 else 1) k
      ideIo := (s.cxp.head.get hd).ideIo || stream == .io
      ideMem := (s.cxp.head.get hd).ideMem || stream != .io
      ideSkid := skidOf stream (s.cxp.head.get hd).ideSkid }).ok) :=
  congrArg Host.Outcome.next (State.secure_takes h _)

theorem ideKmIo (h : s.takesSecure hd) (k : BitVec 256) : ∃ t, exec (.ideKmKeyProgram hd .io k) s = .next t ∧
    (t.cxp.head.get hd).ideIo = true ∧ (t.cxp.head.get hd).ideMem = (s.cxp.head.get hd).ideMem := by
  refine ⟨_, exec_ideKmKeyProgram h .io k, ?_, ?_⟩
  · exact (congrArg HeadState.ideIo (State.head_setHead s hd _)).trans (Bool.or_true _)
  · exact (congrArg HeadState.ideMem (State.head_setHead s hd _)).trans (Bool.or_false _)

theorem ideKmMem (h : s.takesSecure hd) (skid : Bool) (k : BitVec 256) :
    ∃ t, exec (.ideKmKeyProgram hd (.mem skid) k) s = .next t ∧ (t.cxp.head.get hd).ideMem = true ∧
      (t.cxp.head.get hd).ideSkid = skid ∧ (t.cxp.head.get hd).ideIo = (s.cxp.head.get hd).ideIo := by
  refine ⟨_, exec_ideKmKeyProgram h (.mem skid) k, ?_, ?_, ?_⟩
  · exact (congrArg HeadState.ideMem (State.head_setHead s hd _)).trans (Bool.or_true _)
  · exact congrArg HeadState.ideSkid (State.head_setHead s hd _)
  · exact (congrArg HeadState.ideIo (State.head_setHead s hd _)).trans (Bool.or_false _)

/-- R384: a context's compat key, before its first ring is enabled. -/
theorem exec_importCompatKey (h : s.takesSecure hd) {c : Nat} (key : BitVec 512) (hlcs : s.sec.lcs = .deployed) (hc : c < 4096)
    (hact : (s.ctx c).state = .active) (hright : (s.ctx c).rights.getLsbD 5 = true) (hring : (s.ctx c).ringEnabled = false) :
    exec (.importCompatKey hd c key) s = .next ((s.setCtx c { s.ctx c with compatKey := some key }).say St.ok) := by
  refine congrArg Host.Outcome.next ((State.secure_takes h _).trans ?_)
  unfold State.importCompat
  rw [if_neg (by simp [hlcs]), if_neg (by simp [hact, hc]), if_neg (by simp [hact]), if_neg (by rw [hright]; decide),
    if_neg (by simp [hring])]

/-- R375: a root whose check value stands in the map area is taken. -/
theorem exec_releasePersistentRoot (h : s.takesSecure hd) {secret : BitVec 256} (hlcs : s.sec.lcs = .deployed)
    (hdebug : s.sec.debugOpened = false) {v : BitVec 128} (hv : s.coal.rootCheck = some v) :
    exec (.releasePersistentRoot hd secret) s = .next (if v = rootCheckOf (s.rootFor secret) then
      State.say { s with sec := { s.sec with persistRoot := some (s.rootFor secret) } } St.ok else s.refuse) := by
  refine congrArg Host.Outcome.next ((State.secure_takes h _).trans ?_)
  unfold State.releaseRoot
  dsimp only
  rw [if_neg (by simp [hlcs]), if_neg (by simp [hdebug]), hv]

end

/-- Settles O48: a request in a state that the flow allows does its work (`State.spdmIn_takes`, `State.secure_takes`), and its
work sets the responder's state. -/
theorem spdmFlow : Obligations.SpdmFlow := by
  refine fun hd s h => ⟨⟨_, congrArg Host.Outcome.next (State.doe_takes h _), ?_, rfl⟩, fun hst => ?_, fun hst => ?_,
    fun o hst hsign hhash hkem haead => ?_, fun hst off len n => spdmReads h hst off len n, fun k hst hlen hent => ?_,
    fun v hst => spdmFinish_moves h hst v, fun hsec => ⟨⟨_, congrArg Host.Outcome.next (State.secure_takes hsec _), ?_⟩,
      fun k => ⟨ideKmIo hsec k, fun skid => ideKmMem hsec skid k⟩, fun c key hlcs hc hact hright hring => ?_,
      fun secret hlcs hdebug => ⟨fun hroot => ?_, fun v hroot hne => ?_⟩⟩⟩
  · exact congrArg Spdm.state (State.spdm_setSpdm s hd _)
  · refine ⟨_, congrArg Host.Outcome.next (State.spdmIn_takes h (List.mem_singleton.mpr hst) _), ?_, rfl⟩
    exact congrArg Spdm.state (State.spdm_setSpdm s hd _)
  · exact ⟨_, congrArg Host.Outcome.next (State.spdmIn_error h (by simpa using hst) _), rfl, rfl⟩
  · refine ⟨_, congrArg Host.Outcome.next ((State.spdmIn_takes h (List.mem_singleton.mpr hst) _).trans
      (if_pos (by simp [hsign, hhash, hkem, haead]))), ?_, rfl, rfl⟩
    exact congrArg Spdm.state (State.spdm_setSpdm s hd _)
  · obtain ⟨out, hout⟩ := exec_spdmKeyExchange h hst hlen hent
    exact ⟨_, hout, congrArg Spdm.state (State.spdm_setSpdm s.draw.2 hd _), rfl⟩
  · exact congrArg Spdm.state (State.spdm_setSpdm s hd _)
  · refine ⟨_, exec_importCompatKey hsec key hlcs hc hact hright hring, ?_, rfl⟩
    exact congrArg Ctx.compatKey (State.ctx_setCtx_self s c _)
  · exact ⟨_, (exec_releasePersistentRoot hsec hlcs hdebug hroot).trans (congrArg Host.Outcome.next (if_pos rfl)), rfl, rfl⟩
  · exact (exec_releasePersistentRoot hsec hlcs hdebug hroot).trans (congrArg Host.Outcome.next (if_neg hne))

end Machine
end Sys2Proof
end

section
/-! PROOFS. Classes, admission settings, rings admitted and bookings released (R438-R448). -/

namespace Sys2Proof
namespace Machine

section
variable {s : State}

theorem State.postEvent_weights (l : Ld) (k : EvLog) (r : EvRec) : (s.postEvent l k r).gbl.weights = s.gbl.weights := by
  unfold State.postEvent
  dsimp only
  split <;> rfl

theorem State.postAll_weights (k : EvLog) (code dpa ctx : Nat) (head : Side) :
    (s.postAll k code dpa ctx head).gbl.weights = s.gbl.weights :=
  foldl_keeps (fun t => t.gbl.weights) _ (fun _ _ => State.postEvent_weights ..) _ s

/-- R445: the test of the rings admitted changes no class. -/
theorem State.recheck_weight (c : Nat) : s.recheck.weight c = s.weight c := by
  have hweight : s.recheck.gbl.weights = s.gbl.weights := by
    unfold State.recheck
    split
    · rfl
    split
    · rfl
    · rw [State.postAll_weights]
  unfold State.weight
  rw [hweight]

theorem State.recheck_mem : s.recheck.mem = s.mem := (SentOnly.refl s).recheck.mem

theorem State.recheck_ring (n : Nat) : s.recheck.ring n = s.ring n :=
  congrArg (fun r : Tbl Ring => r.lookD n {}) (SentOnly.refl s).recheck.rings

variable {ld : Ld} (h : s.takesVendor ld)
include h

/-- R440: a class's weight and bound, where the bound lowers none. -/
theorem exec_setClass {cls weight bound : Nat} (hcls : cls ≤ 63) (hweight : weight ≤ 255) (hbound : bound ≤ 1000000)
    (hlow : cls < 4 → weight = 0) (hhigh : 4 ≤ cls → bound = 0)
    (hkeeps : bound = 0 ∨ s.gbl.bounds.lookD cls 0 ≠ 0 ∧ s.gbl.bounds.lookD cls 0 ≤ bound) :
    exec (.setClass ld cls weight bound) s = .next ((({ s with gbl := { s.gbl with
      weights := s.gbl.weights.put cls weight, bounds := s.gbl.bounds.put cls bound } } : State).recheck).say St.ok) := by
  refine congrArg Host.Outcome.next ((State.vendor_takes h _ _ _).trans ?_)
  have hlowers : (decide (bound ≠ 0) && (decide (s.gbl.bounds.lookD cls 0 = 0) || decide (bound < s.gbl.bounds.lookD cls 0))) = false := by
    simp only [Bool.and_eq_false_imp, decide_eq_true_eq, Bool.or_eq_false_iff, decide_eq_false_iff_not]
    omega
  unfold State.setClass
  rw [if_neg (by simp only [Bool.or_eq_true, Bool.and_eq_true, decide_eq_true_eq]; omega)]
  dsimp only
  rw [hlowers, if_neg Bool.false_ne_true]

theorem setClass_refused {cls weight bound : Nat} (hcls : cls < 4) (hweight : weight ≠ 0) :
    exec (.setClass ld cls weight bound) s = .next (s.say St.badOperand) := by
  refine congrArg Host.Outcome.next ((State.vendor_takes h _ _ _).trans ?_)
  unfold State.setClass
  rw [if_pos (by simp [hcls, hweight])]

/-- R444: the admission settings are taken when every admitted ring passes with them. -/
theorem exec_setAdmission {cap block : Nat} (hcap : 128 ≤ cap) (hcap' : cap ≤ 255) (hblock : 1 ≤ block) (hblock' : block ≤ 1000) :
    exec (.setAdmission ld cap block) s = .next (match s.admitTest { s.admitEnv with cap := cap, block := block } s.booked none with
      | some f => s.say St.admitDeadline f.detail
      | none => (({ s with gbl := { s.gbl with admitCap := cap, blockUs := block } } : State).recheck).say St.ok) := by
  refine congrArg Host.Outcome.next ((State.vendor_takes h _ _ _).trans ?_)
  unfold State.setAdmission
  exact if_neg (by simp only [Bool.or_eq_true, decide_eq_true_eq]; omega)

/-- R441, R443: a ring that passes the checks of Admit Ring is admitted, or refused, by its test. -/
theorem exec_admitRing {n : Nat} {d : Demand} (hn : n ≤ 65535) (hen : (s.ring n).en = false) (hbook : (s.ring n).booking = none)
    (hcls : (s.ring n).cls.toNat < 4) (hd : demandBad d = false) (hact : (s.ctx (s.ring n).ctx.toNat).state = .active)
    (hover : s.gbl.overbooked = false) :
    ∃ out, exec (.admitRing ld n d) s = .next
      (match s.admitTest s.admitEnv (putBooked s.booked n { s.ring n with booking := some { demand := d } }) (some n) with
        | some f => s.say St.admitDeadline f.detail
        | none => (s.setRing n { s.ring n with booking := some { demand := d } }).say St.ok 0 out) := by
  have hgo : exec (.admitRing ld n d) s = .next (s.admitRing n d) := congrArg Host.Outcome.next (State.vendor_takes h _ _ _)
  rw [hgo]
  unfold State.admitRing
  dsimp only
  rw [if_neg (by omega), if_neg (by simp [hen, hbook]), if_neg (by simp [hd]; omega), if_neg (by simp [hact]), hover]
  cases s.admitTest s.admitEnv (putBooked s.booked n { s.ring n with booking := some { demand := d } }) (some n) with
  | none => exact ⟨_, rfl⟩
  | some f => exact ⟨[], rfl⟩

theorem admitRing_busy {n : Nat} (hn : n ≤ 65535) (hbusy : (s.ring n).en = true ∨ (s.ring n).booking ≠ none) (d : Demand) :
    exec (.admitRing ld n d) s = .next (s.say St.busy) := by
  refine congrArg Host.Outcome.next ((State.vendor_takes h _ _ _).trans ?_)
  unfold State.admitRing
  rw [if_neg (by omega), if_pos (by simpa [Option.isSome_iff_ne_none] using hbusy)]

/-- R447: a booking released. -/
theorem exec_releaseBooking {n : Nat} (hn : n ≤ 65535) (hen : (s.ring n).en = false) : exec (.releaseBooking ld n) s =
    .next (((s.setRing n { s.ring n with booking := none }).recheck).say St.ok) := by
  refine congrArg Host.Outcome.next ((State.vendor_takes h _ _ _).trans ?_)
  dsimp only
  rw [if_neg (by omega), if_neg (by simp [hen])]

end

/-- Settles O49: the checks of each command pass or fail as the clause says, and what is tested again afterwards
(`State.recheck`) changes no weight, no ring and no byte. -/
theorem admissionDecides : Obligations.AdmissionDecides := by
  refine fun ld s h => ⟨fun cls weight hlow hhigh hweight => ?_,
    fun cls weight bound hcls hweight hbound hlow hhigh hkeeps => exec_setClass h hcls hweight hbound hlow hhigh hkeeps,
    fun cls weight bound hcls hweight => ⟨_, setClass_refused h hcls hweight, State.said_say ..⟩,
    fun cap block hcap hcap' hblock hblock' => ⟨fun hpass => ?_, fun f hfail => ?_⟩,
    fun n d hn hen hbook hcls hd hact hover => ?_,
    fun n hn hbusy d => ⟨_, admitRing_busy h hn hbusy d, State.said_say ..⟩, fun n hn hen => ?_⟩
  · refine ⟨_, exec_setClass h hhigh hweight (Nat.zero_le _) (by omega) (fun _ => rfl) (Or.inl rfl), rfl, ?_, fun c hc => ?_, fun x => ?_⟩
    · exact (State.recheck_weight cls).trans (Tbl.lookD_put_self ..)
    · exact (State.recheck_weight c).trans (Tbl.lookD_put_ne _ _ _ hc)
    · exact congrArg (Mem.byte · x) State.recheck_mem
  · rw [exec_setAdmission h hcap hcap' hblock hblock', hpass]
  · refine ⟨_, (exec_setAdmission h hcap hcap' hblock hblock').trans ?_, State.said_say s St.admitDeadline f.detail [], rfl⟩
    rw [hfail]
  · obtain ⟨out, hout⟩ := exec_admitRing h hn hen hbook hcls hd hact hover
    refine ⟨fun hpass => ⟨out, hout.trans ?_⟩, fun f hfail => ⟨_, hout.trans ?_, State.said_say s St.admitDeadline f.detail [], rfl⟩⟩
    · rw [hpass]
    · rw [hfail]
  · refine ⟨_, exec_releaseBooking h hn hen, rfl, ?_, fun m hm => ?_, fun x => ?_⟩
    · exact congrArg Ring.booking ((State.recheck_ring n).trans (State.ring_setRing_self s n _))
    · exact (State.recheck_ring m).trans (State.ring_setRing_ne s _ hm)
    · exact congrArg (Mem.byte · x) State.recheck_mem

end Machine
end Sys2Proof
end

section
/-! PROOFS. Firmware, life cycle, mode, debug, nonces and keys (R366-R370, R373, R397, R399-R401). -/

namespace Sys2Proof
namespace Machine

theorem SentOnly.portSettings {s t : State} (h : SentOnly s t) (p : Side) :
    (t.flu.port.get p).settings = (s.flu.port.get p).settings := by
  have hport : (t.flu.port.map PortState.settings).get p = (s.flu.port.map PortState.settings).get p :=
    (congrArg (fun f : Flu => f.port.get p) h.settings :)
  rwa [Two.get_map, Two.get_map] at hport

section
variable {s : State}

/-! ### A cold reset -/

/-- R419: a section of the recovery log leaves the security block, the answer and the journal as they were. -/
theorem State.section_keeps (cause flags : Nat) (recs : List JRec) : (s.section_ cause flags recs).sec = s.sec ∧
    (s.section_ cause flags recs).resp = s.resp := by
  unfold State.section_
  extract_lets code rs
  split
  · exact ⟨rfl, rfl⟩
  · exact ⟨rfl, rfl⟩

/-- R413, R417: a part with power and out of RESET_N is wiped; its life cycle stays, and a debug session stands if one was asked
for. -/
theorem State.coldReset_leaves (cause : Nat) (hpow : s.pkg.powered = true) (hreset : s.pkg.resetHigh = true) :
    (s.coldReset cause).sec.lcs = s.sec.lcs ∧ (s.coldReset cause).gbl.fwReady = false ∧ (s.coldReset cause).resp = s.resp ∧
      (s.coldReset cause).sec.debugOpen = s.sec.debugRequest ∧ (s.coldReset cause).sec.debugOpened = s.sec.debugRequest := by
  have hcold : s.coldReset cause = (s.section_ cause 0 s.jrn.recs).wiped ⟨true, true⟩ s.sec.debugRequest :=
    if_neg (by simp [hpow, hreset])
  obtain ⟨hsec, hresp⟩ := State.section_keeps (s := s) cause 0 s.jrn.recs
  rw [hcold]
  exact ⟨(congrArg Sec.lcs hsec :), rfl, hresp, rfl, rfl⟩

/-! ### Firmware (R370) -/

theorem transferFw_taken {ld : Ld} (h : s.takesStandard ld) (hlcs : s.sec.lcs ≠ .scrapped) (i : FwImage) :
    ∃ t, exec (.transferFw ld i) s = .next t ∧ t.sec.fwReserve = some i ∧ t.resp.ret = .success ∧ SameMemory s t :=
  ⟨_, congrArg Host.Outcome.next (State.fwCmd_takes h hlcs _), rfl, rfl, fun _ => rfl⟩

theorem activateFw_taken {ld : Ld} (h : s.takesStandard ld) (hlcs : s.sec.lcs ≠ .scrapped) {i : FwImage} (online : Bool)
    (hres : s.sec.fwReserve = some i) (hload : s.loadable i = true) :
    ∃ t, exec (.activateFw ld online) s = .next t ∧ t.resp.ret = .success ∧ t.sec.fwCopies = ⟨some i, some i⟩ ∧
      t.sec.fwReserve = none ∧ t.sec.fuseSvn = Nat.max s.sec.fuseSvn i.svn ∧
      (online = true → t.sec.svn = i.svn ∧ t.sec.fwDigest = i.digest) := by
  have hfw : s.gbl.fwReady = true := h.2.1
  refine ⟨_, congrArg Host.Outcome.next (State.fwCmd_takes h hlcs _), ?_⟩
  unfold State.activateFw
  simp only [hres, hload, hfw, Bool.not_true, Bool.false_eq_true, ↓reduceIte]
  cases online with
  | true => exact ⟨rfl, rfl, rfl, rfl, fun _ => ⟨rfl, rfl⟩⟩
  | false => exact ⟨rfl, rfl, rfl, rfl, fun honline => absurd honline Bool.false_ne_true⟩

section
variable {ld : Ld} (h : s.takesVendor ld)
include h

/-! ### The life cycle (R366-R368) -/

/-- R366, R367: the next state of the life cycle, with the authority that it needs, is taken and the part cold reset. -/
theorem advanceLifeCycle_taken {n : Lcs} {sig : List (BitVec 8)} (hnext : lcsNext s.sec.lcs = some n) (hne : n ≠ .returned)
    (hpow : s.pkg.powered = true) (hreset : s.pkg.resetHigh = true)
    (hauth : n = .provisioned ∨ n = .scrapped → s.authorised (lcsCode n) sig = true)
    (hlen : sig.length = (if n = .provisioned ∨ n = .scrapped then 4627 else 0)) :
    ∃ t, exec (.advanceLifeCycle ld (lcsCode n) (lcsCode s.sec.lcs) Config.identityDigest sig) s = .next t ∧
      t.sec.lcs = n ∧ t.gbl.fwReady = false ∧ t.resp.status = St.ok := by
  have hlen' : sig.length = (if lcsCode n = 1 || lcsCode n = 4 then 4627 else 0) := by
    rw [hlen]
    cases n <;> rfl
  have hsigned : ((n == .provisioned || n == .scrapped) && !(s.authorised (lcsCode n) sig)) = false := by
    simp only [Bool.and_eq_false_imp, Bool.or_eq_true, beq_iff_eq, Bool.not_eq_false']
    exact hauth
  have hdo : s.advance (lcsCode n) (lcsCode s.sec.lcs) Config.identityDigest sig =
      State.coldReset { s.say St.ok with sec := { s.sec with lcs := n } } 6 := by
    unfold State.advance
    rw [hnext]
    dsimp only
    rw [if_neg (by simp), hsigned, if_neg Bool.false_ne_true, if_neg (by simp), if_neg (by simpa using hne)]
    rfl
  obtain ⟨hlcs, hfw, hresp, -, -⟩ := State.coldReset_leaves (s := { s.say St.ok with sec := { s.sec with lcs := n } }) 6 hpow hreset
  exact ⟨_, congrArg Host.Outcome.next ((State.vendor_takes h _ _ _).trans ((if_neg (by simp [hlen'])).trans hdo)), hlcs, hfw,
    (congrArg Resp.status hresp :)⟩

/-- R367: a command that names another part is refused. -/
theorem advanceLifeCycle_refused (target present : Nat) {digest : BitVec 512} {sig : List (BitVec 8)}
    (hdigest : digest ≠ Config.identityDigest) (hlen : sig.length = (if target = 1 ∨ target = 4 then 4627 else 0)) :
    exec (.advanceLifeCycle ld target present digest sig) s = .next s.refuse := by
  refine congrArg Host.Outcome.next ((State.vendor_takes h _ _ _).trans ((if_neg (by simp [hlen])).trans ?_))
  unfold State.advance
  split
  · rfl
  · exact if_pos (by simp [hdigest])

/-! ### Mode and debug (R369, R373) -/

theorem setMode_taken {v : Nat} (hv : v ≤ 1) (hset : s.sec.modeSet = false) (hctx : s.sec.ctxMade = false)
    (hdebug : v = 0 ∨ s.sec.debugOpen = false) : ∃ t, exec (.setMode ld v) s = .next t ∧ t.sec.modeSet = true ∧
      t.sec.confidential = decide (v = 1) ∧ t.resp.status = St.ok ∧ SameMemory s t := by
  have hopen : (decide (v = 1) && s.sec.debugOpen) = false := by
    obtain rfl | hdebug := hdebug
    · rfl
    · rw [hdebug, Bool.and_false]
  have hdo : s.setMode v = State.say { s with sec := { s.sec with modeSet := true, confidential := v = 1 } } St.ok := by
    unfold State.setMode
    rw [if_neg (by omega), if_neg (by simp [hset, hctx]), hopen, if_neg Bool.false_ne_true]
  exact ⟨_, congrArg Host.Outcome.next ((State.vendor_takes h _ _ _).trans hdo), rfl, rfl, rfl, fun _ => rfl⟩

/-- R369: a debug session that may be opened: a cold reset, with debug open after it. -/
theorem openDebug_taken {sig : List (BitVec 8)} (hconf : s.sec.confidential = false) (hlcs : s.sec.lcs ≠ .scrapped)
    (hauth : s.sec.lcs = .blank ∨ s.authorised (lcsCode s.sec.lcs) sig = true) (hlen : sig.length = 4627)
    (hpow : s.pkg.powered = true) (hreset : s.pkg.resetHigh = true) : ∃ t, exec (.openDebug ld sig) s = .next t ∧
      t.sec.debugOpen = true ∧ t.sec.debugOpened = true ∧ t.gbl.fwReady = false := by
  have hsigned : (s.sec.lcs != .blank && !(s.authorised (lcsCode s.sec.lcs) sig)) = false := by
    obtain hblank | hauth := hauth
    · simp [hblank]
    · rw [hauth]
      exact Bool.and_false _
  have hdo : s.openDebug sig = State.coldReset { s.say St.ok with sec := { s.sec with debugRequest := true } } 7 := by
    unfold State.openDebug
    rw [if_neg (by simp [hconf, hlcs]), hsigned, if_neg Bool.false_ne_true]
  obtain ⟨-, hfw, -, hopen, hopened⟩ :=
    State.coldReset_leaves (s := { s.say St.ok with sec := { s.sec with debugRequest := true } }) 7 hpow hreset
  exact ⟨_, congrArg Host.Outcome.next ((State.vendor_takes h _ _ _).trans ((if_neg (by simp [hlen])).trans hdo)), hopen, hopened,
    hfw⟩

theorem openDebug_refused {sig : List (BitVec 8)} (hconf : s.sec.confidential = true) (hlen : sig.length = 4627) :
    exec (.openDebug ld sig) s = .next s.refuse := by
  refine congrArg Host.Outcome.next ((State.vendor_takes h _ _ _).trans ((if_neg (by simp [hlen])).trans ?_))
  exact if_pos (by simp [hconf])

/-! ### Keys (R397, R399, R400) -/

/-- R400: a port's CAK is set; key agreement begins, which changes no CAK. -/
theorem setMacsecCak_taken {p : Nat} (hp : p ≤ 1) (ckn : BitVec 128) (cak : BitVec 256) :
    ∃ t, exec (.setMacsecCak ld p ckn cak) s = .next t ∧ (t.flu.port.get (sideOf p)).cak = some (ckn, cak) ∧
      t.resp.status = St.ok := by
  refine ⟨_, congrArg Host.Outcome.next ((State.vendor_takes h _ _ _).trans (if_neg (by omega))), ?_, rfl⟩
  let s1 := s.setPort (sideOf p) { s.flu.port.get (sideOf p) with cak := some (ckn, cak) }
  have hsent : ((s1.sendMka (sideOf p)).flu.port.get (sideOf p)).settings = (s1.flu.port.get (sideOf p)).settings :=
    (SentOnly.refl s1).sendMka.portSettings _
  rw [State.port_setPort] at hsent
  exact (congrArg PortState.cak hsent :)

theorem beginConnectionKey_taken {n : Nat} (hn : n < 32768) (hent : s.sec.entropyFail = false) :
    ∃ t, exec (.beginConnectionKey ld n) s = .next t ∧ (t.conn n).kemPair.isSome = true ∧ t.resp.status = St.ok := by
  refine ⟨_, congrArg Host.Outcome.next ((State.vendor_takes h _ _ _).trans ((if_neg (by omega)).trans
    (State.needKey_takes hent _))), ?_, rfl⟩
  exact congrArg (fun x : Conn => x.kemPair.isSome) (State.conn_setConn_self s.draw.2 n _)

theorem completeConnectionKey_taken {n : Nat} {ct : List (BitVec 8)} {k : Nat} (hn : n < 32768) (hlen : ct.length = 1568)
    (hclosed : (s.conn n).state = .closed) (hpair : (s.conn n).kemPair = some k) :
    ∃ t, exec (.completeConnectionKey ld n ct) s = .next t ∧ (t.conn n).kemPair = none ∧
      (t.conn n).keyed = some (flueKeys (Config.decapsulate k ct) n (s.conn n).peerConn.toNat) ∧ t.resp.status = St.ok := by
  let x : Conn := { s.conn n with
    kemPair := none, keyed := some (flueKeys (Config.decapsulate k ct) n (s.conn n).peerConn.toNat) }
  have hdo : s.completeKey n ct = (s.setConn n x).say St.ok := by
    unfold State.completeKey
    dsimp only
    rw [if_neg (by omega), if_neg (by simp [hclosed]), hpair]
  refine ⟨_, congrArg Host.Outcome.next ((State.vendor_takes h _ _ _).trans ((if_neg (by simp [hlen])).trans hdo)), ?_, ?_, rfl⟩
  · exact congrArg Conn.kemPair (State.conn_setConn_self s n x)
  · exact congrArg Conn.keyed (State.conn_setConn_self s n x)

theorem getNonce_taken (hent : s.sec.entropyFail = false) : ∃ t v, exec (.getNonce ld) s = .next t ∧
    t.sec.nonces = s.sec.nonces ++ [v] ∧ t.resp.out = leBytes 32 v.toNat ∧ t.resp.status = St.ok :=
  ⟨_, _, congrArg Host.Outcome.next ((State.vendor_takes h _ _ _).trans (State.needKey_takes hent _)), rfl, rfl, rfl⟩

end
end

/-- Settles O47: each command that is taken passes its checks and does its work; the two that reset the part rest on
`State.coldReset_leaves`. -/
theorem securityCommands : Obligations.SecurityCommands := by
  intro ld s
  refine ⟨fun h hlcs => ⟨fun i => transferFw_taken h hlcs i, fun i online hres hload => activateFw_taken h hlcs online hres hload⟩,
    fun h => ⟨fun n sig hnext hne hpow hreset hauth hlen => advanceLifeCycle_taken h hnext hne hpow hreset hauth hlen,
      fun target present digest sig hdigest hlen => advanceLifeCycle_refused h target present hdigest hlen,
      fun v hv hset hctx hdebug => setMode_taken h hv hset hctx hdebug,
      fun sig hconf hlcs hauth hlen hpow hreset => openDebug_taken h hconf hlcs hauth hlen hpow hreset,
      fun sig hconf hlen => openDebug_refused h hconf hlen, fun p ckn cak hp => setMacsecCak_taken h hp ckn cak,
      fun n hn hent => beginConnectionKey_taken h hn hent,
      fun n ct k hn hlen hclosed hpair => completeConnectionKey_taken h hn hlen hclosed hpair, fun hent => getNonce_taken h hent⟩⟩

end Machine
end Sys2Proof
end

section
/-! PROOFS. The commands of a head's fabric manager (R272, R275, R278-R281, R285, R293, R503). -/

namespace Sys2Proof
namespace Machine

/-- A table of which no entry is under this number. -/
theorem Tbl.look_filter_none {α : Type} (t : Tbl α) {k : Nat} {p : Nat × α → Bool} (h : ∀ e, e ∈ t → e.1 = k → p e = false) :
    Tbl.look (t.filter p) k = none := by
  refine Tbl.look_of_not_mem _ fun hmem => ?_
  obtain ⟨e, he, hk⟩ := List.mem_map.mp hmem
  obtain ⟨hin, hp⟩ := List.mem_filter.mp he
  rw [h e hin hk] at hp
  exact Bool.false_ne_true hp

theorem mem_allLds {l : Ld} (h : l.id < 16) : l ∈ allLds := by
  obtain ⟨hd, i⟩ := l
  have hi : i < 16 := h
  unfold allLds
  simp only [List.mem_flatMap, List.mem_map, List.mem_range]
  exact ⟨hd, by cases hd <;> decide, i, hi, rfl⟩

section
variable {s : State} {hd : Side}

/-- R292: an event record touches no extent of the LD. -/
theorem State.postEvent_extents (l : Ld) (k : EvLog) (r : EvRec) : ((s.postEvent l k r).ld l).extents = (s.ld l).extents := by
  have hlogged : ∀ (x : LdState) (e : EvRec), (x.logged k e).extents = x.extents := fun x e => by cases k <;> rfl
  have hpost : (s.postEvent l k r).ld l = (s.ld l).logged k { r with
      handle := s.cxp.nextEv, folded := 1, time := s.now, stamp := (s.ld l).stampNow s.now.toNat } := by
    unfold State.postEvent
    dsimp only
    split <;> exact State.ld_setLd ..
  rw [hpost, hlogged]

/-- R280: an extent that leaves an LD is gone from its list. -/
theorem State.leaveLd_extents (l : Ld) (base : Nat) (forced : Bool) :
    ((s.leaveLd l base forced).ld l).extents = (s.ld l).extents.filter (fun y => y.base != base) := by
  unfold State.leaveLd
  dsimp only
  split
  · exact (State.postEvent_extents l _ _).trans (congrArg LdState.extents (State.ld_setLd s l _))
  · exact congrArg LdState.extents (State.ld_setLd s l _)

/-! ### A shared region that is deleted (R281) -/

theorem State.tracked_eq_nil : s.tracked = [] ↔ ∀ d, (s.cxp.head.get d).sf = [] := by
  unfold State.tracked
  rw [List.map_eq_nil_iff, List.append_eq_nil_iff]
  exact ⟨fun h d => d.casesOn h.1 h.2, fun h => ⟨h .west, h .east⟩⟩

/-- R283: where no line is held, snoops find none to ask. -/
theorem State.snoop_untracked (d : Side) (ls : List Nat) (mask : BitVec 16) (cause : Option Ld) (h : s.tracked = []) :
    (s.snoop d ls mask cause).tracked = [] := by
  rw [State.tracked_eq_nil] at h ⊢
  intro e
  unfold State.snoop
  dsimp only
  rw [State.count_cxp]
  dsimp only
  by_cases hed : e = d
  · subst hed
    rw [Two.get_set_self]
    simp [h e]
  · rw [Two.get_set_ne _ _ hed, h e]

theorem State.sendSnoops_untracked (ls : List Nat) (h : s.tracked = []) : (s.sendSnoops ls).tracked = [] :=
  State.snoop_untracked _ _ _ _ (State.snoop_untracked _ _ _ _ h)

theorem State.snoop_shared (d : Side) (ls : List Nat) (mask : BitVec 16) (cause : Option Ld) :
    (s.snoop d ls mask cause).cxp.shared = s.cxp.shared := by
  unfold State.snoop
  dsimp only
  rw [State.count_cxp]

theorem State.snoop_mem (d : Side) (ls : List Nat) (mask : BitVec 16) (cause : Option Ld) :
    (s.snoop d ls mask cause).mem = s.mem := State.count_mem ..

theorem State.sendSnoops_shared (ls : List Nat) : (s.sendSnoops ls).cxp.shared = s.cxp.shared :=
  (State.snoop_shared ..).trans (State.snoop_shared ..)

theorem State.sendSnoops_mem (ls : List Nat) : (s.sendSnoops ls).mem = s.mem :=
  (State.snoop_mem ..).trans (State.snoop_mem ..)

/-- R281: with no line held, every region that is being deleted is gone, and who asked for one is told. -/
theorem State.endDeleting_untracked {i : Nat} (htracked : s.tracked = [])
    (hall : ∀ e, e ∈ s.cxp.shared → e.1 = i → e.2.deleting = true) (hasked : ∃ r, r ∈ s.cxp.shared.vals ∧ r.asked.isSome = true) :
    s.endDeleting.resp.ret = .success ∧ s.endDeleting.cxp.shared.look i = none ∧ s.endDeleting.mem = s.mem := by
  obtain ⟨r, hr, hask⟩ := hasked
  unfold State.endDeleting
  rw [htracked]
  refine ⟨?_, ?_, rfl⟩
  · have hdone : s.cxp.shared.vals.any (fun r => r.asked.isSome && !(([] : List (Nat × Bool)).any (fun t =>
        decide (r.base ≤ 64 * t.1 / granule) && decide (64 * t.1 / granule < r.base + r.granules)))) = true := by
      rw [List.any_eq_true]
      exact ⟨r, hr, by simp [hask]⟩
    dsimp only
    rw [if_pos hdone]
  · exact Tbl.look_filter_none _ fun e he hk => by simp [hall e he hk]

theorem Tbl.mem_of_look {α : Type} {t : Tbl α} {k : Nat} {x : α} (h : t.look k = some x) : (k, x) ∈ t := by
  induction t with
  | nil => exact absurd h (by simp [Tbl.look])
  | cons e t ih =>
    obtain ⟨j, y⟩ := e
    unfold Tbl.look at h
    split at h
    · next hj => rw [hj, Option.some.inj h]; exact List.mem_cons_self
    · exact List.mem_cons_of_mem _ (ih h)

/-- R281: a region that is to be deleted and of which no host holds a line is gone at once. -/
theorem State.deleteShared_done {i : Nat} {r : Shared} (hr : s.cxp.shared.look i = some r) (htracked : s.tracked = []) (side : Side) :
    (s.deleteShared i (some side)).resp.ret = .success ∧ (s.deleteShared i (some side)).cxp.shared.look i = none ∧
      (s.deleteShared i (some side)).mem = s.mem := by
  unfold State.deleteShared
  rw [hr]
  extract_lets mark x s1
  dsimp only
  generalize ((s1.tracked.map (·.1)).filter (fun l => decide (r.base ≤ 64 * l / granule) &&
    decide (64 * l / granule < r.base + r.granules))).foldl insNat [] = ls
  have hmark : ∀ q, mark i q = { q with deleting := true, asked := (some side).or q.asked } := fun q => if_pos rfl
  have hend := State.endDeleting_untracked (s := s1.sendSnoops ls) (i := i) (State.sendSnoops_untracked ls htracked)
  rw [State.sendSnoops_shared, State.sendSnoops_mem] at hend
  refine hend (fun e he hk => ?_) ⟨mark i r, ?_, ?_⟩
  · obtain ⟨q, -, rfl⟩ := List.mem_map.mp he
    have hq : q.1 = i := hk
    show (mark q.1 q.2).deleting = true
    rw [hq, hmark]
  · exact List.mem_map.mpr ⟨(i, mark i r), List.mem_map.mpr ⟨(i, r), Tbl.mem_of_look hr, rfl⟩, rfl⟩
  · rw [hmark]
    rfl

/-! ### The commands -/

theorem State.fmDynamic_takes (h : s.takesFm hd) (hmode : (s.cxp.head.get hd).mode ≠ 1) (go : State → State) :
    s.fmDynamic hd go = go s := (State.fm_takes h _).trans (if_neg hmode)

section
variable (h : s.takesFm hd)
include h

/-- R272, R293: the queries. -/
theorem fmReads : ∀ c ∈ [Instr.getLdInfo hd, .getLdAllocations hd, .getMultiHeadedInfo hd, .qosCommands hd .getControl,
      .qosCommands hd .getStatus, .qosCommands hd .getAllocated, .qosCommands hd .getLimit],
    ∃ t, exec c s = .next t ∧ Answered s t := by
  have hread : ∀ (go : State → State) (out : List Byte), go s = s.ok out → Answered s (s.fm hd go) := fun go out hgo => by
    rw [State.fm_takes h, hgo]
    exact State.answered_ok ..
  simp only [List.forall_mem_cons, List.not_mem_nil, false_imp_iff, implies_true, and_true]
  exact ⟨⟨_, rfl, hread _ _ rfl⟩, ⟨_, rfl, hread _ _ rfl⟩, ⟨_, rfl, hread _ _ rfl⟩, ⟨_, rfl, hread _ _ rfl⟩,
    ⟨_, rfl, hread _ _ rfl⟩, ⟨_, rfl, hread _ _ rfl⟩, ⟨_, rfl, hread _ _ rfl⟩⟩

/-- R278, R293: the queries about dynamic capacity, outside mode 1. -/
theorem dynamicReads {host : Nat} (hhost : host < 16) :
    ∀ c ∈ [Instr.getDcdInfo hd, .getHostDcRegionConfig hd host, .getDcRegionExtentLists hd host],
      ((s.cxp.head.get hd).mode ≠ 1 → ∃ t, exec c s = .next t ∧ Answered s t) ∧
      ((s.cxp.head.get hd).mode = 1 → ∃ t, exec c s = .next t ∧ t.resp.ret = .unsupported ∧ { t with resp := s.resp } = s) := by
  have hread : ∀ (go : State → State) (out : List Byte), go s = s.ok out →
      ((s.cxp.head.get hd).mode ≠ 1 → Answered s (s.fmDynamic hd go)) ∧
      ((s.cxp.head.get hd).mode = 1 → s.fmDynamic hd go = s.no .unsupported) := fun go out hgo => by
    refine ⟨fun hmode => ?_, fun hmode => (State.fm_takes h _).trans (if_pos hmode)⟩
    rw [State.fmDynamic_takes h hmode, hgo]
    exact State.answered_ok ..
  have hboth : ∀ (c : Instr) (go : State → State) (out : List Byte), go s = s.ok out → exec c s = .next (s.fmDynamic hd go) →
      ((s.cxp.head.get hd).mode ≠ 1 → ∃ t, exec c s = .next t ∧ Answered s t) ∧
      ((s.cxp.head.get hd).mode = 1 → ∃ t, exec c s = .next t ∧ t.resp.ret = .unsupported ∧ { t with resp := s.resp } = s) :=
    fun c go out hgo hexec => ⟨fun hmode => ⟨_, hexec, (hread go out hgo).1 hmode⟩, fun hmode =>
      ⟨_, hexec.trans (congrArg Host.Outcome.next ((hread go out hgo).2 hmode)), rfl, rfl⟩⟩
  simp only [List.forall_mem_cons, List.not_mem_nil, false_imp_iff, implies_true, and_true]
  exact ⟨hboth _ _ _ rfl rfl, hboth _ _ _ (if_neg (by omega)) rfl, hboth _ _ _ (if_neg (by omega)) rfl⟩

/-- R293: the QoS settings are kept. -/
theorem qosSets (v : BitVec 64) :
    (∃ t, exec (.qosCommands hd (.setControl v)) s = .next t ∧ (t.cxp.head.get hd).qos.lookD 0 0 = v) ∧
    (∃ t, exec (.qosCommands hd (.setAllocated v)) s = .next t ∧ (t.cxp.head.get hd).qos.lookD 1 0 = v) ∧
    (∃ t, exec (.qosCommands hd (.setLimit v)) s = .next t ∧ (t.cxp.head.get hd).qos.lookD 2 0 = v) := by
  have hset : ∀ i, ((s.setHead hd { s.cxp.head.get hd with qos := (s.cxp.head.get hd).qos.put i v }).cxp.head.get hd).qos.lookD i 0 = v :=
    fun i => (congrArg (fun x : HeadState => x.qos.lookD i 0) (State.head_setHead s hd _)).trans (Tbl.lookD_put_self ..)
  exact ⟨⟨_, congrArg Host.Outcome.next (State.fm_takes h _), hset 0⟩, ⟨_, congrArg Host.Outcome.next (State.fm_takes h _), hset 1⟩,
    ⟨_, congrArg Host.Outcome.next (State.fm_takes h _), hset 2⟩⟩

theorem setDcRegion_taken {r : Nat} (hmode : (s.cxp.head.get hd).mode ≠ 1) (hr : r ≤ 1) :
    ∃ t, exec (.setDcRegionConfiguration hd r granule) s = .next t ∧ t.resp.ret = .success ∧
      (t.cxp.head.get hd).dcBlock = granule := by
  refine ⟨_, congrArg Host.Outcome.next ((State.fmDynamic_takes h hmode _).trans (if_neg ?_)), rfl, ?_⟩
  · simp only [Bool.or_eq_true, decide_eq_true_eq]
    omega
  · exact congrArg HeadState.dcBlock (State.head_setHead s hd _)

theorem setDcRegion_refused {r b : Nat} (hmode : (s.cxp.head.get hd).mode ≠ 1) (hb : b ≠ granule) :
    ∃ t, exec (.setDcRegionConfiguration hd r b) s = .next t ∧ t.resp.ret = .invalidInput ∧ { t with resp := s.resp } = s :=
  ⟨_, congrArg Host.Outcome.next ((State.fmDynamic_takes h hmode _).trans (if_pos (by simp [hb]))), rfl, rfl⟩

/-- R278: an extent that meets no other of any LD is offered. -/
theorem initiateDcAdd_taken {l base len : Nat} (hmode : (s.cxp.head.get hd).mode ≠ 1) (hl : l < 16) (hlen : len ≠ 0)
    (hbase : base % granule = 0) (hlen' : len % granule = 0) (hend : base + len ≤ dpaEnd)
    (hfree : ∀ e, e ∈ s.allExtents → ¬(base < e.1 + e.2 ∧ e.1 < base + len)) :
    ∃ t, exec (.initiateDcAdd hd l base len) s = .next t ∧ t.resp.ret = .success ∧
      (t.ld ⟨hd, l⟩).offered = (s.ld ⟨hd, l⟩).offered ++ [(base, len)] ∧ (t.ld ⟨hd, l⟩).extents = (s.ld ⟨hd, l⟩).extents := by
  let x := s.ld ⟨hd, l⟩
  have hnone : ∀ es : List (Nat × Nat), (∀ e, e ∈ es → e ∈ s.allExtents) →
      es.any (fun e => decide (base < e.1 + e.2) && decide (e.1 < base + len)) = false := fun es hes => by
    simp only [List.any_eq_false, Bool.and_eq_true, decide_eq_true_eq]
    exact fun e he => hfree e (hes e he)
  have hown : ∀ e, e ∈ x.extents.map (fun e => (e.base, e.len)) ++ x.offered → e ∈ s.allExtents := fun e he =>
    List.mem_flatMap.mpr ⟨⟨hd, l⟩, mem_allLds hl, he⟩
  have hdo : s.offer ⟨hd, l⟩ base len = (s.setLd ⟨hd, l⟩ { x with offered := x.offered ++ [(base, len)] }).ok := by
    unfold State.offer
    dsimp only
    rw [if_neg (by simp only [Bool.or_eq_true, decide_eq_true_eq]; omega), hnone _ hown, hnone _ (fun _ he => he), if_neg (by simp)]
  refine ⟨_, congrArg Host.Outcome.next ((State.fmDynamic_takes h hmode _).trans hdo), rfl, ?_, ?_⟩
  · exact congrArg LdState.offered (State.ld_setLd s ⟨hd, l⟩ _)
  · exact (congrArg LdState.extents (State.ld_setLd s ⟨hd, l⟩ { x with offered := x.offered ++ [(base, len)] }) :)

/-- R280: a forced release of an extent that nothing holds is done at once. -/
theorem initiateDcRelease_taken {l : Nat} {e : Extent} (hmode : (s.cxp.head.get hd).mode ≠ 1)
    (hfind : (s.ld ⟨hd, l⟩).extents.find? (fun x => x.base == e.base) = some e) (hleave : s.mayLeave ⟨hd, l⟩ e = true) :
    ∃ t, exec (.initiateDcRelease hd l e.base e.len true) s = .next t ∧
      (t.ld ⟨hd, l⟩).extents = (s.ld ⟨hd, l⟩).extents.filter (fun x => x.base != e.base) := by
  have hdo : s.closeExtent ⟨hd, l⟩ e.base true = s.leaveLd ⟨hd, l⟩ e.base true := by
    unfold State.closeExtent
    dsimp only
    rw [hfind]
    exact if_pos hleave
  have hhas : (s.ld ⟨hd, l⟩).extents.any (fun x => x.base == e.base && x.len == e.len) = true := by
    rw [List.any_eq_true]
    exact ⟨e, List.mem_of_find?_eq_some hfind, by simp⟩
  exact ⟨_, congrArg Host.Outcome.next ((State.fmDynamic_takes h hmode _).trans
    ((if_neg (by simp [hhas])).trans ((if_pos rfl).trans hdo))), State.leaveLd_extents ..⟩

omit h in
/-- R279: a closing extent that nothing holds any more leaves. -/
theorem extentRemovalDone_taken {l : Ld} {e : Extent} (hfind : (s.ld l).extents.find? (fun x => x.base == e.base && x.closing) = some e)
    (hleave : s.mayLeave l e = true) : ∃ t, exec (.extentRemovalDone l e.base) s = .next t ∧
      (t.ld l).extents = (s.ld l).extents.filter (fun x => x.base != e.base) := by
  have hdo : s.removalDone l e.base = s.silently e.dropped (fun s => s.leaveLd l e.base e.forced) := by
    unfold State.removalDone
    rw [hfind]
    exact if_pos hleave
  refine ⟨_, congrArg Host.Outcome.next hdo, ?_⟩
  unfold State.silently
  split
  · exact State.leaveLd_extents ..
  · exact State.leaveLd_extents ..

/-- R275: a binding word that takes no LD away whose request is in flight. -/
theorem bindContext_taken {c : Nat} {w : BitVec 32} (hc : c < 4096) (hidle : s.inflightTo c ((s.ctx c).bind &&& ~~~w) = false) :
    ∃ t, exec (.bindContext hd c w) s = .next t ∧ (t.ctx c).bind = w ∧ t.resp.ret = .success ∧
      (∀ c', c' ≠ c → t.ctx c' = s.ctx c') ∧ SameMemory s t := by
  have hdo : s.bindContext hd c w = (s.setCtx c { s.ctx c with bind := w }).ok := by
    unfold State.bindContext
    dsimp only
    exact if_neg (by rw [Bool.not_eq_true]; exact hidle)
  refine ⟨_, congrArg Host.Outcome.next ((State.fm_takes h _).trans ((if_neg (by omega)).trans hdo)), ?_, rfl, fun c' hc' => ?_,
    fun _ => rfl⟩
  · exact congrArg Ctx.bind (State.ctx_setCtx_self s c _)
  · exact State.ctx_setCtx_ne s _ hc'

/-- R281: a range that meets no extent and no region becomes the lowest free region. -/
theorem defineSharedRegion_taken {base n : Nat} (hn : n ≠ 0) (hmax : n ≤ 32768) (hbase : base % granule = 0)
    (hend : base + n * granule ≤ ctxSpaceEnd) (hroom : s.cxp.shared.lowFree < 16) (hmode : (s.cxp.head.get hd).mode = 2)
    (howner : ∃ c, s.granuleCtx (base / granule) = some c ∧ s.owns c base (n * granule) = true)
    (hext : ∀ e, e ∈ s.heldExtents → ¬(base < e.2.1 + e.2.2 ∧ e.2.1 < base + n * granule))
    (hreg : ∀ r, r ∈ s.cxp.shared.vals →
      ¬(base < r.base * granule + r.granules * granule ∧ r.base * granule < base + n * granule)) :
    ∃ t, exec (.defineSharedRegion hd base n) s = .next t ∧ t.resp.ret = .success ∧
      t.cxp.shared.look s.cxp.shared.lowFree = some { base := base / granule, granules := n } := by
  obtain ⟨c, hg, howns⟩ := howner
  have hdo : s.defineShared hd base n = State.ok { s with cxp := { s.cxp with
      shared := s.cxp.shared.put s.cxp.shared.lowFree { base := base / granule, granules := n } } } (leBytes 1 s.cxp.shared.lowFree) := by
    unfold State.defineShared
    dsimp only
    rw [if_neg (by simp only [Bool.or_eq_true, decide_eq_true_eq]; omega), if_neg (by simp [hmode]), if_neg (by simp [hg, howns]), if_neg]
    simp only [Bool.or_eq_true, List.any_eq_true, Bool.and_eq_true, decide_eq_true_eq, not_or, not_exists, not_and]
    exact ⟨fun e he hlo hhi => hext e he ⟨hlo, hhi⟩, fun r hr hlo hhi => hreg r hr ⟨hlo, hhi⟩⟩
  exact ⟨_, congrArg Host.Outcome.next ((State.fm_takes h _).trans hdo), rfl, Tbl.look_put_self ..⟩

theorem deleteSharedRegion_taken {i : Nat} {r : Shared} (hr : s.cxp.shared.look i = some r) (htracked : s.tracked = []) :
    ∃ t, exec (.deleteSharedRegion hd i) s = .next t ∧ t.resp.ret = .success ∧ t.cxp.shared.look i = none ∧ SameMemory s t := by
  have hhas : s.cxp.shared.has i = true := by
    unfold Tbl.has
    rw [hr]
    rfl
  obtain ⟨hret, hgone, hmem⟩ := State.deleteShared_done (s := s.answer {}) hr htracked hd
  exact ⟨_, congrArg Host.Outcome.next ((State.fm_takes h _).trans (if_pos hhas)), hret, hgone,
    fun x => congrArg (Mem.byte · x) hmem⟩

theorem setLdPrivilege_taken {l : Nat} (hl : l < 16) (g : Bool) :
    ∃ t, exec (.setLdPrivilege hd l g) s = .next t ∧ t.manager ⟨hd, l⟩ = g ∧ t.resp.ret = .success := by
  refine ⟨_, congrArg Host.Outcome.next ((State.fm_takes h _).trans (if_neg (by omega))), ?_, rfl⟩
  let u := s.setHead hd { s.cxp.head.get hd with privSet := true }
  have hset : ((u.setLd ⟨hd, l⟩ { u.ld ⟨hd, l⟩ with manager := g }).cxp.head.get hd).privSet = true := by
    have hu : (u.cxp.head.get hd).privSet = true := congrArg HeadState.privSet (State.head_setHead s hd _)
    exact (congrArg HeadState.privSet (State.head_setHead u hd _)).trans hu
  unfold State.manager
  exact (if_pos hset).trans (congrArg LdState.manager (State.ld_setLd u ⟨hd, l⟩ _))

end
end

/-- Settles O50: each command that is taken passes its checks (`State.fm_takes`) and does its work; a region without held lines is
gone at once (`State.deleteShared_done`). -/
theorem fabricManagerCommands : Obligations.FabricManagerCommands := by
  refine fun hd s h => ⟨fmReads h, fun host hhost => dynamicReads h hhost, qosSets h, fun r hmode hr => setDcRegion_taken h hmode hr,
    fun r b hmode hb => setDcRegion_refused h hmode hb,
    fun l base len hmode hl hlen hbase hlen' hend hfree => initiateDcAdd_taken h hmode hl hlen hbase hlen' hend hfree,
    fun l e hmode hfind hleave => initiateDcRelease_taken h hmode hfind hleave,
    fun l e hfind hleave => extentRemovalDone_taken hfind hleave, fun c w hc hidle => bindContext_taken h hc hidle,
    fun lds hsf => ⟨_, congrArg Host.Outcome.next (State.fm_takes h _), rfl⟩,
    fun base n hn hmax hbase hend hroom hmode howner hext hreg =>
      defineSharedRegion_taken h hn hmax hbase hend hroom hmode howner hext hreg,
    fun i r hr htracked => deleteSharedRegion_taken h hr htracked, fun l g hl => setLdPrivilege_taken h hl g⟩

end Machine
end Sys2Proof
end

section
/-! PROOFS. What events and fault reports leave as it was (R292, R428, R507). -/

namespace Sys2Proof
namespace Machine

/-- R274: a head without what its LDs hold. -/
def HeadState.withoutLds (h : HeadState) : HeadState := { h with lds := [] }

/-- The part without what counters, traces, event records and their vectors touch. -/
def State.uneventful (s : State) : State :=
  { s with
    tel := {}, gbl := { s.gbl with msix := [] }
    cxp := { s.cxp with nextEv := 0, head := s.cxp.head.map HeadState.withoutLds } }

/-- `t` is `s` but for counters, traces, event records and their vectors. -/
def EventOnly (s t : State) : Prop := t.uneventful = s.uneventful

namespace EventOnly
variable {s0 s t : State}

theorem refl (s : State) : EventOnly s s := rfl

theorem trans (h : EventOnly s0 s) (h' : EventOnly s t) : EventOnly s0 t := Eq.trans h' h

section
variable (h : EventOnly s t)
include h

theorem mem : t.mem = s.mem := (congrArg State.mem h :)
theorem jrn : t.jrn = s.jrn := (congrArg State.jrn h :)
theorem rings : t.rings = s.rings := (congrArg State.rings h :)
theorem eng : t.eng = s.eng := (congrArg State.eng h :)
theorem drt : t.drt = s.drt := (congrArg State.drt h :)
theorem flu : t.flu = s.flu := (congrArg State.flu h :)
theorem pkg : t.pkg = s.pkg := (congrArg State.pkg h :)
theorem sec : t.sec = s.sec := (congrArg State.sec h :)
theorem now : t.now = s.now := (congrArg State.now h :)
theorem resp : t.resp = s.resp := (congrArg State.resp h :)
theorem pages : t.pages = s.pages := (congrArg State.pages h :)

theorem gbl : { t.gbl with msix := [] } = { s.gbl with msix := [] } := (congrArg State.gbl h :)
theorem fault : t.gbl.fault = s.gbl.fault := (congrArg Gbl.fault h.gbl :)
theorem alert : t.gbl.alert = s.gbl.alert := (congrArg Gbl.alert h.gbl :)
theorem windows : t.gbl.windows = s.gbl.windows := (congrArg Gbl.windows h.gbl :)

theorem stopped : t.gbl.stopped = s.gbl.stopped := (congrArg Gbl.stopped h.gbl :)
theorem fwReady : t.gbl.fwReady = s.gbl.fwReady := (congrArg Gbl.fwReady h.gbl :)
theorem live : t.live = s.live := by
  unfold State.live
  rw [h.fwReady, h.pkg]

theorem head (d : Side) : (t.cxp.head.get d).withoutLds = (s.cxp.head.get d).withoutLds := by
  have hhead : (t.cxp.head.map HeadState.withoutLds).get d = (s.cxp.head.map HeadState.withoutLds).get d :=
    (congrArg (fun u : State => u.cxp.head.get d) h :)
  rwa [Two.get_map, Two.get_map] at hhead

theorem sameMemory : SameMemory s t := fun x => congrArg (Mem.byte · x) h.mem

end

theorem ite {c : Prop} [Decidable c] {a b : State} (ha : EventOnly s0 a) (hb : EventOnly s0 b) :
    EventOnly s0 (if c then a else b) := by
  split
  · exact ha
  · exact hb

theorem foldl {β : Type} {f : State → β → State} {l : List β} (h : EventOnly s0 s)
    (hf : ∀ t x, EventOnly s0 t → EventOnly s0 (f t x)) : EventOnly s0 (l.foldl f s) := by
  induction l generalizing s with
  | nil => exact h
  | cons x xs ih => exact ih (hf s x h)

variable (hs : EventOnly s0 s)
include hs

theorem tel {x} : EventOnly s0 { s with tel := x } := hs

theorem count {o n} : EventOnly s0 (s.count o n) := .ite hs hs

theorem raise {d l v} : EventOnly s0 (s.raise d l v) := hs

theorem trace {d r} : EventOnly s0 (s.trace d r) := .ite hs hs

theorem setLd {l x} : EventOnly s0 (s.setLd l x) := by
  refine trans hs ?_
  have hhead : (s.setLd l x).cxp.head.map HeadState.withoutLds = s.cxp.head.map HeadState.withoutLds := by
    obtain ⟨hd, i⟩ := l
    cases hd <;> rfl
  show { State.uneventful s with cxp := { s.cxp with nextEv := 0, head := (s.setLd l x).cxp.head.map HeadState.withoutLds } } = _
  rw [hhead]
  rfl

theorem nextEv {n} : EventOnly s0 { s with cxp := { s.cxp with nextEv := n } } := hs

theorem postEvent {l k r} : EventOnly s0 (s.postEvent l k r) := .nextEv (.ite hs.setLd.raise hs.setLd)

end EventOnly

/-- R445: the test of the rings admitted sets GBL's overbooked mark; all else that it touches is events. -/
theorem State.recheck_events (s : State) : ∃ b, EventOnly { s with gbl := { s.gbl with overbooked := b } } s.recheck := by
  unfold State.recheck
  split
  · exact ⟨false, .refl _⟩
  · split
    · exact ⟨s.gbl.overbooked, .refl _⟩
    · exact ⟨true, .foldl (.refl _) fun _ _ hk => hk.postEvent⟩

/-- What a fault leaves in GBL, and the time, are as they were. -/
structure ReportKept (s t : State) : Prop where
  fault : t.gbl.fault = s.gbl.fault
  alert : t.gbl.alert = s.gbl.alert
  windows : t.gbl.windows = s.gbl.windows
  now : t.now = s.now

namespace ReportKept
variable {s0 s t : State}

theorem refl (s : State) : ReportKept s s := ⟨rfl, rfl, rfl, rfl⟩

theorem of_gbl (hgbl : t.gbl = s.gbl) (hnow : t.now = s.now) : ReportKept s t := by
  refine ⟨?_, ?_, ?_, hnow⟩ <;> rw [hgbl]

theorem recheck (h : ReportKept s0 s) : ReportKept s0 s.recheck := by
  obtain ⟨_, hevents⟩ := s.recheck_events
  exact ⟨hevents.fault.trans h.fault, hevents.alert.trans h.alert, hevents.windows.trans h.windows, hevents.now.trans h.now⟩

end ReportKept

/-- R507: GBL_FAULT, GBL_FAULT_COUNT and ALERT# after a report. -/
def State.faulted (s : State) (kind : Nat) (die : Side) (unit : Nat) : State :=
  { s with gbl := { s.gbl with
    fault := faultWord s.gbl.fault kind die unit, alert := true
    faultCount := if s.gbl.faultCount = 0xFFFFFFFF then s.gbl.faultCount else s.gbl.faultCount + 1 } }

/-- R428: a report sets the fault registers; all else that it touches is events. -/
theorem State.report_events (s : State) (kind : Nat) (die : Side) (unit : Nat) :
    EventOnly (s.faulted kind die unit) (s.report kind die unit) := by
  have hraised : EventOnly (s.faulted kind die unit) ((s.faulted kind die unit).countAo 0x03800130).raiseFault :=
    .foldl (EventOnly.refl _) fun _ _ hk => hk.raise
  exact .trace (.foldl hraised fun _ _ hk => hk.postEvent)

section
variable {s : State} (hlive : s.live = true) (hstop : s.gbl.stopped = false) (hwin : s.gbl.windows = [])
include hlive hstop hwin

/-- R421: a fault with no window open is reported and recovered, and its window opens. -/
theorem State.fault_recovers (kind : FaultKind) (die : Side) (unit : Nat) (recover : State → State) :
    s.fault kind die unit recover =
      let t := recover (s.report (kindCode kind) die unit)
      { t with gbl := { t.gbl with windows :=
        t.gbl.windows ++ [{ kind := kind, die := die, unit := unit, opened := t.now.toNat }] } } := by
  unfold State.fault
  rw [if_neg (by simp [hlive]), if_neg (by simp [hstop, hwin])]

/-- R421, R428: what a recovery that leaves the report alone leaves. -/
theorem State.fault_reported {kind : FaultKind} {die : Side} {unit : Nat} {recover : State → State}
    (hkept : ReportKept (s.report (kindCode kind) die unit) (recover (s.report (kindCode kind) die unit))) :
    (s.fault kind die unit recover).gbl.fault = faultWord s.gbl.fault (kindCode kind) die unit ∧
      (s.fault kind die unit recover).gbl.alert = true ∧
      (s.fault kind die unit recover).gbl.windows = [{ kind := kind, die := die, unit := unit, opened := s.now.toNat }] := by
  have hrep := s.report_events (kindCode kind) die unit
  have hopen : (s.report (kindCode kind) die unit).gbl.windows = [] := hrep.windows.trans hwin
  rw [State.fault_recovers hlive hstop hwin]
  dsimp only
  rw [hkept.fault, hkept.alert, hkept.windows, hkept.now, hopen, hrep.now]
  exact ⟨hrep.fault, hrep.alert, rfl⟩

end

end Machine
end Sys2Proof
end

section
/-! PROOFS. HDM decoders and the links of the CXL heads (R271, R273, R276, R297). -/

namespace Sys2Proof
namespace Machine

theorem Tbl.lookD_mapVals_of {α β : Type} (t : Tbl α) (f : Nat → α → β) (k : Nat) {d : α} {e : β} (h : f k d = e) :
    (t.mapVals f).lookD k e = f k (t.lookD k d) := by
  unfold Tbl.lookD
  rw [Tbl.look_mapVals]
  cases t.look k with
  | none => exact h.symm
  | some x => rfl

section
variable {s : State}

/-! ### Decoders (R276) -/

/-- R276: the span of the committed decoders below one. -/
def LdState.below (x : LdState) (i : Nat) : Nat :=
  (x.decoders.filter (fun d => decide (d.1 < i) && d.2.committed)).foldl (fun n d => n + (d.2.skip + d.2.size)) 0

/-- R276: whether a decoder may be committed. -/
def State.decoderGood (s : State) (ld : Ld) (i base size skip ways : Nat) (bi : Bool) : Bool :=
  decide (ways = 1 ∧ base % 268435456 = 0 ∧ size % 268435456 = 0 ∧ (s.ld ld).below i + (skip + size) ≤ dpaEnd) &&
    (s.cxp.head.get ld.head).hdmEn && !(bi && decide ((s.cxp.head.get ld.head).mode = 1))

/-- R276: whether the commit of a decoder is refused with its error bit. -/
def State.decoderBad (s : State) (ld : Ld) (i base size skip ways : Nat) (bi : Bool) : Bool :=
  ways ≠ 1 || dpaEnd < (s.ld ld).below i + (skip + size) || base % hdmUnit ≠ 0 || size % hdmUnit ≠ 0 ||
    !(s.cxp.head.get ld.head).hdmEn || (bi && (s.cxp.head.get ld.head).mode = 1)

theorem State.decoderBad_eq (ld : Ld) (i base size skip ways : Nat) (bi : Bool) :
    s.decoderBad ld i base size skip ways bi = !s.decoderGood ld i base size skip ways bi := by
  unfold State.decoderBad State.decoderGood hdmUnit
  rw [Bool.not_and, Bool.not_and, Bool.not_not, ← decide_not]
  congr 2
  simp only [← Bool.decide_or]
  exact decide_eq_decide.mpr (by omega)

theorem State.commitDecoder_new {ld : Ld} {i base size skip ways : Nat} {bi : Bool} (hi : i < 4)
    (hup : (s.cxp.head.get ld.head).up = true) (hnew : ((s.ld ld).decoders.lookD i {}).committed = false) :
    s.commitDecoder ld i base { size := size, skip := skip } ways bi = s.setLd ld { s.ld ld with
      decoders := (s.ld ld).decoders.put i { base := base, size := size, skip := skip, bi := bi
                                             committed := !s.decoderBad ld i base size skip ways bi
                                             error := s.decoderBad ld i base size skip ways bi } } :=
  if_neg (by simp [hup, hnew]; omega)

/-- R276: a committed decoder stays. -/
theorem exec_hdmDecoderCommit_again {ld : Ld} {i base ways : Nat} {size : HdmSize} {bi : Bool}
    (hold : ((s.ld ld).decoders.lookD i {}).committed = true) : exec (.hdmDecoderCommit ld i base size ways bi) s = .next s :=
  congrArg Host.Outcome.next (if_pos (by simp [hold]))

theorem hdmDecoderCommit_taken {ld : Ld} {i base size skip ways : Nat} {bi : Bool} (hi : i < 4)
    (hup : (s.cxp.head.get ld.head).up = true) (hnew : ((s.ld ld).decoders.lookD i {}).committed = false) :
    ∃ t, exec (.hdmDecoderCommit ld i base { size := size, skip := skip } ways bi) s = .next t ∧
      (t.ld ld).decoders.look i = some { base := base, size := size, skip := skip, bi := bi
                                         committed := s.decoderGood ld i base size skip ways bi
                                         error := !s.decoderGood ld i base size skip ways bi } ∧
      (∀ j, j ≠ i → (t.ld ld).decoders.look j = (s.ld ld).decoders.look j) ∧ { t with cxp := s.cxp } = s := by
  refine ⟨_, congrArg Host.Outcome.next (State.commitDecoder_new hi hup hnew), ?_, fun j hj => ?_, rfl⟩
  · rw [State.ld_setLd, State.decoderBad_eq, Bool.not_not]
    exact Tbl.look_put_self ..
  · rw [State.ld_setLd]
    exact Tbl.look_put_ne _ _ hj

/-! ### Links (R271, R273, R297) -/

/-- R271: a link that is down comes up in the mode negotiated, at the widest width of its working lanes. -/
theorem cxlLinkUp_taken {hd : Side} {mode : Nat} (hdown : (s.cxp.head.get hd).up = false) (hlow : 1 ≤ mode) (hhigh : mode ≤ 2)
    (hpow : s.pkg.powered = true) (hreset : s.pkg.resetHigh = true) : ∃ t, exec (.cxlLinkUp hd mode) s = .next t ∧
      t.cxp.head.get hd = { s.cxp.head.get hd with up := true, mode := mode, width := (s.cxp.head.get hd).widest } ∧
      { t with cxp := s.cxp } = s := by
  refine ⟨s.setHead hd { s.cxp.head.get hd with up := true, mode := mode, width := (s.cxp.head.get hd).widest },
    congrArg Host.Outcome.next (if_neg ?_), State.head_setHead .., rfl⟩
  simp [hdown, hpow, hreset]
  omega

/-- R280: the extents of an LD whose host is gone. -/
def LdState.closesDropped (x : LdState) : LdState :=
  { x with extents := x.extents.map (fun e => if e.closing then { e with dropped := true } else e) }

/-- R273: a head whose link has gone down. -/
def HeadState.down (h : HeadState) : HeadState :=
  { h with
    up := false, mode := 0, width := 0, ideIo := false, ideMem := false, ideKeys := [], ideSkid := false
    downCount := h.downCount + 1
    lds := (h.lds.mapVals (fun _ x => x.closesDropped)).mapVals (fun _ x => { x with decoders := [] }) }

theorem State.dropHost_head (hd : Side) : (s.dropHost hd).cxp.head.get hd =
    { s.cxp.head.get hd with lds := (s.cxp.head.get hd).lds.mapVals (fun _ x => x.closesDropped) } := Two.get_set_self ..

theorem State.cxlDown_up {hd : Side} (hup : (s.cxp.head.get hd).up = true) :
    s.cxlDown hd = (s.dropHost hd).setHead hd (s.cxp.head.get hd).down := by
  unfold State.cxlDown
  dsimp only
  rw [State.dropHost_head, if_neg (by simp [hup])]
  rfl

theorem State.cxlDown_head {hd : Side} (hup : (s.cxp.head.get hd).up = true) :
    (s.cxlDown hd).cxp.head.get hd = (s.cxp.head.get hd).down := by
  rw [State.cxlDown_up hup]
  exact State.head_setHead ..

theorem State.cxlDown_ld {hd : Side} (hup : (s.cxp.head.get hd).up = true) (l : Nat) :
    (s.cxlDown hd).ld ⟨hd, l⟩ = { (s.ld ⟨hd, l⟩).closesDropped with decoders := [] } := by
  unfold State.ld
  dsimp only
  rw [State.cxlDown_head hup]
  have hclosed := Tbl.lookD_mapVals_of (s.cxp.head.get hd).lds (fun _ x => x.closesDropped) l (d := {}) (e := {}) rfl
  have hcleared := Tbl.lookD_mapVals_of ((s.cxp.head.get hd).lds.mapVals (fun _ x => x.closesDropped))
    (fun _ x => { x with decoders := [] }) l (d := {}) (e := {}) rfl
  rw [hclosed] at hcleared
  exact hcleared

/-- An entry that is hit in a list of which every entry hit has been marked is marked. -/
theorem marked_of_mem_map {α : Type} {l : List α} {hit marked : α → Bool} {f : α → α} (hf : ∀ w, marked (f w) = true) {w : α}
    (hw : w ∈ l.map (fun w => if hit w then f w else w)) (h : hit w = true) : marked w = true := by
  obtain ⟨u, -, rfl⟩ := List.mem_map.mp hw
  split
  · exact hf u
  · next hu =>
    rw [if_neg hu] at h
    exact absurd h hu

/-- R273, R297: a link that goes down. -/
theorem cxlLinkDown_taken {hd : Side} (hup : (s.cxp.head.get hd).up = true) : ∃ t, exec (.cxlLinkDown hd) s = .next t ∧
    (t.cxp.head.get hd).up = false ∧ (t.cxp.head.get hd).ideIo = false ∧ (t.cxp.head.get hd).ideMem = false ∧
    (∀ l, (t.ld ⟨hd, l⟩).decoders = []) ∧ (∀ l, (t.ld ⟨hd, l⟩).extents =
      (s.ld ⟨hd, l⟩).extents.map (fun e => if e.closing then { e with dropped := true } else e)) ∧
    (t.cxp.head.get hd).sf = (s.cxp.head.get hd).sf ∧ (∀ w, w ∈ t.cxp.reqs → w.ld.head = hd → w.dropped = true) ∧
    (∀ w, w ∈ t.drt.hostWaits → w.ld.head = hd → w.dropped = true) ∧
    (∀ w, w ∈ t.drt.granWaits → w.ld.head = hd → w.dropped = true) ∧
    (∀ w, w ∈ t.drt.loadWaits → w.ld.head = hd → w.dropped = true) ∧ { t with cxp := s.cxp, drt := s.drt } = s := by
  refine ⟨s.cxlDown hd, rfl, ?_, ?_, ?_, fun l => ?_, fun l => ?_, ?_, ?_⟩
  · rw [State.cxlDown_head hup]
    rfl
  · rw [State.cxlDown_head hup]
    rfl
  · rw [State.cxlDown_head hup]
    rfl
  · rw [State.cxlDown_ld hup]
  · rw [State.cxlDown_ld hup]
    rfl
  · rw [State.cxlDown_head hup]
    rfl
  rw [State.cxlDown_up hup]
  exact ⟨fun w hw hhead => marked_of_mem_map (marked := HostReq.dropped) (fun _ => rfl) hw (beq_iff_eq.mpr hhead),
    fun w hw hhead => marked_of_mem_map (marked := HostWait.dropped) (fun _ => rfl) hw (beq_iff_eq.mpr hhead),
    fun w hw hhead => marked_of_mem_map (marked := GranWait.dropped) (fun _ => rfl) hw (beq_iff_eq.mpr hhead),
    fun w hw hhead => marked_of_mem_map (marked := LoadWait.dropped) (fun _ => rfl) hw (beq_iff_eq.mpr hhead), rfl⟩

/-- R273, R421: a fault of a lane narrows its link. -/
theorem cxlLaneFail_taken {hd : Side} {width lane : Nat} (hlive : s.live = true) (hstop : s.gbl.stopped = false)
    (hwin : s.gbl.windows = []) (hup : (s.cxp.head.get hd).up = true) (hwidth : width ∈ [4, 8, 16])
    (hnarrow : width ≤ (s.cxp.head.get hd).width) : ∃ t, exec (.cxlLaneFail hd width lane) s = .next t ∧
      (t.cxp.head.get hd).width = width ∧ (t.cxp.head.get hd).up = true ∧ t.gbl.fault = faultWord s.gbl.fault 6 hd lane ∧
      t.gbl.alert = true ∧ t.gbl.windows = [{ kind := .cxlLane, die := hd, unit := lane, opened := s.now.toNat }] ∧
      SameMemory s t := by
  let h : HeadState := { s.cxp.head.get hd with width := width, widest := Nat.min (s.cxp.head.get hd).widest width }
  let u := s.setHead hd h
  have hu : u.cxp.head.get hd = h := State.head_setHead ..
  have hdo : exec (.cxlLaneFail hd width lane) s = .next (u.fault .cxlLane hd lane id) :=
    congrArg Host.Outcome.next (if_pos (by simp only [Bool.and_eq_true, hup, List.contains_iff_mem, decide_eq_true_eq]
                                           exact ⟨⟨trivial, hwidth⟩, hnarrow⟩))
  obtain ⟨hfault, halert, hopen⟩ := State.fault_reported (s := u) (kind := .cxlLane) (die := hd) (unit := lane) (recover := id)
    hlive hstop hwin (.refl _)
  have hrep := u.report_events 6 hd lane
  have hhead : ((u.report 6 hd lane).cxp.head.get hd).withoutLds = h.withoutLds := (hrep.head hd).trans (congrArg _ hu)
  have hrec := State.fault_recovers (s := u) hlive hstop hwin .cxlLane hd lane id
  refine ⟨_, hdo, ?_, ?_, hfault, halert, hopen, fun x => ?_⟩
  · rw [hrec]
    exact (congrArg HeadState.width hhead :)
  · rw [hrec]
    exact (congrArg HeadState.up hhead :).trans hup
  · rw [hrec]
    exact hrep.sameMemory x

end

/-- Settles O52: each command passes its checks and sets the head, the LD or the lists that it names. -/
theorem decodersAndLinks : Obligations.DecodersAndLinks :=
  fun _ => ⟨fun _ _ _ _ _ _ _ hi hup hnew => hdmDecoderCommit_taken hi hup hnew,
    fun _ _ _ _ _ _ hold => exec_hdmDecoderCommit_again hold,
    fun _ _ hdown hlow hhigh hpow hreset => cxlLinkUp_taken hdown hlow hhigh hpow hreset, fun _ hup => cxlLinkDown_taken hup,
    fun _ _ _ hlive hstop hwin hup hwidth hnarrow => cxlLaneFail_taken hlive hstop hwin hup hwidth hnarrow⟩

end Machine
end Sys2Proof
end

section
/-! PROOFS. What finding room for a page leaves of the part (R196, R207, R209): `PagesOnly` of the victims, evictions, demotions
and frames taken. -/

namespace Sys2Proof
namespace Machine

namespace PagesOnly
variable {s0 s t : State}

/-! ### Victims (R207) -/

section
variable (hs : PagesOnly s0 s)
include hs

theorem turn {l skip want} : PagesOnly s0 (s.turn l skip want).2.2 := .foldl hs fun _ _ hk => hk.updPage

theorem clock {d k busy want} : PagesOnly s0 (s.clock d k busy want).2 := by
  have hput : ∀ {u : State} {l : List Nat}, PagesOnly s0 u →
      PagesOnly s0 { u with drt := { u.drt with victims := u.drt.victims.upd d (·.set k l) } } := fun h => .but h
  unfold State.clock
  dsimp only
  split
  · exact hs
  · split
    · next heq => exact hput (heq ▸ hs.turn : PagesOnly s0 (_, _, _).2.2)
    · next heq =>
      have hturned := (heq ▸ hs.turn : PagesOnly s0 (_, _, _).2.2)
      split
      · exact hput hturned
      · exact hput hturned.turn

theorem clocks {d busy want ks} : PagesOnly s0 (State.clocks d busy want ks s).2 := by
  induction ks generalizing s with
  | nil => exact hs
  | cons k ks ih =>
    rw [State.clocks]
    split
    · next heq => exact (heq ▸ hs.clock : PagesOnly s0 (_, _).2)
    · next heq => exact ih (heq ▸ hs.clock : PagesOnly s0 (_, _).2)

theorem victim {d busy want v} (heq : s.victim d busy want = some (v, t)) : PagesOnly s0 t := by
  have hclocks : PagesOnly s0 (State.clocks d busy want vlists s).2 := hs.clocks
  unfold State.victim at heq
  split at heq
  · next hc =>
    obtain ⟨-, rfl⟩ := Prod.mk.inj (Option.some.inj heq)
    rwa [hc] at hclocks
  · next hc =>
    obtain ⟨w, -, hpair⟩ := Option.map_eq_some_iff.mp heq
    obtain ⟨-, rfl⟩ := Prod.mk.inj hpair
    rwa [hc] at hclocks

/-! ### Demotions, evictions and frames -/

theorem startDemote {h} : PagesOnly s0 (s.startDemote h) := by
  unfold State.startDemote
  dsimp only
  split
  · split
    · exact hs.setPage.salted.setHalf
    · exact hs.setPage.setFull
  · exact hs

theorem startDemotes {n d busy} : PagesOnly s0 (s.startDemotes n d busy) := by
  induction n generalizing s with
  | zero => exact hs
  | succ n ih =>
    rw [State.startDemotes]
    refine .ite hs ?_
    split
    · exact hs
    · next heq => exact ih (hs.victim heq).startDemote

theorem evict {h} : PagesOnly s0 (s.evict h) := by
  unfold State.evict
  exact .ite hs.setPage.yieldFrame.relist.count hs

theorem setUrgent {d b} : PagesOnly s0 (s.setUrgent d b) := .but hs

theorem allocWaits {d again own quiet} : PagesOnly s0 (s.allocWaits d again own quiet) := by
  unfold State.allocWaits
  dsimp only
  split
  · next heq => exact .ite hs.setUrgent (hs.setUrgent.victim heq).evict
  · refine .ite (.startDemotes (.ite hs.setUrgent hs.setUrgent.count)) (.ite hs.setUrgent ?_)
    split
    · next heq => exact (hs.setUrgent.victim heq).dropPage.count
    · exact hs.setUrgent

theorem sweepWait {h waits quiet} : PagesOnly s0 (s.sweepWait h waits quiet) := by
  unfold State.sweepWait
  exact .ite (.but hs.allocWaits) (.but hs)

theorem addFrame {d f} : PagesOnly s0 (s.addFrame d f) := .but hs

theorem moveFrame {d f g} : PagesOnly s0 (s.moveFrame d f g) := by
  unfold State.moveFrame
  exact .but (.addFrame (.ite (.but hs) (.but hs)))

theorem emptyRegion {d ban l} (heq : State.emptyRegion d ban l s = some t) : PagesOnly s0 t := by
  induction l generalizing s with
  | nil => exact Option.some.inj heq ▸ hs
  | cons f r ih =>
    rw [State.emptyRegion] at heq
    split at heq
    · exact absurd heq (by simp)
    · exact ih hs.moveFrame heq

theorem compact {d kib} (heq : s.compact d kib = some t) : PagesOnly s0 t := by
  unfold State.compact at heq
  dsimp only at heq
  split at heq
  · exact absurd heq (by simp)
  · split at heq
    · exact absurd heq (by simp)
    · split at heq
      · exact absurd heq (by simp)
      · exact hs.emptyRegion heq

theorem takeFrame {d pref kib excl f} (heq : s.takeFrame d pref kib excl = some (f, t)) : PagesOnly s0 t := by
  obtain ⟨g, -, hpair⟩ := Option.map_eq_some_iff.mp heq
  obtain ⟨-, rfl⟩ := Prod.mk.inj hpair
  exact hs.addFrame

theorem quietRoom {n d pref kib excl} (hr : PagesOnly s0 t) : PagesOnly s0 ((s.quietRoom n d pref kib excl).state t) := by
  induction n generalizing s with
  | zero => exact hr
  | succ n ih =>
    rw [State.quietRoom]
    split
    · next heq => exact hs.takeFrame heq
    · split
      · next heq =>
        split
        · exact hr
        · exact ih (hs.victim heq).evict
      · split <;> exact hr

theorem allocQuiet {d pref kib excl} : PagesOnly s0 ((s.allocQuiet d pref kib excl).state s) := by
  unfold State.allocQuiet
  split
  · next heq => exact hs.takeFrame heq
  · cases hcompact : s.compact d kib with
    | none => exact hs.quietRoom hs
    | some t => exact (hs.compact hcompact).quietRoom hs

theorem gotQuiet {d pref kib excl f} (heq : s.allocQuiet d pref kib excl = .got f t) : PagesOnly s0 t := by
  have halloc : PagesOnly s0 ((s.allocQuiet d pref kib excl).state s) := hs.allocQuiet
  rwa [heq] at halloc

/-- R196: a mirror that is tried again. -/
theorem remirror {h} : PagesOnly s0 (s.remirror h) := by
  unfold State.remirror
  dsimp only
  split
  · split
    · next heq => exact (hs.gotQuiet heq).updPage.sweepWait
    · exact hs.sweepWait
    · exact hs.sweepWait
  · exact hs.sweepWait

end

end PagesOnly

end Machine
end Sys2Proof
end

section
/-! PROOFS. Faults of the recovery table, their windows, engine resets, the watchdog and ports that come and go
(R23, R413, R421-R429, R437). -/

namespace Sys2Proof
namespace Machine

/-! ### Engines -/

/-- R425: a failed Firebox is in service no more, unless it was its own spare. -/
theorem Engines.dropFirebox_out (e : Engines) {u : Nat} (hspare : u ∉ e.spares) : u ∉ (e.dropFirebox u).fireboxes := by
  have hout : u ∉ e.fireboxes.filter (· != u) := by simp
  unfold Engines.dropFirebox
  dsimp only
  split
  · next x r heq =>
    have hx : u ≠ x := fun h => hspare (by rw [heq, h]; exact List.mem_cons_self)
    simp [mem_insNat, hx]
  · exact hout

/-- R423: a Stoker counted upward from u is in the list, where the list holds one of the eight. -/
theorem nextStoker_mem {l : List Nat} {u v : Nat} (hv : v ∈ l) (hlt : v < 8) : nextStoker l u ∈ l := by
  have hsome : (((List.range 8).map (fun i => (u + 1 + i) % 8)).find? l.contains).isSome = true := by
    rw [List.find?_isSome]
    refine ⟨v, List.mem_map.mpr ⟨(v + 8 - (u + 1) % 8) % 8, List.mem_range.mpr (by omega), by omega⟩, by simpa using hv⟩
  obtain ⟨w, hw⟩ := Option.isSome_iff_exists.mp hsome
  have hmem : l.contains w = true := List.find?_some hw
  unfold nextStoker
  rw [hw]
  simpa using hmem

section
variable {s : State}

theorem State.moveUnits_keeps (d : Side) (u : Nat) : ∃ j, s.moveUnits d u = { s with jrn := j } := by
  unfold State.moveUnits
  split
  · exact ⟨s.jrn, rfl⟩
  · exact ⟨_, rfl⟩

theorem State.recheck_rings : s.recheck.rings = s.rings := (SentOnly.refl s).recheck.rings

theorem State.recheck_eng : s.recheck.eng = s.eng := by
  obtain ⟨b, hevents⟩ := s.recheck_events
  exact hevents.eng

theorem State.recheck_flu : s.recheck.flu = s.flu := by
  obtain ⟨b, hevents⟩ := s.recheck_events
  exact hevents.flu

theorem State.ring_congr {t : State} (h : t.rings = s.rings) (n : Nat) : t.ring n = s.ring n := by
  unfold State.ring
  rw [h]

theorem State.faulted_ring (kind : Nat) (die : Side) (unit n : Nat) : (s.faulted kind die unit).ring n = s.ring n := rfl

/-- R423: a ring after the failure of Stoker u of die d, of which the Stokers l are left. -/
def Ring.rebind (g : Ring) (d : Side) (u : Nat) (l : List Nat) : Ring :=
  if g.home == d && g.stoker == u && (g.en || g.draining) then { g with stoker := nextStoker l u, rebound := true } else g

/-- R423: the rings of a failed Stoker go to the next one in service. -/
theorem State.rebind_ring (d : Side) (u n : Nat) :
    (s.rebind d u).ring n = (s.ring n).rebind d u ((s.eng.get d).stokers.filter (· != u)) := by
  refine (State.ring_congr State.recheck_rings n).trans ?_
  exact Tbl.lookD_mapVals_of s.rings (fun _ g => g.rebind d u ((s.eng.get d).stokers.filter (· != u))) n (if_neg (by simp))

theorem PagesOnly.failed {t : State} (h : PagesOnly s t) : t.drt.failed = s.drt.failed := (congrArg Drt.failed h.drt :)

theorem PagesOnly.dead {t : State} (h : PagesOnly s t) : t.mem.dead = s.mem.dead := (congrArg Mem.dead h.unpagedMem :)

/-! ### A port that goes down (R437) -/

theorem State.endClose_port (n : Nat) : (s.endClose n).flu.port = s.flu.port := by
  unfold State.endClose
  dsimp only
  split <;> rfl

theorem State.endClose_gbl (n : Nat) : (s.endClose n).gbl = s.gbl := by
  unfold State.endClose
  dsimp only
  split <;> rfl

theorem State.endClose_pkg (n : Nat) : (s.endClose n).pkg = s.pkg := by
  unfold State.endClose
  dsimp only
  split <;> rfl

theorem State.endClose_now (n : Nat) : (s.endClose n).now = s.now := by
  unfold State.endClose
  dsimp only
  split <;> rfl

/-- R437: what a port that goes down leaves: it is down, and GBL, the package and the time are as they were. -/
theorem State.portDown_leaves (p : Side) : ((s.portDown p).flu.port.get p).up = false ∧ (s.portDown p).gbl = s.gbl ∧
    (s.portDown p).pkg = s.pkg ∧ (s.portDown p).now = s.now := by
  have hrefill : ∃ x, s.refillDue = { s with dmp := x } := by
    unfold State.refillDue
    dsimp only
    split
    · exact ⟨s.dmp, rfl⟩
    · exact ⟨_, rfl⟩
  obtain ⟨x, hx⟩ := hrefill
  unfold State.portDown
  dsimp only
  rw [hx]
  dsimp only
  split
  · next hdown => exact ⟨by simpa using hdown, rfl, rfl, rfl⟩
  · rw [foldl_keeps State.gbl _ (fun _ _ => State.endClose_gbl _), foldl_keeps State.pkg _ (fun _ _ => State.endClose_pkg _),
      foldl_keeps State.now _ (fun _ _ => State.endClose_now _), foldl_keeps (fun t => t.flu.port) _ (fun _ _ => State.endClose_port _)]
    exact ⟨congrArg PortState.up (Two.get_set_self ..), rfl, rfl, rfl⟩

end

section
variable {s : State} (hlive : s.live = true) (hstop : s.gbl.stopped = false) (hwin : s.gbl.windows = [])
include hlive hstop hwin

/-- R421: memory after a fault whose recovery leaves it as it was. -/
theorem State.fault_sameMemory {kind : FaultKind} {die : Side} {unit : Nat} {recover : State → State}
    (hmem : ∀ t, (recover t).mem = t.mem) : SameMemory s (s.fault kind die unit recover) := by
  intro x
  rw [State.fault_recovers hlive hstop hwin]
  refine congrArg (Mem.byte · x) ((hmem _).trans ?_)
  exact (s.report_events (kindCode kind) die unit).mem

/-- R425: a Firebox that fails with no window open. -/
theorem fireboxFault_recovers {d : Side} {u : Nat} (hin : u ∈ (s.eng.get d).fireboxes) (hspare : u ∉ (s.eng.get d).spares) :
    ∃ t, exec (.fireboxFault d u) s = .next t ∧ u ∉ (t.eng.get d).fireboxes ∧
      t.gbl.fault = faultWord s.gbl.fault 1 d u ∧ t.gbl.alert = true ∧
      t.gbl.windows = [{ kind := .firebox, die := d, unit := u, opened := s.now.toNat }] ∧ SameMemory s t := by
  let drop (t : State) : State := { t with eng := t.eng.set d ((t.eng.get d).dropFirebox u) }
  let recover (t : State) : State := (((drop t).rerunUnits d u).moveUnits d u).recheck
  have hdo : exec (.fireboxFault d u) s = .next (s.fault .firebox d u recover) :=
    congrArg Host.Outcome.next (if_neg (by simp [hin]))
  have hmoved : ∀ t, ∃ j, ((drop t).rerunUnits d u).moveUnits d u = { (drop t).rerunUnits d u with jrn := j } := fun t =>
    State.moveUnits_keeps d u
  have hkept : ∀ t, ReportKept t (recover t) := fun t => by
    obtain ⟨j, hj⟩ := hmoved t
    exact .recheck (.of_gbl (by rw [hj]; rfl) (by rw [hj]; rfl))
  have hmem : ∀ t, (recover t).mem = t.mem := fun t => by
    obtain ⟨j, hj⟩ := hmoved t
    exact State.recheck_mem.trans (by rw [hj]; rfl)
  have heng : ∀ t, ((recover t).eng.get d).fireboxes = ((t.eng.get d).dropFirebox u).fireboxes := fun t => by
    obtain ⟨j, hj⟩ := hmoved t
    rw [show (recover t).eng = _ from State.recheck_eng, hj]
    unfold State.rerunUnits State.markResumed State.mapRecs
    dsimp only
    rw [Two.get_set_self, Two.get_set_self]
  obtain ⟨hfault, halert, hopen⟩ := State.fault_reported hlive hstop hwin (hkept _)
  refine ⟨_, hdo, ?_, hfault, halert, hopen, State.fault_sameMemory hlive hstop hwin hmem⟩
  rw [State.fault_recovers hlive hstop hwin]
  dsimp only
  rw [heng, (s.report_events _ d u).eng]
  exact Engines.dropFirebox_out _ hspare

/-- R423: a Stoker that fails with no window open. -/
theorem stokerFault_recovers {d : Side} {u : Nat} (hin : u ∈ (s.eng.get d).stokers) :
    ∃ t, exec (.stokerFault d u) s = .next t ∧ u ∉ (t.eng.get d).stokers ∧
      (∀ v, v ∈ (s.eng.get d).stokers → v ≠ u → v < 8 → ∀ n, (s.ring n).home = d → (s.ring n).stoker = u →
        (s.ring n).en = true → (t.ring n).stoker ≠ u) ∧ t.gbl.fault = faultWord s.gbl.fault 2 d u ∧ SameMemory s t := by
  let recover (t : State) : State := t.rebind d u
  have hdo : exec (.stokerFault d u) s = .next (s.fault .stoker d u recover) :=
    congrArg Host.Outcome.next (if_pos (by simpa using hin))
  have hkept : ∀ t, ReportKept t (recover t) := fun t => .recheck (.of_gbl rfl rfl)
  have hmem : ∀ t, (recover t).mem = t.mem := fun t => State.recheck_mem
  obtain ⟨hfault, -, -⟩ := State.fault_reported hlive hstop hwin (hkept _)
  have hrep := s.report_events (kindCode .stoker) d u
  refine ⟨_, hdo, ?_, fun v hv hne hlt n hhome hst hen => ?_, hfault, State.fault_sameMemory hlive hstop hwin hmem⟩
  · rw [State.fault_recovers hlive hstop hwin]
    dsimp only [recover, State.rebind]
    rw [State.recheck_eng]
    dsimp only
    rw [Two.get_set_self]
    simp
  · rw [State.fault_recovers hlive hstop hwin]
    have hrings := State.rebind_ring (s := s.report (kindCode .stoker) d u) d u n
    rw [State.ring_congr hrep.rings, hrep.eng] at hrings
    show ((recover (s.report (kindCode .stoker) d u)).ring n).stoker ≠ u
    rw [hrings, State.faulted_ring, Ring.rebind, if_pos (by simp [hhome, hst, hen])]
    have hmem : nextStoker ((s.eng.get d).stokers.filter (· != u)) u ∈ (s.eng.get d).stokers.filter (· != u) :=
      nextStoker_mem (List.mem_filter.mpr ⟨hv, by simpa using hne⟩) hlt
    intro h
    have hout := (List.mem_filter.mp hmem).2
    rw [show nextStoker ((s.eng.get d).stokers.filter (· != u)) u = u from h] at hout
    simp at hout

/-- R422: a journal bank that fails with no window open. -/
theorem journalBankFault_recovers {d : Side} {b : Nat} (hlt : b < 32) (hnew : b ∉ s.jrn.lostBanks) :
    ∃ t, exec (.journalBankFault d b) s = .next t ∧ t.jrn.rebuilding.get d = true ∧ t.jrn.recs = s.jrn.recs ∧
      (s.jrn.spares.get d = 0 → b ∈ t.jrn.lostBanks) ∧ t.jrn.spares.get d = s.jrn.spares.get d - 1 ∧
      t.gbl.fault = faultWord s.gbl.fault 3 d b ∧ SameMemory s t := by
  let recover (t : State) : State := t.bankFails d b
  have hdo : exec (.journalBankFault d b) s = .next (s.fault .journalBank d b recover) :=
    congrArg Host.Outcome.next (if_pos (by simp [hlt, hnew]))
  obtain ⟨hfault, -, -⟩ := State.fault_reported (recover := recover) hlive hstop hwin (.of_gbl rfl rfl)
  have hrep := s.report_events (kindCode .journalBank) d b
  have hjrn : (s.fault .journalBank d b recover).jrn = (s.bankFails d b).jrn := by
    rw [State.fault_recovers hlive hstop hwin]
    dsimp only [recover, State.bankFails]
    rw [hrep.jrn]
    rfl
  refine ⟨_, hdo, ?_, ?_, fun hzero => ?_, ?_, hfault, State.fault_sameMemory hlive hstop hwin fun _ => rfl⟩
  all_goals rw [hjrn]; unfold State.bankFails; dsimp only
  · split <;> exact Two.get_set_self ..
  · split <;> rfl
  · rw [if_pos hzero]
    exact mem_insNat.mpr (Or.inl rfl)
  · split
    · next hzero =>
      show s.jrn.spares.get d = s.jrn.spares.get d - 1
      omega
    · exact Two.get_set_self ..

/-- R424: a stack that fails with no window open. -/
theorem hbmStackFault_recovers {d : Side} {st : Nat} (hlt : st < 10) (hnone : s.drt.failed.get d = []) :
    ∃ t, exec (.hbmStackFault d st) s = .next t ∧ st ∈ t.drt.failed.get d ∧ (∀ g, g ∈ s.granulesOn d st → g ∈ t.mem.dead) ∧
      t.gbl.fault = faultWord s.gbl.fault 4 d st := by
  let recover (t : State) : State := t.stackFails d st
  have hdo : exec (.hbmStackFault d st) s = .next (s.fault .hbmStack d st recover) := by
    refine congrArg Host.Outcome.next ((if_neg ?_).trans (if_neg ?_))
    · simp only [hnone, hlive, Bool.or_eq_true, decide_eq_true_eq, List.contains_nil]
      simp
      omega
    · simp [hnone]
  have hpages : ∀ t : State, ∃ u, PagesOnly { t with
      drt := { t.drt with failed := t.drt.failed.set d (insNat (t.drt.failed.get d) st) }
      mem := { t.mem with dead := (t.granulesOn d st).foldl insNat t.mem.dead }
      rings := t.rings.mapVals (fun _ g => if (g.en || g.draining) && g.cqOn (t.granulesOn d st) then { g with cqLost := true } else g) } u ∧
      recover t = u.recheck := fun t => ⟨_, .foldl (.refl _) fun _ _ hk => hk.stackTreat, rfl⟩
  have hrep := s.report_events (kindCode .hbmStack) d st
  obtain ⟨u, hu, hrec⟩ := hpages (s.report (kindCode .hbmStack) d st)
  obtain ⟨b, hevents⟩ := u.recheck_events
  obtain ⟨hfault, -, -⟩ := State.fault_reported (recover := recover) hlive hstop hwin (by
    rw [show recover (s.report (kindCode .hbmStack) d st) = u.recheck from hrec]
    exact .recheck (.of_gbl hu.gbl hu.now))
  refine ⟨_, hdo, ?_, fun g hg => ?_, hfault⟩
  · rw [State.fault_recovers hlive hstop hwin]
    show st ∈ (recover (s.report (kindCode .hbmStack) d st)).drt.failed.get d
    rw [hrec, hevents.drt]
    show st ∈ u.drt.failed.get d
    rw [hu.failed, Two.get_set_self]
    exact mem_insNat.mpr (Or.inl rfl)
  · rw [State.fault_recovers hlive hstop hwin]
    show g ∈ (recover (s.report (kindCode .hbmStack) d st)).mem.dead
    rw [hrec, hevents.mem]
    show g ∈ u.mem.dead
    rw [hu.dead]
    refine mem_foldl_insNat.mpr (Or.inl ?_)
    unfold State.granulesOn at hg ⊢
    rwa [hrep.mem]

/-- R426: a lane of the bridge that fails with no window open. -/
theorem bridgeLaneFault_recovers {d : Side} {lane : Nat} (hlt : lane < 520) : ∃ t, exec (.bridgeLaneFault d lane) s = .next t ∧
    t.eng.get d = (s.eng.get d).dropLane ∧ t.gbl.fault = faultWord s.gbl.fault 5 d lane ∧ SameMemory s t := by
  let recover (t : State) : State := { t with eng := t.eng.set d (t.eng.get d).dropLane }
  have hdo : exec (.bridgeLaneFault d lane) s = .next (s.fault .bridgeLane d lane recover) := congrArg Host.Outcome.next (if_pos hlt)
  obtain ⟨hfault, -, -⟩ := State.fault_reported (recover := recover) hlive hstop hwin (.of_gbl rfl rfl)
  refine ⟨_, hdo, ?_, hfault, State.fault_sameMemory hlive hstop hwin fun _ => rfl⟩
  rw [State.fault_recovers hlive hstop hwin]
  dsimp only [recover]
  rw [Two.get_set_self, (s.report_events _ d lane).eng]
  rfl

/-- R437: a Flue port that goes down with no window open. -/
theorem fluePortDown_recovers {p : Side} {lane : Nat} (hup : (s.flu.port.get p).up = true) :
    ∃ t, exec (.fluePortDown p lane) s = .next t ∧ (t.flu.port.get p).up = false ∧
      t.gbl.fault = faultWord s.gbl.fault 7 p lane ∧ SameMemory s t := by
  let u := (s.portDown p).recheck
  have hdo : exec (.fluePortDown p lane) s = .next (u.fault .flueLane p lane id) := congrArg Host.Outcome.next (if_pos hup)
  obtain ⟨hdown, hgbl, hpkg, hnow⟩ := State.portDown_leaves (s := s) p
  obtain ⟨b, hevents⟩ := (s.portDown p).recheck_events
  have hulive : u.live = true := hevents.live.trans (by
    unfold State.live at hlive ⊢
    rw [← hlive]
    dsimp only
    rw [hgbl, hpkg])
  have hustop : u.gbl.stopped = false := hevents.stopped.trans ((congrArg Gbl.stopped hgbl).trans hstop)
  have huwin : u.gbl.windows = [] := hevents.windows.trans ((congrArg Gbl.windows hgbl).trans hwin)
  obtain ⟨hfault, -, -⟩ := State.fault_reported (s := u) (kind := .flueLane) (die := p) (unit := lane) (recover := id)
    hulive hustop huwin (.refl _)
  have hsame := State.fault_sameMemory (s := u) hulive hustop huwin (kind := .flueLane) (die := p) (unit := lane)
    (recover := id) fun _ => rfl
  have hmem : u.mem = s.mem := (SentOnly.refl s).portDown.recheck.mem
  refine ⟨_, hdo, ?_, hfault.trans ?_, fun x => (hsame x).trans (congrArg (Mem.byte · x) hmem)⟩
  · rw [State.fault_recovers hulive hustop huwin]
    dsimp only [id]
    rw [(u.report_events _ p lane).flu]
    exact (congrArg (fun f : Flu => (f.port.get p).up) State.recheck_flu).trans hdown
  · have hufault : u.gbl.fault = s.gbl.fault := hevents.fault.trans (congrArg Gbl.fault hgbl :)
    rw [hufault]
    rfl

end

section
variable {s : State} (hlive : s.live = true) (hstop : s.gbl.stopped = false)
include hlive hstop

/-- R23, R427: a fault inside an open window stops the part. -/
theorem secondFaultStop_stops (hwin : s.gbl.windows ≠ []) (k : FaultKind) (d : Side) (u : Nat) :
    ∃ t, exec (.secondFaultStop k d u) s = .next t ∧ t.gbl.stopped = true ∧ t.jrn.sealed = true ∧ t.running = false ∧
      t.jrn.recs = s.jrn.recs ∧ SameMemory s t := by
  have hdo : s.fault k d u id = s.fatal d u :=
    (if_neg (by simp [hlive])).trans (if_pos (by simpa using Or.inr hwin))
  have hrep := s.report_events 11 d u
  refine ⟨_, congrArg Host.Outcome.next ((if_neg (by simp [hwin, hstop])).trans hdo), rfl, rfl, ?_, ?_, hrep.sameMemory⟩
  · simp [State.running, State.fatal]
  · exact (congrArg Journal.recs hrep.jrn :)

/-- R413: what an engine reset marks: the instructions that run again. -/
theorem engineReset_marks (d : Side) :
    (∃ t, exec (.engineReset d .walker 0) s = .next t ∧ t.jrn.recs.length = s.jrn.recs.length ∧ { t with jrn := s.jrn } = s) ∧
      (∀ u, u < 32 → ∃ t, exec (.engineReset d .checkUnit u) s = .next t ∧ t.jrn.recs.length = s.jrn.recs.length ∧
        { t with jrn := s.jrn } = s) := by
  have hdo : ∀ k u, s.engineReset d k u = match k with
      | .walker => if u < 16 then s.resumeOps d 0x10 0x53 else s
      | .checkUnit => if u < 32 then s.resumeOps d 0x90 0x93 else s
      | k => s.engineReset d k u := fun k u => by
    cases k with
    | walker => exact if_neg (by simp [hlive, hstop])
    | checkUnit => exact if_neg (by simp [hlive, hstop])
    | _ => rfl
  have hmarks : ∀ lo hi, (s.resumeOps d lo hi).jrn.recs.length = s.jrn.recs.length ∧ { s.resumeOps d lo hi with jrn := s.jrn } = s :=
    fun lo hi => ⟨List.length_map .., rfl⟩
  refine ⟨⟨_, congrArg Host.Outcome.next ((hdo .walker 0).trans (if_pos (by decide))), hmarks _ _⟩, fun u hu => ?_⟩
  exact ⟨_, congrArg Host.Outcome.next ((hdo .checkUnit u).trans (if_pos hu)), hmarks _ _⟩

omit hlive in
/-- R421: a window that ends is closed. -/
theorem recoveryWindowEnd_closes {k : FaultKind} {d : Side} {u : Nat} {w : Window}
    (hfind : s.gbl.windows.find? (fun x => x.kind == k && x.die == d && x.unit == u) = some w) (hwarm : s.gbl.warmWaiting = false) :
    ∃ t, exec (.recoveryWindowEnd k d u) s = .next t ∧ t.gbl.windows = s.gbl.windows.filter (· != w) := by
  have hrecovered : ∀ x : State, (x.recovered w).gbl = x.gbl := fun x => by
    unfold State.recovered
    split
    · rfl
    · rfl
    · exact (PagesOnly.foldl (.refl _) fun _ _ hk => hk.remirror).gbl
    · rfl
  have hresumed : ∀ (x : State) c, (x.resumed d 3 w.opened c).gbl = x.gbl := fun x c => State.trace_gbl ..
  refine ⟨_, rfl, ?_⟩
  unfold State.windowEnd
  rw [hfind]
  dsimp only
  rw [if_neg (by simp [hstop])]
  have hstays : ∀ x : State, x.gbl = { s.gbl with windows := s.gbl.windows.filter (· != w) } →
      (if x.gbl.warmWaiting then x.startWarm else x).gbl.windows = s.gbl.windows.filter (· != w) := fun x hx => by
    rw [if_neg (by rw [hx]; simp [hwarm]), hx]
  refine hstays _ ?_
  split
  · exact (hresumed _ _).trans (hrecovered _)
  · exact hrecovered _

omit hstop in
/-- R437: a port of a part that is not HELD comes up. -/
theorem fluePortUp_comes (hheld : s.gbl.held = false) {p : Side} {phy : Nat} (hen : (s.flu.port.get p).en = true)
    (hdown : (s.flu.port.get p).up = false) (hlow : 1 ≤ phy) (hhigh : phy ≤ 3) :
    ∃ t, exec (.fluePortUp p phy) s = .next t ∧ (t.flu.port.get p).up = true ∧ (t.flu.port.get p).phy = phy := by
  let up (t : State) : State := { t.setPort p { t.flu.port.get p with up := true, phy := phy } with
    flu := { (t.setPort p { t.flu.port.get p with up := true, phy := phy }).flu with bothDown := none } }
  have hport : s.refillDue.flu = s.flu := by
    unfold State.refillDue
    dsimp only
    split <;> rfl
  have hdo : s.portUp p phy = (((up s.refillDue).sendMka p).pfcUpdate p).pumpAll := by
    unfold State.portUp
    dsimp only
    rw [hport]
    exact (if_neg (by simp [hen, hdown]; omega)).trans (by rw [← hport])
  have hpumped : Pumped (up s.refillDue) (s.portUp p phy).recheck := by
    rw [hdo]
    exact (Pumped.refl _).sendMka.pfcUpdate.pumpAll.recheck
  have hup : (up s.refillDue).flu.port.get p = { s.refillDue.flu.port.get p with up := true, phy := phy } := Two.get_set_self ..
  refine ⟨_, congrArg Host.Outcome.next (if_pos (by simp [hlive, hheld])), ?_, ?_⟩
  · rw [hpumped.up p, hup]
  · rw [hpumped.phy p, hup]

end

/-! ### The watchdog (R427) -/

section
variable {s : State}

theorem watchdogExpiry_early (h : ∃ t0, s.gbl.mantelAt = some t0 ∧ s.now.toNat < t0 + 100000000) :
    exec .watchdogExpiry s = .next s := by
  obtain ⟨t0, hat, hlt⟩ := h
  refine congrArg Host.Outcome.next (if_pos ?_)
  rw [hat]
  simp [hlt]

/-- The watchdog is due. -/
theorem exec_watchdogExpiry (hlive : s.live = true) (hdue : ∀ t0, s.gbl.mantelAt = some t0 → t0 + 100000000 ≤ s.now.toNat) :
    exec .watchdogExpiry s = .next (if s.drt.granWaits.isEmpty && s.drt.loadWaits.isEmpty then s.mantelRestart
      else s.mantelRestart.no .retryRequired) := by
  refine congrArg Host.Outcome.next (if_neg ?_)
  cases hat : s.gbl.mantelAt with
  | none => simp [hlive]
  | some t0 => simpa [hlive] using hdue t0 hat

theorem watchdogExpiry_idle (hlive : s.live = true) (hdue : ∀ t0, s.gbl.mantelAt = some t0 → t0 + 100000000 ≤ s.now.toNat)
    (hgran : s.drt.granWaits = []) (hload : s.drt.loadWaits = []) :
    ∃ t, exec .watchdogExpiry s = .next t ∧ t.gbl.mantelAt = some s.now.toNat ∧ { t with gbl := s.gbl } = s := by
  refine ⟨_, (exec_watchdogExpiry hlive hdue).trans (congrArg Host.Outcome.next (if_pos (by simp [hgran, hload]))), rfl, ?_⟩
  have hdrt : { s.drt with granWaits := [], loadWaits := [] } = s.drt := by
    rw [← hgran, ← hload]
  show { s with drt := { s.drt with granWaits := [], loadWaits := [] } } = s
  rw [hdrt]

theorem watchdogExpiry_answers (hlive : s.live = true) (hdue : ∀ t0, s.gbl.mantelAt = some t0 → t0 + 100000000 ≤ s.now.toNat)
    (hwait : s.drt.granWaits ≠ [] ∨ s.drt.loadWaits ≠ []) : ∃ t, exec .watchdogExpiry s = .next t ∧
      t.resp.ret = .retryRequired ∧ t.drt.granWaits = [] ∧ t.drt.loadWaits = [] ∧ SameMemory s t := by
  refine ⟨_, (exec_watchdogExpiry hlive hdue).trans (congrArg Host.Outcome.next (if_neg ?_)), rfl, rfl, rfl, fun _ => rfl⟩
  simpa [Classical.or_iff_not_imp_left] using hwait

end

/-- Settles O60: a fault with no window open is reported and recovered (`State.fault_reported`), and each recovery leaves the
report alone. -/
theorem faultsRecovered : Obligations.FaultsRecovered :=
  fun _ hlive hstop => ⟨fun hwin => ⟨fun _ _ hin hspare => fireboxFault_recovers hlive hstop hwin hin hspare,
      fun _ _ hin => stokerFault_recovers hlive hstop hwin hin,
      fun _ _ hlt hnew => journalBankFault_recovers hlive hstop hwin hlt hnew,
      fun _ _ hlt hnone => hbmStackFault_recovers hlive hstop hwin hlt hnone,
      fun _ _ hlt => bridgeLaneFault_recovers hlive hstop hwin hlt, fun _ _ hup => fluePortDown_recovers hlive hstop hwin hup⟩,
    fun hwin k d u => secondFaultStop_stops hlive hstop hwin k d u,
    fun hwin _ _ _ => congrArg Host.Outcome.next (if_pos (by simp [hwin])),
    fun _ _ _ _ hfind hwarm => recoveryWindowEnd_closes hstop hfind hwarm, fun d => engineReset_marks hlive hstop d,
    watchdogExpiry_early, fun hdue hgran hload => watchdogExpiry_idle hlive hdue hgran hload,
    fun hdue hwait => watchdogExpiry_answers hlive hdue hwait,
    fun _ _ hen hdown hlow hhigh hheld => fluePortUp_comes hlive hheld hen hdown hlow hhigh⟩

end Machine
end Sys2Proof
end

section
/-! PROOFS. Regulators, the supply controller, the thermal pause, sensors and clocks (R265, R266, R480, R484, R491, R493). -/

namespace Sys2Proof
namespace Machine

section
variable {s : State} (hpow : s.pkg.powered = true) (hreset : s.pkg.resetHigh = true)
include hpow hreset

/-- A command of the package reaches a part that is powered and out of reset. -/
theorem State.awake_takes (go : State → State) : s.awake go = go s := if_pos (by simp [hpow, hreset])

/-! ### Regulators (R480) -/

theorem regulatorPoll_taken (d : Side) (v : BitVec 16) : ∃ t, exec (.regulatorPoll d v) s = .next t ∧ t.pkg.iout.get d = v ∧
    t.pkg.regSilent.get d = false ∧ { t with pkg := s.pkg } = s :=
  ⟨_, congrArg Host.Outcome.next (State.awake_takes hpow hreset _), Two.get_set_self .., Two.get_set_self .., rfl⟩

theorem regulatorTimeout_silent {d : Side} (hnew : s.pkg.regSilent.get d = false)
    (hdue : s.pkg.regAt.get d + 1000000 ≤ s.now.toNat) : ∃ t, exec (.regulatorTimeout d) s = .next t ∧
      t.pkg.regSilent.get d = true ∧ t.pkg.vtarget = s.pkg.vtarget ∧ t.gbl.fault = faultWord s.gbl.fault 9 d 0 ∧
      t.gbl.alert = true ∧ SameMemory s t := by
  let u : State := { s with pkg := { s.pkg with regSilent := s.pkg.regSilent.set d true } }
  have hrep := u.report_events 9 d 0
  have hdo : exec (.regulatorTimeout d) s = .next (u.report 9 d 0) :=
    congrArg Host.Outcome.next ((State.awake_takes hpow hreset _).trans (if_neg (by simp [hnew]; omega)))
  refine ⟨_, hdo, ?_, ?_, hrep.fault, hrep.alert, hrep.sameMemory⟩
  · rw [hrep.pkg]
    exact Two.get_set_self ..
  · rw [hrep.pkg]
    rfl

theorem regulatorTimeout_idle {d : Side} (h : s.now.toNat < s.pkg.regAt.get d + 1000000 ∨ s.pkg.regSilent.get d = true) :
    exec (.regulatorTimeout d) s = .next s :=
  congrArg Host.Outcome.next ((State.awake_takes hpow hreset _).trans
    (if_pos (by simp only [Bool.or_eq_true, decide_eq_true_eq]; exact h.symm)))

/-! ### The supply controller (R491) -/

/-- R491: a core target one step further at most, inside its range. -/
def StepOf (target v : Nat) : Prop := 620 ≤ v ∧ v ≤ 800 ∧ v ≤ target + 5 ∧ target ≤ v + 5

omit hpow hreset in
theorem StepOf.ite {target v w : Nat} {c : Prop} [Decidable c] (hv : StepOf target v) (hw : StepOf target w) :
    StepOf target (if c then v else w) := by
  split
  · exact hv
  · exact hw

omit hpow hreset in
/-- R491: a tick moves the target by at most one step inside its range, down where the die is hot. -/
theorem supplyTick_step (level : Nat) {target : Nat} (temp : Int) (rate : Nat) (hot held : Bool) (hlow : 620 ≤ target)
    (hhigh : target ≤ 800) : StepOf target (supplyTick level target temp rate hot held).2 ∧
      (temp ≥ 105 → (supplyTick level target temp rate hot held).2 = Nat.max 620 (target - 5)) := by
  have hmax : ∀ a b : Nat, Nat.max a b = max a b := fun _ _ => rfl
  have hmin : ∀ a b : Nat, Nat.min a b = min a b := fun _ _ => rfl
  have hstay : StepOf target target := ⟨hlow, hhigh, by omega, by omega⟩
  have hlower : StepOf target (Nat.max 620 (target - 5)) := by
    unfold StepOf
    rw [hmax]
    omega
  have hraised : StepOf target (Nat.min 800 (target + 5)) := by
    unfold StepOf
    rw [hmin]
    omega
  have hhold : StepOf target (holdRate target rate held) := by
    unfold holdRate
    split
    · exact hraised
    · exact hstay
  have hrecover : StepOf target (recover target rate held) := by
    unfold recover
    split
    · exact hraised
    · split
      · exact ⟨by omega, by omega, by omega, by omega⟩
      · split
        · exact hstay
        · unfold StepOf
          rw [hmax]
          omega
  unfold supplyTick
  dsimp only
  refine ⟨?_, fun hhot => if_pos (by simp [hhot])⟩
  exact .ite hlower (.ite (.ite hstay hlower) (.ite (.ite hhold hlower) (.ite hhold hrecover)))

theorem supplyControlTick_idle {d : Side} (temp : Int) (rate : Nat) (hearly : s.supplyDue d = false) :
    exec (.supplyControlTick d temp rate) s = .next s :=
  congrArg Host.Outcome.next ((State.awake_takes hpow hreset _).trans (if_neg (by simp [hearly])))

theorem supplyControlTick_due {d : Side} (temp : Int) (rate : Nat) (hdue : s.supplyDue d = true) :
    ∃ t, exec (.supplyControlTick d temp rate) s = .next t ∧
      (s.pkg.regSilent.get d = true → t.pkg.vtarget.get d = s.pkg.vtarget.get d) ∧
      (s.pkg.regSilent.get d = false → 620 ≤ s.pkg.vtarget.get d → s.pkg.vtarget.get d ≤ 800 →
        620 ≤ t.pkg.vtarget.get d ∧ t.pkg.vtarget.get d ≤ 800 ∧ t.pkg.vtarget.get d ≤ s.pkg.vtarget.get d + 5 ∧
        s.pkg.vtarget.get d ≤ t.pkg.vtarget.get d + 5 ∧
        (temp ≥ 105 → t.pkg.vtarget.get d = Nat.max 620 (s.pkg.vtarget.get d - 5))) ∧
      (t.tel.beat.get d).rate = BitVec.ofNat 16 rate ∧ (t.tel.beat.get d).tj = temp ∧
      { t with pkg := s.pkg, tel := s.tel } = s := by
  let p : Package := { s.pkg with supplyAt := s.pkg.supplyAt.set d (some s.now.toNat) }
  have htarget : (s.supply d temp rate).pkg.vtarget.get d = (if s.pkg.regSilent.get d then (s.pkg.throttle.get d, s.pkg.vtarget.get d)
      else supplyTick (s.pkg.throttle.get d) (s.pkg.vtarget.get d) temp rate p.overPower s.floorHeld).2 := Two.get_set_self ..
  refine ⟨s.supply d temp rate, congrArg Host.Outcome.next ((State.awake_takes hpow hreset _).trans (if_pos hdue)), fun hsilent => ?_,
    fun hpolled hlow hhigh => ?_, ?_, ?_, rfl⟩
  · rw [htarget, if_pos hsilent]
  · rw [htarget, if_neg (by simp [hpolled])]
    obtain ⟨⟨h1, h2, h3, h4⟩, hhot⟩ :=
      supplyTick_step (s.pkg.throttle.get d) temp rate p.overPower s.floorHeld hlow hhigh
    exact ⟨h1, h2, h3, h4, hhot⟩
  · exact congrArg BeatMon.rate (Two.get_set_self ..)
  · exact congrArg BeatMon.tj (Two.get_set_self ..)

/-! ### The thermal pause (R484) -/

theorem exec_thermalPauseSlot (d : Side) (temp : Int) : exec (.thermalPauseSlot d temp) s = .next (s.pauseSlot d temp) :=
  congrArg Host.Outcome.next (State.awake_takes hpow hreset _)

theorem thermalPause_cool {d : Side} {temp : Int} (hnone : s.pkg.thermalPause.get d = none) (hcool : temp < 110) :
    exec (.thermalPauseSlot d temp) s = .next s := by
  rw [exec_thermalPauseSlot hpow hreset]
  unfold State.pauseSlot
  rw [hnone]
  exact congrArg Host.Outcome.next (if_neg (by omega))

theorem thermalPause_begins {d : Side} {temp : Int} (hnone : s.pkg.thermalPause.get d = none) (hhot : temp ≥ 110) :
    ∃ t, exec (.thermalPauseSlot d temp) s = .next t ∧ t.pkg.thermalPause.get d = some s.now.toNat ∧ t.dieRuns d = false ∧
      { t with pkg := s.pkg } = s := by
  have hdo : s.pauseSlot d temp = { s with pkg := { s.pkg with
      thermalPause := s.pkg.thermalPause.set d (some s.now.toNat) } } := by
    unfold State.pauseSlot
    rw [hnone]
    exact if_pos hhot
  refine ⟨_, (exec_thermalPauseSlot hpow hreset d temp).trans (congrArg Host.Outcome.next hdo), Two.get_set_self .., ?_, rfl⟩
  unfold State.dieRuns
  dsimp only
  rw [Two.get_set_self]
  exact Bool.and_false _

theorem thermalPause_lasts {d : Side} {temp : Int} {t0 : Nat} (hat : s.pkg.thermalPause.get d = some t0)
    (hstay : temp ≥ 108 ∨ s.now.toNat < t0 + 100000) : exec (.thermalPauseSlot d temp) s = .next s := by
  rw [exec_thermalPauseSlot hpow hreset]
  unfold State.pauseSlot
  rw [hat]
  refine congrArg Host.Outcome.next (if_neg ?_)
  simp only [Bool.and_eq_true, decide_eq_true_eq]
  omega

theorem thermalPause_ends {d : Side} {temp : Int} {t0 : Nat} (hat : s.pkg.thermalPause.get d = some t0) (hcool : temp < 108)
    (hlong : t0 + 100000 ≤ s.now.toNat) : ∃ t, exec (.thermalPauseSlot d temp) s = .next t ∧ t.pkg.thermalPause.get d = none ∧
      t.jrn.recs.length = s.jrn.recs.length ∧ SameMemory s t := by
  let u : State := { s with pkg := { s.pkg with thermalPause := s.pkg.thermalPause.set d none } }
  have hdo : s.pauseSlot d temp = (u.leavePause d t0).resumed d 2 t0 := by
    unfold State.pauseSlot
    rw [hat]
    exact if_pos (by simp [hcool, hlong])
  have hevents : EventOnly (u.leavePause d t0) ((u.leavePause d t0).resumed d 2 t0) := (EventOnly.refl _).tel.trace
  refine ⟨_, (exec_thermalPauseSlot hpow hreset d temp).trans (congrArg Host.Outcome.next hdo), ?_, ?_, hevents.sameMemory⟩
  · rw [hevents.pkg]
    exact Two.get_set_self ..
  · rw [hevents.jrn]
    exact List.length_map ..

/-! ### Sensors (R265, R266) -/

theorem sensorPoll_absent {k : Nat} (v : BitVec 16) (habsent : k ∈ s.pkg.absent) : exec (.sensorPoll k v) s = .next s :=
  congrArg Host.Outcome.next ((State.awake_takes hpow hreset _).trans (if_pos (by simp [habsent])))

theorem sensorPoll_taken {k : Nat} (v : BitVec 16) (hk : k < 8) (hthere : k ∉ s.pkg.absent) :
    ∃ t, exec (.sensorPoll k v) s = .next t ∧ t.pkg.sensors.look k = some v.toInt ∧
      (∀ j, j ≠ k → t.pkg.sensors.look j = s.pkg.sensors.look j) ∧ { t with pkg := s.pkg, coal := s.coal } = s := by
  let p : Package := { s.pkg with
    sensors := s.pkg.sensors.put k v.toInt, sensorAt := s.pkg.sensorAt.put k s.now.toNat }
  have hdo : ∃ c, exec (.sensorPoll k v) s = .next { s with pkg := p, coal := c } := by
    have hgo := fun go => congrArg (Host.Outcome.next (φ := Fault) (ρ := Refusal)) (State.awake_takes hpow hreset go)
    have htake : exec (.sensorPoll k v) s = .next (if s.coal.sensors.getLsbD k then
        match State.nandTemp { s with pkg := p } with
        | some t => { s with pkg := p, coal := { s.coal with health := s.coal.health.reading t } }
        | none => { s with pkg := p }
      else { s with pkg := p }) :=
      (hgo _).trans (congrArg Host.Outcome.next (if_neg (by simp [hthere, Nat.not_le.mpr hk])))
    rw [htake]
    split
    · split
      · exact ⟨_, rfl⟩
      · exact ⟨s.coal, rfl⟩
    · exact ⟨s.coal, rfl⟩
  obtain ⟨c, hc⟩ := hdo
  exact ⟨_, hc, Tbl.look_put_self .., fun j hj => Tbl.look_put_ne _ _ hj, rfl⟩

theorem sensorTimeout_excludes {k : Nat} (hhas : s.pkg.sensors.has k = true) (hnew : k ∉ s.pkg.excluded)
    (hdue : s.pkg.sensorAt.lookD k 0 + 1000000000 ≤ s.now.toNat) :
    ∃ t, exec (.sensorTimeout k) s = .next t ∧ k ∈ t.pkg.excluded ∧ SameMemory s t := by
  let u : State := { s with pkg := { s.pkg with excluded := insNat s.pkg.excluded k } }
  have hevents : EventOnly u (u.postAll .warning 130 k 0 .west) := .foldl (.refl _) fun _ _ hk => hk.postEvent
  refine ⟨_, congrArg Host.Outcome.next ((State.awake_takes hpow hreset _).trans (if_neg ?_)), ?_, hevents.sameMemory⟩
  · simp [hhas, hnew]
    omega
  · show k ∈ (u.postAll .warning 130 k 0 .west).pkg.excluded
    rw [hevents.pkg]
    exact mem_insNat.mpr (Or.inl rfl)

theorem sensorTimeout_unknown {k : Nat} (hnone : s.pkg.sensors.has k = false) : exec (.sensorTimeout k) s = .next s :=
  congrArg Host.Outcome.next ((State.awake_takes hpow hreset _).trans (if_pos (by simp [hnone])))

/-- R266: an hour's entry of the temperature history is not due. -/
theorem tempHistoryHour_idle (h : s.coal.health.hour = [] ∨ s.now.toNat < s.coal.health.hourAt + 3600000000000) :
    exec .tempHistoryHour s = .next s := by
  refine congrArg Host.Outcome.next ((State.awake_takes hpow hreset _).trans ?_)
  dsimp only
  obtain hempty | hearly := h
  · rw [hempty]
    rfl
  · split
    · rfl
    · exact if_pos hearly

/-- R266: an hour's entry of the temperature history. -/
theorem tempHistoryHour_taken {e : Int × Int × Int × Bool} (he : hourEntry s.coal.health.hour s.coal.tlimit = some e)
    (hdue : s.coal.health.hourAt + 3600000000000 ≤ s.now.toNat) : ∃ t, exec .tempHistoryHour s = .next t ∧
      t.coal.health.history.getLast? = some e ∧ t.coal.health.hour = [] ∧ t.coal.health.hourAt = s.now.toNat ∧
      t.coal.health.hours = s.coal.health.hours + 1 ∧ { t with coal := s.coal } = s := by
  let l := s.coal.health.history ++ [e]
  have hdo : exec .tempHistoryHour s = .next { s with coal := { s.coal with health := { s.coal.health with
      history := if 256 < l.length then l.drop 1 else l, hours := s.coal.health.hours + 1, hour := []
      hourAt := s.now.toNat } } } := by
    refine congrArg Host.Outcome.next ((State.awake_takes hpow hreset _).trans ?_)
    dsimp only
    rw [he]
    exact if_neg (by unfold hourNs; omega)
  have hlast : (if 256 < l.length then l.drop 1 else l).getLast? = some e := by
    split
    · next hlong => rw [List.getLast?_drop, if_neg (by omega), List.getLast?_concat]
    · exact List.getLast?_concat
  exact ⟨_, hdo, hlast, rfl, rfl, rfl, rfl⟩

/-! ### Clocks (R493) -/

theorem trefLoss_reported (hthere : s.pkg.trefLost = false) (hdue : ∀ t0, s.pkg.trefAt = some t0 → t0 + 1000 ≤ s.now.toNat) :
    ∃ t, exec .trefLoss s = .next t ∧ t.pkg.trefLost = true ∧ t.now = s.now ∧ t.gbl.fault = faultWord s.gbl.fault 10 .west 0 ∧
      t.gbl.alert = true ∧ SameMemory s t := by
  let u : State := { s with pkg := { s.pkg with trefLost := true } }
  have hrep := u.report_events 10 .west 0
  refine ⟨_, congrArg Host.Outcome.next ((State.awake_takes hpow hreset _).trans (if_neg ?_)), congrArg Package.trefLost hrep.pkg,
    hrep.now, hrep.fault, hrep.alert, hrep.sameMemory⟩
  cases hat : s.pkg.trefAt with
  | none => simp [hthere]
  | some t0 => simpa [hthere] using hdue t0 hat

theorem refclkLoss_port (d : Side) :
    ∃ t, exec (.refclkLoss (.flue d)) s = .next t ∧ (t.flu.port.get d).up = false ∧ SameMemory s t := by
  refine ⟨(s.portDown d).recheck, congrArg Host.Outcome.next (State.awake_takes hpow hreset _), ?_, fun x => ?_⟩
  · rw [State.recheck_flu]
    exact (State.portDown_leaves d).1
  · exact congrArg (Mem.byte · x) (SentOnly.refl s).portDown.recheck.mem

end

/-- Settles O59: each command reaches the part (`State.awake_takes`), and its clause says which branch it takes. -/
theorem packageServed : Obligations.PackageServed :=
  fun _ hpow hreset => ⟨fun d v => regulatorPoll_taken hpow hreset d v,
    fun _ => ⟨fun hnew hdue => regulatorTimeout_silent hpow hreset hnew hdue,
      fun hearly => regulatorTimeout_idle hpow hreset (.inl hearly), fun hsilent => regulatorTimeout_idle hpow hreset (.inr hsilent)⟩,
    fun _ temp rate hearly => supplyControlTick_idle hpow hreset temp rate hearly,
    fun _ temp rate hdue => supplyControlTick_due hpow hreset temp rate hdue,
    fun _ _ => ⟨fun hnone hcool => thermalPause_cool hpow hreset hnone hcool,
      fun hnone hhot => thermalPause_begins hpow hreset hnone hhot,
      fun _ hat => ⟨fun hstay => thermalPause_lasts hpow hreset hat hstay,
        fun hcool hlong => thermalPause_ends hpow hreset hat hcool hlong⟩⟩,
    fun _ v _ habsent => sensorPoll_absent hpow hreset v habsent, fun _ v hk hthere => sensorPoll_taken hpow hreset v hk hthere,
    fun _ => ⟨fun hhas hnew hdue => sensorTimeout_excludes hpow hreset hhas hnew hdue,
      fun hnone => sensorTimeout_unknown hpow hreset hnone⟩,
    ⟨fun hempty => tempHistoryHour_idle hpow hreset (.inl hempty), fun hearly => tempHistoryHour_idle hpow hreset (.inr hearly),
      fun _ he hdue => tempHistoryHour_taken hpow hreset he hdue⟩,
    ⟨fun hthere hdue => trefLoss_reported hpow hreset hthere hdue,
      ⟨_, congrArg Host.Outcome.next (State.awake_takes hpow hreset _), rfl, rfl, rfl⟩⟩,
    fun d => ⟨congrArg Host.Outcome.next (State.awake_takes hpow hreset _), refclkLoss_port hpow hreset d⟩⟩

end Machine
end Sys2Proof
end

section
/-! PROOFS. Policers refilled, frames that leave, gates that move on (R340, R344, R347, R350, R352). -/

namespace Sys2Proof
namespace Machine

/-- A port without its gate. -/
def PortState.ungated (x : PortState) : PortState := { x with gate := none, pendingGate := none, disabling := none, entry := 0 }

section
variable {s : State} {p : Side}

/-! ### Gates (R350, R352) -/

theorem State.gateSwitch_due {g : GateSched} {w : Nat} (hpend : (s.flu.port.get p).pendingGate = some (g, w)) (hdue : w ≤ s.now.toNat) :
    s.gateSwitch p = s.setPort p { s.flu.port.get p with gate := some g, pendingGate := none, disabling := none, entry := 0 } := by
  unfold State.gateSwitch
  dsimp only
  rw [hpend]
  exact if_pos hdue

theorem State.gateBoundary_gate {g : GateSched} (hgate : (s.flu.port.get p).gate = some g) : s.gateBoundary p =
    if (s.flu.port.get p).disabling.any (fun t => t ≤ s.now.toNat) then
      s.setPort p { s.flu.port.get p with gate := none, disabling := none, entry := 0 }
    else s.setPort p { s.flu.port.get p with entry := (g.entryAt s.now.toNat).1 } := by
  unfold State.gateBoundary
  dsimp only
  rw [hgate]

/-- R350: what is due of a port's gate changes nothing else of the part. -/
theorem State.gateDue_ungated : ((s.gateDue p).flu.port.get p).ungated = (s.flu.port.get p).ungated ∧
    (s.gateDue p).now = s.now := by
  have hswitch : ((s.gateSwitch p).flu.port.get p).ungated = (s.flu.port.get p).ungated ∧ (s.gateSwitch p).now = s.now := by
    unfold State.gateSwitch
    dsimp only
    split
    · exact ⟨rfl, rfl⟩
    · split
      · rw [State.port_setPort]; exact ⟨rfl, rfl⟩
      · exact ⟨rfl, rfl⟩
  have hboundary : ∀ u : State, ((u.gateBoundary p).flu.port.get p).ungated = (u.flu.port.get p).ungated ∧
      (u.gateBoundary p).now = u.now := fun u => by
    unfold State.gateBoundary
    dsimp only
    split
    · exact ⟨rfl, rfl⟩
    · split
      · rw [State.port_setPort]; exact ⟨rfl, rfl⟩
      · rw [State.port_setPort]; exact ⟨rfl, rfl⟩
  exact ⟨(hboundary _).1.trans hswitch.1, (hboundary _).2.trans hswitch.2⟩

/-! ### The frame that leaves (R347) -/

/-- R347: a frame picked stands in the port's queue. -/
theorem State.pickFrame_mem {t c : Nat} {f : TxFrame} {m : Tbl Nat} (hpick : s.pickFrame p t = some (f, m, c)) :
    f ∈ (s.flu.port.get p).queue := by
  have hhead : ∀ c f, s.headOf p c t = some f → f ∈ (s.flu.port.get p).queue := fun c f h => by
    unfold State.headOf at h
    obtain ⟨o, ho, heq⟩ := List.exists_of_findSome?_eq_some h
    cases o with
    | none => exact absurd heq (by simp)
    | some g =>
      have hg : g = f := by
        dsimp only at heq
        split at heq
        · exact Option.some.inj heq
        · exact absurd heq (by simp)
      subst hg
      simp only [List.mem_cons, List.not_mem_nil, or_false] at ho
      obtain ho | ho := ho
      · exact (List.mem_filter.mp (List.mem_of_find?_eq_some ho.symm)).1
      · exact (List.mem_filter.mp (List.mem_of_find?_eq_some ho.symm)).1
  unfold State.pickFrame at hpick
  dsimp only at hpick
  split at hpick
  · next h =>
    have hf : _ = f := (Prod.mk.inj (Option.some.inj hpick)).1
    exact hf ▸ List.mem_of_find?_eq_some h
  · split at hpick
    · exact absurd hpick (by simp)
    · obtain ⟨g, hg, heq⟩ := Option.map_eq_some_iff.mp hpick
      exact (Prod.mk.inj heq).1 ▸ hhead _ _ hg

/-- Every port is as before. -/
def PortsSame (s t : State) : Prop := t.flu.port = s.flu.port

theorem PortsSame.ite {s a b : State} {c : Prop} [Decidable c] (ha : PortsSame s a) (hb : PortsSame s b) :
    PortsSame s (if c then a else b) := by
  split
  · exact ha
  · exact hb

section
variable {s0 : State} (hs : PortsSame s0 s)
include hs

theorem PortsSame.count {o n} : PortsSame s0 (s.count o n) := .ite hs hs
theorem PortsSame.trace {d r} : PortsSame s0 (s.trace d r) := .ite hs hs
theorem PortsSame.ctxEvent {c ev cls ring layer opid n} : PortsSame s0 (s.ctxEvent c ev cls ring layer opid n) := .ite hs hs
theorem PortsSame.updRec {a f} : PortsSame s0 (s.updRec a f) := hs
theorem PortsSame.setTx {n m} : PortsSame s0 (s.setTx n m) := hs

/-- R455, R462: what is counted and traced of a frame that leaves touches no port. -/
theorem PortsSame.frameLeft {f : TxFrame} : PortsSame s0 (s.frameLeft p f) := by
  unfold State.frameLeft
  split
  · exact hs
  refine .ite hs ?_
  dsimp only
  have hcounted := fun ring lay opid => (hs.count (o := 0x03500200) (n := 1)).ctxEvent (c := (s.conn f.conn).ctx.toNat)
    (ev := 0x0A) (cls := 0) (ring := ring) (layer := lay) (opid := opid) (n := f.counted)
  split
  · refine .setTx (.ite (.trace ?_) ?_)
    all_goals
      split
      · exact .ite (hcounted _ _ _).ctxEvent.updRec (hcounted _ _ _).ctxEvent
      · exact (hcounted _ _ _).ctxEvent
  · refine .ite (.trace ?_) ?_
    all_goals
      split
      · exact .ite (hcounted _ _ _).ctxEvent.updRec (hcounted _ _ _).ctxEvent
      · exact (hcounted _ _ _).ctxEvent

theorem PortsSame.endClose {n} : PortsSame s0 (s.endClose n) := (State.endClose_port n).trans hs

end

/-- R347: the port's next frame leaves. -/
theorem State.sendFrame_leaves {b : Nat} {f : TxFrame} {d : Tbl Nat} {c : Nat}
    (hb : b = Nat.max (100 * s.now.toNat) (s.flu.port.get p).busyUntil) (hup : (s.flu.port.get p).up = true)
    (hfree : (s.flu.port.get p).busyUntil < 100 * s.now.toNat + 100)
    (hpick : ((s.gateDue p).gateWaits p b).pickFrame p b = some (f, d, c)) :
    ((s.sendFrame p).flu.port.get p).wire =
        (s.flu.port.get p).wire ++ [f.leaving (((s.gateDue p).gateWaits p b).flu.port.get p) s.now] ∧
      ((s.sendFrame p).flu.port.get p).busyUntil = b + f.counted ∧
      ((s.sendFrame p).flu.port.get p).queue.length + 1 = (s.flu.port.get p).queue.length := by
  obtain ⟨hungated, hnow⟩ := State.gateDue_ungated (s := s) (p := p)
  generalize hu : (s.gateDue p).gateWaits p b = u at hpick
  let x := (s.gateDue p).flu.port.get p
  have hx : x.ungated = (s.flu.port.get p).ungated := hungated
  obtain ⟨q, hport, hlen⟩ : ∃ q, u.flu.port.get p = { x with queue := q } ∧ q.length = x.queue.length := by
    rw [← hu]
    unfold State.gateWaits
    dsimp only
    rw [State.count_flu, State.port_setPort]
    exact ⟨_, rfl, List.length_map ..⟩
  have hunow : u.now = s.now := by
    rw [← hu]
    exact (State.count_now ..).trans hnow
  have hbusy : (u.flu.port.get p).busyUntil = (s.flu.port.get p).busyUntil := by
    rw [hport]
    exact (congrArg PortState.busyUntil hx :)
  have hxbusy : ((s.gateDue p).flu.port.get p).busyUntil = (s.flu.port.get p).busyUntil := (congrArg PortState.busyUntil hx :)
  have huup : (u.flu.port.get p).up = true := by
    rw [hport]
    exact (congrArg PortState.up hx :).trans hup
  have hsend : ∃ y : PortState, s.sendFrame p =
      (State.frameLeft (u.setPort p y) p (f.leaving (u.flu.port.get p) s.now)).endClose f.conn ∧
      y.wire = (u.flu.port.get p).wire ++ [f.leaving (u.flu.port.get p) s.now] ∧ y.busyUntil = b + f.counted ∧
      y.queue = (u.flu.port.get p).queue.erase f := by
    unfold State.sendFrame
    dsimp only
    rw [hnow, hxbusy, ← hb, hu, if_neg (by rw [huup, hunow, hbusy]; simp; omega), hpick]
    dsimp only
    rw [hunow]
    exact ⟨_, rfl, rfl, rfl, rfl⟩
  obtain ⟨y, hdo, hwire, hend, hqueue⟩ := hsend
  have hafter : (s.sendFrame p).flu.port.get p = y := by
    have hsame : PortsSame (u.setPort p y) (s.sendFrame p) := by
      rw [hdo]
      exact .endClose (.frameLeft rfl)
    rw [hsame]
    exact State.port_setPort ..
  have hmem := State.pickFrame_mem hpick
  rw [hafter, hwire, hend, hqueue]
  refine ⟨?_, rfl, ?_⟩
  · rw [hport]
    exact congrArg (· ++ _) (congrArg PortState.wire hx :)
  · rw [List.length_erase_of_mem hmem, hport]
    have hpos : 0 < q.length := by
      rw [hport] at hmem
      exact List.length_pos_of_mem hmem
    have hqueue : x.queue.length = (s.flu.port.get p).queue.length := (congrArg (fun y : PortState => y.queue.length) hx :)
    show q.length - 1 + 1 = _
    omega

/-! ### Policers (R340, R344) -/

/-- R340: at a multiple of 256 ns the refills that are due. -/
theorem policerRefill_taken (hat : s.now.toNat % 256 = 0) (hdue : s.dmp.refilledAt.getD 0 / 256 < s.now.toNat / 256)
    (hlive : s.live = true) :
    let up := s.flu.port.map (·.up)
    let k := s.now.toNat / 256 - s.dmp.refilledAt.getD 0 / 256
    ∃ t, exec .policerRefill s = .next t ∧ t.dmp.ctxPol = s.dmp.ctxPol.mapVals (fun _ p => p.refill up k) ∧
      t.dmp.connPol = s.dmp.connPol.mapVals (fun _ p => p.refill up k) ∧ t.dmp.refilledAt = some s.now.toNat ∧
      t.dmp.split = s.bothUp ∧ { t with dmp := s.dmp } = s := by
  intro up k
  have hk : Nat.max 1 k = k := Nat.max_eq_right (by omega)
  have hnow : 256 * (s.now.toNat / 256) = s.now.toNat := by omega
  have hdo : s.refillDue = { s with dmp := { s.dmp with
      ctxPol := s.dmp.ctxPol.mapVals (fun _ p => p.refill up k), connPol := s.dmp.connPol.mapVals (fun _ p => p.refill up k)
      refilledAt := some s.now.toNat, split := s.bothUp } } := by
    unfold State.refillDue
    dsimp only
    rw [if_neg (by simp [hlive]; omega), hnow, hk]
  exact ⟨_, congrArg Host.Outcome.next ((if_neg (by simp [hat])).trans hdo), rfl, rfl, rfl, rfl, rfl⟩

end

/-- Settles O36: a frame picked leaves its queue for the wire (`State.sendFrame_leaves`), and gates and policers do what is due. -/
theorem damperServes : Obligations.DamperServes := by
  refine fun s => ⟨fun hat hdue hlive => policerRefill_taken hat hdue hlive, fun p f d c => ?_, fun p g w hpend hdue => ?_,
    fun p g hgate => ⟨fun e hdis hdue => ?_, fun hlater => ?_⟩⟩
  · intro b s1 hup hfree hpick
    exact ⟨_, rfl, State.sendFrame_leaves rfl hup hfree hpick⟩
  · refine ⟨_, congrArg Host.Outcome.next (State.gateSwitch_due hpend hdue), ?_, ?_, ?_, rfl⟩
    all_goals rw [State.port_setPort]
  · refine ⟨_, congrArg Host.Outcome.next ((State.gateBoundary_gate hgate).trans (if_pos (by simp [hdis, hdue]))), ?_, rfl⟩
    rw [State.port_setPort]
  · have hnot : (s.flu.port.get p).disabling.any (fun t => decide (t ≤ s.now.toNat)) = false := by
      cases hdis : (s.flu.port.get p).disabling with
      | none => rfl
      | some e => simpa using hlater e hdis
    refine ⟨_, congrArg Host.Outcome.next ((State.gateBoundary_gate hgate).trans (if_neg (by simp [hnot]))), ?_, ?_, rfl⟩
    · rw [State.port_setPort]
      exact hgate
    · rw [State.port_setPort]

end Machine
end Sys2Proof
end

section
/-! PROOFS. What a port does with other frames, and the timers of a connection (R303, R305, R320, R322-R324, R331). -/

namespace Sys2Proof
namespace Machine

section
variable {s : State} {p : Side}

/-! ### Frames of other kinds (R303, R322) -/

theorem frameReceive_unfit {f : EthFrame} (hfit : frameFits f.len = false) : exec (.frameReceive p f) s = .next s :=
  congrArg Host.Outcome.next (if_pos (by simp [hfit]))

/-- R303: a frame that is none of the part's is counted. -/
theorem frameReceive_foreign (hup : (s.flu.port.get p).up = true) {f : EthFrame} (hfit : frameFits f.len = true)
    (hfec : f.fecBad = false) (hpfc : f.pfc = false) (hmka : f.mka = false) (hudp : f.udp = none)
    (hother : f.etherType.toNat ≠ bits s.flu.encap.toNat 0 16) :
    exec (.frameReceive p f) s = .next (((s.macsecIn p f.sec).getD s).count 0x03500250) := by
  refine congrArg Host.Outcome.next ((if_neg (by simp [hup, hfit])).trans ?_)
  simp only [hfec, hpfc, hmka, Bool.false_eq_true, ↓reduceIte, Bool.or_self]
  cases s.macsecIn p f.sec with
  | none => rfl
  | some t => exact if_neg (by simp [hudp, hother])

theorem pfcReceive_pauses (hup : (s.flu.port.get p).up = true) {prio ns : Nat} (hen : s.flu.pfcEn.getLsbD prio = true)
    (hns : 0 < ns) : ∃ t, exec (.pfcReceive p prio ns) s = .next t ∧
      (t.flu.port.get p).paused.look prio = some (s.now.toNat + ns) ∧ { t with flu := s.flu } = s := by
  refine ⟨_, congrArg Host.Outcome.next ((if_neg (by rw [hup, hen]; decide)).trans (if_neg (by omega))), ?_, rfl⟩
  rw [State.port_setPort]
  exact Tbl.look_put_self ..

theorem pfcReceive_resumes (hup : (s.flu.port.get p).up = true) {prio : Nat} (hen : s.flu.pfcEn.getLsbD prio = true) :
    ∃ t, exec (.pfcReceive p prio 0) s = .next t ∧ (t.flu.port.get p).paused.look prio = none ∧ { t with flu := s.flu } = s := by
  refine ⟨_, congrArg Host.Outcome.next ((if_neg (by rw [hup, hen]; decide)).trans (if_pos rfl)), ?_, rfl⟩
  rw [State.port_setPort]
  exact Tbl.look_del_self ..

theorem pfcPauseExpiry_resumes {prio d : Nat} (hat : (s.flu.port.get p).paused.look prio = some d) (hdue : d ≤ s.now.toNat) :
    ∃ t, exec (.pfcPauseExpiry p prio) s = .next t ∧ (t.flu.port.get p).paused.look prio = none ∧ { t with flu := s.flu } = s := by
  have hdo : s.pauseEnds p prio =
      s.setPort p { s.flu.port.get p with paused := (s.flu.port.get p).paused.del prio } := by
    unfold State.pauseEnds
    dsimp only
    rw [hat]
    exact if_pos hdue
  refine ⟨_, congrArg Host.Outcome.next hdo, ?_, rfl⟩
  rw [State.port_setPort]
  exact Tbl.look_del_self ..

/-- R331: key agreement under the port's CAK. -/
theorem mkaFrameReceive_agrees (hup : (s.flu.port.get p).up = true) {name : BitVec 128} {cak : BitVec 256} {sci : BitVec 64}
    (hcak : (s.flu.port.get p).cak = some (name, cak)) (hen : (s.flu.port.get p).macsecEn = true) :
    ((s.flu.port.get p).macsecUp = false → exec (.mkaFrameReceive p name (some sci)) s =
      .next (((s.setPort p { (s.flu.port.get p).resize true with
        macsecUp := true, assoc := (s.flu.port.get p).assoc + 1, peerSci := sci, txPn := 1, rxPn := 1 }).sendMka p).pumpAll)) ∧
    ((s.flu.port.get p).macsecUp = true → exec (.mkaFrameReceive p name (some sci)) s = .next s) := by
  have hdo : exec (.mkaFrameReceive p name (some sci)) s = .next (s.mkaFrame p name (some sci)) := rfl
  unfold State.mkaFrame at hdo
  dsimp only at hdo
  rw [hcak] at hdo
  exact ⟨fun hnone => hdo.trans (congrArg Host.Outcome.next (if_pos (by simp [hup, hen, hnone]))),
    fun hlive => hdo.trans (congrArg Host.Outcome.next (if_neg (by simp [hlive])))⟩

theorem secureAssociationLoss_ends : ∃ t, exec (.secureAssociationLoss p) s = .next t ∧ (t.flu.port.get p).macsecUp = false ∧
    t.flu.port.get p.other = s.flu.port.get p.other ∧ { t with flu := s.flu } = s := by
  refine ⟨_, rfl, ?_, Two.get_set_ne _ _ (by cases p <;> decide), rfl⟩
  rw [State.port_setPort]

end

/-- Settles O34: what a port does with each frame is one branch of the receiver's definition. -/
theorem portFramesTaken : Obligations.PortFramesTaken :=
  fun _ _ hup => ⟨fun _ hfit => frameReceive_unfit hfit,
    fun _ hfit hfec hpfc hmka hudp hother => frameReceive_foreign hup hfit hfec hpfc hmka hudp hother,
    fun _ _ hen hns => pfcReceive_pauses hup hen hns, fun _ hen => pfcReceive_resumes hup hen,
    fun _ _ hat hdue => pfcPauseExpiry_resumes hat hdue, fun _ _ _ hcak hen => mkaFrameReceive_agrees hup hcak hen,
    secureAssociationLoss_ends⟩

/-! ### The timers of a connection (R320, R323, R324) -/

section
variable {s : State} {n : Nat} {q : BitVec 32}

theorem ackDelayExpiry_sends (hopen : (s.conn n).state = .opened) {m : RxMsg} {t : Nat} (hm : s.rx? n q.toNat = some m)
    (hwait : m.unackedAt = some t) (hdue : t + 1000 * s.flu.ackDelayUs ≤ s.now.toNat) :
    exec (.ackDelayExpiry n q) s = .next (s.sendProgress n q.toNat) := by
  refine congrArg Host.Outcome.next ?_
  unfold State.ackDelay
  rw [hm]
  dsimp only
  rw [hwait]
  exact if_pos (by simp [hopen, hdue])

/-- R323: a packet that no bitmap covers, 5 µs after it was sent last. -/
theorem linkReplay_sends (hopen : (s.conn n).state = .opened) {m : TxMsg} {i t reps : Nat} {p : Side} (hm : s.tx? n q.toNat = some m)
    (hsent : m.sent.find? (fun e => e.1 == i) = some (i, some t, reps, p)) (hcov : i ∉ m.covered) (hworn : (s.conn n).worn = false)
    (hreps : reps < 4) (hdue : t + 5000 ≤ s.now.toNat) (hcarries : s.portCarries p.other = true) :
    let m' := { m with sent := m.sent.map (fun e => if e.1 == i then (i, some t, reps + 1, p) else e) }
    exec (.linkReplay n q i) s = .next ((((s.setTx n m').sendPacket n m' i p.other).count 0x03500210).countAo 0x03800120) := by
  intro m'
  refine congrArg Host.Outcome.next ?_
  unfold State.linkReplay
  rw [hm]
  dsimp only
  rw [hsent]
  dsimp only
  rw [if_neg (by simp [hcov, hworn, hopen]; omega), if_pos hcarries]

/-- R323: a packet that waits to be transmitted is not replayed. -/
theorem linkReplay_waiting {m : TxMsg} {i reps : Nat} {p : Side} (hm : s.tx? n q.toNat = some m)
    (hsent : m.sent.find? (fun e => e.1 == i) = some (i, none, reps, p)) : exec (.linkReplay n q i) s = .next s := by
  refine congrArg Host.Outcome.next ?_
  unfold State.linkReplay
  rw [hm]
  dsimp only
  rw [hsent]
  exact if_pos (by simp)

/-- R324: a message that made no progress for a whole timeout while a port is up. -/
theorem messageTimeout_resends (hopen : (s.conn n).state = .opened) {m : TxMsg} (hm : s.tx? n q.toNat = some m)
    (hdue : m.progress + 1000 * s.flu.msgTimeoutUs ≤ s.now.toNat) (hports : s.flu.bothDown = none) :
    (s.flu.closeAfter ≤ (s.conn n).timeouts + 1 → exec (.messageTimeout n q) s = .next (s.closeConn n (some 2))) ∧
    ((s.conn n).timeouts + 1 < s.flu.closeAfter → exec (.messageTimeout n q) s =
      .next ((s.setConn n { s.conn n with timeouts := (s.conn n).timeouts + 1 }).resendMsg n m)) := by
  have htx : (s.setConn n { s.conn n with timeouts := (s.conn n).timeouts + 1 }).tx? n q.toNat = some m := by
    unfold State.tx? at hm ⊢
    rw [State.conn_setConn_self]
    exact hm
  have hdo : exec (.messageTimeout n q) s = .next (if s.flu.closeAfter ≤ (s.conn n).timeouts + 1 then s.closeConn n (some 2)
      else (s.setConn n { s.conn n with timeouts := (s.conn n).timeouts + 1 }).resendMsg n m) := by
    refine congrArg Host.Outcome.next ?_
    unfold State.msgTimeout
    rw [hm]
    dsimp only
    rw [if_neg (by simp [hopen]; omega), if_neg (by simp [hports]), htx]
  exact ⟨fun hclose => hdo.trans (congrArg Host.Outcome.next (if_pos hclose)),
    fun hagain => hdo.trans (congrArg Host.Outcome.next (if_neg (by omega)))⟩

end

/-- Settles O35: each timer whose time has come does its one thing. -/
theorem flueTimersServe : Obligations.FlueTimersServe :=
  fun _ _ _ hopen => ⟨fun _ _ hm hwait hdue => ackDelayExpiry_sends hopen hm hwait hdue,
    fun _ _ _ _ _ hm hsent hcov hworn hreps hdue hcarries => linkReplay_sends hopen hm hsent hcov hworn hreps hdue hcarries,
    fun _ _ _ _ hm hsent => linkReplay_waiting hm hsent, fun _ hm hdue hports => messageTimeout_resends hopen hm hdue hports⟩

end Machine
end Sys2Proof
end

section
/-! PROOFS. What ends the work of a connection leaves (R313), and the commands of FLU_CONN_CMD (R311, R312, R337). -/

namespace Sys2Proof
namespace Machine

/-! ### Instructions that end leave the transport as it was -/

/-- R85: what the completion of an instruction touches, and the frames and pages that it frees. -/
structure Unfreed {γ : Type} (get : State → γ) : Prop extends Unseen get where
  pages : ∀ s t, PagesOnly s t → get t = get s
  wins : ∀ s w, get { s with wins := w } = get s

namespace Unfreed

variable {γ : Type} {get : State → γ} (hg : Unfreed get)
include hg

theorem endUses (s : State) (hs : List Nat) : get (s.endUses hs) = get s := by
  unfold State.endUses
  rw [hg.releaseHeld, hg.releaseHeld]
  refine foldl_keeps get _ (fun u h => ?_) hs s
  split
  · rfl
  split
  · exact hg.pages _ _ (PagesOnly.refl u).freeNow
  split
  · exact hg.pages _ _ (PagesOnly.refl u).freeFrame.freeFrame.clearView.updPage
  · rfl

theorem finish (s : State) (a : At) (d : Done) : get (s.finish a d) = get s := by
  unfold State.finish State.finishAt
  split
  · exact hg.countFailure ..
  · rw [endUses hg, hg.finishRec, hg.countFailure]

theorem finishWaits (s : State) (f : JRec → Wait → Option Done) : get (s.finishWaits f) = get s := by
  unfold State.finishWaits State.markFree
  rw [hg.mapRecs]
  refine foldl_keeps get _ (fun u r => ?_) _ s
  split
  · split
    · split
      · exact finish hg ..
      · rfl
    · rfl
  · rfl

theorem winGone (s : State) (n : Nat) : get (s.winGone n) = get s := by
  refine foldl_keeps get _ (fun u w => ?_) _ s
  split
  · exact (finishWaits hg ..).trans (hg.wins ..)
  · unfold State.winFail
    split
    · rfl
    · split
      · rfl
      · exact (hg.count ..).trans (hg.wins ..)

end Unfreed

/-- R313: what the end of a connection touches: what `Unfreed` says, and the transport. -/
structure Unlinked {γ : Type} (get : State → γ) : Prop extends Unfreed get where
  flu : ∀ s x, get { s with flu := x } = get s

namespace Unlinked

variable {γ : Type} {get : State → γ} (hg : Unlinked get)
include hg

theorem queueFrame (s : State) (p : Side) (f : TxFrame) : get (s.queueFrame p f) = get s := by
  unfold State.queueFrame
  split
  · exact hg.count ..
  · exact hg.flu ..

theorem sealNext (s : State) (n : Nat) : get (s.seal n).2 = get s := by
  unfold State.seal
  dsimp only
  split
  · exact hg.flu ..
  · rfl

theorem sendControl (s : State) (n : Nat) (p : Side) (type : Nat) (seq : BitVec 32) (payload : List Byte) (after : Nat) :
    get (s.sendControl n p type seq payload after) = get s := by
  unfold State.sendControl
  split
  · rfl
  · exact (queueFrame hg ..).trans (sealNext hg s n)

theorem sendCloses (s : State) (n r : Nat) : get (s.sendCloses n r) = get s := by
  have hone : ∀ (k : Nat) (u : State) (p : Side),
      get (if u.portCarries p then u.sendControl n p 3 0 (leBytes 4 r) (u.now.toNat + 1000 * k) else u) = get u := by
    intro k u p
    split
    · exact sendControl hg ..
    · rfl
  exact foldl_keeps get _ (fun u k => (hone k _ .east).trans (hone k u .west)) _ s

theorem releaseCounts (s : State) (n : Nat) : get (s.releaseCounts n) = get s := by
  refine foldl_keeps get _ (fun u i => ?_) _ s
  unfold State.keyDown
  split
  · rfl
  · exact hg.flu ..

theorem pfcUpdate (s : State) (p : Side) : get (s.pfcUpdate p) = get s := by
  refine foldl_keeps get _ (fun u k => ?_) _ s
  dsimp only
  split
  · rfl
  split
  · exact (queueFrame hg ..).trans (hg.flu ..)
  split
  · exact (queueFrame hg ..).trans (hg.flu ..)
  · rfl

theorem endClose (s : State) (n : Nat) : get (s.endClose n) = get s := by
  unfold State.endClose
  dsimp only
  split
  · rfl
  · exact (hg.flu (s.setConn n _) _).trans (hg.flu ..)

theorem closeConn (s : State) (n : Nat) (reason : Option Nat) (st : Status) : get (s.closeConn n reason st) = get s := by
  have hcloses : ∀ u : State, get (match reason with | some r => u.sendCloses n r | none => u) = get u := by
    intro u
    split
    · exact sendCloses hg ..
    · rfl
  unfold State.closeConn
  dsimp only
  split
  · rfl
  · unfold State.pfcBoth
    rw [endClose hg, pfcUpdate hg, pfcUpdate hg]
    refine (hg.flu ..).trans ?_
    rw [hg.winGone, releaseCounts hg, hg.finishWaits]
    exact (hcloses _).trans ((hg.flu (s.setConn n _) _).trans (hg.flu ..))

end Unlinked

theorem State.freeFrame_flu (s : State) (d : Side) (f : Option FrameAt) : (s.freeFrame d f).flu = s.flu :=
  (PagesOnly.refl s).freeFrame.flu

/-- R85: what the completion of an instruction touches does not include the transport. -/
theorem State.flu_unfreed : Unfreed State.flu where
  ring _ _ _ := rfl
  jrn _ _ := rfl
  named _ _ _ := rfl
  event s c ev cls ring layer opid n := State.ctxEvent_flu ..
  restart s c ring layer opid index := by unfold State.ctxReset; dsimp only; split <;> rfl
  gbl _ _ _ _ := rfl
  tel _ _ := rfl
  drt _ _ := rfl
  frame s d f := State.freeFrame_flu s d f
  pages _ _ h := h.flu
  wins _ _ := rfl

/-- R333: what decides whether registers may be written: FW_READY, HELD and the LDs. -/
def State.writeGate (s : State) : Bool × Bool × Cxp := (s.gbl.fwReady, s.gbl.held, s.cxp)

theorem State.writeGate_unlinked : Unlinked State.writeGate where
  flu _ _ := rfl
  ring _ _ _ := rfl
  jrn _ _ := rfl
  named _ _ _ := rfl
  event s c ev cls ring layer opid n := by unfold State.ctxEvent; dsimp only; split <;> rfl
  restart s c ring layer opid index := by unfold State.ctxReset; dsimp only; split <;> rfl
  gbl _ _ _ _ := rfl
  tel _ _ := rfl
  drt _ _ := rfl
  frame s d f := (congrArg (fun t : State => (t.gbl.fwReady, t.gbl.held, t.cxp)) (PagesOnly.refl s).freeFrame.1 :)
  pages _ _ h := (congrArg (fun t : State => (t.gbl.fwReady, t.gbl.held, t.cxp)) h.1 :)
  wins _ _ := rfl

theorem State.regWritable_of_writeGate {s t : State} (h : t.writeGate = s.writeGate) (ld : Ld) : t.regWritable ld = s.regWritable ld :=
  congrArg (fun x : Bool × Bool × Cxp => x.1 && !x.2.1 && if (x.2.2.head.get ld.head).privSet then
    ((x.2.2.head.get ld.head).lds.lookD ld.id {}).manager else ld.id == 0) h

/-! ### The end of a connection's work (R313) -/

/-- R311: connections, ports, and the CLOSE that runs. -/
def State.links (s : State) : Tbl Conn × Two PortState × Option Nat := (s.flu.conns, s.flu.port, s.flu.closing)

theorem State.conn_of_links {s t : State} (h : t.links = s.links) (n : Nat) : t.conn n = s.conn n :=
  congrArg (fun x : Tbl Conn × Two PortState × Option Nat => x.1.lookD n {}) h

theorem State.closing_of_links {s t : State} (h : t.links = s.links) : t.flu.closing = s.flu.closing :=
  congrArg (fun x : Tbl Conn × Two PortState × Option Nat => x.2.2) h

theorem State.port_of_links {s t : State} (h : t.links = s.links) : t.flu.port = s.flu.port :=
  congrArg (fun x : Tbl Conn × Two PortState × Option Nat => x.2.1) h

theorem State.links_congr {s t : State} (h : t.flu = s.flu) : t.links = s.links := by
  unfold State.links
  rw [h]

theorem State.releaseCounts_links (s : State) (n : Nat) : (s.releaseCounts n).links = s.links := by
  refine foldl_keeps State.links _ (fun u i => ?_) _ s
  unfold State.keyDown
  split <;> rfl

/-- No frame that waits in a port is a CLOSE of connection n. -/
def State.Uncloses (s : State) (n : Nat) : Prop := ∀ d f, f ∈ (s.flu.port.get d).queue → f.closes n = false

theorem State.Uncloses.of_port {s t : State} {n : Nat} (h : s.Uncloses n) (hport : t.flu.port = s.flu.port) : t.Uncloses n := by
  unfold State.Uncloses
  rw [hport]
  exact h

/-- A port's queue replaced by one in which no frame is a CLOSE either. -/
theorem State.Uncloses.setPort {s : State} {n : Nat} (h : s.Uncloses n) {p : Side} {x : PortState}
    (hx : ∀ f, f ∈ x.queue → f.closes n = false) : (s.setPort p x).Uncloses n := by
  intro d f hf
  by_cases hd : d = p
  · subst hd
    rw [State.port_setPort] at hf
    exact hx f hf
  · exact h d f (by rwa [show (s.setPort p x).flu.port.get d = s.flu.port.get d from Two.get_set_ne _ _ hd] at hf)

section
variable {s : State} {n : Nat}

/-- R322: a PFC frame that a port sends is no CLOSE, and touches no connection. -/
theorem State.pfcUpdate_leaves (p : Side) : (s.pfcUpdate p).flu.conns = s.flu.conns ∧
    (s.pfcUpdate p).flu.closing = s.flu.closing ∧ (s.Uncloses n → (s.pfcUpdate p).Uncloses n) := by
  let Leaves (t : State) : Prop := t.flu.conns = s.flu.conns ∧ t.flu.closing = s.flu.closing ∧ (s.Uncloses n → t.Uncloses n)
  have hqueued : ∀ (t : State) (l : List Nat) (k : Nat × Nat) (c : Nat), Leaves t →
      Leaves ((t.setPort p { t.flu.port.get p with xoff := l }).queueFrame p { pfc := some k, control := true, counted := c }) := by
    intro t l k c ⟨hconns, hclosing, hfree⟩
    unfold State.queueFrame
    rw [if_neg (by simp)]
    refine ⟨hconns, hclosing, fun h => ?_⟩
    have hxoff : (t.setPort p { t.flu.port.get p with xoff := l }).Uncloses n := (hfree h).setPort fun f hf => hfree h p f hf
    refine hxoff.setPort fun f hf => ?_
    rw [State.port_setPort] at hf
    obtain hf | hf := List.mem_append.mp hf
    · exact hfree h p f hf
    · rw [List.mem_singleton.mp hf]
      rfl
  have hfold : ∀ (l : List Nat) (t : State), Leaves t → Leaves (l.foldl (fun s k =>
      let x := s.flu.port.get p
      let n := s.ingressBytes p k
      if !(s.flu.pfcEn.getLsbD k) || !x.up then s
      else if 262144 < n && !(x.xoff.contains k) then
        (s.setPort p { x with xoff := insNat x.xoff k }).queueFrame p { pfc := some (k, 65535), control := true, counted := s.counted 64 }
      else if n < 131072 && x.xoff.contains k then
        (s.setPort p { x with xoff := x.xoff.filter (· != k) }).queueFrame p { pfc := some (k, 0), control := true, counted := s.counted 64 }
      else s) t) := by
    intro l
    induction l with
    | nil => exact fun _ h => h
    | cons k ks ih =>
      refine fun t ht => ih _ ?_
      dsimp only
      split
      · exact ht
      split
      · exact hqueued t _ _ _ ht
      split
      · exact hqueued t _ _ _ ht
      · exact ht
  exact hfold _ s ⟨rfl, rfl, id⟩

/-- R322: the PFC frames of both ports. -/
theorem State.pfcBoth_leaves : s.pfcBoth.flu.conns = s.flu.conns ∧ s.pfcBoth.flu.closing = s.flu.closing ∧
    (s.Uncloses n → s.pfcBoth.Uncloses n) := by
  obtain ⟨hconns, hclosing, hfree⟩ := State.pfcUpdate_leaves (s := s) (n := n) .west
  obtain ⟨hconns', hclosing', hfree'⟩ := State.pfcUpdate_leaves (s := s.pfcUpdate .west) (n := n) .east
  exact ⟨hconns'.trans hconns, hclosing'.trans hclosing, fun h => hfree' (hfree h)⟩

end

/-- What the CLOSE packets of a connection leave: its state, and the CLOSE command that runs. -/
def State.closeState (s : State) (n : Nat) : ConnState × Option Nat := ((s.conn n).state, s.flu.closing)

theorem State.queueFrame_closeState (s : State) (p : Side) (f : TxFrame) (n : Nat) :
    (s.queueFrame p f).closeState n = s.closeState n := by
  unfold State.queueFrame
  split
  · exact congrArg (fun x : Flu => ((x.conns.lookD n {}).state, x.closing)) (State.count_flu ..)
  · rfl

theorem State.seal_closeState (s : State) (n : Nat) : (s.seal n).2.closeState n = s.closeState n := by
  unfold State.seal
  dsimp only
  split
  · exact (congrArg (fun x : Conn => (x.state, s.flu.closing)) (conn_setConn_self ..) :)
  · rfl

theorem State.sendControl_closeState (s : State) (n : Nat) (p : Side) (type : Nat) (seq : BitVec 32) (payload : List Byte) (after : Nat) :
    (s.sendControl n p type seq payload after).closeState n = s.closeState n := by
  unfold State.sendControl
  split
  · rfl
  · exact (State.queueFrame_closeState ..).trans (s.seal_closeState n)

theorem State.sendCloses_closeState (s : State) (n r : Nat) : (s.sendCloses n r).closeState n = s.closeState n := by
  have hone : ∀ (k : Nat) (u : State) (p : Side),
      (if u.portCarries p then u.sendControl n p 3 0 (leBytes 4 r) (u.now.toNat + 1000 * k) else u).closeState n = u.closeState n := by
    intro k u p
    split
    · exact State.sendControl_closeState ..
    · rfl
  exact foldl_keeps (State.closeState · n) _ (fun u k => (hone k _ .east).trans (hone k u .west)) _ s

/-- R313 step 1: what stays in the queues is a frame that stood there. -/
theorem State.Uncloses.dropFrames {s : State} {n : Nat} (h : s.Uncloses n) (m : Nat) : (s.dropFrames m).Uncloses n := by
  intro d f hf
  cases d with
  | west => exact h .west f (List.mem_filter.mp hf).1
  | east => exact h .east f (List.mem_filter.mp hf).1

/-- R313 step 6: a connection whose CLOSE packets have left is CLOSED without keys. -/
theorem State.endClose_leaves (s : State) (n : Nat) (hstate : (s.conn n).state = .closing) :
    (((s.endClose n).conn n = s.conn n) ∨ (s.endClose n).conn n = { s.conn n with state := .closed, keyed := none }) ∧
    (s.flu.closing = none → (s.endClose n).flu.closing = none) ∧
    (s.Uncloses n → (s.endClose n).conn n = { s.conn n with state := .closed, keyed := none }) := by
  have hnone : s.flu.closing = none → (if s.flu.closing == some n then none else s.flu.closing) = none := fun h => by
    rw [h]
    rfl
  unfold State.endClose
  extract_lets x left u mine
  split
  next hwaits =>
    refine ⟨Or.inl rfl, id, fun hfree => ?_⟩
    have hleft : ∀ d, left d = false := fun d => List.any_eq_false.mpr fun f hf => Bool.eq_false_iff.mp (hfree d f hf)
    rw [hleft, hleft, show (x.state != .closing) = false by rw [show x.state = .closing from hstate]; rfl] at hwaits
    exact absurd hwaits (by decide)
  next => exact ⟨Or.inr (conn_setConn_self ..), hnone, fun _ => conn_setConn_self ..⟩

/-- R313: a connection without messages. -/
def Conn.idle (x : Conn) : Conn := { x with tx := [], rx := [], reads := [], granted := [] }

/-- R313: the last steps of a CLOSING connection's end. -/
theorem State.idle_leaves (s : State) (n : Nat) (hstate : (s.conn n).state = .closing) (t : State)
    (ht : t = (s.setConn n (s.conn n).idle).pfcBoth.endClose n) :
    (t.conn n).tx = [] ∧ (t.conn n).rx = [] ∧ (t.conn n).state ≠ .opened ∧ (s.flu.closing = none → t.flu.closing = none) ∧
    (s.Uncloses n → (t.conn n).state = .closed ∧ (t.conn n).keyed = none) := by
  subst ht
  obtain ⟨hconns, hpfc, hfree⟩ := State.pfcBoth_leaves (s := s.setConn n (s.conn n).idle) (n := n)
  have hconn : (s.setConn n (s.conn n).idle).pfcBoth.conn n = (s.conn n).idle :=
    (congrArg (fun c : Tbl Conn => c.lookD n {}) hconns).trans (conn_setConn_self ..)
  generalize (s.setConn n (s.conn n).idle).pfcBoth = u at *
  obtain ⟨hleft, hnone, hgone⟩ := State.endClose_leaves u n (by rw [hconn]; exact hstate)
  rw [hconn] at hleft hgone
  refine ⟨?_, ?_, ?_, fun h => hnone (hpfc.trans h), fun hfrees => ?_⟩
  · obtain h | h := hleft
    · rw [h]; rfl
    · rw [h]; rfl
  · obtain h | h := hleft
    · rw [h]; rfl
    · rw [h]; rfl
  · obtain h | h := hleft
    · rw [h, show (s.conn n).idle.state = .closing from hstate]; decide
    · rw [h]; exact ConnState.noConfusion
  · rw [hgone (hfree hfrees)]
    exact ⟨rfl, rfl⟩

/-- R313, R398: what the end of an OPEN connection's work leaves of it; brought by the peer's CLOSE, it is CLOSED at once unless a CLOSE of
its own still waits in a port. -/
theorem State.closeConn_leaves (s : State) (n : Nat) (reason : Option Nat) (st : Status) (hopen : (s.conn n).state = .opened) :
    ((s.closeConn n reason st).conn n).tx = [] ∧ ((s.closeConn n reason st).conn n).rx = [] ∧
    ((s.closeConn n reason st).conn n).state ≠ .opened ∧ (s.flu.closing = none → (s.closeConn n reason st).flu.closing = none) ∧
    (reason = none → s.Uncloses n → ((s.closeConn n reason st).conn n).state = .closed ∧ ((s.closeConn n reason st).conn n).keyed = none) := by
  unfold State.closeConn
  rw [if_neg (by rw [hopen]; decide)]
  extract_lets shut sent finished counted y
  have hshut : shut.closeState n = (.closing, s.flu.closing) :=
    (congrArg (fun x : Conn => (x.state, s.flu.closing)) (conn_setConn_self s n { s.conn n with state := .closing }) :)
  have hsent : sent.closeState n = (.closing, s.flu.closing) := by
    unfold sent
    split
    · exact (State.sendCloses_closeState ..).trans hshut
    · exact hshut
  have hlinks : counted.links = sent.links :=
    calc counted.links = (finished.releaseCounts n).links := State.links_congr (State.flu_unfreed.winGone ..)
      _ = finished.links := State.releaseCounts_links ..
      _ = sent.links := State.links_congr (State.flu_unfreed.finishWaits ..)
  have hstate : y.state = .closing :=
    (congrArg Conn.state (State.conn_of_links hlinks n)).trans (congrArg Prod.fst hsent)
  have hclosing : counted.flu.closing = s.flu.closing := (State.closing_of_links hlinks).trans (congrArg Prod.snd hsent)
  obtain ⟨htx, hrx, hleft, hnone, hgone⟩ := State.idle_leaves counted n hstate _ rfl
  refine ⟨htx, hrx, hleft, fun h => hnone (hclosing.trans h), fun hreason hfrees => ?_⟩
  have hkept : sent.Uncloses n := by
    unfold sent
    rw [hreason]
    exact State.Uncloses.dropFrames (s := s.setConn n { s.conn n with state := .closing }) hfrees n
  exact hgone (hkept.of_port (State.port_of_links hlinks))

/-! ### The commands of FLU_CONN_CMD (R311, R312, R337) -/

/-- R337: a command's outcome in FLU_CONN_STATUS. -/
def State.connDone (r : Nat × State) : State := { r.2 with flu := { r.2.flu with connStatus := connStatus r.1 } }

/-- R337: the status while a CLOSE runs and refuses. -/
def State.connRefused (s : State) : State :=
  { s with flu := { s.flu with connStatus := connStatus 6 &&& ~~~(2 : BitVec 64) ||| 1 } }

section
variable {s : State} {ld : Ld} {cmd : BitVec 64} {want : Nat} {op : Nat → State → Nat × State}

theorem State.connCmd_busy (hreg : s.regWritable ld = true) (hcmd : bits cmd.toNat 16 3 = want) (hbusy : s.flu.closing.isSome = true) :
    s.connCmd ld want cmd op = s.connRefused := by
  unfold State.connCmd
  rw [if_neg (by rw [hreg]; simpa using hcmd), if_pos hbusy]
  rfl

theorem State.connCmd_runs (hreg : s.regWritable ld = true) (hcmd : bits cmd.toNat 16 3 = want) (hfree : s.flu.closing = none) :
    s.connCmd ld want cmd op = State.connDone (op (bits cmd.toNat 0 15) s) := by
  unfold State.connCmd
  rw [if_neg (by rw [hreg]; simpa using hcmd), if_neg (by rw [hfree]; decide)]
  rfl

/-- R337: a command that is refused while a CLOSE runs starts none of its own. -/
theorem State.closeRuns_busy (hbusy : s.flu.closing.isSome = true) : s.closeRuns ld cmd = s := by
  unfold State.closeRuns
  exact if_pos (by rw [hbusy]; simp)

/-- R337: a connection that is not CLOSING after its CLOSE has none that runs. -/
theorem State.closeRuns_ended (hstate : (s.conn (bits cmd.toNat 0 15)).state ≠ .closing) : s.closeRuns ld cmd = s := by
  unfold State.closeRuns
  exact if_pos (by rw [show ((s.conn (bits cmd.toNat 0 15)).state != .closing) = true from bne_iff_ne.mpr hstate]; simp)

/-- R337: a CLOSE whose CLOSE packets have not left runs. -/
theorem State.closeRuns_starts (hreg : s.regWritable ld = true) (hcmd : bits cmd.toNat 16 3 = 3) (hfree : s.flu.closing = none)
    (hstate : (s.conn (bits cmd.toNat 0 15)).state = .closing) :
    s.closeRuns ld cmd = { s with flu := { s.flu with closing := some (bits cmd.toNat 0 15), connStatus := 1 } } := by
  unfold State.closeRuns
  exact if_neg (by rw [hreg, hcmd, hfree, hstate]; decide)

end

/-- R337: the connection's entry as WRITE leaves it, and the error it answers. -/
theorem State.connWrite_answers (s : State) (n : Nat) : s.connWrite n =
    (if (s.conn n).state ≠ .closed then 1 else if entryBad s.flu.connData.toNat then 5 else 0,
      if (s.conn n).state = .closed ∧ entryBad s.flu.connData.toNat = false then s.setConn n ((s.conn n).fields s.flu.connData.toNat)
      else s) := by
  unfold State.connWrite
  by_cases hstate : (s.conn n).state = .closed
  · cases hbad : entryBad s.flu.connData.toNat <;> simp [hstate]
  · simp [hstate]

/-- R337: what WRITE leaves. -/
theorem State.connWrite_leaves (s : State) (n : Nat) {t : State} (ht : t = State.connDone (s.connWrite n)) :
    t.flu.connStatus = connStatus (if (s.conn n).state ≠ .closed then 1 else if entryBad s.flu.connData.toNat then 5 else 0) ∧
    t.conn n = (if (s.conn n).state = .closed ∧ entryBad s.flu.connData.toNat = false then (s.conn n).fields s.flu.connData.toNat
      else s.conn n) ∧ (∀ m, m ≠ n → t.conn m = s.conn m) ∧ { t with flu := s.flu } = s := by
  rw [State.connWrite_answers] at ht
  by_cases hvalid : (s.conn n).state = .closed ∧ entryBad s.flu.connData.toNat = false
  · rw [if_pos hvalid] at ht ⊢
    subst ht
    exact ⟨rfl, State.conn_setConn_self .., fun m hm => State.conn_setConn_ne _ _ hm, rfl⟩
  · rw [if_neg hvalid] at ht ⊢
    subst ht
    exact ⟨rfl, rfl, fun _ _ => rfl, rfl⟩

/-- R312: the error that OPEN answers. -/
def State.openError (s : State) (n : Nat) : Nat :=
  if (s.conn n).state ≠ .closed then 1 else if s.flu.flueEn = false then 2
  else if (s.ctx (s.conn n).ctx.toNat).state ≠ .active then 3
  else if ((s.conn n).sealed = true ∧ (s.conn n).keyed = none) ∨ ((s.conn n).sealed = false ∧ s.sec.confidential = true) then 4 else 0

/-- R312: an OPEN connection with its counters and credits at the start. -/
def Conn.fresh (x : Conn) : Conn :=
  let lim := x.initCredit.setWidth 32
  { x with
    state := .opened, txSeq := 0, rxCum := 0, rxDone := 0, done := [], txLimit := lim, rxLimit := lim, txCount := 0
    txCtr := 1, timeouts := 0, tx := [], rx := [], path := 0, granted := [], reads := [] }

/-- R344: the policer of an opened connection is full. -/
def State.fillConnPol (s : State) (n : Nat) : State :=
  { s with dmp := { s.dmp with connPol := s.dmp.connPol.mapVals (fun i p => if i == n then p.fill s.dmp.split else p) } }

/-- R312: OPEN of a connection whose conditions hold. -/
def State.opened (s : State) (n : Nat) : State := (s.setConn n (s.conn n).fresh).refillDue.fillConnPol n

theorem State.connOpen_opens {s : State} {n : Nat} (hstate : (s.conn n).state = .closed) (hen : s.flu.flueEn = true)
    (hctx : (s.ctx (s.conn n).ctx.toNat).state = .active)
    (hkeys : ¬(((s.conn n).sealed = true ∧ (s.conn n).keyed = none) ∨ ((s.conn n).sealed = false ∧ s.sec.confidential = true))) :
    s.connOpen n = (0, s.opened n) := by
  have hsealed : ¬((s.conn n).sealed && (s.conn n).keyed.isNone || !(s.conn n).sealed && s.sec.confidential) = true := by
    simpa using hkeys
  unfold State.connOpen
  rw [if_neg (by rw [hstate]; decide), if_neg (by rw [hen]; decide), if_neg (by rw [hctx]; decide), if_neg hsealed]
  rfl

theorem State.connOpen_error (s : State) (n : Nat) : (s.connOpen n).1 = s.openError n := by
  unfold State.openError
  split
  next hstate => exact congrArg Prod.fst (if_pos (bne_iff_ne.mpr hstate))
  next hstate =>
    have hclosed := Classical.not_not.mp hstate
    split
    next hen =>
      refine congrArg Prod.fst ((if_neg (by rw [hclosed]; decide)).trans (if_pos (by rw [hen]; rfl)) : s.connOpen n = (2, s))
    next hen =>
      have hflue : s.flu.flueEn = true := by simpa using hen
      split
      next hctx =>
        exact congrArg Prod.fst ((if_neg (by rw [hclosed]; decide)).trans ((if_neg (by rw [hflue]; decide)).trans
          (if_pos (bne_iff_ne.mpr hctx))) : s.connOpen n = (3, s))
      next hctx =>
        split
        next hkeys =>
          exact congrArg Prod.fst ((if_neg (by rw [hclosed]; decide)).trans ((if_neg (by rw [hflue]; decide)).trans
            ((if_neg (by rw [Classical.not_not.mp hctx]; decide)).trans (if_pos (by simpa using hkeys)))) : s.connOpen n = (4, s))
        next hkeys => exact congrArg Prod.fst (State.connOpen_opens hclosed hflue (Classical.not_not.mp hctx) hkeys)

/-- R312: the connection as OPEN leaves it. -/
theorem State.opened_conn (s : State) (n : Nat) : (s.opened n).conn n = (s.conn n).fresh := by
  obtain ⟨hdmp, -⟩ := State.refillDue_dmp (s.setConn n (s.conn n).fresh)
  exact (congrArg (State.conn · n) hdmp : _).trans (conn_setConn_self ..)

/-- R313, R337: what CLOSE leaves: an OPEN connection's work ended; the command runs on while the connection is CLOSING. -/
theorem State.connClose_leaves {s : State} {ld : Ld} {cmd : BitVec 64} (hreg : s.regWritable ld = true)
    (hcmd : bits cmd.toNat 16 3 = 3) (hfree : s.flu.closing = none) (n : Nat) (hn : n = bits cmd.toNat 0 15)
    (t : State) (ht : t = (State.connDone (0, s.closeConn n (some 0))).closeRuns ld cmd) :
    (t.conn n).state ≠ .opened ∧ ((t.conn n).state = .closed → t.flu.connStatus = connStatus 0 ∧ t.flu.closing = none) ∧
    ((t.conn n).state = .closing → t.flu.connStatus = 1 ∧ t.flu.closing = some n) ∧
    ((s.conn n).state = .opened → (t.conn n).tx = [] ∧ (t.conn n).rx = []) := by
  have hdone : ∀ r, (State.connDone r).writeGate = r.2.writeGate := fun _ => rfl
  have hconn : (s.closeConn n (some 0)).writeGate = s.writeGate := State.writeGate_unlinked.closeConn ..
  have hgate : (State.connDone (0, s.closeConn n (some 0))).regWritable ld = true :=
    (State.regWritable_of_writeGate ((hdone _).trans hconn) ld).trans hreg
  have hleft : (State.connDone (0, s.closeConn n (some 0))).flu.closing = none ∧
      ((State.connDone (0, s.closeConn n (some 0))).conn n).state ≠ .opened ∧
      ((s.conn n).state = .opened → ((State.connDone (0, s.closeConn n (some 0))).conn n).tx = [] ∧
        ((State.connDone (0, s.closeConn n (some 0))).conn n).rx = []) := by
    by_cases hopen : (s.conn n).state = .opened
    · obtain ⟨htx, hrx, hstate, hnone, -⟩ := State.closeConn_leaves s n (some 0) St.peerClosed hopen
      exact ⟨hnone hfree, hstate, fun _ => ⟨htx, hrx⟩⟩
    · have hsame : s.closeConn n (some 0) = s := by
        unfold State.closeConn
        exact if_pos (bne_iff_ne.mpr hopen)
      rw [hsame]
      exact ⟨hfree, hopen, fun h => absurd h hopen⟩
  have hstatus : (State.connDone (0, s.closeConn n (some 0))).flu.connStatus = connStatus 0 := rfl
  subst hn
  generalize State.connDone (0, s.closeConn (bits cmd.toNat 0 15) (some 0)) = u at *
  obtain ⟨hnone, hstate, hidle⟩ := hleft
  by_cases hclosing : (u.conn (bits cmd.toNat 0 15)).state = .closing
  · rw [State.closeRuns_starts hgate hcmd hnone hclosing] at ht
    subst ht
    exact ⟨hstate, fun h => absurd (hclosing.symm.trans h) (by decide), fun _ => ⟨rfl, rfl⟩, hidle⟩
  · rw [State.closeRuns_ended hclosing] at ht
    subst ht
    exact ⟨hstate, fun _ => ⟨hstatus, hnone⟩, fun h => absurd h hclosing, hidle⟩

/-- Settles O37: while a CLOSE runs every command is refused; else READ, WRITE, OPEN and CLOSE as R311-R313 say, with the outcome in
FLU_CONN_STATUS. -/
theorem connectionCommands : Obligations.ConnectionCommands := by
  unfold Obligations.ConnectionCommands
  intro ld cmd s hreg n x
  refine ⟨fun hbusy c hc => ?_, fun hfree => ⟨fun hcmd => ?_, fun hcmd => ?_, fun hcmd => ?_, fun hcmd => ?_⟩⟩
  · simp only [List.mem_cons, Prod.mk.injEq, List.not_mem_nil, or_false] at hc
    obtain ⟨hcmd, rfl⟩ | ⟨hcmd, rfl⟩ | ⟨hcmd, rfl⟩ | ⟨hcmd, rfl⟩ := hc
    · exact congrArg Host.Outcome.next (State.connCmd_busy hreg hcmd hbusy)
    · exact congrArg Host.Outcome.next (State.connCmd_busy hreg hcmd hbusy)
    · exact congrArg Host.Outcome.next (State.connCmd_busy hreg hcmd hbusy)
    · exact congrArg Host.Outcome.next ((congrArg (State.closeRuns · ld cmd) (State.connCmd_busy hreg hcmd hbusy)).trans
        (State.closeRuns_busy hbusy))
  · exact ⟨{ s with flu := { s.flu with connData := BitVec.ofNat 512 (ofBytes (s.conn n).bytes), connStatus := connStatus 0 } },
      congrArg Host.Outcome.next (State.connCmd_runs hreg hcmd hfree), rfl, rfl, rfl⟩
  · exact ⟨_, congrArg Host.Outcome.next (State.connCmd_runs hreg hcmd hfree), State.connWrite_leaves s n rfl⟩
  · refine ⟨_, congrArg Host.Outcome.next (State.connCmd_runs hreg hcmd hfree), ?_, fun hstate hen hctx hkeys => ?_⟩
    · exact congrArg connStatus (State.connOpen_error s n)
    · rw [show s.connOpen (bits cmd.toNat 0 15) = _ from State.connOpen_opens hstate hen hctx hkeys]
      have hconn : (State.connDone (0, s.opened n)).conn n = (s.conn n).fresh := State.opened_conn s n
      rw [hconn]
      exact ⟨rfl, rfl, rfl, rfl, rfl, rfl⟩
  · exact ⟨_, congrArg Host.Outcome.next (congrArg (State.closeRuns · ld cmd) (State.connCmd_runs hreg hcmd hfree)),
      State.connClose_leaves hreg hcmd hfree n rfl _ rfl⟩

end Machine
end Sys2Proof
end

section
/-! PROOFS. Management access to the Domino entries, and block shifts (R126, R132-R134). -/

namespace Sys2Proof
namespace Machine

section
variable {s : State} {ld : Ld} {cmd : BitVec 64} {want : Nat} {op : Nat → State → State} {b : Nat}

theorem State.domAcc_busy (hreg : s.regWritable ld = true) (hcmd : bits cmd.toNat 0 3 = want)
    (hbusy : bitOf s.dom.accStatus.toNat 0 = true) : s.domAcc ld want cmd op = s.accRefuse := by
  unfold State.domAcc
  rw [if_neg (by rw [hreg]; simpa using hcmd), if_pos hbusy]

theorem State.domAcc_runs (hreg : s.regWritable ld = true) (hcmd : bits cmd.toNat 0 3 = want)
    (hidle : bitOf s.dom.accStatus.toNat 0 = false) : s.domAcc ld want cmd op = op (bits cmd.toNat 8 5) s := by
  unfold State.domAcc
  rw [if_neg (by rw [hreg]; simpa using hcmd), if_neg (by rw [hidle]; decide)]

/-! ### LOOKUP and READ -/

/-- R129: a lookup counts; it changes no entry. -/
theorem State.domSearch_counts (s : State) (d : Side) (g : Group) (key : BitVec 256) :
    (s.domSearch d g key).1 = s.domLookup d g key ∧ (s.domSearch d g key).2.dom = s.dom ∧
    { (s.domSearch d g key).2 with tel := s.tel } = s := by
  have hcount : ∀ (c : Bool) (o : Nat) (u : State), { u with tel := s.tel } = s →
      { (if c then u.count o else u) with tel := s.tel } = s := by
    intro c o u hu
    cases c
    · exact hu
    · have hcounted : ∃ x, u.count o = { u with tel := x } := by
        unfold State.count
        split
        · exact ⟨_, rfl⟩
        · exact ⟨u.tel, rfl⟩
      obtain ⟨x, hx⟩ := hcounted
      rw [if_pos rfl, hx]
      exact hu
  have hfirst := hcount (g == .directory) 0x03100300 s rfl
  have htel : { (s.domSearch d g key).2 with tel := s.tel } = s := by
    unfold State.domSearch
    dsimp only
    split
    next w n hw =>
      by_cases h : 2 ≤ n
      · rw [if_pos h]
        exact hcount true 0x03100310 _ hfirst
      · rw [if_neg h]
        exact hfirst
    · exact hfirst
  exact ⟨rfl, (congrArg State.dom htel :), htel⟩

/-- R134: the registers that show an entry. -/
theorem State.accShow_fields (s : State) (e : DomEntry) (st : BitVec 64) :
    (s.accShow e st).dom.accKey = e.key ∧ (s.accShow e st).dom.accMask = e.mask ∧ (s.accShow e st).dom.accResult = e.result ∧
    (s.accShow e st).dom.accStatus = st ∧ (s.accShow e st).dom.entries = s.dom.entries ∧ { s.accShow e st with dom := s.dom } = s :=
  ⟨rfl, rfl, rfl, rfl, rfl, rfl⟩

/-- R134: what the registers show of an entry that a lookup found. -/
theorem State.accShow_shows (s u : State) (e : DomEntry) (st : BitVec 64) (hdom : u.dom = s.dom) (htel : { u with tel := s.tel } = s) :
    (u.accShow e st).dom.accKey = e.key ∧ (u.accShow e st).dom.accMask = e.mask ∧ (u.accShow e st).dom.accResult = e.result ∧
    (u.accShow e st).dom.accStatus = st ∧ (u.accShow e st).dom.entries = s.dom.entries ∧
    { u.accShow e st with dom := s.dom, tel := s.tel } = s :=
  ⟨rfl, rfl, rfl, rfl, (congrArg Dom.entries hdom :), (congrArg (fun u : State => { u with dom := s.dom }) htel :)⟩

/-- R134: what the registers show where no entry matches. -/
theorem State.accMiss_shows (s u : State) (st : BitVec 64) (hdom : u.dom = s.dom) (htel : { u with tel := s.tel } = s) {t : State}
    (ht : t = { u with dom := { u.dom with accStatus := st } }) :
    t.dom.accStatus = st ∧ t.dom.accKey = s.dom.accKey ∧ t.dom.accMask = s.dom.accMask ∧ t.dom.accResult = s.dom.accResult ∧
    t.dom.entries = s.dom.entries ∧ { t with dom := s.dom, tel := s.tel } = s := by
  subst ht
  exact ⟨rfl, (congrArg Dom.accKey hdom :), (congrArg Dom.accMask hdom :), (congrArg Dom.accResult hdom :),
    (congrArg Dom.entries hdom :), (congrArg (fun u : State => { u with dom := s.dom }) htel :)⟩

theorem State.accLookup_hit (hread : s.accReadable b = true) {x n : Nat} {e : DomEntry}
    (hhit : s.domLookup (bankDie b) (bankGroup b) s.dom.accKey = some ((x, e), n)) :
    s.accLookup b = (s.domSearch (bankDie b) (bankGroup b) s.dom.accKey).2.accShow e
      (accStatus false false true (decide (2 ≤ n)) n x e.prio.toNat) := by
  obtain ⟨hfound, -, -⟩ := s.domSearch_counts (bankDie b) (bankGroup b) s.dom.accKey
  unfold State.accLookup
  rw [if_neg (by rw [hread]; decide)]
  rw [hhit] at hfound
  generalize s.domSearch (bankDie b) (bankGroup b) s.dom.accKey = r at hfound ⊢
  obtain ⟨r1, r2⟩ := r
  subst hfound
  rfl

theorem State.accLookup_miss (hread : s.accReadable b = true)
    (hmiss : s.domLookup (bankDie b) (bankGroup b) s.dom.accKey = none) :
    s.accLookup b = { (s.domSearch (bankDie b) (bankGroup b) s.dom.accKey).2 with
      dom := { (s.domSearch (bankDie b) (bankGroup b) s.dom.accKey).2.dom with accStatus := accStatus false false false false 0 0 0 } } := by
  obtain ⟨hfound, -, -⟩ := s.domSearch_counts (bankDie b) (bankGroup b) s.dom.accKey
  unfold State.accLookup
  rw [if_neg (by rw [hread]; decide)]
  rw [hmiss] at hfound
  generalize s.domSearch (bankDie b) (bankGroup b) s.dom.accKey = r at hfound ⊢
  obtain ⟨r1, r2⟩ := r
  subst hfound
  rfl

theorem State.accRead_hit (hread : s.accReadable b = true) {u : Nat} {e : DomEntry} (he : s.dom.entries.look (b * 8192 + u) = some e) :
    s.accRead b u = s.accShow e (accStatus false false true false 0 (b * 8192 + u) e.prio.toNat) := by
  unfold State.accRead
  rw [if_neg (by rw [hread]; decide), he]

/-- R133: READ of an entry shows it. -/
theorem State.accRead_shows (hread : s.accReadable b = true) {u a : Nat} (ha : a = b * 8192 + u) {e : DomEntry}
    (he : s.dom.entries.look a = some e) : ∃ t, s.accRead b u = t ∧ t.dom.accKey = e.key ∧ t.dom.accMask = e.mask ∧
      t.dom.accResult = e.result ∧ t.dom.accStatus = accStatus false false true false 0 a e.prio.toNat ∧
      t.dom.entries = s.dom.entries ∧ { t with dom := s.dom } = s := by
  subst ha
  exact ⟨_, State.accRead_hit hread he, State.accShow_fields s e _⟩

theorem State.accRead_miss (hread : s.accReadable b = true) {u : Nat} (he : s.dom.entries.look (b * 8192 + u) = none) :
    s.accRead b u = { s with dom := { s.dom with accStatus := accStatus false false false false 0 (b * 8192 + u) 0 } } := by
  unfold State.accRead
  rw [if_neg (by rw [hread]; decide), he]

/-! ### INSERT and DELETE -/

section
variable (hbank : bankGroup b = .classifier) (hshift : s.dom.shifts.has b = false) {u prio : Nat}
include hbank hshift

theorem State.accInsertAny_full (hfull : s.domFree b = none) : s.accInsertAny b prio = s.accRefuse := by
  unfold State.accInsertAny
  rw [if_neg (by rw [hbank, hshift]; decide), hfull]

theorem State.accInsertAny_free {x : Nat} (hfree : s.domFree b = some x) :
    s.accInsertAny b prio = s.accPut x (s.accEntry b prio) := by
  unfold State.accInsertAny
  rw [if_neg (by rw [hbank, hshift]; decide), hfree]

theorem State.accInsertAt_free (haligned : u % s.bankUnits b = 0) (hfree : s.dom.entries.has (b * 8192 + u) = false) :
    s.accInsertAt b u prio = s.accPut (b * 8192 + u) (s.accEntry b prio) := by
  unfold State.accInsertAt
  dsimp only
  rw [if_neg (by rw [hbank, hshift, haligned]; decide), if_pos (by rw [hfree]; rfl)]

theorem State.accInsertAt_full (haligned : u % s.bankUnits b = 0) (hused : s.dom.entries.has (b * 8192 + u) = true)
    (hfull : s.freeAbove b u = none) : s.accInsertAt b u prio = s.accRefuse := by
  unfold State.accInsertAt
  dsimp only
  rw [if_neg (by rw [hbank, hshift, haligned]; decide), if_neg (by rw [hused]; decide), hfull]

theorem State.accInsertAt_shifts (haligned : u % s.bankUnits b = 0) (hused : s.dom.entries.has (b * 8192 + u) = true) {h : Nat}
    (hfree : s.freeAbove b u = some h) : s.accInsertAt b u prio = { s with dom := { s.dom with
      shifts := s.dom.shifts.put b { target := b * 8192 + u, hole := h, entry := s.accEntry b prio }
      accStatus := accStatus true false false false 0 (b * 8192 + u) prio } } := by
  unfold State.accInsertAt
  dsimp only
  rw [if_neg (by rw [hbank, hshift, haligned]; decide), if_neg (by rw [hused]; decide), hfree]

theorem State.accDelete_deletes : s.accDelete b u = { s.domDel (b * 8192 + u) with
    dom := { (s.domDel (b * 8192 + u)).dom with accStatus := accStatus false false false false 0 (b * 8192 + u) 0 } } := by
  unfold State.accDelete
  rw [if_neg (by rw [hbank, hshift]; decide)]

end

/-- R133: of a bank that is no classifier bank nothing is written. -/
theorem State.acc_foreign (hbank : bankGroup b ≠ .classifier) (u prio : Nat) : s.accInsertAny b prio = s.accRefuse ∧
    s.accInsertAt b u prio = s.accRefuse ∧ s.accDelete b u = s.accRefuse := by
  have hother : (bankGroup b != .classifier) = true := bne_iff_ne.mpr hbank
  unfold State.accInsertAny State.accInsertAt State.accDelete
  refine ⟨if_pos ?_, if_pos ?_, if_pos ?_⟩ <;> rw [hother] <;> simp

/-! ### Shifts -/

theorem State.bankUnits_pos (s : State) (b : Nat) : 0 < s.bankUnits b := by
  unfold State.bankUnits
  repeat' split
  all_goals decide

/-- R134: a shift that ends clears BUSY and sets DONE. -/
theorem accStatus_done (x : BitVec 64) : bitOf ((x &&& ~~~(1 : BitVec 64)) ||| 2).toNat 0 = false ∧
    bitOf ((x &&& ~~~(1 : BitVec 64)) ||| 2).toNat 1 = true := by
  rw [bitOf_toNat, bitOf_toNat]
  simp only [BitVec.getLsbD_or, BitVec.getLsbD_and, BitVec.getLsbD_not]
  exact ⟨by simp, by simp⟩

/-- R126: the entry below the hole in the hole. -/
def State.hollow (s : State) (hole below : Nat) (e : DomEntry) : State := (s.domPut hole e).domDel below

theorem State.hollow_look {hole below : Nat} {e : DomEntry} (hne : hole ≠ below) :
    (s.hollow hole below e).dom.entries.look hole = some e ∧ (s.hollow hole below e).dom.entries.look below = none ∧
    ∀ y, y ≠ hole → y ≠ below → (s.hollow hole below e).dom.entries.look y = s.dom.entries.look y :=
  ⟨(Tbl.look_del_ne _ hne).trans (Tbl.look_put_self ..), Tbl.look_del_self ..,
    fun _ hy hy' => (Tbl.look_del_ne _ hy').trans (Tbl.look_put_ne _ _ hy)⟩

section
variable {sh : Shift} {e : DomEntry} (hsh : s.dom.shifts.look b = some sh) (hlt : sh.target < sh.hole)
  (he : s.dom.entries.look (sh.hole - s.bankUnits b) = some e)
include hsh hlt he

theorem State.shiftMove_goes (hmore : sh.hole - s.bankUnits b ≠ sh.target) :
    s.shiftMove b = { s.hollow sh.hole (sh.hole - s.bankUnits b) e with dom := { (s.hollow sh.hole (sh.hole - s.bankUnits b) e).dom with
      shifts := s.dom.shifts.put b { sh with hole := sh.hole - s.bankUnits b } } } := by
  unfold State.shiftMove
  rw [hsh]
  dsimp only
  rw [if_neg (Nat.not_le.mpr hlt), if_neg hmore, he]
  rfl

theorem State.shiftMove_ends (hend : sh.hole - s.bankUnits b = sh.target) :
    s.shiftMove b = { (s.hollow sh.hole (sh.hole - s.bankUnits b) e).domPut sh.target sh.entry with
      dom := { ((s.hollow sh.hole (sh.hole - s.bankUnits b) e).domPut sh.target sh.entry).dom with
        shifts := s.dom.shifts.del b, accStatus := (s.dom.accStatus &&& ~~~(1 : BitVec 64)) ||| 2 } } := by
  unfold State.shiftMove
  rw [hsh]
  dsimp only
  rw [if_neg (Nat.not_le.mpr hlt), if_pos hend, he]
  rfl

theorem State.shiftMove_leaves : { s.shiftMove b with dom := s.dom } = s ∧ (s.shiftMove b).dom.entries.look sh.hole = some e ∧
    (∀ y, y ≠ sh.hole → y ≠ sh.hole - s.bankUnits b → (s.shiftMove b).dom.entries.look y = s.dom.entries.look y) ∧
    (sh.hole - s.bankUnits b ≠ sh.target → (s.shiftMove b).dom.entries.look (sh.hole - s.bankUnits b) = none ∧
      (s.shiftMove b).dom.shifts.look b = some { sh with hole := sh.hole - s.bankUnits b } ∧
      (s.shiftMove b).dom.accStatus = s.dom.accStatus) ∧
    (sh.hole - s.bankUnits b = sh.target → (s.shiftMove b).dom.entries.look sh.target = some sh.entry ∧
      (s.shiftMove b).dom.shifts.has b = false ∧ bitOf (s.shiftMove b).dom.accStatus.toNat 0 = false ∧
      bitOf (s.shiftMove b).dom.accStatus.toNat 1 = true) := by
  have hpos := s.bankUnits_pos b
  have hne : sh.hole ≠ sh.hole - s.bankUnits b := by omega
  obtain ⟨hhole, hbelow, hother⟩ := State.hollow_look (s := s) (e := e) hne
  by_cases hend : sh.hole - s.bankUnits b = sh.target
  · rw [State.shiftMove_ends hsh hlt he hend]
    refine ⟨rfl, (Tbl.look_put_ne _ _ (Nat.ne_of_gt hlt)).trans hhole, fun y hy hy' => ?_, fun h => absurd hend h, fun _ =>
      ⟨Tbl.look_put_self .., ?_, accStatus_done _⟩⟩
    · exact (Tbl.look_put_ne _ _ (by rw [← hend]; exact hy')).trans (hother y hy hy')
    · exact Bool.eq_false_iff.mpr fun h => by
        obtain ⟨x, hx⟩ := (Tbl.has_iff _ _).mp h
        exact absurd ((Tbl.look_del_self ..).symm.trans hx) (by simp)
  · rw [State.shiftMove_goes hsh hlt he hend]
    exact ⟨rfl, hhole, hother, fun _ => ⟨hbelow, Tbl.look_put_self .., rfl⟩, fun h => absurd h hend⟩

end
end

/-- Settles O38: DOM_ACC_CMD and the shifts, case by case. -/
theorem dominoAccess : Obligations.DominoAccess := by
  unfold Obligations.DominoAccess
  intro ld cmd s hreg b u prio at_ op
  have hnext : ∀ {want : Nat} {f : Nat → State → State}, op = want → bitOf s.dom.accStatus.toNat 0 = false →
      s.domAcc ld want cmd f = f b s := fun hop hidle => State.domAcc_runs hreg hop hidle
  refine ⟨fun hbusy c hc => ?_, fun hidle => ⟨?_, ?_, ?_, ?_, ?_⟩, ?_⟩
  · simp only [List.mem_cons, Prod.mk.injEq, List.not_mem_nil, or_false] at hc
    obtain ⟨hop, rfl⟩ | ⟨hop, rfl⟩ | ⟨hop, rfl⟩ | ⟨hop, rfl⟩ | ⟨hop, rfl⟩ := hc
    all_goals exact congrArg Host.Outcome.next (State.domAcc_busy hreg hop hbusy)
  · intro hop hread
    obtain ⟨-, hdom, htel⟩ := s.domSearch_counts (bankDie b) (bankGroup b) s.dom.accKey
    exact ⟨fun x e n hhit => ⟨_, congrArg Host.Outcome.next ((hnext hop hidle).trans (State.accLookup_hit hread hhit)),
        State.accShow_shows s _ e _ hdom htel⟩,
      fun hmiss => ⟨_, congrArg Host.Outcome.next ((hnext hop hidle).trans (State.accLookup_miss hread hmiss)),
        State.accMiss_shows s _ _ hdom htel rfl⟩⟩
  · intro hop hread
    refine ⟨fun e he => ?_, fun he => congrArg Host.Outcome.next ((hnext hop hidle).trans (State.accRead_miss hread he))⟩
    obtain ⟨t, ht, hshown⟩ := State.accRead_shows hread (rfl : at_ = _) he
    exact ⟨t, congrArg Host.Outcome.next ((hnext hop hidle).trans ht), hshown⟩
  · intro hread
    have hclosed : (!s.accReadable b) = true := by rw [hread]; rfl
    exact ⟨fun hop => congrArg Host.Outcome.next ((hnext hop hidle).trans (if_pos hclosed)),
      fun hop => congrArg Host.Outcome.next ((hnext hop hidle).trans (if_pos hclosed))⟩
  · intro hbank
    obtain ⟨hany, hat, hdelete⟩ := State.acc_foreign (s := s) hbank u prio
    exact ⟨fun hop => congrArg Host.Outcome.next ((hnext hop hidle).trans hany),
      fun hop => congrArg Host.Outcome.next ((hnext hop hidle).trans hat),
      fun hop => congrArg Host.Outcome.next ((hnext hop hidle).trans hdelete)⟩
  · intro hbank hshift
    refine ⟨fun hop => ⟨fun hfull => ?_, fun x hfree => ?_⟩, fun hop haligned => ⟨fun hfree => ?_, fun hused => ⟨fun hfull => ?_,
      fun h hfree => ?_⟩⟩, fun hop => ?_⟩
    · exact congrArg Host.Outcome.next ((hnext hop hidle).trans (State.accInsertAny_full hbank hshift hfull))
    · exact ⟨_, congrArg Host.Outcome.next ((hnext hop hidle).trans (State.accInsertAny_free hbank hshift hfree)),
        Tbl.look_put_self .., fun y hy => Tbl.look_put_ne _ _ hy, rfl, rfl⟩
    · exact ⟨_, congrArg Host.Outcome.next ((hnext hop hidle).trans (State.accInsertAt_free hbank hshift haligned hfree)),
        Tbl.look_put_self .., fun y hy => Tbl.look_put_ne _ _ hy, rfl, rfl⟩
    · exact congrArg Host.Outcome.next ((hnext hop hidle).trans (State.accInsertAt_full hbank hshift haligned hused hfull))
    · exact ⟨_, congrArg Host.Outcome.next ((hnext hop hidle).trans (State.accInsertAt_shifts hbank hshift haligned hused hfree)),
        Tbl.look_put_self .., rfl, rfl, rfl⟩
    · exact ⟨_, congrArg Host.Outcome.next ((hnext hop hidle).trans (State.accDelete_deletes hbank hshift)),
        Tbl.look_del_self .., fun y hy => Tbl.look_del_ne _ hy, rfl, rfl⟩
  · exact fun sh e hsh hlt he => ⟨_, rfl, State.shiftMove_leaves hsh hlt he⟩

end Machine
end Sys2Proof
end

section
/-! PROOFS. GBL_CTL and GBL_FAULT (R415, R418, R428, R505, R507), and the end of a warm reset (R415). -/

namespace Sys2Proof
namespace Machine

/-! ### The section that a cold reset writes (R419) -/

/-- R419: one entry for each record, ring by ring. -/
theorem length_section_recs {β : Type} (rings : List Nat) (hnodup : rings.Nodup) (f : Nat → JRec → β) (recs : List JRec)
    (hall : ∀ r, r ∈ recs → r.ring ∈ rings) :
    (rings.flatMap fun n => (recs.filter fun r => r.ring == n).map (f n)).length = recs.length := by
  induction rings generalizing recs with
  | nil =>
    have hnone : recs = [] := List.eq_nil_iff_forall_not_mem.mpr fun r hr => List.not_mem_nil (hall r hr)
    rw [hnone]
    rfl
  | cons n ns ih =>
    obtain ⟨hn, hns⟩ := List.nodup_cons.mp hnodup
    have hothers : ∀ m, m ∈ ns → (recs.filter fun r => r.ring == m).map (f m) =
        ((recs.filter fun r => !(r.ring == n)).filter fun r => r.ring == m).map (f m) := by
      intro m hm
      rw [List.filter_filter]
      refine congrArg (List.map (f m)) (List.filter_congr fun r _ => ?_)
      by_cases hr : r.ring = m
      · have hne : (r.ring == n) = false := by
          rw [beq_eq_false_iff_ne, hr]
          exact fun e => hn (e ▸ hm)
        rw [hne, Bool.not_false, Bool.and_true]
      · rw [beq_eq_false_iff_ne.mpr hr, Bool.false_and]
    have hrest := ih hns (recs.filter fun r => !(r.ring == n)) (fun r hr => by
      obtain ⟨hmem, hne⟩ := List.mem_filter.mp hr
      exact (List.mem_cons.mp (hall r hmem)).resolve_left (by simpa using hne))
    have hsplit := List.length_eq_countP_add_countP (l := recs) fun r => r.ring == n
    simp only [Bool.not_eq_true, Bool.decide_eq_false, List.countP_eq_length_filter] at hsplit
    rw [List.flatMap_cons, List.length_append, List.length_map, List.flatMap_def, List.map_congr_left hothers, ← List.flatMap_def,
      hrest, ← hsplit]

/-- R419: the newest section is the one added, but for the flag that older ones are gone. -/
theorem addSection_last (l : List RlogSection) (x : RlogSection) :
    ∃ y, (addSection l x).getLast? = some y ∧ y.recs = x.recs ∧ y.cause = x.cause := by
  unfold addSection
  split
  · exact ⟨x, List.getLast?_concat .., rfl, rfl⟩
  · exact ⟨_, List.getLast?_concat .., rfl, rfl⟩

/-- R417, R419: a journal with records makes a section of them. -/
theorem State.section_last (s : State) (cause flags : Nat) {recs : List JRec} (hrecs : recs ≠ []) :
    ∃ x, (s.section_ cause flags recs).gbl.rlog.getLast? = some x ∧ x.recs.length = recs.length ∧
      x.cause = if s.gbl.stopped then 8 else cause := by
  have hempty : recs.isEmpty = false := by simpa using hrecs
  have hpair : ((recs.map (·.ring)).foldl insNat []).Pairwise (· < ·) := pairwise_foldl_insNat _ .nil
  unfold State.section_
  extract_lets code rings x
  rw [if_neg (by rw [hempty]; simp)]
  obtain ⟨y, hy, hyrecs, hycause⟩ := addSection_last s.gbl.rlog x
  refine ⟨y, hy, ?_, hycause⟩
  rw [hyrecs]
  exact length_section_recs rings (hpair.imp fun h => Nat.ne_of_lt h) _ recs fun r hr =>
    mem_foldl_insNat.mpr (.inl (List.mem_map.mpr ⟨r, hr, rfl⟩))

/-! ### GBL_CTL (R505) -/

section
variable {s : State} {ld : Ld} {v : BitVec 64}

/-- R505: PERST_HEAD, and the recovery log as a write leaves them. -/
def State.ctlFields (s : State) (v : BitVec 64) (rlog : List RlogSection) : State :=
  { s with gbl := { s.gbl with perstHead := if v.getLsbD 4 then .east else .west, rlog := rlog } }

theorem State.gblCtl_foreign (hmgr : s.manager ld = false) : s.gblCtl ld v = s := by
  unfold State.gblCtl
  exact if_pos (by rw [hmgr]; simp)

/-- R415: a part that runs, outside a recovery window, begins a warm reset; within one, the reset waits. -/
theorem State.startWarm_starts (hlive : s.live = true) (hheld : s.gbl.held = false) (hwarm : s.gbl.warming = false)
    (hstop : s.gbl.stopped = false) (hwarn : s.pkg.powerWarn = false) (hhold : s.gbl.powerHold = false) :
    s.startWarm.gbl.warming = s.gbl.windows.isEmpty ∧ s.startWarm.gbl.warmWaiting = !s.gbl.windows.isEmpty ∧
      { s.startWarm with gbl := s.gbl, pkg := s.pkg } = s := by
  unfold State.startWarm
  rw [if_neg (by simp [hlive, hheld, hwarm, hstop, hwarn, hhold])]
  split
  next h =>
    rw [Bool.not_eq_true'] at h
    exact ⟨by rw [h]; exact hwarm, by rw [h]; rfl, rfl⟩
  next h =>
    have hnone : s.gbl.windows.isEmpty = true := by simpa using h
    exact ⟨by rw [hnone], by rw [hnone]; rfl, rfl⟩

theorem State.startWarm_held (hheld : s.gbl.held = true) : s.startWarm = s := by
  unfold State.startWarm
  exact if_pos (by simp [hheld])

section
variable (hpow : s.pkg.powered = true) (hreset : s.pkg.resetHigh = true) (hmgr : s.manager ld = true)
include hpow hreset hmgr

/-- R505: a write without COLD_RESET. -/
theorem State.gblCtl_runs (hcold : v.getLsbD 2 = false) : s.gblCtl ld v =
    (let u := s.ctlFields v (if v.getLsbD 3 && s.gbl.fwReady then [] else s.gbl.rlog)
    let w := if v.getLsbD 0 then u.startWarm else u
    if v.getLsbD 1 && s.gbl.held then w.restore else w) := by
  unfold State.gblCtl
  rw [if_neg (by simp [hpow, hreset, hmgr])]
  dsimp only
  rw [if_neg (by rw [hcold]; decide)]
  cases v.getLsbD 3 && s.gbl.fwReady <;> rfl

/-- R415, R505: RESTORE of a HELD part. -/
theorem State.gblCtl_restores (hcold : v.getLsbD 2 = false) (hrestore : v.getLsbD 1 = true) (hheld : s.gbl.held = true) :
    s.gblCtl ld v = (s.ctlFields v (if v.getLsbD 3 && s.gbl.fwReady then [] else s.gbl.rlog)).restore := by
  have hsame : ∀ l, (s.ctlFields v l).startWarm = s.ctlFields v l := fun _ => State.startWarm_held hheld
  rw [State.gblCtl_runs hpow hreset hmgr hcold]
  dsimp only
  rw [hsame, ite_self, hrestore, hheld]
  rfl

theorem State.gblCtl_cold (hcold : v.getLsbD 2 = true) : s.gblCtl ld v = (s.ctlFields v s.gbl.rlog).coldReset 5 := by
  unfold State.gblCtl
  rw [if_neg (by simp [hpow, hreset, hmgr])]
  exact if_pos hcold

end

/-! ### RESTORE (R415) -/

theorem State.reloadKeys_leaves (s : State) : { s.reloadKeys with dom := s.dom } = s := by
  refine foldl_keeps (fun t : State => { t with dom := s.dom }) _ (fun u k => ?_) _ s
  split <;> rfl

theorem State.resumed_leaves (s : State) (d : Side) (cause start : Nat) (cls : Option Nat) :
    { s.resumed d cause start cls with tel := s.tel } = s := by
  unfold State.resumed State.trace
  dsimp only
  split <;> rfl

/-- R19, R411: a record as RESTORE leaves it. -/
def JRec.restored (t0 now : Nat) (r : JRec) : JRec :=
  let x := if r.state == .done then r else r.excludeFrom t0 now
  if x.state == .issued && true then { x with resumed := true } else x

theorem JRec.restored_resumed (t0 now : Nat) (r : JRec) (h : (r.restored t0 now).state = .issued) :
    (r.restored t0 now).resumed = true := by
  revert h
  unfold JRec.restored
  extract_lets x
  split
  · exact fun _ => rfl
  next hnot => exact fun h => absurd h (by simpa using hnot)

/-- R415: what RESTORE leaves. -/
theorem State.restore_leaves (hheld : s.gbl.held = true) : s.restore.gbl.held = false ∧ s.restore.rings = s.rings ∧
    s.restore.ctxs = s.ctxs ∧ s.restore.mem = s.mem ∧ ∃ t0 now, s.restore.jrn.recs = s.jrn.recs.map (JRec.restored t0 now) := by
  unfold State.restore
  rw [if_neg (by rw [hheld]; decide)]
  extract_lets t0 g u w x pkg
  have hu : { u with dom := s.dom } = { s with gbl := { s.gbl with held := false } } :=
    State.reloadKeys_leaves { s with gbl := { s.gbl with held := false } }
  have hx : { x with tel := w.tel } = w :=
    calc { x with tel := w.tel } = { { x with tel := (w.resumed .west 4 t0).tel } with tel := w.tel } := rfl
      _ = { w.resumed .west 4 t0 with tel := w.tel } := by rw [State.resumed_leaves]
      _ = w := State.resumed_leaves ..
  have hrecs : w.jrn.recs = u.jrn.recs.map (JRec.restored t0 u.now.toNat) := List.map_map
  have hsent := (SentOnly.refl { x with pkg := { x.pkg with pauses := x.pkg.pauses.filter (fun p => p.1 != 4) } }).pumpAll
  refine ⟨hsent.held.trans ?_, hsent.rings.trans ?_, hsent.ctxs.trans ?_, hsent.mem.trans ?_, t0, u.now.toNat,
    (congrArg (·.recs) hsent.jrn).trans ?_⟩
  · exact (congrArg (fun y : State => y.gbl.held) hx :).trans (congrArg (fun y : State => y.gbl.held) hu :)
  · exact (congrArg State.rings hx :).trans (congrArg State.rings hu :)
  · exact (congrArg State.ctxs hx :).trans (congrArg State.ctxs hu :)
  · exact (congrArg State.mem hx :).trans (congrArg State.mem hu :)
  · have hjrn : u.jrn = s.jrn := (congrArg State.jrn hu :)
    rw [← hjrn]
    exact (congrArg (fun y : State => y.jrn.recs) hx :).trans hrecs

/-! ### The end of a warm reset (R415) -/

/-- R276, R413: what a warm reset wipes, and what it leaves. -/
theorem State.warmWipe_leaves (s : State) : s.warmWipe.rings = s.rings ∧ s.warmWipe.ctxs = s.ctxs ∧ s.warmWipe.jrn = s.jrn ∧
    s.warmWipe.seqs = s.seqs ∧ s.warmWipe.pages = s.pages ∧ s.warmWipe.mem = s.mem ∧ s.warmWipe.dom.shifts = [] ∧
    ∀ l, (s.warmWipe.ld l).decoders = [] := by
  have hsent : SentOnly s ((s.portDown .west).portDown .east) := (SentOnly.refl s).portDown.portDown
  refine ⟨hsent.rings, hsent.ctxs, hsent.jrn, (congrArg State.seqs hsent :), (congrArg State.pages hsent :), hsent.mem, rfl, fun l => ?_⟩
  unfold State.ld State.warmWipe
  dsimp only
  rw [Two.get_map]
  exact congrArg LdState.decoders (Tbl.lookD_mapVals_of _ (fun (_ : Nat) (x : LdState) => { x with decoders := [] }) l.id (d := {}) (e := {}) rfl)

end

/-- Settles O57: GBL_CTL and GBL_FAULT command by command, and the end of a warm reset. -/
theorem globalControl : Obligations.GlobalControl := by
  unfold Obligations.GlobalControl
  intro s
  refine ⟨fun ld v hpow hreset hmgr => ⟨fun hbit hcold hlog hfw hheld hwarm hstop hwarn hhold => ?_, fun hbit hcold hheld => ?_,
    fun hbit => ?_, fun hbit hcold hrestore hwarm hfw => ?_, fun hbit hheld => ?_⟩, fun ld v hmgr c hc => ?_, fun hwarm => ?_, fun hwarm => ?_⟩
  · have hdo : exec (.gblWarmReset ld v) s = .next (s.ctlFields v s.gbl.rlog).startWarm := by
      refine congrArg Host.Outcome.next ((if_pos hbit).trans ((State.gblCtl_runs hpow hreset hmgr hcold).trans ?_))
      dsimp only
      rw [if_pos hbit, hlog, hheld, Bool.and_false]
      rfl
    have hlive : (s.ctlFields v s.gbl.rlog).live = true := by
      unfold State.live State.ctlFields
      simp [hfw, hpow, hreset]
    obtain ⟨hwarming, hwaiting, hrest⟩ := State.startWarm_starts (s := s.ctlFields v s.gbl.rlog) hlive hheld hwarm hstop hwarn hhold
    exact ⟨_, hdo, hwarming, hwaiting, (congrArg (fun t : State => { t with gbl := s.gbl }) hrest :)⟩
  · have hdo := State.gblCtl_restores hpow hreset hmgr hcold hbit hheld
    obtain ⟨hfree, hrings, hctxs, hmem, t0, now, hrecs⟩ :=
      State.restore_leaves (s := s.ctlFields v (if v.getLsbD 3 && s.gbl.fwReady then [] else s.gbl.rlog)) hheld
    refine ⟨_, congrArg Host.Outcome.next ((if_pos hbit).trans hdo), hfree, hrings, hctxs, ?_, fun r hr hissued => ?_, hmem⟩
    · rw [hrecs, List.length_map]
      rfl
    · rw [hrecs] at hr
      obtain ⟨q, -, rfl⟩ := List.mem_map.mp hr
      exact JRec.restored_resumed t0 now q hissued
  · have hwiped : (s.ctlFields v s.gbl.rlog).coldReset 5 =
        ((s.ctlFields v s.gbl.rlog).section_ 5 0 s.jrn.recs).wiped ⟨true, true⟩ s.sec.debugRequest := by
      refine if_neg ?_
      rw [show (s.ctlFields v s.gbl.rlog).pkg = s.pkg from rfl, hpow, hreset]
      decide
    refine ⟨_, congrArg Host.Outcome.next ((if_pos hbit).trans ((State.gblCtl_cold hpow hreset hmgr hbit).trans hwiped)), rfl, ?_, rfl, rfl,
      rfl, fun hrecs => ?_⟩
    · refine congrArg (· + 1) ?_
      unfold State.section_
      extract_lets
      split <;> rfl
    · exact State.section_last (s.ctlFields v s.gbl.rlog) 5 0 hrecs
  · have hdo : s.gblCtl ld v = s.ctlFields v [] := by
      rw [State.gblCtl_runs hpow hreset hmgr hcold, hbit, hfw, hwarm, hrestore]
      rfl
    exact ⟨_, congrArg Host.Outcome.next ((if_pos hbit).trans hdo), rfl, rfl⟩
  · refine ⟨{ s with gbl := { s.gbl with fault := 0, alert := false } }, congrArg Host.Outcome.next (if_pos ?_), rfl, rfl, rfl, rfl⟩
    rw [hbit, hpow, hreset, hheld, hmgr]
    rfl
  · simp only [List.mem_cons, List.not_mem_nil, or_false] at hc
    have hsame : ∀ b : Bool, (if b then s.gblCtl ld v else s) = s := fun b => by
      rw [State.gblCtl_foreign hmgr]
      exact ite_self s
    obtain rfl | rfl | rfl | rfl | rfl := hc
    · exact congrArg Host.Outcome.next (hsame _)
    · exact congrArg Host.Outcome.next (hsame _)
    · exact congrArg Host.Outcome.next (hsame _)
    · exact congrArg Host.Outcome.next (hsame _)
    · exact congrArg Host.Outcome.next (if_neg (by rw [hmgr]; simp))
  · obtain ⟨hrings, hctxs, hjrn, hseqs, hpages, hmem, hshifts, hlds⟩ := s.warmWipe_leaves
    exact ⟨_, congrArg Host.Outcome.next (if_pos hwarm), rfl, rfl, hrings, hctxs, hjrn, hseqs, hpages, hmem, hshifts, hlds⟩
  · exact congrArg Host.Outcome.next (if_neg (by rw [hwarm]; decide))

end Machine
end Sys2Proof
end

section
/-! PROOFS. Flue packets: the checks, and what a packet that passes them does (R303, R310, R313, R314, R316-R320, R331, R332). -/

namespace Sys2Proof
namespace Machine

/-! ### The checks of a packet -/

/-- R317, R335: the part as MACsec passes a frame, the mark of congestion counted. -/
def State.marked (s : State) (k : Packet) : State := if k.ce then s.count 0x03500258 else s

/-- R316: the connection has heard from its peer at port p. -/
def State.heard (s : State) (n : Nat) (p : Side) : State := s.setConn n { s.conn n with lastPort := p }

section
variable {s s0 : State} {p : Side} {k : Packet} {n : Nat}

/-- R331: MACsec counts packet numbers at its port; it touches no connection, and no queue. -/
theorem State.macsecIn_leaves {t : Option SecTag} (h : s.macsecIn p t = some s0) : s0.flu.conns = s.flu.conns ∧
    ∀ d, (s0.flu.port.get d).queue = (s.flu.port.get d).queue := by
  unfold State.macsecIn at h
  dsimp only at h
  split at h
  · cases h
    exact ⟨rfl, fun _ => rfl⟩
  · cases h
  · cases h
  · split at h
    · cases h
      refine ⟨rfl, fun d => ?_⟩
      by_cases hd : d = p
      · subst hd
        exact (congrArg PortState.queue (State.port_setPort s d _) :)
      · exact (congrArg PortState.queue (Two.get_set_ne s.flu.port _ hd) :)
    · cases h

theorem State.marked_flu (s : State) (k : Packet) : (s.marked k).flu = s.flu := by
  unfold State.marked
  split
  · exact State.count_flu ..
  · rfl

/-- The connections as MACsec and the mark of congestion leave them. -/
theorem State.conn_marked {t : Option SecTag} (h : s.macsecIn p t = some s0) (m : Nat) : (s0.marked k).conn m = s.conn m := by
  obtain ⟨hconns, -⟩ := State.macsecIn_leaves h
  unfold State.conn
  rw [State.marked_flu, hconns]

section
variable {type : Nat} {go : Nat → State → State} (hcarries : s.portCarries p = true) (hfits : frameFits k.frameLen = true)
  (htype : k.type.toNat = type)
include hcarries hfits htype

theorem State.takePacket_unsecured (hsec : s.macsecIn p k.sec = none) : s.takePacket p type k go = s.count 0x03500250 := by
  unfold State.takePacket
  rw [if_neg (by rw [hcarries, hfits, htype]; simp), hsec]

theorem State.takePacket_malformed (hsec : s.macsecIn p k.sec = some s0) (hbad : malformed k = true ∨ typeOk k = false) :
    s.takePacket p type k go = (s0.marked k).malformedCredit k := by
  have hbad' : (malformed k || !typeOk k) = true := by
    obtain h | h := hbad <;> rw [h] <;> simp
  unfold State.takePacket
  rw [if_neg (by rw [hcarries, hfits, htype]; simp), hsec]
  exact if_pos hbad'

theorem State.takePacket_goes (hsec : s.macsecIn p k.sec = some s0) (hform : malformed k = false) (hok : typeOk k = true) :
    s.takePacket p type k go = go (bits k.conn.toNat 0 15) (s0.marked k) := by
  unfold State.takePacket
  rw [if_neg (by rw [hcarries, hfits, htype]; simp), hsec]
  exact if_neg (by rw [hform, hok]; decide)

end

/-- R316: the packet passes the checks of its connection. -/
def State.genuine (s : State) (n : Nat) (k : Packet) : Prop :=
  (s.conn n).state = .opened ∧ (s.conn n).fromPeer k = true ∧ pktSealed k = (s.conn n).sealed ∧
    ((s.conn n).sealed = false ∨ k.sealOk = true) ∧ k.alive = (s.conn n).peerAlive

theorem State.genuine_congr {t : State} (h : t.conn n = s.conn n) : t.genuine n k ↔ s.genuine n k := by
  unfold State.genuine
  rw [h]

section
variable {go : State → State} (hopen : (s.conn n).state = .opened) (hpeer : (s.conn n).fromPeer k = true)
include hopen hpeer

theorem State.authentic_unsealed (hseal : pktSealed k ≠ (s.conn n).sealed ∨ ((s.conn n).sealed = true ∧ k.sealOk = false)) :
    s.authentic p n k go = s.count 0x03500230 := by
  have hbad : (pktSealed k != (s.conn n).sealed || ((s.conn n).sealed && !k.sealOk)) = true := by
    obtain h | ⟨h, h'⟩ := hseal
    · rw [bne_iff_ne.mpr h, Bool.true_or]
    · rw [h, h']
      simp
  unfold State.authentic
  dsimp only
  rw [if_neg (by rw [hopen]; decide), if_neg (by rw [hpeer]; decide), if_pos hbad]

section
variable (hsealed : pktSealed k = (s.conn n).sealed) (hseal : (s.conn n).sealed = false ∨ k.sealOk = true)
include hsealed hseal

theorem State.authentic_dead (halive : k.alive ≠ (s.conn n).peerAlive) : s.authentic p n k go = s.count 0x03500228 := by
  have hgood : ¬(pktSealed k != (s.conn n).sealed || ((s.conn n).sealed && !k.sealOk)) = true := by
    rw [hsealed]
    obtain h | h := hseal <;> rw [h] <;> simp
  unfold State.authentic
  dsimp only
  rw [if_neg (by rw [hopen]; decide), if_neg (by rw [hpeer]; decide), if_neg hgood, if_pos (bne_iff_ne.mpr halive)]

theorem State.authentic_live (halive : k.alive = (s.conn n).peerAlive) : s.authentic p n k go = go (s.heard n p) := by
  have hgood : ¬(pktSealed k != (s.conn n).sealed || ((s.conn n).sealed && !k.sealOk)) = true := by
    rw [hsealed]
    obtain h | h := hseal <;> rw [h] <;> simp
  unfold State.authentic
  dsimp only
  rw [if_neg (by rw [hopen]; decide), if_neg (by rw [hpeer]; decide), if_neg hgood, if_neg (by rw [halive]; simp)]
  rfl

end
end

theorem State.authentic_goes {go : State → State} (h : s.genuine n k) : s.authentic p n k go = go (s.heard n p) := by
  obtain ⟨hopen, hpeer, hsealed, hseal, halive⟩ := h
  exact State.authentic_live hopen hpeer hsealed hseal halive

/-- R338: a packet that the ingress steps let pass. -/
theorem State.policed_goes {go : Nat → State → State} (hopen : (s.conn n).state = .opened) {cls : Nat} {s1 : State}
    (hin : s.ingress p n k = (some cls, s1)) : s.policed p n k go = go cls s1 := by
  unfold State.policed
  rw [if_neg (by rw [hopen]; decide), hin]

end

/-! ### What packets do that pass -/

section
variable {s t s1 : State} {p : Side} {k : Packet} {n cls i : Nat}

/-- R316: a DATA packet that is new, of its message's shape, and whose key is good is accepted. -/
theorem State.receiveData_accepts (htake : ∀ go, s.takePacket p 1 k go = go n t) (hopen : (t.conn n).state = .opened)
    (hin : t.ingress p n k = (some cls, s1)) (hauth : s1.genuine n k) (hdone : ((s1.heard n p).conn n).isDone k.msgSeq.toNat = false)
    (hnew : ∀ m, (s1.heard n p).rx? n k.msgSeq.toNat = some m → k.pktIdx.toNat ∉ m.arrived)
    (hshape : (s1.heard n p).shapeOk n k = true)
    (hkey : (s1.heard n p).keyCheck p n k.rkey k.raddr.toNat k.payload.length false = .ok i) :
    s.receiveData p k = (s1.heard n p).acceptData p n cls i k := by
  unfold State.receiveData
  rw [htake, State.policed_goes hopen hin, State.authentic_goes hauth]
  dsimp only
  rw [if_neg, if_neg (by rw [hshape]; decide), hkey]
  rw [hdone, Bool.false_or]
  split
  next m hm => simpa using hnew m hm
  · exact Bool.false_ne_true

/-- R320: COMPLETE ends the message that it names, once a packet of it has left. -/
theorem State.receiveAck_completes (htake : ∀ go, s.takePacket p 2 k go = go n t) (hauth : t.genuine n k) {m : TxMsg}
    (hst : ofBytes ((k.payload.drop 8).take 1) = 1) (hm : ((t.heard n p).ackProgress n k).tx? n k.msgSeq.toNat = some m)
    (hnext : m.next ≠ 0) : s.receiveAck p k = (((t.heard n p).ackProgress n k).endTx n k.msgSeq.toNat
      { result := BitVec.ofNat 64 k.msgSeq.toNat }).pumpConn n := by
  unfold State.receiveAck
  rw [htake, State.authentic_goes hauth]
  dsimp only
  rw [hm]
  dsimp only
  rw [if_neg hnext, hst]
  rfl

/-- R332: a READ that is new, of a length and place in the window, and whose key is good is accepted. -/
theorem State.receiveRead_accepts (htake : ∀ go, s.takePacket p 4 k go = go n t) (hopen : (t.conn n).state = .opened)
    (hin : t.ingress p n k = (some cls, s1)) (hauth : s1.genuine n k) (hdone : ((s1.heard n p).conn n).isDone k.msgSeq.toNat = false)
    (hnew : (s1.heard n p).rx? n k.msgSeq.toNat = none) (hlong : 1 ≤ readLen k) (hshort : readLen k ≤ 67108864)
    (hwindow : (k.msgSeq - ((s1.heard n p).conn n).rxCum).toNat < 256) (hen : (s1.heard n p).flu.readEn = true)
    (hkey : (s1.heard n p).keyCheck p n k.rkey k.raddr.toNat (readLen k) true = .ok i) :
    s.receiveRead p k = (s1.heard n p).acceptRead n i k := by
  have hfits : ¬(readLen k = 0 || decide (67108864 < readLen k) || decide (256 ≤ (k.msgSeq - ((s1.heard n p).conn n).rxCum).toNat)) = true := by
    simp only [Bool.or_eq_true, decide_eq_true_eq]
    omega
  unfold State.receiveRead
  rw [htake, State.policed_goes hopen hin, State.authentic_goes hauth]
  dsimp only
  rw [if_neg (by rw [hdone, hnew]; decide), if_neg hfits, if_neg (by rw [hen]; decide), hkey]

end

/-- Settles O33: the checks of Flue packets in their order, and the packets that pass them. -/
theorem fluePacketsDecided : Obligations.FluePacketsDecided := by
  unfold Obligations.FluePacketsDecided
  refine ⟨⟨fun p k s hfits => ⟨fun hup hen => ?_, fun hcarries htype hsec => ?_⟩, fun p k s s0 hcarries hfits hsec => ?_⟩,
    fun p k s s0 hcarries hfits hsec hform hok => ?_⟩
  · have hcarries : s.portCarries p = false := by
      unfold State.portCarries
      rw [hen]
      simp
    refine congrArg Host.Outcome.next ((if_pos (by rw [hcarries]; rfl)).trans (if_pos ?_))
    rw [hup, hfits, hen]
    rfl
  · exact congrArg Host.Outcome.next (State.takePacket_unsecured hcarries hfits (by rw [htype]; rfl) hsec)
  · intro n s1
    refine ⟨fun htype hbad => ?_, fun htype hform hok hopen hpeer => ?_⟩
    · exact congrArg Host.Outcome.next (State.takePacket_malformed hcarries hfits (by rw [htype]; rfl) hsec hbad)
    · have hgo : ∀ go, s.takePacket p 2 k go = go n s1 := fun go =>
        State.takePacket_goes hcarries hfits (by rw [htype]; rfl) hsec hform hok
      have hconn : s1.conn n = s.conn n := State.conn_marked hsec n
      rw [← hconn] at hopen hpeer ⊢
      exact ⟨fun hseal => congrArg Host.Outcome.next ((hgo _).trans (State.authentic_unsealed hopen hpeer hseal)),
        fun hsealed hseal halive => congrArg Host.Outcome.next ((hgo _).trans (State.authentic_dead hopen hpeer hsealed hseal halive))⟩
  · intro n q sc from_ auth
    have hconn : sc.conn n = s.conn n := State.conn_marked hsec n
    have hgo : ∀ (type : Nat) go, k.type.toNat = type → s.takePacket p type k go = go n sc := fun type go htype =>
      State.takePacket_goes hcarries hfits htype hsec hform hok
    refine ⟨fun htype hopen cls s1 i hin hauth => ?_, fun htype hauth hst m hm hnext => ?_, fun htype hauth => ?_,
      fun htype hopen cls s1 i hin hauth => ?_⟩
    · intro s2 hdone hnew hshape hkey
      exact congrArg Host.Outcome.next (State.receiveData_accepts (hgo 1 · (by rw [htype]; rfl)) (by rw [hconn]; exact hopen) hin hauth
        hdone hnew hshape hkey)
    · exact congrArg Host.Outcome.next (State.receiveAck_completes (hgo 2 · (by rw [htype]; rfl))
        ((State.genuine_congr hconn).mpr hauth) hst hm hnext)
    · have hgenuine := (State.genuine_congr (k := k) hconn).mpr hauth
      have hdo : exec (.flueCloseReceive p k) s = .next ((from_ sc).closeConn n none) := congrArg Host.Outcome.next
        ((hgo 3 _ (by rw [htype]; rfl)).trans (State.authentic_goes hgenuine))
      have hopen : ((from_ sc).conn n).state = .opened :=
        (congrArg Conn.state (State.conn_setConn_self ..)).trans hgenuine.1
      obtain ⟨htx, hrx, hstate, -, hgone⟩ := State.closeConn_leaves (from_ sc) n none St.peerClosed hopen
      refine ⟨_, hdo, rfl, hstate, htx, hrx, fun hfree => hgone rfl fun d f hf => ?_⟩
      obtain ⟨-, hqueue⟩ := State.macsecIn_leaves hsec
      refine hfree d f ?_
      rw [← hqueue d]
      exact (congrArg (fun x : Flu => f ∈ (x.port.get d).queue) (State.marked_flu s0 k)).mp hf
    · intro s2 hdone hnew hlong hshort hwindow hen hkey
      exact congrArg Host.Outcome.next (State.receiveRead_accepts (hgo 4 · (by rw [htype]; rfl)) (by rw [hconn]; exact hopen) hin hauth
        hdone hnew hlong hshort hwindow hen hkey)

end Machine
end Sys2Proof
end

section
/-! PROOFS. The control of the Coal store (R234, R249-R251, R268, R521-R523). -/

namespace Sys2Proof
namespace Machine

/-! ### What the housekeeping of a half leaves -/

/-- Steps that each leave a half's view leave it together. -/
theorem Half.foldl_keeps {β γ : Type} (get : Half → γ) (f : Half → β → Half) (hf : ∀ h x, get (f h x) = get h) :
    ∀ (l : List β) (h : Half), get (l.foldl f h) = get h
  | [], _ => rfl
  | x :: xs, h => (Half.foldl_keeps get f hf xs (f h x)).trans (hf h x)

/-- R245, R251, R260: a half's readiness, its map, and its retired blocks. -/
def Half.mapped (h : Half) : Bool × Bool × Bool × Tbl MapEnt × List (Nat × Nat × Nat) :=
  (h.ready, h.replaying, h.replayed, h.map, h.worn)

theorem Half.addLog_mapped (h : Half) (r : MapLog) : (h.addLog r).mapped = h.mapped := by
  unfold Half.addLog
  dsimp only
  split <;> rfl

theorem Half.closeSb_mapped (h : Half) (k : Nat) : (h.closeSb k).mapped = h.mapped := Half.addLog_mapped ..

theorem Half.writeLeaf_mapped (h : Half) (n : Nat) : (h.writeLeaf n).mapped = h.mapped := by
  unfold Half.writeLeaf
  split
  · rfl
  · split
    · rfl
    · exact Half.addLog_mapped ..

theorem Half.evictLeaf_mapped (h : Half) (n : Nat) : (h.evictLeaf n).mapped = h.mapped := Half.writeLeaf_mapped ..

theorem Half.leafRoom_mapped : ∀ (k : Nat) (h : Half) (kib : Nat), (Half.leafRoom k h kib).mapped = h.mapped
  | 0, _, _ => rfl
  | k + 1, h, kib => by
    rw [Half.leafRoom]
    split
    · rfl
    · split
      · rfl
      · split
        · exact Half.leafRoom_mapped k _ kib
        · exact (Half.leafRoom_mapped k _ kib).trans (h.evictLeaf_mapped _)

theorem Half.useLeaf_mapped (h : Half) (n : Nat) : (h.useLeaf n).mapped = h.mapped := by
  unfold Half.useLeaf
  dsimp only
  split
  · rfl
  · exact Half.leafRoom_mapped ..

/-- R249: a checkpoint writes leaves and the index. -/
theorem Half.checkpoint_mapped (h : Half) (now : Nat) : (h.checkpoint now).mapped = h.mapped := by
  unfold Half.checkpoint
  extract_lets written blocks index a logged
  exact Half.foldl_keeps Half.mapped Half.writeLeaf Half.writeLeaf_mapped h.leaves.keys h

/-- R251: replay loads the directory and erases superblocks again. -/
theorem Half.afterReplay_mapped (h : Half) : h.afterReplay.mapped = h.mapped := by
  unfold Half.afterReplay
  extract_lets dir erased fresh
  have hfresh : ∀ (l : List Nat) (h : Half), (l.foldl (fun (h : Half) n =>
      { h.useLeaf n with leaves := (h.useLeaf n).leaves.upd n {} (fun x => { x with dirty := true }) }) h).mapped = h.mapped :=
    Half.foldl_keeps Half.mapped _ fun h n => h.useLeaf_mapped n
  refine (hfresh fresh erased).trans ?_
  exact Half.foldl_keeps Half.mapped Half.eraseAgain (fun _ _ => rfl) _ _

/-! ### EN set (R251, R268, R435) -/

/-- R268: the part but for the Coal store, its enables, and the halves' maps. -/
def State.coalView (s : State) : State × (Bool × Bool × Bool × Bool) × Two (Bool × Bool × Bool × Tbl MapEnt × List (Nat × Nat × Nat)) :=
  ({ s with coal := {} }, (s.coal.en, s.coal.gcEn, s.coal.wlEn, s.coal.patrolEn), s.coal.half.map Half.mapped)

/-- A half replaced by one with the same map. -/
theorem Two.map_set_same {α β : Type} (t : Two α) (d : Side) (x : α) (f : α → β) (h : f x = f (t.get d)) :
    (t.set d x).map f = t.map f := by
  cases d
  · exact congrArg (fun y => (⟨y, f t.e⟩ : Two β)) h
  · exact congrArg (fun y => (⟨f t.w, y⟩ : Two β)) h

/-- R262: a LUN that leaves service leaves the maps. -/
theorem State.lunOut_coalView (s : State) (ch lun : Nat) : (s.lunOut ch lun).coalView = s.coalView := by
  have hclosed : ∀ (l : List Nat) (h : Half), (l.foldl Half.closeSb h).mapped = h.mapped := fun l h =>
    Half.foldl_keeps Half.mapped Half.closeSb Half.closeSb_mapped l h
  unfold State.lunOut
  extract_lets d c h left on h1 filling h2 h3 fault
  split
  · rfl
  · have hmapped : h3.mapped = h.mapped := hclosed filling h1
    exact congrArg (fun x => (({ s with coal := {} } : State), (s.coal.en, s.coal.gcEn, s.coal.wlEn, s.coal.patrolEn), x))
      (Two.map_set_same s.coal.half d h3 Half.mapped hmapped)

/-- R522: the enables as COAL_CTL gives them. -/
def State.coalFlags (s : State) (v : BitVec 64) : State :=
  { s with coal := { s.coal with gcEn := v.getLsbD 1, wlEn := v.getLsbD 2, patrolEn := v.getLsbD 3 } }

/-- R251, R522: a half when EN is set. -/
def Half.started (media : Bool) (h : Half) : Half := if h.replayed then { h with ready := media } else { h with replaying := true }

/-- R251, R522: EN set. -/
def State.coalStarted (s : State) : State := { s with coal := { s.coal with en := true, half := s.coal.half.map (Half.started s.coal.media) } }

theorem State.coalOn_coalView (s : State) : s.coalOn.coalView = s.coalStarted.coalView :=
  foldl_keeps State.coalView _ (fun u ch => foldl_keeps State.coalView (fun s l => s.lunOut ch l) (fun t l => t.lunOut_coalView ch l) _ u) _ _

/-- R251, R522: what EN set leaves, half by half. -/
theorem State.coalOn_leaves (s : State) : s.coalOn.coal.en = true ∧ s.coalOn.coal.gcEn = s.coal.gcEn ∧
    s.coalOn.coal.wlEn = s.coal.wlEn ∧ s.coalOn.coal.patrolEn = s.coal.patrolEn ∧
    (∀ d, (s.coalOn.coal.half.get d).mapped = ((s.coal.half.get d).started s.coal.media).mapped) ∧
    { s.coalOn with coal := s.coal } = s := by
  have hview := s.coalOn_coalView
  have hflags := congrArg (fun x => x.2.1) hview
  obtain ⟨hen, hgc, hwl, hpatrol⟩ : s.coalOn.coal.en = true ∧ s.coalOn.coal.gcEn = s.coal.gcEn ∧
      s.coalOn.coal.wlEn = s.coal.wlEn ∧ s.coalOn.coal.patrolEn = s.coal.patrolEn := by
    exact ⟨(congrArg (fun x => x.1) hflags :), (congrArg (fun x => x.2.1) hflags :), (congrArg (fun x => x.2.2.1) hflags :),
      (congrArg (fun x => x.2.2.2) hflags :)⟩
  refine ⟨hen, hgc, hwl, hpatrol, fun d => ?_, (congrArg (fun x => { x.1 with coal := s.coal }) hview :)⟩
  have hhalf : (s.coalOn.coal.half.map Half.mapped).get d = ((s.coal.half.map (Half.started s.coal.media)).map Half.mapped).get d :=
    congrArg (fun x => x.2.2.get d) hview
  rwa [Two.get_map, Two.get_map, Two.get_map] at hhalf

theorem Half.started_replayed {media : Bool} {h : Half} (hreplayed : h.replayed = true) : (h.started media).ready = media := by
  unfold Half.started
  rw [if_pos hreplayed]

theorem Half.started_fresh {media : Bool} {h : Half} (hreplayed : h.replayed = false) : (h.started media).replaying = true := by
  unfold Half.started
  rw [if_neg (by rw [hreplayed]; decide)]

/-! ### EN cleared (R200, R522) -/

/-- R522: how many records of the row at the front are being programmed. -/
def Coal.rowLength (c : Coal) (h : Half) : Nat :=
  match c.nextRow h false h.row with
  | some (_, _, row) => row.length
  | none => 0

theorem Coal.rowLength_eq (c : Coal) (h : Half) : c.rowLength h = ((c.nextRow h false h.row).map (·.2.2.length)).getD 0 := by
  unfold Coal.rowLength
  split
  next hrow => rw [hrow]; rfl
  next hrow => rw [hrow]; rfl

/-- R522: a half whose row is cut. -/
def Half.cut (h : Half) (n : Nat) : Half := { h with row := h.row.take n }

/-- R200, R522: a half whose demotions are refused, and which is READY while something still runs. -/
structure Quieted (s t : State) (d : Side) : Prop where
  coal : ∃ x, t.coal = { s.coal with half := s.coal.half.set d x } ∧ x.row = (s.coal.half.get d).row.take (s.coal.rowLength (s.coal.half.get d)) ∧
    x.map = (s.coal.half.get d).map ∧ x.ready = ((s.coal.half.get d).ready && t.mediaBusy d)
  reqs : t.drt.reqs = s.drt.reqs
  mem : t.mem = s.mem

/-- R241: FULL that clears. -/
theorem State.fullCheck_leaves (s : State) (d : Side) :
    ∃ b, s.fullCheck d = s.setHalf d { s.coal.half.get d with full := b } := by
  unfold State.fullCheck
  dsimp only
  split
  · exact ⟨false, rfl⟩
  · exact ⟨(s.coal.half.get d).full, by cases d <;> rfl⟩

/-- R522: READY of a half while EN is clear. -/
theorem State.settle_leaves (s : State) (d : Side) (hen : s.coal.en = false) : ∃ b, s.settle d =
    s.setHalf d { s.coal.half.get d with ready := b } ∧ b = ((s.coal.half.get d).ready && (s.settle d).mediaBusy d) := by
  have hbusy : ∀ b, (s.setHalf d { s.coal.half.get d with ready := b }).mediaBusy d = s.mediaBusy d := by
    intro b
    unfold State.mediaBusy
    rw [show (s.setHalf d { s.coal.half.get d with ready := b }).coal.half.get d = { s.coal.half.get d with ready := b } from
      Two.get_set_self ..]
    rfl
  by_cases hidle : (s.coal.half.get d).ready = true ∧ s.mediaBusy d = false
  · have hdo : s.settle d = s.setHalf d { s.coal.half.get d with ready := false } := by
      unfold State.settle
      exact if_pos (by rw [hidle.1, hidle.2, hen]; rfl)
    refine ⟨false, hdo, ?_⟩
    rw [hdo, hbusy, hidle.2, Bool.and_false]
  · have hdo : s.settle d = s := by
      unfold State.settle
      refine if_neg ?_
      rw [hen]
      simpa using hidle
    refine ⟨(s.coal.half.get d).ready, hdo.trans (by cases d <;> rfl), ?_⟩
    rw [hdo]
    cases hready : (s.coal.half.get d).ready
    · rfl
    · have hruns : s.mediaBusy d = true := by simpa [hready] using hidle
      rw [hruns]
      rfl

/-- R200: the demotions of the rows that are not being programmed are refused. -/
def State.refuseRows (s : State) (l : List RowEnt) : State :=
  l.foldl (fun (s : State) e => if !e.gone && (s.page e.key).res == .demoting then
    (s.updPage e.key (fun p => { p with res := .hot })).relist e.key else s) s

theorem State.refuseRows_leaves (s : State) (l : List RowEnt) : (s.refuseRows l).coal = s.coal ∧ (s.refuseRows l).mem = s.mem ∧
    (s.refuseRows l).drt.reqs = s.drt.reqs := by
  have h := foldl_keeps (fun t : State => (t.coal, t.mem, t.drt.reqs)) (fun (s : State) (e : RowEnt) =>
    if !e.gone && (s.page e.key).res == .demoting then (s.updPage e.key (fun p => { p with res := .hot })).relist e.key else s)
    (fun u e => by split <;> rfl) l s
  exact ⟨congrArg (·.1) h, congrArg (·.2.1) h, congrArg (·.2.2) h⟩

/-- R200, R522: one half when EN is cleared. -/
def State.quiet (s : State) (d : Side) : State :=
  let h := s.coal.half.get d
  let n := s.coal.rowLength h
  ((((s.refuseRows (h.row.drop n)).setHalf d (h.cut n)).fullCheck d).settle d)

theorem State.quiet_quieted (s : State) (d : Side) (hen : s.coal.en = false) : Quieted s (s.quiet d) d := by
  obtain ⟨hcoal, hmem, hreqs⟩ := s.refuseRows_leaves ((s.coal.half.get d).row.drop (s.coal.rowLength (s.coal.half.get d)))
  unfold State.quiet
  dsimp only
  generalize s.refuseRows _ = u at hcoal hmem hreqs ⊢
  let x := (s.coal.half.get d).cut (s.coal.rowLength (s.coal.half.get d))
  obtain ⟨full, hfull⟩ := State.fullCheck_leaves (u.setHalf d x) d
  rw [show (u.setHalf d x).coal.half.get d = x from Two.get_set_self ..] at hfull
  rw [hfull]
  obtain ⟨ready, hready, hbusy⟩ := State.settle_leaves ((u.setHalf d x).setHalf d { x with full := full }) d
    ((congrArg Coal.en hcoal).trans hen)
  rw [show ((u.setHalf d x).setHalf d { x with full := full }).coal.half.get d = { x with full := full } from
    Two.get_set_self ..] at hready hbusy
  refine ⟨⟨{ x with full := full, ready := ready }, ?_, rfl, rfl, hbusy⟩, ?_, ?_⟩
  · rw [hready]
    unfold State.setHalf
    dsimp only
    rw [hcoal]
    cases d <;> rfl
  · rw [hready]
    exact hreqs
  · rw [hready]
    exact hmem

theorem State.coalOff_quiets (s : State) :
    s.coalOff = (({ s with coal := { s.coal with en := false } } : State).quiet .west).quiet .east := rfl

theorem State.mediaBusy_congr {s t : State} {d : Side} (hhalf : t.coal.half.get d = s.coal.half.get d) (hreqs : t.drt.reqs = s.drt.reqs) :
    t.mediaBusy d = s.mediaBusy d := by
  unfold State.mediaBusy
  rw [hhalf, hreqs]

/-- R200, R522: what EN cleared leaves, half by half. -/
theorem State.coalOff_leaves (s : State) : s.coalOff.coal.en = false ∧ s.coalOff.coal.gcEn = s.coal.gcEn ∧
    (∀ d, (s.coalOff.coal.half.get d).row = (s.coal.half.get d).row.take (s.coal.rowLength (s.coal.half.get d)) ∧
      (s.coalOff.coal.half.get d).ready = ((s.coal.half.get d).ready && s.coalOff.mediaBusy d) ∧
      (s.coalOff.coal.half.get d).map = (s.coal.half.get d).map) ∧ s.coalOff.mem = s.mem := by
  rw [State.coalOff_quiets]
  obtain ⟨⟨x, hcoal, hrow, hmap, hready⟩, hreqs, hmem⟩ :=
    State.quiet_quieted { s with coal := { s.coal with en := false } } .west rfl
  generalize ({ s with coal := { s.coal with en := false } } : State).quiet .west = w at *
  obtain ⟨⟨y, hcoal', hrow', hmap', hready'⟩, hreqs', hmem'⟩ := State.quiet_quieted w .east (congrArg Coal.en hcoal :)
  generalize w.quiet .east = t at *
  have hwest : w.coal.half.get .west = x := (congrArg (fun c : Coal => c.half.get .west) hcoal :)
  have heast : w.coal.half.get .east = s.coal.half.get .east := (congrArg (fun c : Coal => c.half.get .east) hcoal :)
  have hwest' : t.coal.half.get .west = x := (congrArg (fun c : Coal => c.half.get .west) hcoal').trans hwest
  have heast' : t.coal.half.get .east = y := congrArg (fun c : Coal => c.half.get .east) hcoal'
  have hlength : w.coal.rowLength (s.coal.half.get .east) = s.coal.rowLength (s.coal.half.get .east) := by rw [hcoal]; rfl
  refine ⟨(congrArg Coal.en hcoal' :).trans (congrArg Coal.en hcoal :), (congrArg Coal.gcEn hcoal' :).trans (congrArg Coal.gcEn hcoal :),
    fun d => ?_, hmem'.trans hmem⟩
  cases d with
  | west =>
    rw [State.mediaBusy_congr (hwest'.trans hwest.symm) hreqs', hwest']
    exact ⟨hrow, hready, hmap⟩
  | east =>
    rw [heast, hlength] at hrow'
    rw [heast] at hmap' hready'
    rw [heast']
    exact ⟨hrow', hready', hmap'⟩

/-! ### COAL_CTL (R268) -/

section
variable {s : State} {ld : Ld} {v : BitVec 64} (hreg : s.regWritable ld = true)
include hreg

theorem State.coalCtl_starts (hen : v.getLsbD 0 = true) (hformat : v.getLsbD 4 = false) (hoff : s.coal.en = false)
    (hidle : s.coal.formatting = false) (hwest : (s.coal.missing .west).length ≤ 1) (heast : (s.coal.missing .east).length ≤ 1) :
    s.coalCtl ld v = (s.coalFlags v).coalOn := by
  have hfits : ¬(s.coal.formatting || decide (1 < (s.coal.missing .west).length) || decide (1 < (s.coal.missing .east).length)) = true := by
    simp [hidle, Nat.not_lt.mpr hwest, Nat.not_lt.mpr heast]
  unfold State.coalCtl
  dsimp only
  rw [if_neg (by rw [hreg]; decide), if_neg (by rw [hformat]; decide), if_pos (by rw [hen, hoff]; rfl), if_neg hfits]
  rfl

theorem State.coalCtl_stays (hen : v.getLsbD 0 = true) (hformat : v.getLsbD 4 = false) (hoff : s.coal.en = false)
    (hbusy : s.coal.formatting = true ∨ 1 < (s.coal.missing .west).length ∨ 1 < (s.coal.missing .east).length) :
    s.coalCtl ld v = s := by
  have hrefused : (s.coal.formatting || decide (1 < (s.coal.missing .west).length) || decide (1 < (s.coal.missing .east).length)) = true := by
    simpa [or_assoc] using hbusy
  unfold State.coalCtl
  dsimp only
  rw [if_neg (by rw [hreg]; decide), if_neg (by rw [hformat]; decide), if_pos (by rw [hen, hoff]; rfl), if_pos hrefused]

theorem State.coalCtl_stops (hen : v.getLsbD 0 = false) (hformat : v.getLsbD 4 = false) (hon : s.coal.en = true) :
    s.coalCtl ld v = (s.coalFlags v).coalOff := by
  unfold State.coalCtl
  dsimp only
  rw [if_neg (by rw [hreg]; decide), if_neg (by rw [hformat]; decide), if_neg (by rw [hen, Bool.false_and]; decide),
    if_pos (by rw [hen, hon]; rfl)]
  rfl

theorem State.coalCtl_formats (hen : v.getLsbD 0 = false) (hformat : v.getLsbD 4 = true) (hoff : s.coal.en = false)
    (hidle : s.coal.formatting = false) : s.coalCtl ld v = (s.coalFlags v).startFormat := by
  unfold State.coalCtl
  dsimp only
  rw [if_neg (by rw [hreg]; decide), if_pos hformat, if_pos (by rw [hen, hoff, hidle]; rfl)]
  rfl

theorem State.coalCtl_unformatted (hformat : v.getLsbD 4 = true)
    (hbusy : s.coal.en = true ∨ s.coal.formatting = true ∨ v.getLsbD 0 = true) : s.coalCtl ld v = s := by
  have hrefused : ¬(!v.getLsbD 0 && !s.coal.en && !s.coal.formatting) = true := by
    obtain h | h | h := hbusy <;> rw [h] <;> simp
  unfold State.coalCtl
  dsimp only
  rw [if_neg (by rw [hreg]; decide), if_pos hformat, if_neg hrefused]

/-- R234, R436: COAL_CH_EN. -/
theorem State.chEnWrite_takes : ∃ t, s.chEnWrite ld v = t ∧
    t.coal.chEn = (v.setWidth 32 ||| (if s.coal.en || s.coal.formatting then s.coal.chEn else 0)) ∧
    (∀ i, i < 32 → t.coal.chEn.getLsbD i = true → s.coal.chEn.getLsbD i = false → t.coal.powering.getLsbD i = true) ∧
    { t with coal := s.coal } = s := by
  refine ⟨_, if_neg (by rw [hreg]; decide), rfl, fun i hi hset hclear => ?_, rfl⟩
  dsimp only at hset ⊢
  rw [BitVec.getLsbD_or, BitVec.getLsbD_and, BitVec.getLsbD_and, hset, BitVec.getLsbD_not, hclear]
  simp [hi]

end

/-! ### Identification of a channel (R234, R523) -/

section
variable {s : State} {ch : Nat} {found : NandId}

/-- R234: the bit of a channel. -/
theorem channelBit {k i : Nat} (hi : i < 32) : (BitVec.ofNat 32 (2 ^ k)).getLsbD i = decide (k = i) := by
  rw [BitVec.getLsbD_ofNat, Nat.testBit_two_pow, decide_eq_true hi, Bool.true_and]

theorem channel_kept (v : BitVec 32) {k i : Nat} (hne : k ≠ i) (hi : i < 32) :
    (v &&& ~~~ BitVec.ofNat 32 (2 ^ k)).getLsbD i = v.getLsbD i := by
  rw [BitVec.getLsbD_and, BitVec.getLsbD_not, channelBit hi, decide_eq_true hi, decide_eq_false hne]
  simp

theorem channel_cleared (v : BitVec 32) {k : Nat} (hk : k < 32) : (v &&& ~~~ BitVec.ofNat 32 (2 ^ k)).getLsbD k = false := by
  rw [BitVec.getLsbD_and, BitVec.getLsbD_not, channelBit hk, decide_eq_true hk, decide_eq_true rfl]
  simp

theorem channel_set (v : BitVec 32) {k : Nat} (hk : k < 32) : (v ||| BitVec.ofNat 32 (2 ^ k)).getLsbD k = true := by
  rw [BitVec.getLsbD_or, channelBit hk, decide_eq_true rfl, Bool.or_true]

/-- R234: channels other than channel 0 that are faulted leave channel 0 in service, and the parameter page that is known. -/
theorem Coal.compare_leaves (c : Coal) (n : NandId) : (c.compare n).inService.getLsbD 0 = c.inService.getLsbD 0 ∧
    (c.compare n).powering = c.powering ∧ (c.compare n).nand = c.nand := by
  unfold Coal.compare
  have hne : ∀ k, k ∈ (c.ids.filter (fun p => p.1 != 0 && nandPage p.2 != nandPage n && c.inService.getLsbD p.1)).map (·.1) → k ≠ 0 := by
    intro k hk
    obtain ⟨p, hp, rfl⟩ := List.mem_map.mp hk
    have hfilter := (List.mem_filter.mp hp).2
    simp only [Bool.and_eq_true, bne_iff_ne] at hfilter
    exact hfilter.1.1
  generalize (c.ids.filter (fun p => p.1 != 0 && nandPage p.2 != nandPage n && c.inService.getLsbD p.1)).map (·.1) = l at hne ⊢
  induction l generalizing c with
  | nil => exact ⟨rfl, rfl, rfl⟩
  | cons k ks ih =>
    obtain ⟨hservice, hpowering, hnand⟩ := ih (c.faultCh k) fun j hj => hne j (List.mem_cons_of_mem _ hj)
    refine ⟨hservice.trans ?_, hpowering, hnand⟩
    exact channel_kept _ (hne k List.mem_cons_self) (by decide)

/-- R234: the Coal store with a channel in service. -/
def State.entered (s : State) (ch : Nat) (found : NandId) : Coal :=
  let bit : BitVec 32 := BitVec.ofNat 32 (2 ^ ch)
  { s.coal with
    powering := s.coal.powering &&& ~~~ bit, ids := s.coal.ids.put ch found
    inService := s.coal.inService ||| bit, badBlocks := s.coal.badBlocks.put ch found.bad
    half := s.coal.half.upd (sideOf (ch / 16)) (fun h => h.setBad (ch % 16) found) }

section
variable (hch : ch < 32) (hpower : s.coal.powering.getLsbD ch = true) (hrisen : s.coal.rises.lookD ch 0 ≤ s.now.toNat)
include hch hpower hrisen

theorem State.identify_good (hok : nandOk found = true) (hnone : s.coal.nand = none) : ∃ t, s.identify ch found = t ∧
    t.coal.inService.getLsbD ch = true ∧ t.coal.powering.getLsbD ch = false ∧ (ch = 0 → t.coal.nand = some found) ∧
    { t with coal := s.coal } = s := by
  have hready : ¬(decide (32 ≤ ch) || !s.coal.powering.getLsbD ch || decide (s.now.toNat < s.coal.rises.lookD ch 0)) = true := by
    rw [hpower]
    simp [Nat.not_le.mpr hch, Nat.not_lt.mpr hrisen]
  have hgood : ∀ c, (if ch = 0 then (({ s.entered ch found with nand := some found } : Coal).fillRated found).compare found
      else s.entered ch found) = c → s.identify ch found = { s with coal := c } := fun c hc =>
    (if_neg hready).trans ((if_pos (by rw [hok, hnone]; rfl)).trans (congrArg (fun c => { s with coal := c }) hc))
  by_cases hzero : ch = 0
  · let c : Coal := { s.entered ch found with nand := some found }
    have hfilled : (c.fillRated found).inService = c.inService ∧ (c.fillRated found).powering = c.powering ∧
        (c.fillRated found).nand = some found := by
      unfold Coal.fillRated
      split <;> exact ⟨rfl, rfl, rfl⟩
    obtain ⟨hrated, hrisen', hknown⟩ := hfilled
    obtain ⟨hservice, hpowering, hnand⟩ := Coal.compare_leaves (c.fillRated found) found
    refine ⟨_, hgood _ (if_pos hzero), ?_, ?_, fun _ => hnand.trans hknown, rfl⟩
    · rw [← hzero] at hservice
      exact hservice.trans ((congrArg (BitVec.getLsbD · ch) hrated).trans (channel_set _ hch))
    · exact (congrArg (BitVec.getLsbD · ch) (hpowering.trans hrisen')).trans (channel_cleared _ hch)
  · exact ⟨_, hgood _ (if_neg hzero), channel_set _ hch, channel_cleared _ hch, fun h => absurd h hzero, rfl⟩

theorem State.identify_bad (hbad : nandOk found = false) : ∃ t, s.identify ch found = t ∧
    t.coal.chFault.getLsbD ch = true ∧ t.coal.powering.getLsbD ch = false ∧ t.coal.inService.getLsbD ch = false ∧
    { t with coal := s.coal } = s := by
  refine ⟨_, (if_neg ?_).trans (if_neg ?_), ?_, ?_, ?_, rfl⟩
  · rw [hpower]
    simp [Nat.not_le.mpr hch, Nat.not_lt.mpr hrisen]
  · rw [hbad, Bool.false_and]
    decide
  · exact channel_set _ hch
  · exact channel_cleared _ hch
  · exact channel_cleared _ hch

end
end

/-! ### Replay and format (R251, R521) -/

/-- R251: a half whose map is back. -/
def State.replayedHalf (s : State) (d : Side) : Half :=
  { s.coal.half.get d with
    replaying := false, replayed := true, map := (s.coal.half.get d).replayMap, ready := s.coal.en && s.coal.media
    degraded := (s.coal.half.get d).sbs.vals.any (fun b => b.relocate), ckptAt := s.now.toNat }

/-- R251: the end of a replay. -/
theorem State.replayDone_leaves {s : State} {d : Side} (hreplay : (s.coal.half.get d).replaying = true)
    (hidle : s.coal.formatting = false) (hlive : s.live = true) (hwarn : s.pkg.powerWarn = false) :
    ∃ t, s.replayDone d = t ∧ (t.coal.half.get d).replayed = true ∧ (t.coal.half.get d).replaying = false ∧
      (t.coal.half.get d).map = (s.coal.half.get d).replayMap ∧ (t.coal.half.get d).ready = (s.coal.en && s.coal.media) ∧
      t.coal.formatted = s.coal.media ∧ { t with coal := s.coal, tel := s.tel } = s := by
  have hcount : ∀ (u : State) o n, ∃ x, u.count o n = { u with tel := x } := by
    intro u o n
    unfold State.count
    split
    · exact ⟨_, rfl⟩
    · exact ⟨u.tel, rfl⟩
  have hnew : ∀ (u : State) (h : Half), ∃ x, u.newHalf d h = { u.setHalf d { h with leafMiss := 0 } with tel := x } := by
    intro u h
    unfold State.newHalf
    dsimp only
    split
    · exact ⟨u.tel, rfl⟩
    · exact hcount ..
  obtain ⟨x, hx⟩ := hnew s (s.replayedHalf d).afterReplay
  obtain ⟨y, hy⟩ := hcount (s.newHalf d (s.replayedHalf d).afterReplay) 0x03300118 (s.replayedHalf d).erasing.length
  have hu : (s.newHalf d (s.replayedHalf d).afterReplay).count 0x03300118 (s.replayedHalf d).erasing.length =
      { s.setHalf d { (s.replayedHalf d).afterReplay with leafMiss := 0 } with tel := y } := hy.trans (by rw [hx])
  have hdo : s.replayDone d = { s.setHalf d { (s.replayedHalf d).afterReplay with leafMiss := 0 } with
      tel := y, coal := { (s.setHalf d { (s.replayedHalf d).afterReplay with leafMiss := 0 }).coal with
        formatted := s.coal.media, readOnly := s.coal.mediaReadOnly } } := by
    refine (if_neg (by rw [hreplay, hidle, hlive, hwarn]; decide)).trans ?_
    exact (congrArg (fun u : State => { u with coal := { u.coal with formatted := u.coal.media, readOnly := u.coal.mediaReadOnly } })
      hu :)
  have hmapped : (s.replayedHalf d).afterReplay.mapped = (s.replayedHalf d).mapped := (s.replayedHalf d).afterReplay_mapped
  refine ⟨_, hdo, ?_⟩
  dsimp only [State.setHalf]
  rw [Two.get_set_self]
  exact ⟨(congrArg (fun x => x.2.2.1) hmapped :), (congrArg (fun x => x.2.1) hmapped :), (congrArg (fun x => x.2.2.2.1) hmapped :),
    (congrArg (fun x => x.1) hmapped :), rfl, rfl⟩

/-- R521: the end of a format. -/
theorem State.erased_leaves (s : State) (ok : Bool) : (s.erased ok).coal.formatting = false ∧ (s.erased ok).coal.formatted = ok ∧
    (ok = false → (s.erased ok).coal.formatErr = true) ∧
    (∀ d, ((s.erased ok).coal.half.get d).map = [] ∧ ((s.erased ok).coal.half.get d).worn = s.failsAt d) ∧
    (s.erased ok).coal.rootCheck = none ∧ (s.erased ok).dom.catalogue = [] ∧ (s.erased ok).gbl.bootSeq = 0 ∧ (s.erased ok).mem = s.mem := by
  refine ⟨rfl, rfl, fun hok => ?_, fun d => ?_, rfl, rfl, rfl, rfl⟩
  · rw [hok]
    exact Bool.or_true _
  · have hhalf : ∀ (h : Half) n, h.map = [] → (h.checkpoint n).map = [] ∧ (h.checkpoint n).worn = h.worn := fun h n hmap =>
      ⟨(congrArg (fun x => x.2.2.2.1) (h.checkpoint_mapped n)).trans hmap, congrArg (fun x => x.2.2.2.2) (h.checkpoint_mapped n)⟩
    cases d
    · exact hhalf _ _ rfl
    · exact hhalf _ _ rfl

/-- Settles O56: COAL_CTL and COAL_CH_EN, identification, the ends of replay and format. -/
theorem coalControl : Obligations.CoalControl := by
  unfold Obligations.CoalControl
  intro s
  refine ⟨fun ld v hreg => ⟨fun hen hformat hoff hidle hwest heast => ?_, fun hen hformat hoff hbusy => ?_,
    fun hen hformat hon => ?_, fun hformat hen hoff hidle => ?_, fun hformat hbusy => ?_, ?_⟩,
    fun ch found hch hpower hrisen => ⟨fun hok hnone => ?_, fun hbad => ?_⟩, fun d hreplay hidle hlive hwarn => ?_,
    fun good hformat hlive hwarn => ?_⟩
  · obtain ⟨hon, hgc, hwl, hpatrol, hhalf, hrest⟩ := (s.coalFlags v).coalOn_leaves
    refine ⟨_, congrArg Host.Outcome.next ((if_pos hen).trans (State.coalCtl_starts hreg hen hformat hoff hidle hwest heast)),
      hon, hgc, hwl, hpatrol, fun d => ⟨fun hreplayed => ?_, fun hreplayed => ?_⟩, (congrArg (fun t : State => { t with coal := s.coal }) hrest :)⟩
    · exact (congrArg (fun x => x.1) (hhalf d)).trans (Half.started_replayed hreplayed)
    · exact (congrArg (fun x => x.2.1) (hhalf d)).trans (Half.started_fresh hreplayed)
  · exact congrArg Host.Outcome.next ((if_pos hen).trans (State.coalCtl_stays hreg hen hformat hoff hbusy))
  · obtain ⟨hoff, hgc, hhalf, hmem⟩ := (s.coalFlags v).coalOff_leaves
    refine ⟨_, congrArg Host.Outcome.next ((if_neg (by rw [hen, hformat]; decide)).trans (State.coalCtl_stops hreg hen hformat hon)),
      hoff, hgc, fun d => ?_, hmem⟩
    rw [← Coal.rowLength_eq]
    exact hhalf d
  · refine ⟨_, congrArg Host.Outcome.next ((if_pos hformat).trans (State.coalCtl_formats hreg hen hformat hoff hidle)), rfl, rfl,
      fun d => ?_, rfl⟩
    cases d <;> rfl
  · exact congrArg Host.Outcome.next ((if_pos hformat).trans (State.coalCtl_unformatted hreg hformat hbusy))
  · obtain ⟨t, hdo, ht⟩ := State.chEnWrite_takes hreg (v := v)
    exact ⟨t, congrArg Host.Outcome.next hdo, ht⟩
  · obtain ⟨t, hdo, ht⟩ := State.identify_good hch hpower hrisen hok hnone
    exact ⟨t, congrArg Host.Outcome.next hdo, ht⟩
  · obtain ⟨t, hdo, ht⟩ := State.identify_bad hch hpower hrisen hbad
    exact ⟨t, congrArg Host.Outcome.next hdo, ht⟩
  · obtain ⟨t, hdo, ht⟩ := State.replayDone_leaves hreplay hidle hlive hwarn
    exact ⟨t, congrArg Host.Outcome.next hdo, ht⟩
  · obtain ⟨hidle, hdone, herr, hhalf, hroot, hcat, hboot, hmem⟩ := s.erased_leaves (good.all fun n => 4 ≤ n)
    exact ⟨_, congrArg Host.Outcome.next (if_pos (by rw [hformat, hlive, hwarn]; rfl)), hidle, hdone, herr, hhalf, hroot, hcat, hboot, hmem⟩

end Machine
end Sys2Proof
end

section
/-! PROOFS. Weight objects (R222, R393, R395, R396). -/

namespace Sys2Proof
namespace Machine

/-! ### Frames taken and rows loaded (R200, R207, R222) -/

namespace PagesOnly
variable {s0 s t : State}

theorem makeRoom {n d pref kib excl busy f} (hs : PagesOnly s0 s) (heq : s.makeRoom n d pref kib excl busy = .got f t) :
    PagesOnly s0 t := by
  induction n generalizing s with
  | zero => cases heq
  | succ n ih =>
    rw [State.makeRoom] at heq
    split at heq
    next htake =>
      cases heq
      exact hs.takeFrame htake
    next =>
      split at heq
      next hvictim =>
        split at heq
        · cases heq
        · exact ih (hs.victim hvictim).evict heq
      next =>
        split at heq
        · cases heq
        · split at heq
          next hvictim =>
            split at heq
            · cases heq
            · exact ih (hs.victim hvictim).dropPage.count heq
          · cases heq

theorem allocFrame {d pref kib excl busy f} (hs : PagesOnly s0 s) (heq : s.allocFrame d pref kib excl busy = .got f t) :
    PagesOnly s0 t := by
  unfold State.allocFrame at heq
  split at heq
  next htake =>
    cases heq
    exact hs.takeFrame htake
  next =>
    refine makeRoom ?_ heq
    cases hcompact : s.compact d kib with
    | none => exact hs
    | some u => exact hs.compact hcompact

theorem loadFrames {d hs'} (hs : PagesOnly s0 s) (heq : State.loadFrames d hs' s = .ready t) : PagesOnly s0 t := by
  induction hs' generalizing s with
  | nil =>
    cases heq
    exact hs
  | cons h r ih =>
    rw [State.loadFrames] at heq
    split at heq
    · exact ih hs heq
    · split at heq
      · cases heq
      · cases heq
      next hgot => exact ih (hs.allocFrame hgot).updPage heq

section
variable (hs : PagesOnly s0 s)
include hs

theorem setRes {hs' from_ to_ b} : PagesOnly s0 (s.setRes hs' from_ to_ b) := .foldl hs fun _ _ hk => hk.updPage.relist

theorem supersede {d h} : PagesOnly s0 (s.supersede d h) := hs.setHalf

end

theorem loadChunks {d c n hs'} (hs : PagesOnly s0 s) (heq : State.loadChunks d c n hs' s = .ready t) : PagesOnly s0 t := by
  induction n generalizing s hs' with
  | zero =>
    cases hs' with
    | nil =>
      cases heq
      exact hs
    | cons h r => cases heq
  | succ n ih =>
    cases hs' with
    | nil =>
      cases heq
      exact hs
    | cons h r =>
      rw [State.loadChunks] at heq
      · dsimp only at heq
        split at heq
        next hframes =>
          have hloaded := hs.loadFrames hframes
          split at heq
          · exact ih (.foldl hloaded fun _ _ hk => hk.relist) heq
          · split at heq
            · cases heq
            next hstore =>
              have hstored := PagesOnly.coalStore (PagesOnly.setRes (.foldl hloaded fun _ _ hk => hk.supersede)) hstore
              exact ih (count (count (.but (.setRes (.setRes hstored.setHalf))))) heq
        · cases heq
        · cases heq
      · exact List.cons_ne_nil h r

end PagesOnly

/-! ### Pokes above context space -/

theorem cellAt_putCell_ne {a x : Nat} (b : Byte) (hx : x ≠ a) : ∀ l : List Host.Cell, cellAt (putCell l a b) x = cellAt l x
  | [] => by
    unfold putCell
    split
    · rfl
    · exact if_neg (Ne.symm hx)
  | (k, v) :: r => by
    rw [putCell]
    split
    · split
      · rfl
      · exact if_neg (Ne.symm hx)
    · split
      next heq =>
        subst heq
        rw [cellAt, if_neg (Ne.symm hx)]
        split
        · rfl
        · exact if_neg (Ne.symm hx)
      · rw [cellAt, cellAt, cellAt_putCell_ne b hx r]

theorem cellAt_putBytes_below {x : Nat} : ∀ (bs : List Byte) (a : Nat) (l : List Host.Cell), x < a → cellAt (putBytes l a bs) x = cellAt l x
  | [], _, _, _ => rfl
  | b :: r, a, l, hx => by
    rw [putBytes, cellAt_putBytes_below r (a + 1) _ (Nat.lt_succ_of_lt hx), cellAt_putCell_ne b (Nat.ne_of_lt hx)]

/-- R189: bytes written above context space leave it, in any memory. -/
theorem State.poke_sameContextSpace (s : State) {a : Nat} (ha : ctxSpaceEnd ≤ a) (bs : List Byte) : SameContextSpace s (s.poke a bs) :=
  fun _ hx => cellAt_putBytes_below bs a s.mem.cells (Nat.lt_of_lt_of_le hx ha)

theorem SameContextSpace.trans {s t u : State} (h : SameContextSpace s t) (h' : SameContextSpace t u) : SameContextSpace s u :=
  fun x hx => (h' x hx).trans (h x hx)

/-! ### Create (R222) -/

theorem State.putChunks_mem (k l c slot : Nat) (d : Side) : ∀ (n a i : Nat) (s : State), (s.putChunks k l c slot d n a i).mem = s.mem
  | 0, _, _, _ => rfl
  | n + 1, a, i, s => by
    rw [State.putChunks]
    exact State.putChunks_mem k l c slot d n ..

theorem State.putLayers_mem (k c slot : Nat) (d : Side) : ∀ (l : List (Nat × Nat × Nat)) (i : Nat) (s : State),
    (s.putLayers k c slot d l i).mem = s.mem
  | [], _, _ => rfl
  | (l, a, n) :: r, i, s => by
    rw [State.putLayers]
    exact (State.putLayers_mem k c slot d r ..).trans (State.putChunks_mem ..)

section
variable {s : State} {c home pid slot : Nat} {model check : BitVec 128} {lens : List Nat}

theorem createObj_creates (hhome : home ≤ 2) (hlens : lens ≠ []) (hcount : lens.length ≤ 1024)
    (hsizes : ∀ n, n ∈ lens → 1 ≤ n ∧ n ≤ 4294967296) (hright : (s.ctx c).rights.getLsbD 4 = true)
    (hslot : s.profileSlot pid = some slot) (hfree : s.freeObj (s.objHome home) < 2048)
    (hhandles : s.handlesOn (s.objHome home) + (lens.map chunksOf).foldl (· + ·) 0 ≤ 402653184)
    (hspans : ((s.coal.half.get (s.objHome home)).spans.keys.foldl Nat.max 0 + 1) * 2048 + 64 * (lens.map chunksOf).foldl (· + ·) 0 + 2048
      < 2 ^ 37) :
    ∃ t k, s.createObj c home pid model check lens = t ∧ t.resp.status = St.ok ∧
      t.resp.out = leBytes 8 (objHandle k (s.nextGen k)) ∧ objDie k = s.objHome home ∧ (t.wobj k).live = true ∧ (t.wobj k).ctx = c ∧
      (t.wobj k).pslot = slot ∧ (t.wobj k).lengths = lens ∧ (t.wobj k).keyCheck = check ∧ (t.wobj k).modelId = model ∧
      (t.wobj k).keyed = false ∧ (t.wobj k).loaded = [] ∧ SameMemory s t := by
  have hform : ¬(decide (2 < home) || lens.isEmpty || decide (1024 < lens.length) ||
      lens.any (fun n => decide (n = 0) || decide (4294967296 < n))) = true := by
    simp only [Bool.or_eq_true, decide_eq_true_eq, List.isEmpty_iff, List.any_eq_true, not_or, not_exists, not_and]
    refine ⟨⟨⟨by omega, hlens⟩, by omega⟩, fun n hn => ?_⟩
    have := hsizes n hn
    omega
  have hroom : ¬(decide (2048 ≤ s.freeObj (s.objHome home)) ||
      decide (402653184 < s.handlesOn (s.objHome home) + (lens.map chunksOf).foldl (· + ·) 0) ||
      decide (2 ^ 37 ≤ ((s.coal.half.get (s.objHome home)).spans.keys.foldl Nat.max 0 + 1) * 2048 +
        64 * (lens.map chunksOf).foldl (· + ·) 0 + 2048)) = true := by
    simp only [Bool.or_eq_true, decide_eq_true_eq, not_or]
    omega
  let k := (s.objHome home).num * 2048 + s.freeObj (s.objHome home)
  have hdie : objDie k = s.objHome home := by
    have hdiv : k / 2048 = (s.objHome home).num := by omega
    unfold objDie
    rw [hdiv]
    cases s.objHome home <;> rfl
  have hdo : ∃ u : State, u.mem = s.mem ∧ s.createObj c home pid model check lens = (u.setWobj k {
      live := true, gen := s.nextGen k, ctx := c, pslot := slot, lengths := lens
      firsts := runsFrom (((s.coal.half.get (s.objHome home)).spans.keys.foldl Nat.max 0 + 1) * 2048) lens, keyCheck := check
      modelId := model }).say St.ok 0 (leBytes 8 (objHandle k (s.nextGen k))) := by
    unfold State.createObj
    rw [if_neg hform, if_neg (by rw [hright]; decide), hslot]
    dsimp only
    rw [if_neg hroom]
    refine ⟨_, ?_, rfl⟩
    exact State.putLayers_mem ..
  obtain ⟨u, hmem, hdo⟩ := hdo
  refine ⟨_, k, hdo, rfl, rfl, hdie, ?_⟩
  generalize runsFrom _ lens = firsts
  have hwobj : ((u.setWobj k {
      live := true, gen := s.nextGen k, ctx := c, pslot := slot, lengths := lens, firsts := firsts, keyCheck := check
      modelId := model }).say St.ok 0 (leBytes 8 (objHandle k (s.nextGen k)))).wobj k = {
      live := true, gen := s.nextGen k, ctx := c, pslot := slot, lengths := lens, firsts := firsts, keyCheck := check
      modelId := model } := State.wobj_setWobj_self ..
  rw [hwobj]
  exact ⟨rfl, rfl, rfl, rfl, rfl, rfl, rfl, rfl, fun x => congrArg (Mem.byte · x) hmem⟩

end

/-! ### A named object (R393, R395, R396) -/

section
variable {s t : State} {handle : BitVec 64} {k : Nat}

theorem State.withObj_takes (hlcs : s.sec.lcs = .deployed)
    (hobj : s.checkObj (s.wobj (bits handle.toNat 21 1 * 2048 + bits handle.toNat 0 11)).ctx handle 0 = .ok k)
    (hctx : (s.ctx (s.wobj k).ctx).state ≠ .retiring) (go : Nat → State → State) : s.withObj handle go = go k s := by
  unfold State.withObj
  rw [if_neg (by rw [hlcs]; decide), hobj]
  exact if_neg (by simpa using hctx)

/-- R222, R393: a layer that is loaded. -/
theorem State.storeLayer_leaves {l src : Nat} (hstore : s.storeLayer k l src = .ready t) :
    (s.drt.demoteEn = true → l ∈ (t.wobj k).loaded) ∧ SameContextSpace s t := by
  unfold State.storeLayer at hstore
  dsimp only at hstore
  split at hstore
  next u hchunks =>
    have hpages := (PagesOnly.refl s).loadChunks hchunks
    cases hstore
    refine ⟨fun hen => ?_, hpages.sameContextSpace⟩
    have hdemote : u.drt.demoteEn = true := (congrArg Drt.demoteEn hpages.drt :).trans hen
    rw [State.wobj_setWobj_self]
    rw [if_pos hdemote]
    exact mem_insNat.mpr (.inl rfl)
  next hnot => exact absurd hstore (hnot t)

theorem State.loadLayer_loads {ld : Ld} {l src : Nat} (hlayer : l < (s.wobj k).lengths.length) (hready : (s.wobj k).ready = false)
    (hrange : s.rngUp (s.wobj k).ctx src (unitBytes * chunksOf ((s.wobj k).lengths.getD l 0)) 0 = none)
    (hread : s.mem.readErr src (unitBytes * chunksOf ((s.wobj k).lengths.getD l 0)) = none) (hen : s.coal.en = true)
    (hhalf : (s.coal.half.get (objDie k)).ready = true) (hro : s.coal.readOnly = false)
    (hfits : s.coalFits (objDie k) (64 * chunksOf ((s.wobj k).lengths.getD l 0)) = true)
    (hheld : s.heldLines src (unitBytes * chunksOf ((s.wobj k).lengths.getD l 0)) false = [])
    (hdemote : s.drt.demoteEn = true → s.demotionsRun (objDie k) = true) (hstore : s.storeLayer k l src = .ready t) :
    s.loadLayer ld k l src = t.say St.ok := by
  have hrun : ¬(s.drt.demoteEn && !s.demotionsRun (objDie k)) = true := by
    cases h : s.drt.demoteEn
    · simp
    · simp [hdemote h]
  unfold State.loadLayer
  dsimp only
  rw [if_neg (Nat.not_le.mpr hlayer), if_neg (by rw [hready]; decide), hrange, hread]
  show s.putLayer { ld := ld, obj := k, layer := l, src := src } = _
  unfold State.putLayer
  dsimp only
  rw [if_neg (by rw [hen, hhalf]; decide), if_neg (by rw [hro]; decide), if_neg (by rw [hfits]; decide), hheld]
  rw [if_neg (by decide), if_neg hrun, hstore]

theorem State.openChunk_leaves (s : State) (h : Nat) : (s.openChunk h).wobjs = s.wobjs ∧ SameContextSpace s (s.openChunk h) := by
  unfold State.openChunk
  split
  · split
    · exact ⟨rfl, fun _ _ => rfl⟩
    · exact ⟨rfl, s.poke_sameContextSpace (le_viewBase h) _⟩
  · exact ⟨rfl, fun _ _ => rfl⟩

theorem State.openChunks_leaves (s : State) (k : Nat) : (s.openChunks k).wobjs = s.wobjs ∧ SameContextSpace s (s.openChunks k) := by
  unfold State.openChunks
  dsimp only
  generalize List.filter _ _ = l
  induction l generalizing s with
  | nil => exact ⟨rfl, fun _ _ => rfl⟩
  | cons h r ih =>
    obtain ⟨hwobjs, hmem⟩ := s.openChunk_leaves h
    obtain ⟨hwobjs', hmem'⟩ := ih (s.openChunk h)
    exact ⟨hwobjs'.trans hwobjs, hmem.trans hmem'⟩

/-- R395: a key that passes its check. -/
theorem State.releaseModel_keys {key : BitVec 256} (hready : (s.wobj k).ready = true) (hdebug : s.sec.debugOpened = false)
    (hcheck : (s.wobj k).keyCheck = modelCheck key (s.wobj k).modelId) :
    ∃ t, s.releaseModel k key = t ∧ t.resp.status = St.ok ∧ (t.wobj k).keyed = true ∧ SameContextSpace s t := by
  obtain ⟨hwobjs, hmem⟩ := (s.setWobj k { s.wobj k with keyed := true, key := some key }).openChunks_leaves k
  refine ⟨_, if_neg ?_, rfl, ?_, hmem⟩
  · rw [hready, hdebug]
    simpa using hcheck
  · exact (congrArg (fun w : Tbl WObj => (w.lookD k {}).keyed) hwobjs).trans (congrArg WObj.keyed (State.wobj_setWobj_self ..))

theorem State.releaseModel_refused {key : BitVec 256}
    (hbad : s.sec.debugOpened = true ∨ (s.wobj k).keyCheck ≠ modelCheck key (s.wobj k).modelId) : s.releaseModel k key = s.refuse := by
  refine if_pos ?_
  obtain h | h := hbad
  · simp [h]
  · simp [h]

end

/-- Settles O46: weight objects created, loaded, deleted, and keyed. -/
theorem weightObjects : Obligations.WeightObjects := by
  unfold Obligations.WeightObjects
  refine ⟨fun ld c home pid slot model check lens s htakes hhome hlens hcount hsizes hright hslot hfree hhandles hspans => ?_,
    fun ld handle k l src s t htakes hlcs hobj hctx => ⟨?_, ?_⟩, fun hd handle key k s htakes hlcs hobj hctx => ⟨?_, ?_⟩⟩
  · obtain ⟨t, k, hdo, ht⟩ := createObj_creates (model := model) (check := check) hhome hlens hcount hsizes hright hslot hfree hhandles hspans
    exact ⟨t, k, congrArg Host.Outcome.next ((State.vendorCtx_takes htakes _).trans hdo), ht⟩
  · intro hlayer hready hrange hread hen hhalf hro hfits hheld hdemote hstore
    obtain ⟨hloaded, hmem⟩ := State.storeLayer_leaves hstore
    exact ⟨congrArg Host.Outcome.next ((State.vendor_takes htakes ..).trans ((State.withObj_takes hlcs hobj hctx _).trans
      (State.loadLayer_loads hlayer hready hrange hread hen hhalf hro hfits hheld hdemote hstore))), hloaded, hmem⟩
  · have hdeleted : (s.deleteObj k).wobj k = { gen := (s.wobj k).gen } := State.wobj_setWobj_self ..
    rw [hdeleted]
    exact ⟨congrArg Host.Outcome.next ((State.vendor_takes htakes ..).trans (State.withObj_takes hlcs hobj hctx _)), rfl, rfl⟩
  · intro hready hdebug hcheck
    obtain ⟨t, hdo, ht⟩ := State.releaseModel_keys hready hdebug hcheck
    exact ⟨t, congrArg Host.Outcome.next ((State.secure_takes htakes _).trans ((State.withObj_takes hlcs hobj hctx _).trans hdo)), ht⟩
  · exact fun hbad => congrArg Host.Outcome.next ((State.secure_takes htakes _).trans ((State.withObj_takes hlcs hobj hctx _).trans
      (State.releaseModel_refused hbad)))

end Machine
end Sys2Proof
end

section
/-! PROOFS. Host loads and stores of context space and of the object view (R192, R193, R272, R275, R276, R282). -/

namespace Sys2Proof
namespace Machine

section
variable {s : State} {ld : Ld} {a n : Nat} {bi : Bool}

/-! ### Requests that fail -/

/-- R192, R275: a request that fails counts, and is recorded. -/
theorem State.failReq_mem (s : State) (ld : Ld) (kind a c : Nat) : (s.failReq ld kind a c).mem = s.mem ∧
    (s.failReq ld kind a c).pages = s.pages := by
  have hcount := (EventOnly.refl s).count (o := 0x03400110) (n := 1)
  unfold State.failReq
  extract_lets u ms h r x
  split
  · exact ⟨hcount.setLd.mem, hcount.setLd.pages⟩
  · have hpost := fun y r => (EventOnly.refl (u.setHead ld.head y)).postEvent (l := ld) (k := .warning) (r := r)
    exact ⟨(hpost _ _).mem.trans hcount.mem, (hpost _ _).pages.trans hcount.pages⟩

theorem State.refuseReq_leaves (s : State) (ld : Ld) (kind a c : Nat) (read : Bool) :
    (s.refuseReq ld kind a c read).resp.ret = .success ∧ (s.refuseReq ld kind a c read).resp.poison = read ∧
    (s.refuseReq ld kind a c read).resp.devLoad.isSome = true ∧ (s.refuseReq ld kind a c read).pages = s.pages ∧
    SameMemory s (s.refuseReq ld kind a c read) := by
  obtain ⟨hmem, hpages⟩ := s.failReq_mem ld kind a c
  exact ⟨rfl, rfl, rfl, hpages, fun x => congrArg (Mem.byte · x) hmem⟩

theorem State.hostReq_refused {k : Nat} {data : Option (List Byte)} (hbad : s.reachBad ld a n bi = some k) :
    s.hostReq ld a n data bi = s.refuseReq ld k a ((s.granuleCtx (a / granule)).getD 0) data.isNone := by
  unfold State.hostReq
  rw [hbad]

/-! ### Requests that are served, or wait (R282) -/

theorem State.hostReq_taken {data : Option (List Byte)} (hgood : s.reachBad ld a n bi = none) :
    s.hostReq ld a n data bi = ({ s with resp := {} }).takeReq { ld := ld, dpa := a, len := n, data := data } := by
  unfold State.hostReq
  rw [hgood]

section
variable {r : HostReq} (hlines : s.sharedLines r.dpa r.len = []) (hdropped : r.dropped = false)
include hlines hdropped

/-- R282: no shared region holds a line of the request: it is served at once. -/
theorem State.takeReq_reads (hdata : r.data = none) : s.takeReq r = (s.count 0x03400100).hostData r.dpa r.len := by
  unfold State.takeReq State.reqWaits State.reqConflicts State.serveReq State.silently State.recallClosing
  rw [hlines, hdropped, hdata]
  rfl

theorem State.takeReq_writes {bs : List Byte} (hdata : r.data = some bs) :
    s.takeReq r = ((s.count 0x03400108).poke r.dpa bs).s2m { ret := .success } := by
  unfold State.takeReq State.reqWaits State.reqConflicts State.serveReq State.silently State.recallClosing
  rw [hlines, hdropped, hdata]
  rfl

end

/-- R282: a request that conflicts with other holders waits. -/
theorem State.takeReq_waits {r : HostReq} (hconflict : s.reqConflicts r ≠ []) : s.takeReq r = s.holdReq r := by
  have hwaits : s.reqWaits r = true := by
    unfold State.reqWaits
    cases h : s.reqConflicts r with
    | nil => exact absurd h hconflict
    | cons x xs => rfl
  unfold State.takeReq
  exact if_pos hwaits

theorem State.snoop_keeps (s : State) (d : Side) (ls : List Nat) (mask : BitVec 16) (cause : Option Ld) :
    (s.snoop d ls mask cause).mem = s.mem ∧ (s.snoop d ls mask cause).resp = s.resp ∧
    (s.snoop d ls mask cause).cxp.reqs = s.cxp.reqs := by
  unfold State.snoop State.count
  dsimp only
  split <;> exact ⟨rfl, rfl, rfl⟩

theorem State.holdReq_leaves (s : State) (r : HostReq) : (s.holdReq r).mem = s.mem ∧ (s.holdReq r).resp = s.resp ∧
    (s.holdReq r).cxp.reqs = s.cxp.reqs ++ [r] := by
  have hsnoops := foldl_keeps (fun t : State => (t.mem, t.resp, t.cxp.reqs))
    (fun (s : State) (x : Side × Nat × BitVec 16) => s.snoop x.1 [x.2.1] x.2.2 (some r.ld))
    (fun t x => by
      obtain ⟨hmem, hresp, hreqs⟩ := t.snoop_keeps x.1 [x.2.1] x.2.2 (some r.ld)
      rw [hmem, hresp, hreqs]) (s.reqConflicts r) s
  exact ⟨(congrArg (·.1) hsnoops :), (congrArg (·.2.1) hsnoops :), (congrArg (· ++ [r]) (congrArg (·.2.2) hsnoops :) :)⟩

/-- R193, R286: the data of a load. -/
theorem State.hostData_reads (hread : s.mem.readErr a n = none) :
    s.hostData a n = s.s2m { ret := .success, out := s.peek a n } := by
  unfold State.hostData
  rw [hread]

theorem State.hostData_poisons (hread : s.mem.readErr a n ≠ none) : (s.hostData a n).resp.out = [] ∧
    (s.hostData a n).resp.poison = true ∧ SameMemory s (s.hostData a n) := by
  obtain ⟨⟨st, o⟩, hbad⟩ := Option.ne_none_iff_exists'.mp hread
  unfold State.hostData
  rw [hbad]
  dsimp only
  split
  · have hmem : (s.count 0x00100100).mem = s.mem := (EventOnly.refl s).count.mem
    exact ⟨rfl, rfl, fun x => congrArg (Mem.byte · x) hmem⟩
  · exact ⟨rfl, rfl, fun _ => rfl⟩

end

/-! ### The object view (R193) -/

section
variable {s : State} {ld : Ld} {a n h : Nat}

theorem State.viewPage_lives (hview : s.viewPage a n = some h) : (s.page h).life = .opened ∨ (s.page h).life = .sealed := by
  have hfound := List.find?_some hview
  dsimp only at hfound
  simp only [Bool.and_eq_true, Bool.or_eq_true, beq_iff_eq] at hfound
  exact hfound.1.1.1

/-- R424: a page whose frames stand on stacks that serve stays as it is. -/
theorem State.stackTreat_sound (hprimary : s.frameGone (pageDie h) (s.page h).primary = false)
    (hmirror : s.frameGone (pageDie h) (s.page h).mirror = false) (hline : s.lineBad h = false) : s.stackTreat h = s := by
  unfold State.stackTreat
  dsimp only
  rw [hprimary, hmirror, hline]
  rfl

section
variable (hopen : s.openTo ld a n = true) (hview : s.viewPage a n = some h)
  (hsound : s.stackTreat h = s) (hbound : s.bound ld (s.page h).ctx = true)
include hopen hview hsound hbound

theorem State.loadView_serves (hresident : (s.page h).resident = true) : s.loadView ld a n = s.serveView h a n := by
  have hlife : ((s.page h).life == .dropped) = false := by
    obtain hl | hl := State.viewPage_lives hview <;> rw [hl] <;> rfl
  unfold State.loadView
  rw [if_neg (by rw [hopen]; decide), hview]
  dsimp only
  rw [hsound, if_neg (by rw [hlife, hbound]; decide), if_pos hresident]

theorem State.loadView_waits (haway : (s.page h).resident = false) : ∃ t w, s.loadView ld a n = t ∧ w ∈ t.drt.hostWaits ∧ w.ld = ld ∧
    w.dpa = a ∧ w.len = n ∧ w.handle = h ∧ t.resp.ret = .none := by
  have hlife : ((s.page h).life == .dropped) = false := by
    obtain hl | hl := State.viewPage_lives hview <;> rw [hl] <;> rfl
  have hdo : s.loadView ld a n = { s.request h .demand 0 with
      drt := { (s.request h .demand 0).drt with hostWaits := (s.request h .demand 0).drt.hostWaits ++
        [{ ld := ld, dpa := a, len := n, handle := h, since := (s.request h .demand 0).now.toNat }] }
      resp := {} } := by
    unfold State.loadView
    rw [if_neg (by rw [hopen]; decide), hview]
    dsimp only
    rw [hsound, if_neg (by rw [hlife, hbound]; decide), if_neg (by rw [haway]; decide)]
  exact ⟨_, _, hdo, List.mem_append_right _ (List.mem_singleton_self _), rfl, rfl, rfl, rfl, rfl⟩

end

/-- R193: a resident page's bytes. -/
theorem State.serveView_reads (hread : s.mem.readErr a n = none) : (s.serveView h a n).resp.out = s.peek a n ∧
    (s.serveView h a n).resp.poison = false ∧ (s.serveView h a n).resp.devLoad.isSome = true ∧
    ((s.serveView h a n).page h).ref = true ∧ SameMemory s (s.serveView h a n) := by
  have hevents := (EventOnly.refl (s.touch h)).count (o := 0x03400100) (n := 1)
  have hmem : ((s.touch h).count 0x03400100).mem = s.mem := hevents.mem
  have hdo : s.serveView h a n = ((s.touch h).count 0x03400100).s2m { ret := .success, out := ((s.touch h).count 0x03400100).peek a n } :=
    State.hostData_reads (by rw [hmem]; exact hread)
  have hpeek : ((s.touch h).count 0x03400100).peek a n = s.peek a n := by
    unfold State.peek
    rw [hmem]
  have hpage : (((s.touch h).count 0x03400100).page h).ref = true :=
    (congrArg (fun p : Tbl Page => (p.lookD h {}).ref) hevents.pages).trans (congrArg Page.ref (State.page_setPage_self ..))
  rw [hdo, hpeek]
  exact ⟨rfl, rfl, rfl, hpage, fun x => congrArg (Mem.byte · x) hmem⟩

theorem State.loadView_outside (hbad : s.openTo ld a n = false ∨ s.viewPage a n = none) : (s.loadView ld a n).resp.poison = true ∧
    SameMemory s (s.loadView ld a n) := by
  have hrefused : ∃ k, s.loadView ld a n = s.refuseReq ld k a 0 true := by
    unfold State.loadView
    by_cases hopen : s.openTo ld a n = true
    · obtain h | h := hbad
      · rw [hopen] at h
        cases h
      · rw [if_neg (by rw [hopen]; decide), h]
        exact ⟨3, rfl⟩
    · exact ⟨2, if_pos (by simpa using hopen)⟩
  obtain ⟨k, hk⟩ := hrefused
  obtain ⟨-, hpoison, -, -, hmem⟩ := s.refuseReq_leaves ld k a 0 true
  rw [hk]
  exact ⟨hpoison, hmem⟩

theorem State.writeView_discards (s : State) (ld : Ld) (a n : Nat) : (s.writeView ld a n).resp.ret = .success ∧
    (s.writeView ld a n).pages = s.pages ∧ SameMemory s (s.writeView ld a n) := by
  unfold State.writeView
  split
  · obtain ⟨hret, -, -, hpages, hmem⟩ := s.refuseReq_leaves ld 2 a 0 false
    exact ⟨hret, hpages, hmem⟩
  · have hevents := (EventOnly.refl s).count (o := 0x03200148) (n := 1)
    exact ⟨rfl, hevents.pages, hevents.sameMemory⟩

end

/-! ### Loads and stores of context space -/

section
variable {s : State} {ld : Ld} {a n : Nat} {bi : Bool} (hdec : s.decoded ld bi = true) (ha : a < ctxSpaceEnd)
include hdec ha

theorem exec_hostMemRead : exec (.hostMemRead ld a n bi) s = .next (s.hostReq ld a n none bi) := by
  refine congrArg Host.Outcome.next ((if_neg ?_).trans (if_neg (Nat.not_le.mpr ha)))
  rw [hdec]
  decide

theorem exec_hostMemWrite {data : List Byte} :
    exec (.hostMemWrite ld a data bi) s = .next (s.hostReq ld a data.length (some data) bi) := by
  refine congrArg Host.Outcome.next ((if_neg ?_).trans (if_neg (Nat.not_le.mpr ha)))
  rw [hdec]
  decide

end

section
variable {s : State} {ld : Ld} {a n : Nat} {bi : Bool}

section
variable (hgood : s.reachBad ld a n bi = none)
include hgood

theorem State.hostReq_reads (hlines : s.sharedLines a n = []) (hread : s.mem.readErr a n = none) :
    (s.hostReq ld a n none bi).resp.out = s.peek a n ∧ (s.hostReq ld a n none bi).resp.poison = false ∧
    (s.hostReq ld a n none bi).resp.devLoad = some (Config.devLoad s.fresh) ∧ SameMemory s (s.hostReq ld a n none bi) := by
  let u := ({ s with resp := {} } : State).count 0x03400100
  have hevents : EventOnly { s with resp := {} } u := (EventOnly.refl _).count
  have hmem : u.mem = s.mem := hevents.mem
  have hfresh : u.fresh = s.fresh := (congrArg State.fresh hevents :)
  have hdo : s.hostReq ld a n none bi = u.s2m { ret := .success, out := u.peek a n } :=
    (State.hostReq_taken hgood).trans ((State.takeReq_reads hlines rfl rfl).trans (State.hostData_reads (by rw [hmem]; exact hread)))
  have hpeek : u.peek a n = s.peek a n := by
    unfold State.peek
    rw [hmem]
  rw [hdo, hpeek]
  exact ⟨rfl, rfl, congrArg (fun x => some (Config.devLoad x)) hfresh, fun x => congrArg (Mem.byte · x) hmem⟩

theorem State.hostReq_poisons (hlines : s.sharedLines a n = []) (hread : s.mem.readErr a n ≠ none) :
    (s.hostReq ld a n none bi).resp.out = [] ∧ (s.hostReq ld a n none bi).resp.poison = true ∧
    SameMemory s (s.hostReq ld a n none bi) := by
  let u := ({ s with resp := {} } : State).count 0x03400100
  have hmem : u.mem = s.mem := ((EventOnly.refl ({ s with resp := {} } : State)).count).mem
  have hdo : s.hostReq ld a n none bi = u.hostData a n := (State.hostReq_taken hgood).trans (State.takeReq_reads hlines rfl rfl)
  obtain ⟨hout, hpoison, hsame⟩ := State.hostData_poisons (s := u) (a := a) (n := n) (by rw [hmem]; exact hread)
  rw [hdo]
  exact ⟨hout, hpoison, fun x => (hsame x).trans (congrArg (Mem.byte · x) hmem)⟩

theorem State.hostReq_waits {data : Option (List Byte)} (hconflict : s.reqConflicts ⟨ld, a, n, data, false⟩ ≠ []) :
    (s.hostReq ld a n data bi).resp = {} ∧ (s.hostReq ld a n data bi).cxp.reqs = s.cxp.reqs ++ [⟨ld, a, n, data, false⟩] ∧
    SameMemory s (s.hostReq ld a n data bi) := by
  have hdo : s.hostReq ld a n data bi = ({ s with resp := {} } : State).holdReq ⟨ld, a, n, data, false⟩ :=
    (State.hostReq_taken hgood).trans (State.takeReq_waits hconflict)
  obtain ⟨hmem, hresp, hreqs⟩ := ({ s with resp := {} } : State).holdReq_leaves ⟨ld, a, n, data, false⟩
  rw [hdo]
  exact ⟨hresp, hreqs, fun x => congrArg (Mem.byte · x) hmem⟩

end

theorem State.hostReq_writes {data : List Byte} (hwf : s.mem.wf = true) (hgood : s.reachBad ld a data.length bi = none)
    (hlines : s.sharedLines a data.length = []) : (s.hostReq ld a data.length (some data) bi).resp.ret = .success ∧
    (s.hostReq ld a data.length (some data) bi).resp.devLoad = some (Config.devLoad s.fresh) ∧
    (s.hostReq ld a data.length (some data) bi).peek a data.length = data ∧
    SameMemoryBut a data.length s (s.hostReq ld a data.length (some data) bi) := by
  let u := ({ s with resp := {} } : State).count 0x03400108
  have hevents : EventOnly { s with resp := {} } u := (EventOnly.refl _).count
  have hmem : u.mem = s.mem := hevents.mem
  have hfresh : u.fresh = s.fresh := (congrArg State.fresh hevents :)
  have huwf : u.mem.wf = true := by rw [hmem]; exact hwf
  have hdo : s.hostReq ld a data.length (some data) bi = (u.poke a data).s2m { ret := .success } :=
    (State.hostReq_taken hgood).trans (State.takeReq_writes hlines rfl rfl)
  rw [hdo]
  refine ⟨rfl, congrArg (fun x => some (Config.devLoad x)) hfresh, State.peek_poke huwf a data, fun x hx => ?_⟩
  exact (State.sameMemoryBut_poke huwf a data x hx).trans (congrArg (Mem.byte · x) hmem)

end

/-- Settles O51: host accesses of context space and of the object view, case by case. -/
theorem hostAccessesServed : Obligations.HostAccessesServed := by
  unfold Obligations.HostAccessesServed
  refine ⟨fun ld a n data bi s hwf => ⟨fun hdec => ?_, fun hdec ha => ⟨fun hgood => ⟨?_, ?_, ?_⟩, fun k hbad => ?_,
    fun hgood => ⟨?_, ?_⟩, fun k hbad => ?_⟩⟩, fun ld a n s => ⟨fun hdec hopen => ?_, fun hdec hopen => ?_, fun hdec => ?_⟩⟩
  · have hclosed : (!s.decoded ld bi) = true := by rw [hdec]; rfl
    exact ⟨⟨_, congrArg Host.Outcome.next (if_pos hclosed), rfl, rfl⟩, ⟨_, congrArg Host.Outcome.next (if_pos hclosed), rfl, rfl⟩⟩
  · exact fun hlines hread => ⟨_, exec_hostMemRead hdec ha, State.hostReq_reads hgood hlines hread⟩
  · exact fun hlines hread => ⟨_, exec_hostMemRead hdec ha, State.hostReq_poisons hgood hlines hread⟩
  · exact fun hconflict => ⟨_, exec_hostMemRead hdec ha, State.hostReq_waits hgood hconflict⟩
  · obtain ⟨hret, hpoison, hload, -, hmem⟩ := s.refuseReq_leaves ld k a ((s.granuleCtx (a / granule)).getD 0) true
    exact ⟨_, (exec_hostMemRead hdec ha).trans (congrArg Host.Outcome.next (State.hostReq_refused hbad)), hret, hpoison, hload, hmem⟩
  · exact fun hlines => ⟨_, exec_hostMemWrite hdec ha, State.hostReq_writes hwf hgood hlines⟩
  · exact fun hconflict => ⟨_, exec_hostMemWrite hdec ha, State.hostReq_waits hgood hconflict⟩
  · obtain ⟨hret, -, -, -, hmem⟩ := s.refuseReq_leaves ld k a ((s.granuleCtx (a / granule)).getD 0) false
    exact ⟨_, (exec_hostMemWrite hdec ha).trans (congrArg Host.Outcome.next (State.hostReq_refused hbad)), hret, hmem⟩
  · have hload : exec (.viewLoad ld a n) s = .next (s.loadView ld a n) := congrArg Host.Outcome.next (if_pos hdec)
    have hwrite : exec (.viewWrite ld a n) s = .next (s.writeView ld a n) := congrArg Host.Outcome.next (if_pos hdec)
    refine ⟨fun h hview hprimary hmirror hline hbound => ⟨fun hresident hread => ?_, fun haway => ?_⟩,
      fun hview => ⟨_, hload, State.loadView_outside (.inr hview)⟩, ⟨_, hwrite, s.writeView_discards ld a n⟩⟩
    · exact ⟨_, hload.trans (congrArg Host.Outcome.next (State.loadView_serves hopen hview
        (State.stackTreat_sound hprimary hmirror hline) hbound hresident)), State.serveView_reads hread⟩
    · obtain ⟨t, w, hdo, ht⟩ := State.loadView_waits hopen hview (State.stackTreat_sound hprimary hmirror hline) hbound haway
      exact ⟨t, w, hload.trans (congrArg Host.Outcome.next hdo), ht⟩
  · obtain ⟨hret, -, hmem⟩ := s.writeView_discards ld a n
    exact ⟨⟨_, congrArg Host.Outcome.next (if_pos hdec), State.loadView_outside (.inl hopen)⟩,
      ⟨_, congrArg Host.Outcome.next (if_pos hdec), hret, hmem⟩⟩
  · exact ⟨⟨_, congrArg Host.Outcome.next (if_neg (by rw [hdec]; decide)), rfl, rfl⟩,
      ⟨_, congrArg Host.Outcome.next (if_neg (by rw [hdec]; decide)), rfl, rfl⟩⟩

end Machine
end Sys2Proof
end

section
/-! PROOFS. Lines that hosts hold, given up, snooped again, or poisoned (R280, R283-R285). -/

namespace Sys2Proof
namespace Machine

/-! ### Entries of the snoop filter (R282) -/

section
variable {h : HeadState} {e : SfEntry} {line : Nat}

theorem entry_line (he : h.entry? line = some e) : e.line = line := by
  simpa using List.find?_some he

/-- R282: an entry of a list found by its line. -/
theorem find_map_line {f : SfEntry → SfEntry} (hf : ∀ x, (f x).line = x.line) (l : List SfEntry) (k : Nat) :
    (l.map f).find? (fun x => x.line == k) = (l.find? (fun x => x.line == k)).map f := by
  rw [List.find?_map]
  congr 1
  exact congrArg (List.find? · l) (funext fun x => by simp [hf])

/-- R282: an entry that is replaced is found in its place; the others stay. -/
theorem entry_replace {x : SfEntry} (hx : x.line = line) (he : h.entry? line = some e) :
    HeadState.entry? { h with sf := h.sf.map (fun y => if y.line == line then x else y) } line = some x ∧
    ∀ l, l ≠ line → HeadState.entry? { h with sf := h.sf.map (fun y => if y.line == line then x else y) } l = h.entry? l := by
  have hline : ∀ y : SfEntry, (if y.line == line then x else y).line = y.line := by
    intro y
    split
    next hy => rw [hx]; exact (beq_iff_eq.mp hy).symm
    · rfl
  have hfind := find_map_line hline h.sf
  refine ⟨?_, fun l hl => ?_⟩
  · refine (hfind line).trans ?_
    rw [show h.sf.find? (fun y => y.line == line) = some e from he]
    exact congrArg some (if_pos (by simpa using entry_line he))
  · refine (hfind l).trans ?_
    unfold HeadState.entry?
    cases hfound : h.sf.find? (fun y => y.line == l) with
    | none => rfl
    | some y =>
      have hy : y.line = l := by simpa using List.find?_some hfound
      exact congrArg some (if_neg (by rw [hy]; simpa using hl))

theorem entry_drop (h : HeadState) (line : Nat) : (h.drop line).entry? line = none ∧
    ∀ l, l ≠ line → (h.drop line).entry? l = h.entry? l := by
  unfold HeadState.drop HeadState.entry?
  refine ⟨List.find?_eq_none.mpr fun x hx => ?_, fun l hl => ?_⟩
  · have hne := (List.mem_filter.mp hx).2
    simpa using hne
  · dsimp only
    rw [List.find?_filter]
    congr 1
    funext x
    by_cases hxl : x.line = l
    · simp [hxl, hl]
    · simp [hxl]

/-- R282: what is kept of an entry. -/
theorem entry_keep {x : SfEntry} (hx : x.line = line) (he : h.entry? line = some e) :
    (h.keepEntry x).entry? line = (if x.holders = 0 then none else some x) ∧
    ∀ l, l ≠ line → (h.keepEntry x).entry? l = h.entry? l := by
  unfold HeadState.keepEntry
  rw [hx]
  split
  · exact entry_drop h line
  · exact entry_replace hx he

theorem keepEntry_biTimeout (h : HeadState) (x : SfEntry) : (h.keepEntry x).biTimeout = h.biTimeout := by
  unfold HeadState.keepEntry
  split <;> rfl

end

/-! ### Records of events -/

theorem EventOnly.postFor {s0 s : State} (hs : EventOnly s0 s) {cause k code dpa ctx head} :
    EventOnly s0 (s.postFor cause k code dpa ctx head) := by
  unfold State.postFor State.postAll
  split
  · exact hs.postEvent
  · exact .foldl hs fun _ _ hk => hk.postEvent

theorem EventOnly.entry {s t : State} (h : EventOnly s t) (d : Side) (line : Nat) :
    (t.cxp.head.get d).entry? line = (s.cxp.head.get d).entry? line :=
  (congrArg (HeadState.entry? · line) (h.head d) :)

theorem EventOnly.biTimeout {s t : State} (h : EventOnly s t) (d : Side) :
    (t.cxp.head.get d).biTimeout = (s.cxp.head.get d).biTimeout := (congrArg HeadState.biTimeout (h.head d) :)

theorem EventOnly.poisoned {s t : State} (h : EventOnly s t) : t.cxp.poisoned = s.cxp.poisoned :=
  (congrArg (fun u : State => u.cxp.poisoned) h :)

theorem EventOnly.late {s t : State} (h : EventOnly s t) : t.cxp.late = s.cxp.late := (congrArg (fun u : State => u.cxp.late) h :)

/-! ### Answers (R283) -/

section
variable {s : State} {ld : Ld} {line : Nat} {e : SfEntry}

/-- R283: the data of the answer. -/
def State.written (s : State) (e : SfEntry) (line : Nat) (data : Option (List Byte)) : State :=
  match data with
  | some bs => if e.owned && bs.length = 64 then s.poke (64 * line) bs else s
  | none => s

theorem State.written_cxp (s : State) (e : SfEntry) (line : Nat) (data : Option (List Byte)) : (s.written e line data).cxp = s.cxp := by
  unfold State.written
  split
  · split <;> rfl
  · rfl

theorem State.written_clean (s : State) (line : Nat) {data : Option (List Byte)} (h : data = none ∨ e.owned = false) :
    s.written e line data = s := by
  unfold State.written
  split
  · obtain h | h := h
    · cases h
    · exact if_neg (by rw [h]; simp)
  · rfl

theorem State.written_owned (s : State) (line : Nat) {bs : List Byte} (howned : e.owned = true) (hlen : bs.length = 64) :
    s.written e line (some bs) = s.poke (64 * line) bs := if_pos (by rw [howned, hlen]; rfl)

/-- R283: the part after a holder's answer, before what waited goes on. -/
def State.answeredBy (s : State) (ld : Ld) (e : SfEntry) (line : Nat) (data : Option (List Byte)) : State :=
  (s.written e line data).setHead ld.head
    (((s.written e line data).cxp.head.get ld.head).keepEntry (e.answered (BitVec.ofNat 16 (2 ^ ld.id))))

theorem State.biAnswer_resolves {data : Option (List Byte)} (hlate : s.cxp.late.contains (ld, line) = false)
    (he : (s.cxp.head.get ld.head).entry? line = some e) (hasked : e.target &&& BitVec.ofNat 16 (2 ^ ld.id) ≠ 0) :
    s.biAnswer ld line data = (s.answeredBy ld e line data).linesResolved := by
  unfold State.biAnswer
  dsimp only
  rw [if_neg (by rw [hlate]; decide), he]
  exact if_neg hasked

theorem State.biAnswer_late {data : Option (List Byte)} (hlate : s.cxp.late.contains (ld, line) = true) :
    s.biAnswer ld line data =
      ({ s with cxp := { s.cxp with lateBirsp := true, late := s.cxp.late.erase (ld, line) } } : State).count 0x03400128 := by
  unfold State.biAnswer
  exact if_pos hlate

theorem State.biAnswer_untracked {data : Option (List Byte)} (hlate : s.cxp.late.contains (ld, line) = false)
    (he : (s.cxp.head.get ld.head).entry? line = none) : s.biAnswer ld line data = s := by
  unfold State.biAnswer
  dsimp only
  rw [if_neg (by rw [hlate]; decide), he]

end

/-! ### Timeouts (R284, R285) -/

section
variable {s : State} {hd : Side} {line : Nat} {e : SfEntry}

/-- R284: a snoop that has timed out is noted, and sent again. -/
theorem State.biAgain_leaves (he : (s.cxp.head.get hd).entry? line = some e) :
    ((s.biAgain hd e).cxp.head.get hd).biTimeout = true ∧
    ((s.biAgain hd e).cxp.head.get hd).entry? line = some { e with lastSnoop := s.now.toNat } ∧
    (s.biAgain hd e).cxp.poisoned = s.cxp.poisoned ∧ (s.biAgain hd e).cxp.late = s.cxp.late ∧ (s.biAgain hd e).now = s.now ∧
    SameMemory s (s.biAgain hd e) := by
  let x : HeadState := { s.cxp.head.get hd with
    biTimeout := true
    sf := (s.cxp.head.get hd).sf.map (fun x => if x.line == e.line then { x with lastSnoop := s.now.toNat } else x) }
  have hevents : EventOnly (s.setHead hd x) (s.biAgain hd e) := ((EventOnly.refl _).count).count.postFor
  have hhead : (s.setHead hd x).cxp.head.get hd = x := Two.get_set_self ..
  have hentry : x.entry? line = some { e with lastSnoop := s.now.toNat } := by
    have hline : ∀ y : SfEntry, (if y.line == e.line then { y with lastSnoop := s.now.toNat } else y).line = y.line := by
      intro y
      split <;> rfl
    refine (find_map_line hline (s.cxp.head.get hd).sf line).trans ?_
    rw [show (s.cxp.head.get hd).sf.find? (fun y => y.line == line) = some e from he]
    exact congrArg some (if_pos (beq_self_eq_true _))
  refine ⟨(hevents.biTimeout hd).trans ?_, (hevents.entry hd line).trans ?_, hevents.poisoned, hevents.late, hevents.now,
    hevents.sameMemory⟩
  · rw [hhead]
  · rw [hhead]
    exact hentry

theorem State.biExpire_again (he : (s.cxp.head.get hd).entry? line = some e) {t0 : Nat} (hsnoop : e.snoopAt = some t0)
    (hdown : e.down = false) (hforced : e.forced = 0) : s.biExpire hd line =
      if s.now.toNat < e.lastSnoop + 1000 * s.cxp.biTimeoutUs then s else s.biAgain hd e := by
  unfold State.biExpire
  rw [he]
  dsimp only
  rw [hsnoop]
  dsimp only
  exact if_neg (by rw [hdown, hforced]; simp)

theorem State.biExpire_poisons (he : (s.cxp.head.get hd).entry? line = some e) {t0 : Nat} (hsnoop : e.snoopAt = some t0)
    (hgone : e.down = true ∨ e.forced ≠ 0) (hfirst : t0 + 1000 * s.cxp.biTimeoutUs ≤ s.now.toNat)
    (hlast : e.lastSnoop + 1000 * s.cxp.biTimeoutUs ≤ s.now.toNat) :
    s.biExpire hd line = ((s.biAgain hd e).poisonHeld hd line).linesResolved := by
  obtain ⟨-, -, -, -, hnow, -⟩ := State.biAgain_leaves he
  have hlost : (e.down || e.forced != 0) = true := by
    obtain h | h := hgone
    · rw [h, Bool.true_or]
    · rw [bne_iff_ne.mpr h, Bool.or_true]
  unfold State.biExpire
  rw [he]
  dsimp only
  rw [hsnoop]
  dsimp only
  rw [if_neg (Nat.not_lt.mpr hlast)]
  exact if_pos (by rw [hlost, hnow]; simpa using hfirst)

/-- R285: a line that is poisoned. -/
theorem State.poisonHeld_leaves (he : (s.cxp.head.get hd).entry? line = some e) : line ∈ (s.poisonHeld hd line).mem.poison ∧
    ((s.poisonHeld hd line).cxp.head.get hd).biTimeout = (s.cxp.head.get hd).biTimeout ∧
    ((s.poisonHeld hd line).cxp.head.get hd).entry? line =
      (if e.holders &&& ~~~e.gone = 0 then none else some (e.answered e.gone)) ∧
    (s.poisonHeld hd line).cxp.poisoned = s.cxp.poisoned + 1 ∧
    (s.poisonHeld hd line).cxp.late = s.cxp.late ++ (ldsOf hd (e.target &&& e.gone)).map (fun l => (l, line)) ∧
    SameMemory s (s.poisonHeld hd line) := by
  have hgetD : ((s.cxp.head.get hd).entry? line).getD {} = e := by
    rw [he]
    rfl
  let u : State := s.setHead hd ((s.cxp.head.get hd).keepEntry (e.answered e.gone))
  let v : State := { u with
    mem := s.mem.poisonLine line
    cxp := { u.cxp with
      poisoned := s.cxp.poisoned + 1
      late := s.cxp.late ++ (ldsOf hd (e.target &&& e.gone)).map (fun l => (l, line)) } }
  have hevents : EventOnly v (s.poisonHeld hd line) := by
    unfold State.poisonHeld
    dsimp only
    rw [hgetD]
    exact (EventOnly.refl _).postFor
  have hhead : v.cxp.head.get hd = (s.cxp.head.get hd).keepEntry (e.answered e.gone) := Two.get_set_self ..
  refine ⟨?_, (hevents.biTimeout hd).trans ?_, (hevents.entry hd line).trans ?_, hevents.poisoned, hevents.late,
    hevents.sameMemory⟩
  · rw [hevents.mem]
    exact mem_insNat.mpr (.inl rfl)
  · rw [hhead]
    exact keepEntry_biTimeout ..
  · rw [hhead]
    exact (entry_keep (x := e.answered e.gone) (entry_line he :) he).1

end

/-- Settles O53: answers of holders, timeouts, and answers that come late. -/
theorem heldLinesResolved : Obligations.HeldLinesResolved := by
  unfold Obligations.HeldLinesResolved
  intro s line hwf
  refine ⟨fun ld e hlate he hasked data => ?_, fun ld data hlate => ?_, fun ld data hlate he => ?_,
    fun hd e t0 he hsnoop => ⟨fun hdown hforced hlast => ?_, fun hgone hfirst hlast => ?_, fun hdown hforced hlast => ?_⟩⟩
  · have hhead : (s.answeredBy ld e line data).cxp.head.get ld.head =
        (s.cxp.head.get ld.head).keepEntry (e.answered (BitVec.ofNat 16 (2 ^ ld.id))) :=
      (Two.get_set_self ..).trans (by rw [State.written_cxp])
    obtain ⟨hthis, hothers⟩ := entry_keep (x := e.answered (BitVec.ofNat 16 (2 ^ ld.id))) (entry_line he :) he
    refine ⟨s.answeredBy ld e line data, congrArg Host.Outcome.next (State.biAnswer_resolves hlate he hasked), ?_, ?_, ?_, ?_⟩
    · rw [hhead]
      exact hthis
    · rw [hhead]
      exact hothers
    · intro hclean x
      show (s.written e line data).mem.byte x = s.mem.byte x
      rw [State.written_clean s line hclean]
    · intro bs hbs howned hlen
      have hmem : (s.answeredBy ld e line data).mem = (s.poke (64 * line) bs).mem := by
        show (s.written e line data).mem = _
        rw [hbs, State.written_owned s line howned hlen]
      refine ⟨?_, fun x hx => ?_⟩
      · unfold State.peek
        rw [hmem, ← hlen]
        exact State.peek_poke hwf ..
      · rw [hmem]
        exact State.sameMemoryBut_poke hwf _ bs x (by rwa [hlen])
  · have hevents := (EventOnly.refl ({ s with
      cxp := { s.cxp with lateBirsp := true, late := s.cxp.late.erase (ld, line) } } : State)).count (o := 0x03400128) (n := 1)
    refine ⟨_, congrArg Host.Outcome.next (State.biAnswer_late hlate), ?_, hevents.late, ?_, hevents.sameMemory⟩
    · exact (congrArg (fun u : State => u.cxp.lateBirsp) hevents :)
    · rw [State.count_cxp]
  · exact congrArg Host.Outcome.next (State.biAnswer_untracked hlate he)
  · obtain ⟨hflag, hentry, -, -, -, hmem⟩ := State.biAgain_leaves he
    exact ⟨congrArg Host.Outcome.next ((State.biExpire_again he hsnoop hdown hforced).trans (if_neg (Nat.not_lt.mpr hlast))),
      hflag, hentry, hmem⟩
  · obtain ⟨hflag, hentry, hcount, hlate, -, hmem⟩ := State.biAgain_leaves he
    obtain ⟨hpoison, hflag', hentry', hcount', hlate', hmem'⟩ := State.poisonHeld_leaves hentry
    refine ⟨(s.biAgain hd e).poisonHeld hd line,
      congrArg Host.Outcome.next (State.biExpire_poisons he hsnoop hgone hfirst hlast), hpoison, hflag'.trans hflag, fun hnone => ?_,
      fun hsome => ?_, ?_, ?_, fun x => (hmem' x).trans (hmem x)⟩
    · exact hentry'.trans (if_pos hnone)
    · exact ⟨_, hentry'.trans (if_neg hsome), rfl, rfl⟩
    · rw [hcount', hcount]
    · rw [hlate', hlate]
      rfl
  · exact congrArg Host.Outcome.next ((State.biExpire_again he hsnoop hdown hforced).trans (if_pos hlast))

end Machine
end Sys2Proof
end

section
/-! PROOFS. Residency over time: promotions, demotions, bounds and holds, tables that leave, the sweeps. -/

namespace Sys2Proof
namespace Machine

/-! ### Promotions issued (R213, R246) -/

theorem Half.lookup_mapped (h : Half) (key : Nat) : (h.lookup key).mapped = h.mapped := by
  unfold Half.lookup
  split
  · exact h.useLeaf_mapped _
  · rfl

section
variable {s : State} {d : Side} {r : PromReq}

/-- R213: the next request goes to the Coal store. -/
theorem State.issuePromotion_issues (hrun : s.running = true) (hen : s.coal.en = true) (hready : s.coal.ready = true)
    (hroom : ((s.drt.reqs.get d).filter (fun x => x.issuedAt.isSome)).length < 1024) (hnext : s.nextReq d = some r) :
    s.issuePromotion d = if r.handle < 2 ^ 38 then s.startPromotion d r else s.startTables d r := by
  unfold State.issuePromotion
  dsimp only
  rw [if_neg (by rw [hrun, hen, hready]; simpa using hroom), hnext]

theorem State.newHalf_map (s : State) (d : Side) (x : Half) : ((s.newHalf d x).coal.half.get d).map = x.map := by
  have hset : ((s.setHalf d { x with leafMiss := 0 }).coal.half.get d).map = x.map := by
    rw [show (s.setHalf d { x with leafMiss := 0 }).coal.half.get d = { x with leafMiss := 0 } from Two.get_set_self ..]
  unfold State.newHalf
  dsimp only
  split
  · exact hset
  · rw [State.count_coal]
    exact hset

theorem State.reach_leaves (s : State) (d : Side) (r : PromReq) : (s.reach d r).pages = s.pages ∧ (s.reach d r).drt = s.drt := by
  unfold State.reach
  split <;> exact ⟨rfl, rfl⟩

theorem State.updReq_reqs (s : State) (d : Side) (h : Nat) (f : PromReq → PromReq) :
    (s.updReq d h f).drt.reqs.get d = (s.drt.reqs.get d).map (fun x => if x.handle == h then f x else x) := Two.get_set_self ..

theorem Half.lookup_map (h : Half) (key : Nat) : (h.lookup key).map = h.map := (congrArg (·.2.2.2.1) (h.lookup_mapped key) :)

/-- R199, R200: a page's promotion that has a frame. -/
theorem State.startPromotion_got {f : FrameAt} {s1 : State} (hcold : (s.page r.handle).res = .cold)
    (hgot : s.allocFrame d (s.page r.handle).pref (s.page r.handle).kib none [] = .got f s1) :
    ((s.startPromotion d r).page r.handle).res = .promoting ∧ ((s.startPromotion d r).page r.handle).primary = some f ∧
    (s.startPromotion d r).drt.reqs.get d = (s1.drt.reqs.get d).map (fun x => if x.handle == r.handle then { x with
      issuedAt := some s1.now.toNat
      allocWait := false
      locs := ((s1.coal.half.get d).map.look r.handle).toList } else x) := by
  unfold State.startPromotion
  dsimp only
  rw [if_neg (by rw [hcold]; decide), hgot]
  dsimp only
  let u : State := (s1.updReq d r.handle (fun x => { x with issuedAt := some s1.now.toNat, allocWait := false })).updPage r.handle
    (fun q => { q with res := .promoting, primary := some f })
  let v : State := u.newHalf d ((u.coal.half.get d).lookup r.handle)
  let w : State := v.updReq d r.handle (fun x => { x with locs := ((v.coal.half.get d).map.look r.handle).toList })
  obtain ⟨hpages, hdrt⟩ := State.reach_leaves w d r
  have hpage : (w.reach d r).page r.handle = u.page r.handle := by
    unfold State.page
    rw [hpages, State.updReq_pages, State.newHalf_pages]
  have hmap : (v.coal.half.get d).map = (s1.coal.half.get d).map :=
    (State.newHalf_map ..).trans (Half.lookup_map ..)
  have hreqs : (w.reach d r).drt.reqs.get d = (s1.drt.reqs.get d).map (fun x => if x.handle == r.handle then { x with
      issuedAt := some s1.now.toNat
      allocWait := false
      locs := ((s1.coal.half.get d).map.look r.handle).toList } else x) := by
    rw [hdrt, State.updReq_reqs, State.newHalf_drt, hmap, State.updPage_drt, State.updReq_reqs, List.map_map]
    refine List.map_congr_left fun x _ => ?_
    rw [Function.comp_apply]
    by_cases hx : (x.handle == r.handle) = true
    · rw [if_pos hx, if_pos hx, if_pos hx]
    · rw [if_neg hx, if_neg hx, if_neg hx]
  refine ⟨?_, ?_, hreqs⟩
  · refine (congrArg Page.res (hpage.trans (State.page_setPage_self ..))).trans ?_
    rfl
  · refine (congrArg Page.primary (hpage.trans (State.page_setPage_self ..))).trans ?_
    rfl

/-- R202: the tables of a sequence are read where the map names their records. -/
theorem State.startTables_reqs (s : State) (d : Side) (r : PromReq) :
    (s.startTables d r).drt.reqs.get d = (s.drt.reqs.get d).map (fun x => if x.handle == r.handle then { x with
      issuedAt := some s.now.toNat
      locs := (s.tableKeys (r.handle - 2 ^ 38)).filterMap (s.coal.half.get d).map.look } else x) := by
  let keys := s.tableKeys (r.handle - 2 ^ 38)
  have hmap : ((s.newHalf d (keys.foldl Half.lookup (s.coal.half.get d))).coal.half.get d).map = (s.coal.half.get d).map :=
    (State.newHalf_map ..).trans (congrArg (·.2.2.2.1) (Half.foldl_keeps Half.mapped Half.lookup Half.lookup_mapped keys _) :)
  unfold State.startTables
  dsimp only
  rw [(State.reach_leaves ..).2, State.updReq_reqs, State.newHalf_drt, State.newHalf_now, hmap]

end

/-! ### Promotions that end (R219) -/

section
variable {s : State} {h : Nat} {read : MediaRead} {authOk : Bool} {r : PromReq}

/-- R219, R261: what comes of a page's promotion. -/
theorem State.promotionDone_page (hh : h < 2 ^ 38)
    (hfind : (s.drt.reqs.get (pageDie h)).find? (fun x => x.handle == h && x.issuedAt.isSome) = some r) (hlive : s.live = true)
    (hwarn : s.pkg.powerWarn = false) : s.promotionDone h read authOk = (s.promotePage h r read authOk).settle (pageDie h) := by
  unfold State.promotionDone
  dsimp only
  rw [if_pos hh, hfind]
  dsimp only
  rw [if_neg (by rw [hlive, hwarn]; decide), if_pos hh]

theorem State.promotePage_read (hres : (s.page h).res = .promoting) (hlocs : r.locs ≠ []) {m : MediaRead}
    (hm : m = (s.coal.half.get (pageDie h)).readAll read r.locs) {s1 : State} (hs1 : s1 = s.readRecords (pageDie h) r.locs m) :
    s.promotePage h r read authOk =
      if m = .uncorrectable then
        (s1.setReqs (pageDie h) ((s1.drt.reqs.get (pageDie h)).filter (fun x => x.handle != h))).countLost.promotionLost h
      else if s1.tagOk h authOk = true ∧ s1.crcOk h = true then s1.promoted h r
      else (s1.setReqs (pageDie h) ((s1.drt.reqs.get (pageDie h)).filter (fun x => x.handle != h))).promotionLost h := by
  subst hm hs1
  unfold State.promotePage
  dsimp only
  rw [if_neg (by rw [hres]; decide), if_neg (by simpa using hlocs)]
  generalize s.readRecords (pageDie h) r.locs _ = s1
  cases (s.coal.half.get (pageDie h)).readAll read r.locs <;>
    cases s1.tagOk h authOk <;> cases s1.crcOk h <;> rfl

end

/-! ### Bounds and holds (R216, R217) -/

section
variable {s : State}

theorem State.boundExpiry_instr {a : At} {r : JRec} {w : Wait} {h : Nat} (hr : s.rec? a = some r) (hstate : r.state = .issued)
    (hw : r.wait = some w) : s.boundExpiry (.instr a) h =
      if (s.duePages w).contains h = true then (s.count 0x03200138 (s.duePages w).length).expire a w.handles else s := by
  unfold State.boundExpiry
  dsimp only
  rw [hr]
  dsimp only
  rw [hw]
  dsimp only
  rw [hstate]
  cases (s.duePages w).contains h <;> rfl

theorem State.boundExpiry_load {ld : Ld} {a h : Nat} {x : HostWait}
    (hx : s.drt.hostWaits.find? (fun w => w.ld == ld && w.dpa == a && w.handle == h) = some x) :
    s.boundExpiry (.load ld a) h =
      if x.since + 1000 * s.drt.boundUs ≤ s.now.toNat then (s.count 0x03200138).poisonLoad x else s := by
  unfold State.boundExpiry
  dsimp only
  rw [hx]
  rfl

/-- R217, R227: a host's load that is answered with poison. -/
theorem State.poisonLoad_leaves {x : HostWait} (hx : x.dropped = false) (hbinds : s.cxp.bindWaits = []) :
    (s.poisonLoad x).drt.hostWaits = s.drt.hostWaits.filter (· != x) ∧ (s.poisonLoad x).resp.poison = true ∧
    (s.poisonLoad x).drt.nrAddr = BitVec.ofNat 64 x.dpa ∧ (s.poisonLoad x).drt.nrTime = s.now ∧
    (s.poisonLoad x).pages = s.pages ∧ SameMemory s (s.poisonLoad x) := by
  let u : State := { s with
    drt := { s.drt with
      hostWaits := s.drt.hostWaits.filter (· != x), nrAddr := BitVec.ofNat 64 x.dpa, nrTime := s.now } }
  let v : State := u.s2m { ret := .success, poison := true }
  let w : State := (v.count 0x03200140).postEvent x.ld .info
    { code := 1, head := x.ld.head, ld := x.ld.id, ctx := (u.page x.handle).ctx, dpa := x.dpa }
  have hevents : EventOnly v w := (EventOnly.refl v).count.postEvent
  have hnone : w.cxp.bindWaits = [] := (congrArg (fun t : State => t.cxp.bindWaits) hevents :).trans hbinds
  have heq : s.poisonLoad x = w.endBinds := by
    unfold State.poisonLoad
    dsimp only
    rw [hx]
    rfl
  have hresp : w.endBinds.resp = w.resp := by
    unfold State.endBinds
    dsimp only
    rw [hnone]
    rfl
  rw [heq]
  refine ⟨(congrArg Drt.hostWaits hevents.drt :), ?_, (congrArg Drt.nrAddr hevents.drt :), (congrArg Drt.nrTime hevents.drt :),
    hevents.pages, hevents.sameMemory⟩
  rw [hresp, hevents.resp]
  rfl

/-- R216: the hold of a page that ends. -/
theorem State.holdEnds_leaves (h : Nat) (p : Page) : ((s.updPage h fun _ => p).relist h).page h = p ∧
    (∀ k, k ≠ h → ((s.updPage h fun _ => p).relist h).page k = s.page k) ∧ ((s.updPage h fun _ => p).relist h).mem = s.mem :=
  ⟨State.page_setPage_self .., fun _ hk => State.page_setPage_ne _ _ hk, rfl⟩

end

/-! ### Demotions (R200, R202) -/

section
variable {s : State}

/-- R200: a demotion whose record is no longer in the row buffer. -/
theorem State.demoted_written {h : Nat} (hres : (s.page h).res = .demoting) (hlive : s.live = true) (hwarn : s.pkg.powerWarn = false)
    (hrow : ∀ e, e ∈ (s.coal.half.get (pageDie h)).row → e.key ≠ h) :
    (∀ e, (s.coal.half.get (pageDie h)).map.look h = some e → (s.page h).noDemote = false →
      s.demoted h = ((((s.setPage h { s.page h with
        res := .clean, coal := true, coalEpoch := e.epoch }).count 0x03200108).relist h).chunkLoaded h).roomMade (pageDie h)) ∧
    ((s.coal.half.get (pageDie h)).map.look h = none →
      s.demoted h = ((s.setPage h { s.page h with res := .hot }).relist h).roomMade (pageDie h)) := by
  have hout : (s.coal.half.get (pageDie h)).row.any (fun e => e.key == h && !e.gone) = false := by
    simpa using fun e he hkey => absurd hkey (hrow e he)
  unfold State.demoted
  dsimp only
  rw [if_neg (by rw [hres, hlive, hwarn]; decide), hout, if_neg Bool.false_ne_true]
  refine ⟨fun e he hno => ?_, fun he => ?_⟩
  · rw [he]
    dsimp only
    rw [hno]
    rfl
  · rw [he]
    rfl

theorem State.salted_keeps {γ : Type} (get : State → γ) (hg : ∀ s x, get { s with sec := x } = get s) (s : State) (es : List RowEnt) :
    get (s.salted es).2 = get s := by
  induction es with
  | nil => rfl
  | cons e es ih =>
    unfold State.salted at ih ⊢
    rw [List.foldr_cons]
    dsimp only
    split
    · exact ih
    · exact (hg ..).trans ih

/-- R241: what a write of records changes is the Coal store and the salts. -/
theorem State.coalWrite_leaves {d : Side} {es : List RowEnt} {b : Bool} {t : State} (h : s.coalWrite d es = (b, t)) :
    t.seqs = s.seqs ∧ t.mem = s.mem := by
  unfold State.coalWrite at h
  split at h
  · split at h
    next hstore =>
      cases h
      obtain ⟨x, -, rfl⟩ := Option.map_eq_some_iff.mp hstore
      exact ⟨(State.newHalf_seqs ..).trans (State.salted_keeps State.seqs (fun _ _ => rfl) s es),
        (State.newHalf_mem ..).trans (State.salted_keeps State.mem (fun _ _ => rfl) s es)⟩
    · cases h
      exact ⟨rfl, rfl⟩
  · cases h
    split
    · unfold State.setFull
      dsimp only
      split <;> exact ⟨rfl, rfl⟩
    · exact ⟨rfl, rfl⟩

/-- R202: the tables of a sequence that leave. -/
theorem State.demoteTables_writes {k : Nat} (hrun : s.running = true) (hmay : s.tablesMayLeave k = true) (hen : s.coal.en = true)
    (hready : (s.coal.half.get (seqHome k)).ready = true) (hro : s.coal.readOnly = false) (hdem : s.demotionsRun (seqHome k) = true)
    {kib n : Nat} (hkib : kib = s.tableKib (s.seq k) + ceilDiv (32 * s.awayHandles (s.seq k)) 1024)
    (hn : n = (s.coal.half.get (seqHome k)).newTable (tableChunks kib) false) {b : Bool} {s1 : State}
    (hwrite : s.coalWrite (seqHome k) (tableEnts (seqHome k) n kib (s.ctx (s.seq k).ctx).present false (s.seq k).ctx) = (b, s1)) :
    if b = true then
      (s.demoteTables k).seq k = { s.seq k with dirCold := true, tableRec := some (n, tableChunks kib) } ∧
        (∀ m, m ≠ k → (s.demoteTables k).seq m = s.seq m) ∧ (s.demoteTables k).mem = s.mem
    else s.demoteTables k = s1 := by
  obtain ⟨hseqs, hmem⟩ := State.coalWrite_leaves hwrite
  subst hkib hn
  have hgo : ¬(!s.running || !s.tablesMayLeave k || !s.coal.en || !(s.coal.half.get (seqHome k)).ready || s.coal.readOnly ||
      !s.demotionsRun (seqHome k)) = true := by
    rw [hrun, hmay, hen, hready, hro, hdem]
    decide
  unfold State.demoteTables
  dsimp only
  rw [if_neg hgo, hwrite]
  cases b with
  | false => rfl
  | true =>
    dsimp only
    rw [if_pos rfl]
    refine ⟨?_, fun m hm => ?_, ?_⟩
    · show State.seq (State.count _ _ _) k = _
      rw [State.count_seq]
      exact State.seq_setSeq_self ..
    · show State.seq (State.count _ _ _) m = _
      rw [State.count_seq]
      exact (State.seq_setSeq_ne _ _ hm).trans (congrArg (fun l : Tbl Seq => l.lookD m {}) hseqs)
    · show State.mem (State.count _ _ _) = _
      rw [State.count_mem]
      exact hmem

end

/-! ### Orphan rows (R118) -/

/-- R118: the sweep of a bucket withdraws rows; it moves on its die. -/
theorem State.sweepBucket_at (s : State) (d : Side) :
    (s.sweepBucket d).dom.sweepAt = s.dom.sweepAt.set d ((s.dom.sweepAt.get d + 1) % 2 ^ 24) := by
  have hkept : ∀ f : State → Nat → State, (∀ t i, PagesOnly s t → PagesOnly s (f t i)) →
      ((List.range 8).foldl f s).dom.sweepAt = s.dom.sweepAt := fun f hf =>
    (congrArg Dom.sweepAt (PagesOnly.foldl (l := List.range 8) (.refl s) hf).dom :)
  unfold State.sweepBucket
  dsimp only
  rw [hkept _ fun t i hk => .ite hk.withdrawRow hk]

theorem State.sweepTick_at (s : State) (hen : s.dom.sweepEn = true) (hrun : s.running = true) (d : Side) :
    s.sweepTick.dom.sweepAt.get d = (s.dom.sweepAt.get d + 1) % 2 ^ 24 := by
  unfold State.sweepTick
  rw [hen, hrun, Bool.and_self, if_pos rfl, State.sweepBucket_at, State.sweepBucket_at]
  cases d <;> rfl

/-! ### Rows re-inserted (R119) -/

section
variable {s : State}

theorem State.reinsert_idle (h : s.dom.persistLoaded = true ∨ s.dom.dirEn = false ∨ s.sec.persistRoot = none ∨ s.coal.en = false) :
    s.reinsert = s := by
  unfold State.reinsert
  exact if_pos (by obtain h | h | h | h := h <;> rw [h] <;> simp)

theorem State.reinsert_loaded (hload : s.dom.persistLoaded = false) (hdir : s.dom.dirEn = true) (hroot : s.sec.persistRoot ≠ none)
    (hrun : s.running = true) (hen : s.coal.en = true) (hw : s.coal.half.w.ready = true) (he : s.coal.half.e.ready = true) :
    s.reinsert.dom.persistLoaded = true := by
  unfold State.reinsert
  rw [if_neg (by rw [hload, hdir, hrun, hen, hw, he]; simpa using hroot)]

end

/-- Settles O54: promotions, demotions, bounds, holds, tables and sweeps. -/
theorem residencyMoves : Obligations.ResidencyMoves := by
  unfold Obligations.ResidencyMoves
  intro s
  refine ⟨fun d r hrun hen hready hroom hnext => ⟨fun hh => ⟨?_, fun hcold f s1 hgot => ?_⟩, fun hh => ⟨?_, ?_⟩⟩, ?_, ?_, ?_, ?_, ?_,
    ?_, ?_, ?_, ?_, ?_, ?_, ?_⟩
  · exact congrArg Host.Outcome.next ((State.issuePromotion_issues hrun hen hready hroom hnext).trans (if_pos hh))
  · exact State.startPromotion_got hcold hgot
  · exact congrArg Host.Outcome.next ((State.issuePromotion_issues hrun hen hready hroom hnext).trans (if_neg (Nat.not_lt.mpr hh)))
  · exact State.startTables_reqs s d r
  · intro h read authOk r hh hfind hlive hwarn hres hlocs m s1 s2
    have hdone : exec (.promotionComplete h read authOk) s = .next ((s.promotePage h r read authOk).settle (pageDie h)) :=
      congrArg Host.Outcome.next (State.promotionDone_page hh hfind hlive hwarn)
    have hread := State.promotePage_read (authOk := authOk) hres hlocs (m := m) rfl (s1 := s1) rfl
    refine ⟨fun hm htag hcrc => ?_, fun hm => ?_, fun hm hbad => ?_⟩
    · rw [hdone, hread, if_neg hm, if_pos ⟨htag, hcrc⟩]
    · rw [hdone, hread, if_pos hm]
    · rw [hdone, hread, if_neg hm, if_neg (by rintro ⟨htag, hcrc⟩; simp [htag, hcrc] at hbad)]
  · intro a r w h hr hstate hw
    have hexpiry := State.boundExpiry_instr (h := h) hr hstate hw
    exact ⟨fun hdue => congrArg Host.Outcome.next (hexpiry.trans (if_pos (by simpa using hdue))),
      fun hdue => congrArg Host.Outcome.next (hexpiry.trans (if_neg (by simpa using hdue)))⟩
  · intro ld a h x hx hkept hbinds
    have hexpiry := State.boundExpiry_load hx
    refine ⟨fun hdue => ⟨_, congrArg Host.Outcome.next (hexpiry.trans (if_pos hdue)), ?_⟩,
      fun hdue => congrArg Host.Outcome.next (hexpiry.trans (if_neg (Nat.not_le.mpr hdue)))⟩
    have hcount := (EventOnly.refl s).count (o := 0x03200138) (n := 1)
    obtain ⟨hwaits, hpoison, haddr, htime, hpages, hmem⟩ :=
      State.poisonLoad_leaves (s := s.count 0x03200138) hkept ((congrArg Cxp.bindWaits (State.count_cxp ..) :).trans hbinds)
    rw [hcount.drt] at hwaits
    exact ⟨hwaits, hpoison, haddr, htime.trans hcount.now, hpages.trans hcount.pages, fun y => (hmem y).trans (hcount.sameMemory y)⟩
  · intro h t0 hstaged hlive
    refine ⟨fun hdue => ⟨_, ?_, State.holdEnds_leaves h { s.page h with staged := none, promotePending := false }⟩, fun hdue => ?_⟩
    · show execStageHoldExpiry h s = _
      unfold execStageHoldExpiry
      rw [hstaged]
      exact congrArg Host.Outcome.next (if_pos (by rw [hlive]; simpa using hdue))
    · show execStageHoldExpiry h s = _
      unfold execStageHoldExpiry
      rw [hstaged]
      exact congrArg Host.Outcome.next (if_neg (by rw [hlive]; simpa using hdue))
  · intro d hrun
    refine ⟨fun hlow hrec => ?_, fun hlow => ?_⟩
    · exact congrArg Host.Outcome.next (if_pos (by rw [hlow, hrec]; simp))
    · exact congrArg Host.Outcome.next (if_neg (by rw [hrun]; obtain h | h := hlow <;> simp [h]))
  · intro h hres hlive hwarn hrow
    obtain ⟨hmapped, hrefused⟩ := State.demoted_written hres hlive hwarn hrow
    exact ⟨fun e he hno => congrArg Host.Outcome.next (hmapped e he hno), fun he => congrArg Host.Outcome.next (hrefused he)⟩
  · intro k
    refine ⟨fun hmay => ?_, fun hrun hmay hen hready hro hdem => ?_⟩
    · exact congrArg Host.Outcome.next (if_pos (by rw [hmay]; simp))
    · intro kib n s1
      refine ⟨fun hwrite => ?_, fun hwrite => ?_⟩
      · exact ⟨_, rfl, State.demoteTables_writes hrun hmay hen hready hro hdem rfl rfl hwrite⟩
      · exact congrArg Host.Outcome.next (State.demoteTables_writes hrun hmay hen hready hro hdem rfl rfl hwrite)
  · intro d
    refine ⟨fun hnone => ?_, fun hlive hwarn hfailed h hs hhurt => ?_⟩
    · exact congrArg Host.Outcome.next (if_pos (by rw [hnone]; simp))
    · have hsweep : s.stackSweep d = s.sweepHurt h := by
        unfold State.stackSweep
        rw [if_neg (by rw [hlive, hwarn]; simpa using hfailed), hhurt]
      exact congrArg Host.Outcome.next hsweep
  · intro hoff
    exact congrArg Host.Outcome.next (if_neg (by rw [hoff, Bool.false_and]; decide))
  · intro hen hrun
    exact ⟨_, rfl, State.sweepTick_at s hen hrun⟩
  · intro hidle
    exact congrArg Host.Outcome.next (State.reinsert_idle hidle)
  · intro hload hdir hroot hrun hen hw he
    exact ⟨_, rfl, State.reinsert_loaded hload hdir hroot hrun hen hw he⟩

end Machine
end Sys2Proof
end

section
/-! PROOFS. Coal store media: rows programmed, superblocks reclaimed and erased, checkpoints, patrol, LUN failures. -/

namespace Sys2Proof
namespace Machine

/-! ### What the log, the leaves and the superblocks leave of a half -/

/-- R249: a half without its log. -/
def Half.unlogged (h : Half) : Half := { h with log := [], logBuf := [], programmed := 0 }

theorem Half.addLog_unlogged (h : Half) (r : MapLog) : (h.addLog r).unlogged = h.unlogged := by
  unfold Half.addLog
  dsimp only
  split <;> rfl

/-- R200, R245, R263: the row buffer, the map and the counts of retired blocks of a half. -/
def Half.lasting (h : Half) : List RowEnt × Tbl MapEnt × List Nat := (h.row, h.map, h.retired)

theorem Half.lasting_of_unlogged {g h : Half} (e : g.unlogged = h.unlogged) : g.lasting = h.lasting :=
  (congrArg Half.lasting e :)

theorem Half.addLog_lasting (h : Half) (r : MapLog) : (h.addLog r).lasting = h.lasting := Half.lasting_of_unlogged (h.addLog_unlogged r)

theorem Half.sb_of_unlogged {g h : Half} (e : g.unlogged = h.unlogged) (k : Nat) : g.sb k = h.sb k :=
  (congrArg (Half.sb · k) e :)

theorem Half.sb_setSb (h : Half) (k j : Nat) (b : Superblock) : (h.setSb k b).sb j = if j = k then b else h.sb j :=
  Tbl.lookD_put ..

theorem Half.sb_closeSb (h : Half) (k j : Nat) :
    (h.closeSb k).sb j = if j = k then { h.sb k with state := .closed } else h.sb j :=
  (Half.sb_of_unlogged (Half.addLog_unlogged ..) j).trans (Half.sb_setSb ..)

theorem Half.closeSb_lasting (h : Half) (k : Nat) : (h.closeSb k).lasting = h.lasting :=
  Half.addLog_lasting (h.setSb k { h.sb k with state := .closed }) _

/-- R240: a superblock opened for a row leaves the row buffer, the map and the retired blocks. -/
theorem Coal.openSb_lasting {c : Coal} {h g : Half} {copies : Bool} {k : Nat} (ho : c.openSb h copies = some (k, g)) :
    g.lasting = h.lasting := by
  unfold Coal.openSb at ho
  split at ho
  · cases ho
    rfl
  · split at ho
    · cases ho
    · dsimp only at ho
      split at ho
      · cases ho
      · cases ho
        exact Half.addLog_lasting ..

theorem Coal.nextRow_lasting {c : Coal} {h g : Half} {copies : Bool} {es row : List RowEnt} {k : Nat}
    (hn : c.nextRow h copies es = some (k, g, row)) : g.lasting = h.lasting := by
  unfold Coal.nextRow at hn
  split at hn
  · cases hn
  next ho =>
    split at hn
    · cases hn
    · cases hn
      exact Coal.openSb_lasting ho

/-! ### Rows (R237, R240) -/

theorem Half.mapPut_map (h : Half) (key : Nat) (e : MapEnt) : (h.mapPut key e).map = h.map.put key e := by
  have hleaf : (h.useLeaf (leafOf key)).map = h.map := (congrArg (·.2.2.2.1) (h.useLeaf_mapped (leafOf key)) :)
  have hlog : (h.mapPut key e).map = (h.useLeaf (leafOf key)).map.put key e :=
    (congrArg Half.map (Half.addLog_unlogged ({ h.useLeaf (leafOf key) with
      map := (h.useLeaf (leafOf key)).map.put key e
      leaves := (h.useLeaf (leafOf key)).leaves.upd (leafOf key) {} (fun x => { x with dirty := true }) }) _) :)
  rw [hlog, hleaf]

/-- R237: records of a row that are mapped stay mapped, and the ones that are wanted are. -/
theorem placeRecs_maps (k : Nat) : ∀ (row : List RowEnt) (off : Nat) (h : Half),
    (∀ key, (h.map.look key).isSome = true → ((placeRecs k row off h).map.look key).isSome = true) ∧
    (∀ e, e ∈ row → e.from_ = none → e.gone = false → ((placeRecs k row off h).map.look e.key).isSome = true)
  | [], _, _ => ⟨fun _ hkey => hkey, fun _ he => absurd he List.not_mem_nil⟩
  | e :: r, off, h => by
    let m : MapEnt := { persist := e.persist, epoch := e.epoch, sb := k, off := off, kib := e.kib, ctx := e.ctx, salt := e.salt }
    let g : Half := if h.wants e then h.mapPut e.key m else h
    have hkept : ∀ key, (h.map.look key).isSome = true → (g.map.look key).isSome = true := by
      intro key hkey
      show ((if h.wants e then h.mapPut e.key m else h).map.look key).isSome = true
      split
      · rw [Half.mapPut_map, Tbl.look_put]
        split
        · rfl
        · exact hkey
      · exact hkey
    obtain ⟨hstay, hmapped⟩ := placeRecs_maps k r (off + e.kib) g
    refine ⟨fun key hkey => hstay key (hkept key hkey), fun x hx hfrom hgone => ?_⟩
    obtain rfl | hx := List.mem_cons.mp hx
    · refine hstay _ ?_
      have hwants : h.wants x = true := by
        unfold Half.wants
        rw [hgone, hfrom]
        rfl
      show ((if h.wants x then h.mapPut x.key m else h).map.look x.key).isSome = true
      rw [if_pos hwants, Half.mapPut_map, Tbl.look_put_self]
      rfl
    · exact hmapped x hx hfrom hgone

theorem Coal.writeRow_maps (c : Coal) (k : Nat) (row : List RowEnt) (h : Half) {e : RowEnt} (he : e ∈ row) (hfrom : e.from_ = none)
    (hgone : e.gone = false) : ((c.writeRow k row h).map.look e.key).isSome = true := by
  unfold Coal.writeRow
  dsimp only
  split
  · have hclosed : ∀ g : Half, (g.closeSb k).map = g.map := fun g => (congrArg (·.2.1) (g.closeSb_lasting k) :)
    rw [hclosed]
    exact (placeRecs_maps k row _ _).2 e he hfrom hgone
  · exact (placeRecs_maps k row _ _).2 e he hfrom hgone

/-! ### What the part keeps while the Coal store works -/

/-- The part without the Coal store and the counters. -/
def State.offCoal (s : State) : State := { s with coal := {}, tel := {} }

theorem State.of_offCoal {s t : State} (h : t.offCoal = s.offCoal) : { t with coal := s.coal, tel := s.tel } = s :=
  (congrArg (fun u : State => { u with coal := s.coal, tel := s.tel }) h :)

theorem State.count_offCoal (s : State) (o n : Nat) : (s.count o n).offCoal = s.offCoal := by
  unfold State.count
  split <;> rfl

theorem State.newHalf_offCoal (s : State) (d : Side) (x : Half) : (s.newHalf d x).offCoal = s.offCoal := by
  unfold State.newHalf
  dsimp only
  split
  · rfl
  · exact State.count_offCoal ..

theorem State.settle_offCoal (s : State) (d : Side) : (s.settle d).offCoal = s.offCoal := by
  unfold State.settle
  dsimp only
  split <;> rfl

theorem State.newHalf_get (s : State) (d : Side) (x : Half) : (s.newHalf d x).coal.half.get d = { x with leafMiss := 0 } := by
  have hset : (s.setHalf d { x with leafMiss := 0 }).coal.half.get d = { x with leafMiss := 0 } := Two.get_set_self ..
  unfold State.newHalf
  dsimp only
  split
  · exact hset
  · rw [State.count_coal]
    exact hset

/-- R522: a half as it settles, but for its readiness. -/
theorem State.settle_get (s : State) (d : Side) :
    { (s.settle d).coal.half.get d with ready := false } = { s.coal.half.get d with ready := false } := by
  unfold State.settle
  dsimp only
  split
  · rw [show (s.setHalf d { s.coal.half.get d with ready := false }).coal.half.get d = { s.coal.half.get d with ready := false } from
      Two.get_set_self ..]
  · rfl

theorem State.settle_enabled {s : State} (d : Side) (hen : s.coal.en = true) : s.settle d = s := by
  unfold State.settle
  exact if_neg (by rw [hen]; simp)

section
variable {s : State} {d : Side} {ch k : Nat} {h : Half} {row : List RowEnt} (hruns : s.rowRuns d = true)
  (hnext : s.coal.nextRow (s.coal.half.get d) false (s.coal.half.get d).row = some (k, h, row))
include hruns hnext

/-- R237, R253: a row that is programmed. -/
theorem State.rowDone_written : ∃ u : State, s.rowDone d true ch = u.settle d ∧
    u.coal.half.get d = { s.coal.writeRow k row { h with row := h.row.drop row.length, programming := false } with leafMiss := 0 } ∧
    u.coal.en = s.coal.en ∧ u.offCoal = s.offCoal := by
  let x := s.coal.writeRow k row { h with row := h.row.drop row.length, programming := false }
  let u := s.newHalf d x
  let v : State := { u with coal := { u.coal with health := { u.coal.health with
    demoted := u.coal.health.demoted + row.foldl (fun n e => n + 1024 * e.kib) 0 } } }
  refine ⟨v.count 0x03300108 row.length, ?_, ?_, ?_, ?_⟩
  · unfold State.rowDone
    dsimp only
    rw [if_neg (by rw [hruns]; decide), hnext]
    exact if_pos rfl
  · rw [State.count_coal]
    exact State.newHalf_get s d x
  · rw [State.count_coal]
    show u.coal.en = s.coal.en
    show (s.newHalf d x).coal.en = s.coal.en
    unfold State.newHalf
    dsimp only
    split
    · rfl
    · rw [State.count_coal]
      rfl
  · exact (State.count_offCoal ..).trans (State.newHalf_offCoal s d x)

theorem State.rowDone_failed :
    s.rowDone d false ch = (s.setHalf d (({ h with programming := false } : Half).closeSb k)).retireMember d k (ch % 16) := by
  unfold State.rowDone
  dsimp only
  rw [if_neg (by rw [hruns]; decide), hnext]
  exact if_neg Bool.false_ne_true

end

theorem EventOnly.coal {s t : State} (h : EventOnly s t) : t.coal = s.coal := (congrArg State.coal h :)

/-! ### LUNs and blocks that leave service (R260, R262) -/

/-- R262: what a LUN that leaves service leaves of every half: its row buffer, map and retired blocks. -/
theorem State.lunOut_lasting (s : State) (ch lun : Nat) (d : Side) :
    ((s.lunOut ch lun).coal.half.get d).lasting = (s.coal.half.get d).lasting := by
  have hclosed : ∀ (l : List Nat) (h : Half), (l.foldl Half.closeSb h).lasting = h.lasting := fun l h =>
    Half.foldl_keeps Half.lasting Half.closeSb Half.closeSb_lasting l h
  unfold State.lunOut
  extract_lets e c h left on h1 filling h2 h3 fault
  split
  · rfl
  · have hlasting : h3.lasting = h.lasting := hclosed filling h1
    have hmap : (s.coal.half.set e h3).map Half.lasting = s.coal.half.map Half.lasting :=
      Two.map_set_same s.coal.half e h3 Half.lasting hlasting
    have hget : ((s.coal.half.set e h3).map Half.lasting).get d = (s.coal.half.map Half.lasting).get d :=
      congrArg (Two.get · d) hmap
    rwa [Two.get_map, Two.get_map] at hget

theorem Half.closeSb_closed {h : Half} {j k : Nat} (hk : (h.sb k).state = .closed) : ((h.closeSb j).sb k).state = .closed := by
  rw [Half.sb_closeSb]
  split
  · rfl
  · exact hk

theorem sbState_mapVals {f : Nat → Superblock → Superblock} (hf : ∀ i b, (f i b).state = b.state) (l : Tbl Superblock) (k : Nat) :
    ((l.mapVals f).lookD k {}).state = (l.lookD k {}).state := by
  unfold Tbl.lookD
  rw [Tbl.look_mapVals]
  cases l.look k with
  | none => rfl
  | some b => exact hf k b

/-- R262: superblocks that are closed stay closed when a LUN leaves service. -/
theorem State.lunOut_closed {s : State} {ch lun k : Nat} {d : Side} (hk : ((s.coal.half.get d).sb k).state = .closed) :
    (((s.lunOut ch lun).coal.half.get d).sb k).state = .closed := by
  have hclosed : ∀ (l : List Nat) (h : Half), (h.sb k).state = .closed → ((l.foldl Half.closeSb h).sb k).state = .closed := by
    intro l
    induction l with
    | nil => exact fun _ hh => hh
    | cons j js ih => exact fun h hh => ih _ (Half.closeSb_closed hh)
  unfold State.lunOut
  extract_lets e c h left on h1 filling h2 h3 fault
  split
  · exact hk
  · by_cases hd : d = e
    · subst hd
      have hget : (({ s with coal := { s.coal with
          chFault := s.coal.chFault ||| fault
          health := { s.coal.health with failedLuns := s.coal.health.failedLuns + 1 } } } : State).setHalf e h3).coal.half.get e = h3 :=
        Two.get_set_self ..
      rw [hget]
      refine hclosed filling h1 ?_
      have hstate : ∀ (i : Nat) (b : Superblock),
          (if on b && b.state != .free then { b with relocate := b.state != .erasing } else b).state = b.state := by
        intro i b
        split <;> rfl
      refine Eq.trans ?_ hk
      exact sbState_mapVals hstate _ k
    · have hget : (({ s with coal := { s.coal with
          chFault := s.coal.chFault ||| fault
          health := { s.coal.health with failedLuns := s.coal.health.failedLuns + 1 } } } : State).setHalf e h3).coal.half.get d =
          s.coal.half.get d := Two.get_set_ne _ _ hd
      rw [hget]
      exact hk

/-- R262: what the failure of a LUN makes of the Coal store and the memory. -/
theorem State.lunFail_leaves (s : State) (ch lun : Nat) : (s.lunFail ch lun).mem = s.mem ∧
    ∃ r : State, r.coal = s.coal ∧ ((s.lunFail ch lun).coal = r.coal ∨ (s.lunFail ch lun).coal = (r.lunOut ch lun).coal) := by
  have hout : ∀ r : State, (r.lunOut ch lun).mem = r.mem := by
    intro r
    unfold State.lunOut
    dsimp only
    split <;> rfl
  unfold State.lunFail
  split
  · exact ⟨rfl, s, rfl, .inl rfl⟩
  · unfold State.fault
    split
    · exact ⟨rfl, s, rfl, .inl rfl⟩
    · split
      · have hevents := s.report_events 11 (sideOf (ch / 16)) (ch % 16)
        exact ⟨hevents.mem, s, rfl, .inl hevents.coal⟩
      · have hevents := s.report_events (kindCode .nandDie) (sideOf (ch / 16)) (ch % 16)
        exact ⟨(hout _).trans hevents.mem, _, hevents.coal, .inr rfl⟩

theorem State.lunFail_lasting (s : State) (ch lun : Nat) (d : Side) :
    ((s.lunFail ch lun).coal.half.get d).lasting = (s.coal.half.get d).lasting := by
  obtain ⟨-, r, hr, hsame | hout⟩ := s.lunFail_leaves ch lun
  · rw [hsame, hr]
  · rw [hout, State.lunOut_lasting, hr]

theorem State.lunFail_closed {s : State} {ch lun k : Nat} {d : Side} (hk : ((s.coal.half.get d).sb k).state = .closed) :
    (((s.lunFail ch lun).coal.half.get d).sb k).state = .closed := by
  obtain ⟨-, r, hr, hsame | hout⟩ := s.lunFail_leaves ch lun
  · rw [hsame, hr]
    exact hk
  · rw [hout]
    exact State.lunOut_closed (by rw [hr]; exact hk)

/-- R260, R263: what a block that is retired leaves. -/
theorem State.retireBlock_leaves (s : State) (d : Side) (ch lun block : Nat) : (s.retireBlock d ch lun block).mem = s.mem ∧
    ((s.retireBlock d ch lun block).coal.half.get d).lasting = ((s.coal.half.get d).row, (s.coal.half.get d).map,
      (s.coal.half.get d).retired.set ch ((s.coal.half.get d).retired.getD ch 0 + 1)) ∧
    ((s.retireBlock d ch lun block).coal.half.get d).sbs = (s.coal.half.get d).sbs := by
  unfold State.retireBlock
  extract_lets h n h'
  generalize hu : State.setHalf _ d h' = u
  have hget : u.coal.half.get d = h' := by
    rw [← hu]
    exact Two.get_set_self ..
  have hmem : u.mem = s.mem := by
    rw [← hu]
    rfl
  have hlog : h'.unlogged = ({ h with
    spare := h.spare.set ch (n - 1), retired := h.retired.set ch (h.retired.getD ch 0 + 1)
    capLoss := if n = 0 then h.capLoss + 1 else h.capLoss
    worn := h.worn ++ [(ch, lun, block)]
    retireTimes := h.retireTimes ++ [(ch, lun, s.now.toNat)] } : Half).unlogged := Half.addLog_unlogged ..
  obtain ⟨b, hfull⟩ := State.fullCheck_leaves u d
  have hget' : (u.fullCheck d).coal.half.get d = { h' with full := b } := by
    rw [hfull, ← hget]
    exact Two.get_set_self ..
  rw [hget']
  refine ⟨?_, Half.lasting_of_unlogged hlog, (congrArg Half.sbs hlog :)⟩
  rw [hfull]
  exact hmem

/-- R260, R262: what a member block that is retired leaves: the row buffer, the map, the memory, and closed superblocks. -/
theorem State.retireMember_leaves (s : State) (d : Side) (k ch : Nat) : (s.retireMember d k ch).mem = s.mem ∧
    ((s.retireMember d k ch).coal.half.get d).row = (s.coal.half.get d).row ∧
    ((s.retireMember d k ch).coal.half.get d).map = (s.coal.half.get d).map ∧
    (∀ j, ((s.coal.half.get d).sb j).state = .closed → (((s.retireMember d k ch).coal.half.get d).sb j).state = .closed) ∧
    ((∃ m, m ∈ ((s.coal.half.get d).sb k).members ∧ m.1 = ch) → ((s.retireMember d k ch).coal.half.get d).retired =
      (s.coal.half.get d).retired.set ch ((s.coal.half.get d).retired.getD ch 0 + 1)) := by
  unfold State.retireMember
  split
  next hnone =>
    refine ⟨rfl, rfl, rfl, fun _ hj => hj, fun ⟨m, hm, hch⟩ => absurd hch ?_⟩
    simpa using List.find?_eq_none.mp hnone m hm
  next lun block _ =>
    obtain ⟨hmem, hlasting, hsbs⟩ := s.retireBlock_leaves d ch lun block
    have hclosed : ∀ j, ((s.coal.half.get d).sb j).state = .closed →
        (((s.retireBlock d ch lun block).coal.half.get d).sb j).state = .closed := by
      intro j hj
      unfold Half.sb at hj ⊢
      rw [hsbs]
      exact hj
    dsimp only
    split
    · have hfail := hlasting ▸ (s.retireBlock d ch lun block).lunFail_lasting (16 * d.num + ch) lun d
      refine ⟨(State.lunFail_leaves ..).1.trans hmem, (congrArg (·.1) hfail :), (congrArg (·.2.1) hfail :),
        fun j hj => State.lunFail_closed (hclosed j hj), fun _ => (congrArg (·.2.2) hfail :)⟩
    · exact ⟨hmem, (congrArg (·.1) hlasting :), (congrArg (·.2.1) hlasting :), hclosed, fun _ => (congrArg (·.2.2) hlasting :)⟩

/-! ### Reclaim, erase, checkpoint, patrol -/

section
variable {s : State} {d : Side} {k : Nat}

/-- The part without the Coal store, the counters and the media's random choices. -/
def State.offMedia (s : State) : State := { s with coal := {}, tel := {}, fresh := 0 }

theorem State.of_offMedia {s t : State} (h : t.offMedia = s.offMedia) : { t with coal := s.coal, tel := s.tel, fresh := s.fresh } = s :=
  (congrArg (fun u : State => { u with coal := s.coal, tel := s.tel, fresh := s.fresh }) h :)

theorem State.offMedia_of_offCoal {s t : State} (h : t.offCoal = s.offCoal) : t.offMedia = s.offMedia :=
  (congrArg State.offMedia h :)

theorem State.readSb_offMedia (s : State) (d : Side) (k : Nat) (chs : List (Nat × Nat)) : (s.readSb d k chs).offMedia = s.offMedia := by
  unfold State.readSb
  dsimp only
  split <;> rfl

theorem State.countRead_offMedia (s : State) (read : MediaRead) (n bytes : Nat) :
    (s.countRead read n bytes).offMedia = s.offMedia := by
  unfold State.countRead
  extract_lets
  split
  extract_lets
  show ((State.count _ _ _).count _ _).offMedia = _
  rw [State.offMedia_of_offCoal (State.count_offCoal ..), State.offMedia_of_offCoal (State.count_offCoal ..)]
  rfl

theorem State.readRecords_offMedia (s : State) (d : Side) (es : List MapEnt) (read : MediaRead) :
    (s.readRecords d es read).offMedia = s.offMedia := by
  have hread : (((List.range es.length).zip es).foldl
      (fun t x => t.readSb d x.2.sb ((s.coal.half.get d).readsOf t.fresh x.1 read x.2)) s).offMedia = s.offMedia :=
    foldl_keeps State.offMedia _ (fun t x => State.readSb_offMedia ..) _ s
  unfold State.readRecords
  dsimp only
  rw [State.countRead_offMedia]
  split
  · exact hread
  · exact (State.offMedia_of_offCoal (State.count_offCoal ..)).trans hread

/-- R241: rows that are copies draw no salts. -/
theorem State.salted_copies (s : State) {es : List RowEnt} (hes : ∀ e, e ∈ es → e.from_.isSome = true) : s.salted es = (es, s) := by
  induction es with
  | nil => rfl
  | cons e es ih =>
    have ih := ih fun x hx => hes x (List.mem_cons_of_mem _ hx)
    unfold State.salted at ih ⊢
    rw [List.foldr_cons, ih]
    exact if_pos (by rw [hes e List.mem_cons_self, Bool.true_or])

theorem State.coalStore_copies {s t : State} {d : Side} {copies : Bool} {es : List RowEnt} (hes : ∀ e, e ∈ es → e.from_.isSome = true)
    (hstore : s.coalStore d copies es = some t) : t.offCoal = s.offCoal := by
  unfold State.coalStore at hstore
  rw [State.salted_copies s hes] at hstore
  obtain ⟨x, -, rfl⟩ := Option.map_eq_some_iff.mp hstore
  exact State.newHalf_offCoal ..

/-- R255, R257, R258: a victim that is reclaimed. -/
theorem State.reclaim_leaves (hgc : s.coal.gcEn = true) (hen : s.coal.en = true) (hready : (s.coal.half.get d).ready = true)
    (hro : s.coal.readOnly = false) (hwarn : s.pkg.powerWarn = false) (hrun : s.running = true) :
    ((s.gcVictim d).or (s.wearVictim d) = none → s.reclaim d = s) ∧
    (∀ s1, (s.gcVictim d).or (s.wearVictim d) = some k →
      let stuck := (s.coal.half.get d).stuckIn k
      let good := ((s.coal.half.get d).live k).keep (fun i _ => !(stuck.has i))
      (s.readRecords d good.vals ((s.coal.half.get d).readAll .hard good.vals)).coalStore d true (good.map (fun p =>
        ({ key := p.1, kib := p.2.kib, epoch := p.2.epoch, persist := p.2.persist, ctx := p.2.ctx, salt := p.2.salt, from_ := some p.2 } : RowEnt)))
        = some s1 →
      (((s.reclaim d).coal.half.get d).sb k).state = (if stuck = [] then .erasing else .closed) ∧
        (((s.reclaim d).coal.half.get d).sb k).refresh = false ∧ (((s.reclaim d).coal.half.get d).sb k).relocate = false ∧
        ((s.reclaim d).coal.half.get d).map = (s1.coal.half.get d).map ∧
        (s.reclaim d).offMedia = s.offMedia) := by
  have hgo : ¬(!s.coal.gcEn || !s.coal.en || !(s.coal.half.get d).ready || s.coal.readOnly || s.pkg.powerWarn || !s.running) = true := by
    rw [hgc, hen, hready, hro, hwarn, hrun]
    decide
  refine ⟨fun hnone => ?_, ?_⟩
  · unfold State.reclaim
    dsimp only
    rw [if_neg hgo, hnone]
  · intro s1 hvictim stuck good hstore
    have hmedia : s1.offMedia = s.offMedia := by
      refine (State.offMedia_of_offCoal (State.coalStore_copies (fun e he => ?_) hstore)).trans (State.readRecords_offMedia ..)
      obtain ⟨p, -, rfl⟩ := List.mem_map.mp he
      rfl
    let h := s1.coal.half.get d
    let h1 : Half := if stuck.isEmpty then h.programLog.addLog (.erase k) else h
    let b : Superblock := { h1.sb k with
      state := if stuck.isEmpty then .erasing else .closed, firstVictim := false, refresh := false, relocate := false }
    let h2 : Half := (h1.setSb k b).relocated
    have hmap : h2.map = h.map := by
      show (if stuck.isEmpty then h.programLog.addLog (.erase k) else h).map = h.map
      split
      · exact (congrArg Half.map (Half.addLog_unlogged h.programLog (.erase k)) :)
      · rfl
    have hsb : h2.sb k = b := (Half.sb_setSb ..).trans (if_pos rfl)
    let u : State := (s1.setHalf d h2).count 0x03300110 good.length
    have hhalf : u.coal.half.get d = h2 := by
      rw [State.count_coal]
      exact Two.get_set_self ..
    have hu : u.offMedia = s.offMedia := (State.offMedia_of_offCoal (State.count_offCoal ..)).trans hmedia
    have hdo : s.reclaim d = if ((s.coal.half.get d).sb k).refresh then
        { u with coal := { u.coal with health := { u.coal.health with refreshed := u.coal.health.refreshed + 1 } } } else u := by
      unfold State.reclaim
      dsimp only
      rw [if_neg hgo, hvictim]
      dsimp only
      rw [hstore]
      dsimp only
      rw [List.length_map]
    have hstate : (if stuck.isEmpty then SbState.erasing else .closed) = if stuck = [] then .erasing else .closed := by
      simp only [List.isEmpty_iff]
    rw [hdo]
    split
    · refine ⟨?_, ?_, ?_, ?_, hu⟩
      · exact (congrArg Superblock.state ((congrArg (Half.sb · k) hhalf).trans hsb)).trans hstate
      · exact congrArg Superblock.refresh ((congrArg (Half.sb · k) hhalf).trans hsb)
      · exact congrArg Superblock.relocate ((congrArg (Half.sb · k) hhalf).trans hsb)
      · exact (congrArg Half.map hhalf).trans hmap
    · refine ⟨?_, ?_, ?_, ?_, hu⟩
      · exact (congrArg Superblock.state ((congrArg (Half.sb · k) hhalf).trans hsb)).trans hstate
      · exact congrArg Superblock.refresh ((congrArg (Half.sb · k) hhalf).trans hsb)
      · exact congrArg Superblock.relocate ((congrArg (Half.sb · k) hhalf).trans hsb)
      · exact (congrArg Half.map hhalf).trans hmap

/-- R255, R260: a superblock that has been erased. -/
theorem State.eraseDone_leaves {failed : List Nat} (hstate : ((s.coal.half.get d).sb k).state = .erasing)
    (hwarn : s.pkg.powerWarn = false) (hlive : s.live = true) (hreads : s.readsIn d k = false) :
    ((s.eraseDone d k failed).coal.half.get d).sb k = { erases := ((s.coal.half.get d).sb k).erases + 1 } ∧
    ((s.eraseDone d k failed).coal.half.get d).map = (s.coal.half.get d).map ∧
    (failed = [] → (s.eraseDone d k failed).offCoal = s.offCoal) := by
  let b := (s.coal.half.get d).sb k
  let u := s.setHalf d ((s.coal.half.get d).countErase k)
  let v := failed.foldl (fun t ch => t.retireMember d k (ch % 16)) u
  let x : Half := (v.coal.half.get d).setSb k { erases := b.erases + 1 }
  let w := (v.setHalf d x).count 0x03300118
  have hdo : s.eraseDone d k failed = w.settle d := by
    unfold State.eraseDone
    dsimp only
    exact if_neg (by rw [hstate, hwarn, hlive, hreads]; decide)
  have hhalf : w.coal.half.get d = x := by
    rw [State.count_coal]
    exact Two.get_set_self ..
  have hsettled : { (w.settle d).coal.half.get d with ready := false } = { x with ready := false } :=
    (State.settle_get w d).trans (by rw [hhalf])
  have hmap : (v.coal.half.get d).map = (s.coal.half.get d).map := by
    have hkept := foldl_keeps (fun t : State => (t.coal.half.get d).map) (fun t ch => t.retireMember d k (ch % 16))
      (fun t ch => (State.retireMember_leaves t d k (ch % 16)).2.2.1) failed u
    refine hkept.trans ?_
    rw [show u.coal.half.get d = (s.coal.half.get d).countErase k from Two.get_set_self ..]
    rfl
  rw [hdo]
  refine ⟨?_, ?_, fun hnone => ?_⟩
  · have hsb : ((w.settle d).coal.half.get d).sb k = x.sb k := (congrArg (fun h : Half => h.sb k) hsettled :)
    rw [hsb]
    exact (Half.sb_setSb ..).trans (if_pos rfl)
  · have hm : ((w.settle d).coal.half.get d).map = x.map := (congrArg Half.map hsettled :)
    rw [hm]
    exact hmap
  · rw [State.settle_offCoal, State.count_offCoal]
    show v.offCoal = s.offCoal
    rw [show v = u by subst hnone; rfl]
    rfl

theorem sinceCheckpoint_append (l : List MapLog) (a : Nat) : sinceCheckpoint (l ++ [.checkpoint a]) = [] := by
  unfold sinceCheckpoint
  rw [List.foldl_append]
  rfl

/-- R249: a checkpoint. -/
theorem Half.checkpoint_leaves (h : Half) (now : Nat) : (h.checkpoint now).index.map = h.map ∧
    (h.checkpoint now).index.dir = (h.checkpoint now).dir ∧ sinceCheckpoint (h.checkpoint now).log = [] ∧
    (h.checkpoint now).logBuf = [] ∧ (h.checkpoint now).map = h.map := by
  have hmap : (h.leaves.keys.foldl Half.writeLeaf h).map = h.map :=
    (congrArg (·.2.2.2.1) (Half.foldl_keeps Half.mapped Half.writeLeaf Half.writeLeaf_mapped h.leaves.keys h) :)
  unfold Half.checkpoint
  extract_lets written blocks index a logged
  refine ⟨hmap, rfl, ?_, rfl, hmap⟩
  show sinceCheckpoint (sinceCheckpoint written.log ++ (written.logBuf ++ [.checkpoint a])) = []
  rw [← List.append_assoc]
  exact sinceCheckpoint_append ..

/-- R259: a patrol read that is due. -/
theorem State.patrol_reads {read : MediaRead} {weak : Bool} (hpatrol : s.coal.patrolEn = true) (hen : s.coal.en = true)
    (hready : (s.coal.half.get d).ready = true) (hhas : (s.coal.half.get d).sbs.has k = true)
    (hfree : ((s.coal.half.get d).sb k).state ≠ .free) (herasing : ((s.coal.half.get d).sb k).state ≠ .erasing)
    (hwarn : s.pkg.powerWarn = false) (hlive : s.live = true)
    (hdue : s.coal.patrolDue ((s.coal.half.get d).sb k) s.now.toNat = true) :
    (((s.patrol d k read weak).coal.half.get d).sb k).reads = ((((s.coal.half.get d).sb k).members.map (fun m => (m.1, 1))).foldl
      Superblock.read ((s.coal.half.get d).sb k)).reads ∧
    (((s.patrol d k read weak).coal.half.get d).sb k).patrolled = some s.now.toNat ∧
    (read ≠ .hard ∨ weak = true → (((s.patrol d k read weak).coal.half.get d).sb k).refresh = true) ∧
    ((s.patrol d k read weak).coal.half.get d).map = (s.coal.half.get d).map ∧
    (s.patrol d k read weak).offMedia = s.offMedia := by
  let b := (s.coal.half.get d).sb k
  let c := (b.members.map (fun m => (m.1, 1))).foldl Superblock.read b
  let c' : Superblock := { c with refresh := c.refresh || c.reads.any (fun n => decide (1000 * bits s.coal.wear.toNat 32 16 ≤ n)) }
  let u := s.setHalf d ((s.coal.half.get d).setSb k c')
  let v := u.countRead (if read == .uncorrectable then .rebuilt else read) (48 * b.members.length) (196608 * b.members.length)
  have hcount : ∀ (t : State) (r : MediaRead) (n bytes : Nat), (t.countRead r n bytes).coal.half = t.coal.half := by
    intro t r n bytes
    unfold State.countRead
    extract_lets
    split
    extract_lets
    show (State.coal ((State.count _ _ _).count _ _)).half = _
    rw [State.count_coal, State.count_coal]
  have hhalf : v.coal.half.get d = (s.coal.half.get d).setSb k c' :=
    (congrArg (Two.get · d) (hcount ..)).trans (Two.get_set_self ..)
  have hsb : (v.coal.half.get d).sb k = c' := by
    rw [hhalf]
    exact (Half.sb_setSb ..).trans (if_pos rfl)
  let e : Superblock := { c' with patrolled := some s.now.toNat, refresh := c'.refresh || read != .hard || weak }
  have hdo : s.patrol d k read weak = v.setHalf d ((v.coal.half.get d).setSb k e) := by
    have hread : s.readSb d k (b.members.map (fun m => (m.1, 1))) = u := by
      unfold State.readSb
      exact if_pos hhas
    have hnow : v.now = s.now := (congrArg State.now (State.countRead_offMedia u _ _ _) :)
    unfold State.patrol
    dsimp only
    rw [if_neg (by rw [hpatrol, hen, hready, hhas, hwarn, hlive, hdue]; simp [hfree, herasing]), hread]
    show v.setHalf d ((v.coal.half.get d).setSb k { (v.coal.half.get d).sb k with
      patrolled := some v.now.toNat, refresh := ((v.coal.half.get d).sb k).refresh || read != .hard || weak }) = _
    rw [hsb, hnow]
  have hfinal : (s.patrol d k read weak).coal.half.get d = (v.coal.half.get d).setSb k e := by
    rw [hdo]
    exact Two.get_set_self ..
  have hfinalSb : ((s.patrol d k read weak).coal.half.get d).sb k = e := by
    rw [hfinal]
    exact (Half.sb_setSb ..).trans (if_pos rfl)
  rw [hfinalSb]
  refine ⟨rfl, rfl, fun hbad => ?_, ?_, ?_⟩
  · show (c'.refresh || read != .hard || weak) = true
    obtain hbad | hbad := hbad
    · rw [bne_iff_ne.mpr hbad, Bool.or_true, Bool.true_or]
    · rw [hbad, Bool.or_true]
  · rw [hfinal, hhalf]
    rfl
  · rw [hdo]
    exact State.countRead_offMedia u _ _ _

end

/-! ### LUNs that fail (R262) -/

theorem State.lunOut_failed (s : State) {ch : Nat} (lun : Nat) :
    (ch % 16, lun) ∈ ((s.lunOut ch lun).coal.half.get (sideOf (ch / 16))).failedLuns := by
  have hclosed : ∀ (l : List Nat) (h : Half), (l.foldl Half.closeSb h).failedLuns = h.failedLuns := fun l h =>
    Half.foldl_keeps Half.failedLuns Half.closeSb
      (fun h j => (congrArg Half.failedLuns (Half.addLog_unlogged (h.setSb j { h.sb j with state := .closed }) _) :)) l h
  unfold State.lunOut
  extract_lets d c h left on h1 filling h2 h3 fault
  split
  next hin => exact List.contains_iff_mem.mp hin
  · have hget : (({ s with coal := { s.coal with
        chFault := s.coal.chFault ||| fault
        health := { s.coal.health with failedLuns := s.coal.health.failedLuns + 1 } } } : State).setHalf d h3).coal.half.get d = h3 :=
      Two.get_set_self ..
    rw [hget, show h3.failedLuns = h1.failedLuns from hclosed filling h1]
    exact List.mem_append_right _ List.mem_cons_self

theorem State.lunOut_offCoal (s : State) (ch lun : Nat) : (s.lunOut ch lun).offCoal = s.offCoal := by
  unfold State.lunOut
  dsimp only
  split <;> rfl

/-- Settles O55: rows, reclaim, erases, checkpoints, the patrol, and LUNs that fail. -/
theorem coalMediaServed : Obligations.CoalMediaServed := by
  unfold Obligations.CoalMediaServed
  intro s d
  refine ⟨fun ch k h row hruns hnext => ⟨?_, ?_⟩, fun hnone ok ch => ?_, fun hgc hen hready hro hwarn hrun => ⟨fun hnone => ?_, ?_⟩,
    fun k failed hwarn hlive => ⟨fun hstate hreads => ?_, fun hstate hreads => ?_, fun hstate => ?_⟩, fun k failed hwarn => ?_,
    fun hready hwarn hlive hformat => ⟨fun hdue => ?_, fun hearly hshort => ?_⟩,
    fun k read weak hpatrol hen hready hhas hfree herasing hwarn hlive => ⟨fun hdue => ?_, fun hdue => ?_⟩,
    fun ch lun hch hlun hlive hstop hwin => ?_⟩
  · obtain ⟨u, hdo, hhalf, hen, hoff⟩ := State.rowDone_written (ch := ch) hruns hnext
    refine ⟨u.settle d, congrArg Host.Outcome.next hdo, fun hon => ?_, fun e he hfrom hgone => ?_, ?_⟩
    · rw [State.settle_enabled d (hen.trans hon)]
      exact hhalf
    · have hmap : ((u.settle d).coal.half.get d).map = (u.coal.half.get d).map := (congrArg Half.map (State.settle_get u d) :)
      rw [hmap, hhalf]
      exact Coal.writeRow_maps _ _ _ _ he hfrom hgone
    · exact State.of_offCoal ((State.settle_offCoal u d).trans hoff)
  · let g : Half := ({ h with programming := false } : Half).closeSb k
    let u := s.setHalf d g
    have hhalf : u.coal.half.get d = g := Two.get_set_self ..
    have hlasting : g.lasting = (s.coal.half.get d).lasting :=
      (Half.closeSb_lasting ..).trans (Coal.nextRow_lasting hnext :)
    have hsb : g.sb k = { h.sb k with state := .closed } := (Half.sb_closeSb ..).trans (if_pos rfl)
    obtain ⟨hmem, hrow, hmap, hclosed, hretired⟩ := State.retireMember_leaves u d k (ch % 16)
    rw [hhalf] at hrow hmap hclosed hretired
    refine ⟨_, congrArg Host.Outcome.next (State.rowDone_failed hruns hnext), hclosed k (by rw [hsb]),
      hrow.trans (congrArg (·.1) hlasting :), hmap.trans (congrArg (·.2.1) hlasting :), fun ⟨m, hm, hmch⟩ hlen => ?_,
      fun x => congrArg (Mem.byte · x) hmem⟩
    have hcount : g.retired = (s.coal.half.get d).retired := (congrArg (·.2.2) hlasting :)
    rw [hretired ⟨m, by rw [hsb]; exact hm, hmch⟩, hcount]
    have hlt : ch % 16 < (s.coal.half.get d).retired.length := by omega
    simp [List.getD_eq_getElem?_getD, hlt]
  · have hnone' : s.rowDone d ok ch = s := by
      unfold State.rowDone
      dsimp only
      rw [hnone]
      split <;> rfl
    exact congrArg Host.Outcome.next hnone'
  · exact congrArg Host.Outcome.next ((State.reclaim_leaves (k := 0) hgc hen hready hro hwarn hrun).1 hnone)
  · intro k s1 hvictim stuck good hstore
    obtain ⟨hstate, hrefresh, hrelocate, hmap, hoff⟩ := (State.reclaim_leaves hgc hen hready hro hwarn hrun).2 s1 hvictim hstore
    exact ⟨_, rfl, hstate, hrefresh, hrelocate, hmap, State.of_offMedia hoff⟩
  · exact congrArg Host.Outcome.next (if_pos (by rw [hreads]; simp))
  · obtain ⟨hsb, hmap, hoff⟩ := State.eraseDone_leaves (failed := failed) hstate hwarn hlive hreads
    exact ⟨_, rfl, hsb, hmap, fun hnone => State.of_offCoal (hoff hnone)⟩
  · exact congrArg Host.Outcome.next (if_pos (by rw [bne_iff_ne.mpr hstate]; simp))
  · exact congrArg Host.Outcome.next (if_pos (by rw [hwarn]; simp))
  · obtain ⟨hindex, hdir, hlog, hbuf, hmap⟩ := Half.checkpoint_leaves (s.coal.half.get d) s.now.toNat
    have hdo : s.checkpoint d = s.setHalf d ((s.coal.half.get d).checkpoint s.now.toNat) := by
      unfold State.checkpoint
      dsimp only
      rw [if_neg (by rw [hready, hwarn, hlive, hformat]; simp), if_neg (by simp [Nat.not_lt.mpr hdue])]
    refine ⟨_, congrArg Host.Outcome.next hdo, ?_⟩
    rw [show (s.setHalf d ((s.coal.half.get d).checkpoint s.now.toNat)).coal.half.get d =
      (s.coal.half.get d).checkpoint s.now.toNat from Two.get_set_self ..]
    exact ⟨hindex, hdir, hlog, hbuf, hmap, rfl⟩
  · have hdo : s.checkpoint d = s := by
      unfold State.checkpoint
      dsimp only
      rw [if_neg (by rw [hready, hwarn, hlive, hformat]; simp), if_pos (by simp [hearly, hshort])]
    exact congrArg Host.Outcome.next hdo
  · exact congrArg Host.Outcome.next (if_pos (by rw [hdue]; simp))
  · obtain ⟨hreads, hpatrolled, hrefresh, hmap, hoff⟩ :=
      State.patrol_reads (read := read) (weak := weak) hpatrol hen hready hhas hfree herasing hwarn hlive hdue
    exact ⟨_, rfl, hreads, hpatrolled, hrefresh, hmap, State.of_offMedia hoff⟩
  · let recover (t : State) : State := t.lunOut ch lun
    let die := sideOf (ch / 16)
    have hdo : s.lunFail ch lun = s.fault .nandDie die (ch % 16) recover :=
      if_neg (by simp [Nat.not_le.mpr hch, Nat.not_le.mpr hlun])
    have hoff : ∀ t : State, (recover t).offCoal = t.offCoal := fun t => t.lunOut_offCoal ch lun
    obtain ⟨hfault, halert, hwindows⟩ := State.fault_reported hlive hstop hwin (kind := .nandDie) (die := die) (unit := ch % 16)
      (recover := recover) (.of_gbl (congrArg State.gbl (hoff _) :) (congrArg State.now (hoff _) :))
    refine ⟨_, congrArg Host.Outcome.next hdo, ?_, hfault, halert, hwindows,
      State.fault_sameMemory hlive hstop hwin fun t => (congrArg State.mem (hoff t) :)⟩
    rw [State.fault_recovers hlive hstop hwin]
    exact State.lunOut_failed _ lun

end Machine
end Sys2Proof
end

section
/-! PROOFS. What checks that pass take, and what operations on pages leave of the lengths of a sequence's layers (R77, R80). -/

namespace Sys2Proof
namespace Machine

/-! ### Checks that pass (R36, R77) -/

section
variable {j : Job} {s t : State} {k : Snap}

theorem ofErr_good {e : Option (Status × Nat)} {k0 : Snap} (h : Chk.ofErr e s k0 = .good k t) : k = k0 ∧ t = s := by
  unfold Chk.ofErr at h
  split at h
  · cases h
  · cases h
    exact ⟨rfl, rfl⟩

/-- R202: checks of an instruction whose tables are resident. -/
theorem withTables_good {ks : List Nat} {f : State → Chk} (h : s.withTables j ks f = .good k t) : f s = .good k t := by
  unfold State.withTables at h
  split at h
  · cases h
  · cases h
  · exact h

theorem tableChk_good {d : Desc} {f : State → Chk} (h : s.tableChk j d f = .good k t) : f s = .good k t := by
  unfold State.tableChk at h
  dsimp only at h
  split at h
  · exact h
  · exact withTables_good h

theorem tablesChk_good (h : tablesChk j s = .good k t) : k = {} ∧ t = s := by
  unfold tablesChk at h
  split at h
  · exact ofErr_good h
  · have hgood := withTables_good h
    cases hgood
    exact ⟨rfl, rfl⟩

theorem hintChk_good (h : hintChk j s = .good k t) : k = {} ∧ t = s := by
  unfold hintChk at h
  split at h
  · exact ofErr_good h
  · split at h
    · exact ofErr_good h
    · have hgood := withTables_good h
      cases hgood
      exact ⟨rfl, rfl⟩

theorem stageChk_good (h : stageChk j s = .good k t) : k.asked = false ∧ t = s := by
  unfold stageChk at h
  split at h
  · obtain ⟨rfl, rfl⟩ := ofErr_good h
    exact ⟨rfl, rfl⟩
  · have hgood := tableChk_good h
    cases hgood
    exact ⟨rfl, rfl⟩

theorem fetchChk_good (h : fetchChk j s = .good k t) : k = {} ∧ t = s := by
  unfold fetchChk at h
  dsimp only at h
  split at h
  · exact ofErr_good h
  · exact ofErr_good (withTables_good h)

theorem appendChk_good (h : appendChk j s = .good k t) : k = {} ∧ t = s := by
  unfold appendChk at h
  split at h
  · exact ofErr_good h
  · exact ofErr_good (tableChk_good h)

theorem matchChk_good (h : matchChk j s = .good k t) : k = {} ∧ t = s := by
  unfold matchChk at h
  split at h
  · exact ofErr_good h
  · exact ofErr_good (withTables_good h)

end

/-- R32-R50: an instruction whose checks pass and leave the part as it issued. -/
theorem runHob_good {op : Nat} {a : At} {r : JRec} {s s0 : State} {k : Snap} {check : Job → State → Chk} (body : Job → State → Out)
    (h : Runs a r s) (hop : r.inst.opcode = op) (hc : Passes check s r k s0) (hs0 : s0 = issuedAt s r) :
    runHob op a check body s = (settle a (body (jobWith s r k) (passed s0 r k))).markFree :=
  runHob_passed body h hop hc (by rw [hs0]; exact issuedAt_tracked h)

/-! ### The lengths of layers (R80) -/

/-- R80: every layer of every sequence has the LENGTH it had. -/
def LengthsKept (s t : State) : Prop := ∀ k, (t.seq k).layers.map Layer.length = (s.seq k).layers.map Layer.length

theorem layer_length (s : State) (k l : Nat) : (s.layer k l).length = ((s.seq k).layers.map Layer.length).getD l 0 := by
  unfold State.layer
  rw [List.getD_eq_getElem?_getD, List.getD_eq_getElem?_getD, List.getElem?_map]
  cases (s.seq k).layers[l]? <;> rfl

namespace LengthsKept
variable {s0 s t : State}

theorem refl (s : State) : LengthsKept s s := fun _ => rfl

theorem trans (h : LengthsKept s0 s) (h' : LengthsKept s t) : LengthsKept s0 t := fun k => (h' k).trans (h k)

theorem of_seqs (h : t.seqs = s.seqs) : LengthsKept s t := fun k => congrArg (fun l : Tbl Seq => (l.lookD k {}).layers.map Layer.length) h

theorem of_pages (h : PagesOnly s t) : LengthsKept s t := .of_seqs h.seqs

theorem layer (h : LengthsKept s t) (k l : Nat) : (t.layer k l).length = (s.layer k l).length := by
  rw [layer_length, layer_length, h k]

theorem count (h : LengthsKept s t) (k : Nat) : (t.seq k).layers.length = (s.seq k).layers.length := by
  have hlen := congrArg List.length (h k)
  rwa [List.length_map, List.length_map] at hlen

theorem foldl {β : Type} {f : State → β → State} {l : List β} (h : LengthsKept s0 s)
    (hf : ∀ t x, LengthsKept s0 t → LengthsKept s0 (f t x)) : LengthsKept s0 (l.foldl f s) := by
  induction l generalizing s with
  | nil => exact h
  | cons x xs ih => exact ih (hf s x h)

theorem ite {c : Prop} [Decidable c] {a b : State} (ha : LengthsKept s0 a) (hb : LengthsKept s0 b) :
    LengthsKept s0 (if c then a else b) := by
  split
  · exact ha
  · exact hb

variable (hs : LengthsKept s0 s)
include hs

theorem setSeq {k : Nat} {q : Seq} (hq : q.layers.map Layer.length = (s.seq k).layers.map Layer.length) :
    LengthsKept s0 (s.setSeq k q) := by
  intro k'
  by_cases hk : k' = k
  · subst hk
    rw [State.seq_setSeq_self, hq]
    exact hs k'
  · rw [State.seq_setSeq_ne _ _ hk]
    exact hs k'

theorem setLayer {k l : Nat} {y : Layer} (hy : y.length = (s.layer k l).length) : LengthsKept s0 (s.setLayer k l y) := by
  refine hs.setSeq ?_
  dsimp only
  rw [List.map_set, hy, layer_length]
  refine List.ext_getElem? fun i => ?_
  rw [List.getElem?_set]
  split
  next hi =>
    subst hi
    split
    next hlt => rw [List.getD_eq_getElem?_getD, List.getElem?_eq_getElem hlt]; rfl
    next hge => exact (List.getElem?_eq_none (Nat.not_lt.mp hge)).symm
  · rfl

theorem setPte {k l n : Nat} {e : Pte} : LengthsKept s0 (s.setPte k l n e) := hs.setLayer rfl

theorem walked {k : Nat} : LengthsKept s0 (s.walked k) := hs.setSeq rfl

theorem releaseRef {h : Nat} : LengthsKept s0 (s.releaseRef h) := hs.trans (.of_pages (PagesOnly.refl s).releaseRef)

theorem keep {h : Nat} {up : Bool} : LengthsKept s0 (s.keep h up) := hs.trans (.of_seqs rfl)

theorem dropRef {k l n : Nat} : LengthsKept s0 (s.dropRef k l n) := by
  have hlayer : LengthsKept s0 (s.setLayer k l { s.layer k l with ptes := (s.layer k l).ptes.del ((s.prof k).slot n) }) :=
    hs.setLayer rfl
  unfold State.dropRef
  dsimp only
  exact .ite (.releaseRef (.ite hlayer.keep hlayer)) hlayer

theorem fixOpen {k l : Nat} : LengthsKept s0 (s.fixOpen k l) := hs.setLayer rfl

theorem clearOpen {h : Nat} : LengthsKept s0 (s.clearOpen h) := by
  refine hs.trans fun k => ?_
  have hlens : ∀ q : Seq, (if q.layers.any (fun y => y.openH == h) then
      { q with layers := q.layers.map (fun y => if y.openH == h then { y with openH := 0 } else y) } else q).layers.map Layer.length =
      q.layers.map Layer.length := by
    intro q
    split
    · rw [List.map_map]
      refine List.map_congr_left fun y _ => ?_
      rw [Function.comp_apply]
      split <;> rfl
    · rfl
  unfold State.clearOpen State.seq
  dsimp only
  rw [Tbl.lookD_mapVals_of (e := ({} : Seq)) (d := ({} : Seq))]
  · exact hlens _
  · rfl

end LengthsKept

/-! ### What sealing leaves (R90) -/

section
variable {s : State} {k l n h : Nat}

theorem State.startDemote_seqs (s : State) (h : Nat) : (s.startDemote h).seqs = s.seqs := (PagesOnly.refl s).startDemote.seqs

/-- R90: what `sealPage` makes of the header of a page. -/
def State.sealHeader (s : State) (k h : Nat) (chain : BitVec 64) : State :=
  let t := s.pokeHdr h 0 8 chain.toNat
  let u := t.pokeHdr h 25 3 (t.pgFlags h ||| 1)
  u.pokeHdr h 96 4 (u.frameCrc (s.prof k) h).toNat

/-- R96: the chain of a page that is sealed. -/
def State.sealChain (s : State) (k l n h : Nat) : BitVec 64 :=
  if (s.page h).noIds then 0
  else match s.parentChain k l n with
    | none => 0
    | some c => chainOf c (s.peek (viewBase h + 32) 64) (s.prof k).id l

theorem State.sealPage_stays (h' : (s.page h).life ≠ .opened ∨ (s.page h).fill ≠ 16) : s.sealPage k l n h = s := by
  unfold State.sealPage
  exact if_pos (by simpa using h')

/-- R90: a full open page that is sealed, before a demotion of it begins. -/
def State.sealedPage (s : State) (k l n h : Nat) : State :=
  (((s.sealHeader k h (s.sealChain k l n h)).freeFrame (pageDie h) (s.page h).mirror).setPage h
    { s.page h with life := .sealed, mirror := none, chain := s.sealChain k l n h }).clearOpen h

theorem State.sealPage_seals (hlife : (s.page h).life = .opened) (hfill : (s.page h).fill = 16) :
    s.sealPage k l n h = if (s.page h).persistent && decide ((s.sealedPage k l n h).demoting (pageDie h) < 64)
      then (s.sealedPage k l n h).startDemote h else s.sealedPage k l n h := by
  unfold State.sealPage
  exact if_neg (by rw [hlife, hfill]; decide)

theorem cellAt_putBytes_out {x : Nat} : ∀ (bs : List Byte) (a : Nat) (l : List Host.Cell), ¬(a ≤ x ∧ x < a + bs.length) →
    cellAt (putBytes l a bs) x = cellAt l x
  | [], _, _, _ => rfl
  | b :: r, a, l, hx => by
    rw [List.length_cons] at hx
    rw [putBytes, cellAt_putBytes_out r (a + 1) _ (by omega), cellAt_putCell_ne b (by omega)]

/-- R189: bytes outside those that are written stay, in any memory. -/
theorem State.poke_out (s : State) {a x : Nat} {bs : List Byte} (hx : ¬(a ≤ x ∧ x < a + bs.length)) :
    (s.poke a bs).mem.byte x = s.mem.byte x := cellAt_putBytes_out bs a s.mem.cells hx

/-- R70: a field of a page's header lies in its 128 bytes. -/
theorem State.pokeHdr_out (s : State) {h off n v x : Nat} (hin : off + n ≤ 128) (hx : ¬(viewBase h ≤ x ∧ x < viewBase h + 128)) :
    (s.pokeHdr h off n v).mem.byte x = s.mem.byte x := by
  have hlen : (leBytes n v).length = n := by simp [leBytes]
  refine s.poke_out ?_
  rw [hlen]
  omega

theorem State.sealHeader_seqs (s : State) {k h : Nat} (chain : BitVec 64) : (s.sealHeader k h chain).seqs = s.seqs := by
  unfold State.sealHeader State.pokeHdr
  dsimp only
  rw [State.poke_seqs, State.poke_seqs, State.poke_seqs]

theorem State.sealHeader_out (s : State) {k h x : Nat} (chain : BitVec 64) (hx : ¬(viewBase h ≤ x ∧ x < viewBase h + 128)) :
    (s.sealHeader k h chain).mem.byte x = s.mem.byte x := by
  unfold State.sealHeader
  dsimp only
  rw [State.pokeHdr_out _ (by decide) hx, State.pokeHdr_out _ (by decide) hx, State.pokeHdr_out _ (by decide) hx]

theorem State.sealedPage_out (s : State) {k l n h x : Nat} (hx : ¬(viewBase h ≤ x ∧ x < viewBase h + 128)) :
    (s.sealedPage k l n h).mem.byte x = s.mem.byte x := by
  have hfreed := SameMemory.of_cells (State.freeFrame_cells (s.sealHeader k h (s.sealChain k l n h)) (pageDie h) (s.page h).mirror) x
  exact hfreed.trans (State.sealHeader_out s _ hx)

theorem State.sealedPage_page (s : State) (k l n h : Nat) : (s.sealedPage k l n h).page h =
    { s.page h with life := .sealed, mirror := none, chain := s.sealChain k l n h } := State.page_setPage_self ..

/-- R200: a demotion that begins leaves memory, and of the page all but its residency. -/
theorem State.startDemote_leaves (s : State) (h : Nat) : (s.startDemote h).mem = s.mem ∧
    ∃ x, (s.startDemote h).page h = { s.page h with res := x } := by
  let u := s.setPage h { s.page h with res := .demoting }
  have hpage : u.page h = { s.page h with res := .demoting } := State.page_setPage_self ..
  unfold State.startDemote
  split
  · dsimp only
    split
    · refine ⟨State.salted_keeps State.mem (fun _ _ => rfl) u _, .demoting, ?_⟩
      exact (State.salted_keeps (fun t : State => t.page h) (fun _ _ => rfl) u _).trans hpage
    · unfold State.setFull
      dsimp only
      split <;> exact ⟨rfl, .demoting, hpage⟩
  · exact ⟨rfl, (s.page h).res, rfl⟩

/-- R90: what the sealing of a full open page leaves. -/
theorem State.sealPage_leaves (hlife : (s.page h).life = .opened) (hfill : (s.page h).fill = 16) :
    ((s.sealPage k l n h).page h).life = .sealed ∧ ((s.sealPage k l n h).page h).mirror = none ∧
    ((s.sealPage k l n h).page h).chain = s.sealChain k l n h ∧ SameMemoryBut (viewBase h) 128 s (s.sealPage k l n h) := by
  have hpage := s.sealedPage_page k l n h
  rw [State.sealPage_seals hlife hfill]
  split
  · obtain ⟨hmem, x, hres⟩ := (s.sealedPage k l n h).startDemote_leaves h
    rw [hres, hpage]
    exact ⟨rfl, rfl, rfl, fun y hy => (congrArg (Mem.byte · y) hmem).trans (s.sealedPage_out hy)⟩
  · rw [hpage]
    exact ⟨rfl, rfl, rfl, fun y hy => s.sealedPage_out hy⟩

end

/-! ### What sealing and appending leave of the lengths -/

namespace LengthsKept
variable {s0 s : State} (hs : LengthsKept s0 s)
include hs

theorem sealedPage {k l n h : Nat} : LengthsKept s0 (s.sealedPage k l n h) := by
  have hfreed := (PagesOnly.refl (s.sealHeader k h (s.sealChain k l n h))).freeFrame (d := pageDie h) (f := (s.page h).mirror)
  unfold State.sealedPage
  exact clearOpen (hs.trans (.of_seqs ((State.setPage_seqs ..).trans (hfreed.seqs.trans (State.sealHeader_seqs ..)))))

theorem sealPage {k l n h : Nat} : LengthsKept s0 (s.sealPage k l n h) := by
  by_cases hfull : (s.page h).life = .opened ∧ (s.page h).fill = 16
  · have hpage : LengthsKept s0 (s.sealedPage k l n h) := hs.sealedPage
    rw [State.sealPage_seals hfull.1 hfull.2]
    exact .ite (hpage.trans (.of_seqs (State.startDemote_seqs ..))) hpage
  · rw [State.sealPage_stays (by rw [Classical.not_and_iff_not_or_not] at hfull; exact hfull)]
    exact hs

theorem sealUpTo {k l : Nat} {ns : List Nat} : LengthsKept s0 (s.sealUpTo k l ns).2 := by
  unfold State.sealUpTo
  have hstep : ∀ (ns : List Nat) (c : Nat × State), LengthsKept s0 c.2 → LengthsKept s0 (ns.foldl (fun (c : Nat × State) n =>
      let e := c.2.pte k l n
      let g := c.2.page e.handle
      if e.v && g.life == .opened && g.fill == 16 then (c.1 + 1, c.2.sealPage k l n e.handle) else c) c).2 := by
    intro ns
    induction ns with
    | nil => exact fun _ hc => hc
    | cons n ns ih =>
      intro c hc
      refine ih _ ?_
      dsimp only
      split
      · exact hc.sealPage
      · exact hc
  exact hstep ns (0, s) hs

theorem zeroSlots {p : Profile} {h fill : Nat} : LengthsKept s0 (s.zeroSlots p h fill) := by
  refine hs.trans (.of_seqs ?_)
  unfold State.zeroSlots
  exact foldl_keeps State.seqs _ (fun t n => foldl_keeps State.seqs
    (fun (s : State) (q : Nat × Nat) => s.poke (viewBase h + q.1) (List.replicate q.2 0)) (fun _ _ => rfl) _ t) _ _

theorem updPage {h : Nat} {f : Page → Page} : LengthsKept s0 (s.updPage h f) := hs.trans (.of_seqs (State.updPage_seqs ..))

theorem touch {h : Nat} : LengthsKept s0 (s.touch h) := hs.updPage

theorem poke {a : Nat} {bs : List Byte} : LengthsKept s0 (s.poke a bs) := hs.trans (.of_seqs (State.poke_seqs ..))

theorem pokeHdr {h off n v : Nat} : LengthsKept s0 (s.pokeHdr h off n v) := hs.poke

theorem setFill {h fill : Nat} : LengthsKept s0 (s.setFill h fill) := hs.pokeHdr.updPage

theorem copyInto {p : Profile} {h c fill : Nat} : LengthsKept s0 (s.copyInto p h c fill) := by
  unfold State.copyInto
  extract_lets n g s1 noIds s2 s3 s4 s5 s6
  have hheader : LengthsKept s0 s5 := hs.poke.pokeHdr.pokeHdr.pokeHdr.pokeHdr
  have hzeroed : LengthsKept s0 s6 := .ite hheader.zeroSlots hheader
  exact hzeroed.setFill.updPage

theorem initFrame {k l n h : Nat} : LengthsKept s0 (s.initFrame k l n h) := hs.poke

theorem pageFor {got : List (Need × Nat)} {k l pos : Nat} : LengthsKept s0 (s.pageFor got k l pos).2 := by
  unfold State.pageFor
  dsimp only
  split
  · exact hs
  · split
    · exact hs
    · split
      · exact ((hs.touch).copyInto.dropRef).setPte
      · refine setPte ?_
        split
        · exact .ite hs.initFrame.dropRef hs.initFrame
        · exact hs.initFrame

end LengthsKept

end Machine
end Sys2Proof
end

section
/-! PROOFS. Pages staged, sealed and fetched (R55, R90, R218), and the rows that KV.APPEND appends (R55, R79, R85-R90). -/

namespace Sys2Proof
namespace Machine

/-! ### Layers while an instruction issues and completes -/

/-- R78, R80: the layers of a sequence. -/
theorem State.layers_unseen (k : Nat) : Unseen (fun s : State => (s.seq k).layers) where
  ring _ _ _ := rfl
  jrn _ _ := rfl
  named s k' n := by
    dsimp only
    by_cases hk : k = k'
    · subst hk
      rw [State.seq_setSeq_self]
    · rw [State.seq_setSeq_ne _ _ hk]
  event s c ev cls ring layer opid n := by rw [State.ctxEvent_seq]
  restart s c ring layer opid index := by rw [State.ctxReset_seq]
  gbl _ _ _ _ := rfl
  tel _ _ := rfl
  drt _ _ := rfl
  frame s d f := congrArg (fun l : Tbl Seq => (l.lookD k {}).layers) (PagesOnly.refl s).freeFrame.seqs

theorem issuedAt_lengths (s : State) (r : JRec) : LengthsKept s (issuedAt s r) := fun k =>
  congrArg (List.map Layer.length) ((State.layers_unseen k).issuedAt s r)

section
variable {a : At} {r : JRec} {s s0 : State} {n : Snap}

/-- R32: what an instruction that has just issued has counted. -/
theorem jobWith_progress (h : Runs a r s) : (jobWith s r n).progress = 0 := by
  have haccepted : r.state = .accepted := by
    obtain ⟨-, hissuable, -⟩ := h
    unfold State.issuable at hissuable
    simp only [Bool.and_eq_true, beq_iff_eq] at hissuable
    exact hissuable.1.1.1.1.1.1.1
  unfold jobWith jobAt State.job
  dsimp only
  rw [haccepted]
  rfl

end

/-! ### PAGE.STAGE (R218) -/

section
variable {j : Job} {s : State} {hits away : List Nat} {ms : List Miss} {s2 : State}

/-- R218: the sequences of a PAGE.STAGE's entries, walked. -/
def State.stageSeqs (s : State) (j : Job) : State :=
  (s.entries j.w0.toNat (s.desc j.w0.toNat).count).foldl (fun s e => s.walked e.key) s

theorem stageBody_issued (hprev : j.prev = none) (hasked : j.snap.asked = false) (hprogress : j.progress = 0)
    (hwalk : (s.stageSeqs j).stageWalk ((s.stageSpans j).zip (j.snap.lens.zip j.snap.bases)) = (hits, away, ms, s2)) :
    stageBody j s =
      let d := s.desc j.w0.toNat
      let s3 := (hits ++ away.eraseDups).foldl (fun s h => s.request h .staging 0) s2
      if away.eraseDups.isEmpty then .done (missDone 0 d.mrlist d.mrcap ms) (s3.writeMisses d.mrlist d.mrcap ms)
      else .wait (.stage (s3.stageWaits none away.eraseDups)) ((s3.keepSnap j.site { j.snap with asked := true }).setProgress j.site 0) := by
  unfold stageBody
  dsimp only
  rw [show ((s.entries j.w0.toNat (s.desc j.w0.toNat).count).foldl (fun s e => s.walked e.key) s).stageWalk
    ((s.stageSpans j).zip (j.snap.lens.zip j.snap.bases)) = (hits, away, ms, s2) from hwalk]
  dsimp only
  rw [hprev, hasked, hprogress]
  dsimp only
  rw [List.filter_nil, List.length_nil, if_neg Bool.false_ne_true, ite_self]

/-- R218: a PAGE.STAGE that waited and finds all its pages resident. -/
theorem stageBody_arrived {hs : List (Nat × Option Nat)} (hprev : j.prev = some (.stage hs)) (hasked : j.snap.asked = true)
    (hwalk : (s.stageSeqs j).stageWalk ((s.stageSpans j).zip (j.snap.lens.zip j.snap.bases)) = (hits, [], ms, s2)) :
    stageBody j s =
      let d := s.desc j.w0.toNat
      .done (missDone (if ms.isEmpty then j.progress + ((hs.map Prod.fst).filter (fun h => hits.contains h)).length else 0)
        d.mrlist d.mrcap ms) (s2.writeMisses d.mrlist d.mrcap ms) := by
  unfold stageBody
  dsimp only
  rw [show ((s.entries j.w0.toNat (s.desc j.w0.toNat).count).foldl (fun s e => s.walked e.key) s).stageWalk
    ((s.stageSpans j).zip (j.snap.lens.zip j.snap.bases)) = (hits, [], ms, s2) from hwalk]
  dsimp only
  rw [hprev, hasked]
  rfl

end

theorem eraseDups_isEmpty {l : List Nat} : l.eraseDups.isEmpty = true ↔ l = [] := by
  cases l with
  | nil => simp
  | cons x xs => simp [List.eraseDups_cons]

/-! ### PAGE.FETCH -/

section
variable {j : Job} {s : State} {fs : List (Nat × Nat)} {s2 : State}

theorem fetchBody_resident (hcopied : j.snap.copied = [])
    (hwalk : (s.walked (seqKey j.w0.toNat)).fetchWalk (seqKey j.w0.toNat) (fetchList (j.layersOf (s.prof (seqKey j.w0.toNat)).layers)
      (bits j.w1.toNat 0 32) (bits j.w1.toNat 32 32)) = (fs, [], [], s2))
    (hread : ∀ f, f ∈ fs → s2.mem.readErr (viewBase f.2) ((s.prof (seqKey j.w0.toNat)).frameKib * 1024) = none) :
    fetchBody j s =
      let cnt := bits j.w1.toNat 32 32
      let size := (s.prof (seqKey j.w0.toNat)).frameKib * 1024
      let ls := j.layersOf (s.prof (seqKey j.w0.toNat)).layers
      let s3 := (s2.fetchCopy j.w2.toNat size fs).hearthBytes j (2 * size * fs.length)
      .done (s3.stored j.w2.toNat (cnt * size * ls.length) { result := BitVec.ofNat 64 (fs.length * size) }) s3 := by
  have hall : ∀ l : List (Nat × Nat × Nat), l.filter (fun x => !(List.contains ([] : List Nat) x.1)) = l := fun l =>
    List.filter_eq_self.mpr fun _ _ => rfl
  have hgood : fs.findSome? (fun f => s2.mem.readErr (viewBase f.2) ((s.prof (seqKey j.w0.toNat)).frameKib * 1024)) = none :=
    List.findSome?_eq_none_iff.mpr hread
  unfold fetchBody
  dsimp only
  rw [hcopied, hall, hwalk]
  dsimp only
  rw [hgood]
  dsimp only
  rw [List.nil_append, List.length_map]
  rfl

end

/-- Settles O22: PAGE.STAGE, PAGE.SEAL, PAGE.FETCH, and the sealing of a page. -/
theorem pagesServed : Obligations.PagesServed := by
  unfold Obligations.PagesServed
  refine ⟨⟨fun a r s s0 n h => ?_, fun a r s hs h hop hwait hasked => ?_⟩, fun s k l m g => ⟨State.sealPage_stays, fun hlife hfill => ?_⟩⟩
  · intro j s1 k
    have hsite : j.site = a := State.rec?_site h.1
    refine ⟨fun hop hc => ?_, fun hop hc => ?_, fun hop hc => ?_⟩
    · obtain ⟨hasked, hs0⟩ := stageChk_good hc
      intro d es hits away ms s2 hwalk s3
      have hbody := stageBody_issued (j := j) (s := s1) rfl hasked (jobWith_progress h) hwalk
      have hdo := runHob_good stageBody h hop hc hs0
      refine ⟨fun hnone => ?_, fun hsome => ?_⟩
      · have hdone : stageBody j s1 = .done (missDone 0 d.mrlist d.mrcap ms) (s3.writeMisses d.mrlist d.mrcap ms) :=
          hbody.trans (if_pos (eraseDups_isEmpty.mpr hnone))
        exact congrArg Host.Outcome.next (hdo.trans (congrArg (fun o => (settle a o).markFree) hdone))
      · have hwaits : stageBody j s1 = .wait (.stage (s3.stageWaits none away.eraseDups))
            ((s3.keepSnap a { n with asked := true }).setProgress a 0) := by
          refine (hbody.trans (if_neg fun hempty => hsome (eraseDups_isEmpty.mp hempty))).trans ?_
          rw [hsite]
          rfl
        exact congrArg Host.Outcome.next (hdo.trans (congrArg (fun o => (settle a o).markFree) hwaits))
    · obtain ⟨-, hs0⟩ := tablesChk_good hc
      intro c
      have hdo := runHob_good sealBody h hop hc hs0
      refine ⟨congrArg Host.Outcome.next hdo, fun k' l => LengthsKept.layer ?_ k' l⟩
      have hissued : LengthsKept s (s1.walked k) :=
        LengthsKept.walked ((hs0 ▸ issuedAt_lengths s r).trans (.of_seqs rfl))
      have hsealed : ∀ (ls : List Nat) (c : Nat × State), LengthsKept s c.2 → LengthsKept s (ls.foldl (fun (c : Nat × State) l =>
          let m := c.2.sealUpTo k l (pageRange (c.2.layer k l).basePg (pagesOf (c.2.layer k l).length))
          (c.1 + m.1, m.2)) c).2 := by
        intro ls
        induction ls with
        | nil => exact fun _ hc => hc
        | cons l ls ih => exact fun c hc => ih _ hc.sealUpTo
      exact hsealed _ _ hissued
    · obtain ⟨hcopied, hs0⟩ := fetchChk_good hc
      intro cnt size ls fs s2 hwalk hread s3
      have hdo := runHob_good fetchBody h hop hc hs0
      exact congrArg Host.Outcome.next (hdo.trans (congrArg (fun o => (settle a o).markFree)
        (fetchBody_resident (j := j) (s := s1) (congrArg Snap.copied hcopied) hwalk hread)))
  · intro j d hits ms s2 hwalk
    have hdo := runHob_goesOn stageChk stageBody h hop
    have hprogress : j.progress = r.result.toNat := by
      obtain ⟨-, hstate, hissued, -⟩ := h
      show (if r.state == .issued && r.wait.isSome then r.result.toNat else 0) = _
      rw [hstate, hissued]
      rfl
    have hbody := stageBody_arrived (j := j) (s := s) hwait hasked hwalk
    rw [hprogress] at hbody
    exact congrArg Host.Outcome.next (hdo.trans (congrArg (fun o => (settle a o).markFree) hbody))
  · obtain ⟨hsealed, hmirror, hchain, hmem⟩ := State.sealPage_leaves (k := k) (l := l) (n := m) hlife hfill
    refine ⟨hsealed, hmirror, fun hno => ?_, fun hids => ?_, hmem⟩
    · rw [hchain]
      exact if_pos hno
    · rw [hchain]
      exact (if_neg (by rw [hids]; decide)).trans rfl

end Machine
end Sys2Proof
end

section
/-! PROOFS. The rows that KV.APPEND appends (R55, R79, R85-R90). -/

namespace Sys2Proof
namespace Machine

/-! ### One position (R86) -/

theorem layer_setLayer_self (s : State) {k l : Nat} (y : Layer) (hl : l < (s.seq k).layers.length) : (s.setLayer k l y).layer k l = y := by
  unfold State.setLayer State.layer
  rw [State.seq_setSeq_self]
  simp [List.getD_eq_getElem?_getD, hl]

theorem layer_setLayer_ne (s : State) {k l k' l' : Nat} (y : Layer) (hne : (k', l') ≠ (k, l)) :
    (s.setLayer k l y).layer k' l' = s.layer k' l' := by
  unfold State.setLayer State.layer
  by_cases hk : k' = k
  · subst hk
    have hl : l ≠ l' := fun e => hne (by rw [e])
    rw [State.seq_setSeq_self]
    simp [List.getD_eq_getElem?_getD, List.getElem?_set_ne hl]
  · rw [State.seq_setSeq_ne _ _ hk]

/-- R86: a position that is appended raises LENGTH of its layer by one. -/
theorem State.appendPos_lengths (s : State) (got : List (Need × Nat)) (k l : Nat) (row : List Byte) (doSeal : Bool)
    (hl : l < (s.seq k).layers.length) : ((s.appendPos got k l row doSeal).layer k l).length = (s.layer k l).length + 1 ∧
    (∀ k' l', (k', l') ≠ (k, l) → ((s.appendPos got k l row doSeal).layer k' l').length = (s.layer k' l').length) := by
  have hpage : LengthsKept s (s.pageFor got k l (s.layer k l).length).2 := (LengthsKept.refl s).pageFor
  unfold State.appendPos
  extract_lets p pos t
  split
  next h u heq =>
  rw [heq] at hpage
  extract_lets s1 tok s2 s3 s4 y base s5
  have hrow : LengthsKept s s1 := by
    have hfold : ∀ (qs : List (Nat × Nat)) (c : List Byte × State), LengthsKept s c.2 →
        LengthsKept s (qs.foldl (fun (c : List Byte × State) q => (c.1.drop q.2, c.2.poke (viewBase h + q.1) (c.1.take q.2))) c).2 := by
      intro qs
      induction qs with
      | nil => exact fun _ hc => hc
      | cons q qs ih => exact fun c hc => ih _ hc.poke
    exact hfold _ _ hpage
  have hids : LengthsKept s s3 := .ite hrow.pokeHdr.pokeHdr.updPage hrow.pokeHdr
  have hfill : LengthsKept s s4 := hids.setFill
  have hlast : LengthsKept s5 (if doSeal && t = 15 then (s5.sealUpTo k l (pageRange base (pos / 16 + 1))).2.fixOpen k l else s5) :=
    .ite (LengthsKept.refl s5).sealUpTo.fixOpen (.refl s5)
  refine ⟨(hlast.layer k l).trans ?_, fun k' l' hne => (hlast.layer k' l').trans ?_⟩
  · exact congrArg Layer.length (layer_setLayer_self s4 _ (by rw [hfill.count k]; exact hl))
  · exact (congrArg Layer.length (layer_setLayer_ne s4 _ hne)).trans (hfill.layer k' l')

/-! ### KV.APPEND (R55, R85) -/

section
variable {j : Job} {d : Desc} {es : List Entry} {s : State}

/-- R55, R85: KV.APPEND whose rows can be read, whose open pages stand and whose new pages find frames. -/
theorem appendRun_appends {p : Profile} (hp : p = s.descProfile d) {stride : Nat} (hstride : stride = rowStride p j.inst.x1 (decide (d.qfmt = 1)))
    {all : List Append} (hall : all = appendList (s.descLayers j d) es j.w1.toNat stride)
    (hrows : ∀ e, e ∈ all → ∀ t, t < e.rows → s.inputRow p (e.src + t * stride) j.inst.x1 (decide (d.qfmt = 1)) ≠ none)
    (hopen : ∀ e, e ∈ es → ∀ l, l ∈ s.descLayers j d → s.openGone e.key l = false)
    (hquota : s.needs all [] [] = [] ∨ s.overQuota j.ctx (s.needs all [] []).length = false) {s3 : State} {got : List (Need × Nat)}
    (halloc : State.allocNeeds (all.filterMap (fun e => s.openPage e.seq e.layer)) (s.needs all [] [])
      (s.use j.site (all.filterMap (fun e => s.openPage e.seq e.layer))) [] = (.ready s3, got))
    (hroom : s.outgrown (all.foldl (fun s e => s.appendRows got e stride j.inst.x1 (decide (d.qfmt = 1)) j.inst.x0) s3) = false) :
    appendRun j d es s = .done { result := BitVec.ofNat 64 (all.foldl (fun n e => n + e.rows) 0) }
      ((all.foldl (fun s e => s.appendRows got e stride j.inst.x1 (decide (d.qfmt = 1)) j.inst.x0) s3).hearthBytes j
        (all.foldl (fun n e => n + e.rows * (stride + p.posBytes)) 0)) := by
  have hread : ¬(all.any (fun e => (List.range e.rows).any fun t =>
      (s.inputRow p (e.src + t * stride) j.inst.x1 (decide (d.qfmt = 1))).isNone)) = true := by
    simp only [List.any_eq_true, List.mem_range, Option.isNone_iff_eq_none, not_exists, not_and]
    exact hrows
  have hstuck : ((es.map Entry.key).eraseDups).filter (fun k => (s.descLayers j d).any (fun l => s.openGone k l)) = [] := by
    refine List.filter_eq_nil_iff.mpr fun k hk => ?_
    obtain ⟨e, he, rfl⟩ := List.mem_map.mp (List.mem_eraseDups.mp hk)
    simpa using hopen e he
  have htodo : all.filter (fun e => !(List.contains ([] : List Nat) e.seq)) = all := List.filter_eq_self.mpr fun _ _ => rfl
  have hallowed : ¬(!(s.needs all [] []).isEmpty && s.overQuota j.ctx (s.needs all [] []).length) = true := by
    obtain h | h := hquota <;> simp [h]
  unfold appendRun
  extract_lets ls p' fp32 stride' all' stuck todo needs busy s0 lost ms moved
  have hp' : p' = p := hp.symm
  have hstride' : stride' = stride := by rw [hstride, ← hp']
  have hall' : all' = all := by rw [hall, ← hstride']
  have hstuck' : stuck = [] := hstuck
  have htodo' : todo = all := by
    show all'.filter (fun e => !(stuck.contains e.seq)) = all
    rw [hstuck', hall']
    exact htodo
  have hneeds : needs = s.needs all [] [] := congrArg (fun x => s.needs x [] []) htodo'
  have hbusy : busy = all.filterMap (fun e => s.openPage e.seq e.layer) := congrArg (List.filterMap _) htodo'
  have hs0 : s0 = s.use j.site (all.filterMap (fun e => s.openPage e.seq e.layer)) := congrArg (s.use j.site) hbusy
  have hlost : lost = [] := congrArg (List.flatMap _) hstuck'
  have hms : ms = [] := congrArg (List.flatMap _) hlost
  have hmoved : moved = all.foldl (fun n e => n + e.rows * (stride + p.posBytes)) 0 := by
    show todo.foldl (fun n e => n + e.rows * (stride' + p'.posBytes)) 0 = _
    rw [htodo', hstride', hp']
  rw [hneeds, hbusy, hs0, htodo', hms, hlost, hmoved, hp', hstride', hall', if_neg hread, if_neg hallowed, halloc]
  dsimp only
  rw [hroom, if_neg Bool.false_ne_true]
  have hnone : ∀ t : State, t.writeMisses d.mrlist d.mrcap [] = t := fun t => if_pos (by simp)
  rw [List.foldl_nil, hnone]
  rfl

end

/-- Settles O23: KV.APPEND, and the LENGTH of the layer that a position is appended to. -/
theorem rowsAppended : Obligations.RowsAppended := by
  unfold Obligations.RowsAppended
  refine ⟨fun a r s s0 n h hop hc => ?_, State.appendPos_lengths⟩
  obtain ⟨-, hs0⟩ := appendChk_good hc
  intro j s1 d es s2 p stride ls all hrows hopen hquota s3 got halloc hroom
  have hp : p = s2.descProfile d := rfl
  have hrun := appendRun_appends (j := j) hp rfl (all := all) rfl hrows hopen hquota halloc hroom
  have hbody : appendBody j s1 = appendRun j d es s2 := rfl
  have hdo := runHob_good appendBody h hop hc hs0
  refine congrArg Host.Outcome.next (hdo.trans ?_)
  show (settle a (appendBody j s1)).markFree = _
  rw [hbody, hrun]
  rfl

end Machine
end Sys2Proof
end

section
/-! PROOFS. PFX.MATCH (R107-R109, R128): what its lookups leave, the rows it accepts, and the tables that share them. -/

namespace Sys2Proof
namespace Machine

/-! ### What lookups and shared rows leave -/

/-- R128: an entry without what lookups change of it. -/
def PfxEntry.still (e : PfxEntry) : PfxEntry := { e with inDomino := false, hits := 0 }

/-- The part without counters, rows and Domino entries. -/
def State.unfound (s : State) : State := { s with tel := {}, dom := { s.dom with table := [], entries := [], hand := ⟨0, 0⟩ } }

/-- The part without, moreover, pages and sequences. -/
def State.unshared (s : State) : State := { s.unfound with pages := [], drt := {}, seqs := [] }

/-- R128: `t` is `s` but for what lookups change. -/
structure Found (s t : State) : Prop where
  rest : t.unfound = s.unfound
  rows : ∀ i, (t.pfx i).still = (s.pfx i).still

/-- R109, R112, R128: `t` is `s` but for what lookups change, pages and sequences. -/
structure Looked (s t : State) : Prop where
  rest : t.unshared = s.unshared
  rows : ∀ i, (t.pfx i).still = (s.pfx i).still

namespace Looked
variable {s0 s t : State}

theorem refl (s : State) : Looked s s := ⟨rfl, fun _ => rfl⟩

theorem trans (h : Looked s0 s) (h' : Looked s t) : Looked s0 t := ⟨h'.rest.trans h.rest, fun i => (h'.rows i).trans (h.rows i)⟩

section
variable (h : Looked s t)
include h

theorem mem : t.mem = s.mem := (congrArg State.mem h.rest :)
theorem ctxs : t.ctxs = s.ctxs := (congrArg State.ctxs h.rest :)
theorem profiles : t.profiles = s.profiles := (congrArg State.profiles h.rest :)
theorem loaded : t.dom.persistLoaded = s.dom.persistLoaded := (congrArg (fun u : State => u.dom.persistLoaded) h.rest :)

theorem gen (i : Nat) : (t.pfx i).gen = (s.pfx i).gen := (congrArg PfxEntry.gen (h.rows i) :)
theorem row (i : Nat) : (t.pfx i).row = (s.pfx i).row := (congrArg PfxEntry.row (h.rows i) :)

/-- R68: the same token ids. -/
theorem tokens16 (a : Nat) : t.tokens16 a = s.tokens16 a := by
  unfold State.tokens16 State.field
  rw [h.mem]

/-- R108: the same entries pass. -/
theorem passes (c mask pid : Nat) (prev : Option (Nat × BitVec 16)) (ts : List (BitVec 32)) (i : Nat) :
    t.passes c mask pid prev ts (t.pfx i) = s.passes c mask pid prev ts (s.pfx i) := by
  have hstill : ∀ (u : State) (e : PfxEntry), u.passes c mask pid prev ts e = u.passes c mask pid prev ts e.still := fun _ _ => rfl
  have hsees : ∀ e : PfxEntry, t.sees c mask e = s.sees c mask e := by
    intro e
    unfold State.sees
    rw [h.loaded, State.ctx_congr h.ctxs]
  rw [hstill t, hstill s, h.rows i]
  unfold State.passes
  rw [hsees]

end

theorem pages {x : Tbl Page} {d : Drt} (h : Looked s0 s) : Looked s0 { s with pages := x, drt := d } := ⟨h.rest, h.rows⟩

theorem seqs {x : Tbl Seq} (h : Looked s0 s) : Looked s0 { s with seqs := x } := ⟨h.rest, h.rows⟩

end Looked

namespace Found
variable {s0 s t : State}

theorem refl (s : State) : Found s s := ⟨rfl, fun _ => rfl⟩

theorem trans (h : Found s0 s) (h' : Found s t) : Found s0 t := ⟨h'.rest.trans h.rest, fun i => (h'.rows i).trans (h.rows i)⟩

theorem seqs (h : Found s t) : t.seqs = s.seqs := (congrArg State.seqs h.rest :)

theorem looked (h : Found s t) : Looked s t := ⟨(congrArg State.unshared h.rest :), h.rows⟩

theorem count (h : Found s0 s) {o n : Nat} : Found s0 (s.count o n) := by
  unfold State.count
  split
  · exact ⟨h.rest, h.rows⟩
  · exact h

theorem domPut (h : Found s0 s) {a : Nat} {e : DomEntry} : Found s0 (s.domPut a e) := ⟨h.rest, h.rows⟩

theorem domTouch (h : Found s0 s) {a : Nat} : Found s0 (s.domTouch a) := by
  unfold State.domTouch
  split
  · exact h.domPut
  · exact h

/-- R128: rows, Domino entries and hands replaced by ones that differ in what lookups change. -/
theorem withRows {x : Tbl PfxEntry} {es : Tbl DomEntry} {hand : Two Nat} (h : Found s0 s)
    (hx : ∀ j, (x.lookD j {}).still = (s.pfx j).still) :
    Found s0 { s with dom := { s.dom with table := x, hand := hand, entries := es } } :=
  ⟨h.rest, fun j => (hx j).trans (h.rows j)⟩

theorem put_still {x : Tbl PfxEntry} {i : Nat} {e : PfxEntry} {f : Nat → PfxEntry} (hx : ∀ j, (x.lookD j {}).still = f j)
    (he : e.still = f i) (j : Nat) : ((x.put i e).lookD j {}).still = f j := by
  rw [Tbl.lookD_put]
  split
  next hj => rw [hj]; exact he
  · exact hx j

/-- R128: an entry put in place of one that differs in what lookups change. -/
theorem putRow (h : Found s0 s) {i : Nat} {e : PfxEntry} (he : e.still = (s.pfx i).still) : Found s0 (s.setPfx i e) :=
  h.withRows (es := s.dom.entries) (hand := s.dom.hand) (put_still (fun _ => rfl) he)

theorem domInsert (h : Found s0 s) {d : Side} {g : Group} {e : DomEntry} (heq : s.domInsert d g e = some t) : Found s0 t := by
  unfold State.domInsert at heq
  split at heq
  · cases heq
    exact h.domPut
  · cases heq

theorem domPromote (h : Found s0 s) {i : Nat} {e : PfxEntry} {b : Bool} (he : e.still = (s.pfx i).still) :
    Found s0 (s.domPromote i e b) := by
  unfold State.domPromote
  dsimp only
  split
  next heq =>
    exact (h.domInsert heq).putRow (i := i) (e := { e with inDomino := true })
      (he.trans (((Found.refl s).domInsert heq).rows i).symm)
  · split
    · exact h
    · split
      · exact h
      · refine h.withRows (put_still (fun j => ?_) he)
        split
        · unfold Tbl.upd
          refine put_still (f := fun j => (s.pfx j).still) (fun _ => rfl) ?_ j
          rfl
        · rfl

theorem tableHit (h : Found s0 s) {i : Nat} : Found s0 (s.tableHit i) := by
  unfold State.tableHit
  dsimp only
  have hput : Found s (s.setPfx i { s.pfx i with hits := BitVec.ofNat 4 (Nat.min 15 ((s.pfx i).hits.toNat + 1)) }) :=
    (Found.refl s).putRow rfl
  split
  · exact h
  · split
    · exact (h.trans hput).domPromote (hput.rows i).symm
    · exact h.trans hput

theorem domSearch (h : Found s0 s) {d : Side} {g : Group} {key : BitVec 256} : Found s0 (s.domSearch d g key).2 := by
  obtain ⟨-, hdom, htel⟩ := s.domSearch_counts d g key
  refine h.trans ⟨(congrArg State.unfound htel :), fun i => ?_⟩
  unfold State.pfx
  rw [hdom]

theorem dirLookup (h : Found s0 s) {c mask : Nat} {chain : BitVec 64} : Found s0 (s.dirLookup c mask chain).2 := by
  have hsearch := h.domSearch (d := sideOf (chainDie chain)) (g := .directory) (key := dirKey chain c (s.ctx c).domain.toNat mask)
  unfold State.dirLookup
  split
  next heq => rw [heq] at hsearch; exact hsearch
  next heq => rw [heq] at hsearch; exact hsearch.domTouch

theorem dirLookups {c mask : Nat} : ∀ (chains : List (BitVec 64)) {s : State}, Found s0 s → Found s0 (s.dirLookups c mask chains).2
  | [], _, h => h
  | _ :: r, _, h => dirLookups r h.dirLookup

end Found

/-! ### The entry accepted for a row (R108, R109) -/

theorem tryTable_good {s : State} {good : Nat → Bool} {i : Nat} : ∀ (is : List Nat) (f : Nat), (s.tryTable good is f).1 = some i →
    good i = true
  | [], _, h => by cases h
  | x :: r, f, h => by
    rw [State.tryTable] at h
    split at h
    next hx =>
      split at h
      · cases h
        exact hx
      · exact tryTable_good r f h
    · exact tryTable_good r (f + 1) h

/-- R108, R128: what the search for a row leaves, and that the entry it accepts passes. -/
theorem findRow_finds (s : State) (c mask pid : Nat) (prev : Option (Nat × BitVec 16)) (chain : BitVec 64) (ts : List (BitVec 32))
    (dom : Option Nat) : Found s (s.findRow c mask pid prev chain ts dom).2 ∧
    (∀ i, (s.findRow c mask pid prev chain ts dom).1 = some i → s.passes c mask pid prev ts (s.pfx i) = true) := by
  unfold State.findRow
  extract_lets good scan
  have hscanned : ∀ is f, Found s (scan is f).2 ∧ (∀ i, (scan is f).1 = some i → good i = true) := by
    intro is f
    refine ⟨?_, fun i hi => tryTable_good is f hi⟩
    show Found s (match (s.tryTable good is f).1 with
      | some x => (s.count 0x03100318 (s.tryTable good is f).2).tableHit x
      | none => s.count 0x03100318 (s.tryTable good is f).2)
    cases (s.tryTable good is f).1 with
    | none => exact (Found.refl s).count
    | some y => exact (Found.refl s).count.tableHit
  split
  next x =>
    split
    next hx =>
      refine ⟨.refl s, fun i hi => ?_⟩
      cases hi
      exact (Bool.and_eq_true_iff.mp hx).1
    · exact hscanned _ _
  · exact hscanned _ _

/-! ### A row that is shared (R109, R112) -/

section
variable {s : State} {k n : Nat}

theorem State.pte_congr {s t : State} (hseqs : t.seqs = s.seqs) (hprofiles : t.profiles = s.profiles) (k l n : Nat) :
    t.pte k l n = s.pte k l n := by
  unfold State.pte State.layer State.prof State.profile State.seq
  rw [hseqs, hprofiles]

theorem State.prof_setPte (s : State) (k l n : Nat) (e : Pte) : (s.setPte k l n e).prof k = s.prof k := by
  unfold State.setPte State.setLayer State.prof
  dsimp only
  rw [State.seq_setSeq_self]
  rfl

/-- R81: the page-table entry that is put. -/
theorem State.pte_setPte_self (s : State) {k l n : Nat} (e : Pte) (hl : l < (s.seq k).layers.length) : (s.setPte k l n e).pte k l n = e := by
  unfold State.pte
  rw [State.prof_setPte]
  unfold State.setPte
  dsimp only
  rw [layer_setLayer_self s _ hl]
  exact Tbl.lookD_put_self ..

/-- R81: page-table entries of other layers and other slots. -/
theorem State.pte_setPte_ne (s : State) {k l n l' n' : Nat} (e : Pte) (hne : l' ≠ l ∨ (s.prof k).slot n' ≠ (s.prof k).slot n) :
    (s.setPte k l n e).pte k l' n' = s.pte k l' n' := by
  unfold State.pte
  rw [State.prof_setPte]
  unfold State.setPte
  dsimp only
  by_cases hl : l' = l
  · subst hl
    have hslot : (s.prof k).slot n' ≠ (s.prof k).slot n := hne.resolve_left fun h => h rfl
    by_cases hin : l' < (s.seq k).layers.length
    · rw [layer_setLayer_self s _ hin]
      exact Tbl.lookD_put_ne _ _ _ hslot
    · have hout : ∀ y, (s.seq k).layers.set l' y = (s.seq k).layers := fun y => List.set_eq_of_length_le (Nat.not_lt.mp hin)
      unfold State.setLayer State.layer
      rw [State.seq_setSeq_self]
      dsimp only
      rw [hout]
  · rw [layer_setLayer_ne s _ fun h => hl (congrArg Prod.snd h)]

/-- R109, R112: one page of a row that is shared. -/
def State.sharePage (s : State) (k n : Nat) (e : PfxEntry) (l : Nat) : State :=
  let h := e.row.handles.getD l 0
  let own := s.ownPte k h
  let s := s.addRef h
  let s := if own.kept then s.keep h true else s
  s.setPte k l n own

/-- Of a sequence, its profile and how many layers it has. -/
structure SeqKept (k : Nat) (s t : State) : Prop where
  looked : Looked s t
  pslot : (t.seq k).pslot = (s.seq k).pslot
  layers : (t.seq k).layers.length = (s.seq k).layers.length

theorem SeqKept.refl (s : State) : SeqKept k s s := ⟨.refl s, rfl, rfl⟩

theorem SeqKept.trans {s0 s t : State} (h : SeqKept k s0 s) (h' : SeqKept k s t) : SeqKept k s0 t :=
  ⟨h.looked.trans h'.looked, h'.pslot.trans h.pslot, h'.layers.trans h.layers⟩

theorem SeqKept.prof {s t : State} (h : SeqKept k s t) : t.prof k = s.prof k := by
  unfold State.prof State.profile
  rw [h.looked.profiles, h.pslot]

theorem Found.seqKept {s t : State} (h : Found s t) : SeqKept k s t :=
  ⟨h.looked, congrArg (fun x : Tbl Seq => (x.lookD k {}).pslot) h.seqs, congrArg (fun x : Tbl Seq => (x.lookD k {}).layers.length) h.seqs⟩

/-- R109: what a shared row leaves of its sequence, its other page-table entries too. -/
structure RowShared (k n : Nat) (s t : State) : Prop extends SeqKept k s t where
  others : ∀ l m, (s.prof k).slot m ≠ (s.prof k).slot n → t.pte k l m = s.pte k l m

theorem RowShared.refl (s : State) : RowShared k n s s := ⟨.refl s, fun _ _ _ => rfl⟩

theorem RowShared.trans {s0 s t : State} (h : RowShared k n s0 s) (h' : RowShared k n s t) : RowShared k n s0 t :=
  ⟨h.toSeqKept.trans h'.toSeqKept, fun l m hm => (h'.others l m (by rw [h.prof]; exact hm)).trans (h.others l m hm)⟩

/-- R81: a page-table entry that names a page. -/
def State.Names (s : State) (k l n h : Nat) : Prop := (s.pte k l n).v = true ∧ (s.pte k l n).handle = h

theorem sharePage_shares (s : State) (k n : Nat) (e : PfxEntry) (l : Nat) : RowShared k n s (s.sharePage k n e l) ∧
    (l < (s.seq k).layers.length → (s.sharePage k n e l).Names k l n (e.row.handles.getD l 0)) ∧
    (∀ l', l' ≠ l → (s.sharePage k n e l).pte k l' n = s.pte k l' n) := by
  unfold State.sharePage
  extract_lets h own u v
  have hseqs : v.seqs = s.seqs := by
    show (if own.kept then u.keep h true else u).seqs = s.seqs
    split <;> rfl
  have hlooked : Looked s v := by
    show Looked s (if own.kept then u.keep h true else u)
    split
    · exact (Looked.refl s).pages
    · exact (Looked.refl s).pages (d := s.drt)
  have hseq : v.seq k = s.seq k := congrArg (fun x : Tbl Seq => x.lookD k {}) hseqs
  have hprof : v.prof k = s.prof k := by
    unfold State.prof State.profile
    rw [hseq, hlooked.profiles]
  have hput : (v.setPte k l n own).seq k = { v.seq k with layers := (v.seq k).layers.set l { v.layer k l with
      ptes := (v.layer k l).ptes.put ((v.prof k).slot n) own } } := State.seq_setSeq_self ..
  have hpte : ∀ l' m, v.pte k l' m = s.pte k l' m := State.pte_congr hseqs hlooked.profiles k
  refine ⟨⟨⟨hlooked.seqs, ?_, ?_⟩, fun l' m hm => ?_⟩, fun hl => ?_, fun l' hne => ?_⟩
  · rw [hput, hseq]
  · rw [hput, hseq]
    exact List.length_set
  · exact (v.pte_setPte_ne own (.inr (by rw [hprof]; exact hm))).trans (hpte l' m)
  · have hself := v.pte_setPte_self (n := n) own (by rw [hseq]; exact hl)
    unfold State.Names
    rw [hself]
    exact ⟨rfl, rfl⟩
  · exact (v.pte_setPte_ne own (.inl hne)).trans (hpte l' n)

/-- R109, R112: a row that is shared: its pages stand in the tables at the logical page. -/
theorem shareRow_shares (s : State) (k n : Nat) (e : PfxEntry) : RowShared k n s (s.shareRow k n e) ∧
    (∀ l, l < e.row.handles.length → l < (s.seq k).layers.length → (s.shareRow k n e).Names k l n (e.row.handles.getD l 0)) := by
  have hfold : ∀ (ls : List Nat) (u : State), RowShared k n u (ls.foldl (fun s l => s.sharePage k n e l) u) ∧
      (∀ l, l < (u.seq k).layers.length → l ∈ ls ∨ u.Names k l n (e.row.handles.getD l 0) →
        (ls.foldl (fun s l => s.sharePage k n e l) u).Names k l n (e.row.handles.getD l 0)) := by
    intro ls
    induction ls with
    | nil => exact fun u => ⟨.refl u, fun l _ hl => hl.resolve_left List.not_mem_nil⟩
    | cons x xs ih =>
      intro u
      obtain ⟨hone, hthis, hother⟩ := sharePage_shares u k n e x
      obtain ⟨hrest, hnamed⟩ := ih (u.sharePage k n e x)
      refine ⟨hone.trans hrest, fun l hl hor => hnamed l (by rw [hone.layers]; exact hl) ?_⟩
      by_cases hx : l = x
      · subst hx
        exact .inr (hthis hl)
      · obtain hin | hnames := hor
        · exact .inl ((List.mem_cons.mp hin).resolve_left hx)
        · refine .inr ?_
          unfold State.Names
          rw [hother l hx]
          exact hnames
  obtain ⟨hshared, hnamed⟩ := hfold (List.range e.row.handles.length) s
  exact ⟨hshared, fun l hl hlayer => hnamed l hlayer (.inl (List.mem_range.mpr hl))⟩

end

/-! ### The rows accepted (R107) -/

/-- R107, R108: the rows accepted from row `n` on: entries that pass in order, each the child of the one before, whose pages stand in the
tables. -/
def Accepts (s t : State) (c mask pid k src n : Nat) (prev : Option (Nat × BitVec 16)) (is : List Nat) : Prop :=
  ∀ i, i < is.length →
    s.passes c mask pid (if i = 0 then prev else some (is.getD (i - 1) 0, (s.pfx (is.getD (i - 1) 0)).gen))
      (s.tokens16 (src + 64 * (n + i))) (s.pfx (is.getD i 0)) = true ∧
    ∀ l, l < (s.pfx (is.getD i 0)).row.handles.length → l < (s.seq k).layers.length →
      t.Names k l (n + i) ((s.pfx (is.getD i 0)).row.handles.getD l 0)

theorem Accepts.cons {s t : State} {c mask pid k src n : Nat} {prev : Option (Nat × BitVec 16)} {x : Nat} {is : List Nat}
    (hpass : s.passes c mask pid prev (s.tokens16 (src + 64 * n)) (s.pfx x) = true)
    (hnames : ∀ l, l < (s.pfx x).row.handles.length → l < (s.seq k).layers.length → t.Names k l n ((s.pfx x).row.handles.getD l 0))
    (hrest : Accepts s t c mask pid k src (n + 1) (some (x, (s.pfx x).gen)) is) : Accepts s t c mask pid k src n prev (x :: is) := by
  intro i hi
  cases i with
  | zero => exact ⟨hpass, hnames⟩
  | succ i =>
    obtain ⟨hpasses, hstand⟩ := hrest i (Nat.lt_of_succ_lt_succ hi)
    rw [show n + 1 + i = n + (i + 1) by omega] at hpasses hstand
    refine ⟨?_, hstand⟩
    rw [if_neg (Nat.succ_ne_zero i)]
    cases i with
    | zero => exact hpasses
    | succ i => exact hpasses

theorem matchRows_accepts {s : State} {c mask pid k src bound : Nat} (hslot : ∀ m, m < bound → (s.prof k).slot m = m) :
    ∀ (cs : List (BitVec 64 × Option Nat)) (n : Nat) (prev : Option (Nat × BitVec 16)) (u : State), SeqKept k s u →
      n + cs.length ≤ bound → ∃ is t, State.matchRows c mask pid k src cs n prev u = (n + is.length, t) ∧ SeqKept k s t ∧
        is.length ≤ cs.length ∧ (∀ l m, m < n → t.pte k l m = u.pte k l m) ∧ Accepts s t c mask pid k src n prev is
  | [], n, prev, u, hu, _ => ⟨[], u, rfl, hu, Nat.le_refl _, fun _ _ _ => rfl, fun i hi => absurd hi (Nat.not_lt_zero i)⟩
  | (ch, dom) :: r, n, prev, u, hu, hbound => by
    obtain ⟨hfound, hgood⟩ := findRow_finds u c mask pid prev ch (u.tokens16 (src + 64 * n)) dom
    have hempty : ∀ v, SeqKept k s v → (∀ l m, m < n → v.pte k l m = u.pte k l m) → ∃ is t, (n, v) = (n + List.length is, t) ∧
        SeqKept k s t ∧ is.length ≤ ((ch, dom) :: r).length ∧ (∀ l m, m < n → t.pte k l m = u.pte k l m) ∧
        Accepts s t c mask pid k src n prev is := fun v hv hpte =>
      ⟨[], v, rfl, hv, Nat.zero_le _, hpte, fun i hi => absurd hi (Nat.not_lt_zero i)⟩
    rw [State.matchRows]
    generalize u.findRow c mask pid prev ch (u.tokens16 (src + 64 * n)) dom = x at hfound hgood
    obtain ⟨found, v⟩ := x
    have hv : SeqKept k s v := hu.trans hfound.seqKept
    have hpte : ∀ l m, v.pte k l m = u.pte k l m := State.pte_congr hfound.seqs hfound.looked.profiles k
    cases found with
    | none => exact hempty v hv fun l m _ => hpte l m
    | some i =>
      dsimp only
      split
      · exact hempty v hv fun l m _ => hpte l m
      · obtain ⟨hshared, hnamed⟩ := shareRow_shares v k n (v.pfx i)
        have hcounted : Found (v.shareRow k n (v.pfx i)) ((v.shareRow k n (v.pfx i)).count 0x03100308) := (Found.refl _).count
        have hptes : ∀ l m, ((v.shareRow k n (v.pfx i)).count 0x03100308).pte k l m = (v.shareRow k n (v.pfx i)).pte k l m :=
          State.pte_congr hcounted.seqs hcounted.looked.profiles k
        rw [List.length_cons] at hbound
        obtain ⟨is, t, hdo, ht, hlen, hbefore, haccepts⟩ := matchRows_accepts hslot r (n + 1) (some (i, (v.pfx i).gen))
          ((v.shareRow k n (v.pfx i)).count 0x03100308) ((hv.trans hshared.toSeqKept).trans hcounted.seqKept) (by omega)
        refine ⟨i :: is, t, ?_, ht, Nat.succ_le_succ hlen, fun l m hm => ?_, ?_⟩
        · rw [hdo, List.length_cons]
          exact congrArg (·, t) (by omega)
        · rw [hbefore l m (Nat.lt_succ_of_lt hm), hptes, hshared.others l m, hpte]
          rw [hv.prof, hslot m (by omega), hslot n (by omega)]
          exact Nat.ne_of_lt hm
        · have hrow : (v.pfx i).row = (s.pfx i).row := hv.looked.row i
          rw [hv.looked.gen i] at haccepts
          refine .cons ?_ (fun l hl hlayer => ?_) haccepts
          · rw [← hu.looked.passes, ← hu.looked.tokens16]
            exact hgood i rfl
          · have hstands := hnamed l (by rw [hrow]; exact hl) (by rw [hv.layers]; exact hlayer)
            rw [hrow] at hstands
            unfold State.Names at hstands ⊢
            rw [hbefore l n (Nat.lt_succ_self n), hptes]
            exact hstands

/-! ### The lengths after a match -/

section
variable {s : State} {k : Nat}

theorem State.pte_setLayer_same (s : State) {k l : Nat} {y : Layer} (hy : y.ptes = (s.layer k l).ptes) (l' m : Nat) :
    (s.setLayer k l y).pte k l' m = s.pte k l' m := by
  have hprof : (s.setLayer k l y).prof k = s.prof k := by
    unfold State.setLayer State.prof
    rw [State.seq_setSeq_self]
    rfl
  unfold State.pte
  rw [hprof]
  by_cases hl : l' = l
  · subst hl
    by_cases hin : l' < (s.seq k).layers.length
    · rw [layer_setLayer_self s _ hin, hy]
    · unfold State.setLayer State.layer
      rw [State.seq_setSeq_self, List.set_eq_of_length_le (Nat.not_lt.mp hin)]
  · rw [layer_setLayer_ne s _ fun h => hl (congrArg Prod.snd h)]

/-- R107: a layer that is as long as the rows accepted. -/
def State.matchedLayer (s : State) (p : Profile) (k m l : Nat) : State :=
  s.setLayer k l { s.layer k l with length := 16 * m, openH := 0, depth := if p.ring.isSome then 0 else depthFor (16 * m) }

theorem matchedLayer_leaves (s : State) (p : Profile) (k m l : Nat) : SeqKept k s (s.matchedLayer p k m l) ∧
    (∀ l' n, (s.matchedLayer p k m l).pte k l' n = s.pte k l' n) ∧
    (l < (s.seq k).layers.length → ((s.matchedLayer p k m l).layer k l).length = 16 * m) ∧
    (∀ l', l' ≠ l → (s.matchedLayer p k m l).layer k l' = s.layer k l') := by
  have hseq : (s.matchedLayer p k m l).seq k = { s.seq k with layers := (s.seq k).layers.set l { s.layer k l with
      length := 16 * m, openH := 0, depth := if p.ring.isSome then 0 else depthFor (16 * m) } } := State.seq_setSeq_self ..
  refine ⟨⟨(Looked.refl s).seqs, ?_, ?_⟩, State.pte_setLayer_same s rfl, fun hl => ?_, fun l' hne => ?_⟩
  · rw [hseq]
  · rw [hseq]
    exact List.length_set
  · exact congrArg Layer.length (layer_setLayer_self s _ hl)
  · exact layer_setLayer_ne s _ fun h => hne (congrArg Prod.snd h)

theorem matchedLayers_leave (p : Profile) (k m : Nat) : ∀ (ls : List Nat) (s : State),
    SeqKept k s (ls.foldl (fun s l => s.matchedLayer p k m l) s) ∧
    (∀ l' n, (ls.foldl (fun s l => s.matchedLayer p k m l) s).pte k l' n = s.pte k l' n) ∧
    (∀ l, l < (s.seq k).layers.length → l ∈ ls ∨ (s.layer k l).length = 16 * m →
      ((ls.foldl (fun s l => s.matchedLayer p k m l) s).layer k l).length = 16 * m)
  | [], s => ⟨.refl s, fun _ _ => rfl, fun _ _ h => h.resolve_left List.not_mem_nil⟩
  | x :: xs, s => by
    obtain ⟨hkept, hptes, hthis, hothers⟩ := matchedLayer_leaves s p k m x
    obtain ⟨hrest, hptes', hlengths⟩ := matchedLayers_leave p k m xs (s.matchedLayer p k m x)
    refine ⟨hkept.trans hrest, fun l' n => (hptes' l' n).trans (hptes l' n), fun l hl hor => ?_⟩
    refine hlengths l (by rw [hkept.layers]; exact hl) ?_
    by_cases hx : l = x
    · subst hx
      exact .inr (hthis hl)
    · rw [hothers l hx]
      exact hor.imp_left fun hin => (List.mem_cons.mp hin).resolve_left hx

end

/-! ### PFX.MATCH -/

theorem rowChains_length (s : State) (pid src : Nat) : ∀ (n t : Nat) (chain : BitVec 64), (s.rowChains pid src n t chain).length = n
  | 0, _, _ => rfl
  | n + 1, t, _ => congrArg Nat.succ (rowChains_length s pid src n (t + 1) _)

/-- R106: rows that a match looks up stand in slots of their own. -/
theorem slot_of_rowsFor (p : Profile) {n m : Nat} (hm : m < p.rowsFor n) : p.slot m = m := by
  unfold Profile.rowsFor at hm
  unfold Profile.slot
  cases hring : p.ring with
  | none => rfl
  | some r =>
    rw [hring] at hm
    exact Nat.mod_eq_of_lt (Nat.lt_of_lt_of_le hm (Nat.min_le_left ..))

section
variable {j : Job} {s : State} {k n : Nat}

/-- R107: the sequence with the tokens of its match. -/
def State.matchTokens (s : State) (j : Job) : State :=
  s.setSeq (seqKey j.w0.toNat) { s.seq (seqKey j.w0.toNat) with tokSrc := j.w1.toNat, tokCnt := bits j.w2.toNat 0 32 }

theorem matchBody_off (hdir : s.dom.dirEn = false) : matchBody j s = succeeds 0 (s.matchTokens j) := by
  unfold matchBody
  exact if_pos (by rw [show (s.setSeq _ _).dom.dirEn = false from hdir]; rfl)

/-- R107: what a match with the directory enabled does. -/
theorem matchBody_on (hdir : s.dom.dirEn = true) (hk : k = seqKey j.w0.toNat) (hn : n = bits j.w2.toNat 0 32)
    (hread : s.mem.readErr j.w1.toNat (64 * (s.prof k).rowsFor n) = none) : ∃ (is : List Nat) (t : State),
      matchBody j s = succeeds (16 * is.length) t ∧ is.length ≤ (s.prof k).rowsFor n ∧
      (∀ l, l < (s.prof k).layers → l < (s.seq k).layers.length → (t.layer k l).length = 16 * is.length) ∧ t.mem = s.mem ∧
      Accepts (s.matchTokens j) t j.ctx (bits j.w2.toNat 32 3) (s.prof k).id k j.w1.toNat 0 none is := by
  subst hk hn
  let k := seqKey j.w0.toNat
  let p := s.prof k
  let u := s.matchTokens j
  let rows := p.rowsFor (bits j.w2.toNat 0 32)
  let chains := u.rowChains p.id j.w1.toNat rows 0 0
  let x := u.dirLookups j.ctx (bits j.w2.toNat 32 3) chains
  have hseq : u.seq k = { s.seq k with tokSrc := j.w1.toNat, tokCnt := bits j.w2.toNat 0 32 } := State.seq_setSeq_self ..
  have hprof : u.prof k = p := by
    unfold State.prof
    rw [hseq]
    rfl
  have hlookups : SeqKept k u x.2 := ((Found.refl u).dirLookups chains).seqKept
  have hcount : (chains.zip x.1).length ≤ rows := by
    rw [List.length_zip, rowChains_length]
    exact Nat.min_le_left ..
  obtain ⟨is, v, hrows, hkept, hlen, -, haccepts⟩ := matchRows_accepts (s := u) (c := j.ctx) (mask := bits j.w2.toNat 32 3) (pid := p.id)
    (k := k) (src := j.w1.toNat) (bound := rows) (fun m hm => by rw [hprof]; exact slot_of_rowsFor p hm) (chains.zip x.1) 0 none x.2
    hlookups (by rw [Nat.zero_add]; exact hcount)
  rw [Nat.zero_add] at hrows
  let w := (List.range p.layers).foldl (fun s l => s.matchedLayer p k is.length l) v
  let t := w.ctxEvent j.ctx 0x0E 0 j.site.ring j.layer.toNat j.inst.opid.toNat is.length
  obtain ⟨hlast, hptes, hlengths⟩ := matchedLayers_leave p k is.length (List.range p.layers) v
  have htseqs : t.seqs = w.seqs := State.ctxEvent_seqs ..
  have hdo : matchBody j s = succeeds (16 * is.length) t := by
    unfold matchBody
    dsimp only
    rw [if_neg (by rw [show (s.setSeq _ _).dom.dirEn = true from hdir]; decide)]
    rw [show (s.setSeq (seqKey j.w0.toNat) { s.seq (seqKey j.w0.toNat) with
      tokSrc := j.w1.toNat, tokCnt := bits j.w2.toNat 0 32 }).mem.readErr j.w1.toNat
        (64 * (s.prof (seqKey j.w0.toNat)).rowsFor (bits j.w2.toNat 0 32)) = none from hread]
    dsimp only
    show succeeds (16 * (State.matchRows j.ctx (bits j.w2.toNat 32 3) p.id k j.w1.toNat (chains.zip x.1) 0 none x.2).1)
      ((State.ctxEvent ((List.range p.layers).foldl (fun s l => s.matchedLayer p k
        (State.matchRows j.ctx (bits j.w2.toNat 32 3) p.id k j.w1.toNat (chains.zip x.1) 0 none x.2).1 l)
        (State.matchRows j.ctx (bits j.w2.toNat 32 3) p.id k j.w1.toNat (chains.zip x.1) 0 none x.2).2))
        j.ctx 0x0E 0 j.site.ring j.layer.toNat j.inst.opid.toNat
        (State.matchRows j.ctx (bits j.w2.toNat 32 3) p.id k j.w1.toNat (chains.zip x.1) 0 none x.2).1) = _
    rw [hrows]
  refine ⟨is, t, hdo, Nat.le_trans hlen hcount, fun l hl hlayer => ?_, ?_, fun i hi => ?_⟩
  · have hlayer' : l < (v.seq k).layers.length := by
      rw [hkept.layers, hseq]
      exact hlayer
    refine Eq.trans ?_ (hlengths l hlayer' (.inl (List.mem_range.mpr hl)))
    unfold State.layer State.seq
    rw [htseqs]
  · rw [State.ctxEvent_mem, hlast.looked.mem, hkept.looked.mem]
    rfl
  · obtain ⟨hpasses, hnames⟩ := haccepts i hi
    refine ⟨hpasses, fun l hl hlayer => ?_⟩
    have hstands := hnames l hl hlayer
    have htpte : ∀ l m, t.pte k l m = v.pte k l m := fun l m =>
      (State.pte_congr htseqs (State.ctxEvent_profiles ..) k l m).trans (hptes l m)
    unfold State.Names at hstands ⊢
    rw [htpte]
    exact hstands

end

/-- Settles O24: PFX.MATCH. -/
theorem prefixMatched : Obligations.PrefixMatched := by
  unfold Obligations.PrefixMatched
  intro a r s s0 y h hop hc
  obtain ⟨-, hs0⟩ := matchChk_good hc
  intro j k n s1
  have hdo := runHob_good matchBody h hop hc hs0
  have hdom : (passed s0 r y).dom = s.dom := by
    rw [hs0]
    exact (congrArg State.dom (issuedAt_other s r) :)
  have hmem : (passed s0 r y).mem = s.mem := by
    rw [hs0]
    exact issuedAt_mem s r
  have hseq : s1.seq k = { (passed s0 r y).seq k with tokSrc := j.w1.toNat, tokCnt := n } := State.seq_setSeq_self ..
  have hprof : s1.prof k = (passed s0 r y).prof k := by
    unfold State.prof
    rw [hseq]
    rfl
  refine ⟨fun hoff => ?_, fun hon hread => ?_⟩
  · have hbody := matchBody_off (j := j) (s := passed s0 r y) ((congrArg Dom.dirEn hdom).trans hoff)
    refine congrArg Host.Outcome.next (hdo.trans ?_)
    show (settle a (matchBody j (passed s0 r y))).markFree = _
    rw [hbody]
    rfl
  · obtain ⟨is, t, hbody, hlen, hlengths, htmem, haccepts⟩ := matchBody_on (j := j) (s := passed s0 r y) (k := k) (n := n)
      ((congrArg Dom.dirEn hdom).trans hon) rfl rfl (by rw [hmem, ← hprof]; exact hread)
    rw [← hprof] at hlen hlengths haccepts
    refine ⟨is, t, ?_, hlen, fun l hl hlayer => hlengths l hl (by rw [hseq] at hlayer; exact hlayer), fun x => ?_, fun m hm => ?_⟩
    · refine congrArg Host.Outcome.next (hdo.trans ?_)
      show (settle a (matchBody j (passed s0 r y))).markFree = _
      rw [hbody]
      rfl
    · rw [htmem, hmem]
    · obtain ⟨hpasses, hnames⟩ := haccepts m hm
      rw [Nat.zero_add] at hpasses hnames
      exact ⟨hpasses, hnames⟩

end Machine
end Sys2Proof
end

section
/-! PROOFS. Sequences created, hinted, queried, destroyed and truncated (R54, R76-R80, R91, R92). -/

namespace Sys2Proof
namespace Machine

/-! ### The lowest free entry of a die (R76) -/

theorem lowestFree_le : ∀ (l : List Nat) (k : Nat), lowestFree l k ≤ k + l.length
  | [], _ => Nat.le_refl _
  | i :: r, k => by
    have hskip := lowestFree_le r k
    have hnext := lowestFree_le r (k + 1)
    unfold lowestFree
    rw [List.length_cons]
    repeat' split
    all_goals omega

theorem length_insNat_le (l : List Nat) (k : Nat) : (insNat l k).length ≤ l.length + 1 := by
  induction l with
  | nil => exact Nat.le_refl _
  | cons i r ih =>
    unfold insNat
    repeat' split
    all_goals simp only [List.length_cons] at ih ⊢
    all_goals omega

theorem length_foldl_insNat_le (ks l : List Nat) : (ks.foldl insNat l).length ≤ l.length + ks.length := by
  induction ks generalizing l with
  | nil => exact Nat.le_refl _
  | cons k ks ih =>
    have hrest := ih (insNat l k)
    have hone := length_insNat_le l k
    rw [List.foldl_cons, List.length_cons]
    omega

/-- R76: the key of the lowest free entry of a die. -/
def State.newKey (s : State) (d : Side) : Nat := d.num * seqsPerDie + lowestFree ((s.liveSeqs d).foldl insNat []) 0

section
variable {s t : State} {d : Side}

/-- R76: the lowest free index of a die with room is one of the die's, and no sequence has it. -/
theorem State.newKey_free (hroom : (s.liveSeqs d).length < seqsPerDie) :
    seqHome (s.newKey d) = d ∧ (s.seq (s.newKey d)).state = .free := by
  have hle := Nat.le_trans (lowestFree_le ((s.liveSeqs d).foldl insNat []) 0)
    (Nat.add_le_add_left (length_foldl_insNat_le (s.liveSeqs d) []) 0)
  have hunused := (lowestFree_spec 0 (pairwise_foldl_insNat (s.liveSeqs d) List.Pairwise.nil)).2
  rw [mem_foldl_insNat] at hunused
  unfold State.newKey
  generalize lowestFree ((s.liveSeqs d).foldl insNat []) 0 = i at hle hunused
  have hi : i < 2 ^ 21 := by
    have hbound : i < seqsPerDie := by simp only [List.length_nil] at hle; omega
    exact hbound
  have hhome : seqHome (d.num * seqsPerDie + i) = d := by
    unfold seqHome sideOf seqsPerDie
    cases d with
    | west => rw [if_pos (by simp only [Side.num]; omega)]
    | east => rw [if_neg (by simp only [Side.num]; omega)]
  have hindex : seqIndex (d.num * seqsPerDie + i) = i := by
    unfold seqIndex seqsPerDie
    omega
  refine ⟨hhome, Decidable.byContradiction fun hlive => hunused (.inl ?_)⟩
  unfold State.seq Tbl.lookD at hlive
  cases hlook : s.seqs.look (d.num * seqsPerDie + i) with
  | none =>
    rw [hlook] at hlive
    exact absurd rfl hlive
  | some q =>
    rw [hlook] at hlive
    refine List.mem_map.mpr ⟨(d.num * seqsPerDie + i, q), List.mem_filter.mpr ⟨Tbl.mem_of_look hlook, ?_⟩, hindex⟩
    simpa [hhome] using hlive

/-- R76: the die that a new sequence goes to has a free entry. -/
theorem State.seqDie_room {home layers : Nat} (h : s.seqDie home layers = some d) : (s.liveSeqs d).length < seqsPerDie := by
  have hpicked : ∀ {room : Side → Bool} {first : Side} {c : Bool},
      (if room first then some first else if c && room first.other then some first.other else none) = some d → room d = true := by
    intro room first c hpick
    split at hpick
    next hfirst =>
      cases hpick
      exact hfirst
    · split at hpick
      next hother =>
        cases hpick
        exact (Bool.and_eq_true_iff.mp hother).2
      · cases hpick
  have hroom := hpicked (room := fun d => decide ((s.liveSeqs d).length < seqsPerDie) && s.dirRoom d layers) h
  exact of_decide_eq_true (Bool.and_eq_true_iff.mp hroom).1

theorem State.seqDie_congr (hseqs : t.seqs = s.seqs) (hprofiles : t.profiles = s.profiles) (hready : t.gbl.fwReady = s.gbl.fwReady)
    (hdrt : t.drt = s.drt) (home layers : Nat) : t.seqDie home layers = s.seqDie home layers := by
  unfold State.seqDie State.dirRoom State.tablesUsed State.liveSeqs State.tableKib State.profile State.roomier State.freeMib State.dieFree
  rw [hseqs, hprofiles, hready, hdrt]

/-- R54: a new sequence of a profile. -/
def State.freshSeq (s : State) (j : Job) (slot : Nat) : Seq where
  ctx := j.ctx
  pslot := slot
  hints := hintsOf j.w1.toNat
  layers := List.replicate (s.profile slot).layers { depth := if (s.profile slot).ring.isSome then 0 else 1 }

/-- R54, R76: SEQ.CREATE of a profile that stands, on a die with room. -/
theorem createBody_creates {j : Job} {slot : Nat} (hslot : s.profileSlot (bits j.w0.toNat 0 32) = some slot)
    (hdie : s.seqDie (bits j.w0.toNat 32 2) (s.profile slot).layers = some d) :
    createBody j s =
      succeeds (seqHandle (s.newKey d) (nextGen (s.newKey d) (s.seq (s.newKey d)).gen)) (s.newSeq d (s.freshSeq j slot)).2 := by
  unfold createBody
  rw [hslot]
  dsimp only
  rw [hdie]
  dsimp only
  congr 2
  exact congrArg Seq.gen (State.seq_setSeq_self ..)

end

/-! ### Sequences while an instruction that names none issues and completes -/

section
variable {s : State} {a : At} {r : JRec}

@[simp] theorem State.noteDone_seqs (s : State) (r : JRec) (i : Inst) (d : Done) : (s.noteDone r i d).seqs = s.seqs := by
  unfold State.noteDone
  dsimp only
  split
  · rw [State.ctxEvent_seqs, State.ctxEvent_seqs]
  · rw [State.ctxEvent_seqs]

@[simp] theorem State.writeDst_seqs (s : State) (n : Nat) (i : Inst) (d : Done) : (s.writeDst n i d).seqs = s.seqs := by
  unfold State.writeDst
  dsimp only
  repeat' split
  all_goals rfl

theorem State.countFailure_seqs (s : State) (st : Status) : (s.countFailure st).seqs = s.seqs := by
  unfold State.countFailure
  repeat' split
  all_goals simp

theorem State.endUses_nil_seqs (s : State) : (s.endUses []).seqs = s.seqs := by
  have hheld : ∀ (t : State) (d : Side), (t.releaseHeld d).seqs = t.seqs := by
    intro t d
    unfold State.releaseHeld
    exact foldl_keeps State.seqs _ (fun u _ => (PagesOnly.refl u).freeFrame.seqs) _ _
  unfold State.endUses
  rw [hheld, hheld]
  rfl

/-- R78: a completed ring entry that named no sequence and used no page leaves the sequences. -/
theorem ended_seqs {d : Done} (h : s.rec? a = some r) (hf : d.flow = .next) (hstep : a.step = none) (hnames : r.names = [])
    (huses : r.uses = []) : (ended s a d).seqs = s.seqs := by
  have h' : (s.countFailure d.status).rec? a = some r := by rw [State.countFailure_rec?]; exact h
  unfold ended State.finish State.markFree
  rw [State.mapRecs_seqs, State.finishAt_ring d h' ((State.rec?_key h).2.2.trans hstep), huses, State.endUses_nil_seqs]
  unfold State.finishRing
  dsimp only
  rw [State.skipOn_next _ _ hf, State.setRing_seqs, State.noteDone_seqs, State.setRec_seqs, hnames]
  exact (State.writeDst_seqs ..).trans (State.countFailure_seqs ..)

/-- R78: an instruction that names no sequence issues without a change of the sequences, the directory or the firmware's readiness. -/
theorem State.issue_unnamed (hnames : s.issueNames (s.job r) = []) :
    (s.issue r).seqs = s.seqs ∧ (s.issue r).drt = s.drt ∧ (s.issue r).gbl.fwReady = s.gbl.fwReady := by
  have hready : ∀ t : State, ∀ j : Job, (t.noteIssue r j).gbl.fwReady = t.gbl.fwReady := by
    intro t j
    unfold State.noteIssue State.trace State.ctxReset
    dsimp only
    repeat' split
    all_goals rfl
  have hserved : (s.served r.ring).gbl.fwReady = s.gbl.fwReady := by
    unfold State.served
    dsimp only
    split <;> rfl
  have hseqs : ∀ t : State, ∀ j : Job, (t.noteIssue r j).seqs = t.seqs ∧ (t.noteIssue r j).drt = t.drt := by
    intro t j
    unfold State.noteIssue
    dsimp only
    rw [State.trace_seqs, State.trace_drt]
    split
    · exact ⟨rfl, rfl⟩
    · rw [State.ctxReset_seqs, State.ctxReset_drt]
      exact ⟨rfl, rfl⟩
  unfold State.issue
  dsimp only
  rw [hnames, hready, (hseqs _ _).1, (hseqs _ _).2]
  exact ⟨State.served_seqs .., State.served_drt .., hserved⟩

end

/-! ### SEQ.CREATE -/

section
variable {s : State} {a : At} {r : JRec} {slot : Nat} {d : Side}

theorem issueNames_create (hop : r.inst.opcode = 0x10) : s.issueNames (s.job r) = [] := by
  have hjob : (s.job r).inst.opcode = 0x10 := hop
  unfold State.issueNames State.namesOf
  rw [hjob]
  rfl

/-- R54: the checks of SEQ.CREATE pass in a part as the instruction has issued. -/
theorem createChk_passes {j : Job} (hslot : s.profileSlot (bits j.w0.toNat 0 32) = some slot) (hhome : bits j.w0.toNat 32 2 ≠ 3)
    (hlayer : j.layerErr (s.profile slot).layers = none) : createChk j s = .good {} s := by
  unfold createChk
  rw [hslot]
  dsimp only
  rw [if_neg hhome, hlayer]
  rfl

/-- R54, R76-R80: the part when SEQ.CREATE has made its sequence, its completion aside. -/
def State.created (s : State) (r : JRec) (slot : Nat) (d : Side) : State :=
  ((begun s r).newSeq d (s.freshSeq (jobAt s r) slot)).2

/-- R54: what SEQ.CREATE does. -/
theorem exec_seqCreate (h : Runs a r s) (hop : r.inst.opcode = 0x10)
    (hslot : s.profileSlot (bits (jobAt s r).w0.toNat 0 32) = some slot) (hhome : bits (jobAt s r).w0.toNat 32 2 ≠ 3)
    (hlayer : (jobAt s r).layerErr (s.profile slot).layers = none)
    (hdie : s.seqDie (bits (jobAt s r).w0.toNat 32 2) (s.profile slot).layers = some d) :
    exec (.seqCreate a) s = .next (ended (s.created r slot d) a
      { result := BitVec.ofNat 64 (seqHandle (s.newKey d) (nextGen (s.newKey d) (s.seq (s.newKey d)).gen)) }) := by
  obtain ⟨hseqs, hdrt, hready⟩ := State.issue_unnamed (issueNames_create (s := s) hop)
  have hprofiles : (s.issue r).profiles = s.profiles := State.profiles_of_other (issuedAt_other s r)
  have hprofile : (s.issue r).profile slot = s.profile slot := congrArg (fun t : Tbl Profile => t.lookD slot {}) hprofiles
  have hslot' : (s.issue r).profileSlot (bits (jobAt s r).w0.toNat 0 32) = some slot := by
    unfold State.profileSlot
    rw [hprofiles]
    exact hslot
  have hpasses := createChk_passes (s := s.issue r) hslot' hhome (by rw [hprofile]; exact hlayer)
  have hseqs' : (begun s r).seqs = s.seqs := (State.keepSnap_seqs ..).trans hseqs
  have hprofile' : (begun s r).profile slot = s.profile slot := hprofile
  have hdie' : (begun s r).seqDie (bits (jobAt s r).w0.toNat 32 2) ((begun s r).profile slot).layers = some d := by
    rw [hprofile', State.seqDie_congr hseqs' hprofiles hready hdrt]
    exact hdie
  have hbody := createBody_creates (s := begun s r) (j := { jobAt s r with snap := {} }) hslot' hdie'
  have hkey : (begun s r).newKey d = s.newKey d := by
    unfold State.newKey State.liveSeqs
    rw [hseqs']
  have hgen : ((begun s r).seq (s.newKey d)).gen = (s.seq (s.newKey d)).gen := by
    unfold State.seq
    rw [hseqs']
  have hfresh : (begun s r).freshSeq { jobAt s r with snap := {} } slot = s.freshSeq (jobAt s r) slot := by
    unfold State.freshSeq
    rw [hprofile']
  rw [hkey, hgen, hfresh] at hbody
  refine congrArg Host.Outcome.next ((runHob_passes createChk createBody h hop hpasses).trans ?_)
  rw [hbody]
  rfl

theorem created_seq (hop : r.inst.opcode = 0x10) :
    ((s.created r slot d).seq (s.newKey d) = { s.freshSeq (jobAt s r) slot with
      state := .live, gen := nextGen (s.newKey d) (s.seq (s.newKey d)).gen, created := (begun s r).now, inflight := 0
      lastWalk := (begun s r).now.toNat, dirCold := false, tableRec := none }) ∧
    (∀ k, k ≠ s.newKey d → (s.created r slot d).seq k = s.seq k) := by
  have hseqs : (begun s r).seqs = s.seqs :=
    (State.keepSnap_seqs ..).trans (State.issue_unnamed (issueNames_create (s := s) hop)).1
  have hkey : (begun s r).newKey d = s.newKey d := by
    unfold State.newKey State.liveSeqs
    rw [hseqs]
  have hseq : ∀ k, (begun s r).seq k = s.seq k := by
    intro k
    unfold State.seq
    rw [hseqs]
  have hself := State.seq_setSeq_self (s := begun s r) ((begun s r).newKey d) { s.freshSeq (jobAt s r) slot with
      state := .live, gen := nextGen ((begun s r).newKey d) ((begun s r).seq ((begun s r).newKey d)).gen
      created := (begun s r).now, inflight := 0, lastWalk := (begun s r).now.toNat, dirCold := false, tableRec := none }
  refine ⟨?_, fun k hk => ?_⟩
  · rw [hkey, hseq] at hself
    rw [← hself, ← hkey]
    unfold State.created State.newSeq
    rw [← hseq]
    rfl
  · exact (State.seq_setSeq_ne _ _ (by rw [← hkey] at hk; exact hk)).trans (hseq k)

/-- R54, R76-R80: what SEQ.CREATE leaves. -/
theorem seqCreate_leaves (h : Runs a r s) (hop : r.inst.opcode = 0x10) (hlen : (s.ring a.ring).regs.length = 64) (v : BitVec 64) :
    HoldsDone (ended (s.created r slot d) a { result := v }) a r.inst.dst St.ok v ∧
    SameMemory s (ended (s.created r slot d) a { result := v }) ∧
    (a.step = none → ∀ k, (ended (s.created r slot d) a { result := v }).seq k = (s.created r slot d).seq k) := by
  have hjrn : (s.created r slot d).jrn = (begun s r).jrn := rfl
  have hok : St.ok ≠ St.skipped := by decide
  obtain ⟨hdone, hsame⟩ := begun_done h hlen (t := s.created r slot d) { result := v } rfl hok rfl hjrn rfl rfl
  refine ⟨hdone, hsame, fun hstep k => ?_⟩
  have hrec := begun_rec h.1
  rw [← State.rec?_congr hjrn a] at hrec
  unfold State.seq
  rw [ended_seqs hrec rfl hstep (issueNames_create hop) rfl]

end

/-! ### SEQ.HINT and SEQ.QUERY -/

section
variable {s s0 : State} {a : At} {r : JRec} {n : Snap}

theorem hintBody_obj {j : Job} {s : State} (hobj : hintsObj j = true) : hintBody j s =
    succeeds 0 (s.hintObj (bits j.w0.toNat 21 1 * 2048 + bits j.w0.toNat 0 11) (hintsOf j.w1.toNat) j.inst.x0) := by
  unfold hintBody
  exact if_pos hobj

theorem hintBody_seq {j : Job} {s : State} (hobj : hintsObj j = false) : hintBody j s =
    succeeds 0 ((j.layersOf (s.seq (seqKey j.w0.toNat)).layers.length).foldl
      (fun s l => s.hintLayer j.ctx (seqKey j.w0.toNat) l (hintsOf j.w1.toNat) j.inst.x0)
      (s.setSeq (seqKey j.w0.toNat) { s.seq (seqKey j.w0.toNat) with
        hints := (s.seq (seqKey j.w0.toNat)).hints.change (hintsOf j.w1.toNat) j.inst.x0 })) := by
  unfold hintBody
  exact if_neg (by rw [hobj]; exact Bool.false_ne_true)

/-- R54: SEQ.HINT whose checks pass. -/
theorem exec_seqHint (h : Runs a r s) (hop : r.inst.opcode = 0x13) (hc : Passes hintChk s r n s0) {v : State}
    (hbody : hintBody (jobWith s r n) (passed s0 r n) = succeeds 0 v) : exec (.seqHint a) s = .next (ended v a {}) := by
  refine congrArg Host.Outcome.next ((runHob_good hintBody h hop hc (hintChk_good hc).2).trans ?_)
  rw [hbody]
  rfl

/-- R54: what SEQ.QUERY answers, in a part whose sequences have the layers of `s`. -/
theorem queryBody_answers {j : Job} {t : State} (hlayers : (t.seq (seqKey j.w0.toNat)).layers = (s.seq (seqKey j.w0.toNat)).layers) :
    queryBody j t = succeeds (if j.allLayers then s.minLen (seqKey j.w0.toNat)
      else (s.layer (seqKey j.w0.toNat) j.layer.toNat).length) (t.walked (seqKey j.w0.toNat)) := by
  unfold queryBody State.minLen State.layer
  dsimp only
  rw [hlayers]

theorem State.walked_layers (s : State) (k k' : Nat) : ((s.walked k).seq k').layers = (s.seq k').layers := by
  unfold State.walked
  by_cases hk : k' = k
  · subst hk
    rw [State.seq_setSeq_self]
  · rw [State.seq_setSeq_ne _ _ hk]

/-- R54: SEQ.QUERY whose checks pass. -/
theorem exec_seqQuery (h : Runs a r s) (hop : r.inst.opcode = 0x14) (hc : Passes tablesChk s r n s0)
    (hlen : (s.ring a.ring).regs.length = 64) {k : Nat} (hk : k = seqKey (jobWith s r n).w0.toNat) :
    ∃ t, exec (.seqQuery a) s = .next t ∧
      HoldsDone t a r.inst.dst St.ok (BitVec.ofNat 64 (if (jobWith s r n).allLayers then s.minLen k
        else (s.layer k (jobWith s r n).layer.toNat).length)) ∧
      (∀ k', (t.seq k').layers = (s.seq k').layers) ∧ SameMemory s t := by
  obtain ⟨rfl, rfl⟩ := tablesChk_good hc
  subst hk
  have hlayers : ∀ k, ((begun s r).seq k).layers = (s.seq k).layers := fun k => (State.layers_unseen k).begun s r
  have hbody := queryBody_answers (j := jobWith s r {}) (t := begun s r) (hlayers _)
  let d : Done := { result := BitVec.ofNat 64 (if (jobWith s r {}).allLayers then s.minLen (seqKey (jobWith s r {}).w0.toNat)
    else (s.layer (seqKey (jobWith s r {}).w0.toNat) (jobWith s r {}).layer.toNat).length) }
  have hjrn : ((begun s r).walked (seqKey (jobWith s r {}).w0.toNat)).jrn = (begun s r).jrn := rfl
  obtain ⟨hdone, hsame⟩ := begun_done h hlen (t := (begun s r).walked (seqKey (jobWith s r {}).w0.toNat)) d rfl
    (show St.ok ≠ St.skipped by decide) rfl hjrn rfl rfl
  refine ⟨ended ((begun s r).walked (seqKey (jobWith s r {}).w0.toNat)) a d, ?_, hdone, fun k' => ?_, hsame⟩
  · refine congrArg Host.Outcome.next ((runHob_good queryBody h hop hc rfl).trans ?_)
    show (settle a (queryBody (jobWith s r {}) (begun s r))).markFree = _
    rw [hbody]
    rfl
  · exact ((State.layers_unseen k').begun_ended d h hjrn).trans ((State.walked_layers ..).trans (hlayers k'))

end

/-! ### SEQ.DESTROY and SEQ.TRUNC begin (R91, R92) -/

section
variable {s : State} {a : At} {r : JRec} {k : Nat} {st : SeqState}

/-- R92, R202: a sequence marked, its tables asked for. -/
def State.seqMarked (s : State) (j : Job) (st : SeqState) : State :=
  let k := seqKey j.w0.toNat
  let s := s.setSeq k { s.seq k with state := st }
  if (s.seq k).dirCold then s.requestTables k (s.ring j.site.ring).cls.toNat else s

theorem State.markSeq_marks {j : Job} (hprev : j.prev = none) :
    s.markSeq j st = .wait (.seqIdle (seqKey j.w0.toNat)) (s.seqMarked j st) := by
  unfold State.markSeq
  rw [hprev]
  rfl

theorem State.requestTables_leaves (s : State) (k prio : Nat) : (s.requestTables k prio).seqs = s.seqs ∧
    (s.requestTables k prio).mem = s.mem ∧ (s.requestTables k prio).jrn = s.jrn := by
  unfold State.requestTables
  dsimp only
  split <;> exact ⟨rfl, rfl, rfl⟩

theorem State.seqMarked_leaves (s : State) (j : Job) (st : SeqState) :
    (s.seqMarked j st).seqs = (s.setSeq (seqKey j.w0.toNat) { s.seq (seqKey j.w0.toNat) with state := st }).seqs ∧
    (s.seqMarked j st).mem = s.mem ∧ (s.seqMarked j st).jrn = s.jrn := by
  unfold State.seqMarked
  dsimp only
  split
  · obtain ⟨hseqs, hmem, hjrn⟩ := State.requestTables_leaves
      (s.setSeq (seqKey j.w0.toNat) { s.seq (seqKey j.w0.toNat) with state := st }) (seqKey j.w0.toNat)
      ((s.setSeq (seqKey j.w0.toNat) { s.seq (seqKey j.w0.toNat) with state := st }).ring j.site.ring).cls.toNat
    exact ⟨hseqs, hmem, hjrn⟩
  · exact ⟨rfl, rfl, rfl⟩

/-- R46: the record of an instruction that begins to wait. -/
theorem waiting_rec {x : JRec} (hx : s.rec? a = some x) (hissued : x.state = .issued) (w : Wait) :
    ∃ y, (waiting s a w).rec? a = some y ∧ y.state = .issued ∧ y.wait = some w := by
  have hheld : ∀ z : JRec, (z.hold w s.now.toNat).site = z.site ∧ (z.hold w s.now.toNat).state = z.state ∧
      (z.hold w s.now.toNat).wait = some w := by
    intro z
    unfold JRec.hold
    split <;> exact ⟨rfl, rfl, rfl⟩
  obtain ⟨-, hstate, hwait⟩ := hheld x
  refine ⟨x.hold w s.now.toNat, ?_, hstate.trans hissued, hwait⟩
  exact State.rec?_markFree (State.rec?_updRec _ hx fun z => (hheld z).1) (by rw [hstate, hissued]; exact JState.noConfusion)

theorem waiting_seqs (s : State) (a : At) (w : Wait) : (waiting s a w).seqs = s.seqs := by
  unfold waiting settle State.markFree
  dsimp only
  rw [State.mapRecs_seqs, State.updRec_seqs]

/-- R91, R92: what an instruction that marks its sequence leaves while it waits. -/
theorem marked_waits (h : Runs a r s) {u : State} (hseqs : u.seqs = ((begun s r).setSeq k { (begun s r).seq k with state := st }).seqs)
    (hmem : u.mem = (begun s r).mem) (hjrn : u.jrn = (begun s r).jrn) :
    ((waiting u a (.seqIdle k)).seq k).state = st ∧ ((waiting u a (.seqIdle k)).seq k).layers = (s.seq k).layers ∧
      (∃ x, (waiting u a (.seqIdle k)).rec? a = some x ∧ x.state = .issued ∧ x.wait = some (.seqIdle k)) ∧
      SameMemory s (waiting u a (.seqIdle k)) := by
  have hseq : (waiting u a (.seqIdle k)).seq k = { (begun s r).seq k with state := st } := by
    refine Eq.trans ?_ (State.seq_setSeq_self (s := begun s r) k { (begun s r).seq k with state := st })
    unfold State.seq at hseqs ⊢
    rw [waiting_seqs, hseqs]
  have hrec := begun_rec h.1
  rw [← State.rec?_congr hjrn a] at hrec
  refine ⟨by rw [hseq], ?_, waiting_rec hrec rfl _, fun x => ?_⟩
  · rw [hseq]
    exact (State.layers_unseen k).begun s r
  · rw [waiting_mem, hmem, begun_mem]

theorem namedChk_passes {j : Job} (hnamed : s.badNamed j j.w0 = none) : namedChk j s = .good {} s := by
  unfold namedChk
  rw [hnamed]
  rfl

/-- R91, R92: a command whose body marks a sequence. -/
theorem runHob_marks {op : Nat} {body : Job → State → Out} (hbody : ∀ j s, body j s = s.markSeq j st) (h : Runs a r s)
    (hop : r.inst.opcode = op) (hnamed : (issuedAt s r).badNamed (jobAt s r) (jobAt s r).w0 = none)
    (hk : k = seqKey (jobAt s r).w0.toNat) : ∃ t, runHob op a namedChk body s = t ∧ (t.seq k).state = st ∧
      (t.seq k).layers = (s.seq k).layers ∧ (∃ x, t.rec? a = some x ∧ x.state = .issued ∧ x.wait = some (.seqIdle k)) ∧
      SameMemory s t := by
  subst hk
  obtain ⟨hseqs, hmem, hjrn⟩ := State.seqMarked_leaves (begun s r) { jobAt s r with snap := {} } st
  refine ⟨_, ?_, marked_waits h hseqs hmem hjrn⟩
  rw [runHob_passes namedChk body h hop (namedChk_passes hnamed), hbody, State.markSeq_marks (j := { jobAt s r with snap := {} }) rfl]
  rfl

end

/-! ### SEQ_DESTROY_RELEASE (R92) -/

section
variable {s : State} {a : At} {r : JRec} {k : Nat}

theorem State.releaseSeq_seq (s : State) (k : Nat) : (s.releaseSeq k).seq k = { gen := (s.seq k).gen } := by
  have hpte : ∀ (t : State) (e : Nat × Pte),
      (if e.2.v then (if e.2.kept then t.keep e.2.handle false else t).releaseRef e.2.handle else t).seqs = t.seqs := by
    intro t e
    split
    · refine (PagesOnly.refl _).releaseRef.seqs.trans ?_
      split <;> rfl
    · rfl
  unfold State.releaseSeq
  refine (State.seq_setSeq_self ..).trans ?_
  unfold State.seq
  rw [foldl_keeps State.seqs _ (fun t l => foldl_keeps State.seqs _ hpte _ t)]

theorem destroyGo_releases {j : Job} (hstate : (s.seq k).state = .destroying) (hidle : (s.seq k).inflight = 0)
    (hwarm : (s.seq k).dirCold = false) : destroyGo j (.seqIdle k) s = some (succeeds 0 (s.releaseSeq k)) := by
  unfold destroyGo
  dsimp only
  exact if_pos (by rw [hstate, hidle, hwarm]; decide)

theorem exec_seqDestroyRelease (h : GoesOn a r s) (hop : r.inst.opcode = 0x11) (hwait : r.wait = some (.seqIdle k))
    (hstate : (s.seq k).state = .destroying) (hidle : (s.seq k).inflight = 0) (hwarm : (s.seq k).dirCold = false) :
    exec (.seqDestroyRelease a) s = .next (ended (s.releaseSeq k) a {}) :=
  congrArg Host.Outcome.next (goOn_goesOn h hop hwait (destroyGo_releases hstate hidle hwarm))

end

/-! ### SEQ_TRUNC_PROCEED (R91) -/

section
variable {s : State} {k l len : Nat}

theorem layer_beyond (h : (s.seq k).layers.length ≤ l) : s.layer k l = {} := by
  unfold State.layer
  rw [List.getD_eq_getElem?_getD, List.getElem?_eq_none h]
  rfl

theorem State.shorten_lengths (s : State) (k l len : Nat) : ((s.shorten k l len).seq k).layers.length = (s.seq k).layers.length ∧
    ∀ m, ((s.shorten k l len).layer k m).length = if m = l then Nat.min (s.layer k l).length len else (s.layer k m).length := by
  unfold State.shorten
  dsimp only
  split
  next hshort =>
    refine ⟨rfl, fun m => ?_⟩
    split
    next hm => rw [hm]; exact (Nat.min_eq_left hshort).symm
    · rfl
  next hlong =>
    generalize pageRange (Nat.max (pagesOf len) (s.layer k l).basePg) (pagesOf (s.layer k l).length) = ps
    have hdropped : LengthsKept s (ps.foldl (fun s n => s.dropRef k l n) s) := (LengthsKept.refl s).foldl fun _ _ ht => ht.dropRef
    generalize ps.foldl (fun s n => s.dropRef k l n) s = u at hdropped
    generalize Nat.min (s.layer k l).basePg (pagesOf len) = base
    have hl : l < (s.seq k).layers.length := by
      refine Nat.lt_of_not_le fun hge => hlong ?_
      rw [layer_beyond hge]
      exact Nat.zero_le _
    have hfixed : LengthsKept (u.setLayer k l { u.layer k l with length := len, basePg := base }) _ :=
      (LengthsKept.refl _).fixOpen (k := k) (l := l)
    refine ⟨?_, fun m => ?_⟩
    · rw [hfixed.count k, ← hdropped.count k]
      unfold State.setLayer
      rw [State.seq_setSeq_self]
      exact List.length_set
    · rw [hfixed.layer k m]
      split
      next hm =>
        rw [hm, layer_setLayer_self _ _ (by rw [hdropped.count k]; exact hl)]
        exact (Nat.min_eq_right (Nat.le_of_not_le hlong)).symm
      next hm =>
        rw [layer_setLayer_ne _ _ (fun e => hm (congrArg Prod.snd e))]
        exact hdropped.layer k m

/-- R91: the layers of a list shortened. -/
theorem foldl_shorten_lengths (k len : Nat) : ∀ (ls : List Nat) (s : State) (m : Nat),
    ((ls.foldl (fun s l => s.shorten k l len) s).layer k m).length =
      if m ∈ ls then Nat.min (s.layer k m).length len else (s.layer k m).length
  | [], _, _ => by rw [List.foldl_nil, if_neg List.not_mem_nil]
  | l :: ls, s, m => by
    rw [List.foldl_cons, foldl_shorten_lengths k len ls, (s.shorten_lengths k l len).2 m]
    by_cases hm : m = l
    · subst hm
      have htwice : Nat.min (Nat.min (s.layer k m).length len) len = Nat.min (s.layer k m).length len :=
        Nat.min_eq_left (Nat.min_le_right _ _)
      rw [if_pos rfl, if_pos List.mem_cons_self, htwice, ite_self]
    · rw [if_neg hm]
      simp only [List.mem_cons, hm, false_or]

/-- R91: a truncated sequence, no page of which is cut. -/
def State.truncated (s : State) (a : At) (k len : Nat) : State :=
  ((List.range (s.seq k).layers.length).foldl (fun s l => s.shorten k l len) (s.use a [])).relive k

theorem State.cutLayers_uncut : ∀ {ls : List Nat}, (∀ l, l ∈ ls → s.cutOf k l len = .nothing) →
    State.cutLayers k len ls s = .ready s
  | [], _ => rfl
  | l :: ls, h => by
    have hlayer : s.cutLayer k l len = .ready s := by
      unfold State.cutLayer
      rw [h l List.mem_cons_self]
    rw [State.cutLayers, hlayer]
    exact State.cutLayers_uncut fun m hm => h m (List.mem_cons_of_mem _ hm)

theorem State.use_cutOf (s : State) (a : At) (hs : List Nat) (k l len : Nat) : (s.use a hs).cutOf k l len = s.cutOf k l len := rfl

/-- R91: a truncation that cuts no page. -/
theorem truncRun_uncut {j : Job} (h : ∀ l, l < (s.seq k).layers.length → s.cutOf k l len = .nothing) :
    truncRun k len j s = succeeds ((s.truncated j.site k len).maxLen k) (s.truncated j.site k len) := by
  have hcuts : (List.range (s.seq k).layers.length).map (fun l => (l, s.cutOf k l len)) =
      (List.range (s.seq k).layers.length).map (fun l => (l, Cut.nothing)) :=
    List.map_congr_left fun l hl => by rw [h l (List.mem_range.mp hl)]
  have hready := State.cutLayers_uncut (s := s.use j.site []) (ls := List.range (s.seq k).layers.length)
    fun l hl => (s.use_cutOf j.site [] k l len).trans (h l (List.mem_range.mp hl))
  unfold truncRun
  dsimp only
  rw [hcuts]
  have haway : ∀ {β : Type} (f : Nat × Cut → Option β), (∀ l, f (l, .nothing) = none) →
      ((List.range (s.seq k).layers.length).map (fun l => (l, Cut.nothing))).filterMap f = [] := by
    intro β f hf
    rw [List.filterMap_map, List.filterMap_eq_nil_iff]
    exact fun l _ => hf l
  have hmissing : ∀ {β : Type} (f : Nat × Cut → List β), (∀ l, f (l, .nothing) = []) →
      ((List.range (s.seq k).layers.length).map (fun l => (l, Cut.nothing))).flatMap f = [] := by
    intro β f hf
    rw [List.flatMap_map, List.flatMap_eq_nil_iff]
    exact fun l _ => hf l
  refine (if_neg ?_).trans ((if_neg ?_).trans ?_)
  · rw [haway]
    · exact Bool.false_ne_true
    · exact fun _ => rfl
  · simp
  · rw [haway (fun c => c.2.page) fun _ => rfl, hready]
    dsimp only
    refine (if_pos ?_).trans rfl
    rw [hmissing]
    · rfl
    · exact fun _ => rfl

theorem truncGo_runs {j : Job} {w : Wait} (hheld : s.heldSeq j.ctx j.w0 = some k) (hstate : (s.seq k).state = .truncating)
    (hidle : (s.seq k).inflight = 0) (hwarm : (s.seq k).dirCold = false) :
    truncGo j w s = some (truncRun k (bits j.w1.toNat 0 32) j s) := by
  unfold truncGo
  rw [hheld]
  exact if_pos (by rw [hstate, hidle, hwarm]; decide)

theorem truncated_live (s : State) (a : At) (k len : Nat) : ((s.truncated a k len).seq k).state = .live :=
  congrArg Seq.state (State.seq_setSeq_self ..)

/-- R91: every layer of a truncated sequence is at most as long as asked. -/
theorem truncated_lengths (s : State) (a : At) (k len l : Nat) :
    ((s.truncated a k len).layer k l).length = Nat.min (s.layer k l).length len := by
  have hrelive : ∀ u : State, (u.relive k).layer k l = u.layer k l := by
    intro u
    unfold State.relive State.layer
    rw [State.seq_setSeq_self]
  unfold State.truncated
  rw [hrelive, foldl_shorten_lengths, show (s.use a []).layer k l = s.layer k l from rfl]
  split
  · rfl
  next hout =>
    have hnone : (s.layer k l).length = 0 :=
      congrArg Layer.length (layer_beyond (Nat.le_of_not_lt fun hlt => hout (List.mem_range.mpr hlt)))
    rw [hnone]
    exact (Nat.zero_min len).symm

theorem exec_seqTruncProceed {a : At} {r : JRec} (h : GoesOn a r s) (hop : r.inst.opcode = 0x12)
    (hheld : s.heldSeq (s.job r).ctx (s.job r).w0 = some k) (hstate : (s.seq k).state = .truncating) (hidle : (s.seq k).inflight = 0)
    (hwarm : (s.seq k).dirCold = false) (hlen : len = bits (s.job r).w1.toNat 0 32)
    (huncut : ∀ l, l < (s.seq k).layers.length → s.cutOf k l len = .nothing) :
    exec (.seqTruncProceed a) s = .next (ended (s.truncated (s.job r).site k len) a
      { result := BitVec.ofNat 64 ((s.truncated (s.job r).site k len).maxLen k) }) := by
  obtain ⟨w, hw⟩ := Option.isSome_iff_exists.mp h.2.2.1
  have hgo := truncGo_runs (w := w) hheld hstate hidle hwarm
  rw [← hlen, truncRun_uncut huncut] at hgo
  exact congrArg Host.Outcome.next (goOn_goesOn h hop hw hgo)

end

/-- Settles O21: the equation of each command, and what it leaves of the sequences. -/
theorem sequencesServed : Obligations.SequencesServed := by
  unfold Obligations.SequencesServed
  refine ⟨fun a r s slot d h hop hlen hslot hhome hlayer hdie => ?_, fun a r s s0 n h => ?_, fun a r s k => ⟨?_, ?_, ?_, ?_⟩⟩
  · obtain ⟨hself, hothers⟩ := created_seq (s := s) (r := r) (slot := slot) (d := d) hop
    obtain ⟨hhomed, hfree⟩ := State.newKey_free (State.seqDie_room hdie)
    obtain ⟨hdone, hsame, hkept⟩ := seqCreate_leaves (slot := slot) (d := d) h hop hlen
      (BitVec.ofNat 64 (seqHandle (s.newKey d) (nextGen (s.newKey d) (s.seq (s.newKey d)).gen)))
    refine ⟨_, s.created r slot d, s.newKey d, exec_seqCreate h hop hslot hhome hlayer hdie, rfl, hfree, hhomed, hdone,
      ?_, ?_, ?_, ?_, ?_, ?_, ?_, hothers, hkept, hsame⟩
    all_goals rw [hself]
    all_goals rfl
  · intro j k s1
    refine ⟨fun hop hc hobj => ?_, fun hop hc hobj => ?_, fun hop hc hlen => exec_seqQuery h hop hc hlen rfl⟩
    · exact exec_seqHint h hop hc (hintBody_seq hobj)
    · exact exec_seqHint h hop hc (hintBody_obj hobj)
  · intro h hop hnamed hk
    obtain ⟨t, hdo, hleft⟩ := runHob_marks (body := destroyBody) (fun _ _ => rfl) h hop hnamed hk
    exact ⟨t, congrArg Host.Outcome.next hdo, hleft⟩
  · intro h hop hnamed hk
    obtain ⟨t, hdo, hleft⟩ := runHob_marks (body := truncBody) (fun _ _ => rfl) h hop hnamed hk
    exact ⟨t, congrArg Host.Outcome.next hdo, hleft⟩
  · intro h hop hwait hstate hidle hwarm
    refine ⟨exec_seqDestroyRelease h hop hwait hstate hidle hwarm, ?_⟩
    rw [State.releaseSeq_seq]
    exact ⟨rfl, rfl, rfl⟩
  · intro h hop hheld hstate hidle hwarm len hlen huncut
    exact ⟨_, exec_seqTruncProceed h hop hheld hstate hidle hwarm hlen huncut, truncated_live .., truncated_lengths _ _ _ _⟩

end Machine
end Sys2Proof
end
